-- ==== Sys2Proof/Word.lean ====
section
/-! DEFINITION. Bytes and byte strings. -/
namespace Sys2Proof

/-- One byte as it travels on a service, a bus or a line. -/
abbrev Byte := BitVec 8

/-- A byte string, byte 0 first. -/
abbrev Bytes := List Byte

end Sys2Proof
end

