-- ==== Sys2Proof/Syntax.lean ====
section
/-! DEFINITION. The commands the block takes from outside, with the operands they carry. -/
namespace Sys2Proof

/-- The five Almanac services (Table 2.6), in the order in which `A:1041` counts them. -/
inductive Service where
  | pcie | hs | udp | can | stack
  deriving DecidableEq, Repr

/-- Source identity of an Almanac request (Table 2.6). -/
inductive Source where
  /-- Host of a member, over PCIe or HS. -/
  | host (member : Nat)
  /-- IPv6 or IPv4-mapped address and UDP port. -/
  | udp (addr port : Nat)
  /-- CAN channel C00–C23 and request identifier. -/
  | can (ch ident : Nat)
  deriving DecidableEq, Repr

/-- Addressing of a received UDP datagram: source address and port, destination port, VLAN (0 untagged). -/
structure UdpEnd where
  addr : Nat
  port : Nat
  dport : Nat
  vid : Nat
  deriving DecidableEq, Repr

/-- An event of the event bus as a unit outside the modelled operations raises it (R28, Table 18.5). -/
structure ExtEvent where
  source : Nat
  vector : Option Nat
  code : Nat
  path : Bytes
  data : Bytes
  deriving DecidableEq, Repr

/-- A gPTP message as the protocol engine parses it; its timestamp point is the time of the command (R70).
`origin` is the origin timestamp in ns, `corr` the correctionField in 2^-16 ns, `rate` the cumulative rate
ratio minus one in 2^-41, `gm` the grandmaster identity and `utc` the currentUtcOffset of an Announce. (DEDUCED: log entry 52.) -/
structure PtpMsg where
  port : Nat
  domain : Nat
  seq : Nat
  twoStep : Bool
  origin : Nat
  corr : Int
  log : Int
  rate : Int
  gm : Nat
  utc : Int
  /-- Of an Announce: the grandmaster's priorities and clockClass. -/
  prio1 : Nat := 0
  prio2 : Nat := 0
  clockClass : Nat := 0
  deriving DecidableEq, Repr

/-- What a read of one memory line finds (R455): the symbols to correct, or why it is uncorrectable. (DESIGN CHOICE: log entry 143.) -/
inductive LineRead where
  | clean
  | corrected (symbols : Nat)
  | uncorrectable
  | tagParity
  | wrongDomain
  | poisoned
  deriving DecidableEq, Repr

/-- A spare row or column (R469). -/
inductive Spare where
  | row | column
  deriving DecidableEq, Repr

/-- What the march of a block gives (R465, R469): what its reads return, by operation number, where a read that is not listed returns the bits expected; the spares that replace the failing rows and columns; and the reads of the retest. (PRESUMED: log entry 184; DESIGN CHOICE: log entry 199.) -/
structure BlockTest where
  reads : List (Nat × Bytes)
  spares : List Spare
  retest : List (Nat × Bytes)
  deriving DecidableEq, Repr


/-- A line that the patrol reads (R462), and the rules whose copies in the array it finds to differ from their shadows there (R170). -/
structure PatrolLine where
  read : LineRead
  upset : List Nat
  deriving DecidableEq, Repr

/-- A PDU job of the Rose: its time, and the key slots whose Binnacle lines it finds uncorrectable (R407). -/
structure PduJob where
  time : Nat
  lostSlots : List Nat
  deriving DecidableEq, Repr

/-- The stack header of a frame on a K link (Table 14.2). -/
structure StackHdr where
  dmem : Nat
  dport : Nat
  smem : Nat
  sport : Nat
  cls : Nat
  pcp : Nat
  dei : Bool
  vid : Nat
  hops : Nat
  oversize : Bool
  tagged : Bool
  deriving DecidableEq, Repr

/-- What a received frame's SecTAG says (R421): association number and packet number. -/
structure SecTag where
  an : Nat
  pn : Nat
  deriving DecidableEq, Repr

/-- A frame on a line: the bytes from the destination address to the last byte before the FCS, as they stand after
SecTAG and ICV are removed; the SecTAG, none on an unprotected frame; the stack header on a K link; and whether it
arrives as a preemptible frame. `badBuckets` names the Chart buckets whose read is uncorrectable during its lookups
(0 and 1 destination in T0 and T1, 2 and 3 source). (DESIGN CHOICE: log entry 12; DEDUCED: log entry 155.) -/
structure EthFrame where
  data : Bytes
  sec : Option SecTag
  hdr : Option StackHdr
  preemptible : Bool
  badBuckets : List Nat
  deriving DecidableEq, Repr

/-- How the reception of a frame ends (R124, R177). -/
inductive RxEnd where
  | good
  | badFcs
  | badIcv
  | linkLoss
  | assemblyError
  | smdError
  deriving DecidableEq, Repr

/-- What one cell time of the fabric meets (R19, R119, R120): for port record and kind (0 express, 1 preemptible) of a frame in
reception the cells of it that its MAC has complete; the port records whose transmit staging has no room; the egress
fabric ports whose cell is read with an uncorrectable error, and those whose next-cell link is lost; and the control words
found with a single-bit error (R116). (DESIGN CHOICE: log entry 61.) -/
structure CellTime where
  written : List (Nat × Nat × Nat)
  full : List Nat
  poisoned : List Nat
  lost : List Nat
  corrected : Nat
  deriving DecidableEq, Repr

/-- The line faults that the integrated PHY monitors (Table 7.4). -/
inductive LineFault where
  | open_ | shortGround | shortSupply | linesShorted | reversed
  deriving DecidableEq, Repr

/-- Which link condition of R176 is lost: the PCS lock, with the invalid blocks or code groups that lost it; a fault received;
or an auto-negotiation word that no longer reports a link, full duplex and a speed, with what it reports (rate 0: no link). -/
inductive LinkLoss where
  | lock (errors : Nat)
  /-- Invalid blocks or code groups that lose no lock (Table 7.5). -/
  | errors (n : Nat)
  | localFault
  | remoteFault
  | word (half : Bool) (rate value : Nat)
  deriving DecidableEq, Repr

/-- A frame on a CAN channel. `ident` has the layout of `A:6020.05`: identifier in [28:0], extended in [29], format in
[31:30] (0 CC data, 1 FD, 2 XL, 3 CC remote). `dlc` is the length a CC remote frame asks for; SDT, SEC, VCID and the
acceptance field belong to XL frames (R224). On a LIN channel `ident` is the identifier. -/
structure CanFrame where
  ident : Nat := 0
  data : Bytes := []
  dlc : Nat := 0
  brs : Bool := false
  esi : Bool := false
  sdt : Nat := 0
  sec : Bool := false
  vcid : Nat := 0
  af : Nat := 0
  deriving DecidableEq, Repr

/-- An error on a CAN bus: its kind (1 stuff, 2 form, 3 ACK, 4 bit with recessive sent, 5 bit with dominant sent, 6 CRC);
whether this channel was transmitting; whether ISO 11898-1 exempts it from the transmit count; whether a receiver saw
dominant after its error flag; and the bit position and field (0 control, 1 data, 2 CRC) after arbitration. (PRESUMED: log entry 77.) -/
structure CanError where
  kind : Nat
  transmitting : Bool
  exempt : Bool
  heavy : Bool
  place : Option (Nat × Nat)
  deriving DecidableEq, Repr

/-- An assertion of HS with an unknown command byte, and the bytes that the host clocks after it (R335). -/
structure HsUnknown where
  cmd : Byte
  rest : Nat
  deriving DecidableEq, Repr

/-- What the host writes to an entry of the MSI-X table (Table 13.1, R336): vector, mask bit, message address and data. (DESIGN CHOICE: log entry 224.) -/
structure MsixEntry where
  vector : Nat
  masked : Bool := false
  address : Nat := 0
  data : Nat := 0
  deriving DecidableEq, Repr

/-- A read of a POP window (R332, R342): offset in the window, bytes, and whether what it reads has an uncorrectable error. (DESIGN CHOICE: log entry 225.) -/
structure PopRead where
  offset : Nat := 0
  bytes : Nat
  abort : Bool := false
  deriving DecidableEq, Repr

/-- What the line shows of a LIN response at its end beside its bytes (R249): nothing wrong, a framing error, or a bit error. -/
inductive LinCheck where
  | good | framing | bit
  deriving DecidableEq, Repr

/-- What a slave has of a header beside the protected identifier (R248, R249): the bit rate measured at the sync byte, the length of the dominant phase before it in periods of 0.8 ns, and whether response bytes of the frame before it had begun. -/
structure LinHead where
  rate : Nat
  brk : Nat
  began : Bool := false
  deriving DecidableEq, Repr

/-- Replies of a transceiver to the reads of a script's check words, in record order: in the first pass and in the repeat (R262). -/
structure ScriptReads where
  first : List Nat
  again : List Nat := []
  deriving DecidableEq, Repr

/-- The new level of a wake input and how long it has lasted, in periods of 0.8 ns (R263). -/
structure WakeLevel where
  active : Bool
  held : Nat
  deriving DecidableEq, Repr

/-- A test of a wake input (R264): the voltage at the pin, and whether the input became active during the test. -/
structure WakeTest where
  millivolts : Nat
  active : Bool := false
  deriving DecidableEq, Repr

/-- What a member says of itself in a hello (R352, R355): member number, firmware and Almanac image versions, boot count, last stack
write sequence applied, stack clock identity, lead, state of Table 14.3, whether its CP0 is held in reset, and the members
at its links that are up. -/
structure MemberInfo where
  member : Nat
  firmware : Nat
  image : Nat
  boots : Nat
  applied : Nat
  clock : Nat
  lead : Nat
  state : Nat
  cp0Held : Bool
  links : List Nat
  /-- Why it is held out, 0 for none. -/
  reason : Nat := 0
  deriving DecidableEq, Repr

/-- A hello (R352): its sender, the K port it left from, and the sender's view of the other members. -/
structure Hello where
  self : MemberInfo
  port : Nat
  others : List MemberInfo
  /-- Its SecTAG, where it came on the controlled port of a K link with MACsec. -/
  sec : Option SecTag := none
  deriving DecidableEq, Repr

/-- What the lane pair of a K link meets (R352, R374): invalid blocks, and whether block lock is lost. -/
structure LockLoss where
  k : Nat
  errors : Nat := 0
  lost : Bool := true
  deriving DecidableEq, Repr

/-- The request that a bridge message answers, as its header tells (Table 14.4): tag, initiating pair, length and address. -/
structure BridgeRef where
  tag : Nat
  pair : Nat
  len : Nat
  addr : Nat
  deriving DecidableEq, Repr

/-- A time message (R364): the lead's zone time in 2^-16 ns when it left, what members and links have added to it, and the lead's zone state and clockClass. -/
structure TimeMsg where
  zt : Nat
  added : Nat
  state : Nat
  clockClass : Nat
  deriving DecidableEq, Repr

/-- The ownership state that the lead sends (R356): owning record and its state of `A:1011`, candidate standing counts, expert gates, and the remaining lease in periods of 0.8 ns. (DESIGN CHOICE: log entry 117.) -/
structure Ownership where
  owner : List (Nat × Nat)
  wins : List Nat
  gates : Nat
  lease : Nat
  deriving DecidableEq, Repr

/-- A removal message (R162): the key, the member that sent it first, and the member that it is for where a frame brought it back. -/
structure Removal where
  key : Nat
  sender : Nat
  target : Option Nat := none
  deriving DecidableEq, Repr

/-- How a forwarded request came (R52): the member at which it arrived, whether its CAN channel is in XL mode, and whether it stood in the queue of a lead that has changed (R356). -/
structure Forwarded where
  member : Nat
  xl : Bool
  old : Bool := false
  deriving DecidableEq, Repr

/-- What the commit of a write says beside the request (R361, R363): its stack write sequence number and the members that the lead's check addressed. -/
structure StackCommit where
  seq : Nat
  members : List Nat
  deriving DecidableEq, Repr

/-- One entry of a READ that another member has returned (R46, R52): path, status and value. -/
structure MemberRead where
  path : Bytes
  status : Nat
  value : Bytes
  deriving DecidableEq, Repr

/-- One object that an Almanac image contains, as the firmware reads it from the image's body (R42, R439): unit in path order, index, subindex, record and value. (PRESUMED: log entry 36.) -/
structure ImageWrite where
  unit : Nat
  idx : Nat
  sub : Nat
  record : Nat
  value : Bytes
  deriving DecidableEq, Repr

/-- What a start of the CORE domain meets outside the modelled units (R429, R438, R439, R441): the flash's state (`A:B800.0A`) and
size in KiB as SFDP tells them, whether pass 2 yields the manifest's digest, the image that the firmware's migration gives, the
objects that it reads from the image it applies, and the milliseconds from the reset release to Standby. (PRESUMED: log entry 36.) -/
structure BootEnv where
  flashState : Nat
  flashSize : Nat
  pass2 : Bool
  migrated : Bytes
  writes : List ImageWrite
  ms : Nat
  deriving DecidableEq, Repr


/-- One constructor per row of spec/opcode_table.json. The first operand `t` of every command is the time of the
command in periods of 0.8 ns of the time clock (Table 3.1) since the always-on supply came up. -/
inductive Instr where
  /-- ALM_DOORBELL (R333): Host writes the request length to ALM_DOORBELL; the device copies the record from ALM_REQ into the server queue, or discards the doorbell while BUSY is set. -/
  | almDoorbell (t : Nat) (len : Nat) (req : Bytes)
  /-- ALM_ACK (R334): Host writes ALM_ACK; READY clears and the next waiting reply or NOTIFY record is placed in ALM_REPLY. -/
  | almAck (t : Nat)
  /-- HS_REQUEST (R50): HS command 0x5A followed by a request record queues the request for the Almanac server. -/
  | hsRequest (t : Nat) (req : Bytes)
  /-- HS_REPLY_FETCH (R50): HS command 0xA5 returns 0x00 when no reply is ready, or 0x01 and the reply record, which also acknowledges the reply. -/
  | hsReplyFetch (t : Nat)
  /-- HS_EVENT_CAUSE_READ (R335): HS command 0x3C returns EVENT_CAUSE as 8 bytes. -/
  | hsEventCauseRead (t : Nat)
  /-- HS_EVENT_CAUSE_CLEAR (R335): HS command 0xC3 clears in EVENT_CAUSE the bits set in its 8 data bytes. -/
  | hsEventCauseClear (t : Nat) (mask : BitVec 64)
  /-- HS_MASK_WRITE (R335): HS command 0x69 writes its 8 data bytes to HS_MASK. -/
  | hsMaskWrite (t : Nat) (mask : BitVec 64)
  /-- HS_MASK_READ (R335): HS command 0x96 returns HS_MASK as 8 bytes. -/
  | hsMaskRead (t : Nat)
  /-- HS_UNKNOWN_COMMAND (R335): An unknown HS command byte is answered with 0xFF bytes for the rest of the assertion and counted. -/
  | hsUnknownCommand (t : Nat) (cmd : HsUnknown)
  /-- UDP_REQUEST (R48): A UDP datagram to the Almanac port carries one request record into the server queue. -/
  | udpRequest (t : Nat) (src : UdpEnd) (req : Bytes)
  /-- CAN_SERVICE_REQUEST (R51): A frame with the request identifier on the CAN service channel carries a request record to the Almanac server. -/
  | canServiceRequest (t : Nat) (ch : Nat) (ident : Nat) (req : Bytes)
  /-- STACK_FORWARDED_REQUEST (R52): A request that arrives at a member other than the lead is forwarded over the stack link and served by the lead under the originating source identity; `origin` is the member and whether the request came by a CAN channel in XL mode. -/
  | stackForwardedRequest (t : Nat) (origin : Forwarded) (svc : Service) (src : Source) (req : Bytes)
  /-- READ (R46): READ request: checked and answered with the value of one unit, or with one entry per unit of a prefix, segmented if longer than 1,024 bytes. -/
  | read (t : Nat) (members : List MemberRead) (lost : Bool)
  /-- WRITE (R47): WRITE request to an object with no behaviour of its own: checked in the order of Table 2.5 and applied at each addressed unit's next frame or PDU boundary. -/
  | write (t : Nat) (lost : Bool)
  /-- CLAIM (R57): CLAIM request: verified against the candidate table and CMAC; it opens or joins an election window, renews the owner's lease, or is refused. -/
  | claim (t : Nat)
  /-- ELECTION_WINDOW_CLOSE (R57): The election window expires; the winner is decided by priority, arrival time and record number, and all participants are answered. -/
  | electionWindowClose (t : Nat)
  /-- RENEW (R60): RENEW from the owner restarts the lease at 1,000 ms. -/
  | renew (t : Nat)
  /-- RELEASE (R63): RELEASE from the owner ends the lease at once, clears the gates and leaves the device unowned. -/
  | release (t : Nat)
  /-- HANDOVER (R63): HANDOVER passes ownership at once to the named candidate record with a new lease, or is refused for an unused or lead-device record. -/
  | handover (t : Nat)
  /-- LEASE_EXPIRY (R61): The lease expires after the requests of its expiry tick have been served; the device becomes unowned. -/
  | leaseExpiry (t : Nat)
  /-- EVENT_BUS_EVENT (R336): An event arrives on the event bus; the Logbook records it, its EVENT_CAUSE bit is set and an MSI-X message follows a 0-to-1 change. -/
  | eventBusEvent (t : Nat) (ev : ExtEvent)
  /-- EVENT_CAUSE_CLEAR (R336): A host write to EVENT_CAUSE clears the written bits, unless an event of that source arrives in the same cycle. -/
  | eventCauseClear (t : Nat) (mask arriving : BitVec 64)
  /-- HS_MASK_BAR_WRITE (R335): A host write of HS_MASK in BAR0 changes which causes assert HS_INT. -/
  | hsMaskBarWrite (t : Nat) (mask : BitVec 64)
  /-- MSIX_UNMASK (R336): Unmasking an MSI-X vector sends the message whose PBA bit is pending. -/
  | msixUnmask (t : Nat) (entry : MsixEntry)
  /-- BAR_IGNORED_WRITE (R332): A BAR write to a reserved offset or to an RO register is ignored and counted. -/
  | barIgnoredWrite (t : Nat) (bar offset : Nat)
  /-- PCIE_LINK_UP (R135): The PCIe link comes up and port record 22 follows it to UP. -/
  | pcieLinkUp (t : Nat) (speed width : Nat)
  /-- PCIE_LINK_DOWN (R345): The PCIe link goes down; every FIFO is flushed at once and record 22 goes down. -/
  | pcieLinkDown (t : Nat)
  /-- FUNCTION_LEVEL_RESET (R345): A PCIe function level reset resets the endpoint function and flushes every FIFO. -/
  | functionLevelReset (t : Nat)
  /-- D3HOT_ENTRY (R345): Entry into D3hot resets the endpoint function and flushes every FIFO. -/
  | d3hotEntry (t : Nat)
  /-- FIFO_HEAD_WRITE (R343): A host write to HEAD opens a packet on a from-host FIFO, discarding any packet still open. -/
  | fifoHeadWrite (t : Nat) (f : Nat) (item : BitVec 64)
  /-- FIFO_DATA_WRITE (R343): A host write to DATA appends data items to the open packet, or is discarded and counted. -/
  | fifoDataWrite (t : Nat) (f : Nat) (items : List (BitVec 64))
  /-- FIFO_END_WRITE (R343): A host write to END closes the packet, which is checked and made visible or discarded whole. -/
  | fifoEndWrite (t : Nat) (f : Nat) (item : BitVec 64)
  /-- FIFO_POP_READ (R342): A host read of POP returns up to COUNT items in priority order, then idle items, consuming only what it returns. -/
  | fifoPopRead (t : Nat) (f : Nat) (read : PopRead) (bad : List Nat)
  /-- FIFO_FLUSH_WRITE (R345): A write to FLUSH or A:9010.07 sets flush pending on the FIFO. -/
  | fifoFlushWrite (t : Nat) (f : Nat)
  /-- FIFO_FLUSH_TAKES_EFFECT (R345): At the first moment with no packet partly read or open, every held packet is discarded and flush pending clears. -/
  | fifoFlushTakesEffect (t : Nat) (f : Nat)
  /-- FIFO_PACKET_TO_HOST (R346): A frame for record 22 is written as a packet into its to-host FIFO once FREE holds the whole packet. -/
  | fifoPacketToHost (t : Nat)
  /-- FIFO_COALESCING_EXPIRY (R344): COUNT has stayed non-zero and below the level for the coalescing time; the FIFO's cause is set. -/
  | fifoCoalescingExpiry (t : Nat) (f : Nat)
  /-- FIFO_PACKET_FROM_HOST (R347): The device reads the next from-host packet of highest PRIO for FP8 ingress, fixing the FCS, padding or discarding it. -/
  | fifoPacketFromHost (t : Nat) (bad : Nat)
  /-- SYNC_RECEIVED (R81): A Sync (with its Follow_Up, or one-step) on a tracked domain's slave port feeds the servo and the domain state machine. -/
  | syncReceived (t : Nat) (m : PtpMsg)
  /-- FOLLOW_UP_RECEIVED (R79): A Follow_Up completes a two-step Sync on a slave port and supplies its origin timestamp to the servo. -/
  | followUpReceived (t : Nat) (m : PtpMsg)
  /-- ANNOUNCE_RECEIVED (R76): An Announce on a slave port restarts its timeout and may change the grandmaster; a zone Announce on a master port is discarded and counted. -/
  | announceReceived (t : Nat) (m : PtpMsg)
  /-- SYNC_RECEIPT_TIMEOUT (R76): No Sync arrived for the receipt timeout; the domain returns to LISTENING and the zone changeover of Table 3.7 is applied. -/
  | syncReceiptTimeout (t : Nat) (dom : Nat)
  /-- ANNOUNCE_RECEIPT_TIMEOUT (R76): No Announce arrived for the receipt timeout; the domain returns to LISTENING and the zone changeover of Table 3.7 is applied. -/
  | announceReceiptTimeout (t : Nat) (dom : Nat)
  /-- BLEND_END (R85): The blend time Tb expires and zone time enters TRACKING of the target domain. -/
  | blendEnd (t : Nat)
  /-- REVERT_HOLD_OFF_EXPIRY (R85): With revertive set, D1 has been LOCKED for the revert hold-off and zone time blends back to D1. -/
  | revertHoldOffExpiry (t : Nat)
  /-- HOLDOVER_LIMIT_EXPIRY (R75): Dead reckoning passes the holdover limit and the zone clockClass becomes 248. -/
  | holdoverLimitExpiry (t : Nat)
  /-- DOMAIN_ENABLE (R76): A write of A:8020.01 enables a tracked domain into LISTENING or disables it, which acts as a receipt timeout for changeover. -/
  | domainEnable (t : Nat)
  /-- ZONE_SYNC_INTERVAL (R75): The Sync interval expires and the device originates a zone Sync on every asCapable master port. -/
  | zoneSyncInterval (t : Nat)
  /-- ANNOUNCE_INTERVAL (R75): The Announce interval expires and the device sends a zone Announce on every master port. -/
  | announceInterval (t : Nat)
  /-- PDELAY_INTERVAL (R78): The peer delay interval expires and a Pdelay_Req is sent on the port. -/
  | pdelayInterval (t : Nat) (port : Nat)
  /-- PDELAY_REQ_RECEIVED (R78): A received Pdelay_Req is answered with a Pdelay_Resp. -/
  | pdelayReqReceived (t : Nat) (port seq : Nat)
  /-- PDELAY_RESP_RECEIVED (R78): A Pdelay_Resp completes a link delay measurement and may make the port asCapable. -/
  | pdelayRespReceived (t : Nat) (port seq : Nat) (t2 t3 : Nat)
  /-- SNAPSHOT (R68): Writing true to A:8000.05 captures one stamp of all four counters into A:8000.06-09. -/
  | snapshot (t : Nat)
  /-- PPS_OUT_EDGE (R90): The selected counter crosses an integer second, less the pad delay, and the PPS output drives its active edge. -/
  | ppsOutEdge (t : Nat) (pin : Nat)
  /-- PPS_OUT_PULSE_END (R90): The PPS pulse width expires and the output returns to inactive. -/
  | ppsOutPulseEnd (t : Nat) (pin : Nat)
  /-- PPS_IN_EDGE (R91): An active PPS_IN edge captures a stamp, or is counted as too close. -/
  | ppsInEdge (t : Nat) (rising : Bool)
  /-- PLOTTER_ENTRY_FIRE (R95): A leg's source reaches an entry's position and the event is delivered to its consumer. -/
  | plotterEntryFire (t : Nat) (leg : Nat)
  /-- LEG_ENABLE (R106): A write of A:8420.01 checks and enables a leg into WAITING, or disables it at once. -/
  | legEnable (t : Nat)
  /-- LEG_START (R106): A WAITING leg reaches its first cycle boundary and enters RUNNING. -/
  | legStart (t : Nat) (leg : Nat)
  /-- SWAP_REQUEST (R107): Writing true to A:8420.0B checks the inactive bank and arms a swap, or exchanges banks at once on a disabled leg. -/
  | swapRequest (t : Nat)
  /-- SWAP_TAKES_EFFECT (R107): At the first cycle boundary at or after the change Bearing the banks exchange roles. -/
  | swapTakesEffect (t : Nat) (leg : Nat)
  /-- PHASE_ENABLE (R99): A write of A:8410.01 enables the phase input into STOPPED or disables it. -/
  | phaseEnable (t : Nat)
  /-- TOOTH_EDGE (R100): A filtered tooth edge on PHASE_IN is stamped and moves the phase input state machine and angle. -/
  | toothEdge (t : Nat) (rising : Bool) (lasted : Nat)
  /-- PHASE_STOP_TIMEOUT (R102): No tooth edge arrived for the stop timeout and the phase input enters STOPPED. -/
  | phaseStopTimeout (t : Nat)
  /-- ETH_FRAME_FIRST_CELL (R128): The first cell of a received Ethernet frame is classified, looked up, policed and admitted or refused whole. -/
  | ethFrameFirstCell (t : Nat) (port : Nat) (fr : EthFrame)
  /-- ETH_FRAME_END (R177): The last byte of a received frame arrives; FCS, length and truncation are settled and a good frame may give a learn request. -/
  | ethFrameEnd (t : Nat) (port : Nat) (preemptible : Bool) (fragments : Nat) (e : RxEnd)
  /-- MAC_CONTROL_RECEIVED (R189): A received PAUSE or PFC frame is consumed and stops the named transmit queues for its pause time. -/
  | macControlReceived (t : Nat) (port : Nat) (data : Bytes)
  /-- PAUSE_EXPIRY (R189): The received pause time runs out and the stopped transmit queues resume. -/
  | pauseExpiry (t : Nat) (port queue : Nat)
  /-- XOFF_RESEND_TIMER (R187): Half the pause time passes while the counter is at or above the low watermark and XOFF is resent. -/
  | xoffResendTimer (t : Nat) (port : Nat)
  /-- FABRIC_MATCH (R120): Once per cell time the scheduler matches eligible VOQs to egress fabric ports and one cell crosses per match. -/
  | fabricMatch (t : Nat) (c : CellTime)
  /-- MIRROR_RECORD (R472): A mirror copy at FP11 is written to the frame recorder ring, or dropped and counted. -/
  | mirrorRecord (t : Nat) (behind : Bool)
  /-- TRANSMIT_START (R183): A frame starts at the transmit MAC once Teff cells or its last cell are in the buffer and its gate, guard and credit permit. -/
  | transmitStart (t : Nat) (port : Nat) (preemptible : Bool)
  /-- TRANSMIT_UNDERRUN (R184): The MAC needs a byte whose cell has not arrived; the frame ends with inverted FCS and Teff rises. -/
  | transmitUnderrun (t : Nat) (port : Nat) (preemptible : Bool)
  /-- FRAME_TRANSMIT_END (R206): The last byte of a frame leaves the MAC; the shaper nodes are charged and the cells freed. -/
  | frameTransmitEnd (t : Nat) (port : Nat) (preemptible : Bool)
  /-- LINK_UP (R176): A port's link conditions are met and the port moves towards UP. -/
  | linkUp (t : Nat) (port rate : Nat) (half : Bool) (word : Nat)
  /-- LINK_DOWN (R176): A port's link is lost; the port enters FLUSHING and its hold-down starts. -/
  | linkDown (t : Nat) (port : Nat) (loss : LinkLoss)
  /-- FLUSH_COMPLETE (R136): The port flush completes and the port enters UP or DOWN HELD. -/
  | flushComplete (t : Nat) (port : Nat)
  /-- HOLD_DOWN_EXPIRY (R137): The hold-down expires in DOWN HELD; the port enters DOWN and its learned addresses are flushed. -/
  | holdDownExpiry (t : Nat) (port : Nat)
  /-- PORT_ENABLE (R176): A write of A:4020.01 enables a port or takes its link down at once. -/
  | portEnable (t : Nat)
  /-- PEAK_RESET (R142): Writing true to A:2000.0C sets every peak field to its in-use value. -/
  | peakReset (t : Nat)
  /-- VERIFY_MPACKET_TIMER (R182): The verify time passes in VERIFYING; another verify mPacket is sent or the state becomes FAILED after three. -/
  | verifyMpacketTimer (t : Nat) (port : Nat)
  /-- RESPOND_MPACKET_RECEIVED (R182): A respond mPacket in VERIFYING makes preemption SUCCEEDED and active. -/
  | respondMpacketReceived (t : Nat) (port : Nat)
  /-- VERIFY_MPACKET_RECEIVED (R182): A received verify mPacket is answered with a respond mPacket in every state except DISABLED. -/
  | verifyMpacketReceived (t : Nat) (port : Nat)
  /-- THRESHOLD_DECAY (R186): A decay interval without underrun lowers Teff by one, not below Tcfg. -/
  | thresholdDecay (t : Nat) (port : Nat)
  /-- THRESHOLD_RESET (R186): Writing true to A:4030.42 sets Teff to Tcfg and clears store-and-forward reached. -/
  | thresholdReset (t : Nat)
  /-- PLCA_CYCLE_START (R191): A coordinator S port starts a PLCA cycle with a BEACON and grants transmit opportunities. -/
  | plcaCycleStart (t : Nat) (port : Nat)
  /-- BEACON_RECEIVED (R192): A received BEACON returns a follower to active, or makes a coordinator step down. -/
  | beaconReceived (t : Nat) (port : Nat) (reversed : Bool)
  /-- BEACON_TIMEOUT (R192): A follower sees no BEACON for the timeout and falls back to CSMA/CD. -/
  | beaconTimeout (t : Nat) (port : Nat)
  /-- PLCA_COLLISION (R192): A collision while PLCA is active is counted and the frame retried in the next opportunity. -/
  | plcaCollision (t : Nat) (port : Nat)
  /-- CSMA_COLLISION (R193): A CSMA/CD collision starts back-off, or drops the frame after 16 attempts or a late collision. -/
  | csmaCollision (t : Nat) (port : Nat) (late : Bool)
  /-- BACKOFF_EXPIRY (R193): The random back-off ends and the frame is retried. -/
  | backoffExpiry (t : Nat) (port : Nat)
  /-- LINE_FAULT_DECLARE (R195): A line fault persisting for 1 ms is declared; the transmitter turns off and the link goes down. -/
  | lineFaultDeclare (t : Nat) (port : Nat) (f : LineFault)
  /-- LINE_FAULT_CLEAR (R195): A fault absent for 10 ms is cleared and the port may resume. -/
  | lineFaultClear (t : Nat) (port : Nat) (f : LineFault)
  /-- CABLE_TEST_START (R197): Writing true to A:4060.11 starts a reflection test on a disabled S port. -/
  | cableTestStart (t : Nat)
  /-- CABLE_TEST_COMPLETE (R197): The reflection test ends with its result and fault distance. -/
  | cableTestComplete (t : Nat) (port result distance : Nat)
  /-- LEARN_ENGINE_INSERT (R152): The learning engine takes a request from the learn queue and inserts, refreshes or moves the entry with cuckoo relocation. -/
  | learnEngineInsert (t : Nat)
  /-- AGEING_SCAN (R160): The ageing scan visits entries, removing aged dynamic entries and clearing expired locks. -/
  | ageingScan (t : Nat) (n : Nat)
  /-- STASH_DRAIN (R154): While idle the engine tries stash entries in their buckets without relocation. -/
  | stashDrain (t : Nat)
  /-- CHART_FLUSH_BY_PORT (R161): A write of A:3070.01 starts a flush of a port's dynamic entries, or of all. -/
  | chartFlushByPort (t : Nat)
  /-- CHART_FLUSH_BY_FID (R161): A write of A:3070.02 starts a flush of a FID's dynamic entries, or of all. -/
  | chartFlushByFid (t : Nat)
  /-- CHART_FLUSH_COMPLETE (R161): The flush sweep ends and the number removed is shown: of a flush by FID, or by port. -/
  | chartFlushComplete (t : Nat) (byFid : Bool)
  /-- LEARN_MESSAGE_RECEIVED (R163): A learn message from another member is applied as a remote entry or ignored under the recent-learn rule. -/
  | learnMessageReceived (t : Nat) (sender key dest : Nat) (stamp : Int)
  /-- REMOVAL_MESSAGE_RECEIVED (R162): A removal message removes a remote entry for its key. -/
  | removalMessageReceived (t : Nat) (r : Removal)
  /-- UNLOCK_ALL (R159): Writing true to A:3005.07 clears every LOCK. -/
  | unlockAll (t : Nat)
  /-- STATIC_ENTRY_ENABLE (R155): A write of A:3050.01 inserts a static entry before the reply, or removes it. -/
  | staticEntryEnable (t : Nat)
  /-- SEED_WRITE (R171): A hash seed write removes dynamic entries and reinserts static entries, disabling any that do not fit. -/
  | seedWrite (t : Nat)
  /-- RULE_ENABLE (R167): A write of A:3040.01 checks and enables a ternary rule, or disables it. -/
  | ruleEnable (t : Nat)
  /-- LEARNING_ENABLE (R156): A write of A:3004.01 starts or stops learning; false empties the learn queue. -/
  | learningEnable (t : Nat)
  /-- PORT_NODE_ENABLE (R201): A write of A:5010.01 checks and enables a shaping port node, or disables it. -/
  | portNodeEnable (t : Nat)
  /-- POLICER_MODE (R218): A write of A:5040.01 checks a policer and fills its buckets, or stops it with mode 0. -/
  | policerMode (t : Nat)
  /-- SAMPLER_VISIT (R219): The sampler visits a leaf queue, recording depth and head-of-line delay in its histograms. -/
  | samplerVisit (t : Nat) (subscriber queue : Nat)
  /-- HISTOGRAM_CLEAR (R221): Writing true to A:5070.03 clears every bin and maximum. -/
  | histogramClear (t : Nat)
  /-- CAN_ENABLE (R226): Writing A:6010.01 true checks the bit timing and moves the channel to INTEGRATING, or BUS-OFF with the bus-off mark. -/
  | canEnable (t : Nat)
  /-- CAN_STOP (R233): Writing A:6010.01 false stops the channel, at once in BUS-OFF with the mark kept. -/
  | canStop (t : Nat)
  /-- CAN_STOP_COMPLETE (R233): The frame in progress ends and the channel enters STOPPED, emptying its buffers, and the reply is sent. -/
  | canStopComplete (t : Nat) (ch : Nat)
  /-- CAN_INTEGRATION_COMPLETE (R229): Eleven consecutive recessive bits move the channel from INTEGRATING to ERROR ACTIVE. -/
  | canIntegrationComplete (t : Nat) (ch : Nat)
  /-- CAN_FRAME_RECEIVED (R232): A frame received without error is delivered to the Rose ingress queue, or to the Almanac server, or dropped on overrun. -/
  | canFrameReceived (t : Nat) (ch : Nat) (frame : CanFrame) (age : Nat)
  /-- CAN_FRAME_START (R237): At a selection point the winning PENDING buffer is copied to staging and its start of frame is sent. -/
  | canFrameStart (t : Nat) (ch : Nat) (bad : Bool) (delay : Nat)
  /-- CAN_ATTEMPT_END (R238): A transmission attempt ends in success or failure and held cancels and replaces are applied. -/
  | canAttemptEnd (t : Nat) (ch : Nat) (ok : Bool)
  /-- CAN_ARBITRATION_LOST (R237): The frame loses arbitration and its buffer returns to PENDING. -/
  | canArbitrationLost (t : Nat) (ch : Nat)
  /-- CAN_BUS_ERROR (R229): A bus error updates TEC and REC and may move the channel to ERROR PASSIVE or BUS-OFF. -/
  | canBusError (t : Nat) (ch : Nat) (e : CanError)
  /-- PROTOCOL_EXCEPTION (R223): An FD channel meets an XL frame, waits for 11 recessive bits and counts the event. -/
  | protocolException (t : Nat) (ch : Nat)
  /-- BUS_OFF_RECOVERY (R230): The 128th sequence of 11 recessive bits ends bus-off with TEC and REC at 0. -/
  | busOffRecovery (t : Nat) (ch : Nat)
  /-- CAN_BUFFER_CANCEL (R238): Writing true to A:6020.0A cancels a PENDING or BLOCKED buffer, or holds the cancel while ACTIVE. -/
  | canBufferCancel (t : Nat)
  /-- TIME_MASTER_ENABLE (R235): A write of A:8060.01 enables the CAN time master, which needs one reference buffer. -/
  | timeMasterEnable (t : Nat)
  /-- TRANSCEIVER_SETTLING_END (R260): The settling time after a change to NORMAL or LISTEN ends and the channel may start. -/
  | transceiverSettlingEnd (t : Nat) (unit : Nat)
  /-- LIN_STOP (R254): Writing A:6810.01 false stops the LIN channel at the end of the frame in progress and unloads publish records. -/
  | linStop (t : Nat)
  /-- LIN_TABLE_REQUEST (R256): A write of A:6810.07 checks a schedule table and requests it for the master. -/
  | linTableRequest (t : Nat)
  /-- LIN_SLOT_START (R257): A slot start, from the Plotter or the slot timer, sends the next header or counts an overrun. -/
  | linSlotStart (t : Nat) (ch : Nat)
  /-- LIN_HEADER_RECEIVED (R248): A break, sync byte and protected identifier are received; parity and bit rate are checked. -/
  | linHeaderReceived (t : Nat) (ch pid : Nat) (head : LinHead)
  /-- LIN_RESPONSE_SEND (R250): After the response space the channel sends its response, stopping at a bit error. -/
  | linResponseSend (t : Nat) (ch : Nat) (differs : Option Nat)
  /-- LIN_FRAME_COMPLETE (R251): A response completes; the frame is checked and delivered to the Rose or counted as an error. -/
  | linFrameComplete (t : Nat) (ch : Nat) (data : Bytes) (check : LinCheck)
  /-- LIN_FRAME_TIME_LIMIT (R249): TFrame_Max passes and the response is classified as none or incomplete. -/
  | linFrameTimeLimit (t : Nat) (ch : Nat) (started : Bool)
  /-- LIN_WAKE_SIGNAL_RECEIVED (R254): A dominant phase of 250 us to 5 ms on a sleeping LIN channel is a wake signal reported to the Watch. -/
  | linWakeSignalReceived (t : Nat) (ch : Nat)
  /-- TRANSCEIVER_SCRIPT_REQUEST (R262): Writing true to A:6880.07 queues the channel's selective-wake script. -/
  | transceiverScriptRequest (t : Nat)
  /-- TRANSCEIVER_SCRIPT_COMPLETE (R262): A selective-wake script finishes, verified or failed after one repeat. -/
  | transceiverScriptComplete (t : Nat) (reads : ScriptReads)
  /-- WAKE_INPUT_WAKE (R263): A wake input edge has lasted the filter time and is reported to the Watch as a wake. -/
  | wakeInputWake (t : Nat) (input : Nat) (level : WakeLevel)
  /-- WAKE_INPUT_TEST_START (R264): The diagnostic period expires and the Watch sources 50 uA into an inactive input. -/
  | wakeInputTestStart (t : Nat) (input : Nat)
  /-- WAKE_INPUT_TEST_END (R264): After 200 us the pin is measured and the input state set to inactive, open or short to ground. -/
  | wakeInputTestEnd (t : Nat) (input : Nat) (test : WakeTest)
  /-- WAKE_INPUT_STUCK (R264): An input active longer than the stuck-active time becomes STUCK ACTIVE. -/
  | wakeInputStuck (t : Nat) (input : Nat)
  /-- ROSE_PDU_JOB (R24): The Rose takes one PDU from an ingress queue or E, matches it and executes its extractions and routes. -/
  | rosePduJob (job : PduJob)
  /-- ROSE_UNPACK_JOB (R295): With E empty the Rose takes a frame from FP10, checks it and puts one PDU job per entry into E. -/
  | roseUnpackJob (t : Nat)
  /-- ROSE_EMISSION_JOB (R310): An emission job builds a destination PDU from the mailboxes, or sends an expired container, or is withheld. -/
  | roseEmissionJob (t : Nat)
  /-- CONTAINER_COLLECTION_EXPIRY (R293): The collection time of a container expires and its send enters P. -/
  | containerCollectionExpiry (t : Nat)
  /-- DEFERRED_CHANGE_RELEASE (R308): The minimum gap ends and the deferred change enters P. -/
  | deferredChangeRelease (t : Nat)
  /-- FRESHNESS_EXPIRY (R316): A signal's deadline expires at a job boundary and its mailbox becomes STALE or SUBSTITUTED. -/
  | freshnessExpiry (t : Nat) (signal : Nat)
  /-- DEFINITION_ENABLE (R288): A write of A:7100.01 enables or disables a PDU definition. -/
  | definitionEnable (t : Nat)
  /-- SIGNAL_ENABLE (R288): A write of A:7200.01 or A:7201.01 enables a signal and its mailbox, or discards it. -/
  | signalEnable (t : Nat)
  /-- ROUTE_ENABLE (R288): A write of A:7300.01 checks and enables a route under Table 11.5, or disables it. -/
  | routeEnable (t : Nat)
  /-- CONTAINER_ENABLE (R293): A write of A:7400.01 allocates staging and enables a container, or disables it. -/
  | containerEnable (t : Nat)
  /-- STACK_LINK_LOCK (R352): A K lane pair reaches block lock and starts exchanging hellos. -/
  | stackLinkLock (t : Nat) (k : Nat)
  /-- STACK_LINK_LOCK_LOSS (R352): A K link loses block lock and goes down within 10 us. -/
  | stackLinkLockLoss (t : Nat) (loss : LockLoss)
  /-- HELLO_SEND (R352): Every 100 us each side sends a hello on VC3. -/
  | helloSend (t : Nat)
  /-- HELLO_RECEIVED (R352): A hello is received; three in a row bring the link up and a new member to JOINING. -/
  | helloReceived (t : Nat) (k : Nat) (h : Hello)
  /-- HELLO_TIMEOUT (R352): No hello arrived for the hello timeout and the link goes down. -/
  | helloTimeout (t : Nat) (k : Nat)
  /-- REJOIN_COMPLETE (R373): A joining member passes the rejoin sequence, including replay, and becomes PRESENT or HELD OUT. -/
  | rejoinComplete (t : Nat) (member refusals : Nat)
  /-- MEMBER_ADMIT (R373): Writing true to A:9410.08 admits a member held out for record overflow. -/
  | memberAdmit (t : Nat)
  /-- STACK_WRITE_CHECK (R361): A configuration check message from the lead is checked on the member and answered. -/
  | stackWriteCheck (t : Nat) (svc : Service) (req : Bytes)
  /-- STACK_WRITE_COMMIT (R361): A commit message adds the write to every member's record and the addressed members apply it. -/
  | stackWriteCommit (t : Nat) (c : StackCommit) (req : Bytes)
  /-- OWNERSHIP_STATE_MESSAGE (R356): An ownership state message from the lead updates the member's replica. -/
  | ownershipStateMessage (t : Nat) (o : Ownership)
  /-- TIME_MESSAGE_SEND (R364): Every 7.8125 ms the lead sends a time message toward each neighbour. -/
  | timeMessageSend (t : Nat)
  /-- TIME_MESSAGE_RECEIVED (R364): A time message steers the member's zone time to the lead's and is forwarded away from the lead. -/
  | timeMessageReceived (t : Nat) (k : Nat) (m : TimeMsg)
  /-- TIME_MESSAGE_LOSS (R366): No time message for 3 intervals puts the member in HOLDING. -/
  | timeMessageLoss (t : Nat)
  /-- LINK_DELAY_ROUND_TRIP (R364): Every 125 ms a stack link measures its delay by a round trip. -/
  | linkDelayRoundTrip (t : Nat) (k trip : Nat)
  /-- PATH_CHANGE_HOLD_END (R360): The 20 us hold of frames for a member after a path change ends. -/
  | pathChangeHoldEnd (t : Nat) (member : Nat)
  /-- BRIDGE_POSTED_WRITE_ISSUE (R369): A control processor issues a posted write to another member through the bridge. -/
  | bridgePostedWriteIssue (t : Nat) (pair target tag addr : Nat) (data : Bytes) (done : List Nat)
  /-- BRIDGE_READ_ISSUE (R370): A control processor issues a read to another member, reserving room for its completion. -/
  | bridgeReadIssue (t : Nat) (pair target tag addr len : Nat)
  /-- BRIDGE_REQUEST_EXECUTE (R371): The target's bridge port executes an inbound VC1 request and returns its credit. -/
  | bridgeRequestExecute (t : Nat) (type source pair tag addr len status : Nat) (data : Bytes)
  /-- BRIDGE_READ_COMPLETION (R370): A read completion releases the initiator's bus, or is discarded as late. -/
  | bridgeReadCompletion (t : Nat) (source tag status : Nat) (data : Bytes)
  /-- BRIDGE_WRITE_ERROR_REPORT (R369): A write error report is logged, counted and raises vector 19. -/
  | bridgeWriteErrorReport (t : Nat) (source : Nat) (ref : BridgeRef) (status : Nat)
  /-- BRIDGE_READ_TIMEOUT (R370): A read without completion after 100 us returns all-ones and a read error. -/
  | bridgeReadTimeout (t : Nat) (pair : Nat)
  /-- BRIDGE_LOG_CLEAR (R374): Writing true to A:9440.09 empties the bridge error log. -/
  | bridgeLogClear (t : Nat)
  /-- NM_PDU_RECEIVED (R378): A received NM PDU is a keep-alive honoured or ignored, or changes nothing. -/
  | nmPduReceived (t : Nat) (unit ident : Nat) (data : Bytes)
  /-- READY_SLEEP_EXPIRY (R380): The ready-sleep timer Tr expires in READY SLEEP and the segment enters LAST CALL. -/
  | readySleepExpiry (t : Nat) (unit : Nat)
  /-- NM_CYCLE (R379): The NM cycle expires in AWAKE and the device sends a keep-alive. -/
  | nmCycle (t : Nat) (unit : Nat)
  /-- LAST_CALL_NOT_SENT (R381): A last call not sent within one window time is cancelled and the segment proceeds as after the window. -/
  | lastCallNotSent (t : Nat) (unit : Nat) (busy : Bool)
  /-- LAST_CALL_WINDOW_CLOSE (R384): The window closes without veto and GOING TO SLEEP starts. -/
  | lastCallWindowClose (t : Nat) (unit : Nat) (busy : Bool)
  /-- BUS_WAKE (R386): Bus activity lasting the bus wake filter wakes a sleeping CAN or S segment. -/
  | busWake (t : Nat) (unit : Nat)
  /-- MAX_AWAKE_EXCEEDED (R388): The awake count exceeds the maximum awake time and the keeping nodes are put on the ignore list. -/
  | maxAwakeExceeded (t : Nat) (unit : Nat)
  /-- HOST_NEED (R376): A write of A:A020.09 sets or clears host need of a segment. -/
  | hostNeed (t : Nat)
  /-- MANAGEMENT_SWITCH (R375): A write of A:A020.01 switches network management of a segment on or off. -/
  | managementSwitch (t : Nat)
  /-- CLEAR_IGNORE_LIST (R389): Writing true to A:A020.1C clears the ignore list and ignoring-all. -/
  | clearIgnoreList (t : Nat)
  /-- STATE_COMMAND_WATCH (R393): A:A000.01 = 1 prepares entry into Watch, awaiting RUN_REQ low. -/
  | stateCommandWatch (t : Nat)
  /-- STATE_COMMAND_STANDBY (R391): A:A000.01 = 2 powers down the quadrants and K links into Standby. -/
  | stateCommandStandby (t : Nat)
  /-- STATE_COMMAND_PARTIAL (R391): A:A000.01 = 3 powers the quadrants of the Partial selection. -/
  | stateCommandPartial (t : Nat)
  /-- STATE_COMMAND_RUN (R391): A:A000.01 = 4 powers every quadrant and the K links. -/
  | stateCommandRun (t : Nat)
  /-- POWER_DOMAIN_RAMP_END (R481): A power domain finishes its 200 us ramp; its clocks are ungated and the next domain starts. -/
  | powerDomainRampEnd (t : Nat)
  /-- ACKNOWLEDGE_TIME_EXPIRY (R395): The sleep request is not acknowledged in time and the transceiver fail-safe acts. -/
  | acknowledgeTimeExpiry (t : Nat)
  /-- RUN_REQ_RISE (R480): RUN_REQ rises; MAIN_EN is raised, WAKE_OUT released and a pending Watch entry aborted. -/
  | runReqRise (t : Nat)
  /-- RUN_REQ_FALL (R393): RUN_REQ falls; a pending Watch entry completes by deasserting MAIN_EN, otherwise event 0x0193 is raised. -/
  | runReqFall (t : Nat)
  /-- VAON_POWER_ON (R396): VAON rises above its power-on threshold; the whole device resets into Watch and WAKE_OUT is asserted. -/
  | vaonPowerOn (t : Nat)
  /-- VAON_REMOVAL (R391): The always-on supply is removed and the device is Off. -/
  | vaonRemoval (t : Nat)
  /-- MAIN_PG_RISE (R491): MAIN_PG rises and the reference monitor starts counting periods. -/
  | mainPgRise (t : Nat)
  /-- BROWNOUT (R477): A main rail brownout or MAIN_PG fall asserts the CORE reset and the fail-safe. -/
  | brownout (t : Nat)
  /-- REFERENCE_VALID (R483): 1,024 good REFCLK periods declare the reference valid and the core PLLs start. -/
  | referenceValid (t : Nat)
  /-- CORE_PLLS_LOCKED (R484): All five core PLLs lock and the CORE reset is released. -/
  | corePllsLocked (t : Nat)
  /-- REFERENCE_LOSS (R485): Loss of the reference or of a core PLL lock resets the CORE domain. -/
  | referenceLoss (t : Nat)
  /-- RESET_N_ASSERT (R488): RESET_N held low for 1 us resets the CORE domain and quadrants. -/
  | resetNAssert (t : Nat)
  /-- CORE_RESET_RELEASE (R436): The CORE reset is released and the ROM and firmware run the boot sequence up to Standby. -/
  | coreResetRelease (t : Nat) (root : Bool) (env : BootEnv)
  /-- ROOT_READ_RETRY (R400): After 10 ms unpowered the start-up array is read again, up to three attempts, after which root failed. -/
  | rootReadRetry (t : Nat) (ok : Bool) (env : BootEnv)
  /-- IDENTITY_KEY_READY (R410): Falcon-1024 key generation from the identity seed completes. -/
  | identityKeyReady (t : Nat)
  /-- DROOP_THRESHOLD_CROSSING (R486): VCORE falls below a droop threshold and the fabric, core and Rose clocks take the step. -/
  | droopThresholdCrossing (t : Nat) (step : Nat)
  /-- DROOP_STEP_RECOVERY (R487): VCORE above the threshold plus 1 % for 1 us returns the clocks one step lighter. -/
  | droopStepRecovery (t : Nat)
  /-- LOCKSTEP_MISMATCH (R30): A lockstep pair's cores disagree; the pair restarts, or is held in reset on a second mismatch within 10 s. -/
  | lockstepMismatch (t : Nat) (pair : Nat)
  /-- PAIR_RESTART_COMPLETE (R30): The pair finishes its restart and the frozen services resume. -/
  | pairRestartComplete (t : Nat) (pair : Nat)
  /-- IMPORT_BLOB_SET (R415): An import blob with operation 1 is checked and staged. -/
  | importBlobSet (t : Nat)
  /-- IMPORT_BLOB_ERASE (R415): An import blob with operation 2 is checked and staged. -/
  | importBlobErase (t : Nat)
  /-- IMPORT_BLOB_SET_IN_CLEAR (R419): An import blob with operation 3 is staged on a virgin store, over PCIe or HS only. -/
  | importBlobSetInClear (t : Nat)
  /-- DISCARD_STAGING (R415): Writing true to A:B020.04 discards the staged blobs. -/
  | discardStaging (t : Nat)
  /-- KEY_STORE_COMMIT (R416): Writing true to A:B020.03 starts a key-store commit and is answered at once. -/
  | keyStoreCommit (t : Nat)
  /-- KEY_STORE_COMMIT_END (R416): The commit's flash steps finish; the new generation takes effect or the old stays in force. -/
  | keyStoreCommitEnd (t : Nat) (ok : Bool)
  /-- ATTESTATION_CHALLENGE (R409): A nonce written to A:B030.01 is answered with the attestation response R. -/
  | attestationChallenge (t : Nat)
  /-- IDENTITY_SIGN_REQUEST (R410): A nonce written to A:B050.02 is signed with the identity key before the reply. -/
  | identitySignRequest (t : Nat)
  /-- SLOT_DERIVE (R408): A write of A:B040.10 derives an owner slot's key, or empties the slot. -/
  | slotDerive (t : Nat)
  /-- RANDOM_HEALTH_FAILURE (R427): A random source health test fails; countermeasures fall back and identity signing is refused. -/
  | randomHealthFailure (t : Nat)
  /-- MACSEC_SA_ENABLE (R422): A write of A:B110.01 enables a secure association, loading its key, or disables it. -/
  | macsecSaEnable (t : Nat)
  /-- ACTIVE_AN_WRITE (R422): A write of A:B100.04 changes the active transmit association from the next frame start. -/
  | activeAnWrite (t : Nat)
  /-- MACSEC_ENABLE (R422): A write of A:B100.01 turns MACsec on or off at a frame boundary. -/
  | macsecEnable (t : Nat)
  /-- TRANSFER_START_FIRMWARE (R442): A start of type 1 begins or resumes a firmware transfer into the STAGING slot. -/
  | transferStartFirmware (t : Nat)
  /-- TRANSFER_START_ALMANAC (R442): A start of type 2 begins or resumes an Almanac image transfer into the non-current slot. -/
  | transferStartAlmanac (t : Nat)
  /-- BLOCK_QUARTER_WRITE (R443): A quarter of a block is gathered in the assembly buffer. -/
  | blockQuarterWrite (t : Nat)
  /-- BLOCK_CHECK_VALUE (R443): The check value of a block is checked and the block stored in flash with its bitmap bit. -/
  | blockCheckValue (t : Nat)
  /-- TRANSFER_VERIFY_COMPLETE (R445): Verification of the whole target ends VERIFIED or FAILED and raises vector 21. -/
  | transferVerifyComplete (t : Nat)
  /-- TRANSFER_ACTIVATE (R446): Writing true to A:B810.0B sets the pending activation in the boot record and may restart the CORE. -/
  | transferActivate (t : Nat)
  /-- TRANSFER_ABANDON (R445): Writing true to A:B810.0E erases the transfer header and bitmap. -/
  | transferAbandon (t : Nat)
  /-- TRIAL_MINUTE (R448): A whole minute of trial running adds 1 to the trial run time in the boot record. -/
  | trialMinute (t : Nat)
  /-- HEALTH_CONDITIONS_HELD (R449): The health conditions have held for the confirmation delay and the trial confirms or awaits the owner. -/
  | healthConditionsHeld (t : Nat)
  /-- CONFIRM_WRITE (R449): Writing true to A:B840.06 gives the owner confirmation of the trial. -/
  | confirmWrite (t : Nat)
  /-- CORRECTED_WRITEBACK (R458): A corrected line is written back at scrubber priority unless a functional write superseded it. -/
  | correctedWriteback (t : Nat) (mem line : Nat) (superseded : Bool)
  /-- MERGE_ENTRY_RETIRE (R459): A merge buffer entry without a write for 256 clocks retires by read-modify-write. -/
  | mergeEntryRetire (t : Nat) (mem line : Nat) (full : Bool) (r : LineRead)
  /-- PATROL_READ (R462): The patrol scrubber reads the next line in an idle cycle. -/
  | patrolRead (t : Nat) (mem : Nat) (r : PatrolLine)
  /-- CLEAR_CORRECTION_TABLE (R457): Writing true to A:C051.02 clears the correctable-error table. -/
  | clearCorrectionTable (t : Nat)
  /-- SOFTWARE_SCRUB_START (R463): Writing true to A:C020.04 starts a software scrub of a line range. -/
  | softwareScrubStart (t : Nat)
  /-- SOFTWARE_SCRUB_COMPLETE (R463): The scrub range is done, the summary set and an event raised. -/
  | softwareScrubComplete (t : Nat) (reads : List (Nat × LineRead))
  /-- TEST_WINDOW_OPEN (R464): Writing A:C030.41 true saves and redirects the block; false restores it. -/
  | testWindowOpen (t : Nat)
  /-- RAW_WRITE (R464): Writing true to A:C030.47 stores raw data, check and tag bytes in the test line. -/
  | rawWrite (t : Nat)
  /-- RAW_READ (R464): Writing true to A:C030.48 returns the stored line uncorrected. -/
  | rawRead (t : Nat)
  /-- DECODE_READ (R464): Writing true to A:C030.49 passes the test line through the decoder and returns its outcome. -/
  | decodeRead (t : Nat)
  /-- SOUNDING_START (R468): 10 ms of idle cycles have accumulated and the block at the rotation pointer is copied out. -/
  | soundingStart (t : Nat) (mem : Nat)
  /-- SOUNDING_BLOCK_END (R468): The March C- test of a block passes and the block is restored, or fails and is retired. -/
  | soundingBlockEnd (t : Nat) (mem block : Nat) (test : BlockTest)
  /-- SAVE_BUFFER_RELEASE (R470): The last line of a retired block leaves use and its save buffer is released. -/
  | saveBufferRelease (t : Nat) (mem : Nat)
  /-- STARTUP_SOUNDING_COMPLETE (R466): All start-up soundings finish and A:C040.07 is set. -/
  | startupSoundingComplete (t : Nat) (tests : List (Nat × Nat × BlockTest))
  /-- REPLAY_START (R473): A write of A:D021.04 starts replay of recorder records through FP11 to a port. -/
  | replayStart (t : Nat)
  /-- REPLAY_FRAME_SEND (R473): At its original spacing the next replay frame is offered at FP11. -/
  | replayFrameSend (t : Nat)
  /-- WAKE_INPUT_RELEASE (R264): A wake input goes inactive; its state leaves active, or leaves STUCK ACTIVE once it has been inactive for its filter time. -/
  | wakeInputRelease (t : Nat) (input held : Nat)
  /-- VBATSENSE_SAMPLE (R444): Every 1 ms the Watch measures VBATSENSE and updates the mean of the last 16 samples used by the battery condition. -/
  | vbatsenseSample (t : Nat) (mv : Nat)
  /-- FORWARDED_REPLY_RECEIVED (R52): A reply record returned by the lead over the stack link arrives at the originating member and is sent to its master on the service that carried the request. -/
  | forwardedReplyReceived (t : Nat) (svc : Service) (src : Source) (rec : Bytes)
  /-- MEMBER_ANSWER_RECEIVED (R361): A member's answer to a configuration check or commit arrives at the lead on VC3, letting the lead commit the write or send the reply. -/
  | memberAnswerReceived (t : Nat) (member : Nat) (commit : Bool) (status : Nat) (path : Bytes)
  deriving DecidableEq, Repr

end Sys2Proof
end

