-- ==== Sys2Proof/Config.lean ====
section
/-! DEFINITION. What one device fixes (fuses, straps, firmware) and the values the manual leaves open. Constants without a body: no proof can see what they are. -/
namespace Sys2Proof.Config

/-- A number as `n` bytes, the most significant first. -/
def bytesOf : Nat → Nat → Bytes
  | 0, _ => []
  | n + 1, v => BitVec.ofNat 8 (v / 256 ^ n) :: bytesOf n v

/-- A value that the manual leaves open: the first argument is the purpose, the second a number that makes each use a fresh value. (DESIGN CHOICE: log entry 14.) -/
opaque freeValue : Nat → Nat → Nat

/-- Serial number in the fuses (`A:1000.04`), 16 bytes. (DESIGN CHOICE: log entry 9.) -/
opaque serialNumber : Nat
/-- Silicon revision in the fuses (`A:1000.03`). (DESIGN CHOICE: log entry 9.) -/
opaque siliconRevision : Nat
/-- PCI vendor ID in the fuses (`A:9000.0B`). -/
opaque vendorId : Nat
/-- EUI-64 of the device in the fuses (`A:8000.0A`). -/
opaque clockIdentity : Nat
/-- MAC address of the Rose in the fuses (`A:7000.07`). -/
opaque roseMac : Nat
/-- MAC address of a port, by unit number, in the fuses. -/
opaque portMac : Nat → Nat
/-- Event code of an event to which the manual gives no number, by the event's own number. -/
opaque eventCode : Nat → Nat
/-- Event data that the manual does not lay out, by event code and local time. -/
opaque eventData : Nat → Nat → Bytes
/-- Stored image of a memory line that no command has written, as a number: memory, line and a number. -/
opaque lineImageValue : Nat → Nat → Nat → Nat
/-- The 70 bytes of that image (R454). (DESIGN CHOICE: log entry 140.) -/
def lineImage (mem line k : Nat) : Bytes := bytesOf 70 (lineImageValue mem line k)
/-- Errors in the stored bytes of a line that no command has written: a DRAM line, or 2^32 and a line of the Chart memory; and a number. -/
opaque lineErrorValue : Nat → Nat → Nat
/-- The error pattern over the 70 stored bytes of a line. (DESIGN CHOICE: log entry 140.) -/
def lineError (line k : Nat) : Bytes := bytesOf 70 (lineErrorValue line k)
/-- Bytes of the device's UDP frames that the manual does not give, by which part, address of the master and length: 0 the two MAC addresses, 1 the IP header before its destination, 2 the UDP checksum. -/
opaque udpValue : Nat → Nat → Nat → Nat
/-- The same as `n` bytes. (DESIGN CHOICE: log entry 185.) -/
def udpPart (part addr len n : Nat) : Bytes := bytesOf n (udpValue part addr len)
/-- Line of the Chart memory that holds the shadow of a ternary rule (R170). -/
opaque ruleLine : Nat → Nat
/-- Line of the Rose store that holds the mailbox of a signal. (DESIGN CHOICE: log entry 141.) -/
opaque mailboxLine : Nat → Nat
/-- Corrected start-up bits of the root array (R400). -/
opaque rootBits : Bytes
/-- Contents of the mask ROM (R402). -/
opaque romContents : Bytes
/-- Falcon-1024 public key hashes KH0 and KH1 in the fuses (R433), as numbers. -/
opaque keyHashValue : Nat → Nat
/-- KH0 and KH1: 32 bytes each. -/
def keyHash (k : Nat) : Bytes := bytesOf 32 (keyHashValue k)
/-- The release image that the integrator has programmed, by 4 KiB sector of the flash (R431). -/
opaque releaseImage : Nat → Bytes
/-- Falcon-1024 verification: public key, message, signature. (DESIGN CHOICE: log entry 11.) -/
opaque falconVerify : Bytes → Bytes → Bytes → Bool
/-- Falcon-1024 key pair from a seed: the public key. -/
opaque falconPublic : Bytes → Bytes
/-- Falcon-1024 signature: seed, message, randomness. (DESIGN CHOICE: log entry 11.) -/
opaque falconSign : Bytes → Bytes → Nat → Bytes

/-- Header byte of the reply to a record that ends before that byte: record and offset. (DESIGN CHOICE: log entry 21.) -/
opaque missingHeader : Bytes → Nat → Byte
/-- Bytes that one entry of a member's configuration record takes, by the size of its value (R362). -/
opaque entryBytes : Nat → Nat
/-- What a READ of a recorded frame gives while the DRAM is in self-refresh, by sequence number and offset (R36). (DESIGN CHOICE: log entry 230.) -/
opaque asleepRead : Nat → Nat → Nat
/-- Time left that the self-renewing lease of the lead device shows, in ms, by time (R59). (DESIGN CHOICE: log entry 26.) -/
opaque leadLease : Nat → Nat

end Sys2Proof.Config
end

