-- ==== Sys2Proof/Machine/Bits.lean ====
section
/-! DEFINITION. Byte order, bit fields and signed readings of the values that travel on the services and buses. All multi-byte values go most significant byte first (R39). -/
namespace Sys2Proof.Machine

/-- The value of a byte string, most significant byte first (R39). -/
def beNat (b : Bytes) : Nat := b.foldl (fun n x => n * 256 + x.toNat) 0

/-- The `n` low bytes of a value, most significant first (R39). -/
def beBytes : Nat → Nat → Bytes
  | 0, _ => []
  | n + 1, v => BitVec.ofNat 8 (v / 256 ^ n) :: beBytes n v

/-- Bytes `off` to `off + n - 1` of a string; bytes beyond its end are missing. -/
def slice (b : Bytes) (off n : Nat) : Bytes := (b.drop off).take n

/-- The value of `n` bytes from offset `off`. -/
def field (b : Bytes) (off n : Nat) : Nat := beNat (slice b off n)

/-- One byte as a number, 0 beyond the end. -/
def byteAt (b : Bytes) (off : Nat) : Nat := (b.getD off 0).toNat

/-- Bits [hi:lo] of a value (R14). -/
def bits (v hi lo : Nat) : Nat := v / 2 ^ lo % 2 ^ (hi + 1 - lo)

/-- Bit `n` of a value. -/
def bit (v n : Nat) : Bool := v.testBit n

/-- `v` with bit `n` set or cleared. -/
def setBit (v n : Nat) (b : Bool) : Nat :=
  if v.testBit n then (if b then v else v - 2 ^ n) else (if b then v + 2 ^ n else v)

/-- A BOOL as its byte value. -/
def b2n (b : Bool) : Nat := if b then 1 else 0

/-- The two's-complement reading of a 32-bit value (I32 of Table 2.2). -/
def toI32 (v : Nat) : Int := if v % 2 ^ 32 < 2 ^ 31 then (v % 2 ^ 32 : Nat) else (v % 2 ^ 32 : Nat) - 2 ^ 32

/-- A signed value as an I32, saturating. -/
def ofI32 (i : Int) : Nat :=
  let c := if i < -(2 ^ 31) then -(2 ^ 31) else if i > 2 ^ 31 - 1 then 2 ^ 31 - 1 else i
  (c % 2 ^ 32).toNat

/-- Ceiling division. -/
def cdiv (a b : Nat) : Nat := (a + b - 1) / b

/-- Division rounded to the nearest integer, halves upward. -/
def rdiv (a b : Int) : Int := (2 * a + b) / (2 * b)

/-- `x` kept within ±`m`. -/
def clampI (x m : Int) : Int := if x > m then m else if x < -m then -m else x

/-- Absolute value as a natural number. -/
def absN (x : Int) : Nat := x.natAbs

end Sys2Proof.Machine
end

