-- ==== Sys2Proof/Machine/ObjTypes.lean ====
section
/-! DEFINITION. Types, access classes and rows of the Almanac's object tables (R38 to R43). -/
namespace Sys2Proof.Machine

/-- Object types (Table 2.2). -/
inductive Ty where
  | u8 | u16 | u32 | u64 | i32 | bool | enum8 | bits32 | octet (n : Nat) | time96 | bearing64
  deriving DecidableEq, Repr

/-- Access classes (R41). -/
inductive Acc where
  | ro | rw | wo | rws
  deriving DecidableEq, Repr

/-- Which units have an object: the member, or the paths that the chapter's object paragraph names. -/
inductive Scope where
  | member | ne | nesk | s | can | lin | w | ws | k | nk
  deriving DecidableEq, Repr

/-- The values an object allows: intervals whose violation is out of range, values whose violation is a value not allowed, or reserved bits. -/
inductive Rng where
  | any
  | seg (l : List (Int × Int))
  | oneOf (l : List (Int × Int))
  | bits (reserved : Nat)
  deriving DecidableEq, Repr

/-- One row of an object table: `n` consecutive indices from `idx`, `subs` consecutive subindices from `sub`; `recs` is the number of records, 0 for an object that is not a field of a TABLE. -/
structure ObjRow where
  idx : Nat
  n : Nat
  sub : Nat
  subs : Nat
  ty : Ty
  acc : Acc
  scope : Scope
  recs : Nat
  dflt : Nat
  rng : Rng
  deriving DecidableEq, Repr

end Sys2Proof.Machine
end

