-- ==== Sys2Proof/Machine/Objects.lean ====
section
/-! DEFINITION. The object tables of the Almanac, one row per line of Tables 2.8, 3.8, 4.6, 5.7, 6.4, 7.5, 8.2, 9.6, 10.4, 11.9, 12.7, 13.6, 14.7, 15.5, 16.6, 17.8 and 18.7: type, access class, units that have the object, record count, default and the range that the meaning column or the chapter gives. -/
namespace Sys2Proof.Machine

/-- Rows of the area 1000–1FFF (part 0). -/
def rows1_0 : List ObjRow := [
  ⟨0x1000, 1, 0x00, 1, .u32, .ro, .member, 0, 0x7240, .any⟩,
  ⟨0x1000, 1, 0x01, 1, (.octet 8), .ro, .member, 0, 0x474c494e454c0000, .any⟩,
  ⟨0x1000, 1, 0x02, 1, (.octet 16), .ro, .member, 0, 0x565a4e2d373234302d41513200000000, .any⟩,
  ⟨0x1000, 1, 0x03, 1, .u16, .ro, .member, 0, 0, .any⟩,
  ⟨0x1000, 1, 0x04, 1, (.octet 16), .ro, .member, 0, 0, .any⟩,
  ⟨0x1000, 1, 0x05, 1, .u32, .ro, .member, 0, 0, .any⟩,
  ⟨0x1000, 1, 0x06, 1, .u32, .ro, .member, 0, 0, .any⟩,
  ⟨0x1000, 1, 0x07, 1, .u16, .ro, .member, 0, 0, .any⟩,
  ⟨0x1000, 1, 0x08, 1, .u8, .ro, .member, 0, 0, .any⟩,
  ⟨0x1000, 1, 0x09, 1, .u8, .ro, .member, 0, 1, .any⟩,
  ⟨0x1000, 1, 0x0A, 1, .u8, .ro, .member, 0, 0, .any⟩,
  ⟨0x1010, 1, 0x00, 1, .u16, .ro, .member, 0, 0x10, .any⟩,
  ⟨0x1010, 1, 0x01, 1, .enum8, .rw, .member, 16, 0, .oneOf [(0,4)]⟩,
  ⟨0x1010, 1, 0x02, 1, .u8, .rw, .member, 16, 0, .seg [(0,255)]⟩,
  ⟨0x1010, 1, 0x03, 1, .u8, .rw, .member, 16, 0, .any⟩,
  ⟨0x1010, 1, 0x04, 1, (.octet 18), .rw, .member, 16, 0, .any⟩,
  ⟨0x1010, 1, 0x05, 1, .u8, .rw, .member, 16, 0xff, .any⟩,
  ⟨0x1010, 1, 0x06, 1, .u64, .ro, .member, 16, 0, .any⟩,
  ⟨0x1011, 1, 0x01, 1, .u16, .ro, .member, 0, 0xffff, .any⟩,
  ⟨0x1011, 1, 0x02, 1, .enum8, .ro, .member, 0, 0, .any⟩,
  ⟨0x1011, 1, 0x03, 1, .u32, .ro, .member, 0, 0, .any⟩,
  ⟨0x1011, 1, 0x04, 1, .u32, .ro, .member, 0, 0, .any⟩,
  ⟨0x1011, 1, 0x05, 1, .u32, .ro, .member, 0, 0, .any⟩,
  ⟨0x1011, 1, 0x06, 1, .u32, .ro, .member, 0, 0, .any⟩,
  ⟨0x1011, 1, 0x07, 1, .u32, .ro, .member, 0, 0, .any⟩,
  ⟨0x1011, 1, 0x08, 1, .time96, .ro, .member, 0, 0, .any⟩,
  ⟨0x1011, 1, 0x41, 1, .u16, .rw, .member, 0, 0x32, .seg [(10,500)]⟩,
  ⟨0x1020, 1, 0x00, 1, .u8, .ro, .member, 0, 0xd, .any⟩,
  ⟨0x1020, 1, 0x01, 13, .bool, .rw, .member, 0, 0, .oneOf [(0,1)]⟩,
  ⟨0x1040, 1, 0x01, 1, .bool, .rw, .member, 0, 0, .oneOf [(0,1)]⟩]
/-- Rows of the area 1000–1FFF (part 1). -/
def rows1_1 : List ObjRow := [
  ⟨0x1040, 1, 0x02, 1, .u16, .rw, .member, 0, 0xc634, .seg [(1,65535)]⟩,
  ⟨0x1040, 1, 0x03, 1, .u16, .rw, .member, 0, 0, .seg [(0,0),(1,4094)]⟩,
  ⟨0x1040, 1, 0x04, 1, .u8, .rw, .member, 0, 0xff, .seg [(0,23),(255,255)]⟩,
  ⟨0x1040, 1, 0x05, 1, .u32, .rw, .member, 0, 0x1f007240, .seg [(0,0x1FFFFFFF)]⟩,
  ⟨0x1040, 1, 0x06, 1, .bool, .rw, .member, 0, 1, .oneOf [(0,1)]⟩,
  ⟨0x1040, 1, 0x07, 1, .u32, .rw, .member, 0, 0x1f007241, .seg [(0,0x1FFFFFFF)]⟩,
  ⟨0x1041, 1, 0x01, 5, .u32, .ro, .member, 0, 0, .any⟩,
  ⟨0x1041, 1, 0x06, 1, .u32, .ro, .member, 0, 0, .any⟩,
  ⟨0x1041, 1, 0x07, 1, .u32, .ro, .member, 0, 0, .any⟩]
/-- All rows of the area 1000–1FFF. -/
def rows1 : List ObjRow := rows1_0 ++ rows1_1

/-- Rows of the area 2000–2FFF (part 0). -/
def rows2_0 : List ObjRow := [
  ⟨0x2000, 1, 0x01, 1, .u32, .ro, .member, 0, 0x20000, .any⟩,
  ⟨0x2000, 1, 0x02, 1, .u32, .ro, .member, 0, 0x20000, .any⟩,
  ⟨0x2000, 1, 0x03, 1, .u32, .ro, .member, 0, 0, .any⟩,
  ⟨0x2000, 1, 0x04, 1, .u32, .ro, .member, 0, 0, .any⟩,
  ⟨0x2000, 1, 0x05, 1, .u32, .ro, .member, 0, 0x1c600, .any⟩,
  ⟨0x2000, 1, 0x06, 1, .u32, .ro, .member, 0, 0, .any⟩,
  ⟨0x2000, 1, 0x07, 1, .bool, .ro, .member, 0, 0, .any⟩,
  ⟨0x2000, 1, 0x08, 1, .enum8, .ro, .member, 0, 0, .any⟩,
  ⟨0x2000, 1, 0x09, 1, .u32, .ro, .member, 0, 0, .any⟩,
  ⟨0x2000, 1, 0x0A, 1, .u32, .ro, .member, 0, 0, .any⟩,
  ⟨0x2000, 1, 0x0B, 1, .u32, .ro, .member, 0, 0, .any⟩,
  ⟨0x2000, 1, 0x0C, 1, .bool, .wo, .member, 0, 0, .oneOf [(0,1)]⟩,
  ⟨0x2000, 1, 0x41, 1, .u8, .rw, .member, 0, 3, .seg [(1,3)]⟩,
  ⟨0x2010, 1, 0x00, 1, .u16, .ro, .member, 0, 0x19, .any⟩,
  ⟨0x2010, 1, 0x01, 1, .u32, .rw, .member, 25, 0x8000, .any⟩,
  ⟨0x2010, 1, 0x02, 1, .u32, .rw, .member, 25, 0x100, .any⟩,
  ⟨0x2010, 1, 0x03, 1, .u32, .ro, .member, 25, 0x100, .any⟩,
  ⟨0x2010, 1, 0x04, 1, .u32, .ro, .member, 25, 0, .any⟩,
  ⟨0x2010, 1, 0x05, 1, .u32, .ro, .member, 25, 0, .any⟩,
  ⟨0x2010, 1, 0x06, 1, .u32, .ro, .member, 25, 0, .any⟩,
  ⟨0x2020, 1, 0x00, 1, .u16, .ro, .member, 0, 0x19, .any⟩,
  ⟨0x2020, 1, 0x01, 1, .u32, .rw, .member, 25, 0x8000, .any⟩,
  ⟨0x2020, 1, 0x02, 1, .u32, .rw, .member, 25, 0x100, .any⟩,
  ⟨0x2020, 1, 0x03, 1, .u32, .ro, .member, 25, 0x100, .any⟩,
  ⟨0x2020, 1, 0x04, 1, .u32, .ro, .member, 25, 0, .any⟩,
  ⟨0x2020, 1, 0x05, 1, .u32, .ro, .member, 25, 0, .any⟩,
  ⟨0x2020, 1, 0x06, 1, .u32, .ro, .member, 25, 0, .any⟩,
  ⟨0x2020, 1, 0x07, 1, .u32, .ro, .member, 25, 0, .any⟩,
  ⟨0x2030, 1, 0x00, 1, .u16, .ro, .member, 0, 8, .any⟩,
  ⟨0x2030, 1, 0x01, 1, .u32, .rw, .member, 8, 0x10000, .any⟩]
/-- Rows of the area 2000–2FFF (part 1). -/
def rows2_1 : List ObjRow := [
  ⟨0x2030, 1, 0x02, 1, .u32, .rw, .member, 8, 0x100, .any⟩,
  ⟨0x2030, 1, 0x03, 1, .u32, .ro, .member, 8, 0x100, .any⟩,
  ⟨0x2030, 1, 0x04, 1, .u32, .ro, .member, 8, 0, .any⟩,
  ⟨0x2030, 1, 0x05, 1, .u32, .ro, .member, 8, 0, .any⟩,
  ⟨0x2030, 1, 0x06, 1, .u32, .ro, .member, 8, 0, .any⟩,
  ⟨0x2040, 1, 0x00, 1, .u16, .ro, .member, 0, 0x19, .any⟩,
  ⟨0x2040, 1, 0x01, 1, .enum8, .ro, .member, 25, 0, .any⟩,
  ⟨0x2040, 1, 0x02, 1, .u16, .rw, .member, 25, 0xa, .seg [(1,10000)]⟩,
  ⟨0x2040, 1, 0x03, 1, .u32, .ro, .member, 25, 0, .any⟩,
  ⟨0x2040, 1, 0x04, 1, .u32, .ro, .member, 25, 0, .any⟩,
  ⟨0x2040, 1, 0x05, 1, .u32, .ro, .member, 25, 0, .any⟩,
  ⟨0x2040, 1, 0x06, 1, .u32, .ro, .member, 25, 0, .any⟩,
  ⟨0x2040, 1, 0x07, 1, .bool, .rw, .member, 25, 1, .oneOf [(0,1)]⟩,
  ⟨0x2040, 1, 0x08, 1, .u32, .ro, .member, 25, 0, .any⟩,
  ⟨0x2040, 1, 0x09, 1, .u32, .ro, .member, 25, 0, .any⟩,
  ⟨0x2040, 1, 0x0A, 1, .u32, .ro, .member, 25, 0, .any⟩,
  ⟨0x2040, 1, 0x0B, 1, .u32, .ro, .member, 25, 0, .any⟩,
  ⟨0x2050, 1, 0x00, 1, .u16, .ro, .member, 0, 0xc, .any⟩,
  ⟨0x2050, 1, 0x01, 1, .u64, .ro, .member, 12, 0, .any⟩,
  ⟨0x2050, 1, 0x02, 1, .u64, .ro, .member, 12, 0, .any⟩,
  ⟨0x2050, 1, 0x03, 1, .u64, .ro, .member, 12, 0, .any⟩,
  ⟨0x2050, 1, 0x04, 1, .u64, .ro, .member, 12, 0, .any⟩,
  ⟨0x2050, 1, 0x05, 1, .u64, .ro, .member, 12, 0, .any⟩,
  ⟨0x2050, 1, 0x06, 1, .u64, .ro, .member, 12, 0, .any⟩,
  ⟨0x2050, 1, 0x07, 1, .u32, .ro, .member, 12, 0, .any⟩]
/-- All rows of the area 2000–2FFF. -/
def rows2 : List ObjRow := rows2_0 ++ rows2_1

/-- Rows of the area 3000–3FFF (part 0). -/
def rows3_0 : List ObjRow := [
  ⟨0x3000, 1, 0x01, 1, .u32, .ro, .member, 0, 0x10000, .any⟩,
  ⟨0x3000, 1, 0x02, 1, .u8, .ro, .member, 0, 0x40, .any⟩,
  ⟨0x3000, 1, 0x03, 1, .u32, .ro, .member, 0, 0, .any⟩,
  ⟨0x3000, 1, 0x04, 1, .u32, .ro, .member, 0, 0, .any⟩,
  ⟨0x3000, 1, 0x05, 1, .u8, .ro, .member, 0, 0, .any⟩,
  ⟨0x3000, 1, 0x06, 1, .u8, .ro, .member, 0, 0, .any⟩,
  ⟨0x3000, 1, 0x07, 1, .u64, .ro, .member, 0, 0, .any⟩,
  ⟨0x3000, 1, 0x08, 1, .u8, .ro, .member, 0, 0, .any⟩,
  ⟨0x3000, 1, 0x09, 1, .u32, .ro, .member, 0, 0, .any⟩,
  ⟨0x3000, 1, 0x0A, 1, .u64, .ro, .member, 0, 0, .any⟩,
  ⟨0x3000, 1, 0x0B, 1, .u16, .ro, .member, 0, 0, .any⟩,
  ⟨0x3000, 1, 0x0C, 1, .u32, .ro, .member, 0, 0, .any⟩,
  ⟨0x3001, 1, 0x41, 1, .u16, .rws, .member, 0, 0x5a3c, .any⟩,
  ⟨0x3001, 1, 0x42, 1, .u16, .rws, .member, 0, 0xc3a5, .any⟩,
  ⟨0x3004, 1, 0x01, 1, .bool, .rw, .member, 0, 1, .oneOf [(0,1)]⟩,
  ⟨0x3004, 1, 0x02, 1, .u64, .ro, .member, 0, 0, .any⟩,
  ⟨0x3004, 1, 0x03, 1, .u32, .ro, .member, 0, 0, .any⟩,
  ⟨0x3004, 1, 0x05, 1, .u32, .ro, .member, 0, 0, .any⟩,
  ⟨0x3004, 1, 0x06, 1, .u32, .ro, .member, 0, 0, .any⟩,
  ⟨0x3005, 1, 0x01, 1, .u8, .rw, .member, 0, 0xa, .seg [(1,255)]⟩,
  ⟨0x3005, 1, 0x02, 1, .enum8, .rw, .member, 0, 0, .oneOf [(0,0),(1,1)]⟩,
  ⟨0x3005, 1, 0x03, 1, .u8, .rw, .member, 0, 0x3c, .seg [(0,255)]⟩,
  ⟨0x3005, 1, 0x04, 1, .u64, .ro, .member, 0, 0, .any⟩,
  ⟨0x3005, 1, 0x05, 1, .u32, .ro, .member, 0, 0, .any⟩,
  ⟨0x3005, 1, 0x06, 1, .u32, .ro, .member, 0, 0, .any⟩,
  ⟨0x3005, 1, 0x07, 1, .bool, .wo, .member, 0, 0, .oneOf [(0,1)]⟩,
  ⟨0x3006, 1, 0x01, 1, .u32, .rw, .member, 0, 0x12c, .seg [(1,65535)]⟩,
  ⟨0x3006, 1, 0x02, 1, .u64, .ro, .member, 0, 0, .any⟩,
  ⟨0x3008, 1, 0x00, 1, .enum8, .rws, .member, 0, 1, .oneOf [(0,0),(1,1)]⟩,
  ⟨0x3008, 1, 0x01, 1, .u64, .ro, .member, 0, 0, .any⟩]
/-- Rows of the area 3000–3FFF (part 1). -/
def rows3_1 : List ObjRow := [
  ⟨0x3008, 1, 0x02, 1, .u64, .ro, .member, 0, 0, .any⟩,
  ⟨0x3008, 1, 0x03, 1, .u32, .ro, .member, 0, 0, .any⟩,
  ⟨0x3008, 1, 0x04, 1, .u32, .ro, .member, 0, 0, .any⟩,
  ⟨0x3010, 1, 0x00, 1, .u16, .ro, .member, 0, 0x19, .any⟩,
  ⟨0x3010, 1, 0x01, 1, .u16, .rw, .member, 25, 1, .seg [(1,4094)]⟩,
  ⟨0x3010, 1, 0x02, 1, .enum8, .rw, .member, 25, 0, .oneOf [(0,0),(1,1),(2,2)]⟩,
  ⟨0x3010, 1, 0x03, 1, .bool, .rw, .member, 25, 1, .oneOf [(0,1)]⟩,
  ⟨0x3010, 1, 0x04, 1, .u8, .rw, .member, 25, 0, .seg [(0,7)]⟩,
  ⟨0x3010, 1, 0x05, 1, .u32, .rw, .member, 25, 0xfac688, .bits 0xFF000000⟩,
  ⟨0x3010, 1, 0x06, 1, .bool, .rw, .member, 25, 0, .oneOf [(0,1)]⟩,
  ⟨0x3010, 1, 0x07, 1, .u32, .ro, .member, 25, 0, .any⟩,
  ⟨0x3010, 1, 0x08, 1, .u32, .ro, .member, 25, 0, .any⟩,
  ⟨0x3010, 1, 0x09, 1, .u32, .ro, .member, 25, 0, .any⟩,
  ⟨0x3010, 1, 0x0A, 1, .u32, .ro, .member, 25, 0, .any⟩,
  ⟨0x3010, 1, 0x41, 1, .u8, .rw, .member, 25, 0, .seg [(0,127)]⟩,
  ⟨0x3020, 1, 0x00, 1, .u16, .ro, .member, 0, 0x1000, .any⟩,
  ⟨0x3020, 1, 0x01, 1, .bool, .rw, .member, 4096, 0, .oneOf [(0,1)]⟩,
  ⟨0x3020, 1, 0x02, 1, .bits32, .rw, .member, 4096, 0, .bits 0xFE000000⟩,
  ⟨0x3020, 1, 0x03, 1, .bits32, .rw, .member, 4096, 0, .bits 0xFE000000⟩,
  ⟨0x3020, 1, 0x04, 1, .u16, .rw, .member, 4096, 0, .seg [(0,4095)]⟩,
  ⟨0x3020, 1, 0x05, 1, .bits32, .rw, .member, 4096, 0x1ffffff, .bits 0xFE000000⟩,
  ⟨0x3020, 1, 0x06, 1, .bits32, .rw, .member, 4096, 0x1ffffff, .bits 0xFE000000⟩,
  ⟨0x3020, 1, 0x07, 1, .bool, .rw, .member, 4096, 1, .oneOf [(0,1)]⟩,
  ⟨0x3030, 1, 0x00, 1, .u16, .ro, .member, 0, 0x400, .any⟩,
  ⟨0x3030, 1, 0x01, 1, .bits32, .rw, .member, 1024, 0, .bits 0xFE000000⟩,
  ⟨0x3040, 1, 0x00, 1, .u16, .ro, .member, 0, 0x400, .any⟩,
  ⟨0x3040, 1, 0x01, 1, .bool, .rw, .member, 1024, 0, .oneOf [(0,1)]⟩,
  ⟨0x3040, 1, 0x02, 1, (.octet 40), .rws, .member, 1024, 0, .any⟩,
  ⟨0x3040, 1, 0x03, 1, (.octet 40), .rws, .member, 1024, 0, .any⟩,
  ⟨0x3040, 1, 0x04, 1, .enum8, .rws, .member, 1024, 0, .oneOf [(0,4)]⟩]
/-- Rows of the area 3000–3FFF (part 2). -/
def rows3_2 : List ObjRow := [
  ⟨0x3040, 1, 0x05, 1, .u8, .rws, .member, 1024, 0xff, .any⟩,
  ⟨0x3040, 1, 0x06, 1, .u8, .rws, .member, 1024, 0xff, .seg [(0,7),(255,255)]⟩,
  ⟨0x3040, 1, 0x07, 1, .u16, .rws, .member, 1024, 0xffff, .seg [(0,2047),(65535,65535)]⟩,
  ⟨0x3040, 1, 0x08, 1, .bool, .rws, .member, 1024, 0, .oneOf [(0,1)]⟩,
  ⟨0x3040, 1, 0x09, 1, .bool, .rws, .member, 1024, 0, .oneOf [(0,1)]⟩,
  ⟨0x3040, 1, 0x0A, 1, .u64, .ro, .member, 1024, 0, .any⟩,
  ⟨0x3050, 1, 0x00, 1, .u16, .ro, .member, 0, 0x1000, .any⟩,
  ⟨0x3050, 1, 0x01, 1, .bool, .rw, .member, 4096, 0, .oneOf [(0,1)]⟩,
  ⟨0x3050, 1, 0x02, 1, (.octet 6), .rws, .member, 4096, 0, .any⟩,
  ⟨0x3050, 1, 0x03, 1, .u16, .rws, .member, 4096, 1, .seg [(0,4095)]⟩,
  ⟨0x3050, 1, 0x04, 1, .u16, .rws, .member, 4096, 0, .any⟩,
  ⟨0x3050, 1, 0x05, 1, .u8, .rws, .member, 4096, 0xff, .seg [(0,7),(255,255)]⟩,
  ⟨0x3060, 1, 0x00, 1, .u16, .ro, .member, 0, 0x8000, .any⟩,
  ⟨0x3060, 1, 0x01, 1, (.octet 16), .ro, .member, 32768, 0, .any⟩,
  ⟨0x3061, 1, 0x00, 1, .u16, .ro, .member, 0, 0x8000, .any⟩,
  ⟨0x3061, 1, 0x01, 1, (.octet 16), .ro, .member, 32768, 0, .any⟩,
  ⟨0x3062, 1, 0x00, 1, .u16, .ro, .member, 0, 0x40, .any⟩,
  ⟨0x3062, 1, 0x01, 1, (.octet 16), .ro, .member, 64, 0, .any⟩,
  ⟨0x3070, 1, 0x01, 1, .u8, .wo, .member, 0, 0, .seg [(0,24),(255,255)]⟩,
  ⟨0x3070, 1, 0x02, 1, .u16, .wo, .member, 0, 0, .seg [(0,4095),(65535,65535)]⟩,
  ⟨0x3070, 1, 0x03, 1, .u32, .ro, .member, 0, 0, .any⟩]
/-- All rows of the area 3000–3FFF. -/
def rows3 : List ObjRow := rows3_0 ++ rows3_1 ++ rows3_2

/-- Rows of the area 4000–4FFF (part 0). -/
def rows4_0 : List ObjRow := [
  ⟨0x4000, 1, 0x01, 1, (.octet 4), .rws, .member, 0, 0x10203, .any⟩,
  ⟨0x4000, 1, 0x02, 1, (.octet 8), .rws, .member, 0, 0x1020304050607, .any⟩,
  ⟨0x4000, 1, 0x03, 1, .bits32, .ro, .member, 0, 0, .any⟩,
  ⟨0x4010, 1, 0x01, 1, .enum8, .rws, .ne, 0, 0, .oneOf [(0,3)]⟩,
  ⟨0x4010, 1, 0x02, 1, .bool, .rws, .ne, 0, 0, .oneOf [(0,1)]⟩,
  ⟨0x4010, 1, 0x03, 1, .bool, .rws, .ne, 0, 0, .oneOf [(0,1)]⟩,
  ⟨0x4010, 1, 0x04, 1, .bool, .ro, .ne, 0, 0, .any⟩,
  ⟨0x4010, 1, 0x05, 1, .u16, .ro, .ne, 0, 0, .any⟩,
  ⟨0x4010, 1, 0x06, 1, .u32, .ro, .ne, 0, 0, .any⟩,
  ⟨0x4010, 1, 0x07, 1, .u32, .ro, .ne, 0, 0, .any⟩,
  ⟨0x4010, 1, 0x08, 1, .u32, .ro, .ne, 0, 0, .any⟩,
  ⟨0x4010, 1, 0x09, 1, .u32, .ro, .ne, 0, 0, .any⟩,
  ⟨0x4010, 1, 0x41, 1, .u8, .rw, .ne, 0, 0xa, .seg [(0,15)]⟩,
  ⟨0x4010, 1, 0x42, 1, .u8, .rw, .ne, 0, 0, .seg [(0,15)]⟩,
  ⟨0x4010, 1, 0x43, 1, .u8, .rw, .ne, 0, 4, .seg [(0,15)]⟩,
  ⟨0x4010, 1, 0x44, 1, .bool, .rw, .ne, 0, 1, .oneOf [(0,1)]⟩,
  ⟨0x4020, 1, 0x01, 1, .bool, .rw, .nesk, 0, 1, .oneOf [(0,1)]⟩,
  ⟨0x4020, 1, 0x02, 1, .u16, .rw, .nesk, 0, 0x5f2, .seg [(1518,9216)]⟩,
  ⟨0x4020, 1, 0x03, 1, .enum8, .ro, .nesk, 0, 0, .any⟩,
  ⟨0x4020, 1, 0x04, 1, .u32, .ro, .nesk, 0, 0, .any⟩,
  ⟨0x4020, 1, 0x05, 1, .u32, .ro, .nesk, 0, 0, .any⟩,
  ⟨0x4020, 1, 0x06, 1, .u32, .ro, .nesk, 0, 0, .any⟩,
  ⟨0x4030, 1, 0x01, 1, .u8, .rw, .nesk, 0, 1, .seg [(1,145)]⟩,
  ⟨0x4030, 1, 0x02, 1, .u8, .ro, .nesk, 0, 1, .any⟩,
  ⟨0x4030, 1, 0x03, 1, .u32, .ro, .nesk, 0, 0, .any⟩,
  ⟨0x4030, 1, 0x04, 1, .bool, .ro, .nesk, 0, 0, .any⟩,
  ⟨0x4030, 1, 0x05, 1, .u32, .ro, .nesk, 0, 0, .any⟩,
  ⟨0x4030, 1, 0x06, 1, .u32, .ro, .nesk, 0, 0, .any⟩,
  ⟨0x4030, 1, 0x41, 1, .u16, .rw, .nesk, 0, 0, .seg [(0,3600)]⟩,
  ⟨0x4030, 1, 0x42, 1, .bool, .wo, .nesk, 0, 0, .oneOf [(0,1)]⟩]
/-- Rows of the area 4000–4FFF (part 1). -/
def rows4_1 : List ObjRow := [
  ⟨0x4031, 1, 0x00, 1, .u16, .ro, .nesk, 0, 8, .any⟩,
  ⟨0x4031, 1, 0x01, 1, .u64, .ro, .nesk, 8, 0, .any⟩,
  ⟨0x4031, 1, 0x02, 1, .bool, .rw, .nesk, 8, 0, .oneOf [(0,1)]⟩,
  ⟨0x4040, 1, 0x01, 1, .bool, .rw, .ne, 0, 0, .oneOf [(0,1)]⟩,
  ⟨0x4040, 1, 0x02, 1, .bool, .rw, .ne, 0, 0, .oneOf [(0,1)]⟩,
  ⟨0x4040, 1, 0x03, 1, .u8, .rw, .ne, 0, 0xa, .seg [(1,128)]⟩,
  ⟨0x4040, 1, 0x04, 1, .u8, .rw, .ne, 0, 0, .seg [(0,3)]⟩,
  ⟨0x4040, 1, 0x05, 1, .enum8, .ro, .ne, 0, 0, .any⟩,
  ⟨0x4040, 1, 0x06, 1, .bool, .ro, .ne, 0, 0, .any⟩,
  ⟨0x4040, 1, 0x07, 1, .u32, .ro, .ne, 0, 0, .any⟩,
  ⟨0x4040, 1, 0x08, 1, .u64, .ro, .ne, 0, 0, .any⟩,
  ⟨0x4040, 1, 0x09, 1, .u64, .ro, .ne, 0, 0, .any⟩,
  ⟨0x4040, 1, 0x0A, 1, .u64, .ro, .ne, 0, 0, .any⟩,
  ⟨0x4040, 1, 0x0B, 1, .u32, .ro, .ne, 0, 0, .any⟩,
  ⟨0x4040, 1, 0x0C, 1, .u32, .ro, .ne, 0, 0, .any⟩,
  ⟨0x4040, 1, 0x0D, 1, .u32, .ro, .ne, 0, 0, .any⟩,
  ⟨0x4050, 1, 0x01, 1, .enum8, .rw, .nesk, 0, 0, .oneOf [(0,0),(1,1),(2,2)]⟩,
  ⟨0x4050, 1, 0x02, 1, .u32, .rw, .nesk, 0, 0x6000, .any⟩,
  ⟨0x4050, 1, 0x03, 1, .u32, .rw, .nesk, 0, 0x4000, .any⟩,
  ⟨0x4050, 1, 0x04, 1, .u16, .rw, .nesk, 0, 0xffff, .seg [(1,65535)]⟩,
  ⟨0x4050, 1, 0x05, 1, .bits32, .rw, .nesk, 0, 0xff, .bits 0xFFFFFF00⟩,
  ⟨0x4050, 1, 0x06, 1, .bool, .rw, .nesk, 0, 1, .oneOf [(0,1)]⟩,
  ⟨0x4050, 1, 0x07, 1, .enum8, .ro, .nesk, 0, 0, .any⟩,
  ⟨0x4050, 1, 0x08, 1, .u32, .ro, .nesk, 0, 0, .any⟩,
  ⟨0x4050, 1, 0x09, 1, .u32, .ro, .nesk, 0, 0, .any⟩,
  ⟨0x4050, 1, 0x0A, 1, .u32, .ro, .nesk, 0, 0, .any⟩,
  ⟨0x4050, 1, 0x0B, 1, .u64, .ro, .nesk, 0, 0, .any⟩,
  ⟨0x4060, 1, 0x01, 1, .enum8, .rws, .s, 0, 0, .oneOf [(0,0),(1,1),(2,2)]⟩,
  ⟨0x4060, 1, 0x02, 1, .u8, .rws, .s, 0, 0, .any⟩,
  ⟨0x4060, 1, 0x03, 1, .u8, .rws, .s, 0, 8, .seg [(2,32)]⟩]
/-- Rows of the area 4000–4FFF (part 2). -/
def rows4_2 : List ObjRow := [
  ⟨0x4060, 1, 0x04, 1, .u8, .rw, .s, 0, 0x20, .seg [(1,255)]⟩,
  ⟨0x4060, 1, 0x05, 1, .u8, .rw, .s, 0, 0, .any⟩,
  ⟨0x4060, 1, 0x06, 1, .u8, .rw, .s, 0, 0x80, .seg [(1,255)]⟩,
  ⟨0x4060, 1, 0x07, 1, .enum8, .ro, .s, 0, 0, .any⟩,
  ⟨0x4060, 1, 0x08, 1, .u32, .ro, .s, 0, 0, .any⟩,
  ⟨0x4060, 1, 0x09, 1, .u32, .ro, .s, 0, 0, .any⟩,
  ⟨0x4060, 1, 0x0A, 1, .u32, .ro, .s, 0, 0, .any⟩,
  ⟨0x4060, 1, 0x0B, 1, .u32, .ro, .s, 0, 0, .any⟩,
  ⟨0x4060, 1, 0x0C, 1, .u32, .ro, .s, 0, 0, .any⟩,
  ⟨0x4060, 1, 0x0D, 1, .u32, .ro, .s, 0, 0, .any⟩,
  ⟨0x4060, 1, 0x0E, 1, .enum8, .ro, .s, 0, 0, .any⟩,
  ⟨0x4060, 1, 0x0F, 1, .u32, .ro, .s, 0, 0, .any⟩,
  ⟨0x4060, 1, 0x10, 1, .u32, .ro, .s, 0, 0, .any⟩,
  ⟨0x4060, 1, 0x11, 1, .bool, .wo, .s, 0, 0, .oneOf [(0,1)]⟩,
  ⟨0x4060, 1, 0x12, 1, .enum8, .ro, .s, 0, 0, .any⟩,
  ⟨0x4060, 1, 0x13, 1, .u16, .ro, .s, 0, 0, .any⟩,
  ⟨0x4060, 1, 0x41, 1, .bool, .rw, .s, 0, 1, .oneOf [(0,1)]⟩,
  ⟨0x4060, 1, 0x42, 1, .u16, .rw, .s, 0, 0xfa0, .seg [(1000,65535)]⟩,
  ⟨0x4070, 1, 0x01, 1, .u64, .ro, .nesk, 0, 0, .any⟩,
  ⟨0x4070, 1, 0x02, 1, .u64, .ro, .nesk, 0, 0, .any⟩,
  ⟨0x4070, 1, 0x03, 1, .u64, .ro, .nesk, 0, 0, .any⟩,
  ⟨0x4070, 1, 0x04, 1, .u64, .ro, .nesk, 0, 0, .any⟩,
  ⟨0x4070, 1, 0x05, 1, .u32, .ro, .nesk, 0, 0, .any⟩,
  ⟨0x4070, 1, 0x06, 1, .u32, .ro, .nesk, 0, 0, .any⟩,
  ⟨0x4070, 1, 0x07, 1, .u32, .ro, .nesk, 0, 0, .any⟩,
  ⟨0x4070, 1, 0x08, 1, .u32, .ro, .nesk, 0, 0, .any⟩,
  ⟨0x4070, 1, 0x09, 1, .u64, .ro, .nesk, 0, 0, .any⟩,
  ⟨0x4070, 1, 0x0A, 1, .u64, .ro, .nesk, 0, 0, .any⟩,
  ⟨0x4070, 1, 0x0B, 1, .u64, .ro, .nesk, 0, 0, .any⟩,
  ⟨0x4070, 1, 0x0C, 1, .u64, .ro, .nesk, 0, 0, .any⟩]
/-- All rows of the area 4000–4FFF. -/
def rows4 : List ObjRow := rows4_0 ++ rows4_1 ++ rows4_2

/-- Rows of the area 5000–5FFF (part 0). -/
def rows5_0 : List ObjRow := [
  ⟨0x5000, 1, 0x01, 1, .u16, .ro, .member, 0, 0x1000, .any⟩,
  ⟨0x5000, 1, 0x02, 1, .u16, .ro, .member, 0, 0x200, .any⟩,
  ⟨0x5000, 1, 0x03, 1, .u8, .ro, .member, 0, 0x10, .any⟩,
  ⟨0x5000, 1, 0x04, 1, .u16, .ro, .member, 0, 0x800, .any⟩,
  ⟨0x5000, 1, 0x05, 1, .u32, .ro, .member, 0, 8, .any⟩,
  ⟨0x5010, 1, 0x00, 1, .u16, .ro, .member, 0, 0x10, .any⟩,
  ⟨0x5010, 1, 0x01, 1, .bool, .rw, .member, 16, 0, .oneOf [(0,1)]⟩,
  ⟨0x5010, 1, 0x02, 1, .u8, .rws, .member, 16, 0, .any⟩,
  ⟨0x5010, 1, 0x03, 1, .u32, .rw, .member, 16, 0, .seg [(0,3125000)]⟩,
  ⟨0x5010, 1, 0x04, 1, .u32, .rw, .member, 16, 0x4000, .seg [(0,16777215)]⟩,
  ⟨0x5010, 1, 0x05, 1, .u16, .rws, .member, 16, 0, .seg [(0,511)]⟩,
  ⟨0x5010, 1, 0x06, 1, .u8, .rws, .member, 16, 1, .seg [(1,64)]⟩,
  ⟨0x5010, 1, 0x07, 1, .i32, .ro, .member, 16, 0x4000, .any⟩,
  ⟨0x5010, 1, 0x08, 1, .u64, .ro, .member, 16, 0, .any⟩,
  ⟨0x5010, 1, 0x09, 1, .u64, .ro, .member, 16, 0, .any⟩,
  ⟨0x5020, 1, 0x00, 1, .u16, .ro, .member, 0, 0x200, .any⟩,
  ⟨0x5020, 1, 0x01, 1, .bool, .rw, .member, 512, 0, .oneOf [(0,1)]⟩,
  ⟨0x5020, 1, 0x02, 1, .u32, .rw, .member, 512, 0, .seg [(0,3125000)]⟩,
  ⟨0x5020, 1, 0x03, 1, .u32, .rw, .member, 512, 0x4000, .seg [(0,16777215)]⟩,
  ⟨0x5020, 1, 0x04, 1, .u32, .rw, .member, 512, 0xfac688, .bits 0xFF000000⟩,
  ⟨0x5020, 1, 0x05, 1, .i32, .ro, .member, 512, 0x4000, .any⟩,
  ⟨0x5020, 1, 0x06, 1, .u64, .ro, .member, 512, 0, .any⟩,
  ⟨0x5030, 1, 0x00, 1, .u16, .ro, .member, 0, 0x1000, .any⟩,
  ⟨0x5030, 1, 0x01, 1, .u32, .rw, .member, 4096, 0, .seg [(0,3125000)]⟩,
  ⟨0x5030, 1, 0x02, 1, .u32, .rw, .member, 4096, 0x4000, .seg [(0,16777215)]⟩,
  ⟨0x5030, 1, 0x03, 1, .i32, .ro, .member, 4096, 0x4000, .any⟩,
  ⟨0x5030, 1, 0x04, 1, .u32, .ro, .member, 4096, 0, .any⟩,
  ⟨0x5030, 1, 0x05, 1, .u64, .ro, .member, 4096, 0, .any⟩,
  ⟨0x5030, 1, 0x06, 1, .u64, .ro, .member, 4096, 0, .any⟩,
  ⟨0x5038, 1, 0x00, 1, .u16, .ro, .member, 0, 0x1000, .any⟩]
/-- Rows of the area 5000–5FFF (part 1). -/
def rows5_1 : List ObjRow := [
  ⟨0x5038, 1, 0x01, 1, .u8, .rw, .member, 4096, 0, .seg [(0,63)]⟩,
  ⟨0x5040, 1, 0x00, 1, .u16, .ro, .member, 0, 0x800, .any⟩,
  ⟨0x5040, 1, 0x01, 1, .enum8, .rw, .member, 2048, 0, .oneOf [(0,0),(1,1),(2,2)]⟩,
  ⟨0x5040, 1, 0x02, 1, .enum8, .rws, .member, 2048, 0, .oneOf [(0,0),(1,1)]⟩,
  ⟨0x5040, 1, 0x03, 1, .u32, .rws, .member, 2048, 0, .seg [(0,3125000)]⟩,
  ⟨0x5040, 1, 0x04, 1, .u32, .rws, .member, 2048, 0, .seg [(0,16777215)]⟩,
  ⟨0x5040, 1, 0x05, 1, .u32, .rws, .member, 2048, 0, .seg [(0,3125000)]⟩,
  ⟨0x5040, 1, 0x06, 1, .u32, .rws, .member, 2048, 0, .seg [(0,16777215)]⟩,
  ⟨0x5040, 1, 0x07, 1, .enum8, .rws, .member, 2048, 0, .oneOf [(0,2)]⟩,
  ⟨0x5040, 1, 0x08, 1, .enum8, .rws, .member, 2048, 0, .oneOf [(0,1)]⟩,
  ⟨0x5040, 1, 0x09, 1, .u64, .ro, .member, 2048, 0, .any⟩,
  ⟨0x5040, 1, 0x0A, 1, .u64, .ro, .member, 2048, 0, .any⟩,
  ⟨0x5040, 1, 0x0B, 1, .u64, .ro, .member, 2048, 0, .any⟩,
  ⟨0x5040, 1, 0x0C, 1, .u64, .ro, .member, 2048, 0, .any⟩,
  ⟨0x5045, 1, 0x00, 1, .u16, .ro, .member, 0, 0x19, .any⟩,
  ⟨0x5045, 1, 0x01, 1, .u16, .rw, .member, 25, 0xffff, .seg [(0,2047),(65535,65535)]⟩,
  ⟨0x5050, 1, 0x00, 1, .u16, .ro, .member, 0, 0x19, .any⟩,
  ⟨0x5050, 1, 0x01, 1, .i32, .rw, .member, 25, 0, .seg [(-32,63)]⟩,
  ⟨0x5050, 1, 0x02, 1, .i32, .rw, .member, 25, 0, .seg [(-32,63)]⟩,
  ⟨0x5060, 1, 0x01, 1, .bits32, .ro, .nesk, 0, 0xff, .any⟩,
  ⟨0x5060, 1, 0x02, 1, .bool, .rw, .nesk, 0, 1, .oneOf [(0,1)]⟩,
  ⟨0x5060, 1, 0x03, 1, .u32, .ro, .nesk, 0, 0, .any⟩,
  ⟨0x5060, 1, 0x04, 1, .u32, .ro, .nesk, 0, 0, .any⟩,
  ⟨0x5060, 1, 0x05, 1, .u32, .ro, .nesk, 0, 0, .any⟩,
  ⟨0x5060, 1, 0x06, 1, .u32, .ro, .nesk, 0, 0, .any⟩,
  ⟨0x5061, 1, 0x00, 1, .u16, .ro, .nesk, 0, 8, .any⟩,
  ⟨0x5061, 1, 0x01, 1, .u16, .rw, .nesk, 8, 0, .seg [(0,0),(64,9216)]⟩,
  ⟨0x5070, 1, 0x01, 1, .bool, .rw, .member, 0, 1, .oneOf [(0,1)]⟩,
  ⟨0x5070, 1, 0x02, 1, .u16, .rw, .member, 0, 0x64, .seg [(1,1000)]⟩,
  ⟨0x5070, 1, 0x03, 1, .bool, .wo, .member, 0, 0, .oneOf [(0,1)]⟩]
/-- Rows of the area 5000–5FFF (part 2). -/
def rows5_2 : List ObjRow := [
  ⟨0x5070, 1, 0x04, 1, .u64, .ro, .member, 0, 0, .any⟩,
  ⟨0x5070, 1, 0x05, 1, .u32, .ro, .member, 0, 0, .any⟩,
  ⟨0x5070, 1, 0x41, 1, .u16, .rw, .member, 0, 0x80, .oneOf [(8,8),(16,16),(32,32),(64,64),(128,128),(256,256),(512,512),(1024,1024),(2048,2048),(4096,4096)]⟩,
  ⟨0x5080, 1, 0x00, 1, .u16, .ro, .member, 0, 0x1000, .any⟩,
  ⟨0x5080, 1, 0x01, 1, (.octet 64), .ro, .member, 4096, 0, .any⟩,
  ⟨0x5080, 1, 0x02, 1, (.octet 64), .ro, .member, 4096, 0, .any⟩,
  ⟨0x5080, 1, 0x03, 1, .u32, .ro, .member, 4096, 0, .any⟩,
  ⟨0x5080, 1, 0x04, 1, .time96, .ro, .member, 4096, 0, .any⟩,
  ⟨0x5080, 1, 0x05, 1, .u32, .ro, .member, 4096, 0, .any⟩,
  ⟨0x5080, 1, 0x06, 1, .time96, .ro, .member, 4096, 0, .any⟩]
/-- All rows of the area 5000–5FFF. -/
def rows5 : List ObjRow := rows5_0 ++ rows5_1 ++ rows5_2

/-- Rows of the area 6000–6FFF (part 0). -/
def rows6_0 : List ObjRow := [
  ⟨0x6000, 1, 0x01, 1, .u8, .ro, .member, 0, 0x18, .any⟩,
  ⟨0x6000, 1, 0x02, 1, .u8, .ro, .member, 0, 0x20, .any⟩,
  ⟨0x6000, 1, 0x03, 1, .u32, .ro, .member, 0, 0x13880, .any⟩,
  ⟨0x6000, 1, 0x04, 1, .bits32, .ro, .member, 0, 0, .any⟩,
  ⟨0x6000, 1, 0x05, 1, .bits32, .ro, .member, 0, 0, .any⟩,
  ⟨0x6010, 1, 0x01, 1, .bool, .rw, .can, 0, 0, .oneOf [(0,1)]⟩,
  ⟨0x6010, 1, 0x02, 1, .enum8, .rws, .can, 0, 1, .oneOf [(0,2)]⟩,
  ⟨0x6010, 1, 0x03, 1, .bool, .rws, .can, 0, 0, .oneOf [(0,1)]⟩,
  ⟨0x6010, 1, 0x04, 1, .enum8, .ro, .can, 0, 0, .any⟩,
  ⟨0x6010, 1, 0x05, 1, .u16, .ro, .can, 0, 0, .any⟩,
  ⟨0x6010, 1, 0x06, 1, .u8, .ro, .can, 0, 0, .any⟩,
  ⟨0x6010, 1, 0x07, 1, .u8, .rws, .can, 0, 0xff, .seg [(0,23),(255,255)]⟩,
  ⟨0x6010, 1, 0x08, 1, .u32, .rws, .can, 0, 0, .bits 0xE0000000⟩,
  ⟨0x6010, 1, 0x09, 1, .enum8, .ro, .can, 0, 0, .any⟩,
  ⟨0x6010, 1, 0x0A, 1, .bool, .ro, .can, 0, 0, .any⟩,
  ⟨0x6011, 1, 0x01, 1, .u8, .rws, .can, 0, 2, .any⟩,
  ⟨0x6011, 1, 0x02, 1, .u16, .rws, .can, 0, 0x3f, .any⟩,
  ⟨0x6011, 1, 0x03, 1, .u8, .rws, .can, 0, 0x10, .any⟩,
  ⟨0x6011, 1, 0x04, 1, .u8, .rws, .can, 0, 0x10, .any⟩,
  ⟨0x6011, 1, 0x05, 1, .u8, .rws, .can, 0, 2, .any⟩,
  ⟨0x6011, 1, 0x06, 1, .u8, .rws, .can, 0, 0xf, .any⟩,
  ⟨0x6011, 1, 0x07, 1, .u8, .rws, .can, 0, 4, .any⟩,
  ⟨0x6011, 1, 0x08, 1, .u8, .rws, .can, 0, 4, .any⟩,
  ⟨0x6011, 1, 0x09, 1, .u32, .ro, .can, 0, 0x7a120, .any⟩,
  ⟨0x6011, 1, 0x0A, 1, .u32, .ro, .can, 0, 0x1e8480, .any⟩,
  ⟨0x6011, 1, 0x0B, 1, .u16, .ro, .can, 0, 0, .any⟩,
  ⟨0x6011, 1, 0x41, 1, .bool, .rws, .can, 0, 1, .oneOf [(0,1)]⟩,
  ⟨0x6011, 1, 0x42, 1, .u8, .rws, .can, 0, 0x20, .seg [(0,255)]⟩,
  ⟨0x6011, 1, 0x43, 1, .bool, .rws, .can, 0, 0, .oneOf [(0,1)]⟩,
  ⟨0x6011, 1, 0x44, 1, .u8, .rws, .can, 0, 8, .seg [(1,63)]⟩]
/-- Rows of the area 6000–6FFF (part 1). -/
def rows6_1 : List ObjRow := [
  ⟨0x6011, 1, 0x45, 1, .u8, .rws, .can, 0, 0x20, .seg [(1,63)]⟩,
  ⟨0x6011, 1, 0x46, 1, .bool, .rws, .can, 0, 1, .oneOf [(0,1)]⟩,
  ⟨0x6020, 1, 0x00, 1, .u16, .ro, .can, 0, 0x20, .any⟩,
  ⟨0x6020, 1, 0x01, 1, .enum8, .rws, .can, 32, 0, .oneOf [(0,0),(1,1),(2,2)]⟩,
  ⟨0x6020, 1, 0x02, 1, .bool, .rws, .can, 32, 0, .oneOf [(0,1)]⟩,
  ⟨0x6020, 1, 0x03, 1, .enum8, .rws, .can, 32, 0, .oneOf [(0,0),(1,1)]⟩,
  ⟨0x6020, 1, 0x04, 1, .enum8, .ro, .can, 32, 0, .any⟩,
  ⟨0x6020, 1, 0x05, 1, .u32, .ro, .can, 32, 0, .any⟩,
  ⟨0x6020, 1, 0x06, 1, .enum8, .ro, .can, 32, 0, .any⟩,
  ⟨0x6020, 1, 0x07, 1, .time96, .ro, .can, 32, 0, .any⟩,
  ⟨0x6020, 1, 0x08, 1, .bool, .ro, .can, 32, 0, .any⟩,
  ⟨0x6020, 1, 0x09, 1, .bool, .ro, .can, 32, 1, .any⟩,
  ⟨0x6020, 1, 0x0A, 1, .bool, .wo, .can, 32, 0, .oneOf [(0,1)]⟩,
  ⟨0x6020, 1, 0x0B, 1, .u8, .ro, .can, 32, 0, .any⟩,
  ⟨0x6030, 1, 0x01, 1, .u64, .ro, .can, 0, 0, .any⟩,
  ⟨0x6030, 1, 0x02, 1, .u64, .ro, .can, 0, 0, .any⟩,
  ⟨0x6030, 1, 0x03, 1, .u64, .ro, .can, 0, 0, .any⟩,
  ⟨0x6030, 1, 0x04, 1, .u64, .ro, .can, 0, 0, .any⟩,
  ⟨0x6030, 1, 0x05, 1, .u32, .ro, .can, 0, 0, .any⟩,
  ⟨0x6030, 1, 0x06, 1, .u32, .ro, .can, 0, 0, .any⟩,
  ⟨0x6030, 1, 0x07, 1, .u32, .ro, .can, 0, 0, .any⟩,
  ⟨0x6030, 1, 0x08, 1, .u32, .ro, .can, 0, 0, .any⟩,
  ⟨0x6030, 1, 0x09, 1, .u32, .ro, .can, 0, 0, .any⟩,
  ⟨0x6030, 1, 0x0A, 1, .u32, .ro, .can, 0, 0, .any⟩,
  ⟨0x6030, 1, 0x0B, 1, .u32, .ro, .can, 0, 0, .any⟩,
  ⟨0x6030, 1, 0x0C, 1, .u32, .ro, .can, 0, 0, .any⟩,
  ⟨0x6030, 1, 0x0D, 1, .u32, .ro, .can, 0, 0, .any⟩,
  ⟨0x6030, 1, 0x0E, 1, .u32, .ro, .can, 0, 0, .any⟩,
  ⟨0x6030, 1, 0x0F, 1, .u32, .ro, .can, 0, 0, .any⟩,
  ⟨0x6030, 1, 0x10, 1, .u32, .ro, .can, 0, 0, .any⟩]
/-- Rows of the area 6000–6FFF (part 2). -/
def rows6_2 : List ObjRow := [
  ⟨0x6030, 1, 0x11, 1, .u32, .ro, .can, 0, 0, .any⟩,
  ⟨0x6030, 1, 0x12, 1, .u32, .ro, .can, 0, 0, .any⟩,
  ⟨0x6030, 1, 0x13, 1, .u32, .ro, .can, 0, 0, .any⟩,
  ⟨0x6030, 1, 0x14, 1, .u32, .ro, .can, 0, 0, .any⟩,
  ⟨0x6030, 1, 0x15, 1, .u32, .ro, .can, 0, 0, .any⟩,
  ⟨0x6030, 1, 0x16, 1, .u32, .ro, .can, 0, 0, .any⟩,
  ⟨0x6030, 1, 0x17, 1, .u32, .ro, .can, 0, 0, .any⟩,
  ⟨0x6040, 1, 0x01, 1, .u32, .ro, .can, 0, 0, .any⟩,
  ⟨0x6040, 1, 0x02, 1, .u32, .ro, .can, 0, 0, .any⟩,
  ⟨0x6040, 1, 0x03, 1, .u16, .ro, .can, 0, 0, .any⟩,
  ⟨0x6040, 1, 0x04, 1, .enum8, .ro, .can, 0, 0, .any⟩,
  ⟨0x6040, 1, 0x05, 1, .time96, .ro, .can, 0, 0, .any⟩,
  ⟨0x6050, 1, 0x01, 1, .u32, .rws, .can, 0, 0, .any⟩,
  ⟨0x6050, 1, 0x02, 1, .u8, .rws, .can, 0, 0x3f, .seg [(0,63)]⟩,
  ⟨0x6050, 1, 0x03, 1, .u8, .rws, .can, 0, 4, .seg [(4,8)]⟩,
  ⟨0x6050, 1, 0x04, 1, .u32, .ro, .can, 0, 0, .any⟩,
  ⟨0x6800, 1, 0x01, 1, .u8, .ro, .member, 0, 0x10, .any⟩,
  ⟨0x6800, 1, 0x02, 1, .u8, .ro, .member, 0, 0x40, .any⟩,
  ⟨0x6800, 1, 0x03, 1, .u8, .ro, .member, 0, 0x40, .any⟩,
  ⟨0x6800, 1, 0x04, 1, .bits32, .ro, .member, 0, 0, .any⟩,
  ⟨0x6810, 1, 0x01, 1, .bool, .rw, .lin, 0, 0, .oneOf [(0,1)]⟩,
  ⟨0x6810, 1, 0x02, 1, .enum8, .rws, .lin, 0, 0, .oneOf [(0,0),(1,1)]⟩,
  ⟨0x6810, 1, 0x03, 1, .u16, .rws, .lin, 0, 0x4b00, .seg [(1000,20000)]⟩,
  ⟨0x6810, 1, 0x04, 1, .u8, .rws, .lin, 0, 0xd, .seg [(13,26)]⟩,
  ⟨0x6810, 1, 0x05, 1, .enum8, .ro, .lin, 0, 0, .any⟩,
  ⟨0x6810, 1, 0x06, 1, .u8, .ro, .lin, 0, 0xff, .any⟩,
  ⟨0x6810, 1, 0x07, 1, .u8, .rw, .lin, 0, 0xff, .any⟩,
  ⟨0x6810, 1, 0x08, 1, .u8, .ro, .lin, 0, 0, .any⟩,
  ⟨0x6810, 1, 0x09, 1, .u8, .rws, .lin, 0, 1, .seg [(0,8)]⟩,
  ⟨0x6810, 1, 0x0A, 1, .u8, .rws, .lin, 0, 0xff, .seg [(0,59),(255,255)]⟩]
/-- Rows of the area 6000–6FFF (part 3). -/
def rows6_3 : List ObjRow := [
  ⟨0x6810, 1, 0x0B, 1, .u8, .rws, .lin, 0, 0, .seg [(0,63)]⟩,
  ⟨0x6810, 1, 0x0C, 1, .u16, .ro, .lin, 0, 0, .any⟩,
  ⟨0x6810, 1, 0x0D, 1, .u16, .rws, .lin, 0, 0x3e8, .seg [(250,5000)]⟩,
  ⟨0x6810, 1, 0x41, 1, .u8, .rw, .lin, 0, 0xe, .seg [(2,14)]⟩,
  ⟨0x6820, 1, 0x00, 1, .u16, .ro, .lin, 0, 0x40, .any⟩,
  ⟨0x6820, 1, 0x01, 1, .enum8, .rws, .lin, 64, 0, .oneOf [(0,0),(1,1),(2,2)]⟩,
  ⟨0x6820, 1, 0x02, 1, .u8, .rws, .lin, 64, 8, .seg [(1,8)]⟩,
  ⟨0x6820, 1, 0x03, 1, .enum8, .rws, .lin, 64, 0, .oneOf [(0,0),(1,1)]⟩,
  ⟨0x6820, 1, 0x04, 1, .bool, .ro, .lin, 64, 0, .any⟩,
  ⟨0x6820, 1, 0x05, 1, .bool, .ro, .lin, 64, 0, .any⟩,
  ⟨0x6820, 1, 0x06, 1, .u32, .ro, .lin, 64, 0, .any⟩,
  ⟨0x6830, 1, 0x00, 1, .u16, .ro, .member, 0, 0x1000, .any⟩,
  ⟨0x6830, 1, 0x01, 1, .enum8, .rws, .member, 4096, 0, .oneOf [(0,4)]⟩,
  ⟨0x6830, 1, 0x02, 1, .u8, .rws, .member, 4096, 0, .seg [(0,63)]⟩,
  ⟨0x6830, 1, 0x03, 1, .u16, .rws, .member, 4096, 0x64, .seg [(10,10000)]⟩,
  ⟨0x6830, 1, 0x04, 1, .u8, .rws, .member, 4096, 0xff, .any⟩,
  ⟨0x6838, 1, 0x00, 1, .u16, .ro, .member, 0, 0x40, .any⟩,
  ⟨0x6838, 1, 0x01, 1, .u8, .rws, .member, 64, 0, .seg [(0,64)]⟩,
  ⟨0x6840, 1, 0x01, 1, .u32, .ro, .lin, 0, 0, .any⟩,
  ⟨0x6840, 1, 0x02, 1, .u64, .ro, .lin, 0, 0, .any⟩,
  ⟨0x6840, 1, 0x03, 1, .u64, .ro, .lin, 0, 0, .any⟩,
  ⟨0x6840, 1, 0x04, 1, .u32, .ro, .lin, 0, 0, .any⟩,
  ⟨0x6840, 1, 0x05, 1, .u32, .ro, .lin, 0, 0, .any⟩,
  ⟨0x6840, 1, 0x06, 1, .u32, .ro, .lin, 0, 0, .any⟩,
  ⟨0x6840, 1, 0x07, 1, .u32, .ro, .lin, 0, 0, .any⟩,
  ⟨0x6840, 1, 0x08, 1, .u32, .ro, .lin, 0, 0, .any⟩,
  ⟨0x6840, 1, 0x09, 1, .u32, .ro, .lin, 0, 0, .any⟩,
  ⟨0x6840, 1, 0x0A, 1, .u32, .ro, .lin, 0, 0, .any⟩,
  ⟨0x6840, 1, 0x0B, 1, .u32, .ro, .lin, 0, 0, .any⟩,
  ⟨0x6840, 1, 0x0C, 1, .u32, .ro, .lin, 0, 0, .any⟩]
/-- Rows of the area 6000–6FFF (part 4). -/
def rows6_4 : List ObjRow := [
  ⟨0x6840, 1, 0x0D, 1, .u32, .ro, .lin, 0, 0, .any⟩,
  ⟨0x6840, 1, 0x0E, 1, .u32, .ro, .lin, 0, 0, .any⟩,
  ⟨0x6840, 1, 0x0F, 1, .u32, .ro, .lin, 0, 0, .any⟩,
  ⟨0x6880, 1, 0x01, 1, .u8, .rws, .w, 0, 0, .any⟩,
  ⟨0x6880, 1, 0x02, 1, .enum8, .ro, .w, 0, 2, .any⟩,
  ⟨0x6880, 1, 0x03, 1, .u16, .rws, .w, 0, 0x32, .seg [(1,1000)]⟩,
  ⟨0x6880, 1, 0x04, 1, .u32, .ro, .w, 0, 0, .any⟩,
  ⟨0x6880, 1, 0x05, 1, .u32, .ro, .w, 0, 0, .any⟩,
  ⟨0x6880, 1, 0x06, 1, .u8, .rws, .w, 0, 0xff, .seg [(0,7),(255,255)]⟩,
  ⟨0x6880, 1, 0x07, 1, .bool, .wo, .w, 0, 0, .oneOf [(0,1)]⟩,
  ⟨0x6880, 1, 0x08, 1, .enum8, .ro, .w, 0, 0, .any⟩,
  ⟨0x6880, 1, 0x09, 1, .u32, .ro, .w, 0, 0, .any⟩,
  ⟨0x6880, 1, 0x0A, 1, .bool, .rws, .w, 0, 0, .oneOf [(0,1)]⟩,
  ⟨0x6880, 1, 0x0B, 1, .u8, .rws, .w, 0, 0, .seg [(0,32)]⟩,
  ⟨0x6890, 1, 0x01, 1, .u16, .rw, .member, 0, 0x3e8, .seg [(100,10000)]⟩,
  ⟨0x6890, 1, 0x02, 1, .enum8, .rw, .member, 0, 0, .oneOf [(0,3)]⟩,
  ⟨0x6890, 1, 0x03, 1, .u8, .rw, .member, 0, 0x10, .oneOf [(16,16),(24,24)]⟩,
  ⟨0x6890, 1, 0x04, 1, .u32, .rw, .member, 0, 0x8000, .any⟩,
  ⟨0x6890, 1, 0x05, 1, .u16, .rw, .member, 0, 1, .seg [(1,100)]⟩,
  ⟨0x68A0, 1, 0x00, 1, .u16, .ro, .can, 0, 0x20, .any⟩,
  ⟨0x68A0, 1, 0x01, 1, .u32, .rws, .can, 32, 0, .any⟩,
  ⟨0x68A0, 1, 0x02, 1, .u32, .rws, .can, 32, 0, .any⟩,
  ⟨0x68B0, 1, 0x00, 1, .u16, .ro, .member, 0, 4, .any⟩,
  ⟨0x68B0, 1, 0x01, 1, .bool, .rw, .member, 4, 0, .oneOf [(0,1)]⟩,
  ⟨0x68B0, 1, 0x02, 1, .enum8, .rw, .member, 4, 0, .oneOf [(0,0),(1,1),(2,2)]⟩,
  ⟨0x68B0, 1, 0x03, 1, .u8, .rw, .member, 4, 0x10, .seg [(1,255)]⟩,
  ⟨0x68B0, 1, 0x04, 1, .u16, .rw, .member, 4, 0x3e8, .seg [(0,0),(100,10000)]⟩,
  ⟨0x68B0, 1, 0x05, 1, .enum8, .ro, .member, 4, 0, .any⟩,
  ⟨0x68B0, 1, 0x06, 1, .u16, .rw, .member, 4, 0x3c, .seg [(1,3600)]⟩,
  ⟨0x68B0, 1, 0x07, 1, .u32, .ro, .member, 4, 0, .any⟩]
/-- Rows of the area 6000–6FFF (part 5). -/
def rows6_5 : List ObjRow := [
  ⟨0x68B0, 1, 0x08, 1, .u32, .ro, .member, 4, 0, .any⟩]
/-- All rows of the area 6000–6FFF. -/
def rows6 : List ObjRow := rows6_0 ++ rows6_1 ++ rows6_2 ++ rows6_3 ++ rows6_4 ++ rows6_5

/-- Rows of the area 7000–7FFF (part 0). -/
def rows7_0 : List ObjRow := [
  ⟨0x7000, 1, 0x01, 1, .u16, .ro, .member, 0, 0x2000, .any⟩,
  ⟨0x7000, 1, 0x02, 1, .u32, .ro, .member, 0, 0x10000, .any⟩,
  ⟨0x7000, 1, 0x03, 1, .u16, .ro, .member, 0, 0x8000, .any⟩,
  ⟨0x7000, 1, 0x04, 1, .u16, .ro, .member, 0, 0x800, .any⟩,
  ⟨0x7000, 1, 0x05, 1, .u32, .ro, .member, 0, 0x7a120, .any⟩,
  ⟨0x7000, 1, 0x06, 1, .u16, .rw, .member, 0, 0xc635, .seg [(1,65535)]⟩,
  ⟨0x7000, 1, 0x07, 1, (.octet 6), .rw, .member, 0, 0, .any⟩,
  ⟨0x7000, 1, 0x08, 1, (.octet 4), .rw, .member, 0, 0, .any⟩,
  ⟨0x7000, 1, 0x09, 1, (.octet 16), .rw, .member, 0, 0, .any⟩,
  ⟨0x7000, 1, 0x0A, 1, .u64, .ro, .member, 0, 0, .any⟩,
  ⟨0x7000, 1, 0x0B, 1, .u64, .ro, .member, 0, 0, .any⟩,
  ⟨0x7000, 1, 0x0C, 1, .u64, .ro, .member, 0, 0, .any⟩,
  ⟨0x7000, 1, 0x0D, 1, .u32, .ro, .member, 0, 0, .any⟩,
  ⟨0x7000, 1, 0x0E, 1, .u32, .ro, .member, 0, 0, .any⟩,
  ⟨0x7000, 1, 0x10, 1, .u32, .ro, .member, 0, 0, .any⟩,
  ⟨0x7000, 1, 0x11, 1, .u32, .ro, .member, 0, 0, .any⟩,
  ⟨0x7000, 1, 0x12, 1, .u16, .ro, .member, 0, 0, .any⟩,
  ⟨0x7000, 1, 0x13, 1, .u32, .ro, .member, 0, 0, .any⟩,
  ⟨0x7000, 1, 0x14, 1, .u32, .ro, .member, 0, 0, .any⟩,
  ⟨0x7010, 1, 0x01, 1, .bool, .rw, .w, 0, 0, .oneOf [(0,1)]⟩,
  ⟨0x7010, 1, 0x02, 1, .u16, .rw, .w, 0, 0xffff, .any⟩,
  ⟨0x7010, 1, 0x03, 1, .u8, .ro, .w, 0, 0, .any⟩,
  ⟨0x7010, 1, 0x04, 1, .u8, .ro, .w, 0, 0, .any⟩,
  ⟨0x7010, 1, 0x05, 1, .u64, .ro, .w, 0, 0, .any⟩,
  ⟨0x7010, 1, 0x06, 1, .u32, .ro, .w, 0, 0, .any⟩,
  ⟨0x7100, 1, 0x00, 1, .u16, .ro, .member, 0, 0x2000, .any⟩,
  ⟨0x7100, 1, 0x01, 1, .bool, .rw, .member, 8192, 0, .oneOf [(0,1)]⟩,
  ⟨0x7100, 1, 0x02, 1, .enum8, .rws, .member, 8192, 0, .oneOf [(0,4)]⟩,
  ⟨0x7100, 1, 0x03, 1, .enum8, .rws, .member, 8192, 0, .oneOf [(0,0),(1,1)]⟩,
  ⟨0x7100, 1, 0x04, 1, .u8, .rws, .member, 8192, 0xff, .any⟩]
/-- Rows of the area 7000–7FFF (part 1). -/
def rows7_1 : List ObjRow := [
  ⟨0x7100, 1, 0x05, 1, .u16, .rws, .member, 8192, 0xffff, .seg [(0,2047),(65535,65535)]⟩,
  ⟨0x7100, 1, 0x06, 1, .u32, .rws, .member, 8192, 0, .any⟩,
  ⟨0x7100, 1, 0x07, 1, .u32, .rws, .member, 8192, 0x3fffffff, .bits 0xC0000000⟩,
  ⟨0x7100, 1, 0x08, 1, .u16, .rws, .member, 8192, 8, .any⟩,
  ⟨0x7100, 1, 0x09, 1, .u8, .rws, .member, 8192, 0, .any⟩,
  ⟨0x7100, 1, 0x0A, 1, .enum8, .rws, .member, 8192, 0, .oneOf [(0,0),(1,1)]⟩,
  ⟨0x7100, 1, 0x0B, 1, .u8, .rws, .member, 8192, 0, .seg [(0,31)]⟩,
  ⟨0x7100, 1, 0x0C, 1, .u64, .ro, .member, 8192, 0, .any⟩,
  ⟨0x7100, 1, 0x0D, 1, .u64, .ro, .member, 8192, 0, .any⟩,
  ⟨0x7100, 1, 0x0E, 1, .u32, .ro, .member, 8192, 0, .any⟩,
  ⟨0x7100, 1, 0x0F, 1, .u32, .ro, .member, 8192, 0, .any⟩,
  ⟨0x7100, 1, 0x10, 1, .enum8, .ro, .member, 8192, 0, .any⟩,
  ⟨0x7200, 1, 0x00, 1, .u16, .ro, .member, 0, 0x8000, .any⟩,
  ⟨0x7200, 1, 0x01, 1, .bool, .rw, .member, 32768, 0, .oneOf [(0,1)]⟩,
  ⟨0x7200, 1, 0x02, 1, .u16, .rws, .member, 32768, 0, .seg [(0,8191)]⟩,
  ⟨0x7200, 1, 0x03, 1, .u16, .rws, .member, 32768, 0, .any⟩,
  ⟨0x7200, 1, 0x04, 1, .u16, .rws, .member, 32768, 8, .any⟩,
  ⟨0x7200, 1, 0x05, 1, .enum8, .rws, .member, 32768, 0, .oneOf [(0,0),(1,1)]⟩,
  ⟨0x7200, 1, 0x06, 1, .u16, .rws, .member, 32768, 0xffff, .any⟩,
  ⟨0x7200, 1, 0x07, 1, (.octet 8), .rws, .member, 32768, 0, .any⟩,
  ⟨0x7200, 1, 0x08, 1, .enum8, .ro, .member, 32768, 0, .any⟩,
  ⟨0x7200, 1, 0x09, 1, (.octet 8), .ro, .member, 32768, 0, .any⟩,
  ⟨0x7200, 1, 0x0A, 1, .time96, .ro, .member, 32768, 0, .any⟩,
  ⟨0x7200, 1, 0x0B, 1, .u16, .ro, .member, 32768, 0, .any⟩,
  ⟨0x7200, 1, 0x0C, 1, .u32, .ro, .member, 32768, 0, .any⟩,
  ⟨0x7200, 1, 0x0D, 1, .u32, .ro, .member, 32768, 0, .any⟩,
  ⟨0x7201, 1, 0x00, 1, .u16, .ro, .member, 0, 0x8000, .any⟩,
  ⟨0x7201, 1, 0x01, 1, .bool, .rw, .member, 32768, 0, .oneOf [(0,1)]⟩,
  ⟨0x7201, 1, 0x02, 1, .u16, .rws, .member, 32768, 0, .seg [(0,8191)]⟩,
  ⟨0x7201, 1, 0x03, 1, .u16, .rws, .member, 32768, 0, .any⟩]
/-- Rows of the area 7000–7FFF (part 2). -/
def rows7_2 : List ObjRow := [
  ⟨0x7201, 1, 0x04, 1, .u16, .rws, .member, 32768, 8, .any⟩,
  ⟨0x7201, 1, 0x05, 1, .enum8, .rws, .member, 32768, 0, .oneOf [(0,0),(1,1)]⟩,
  ⟨0x7201, 1, 0x06, 1, .u16, .rws, .member, 32768, 0xffff, .any⟩,
  ⟨0x7201, 1, 0x07, 1, (.octet 8), .rws, .member, 32768, 0, .any⟩,
  ⟨0x7201, 1, 0x08, 1, .enum8, .ro, .member, 32768, 0, .any⟩,
  ⟨0x7201, 1, 0x09, 1, (.octet 8), .ro, .member, 32768, 0, .any⟩,
  ⟨0x7201, 1, 0x0A, 1, .time96, .ro, .member, 32768, 0, .any⟩,
  ⟨0x7201, 1, 0x0B, 1, .u16, .ro, .member, 32768, 0, .any⟩,
  ⟨0x7201, 1, 0x0C, 1, .u32, .ro, .member, 32768, 0, .any⟩,
  ⟨0x7201, 1, 0x0D, 1, .u32, .ro, .member, 32768, 0, .any⟩,
  ⟨0x7300, 1, 0x00, 1, .u16, .ro, .member, 0, 0x8000, .any⟩,
  ⟨0x7300, 1, 0x01, 1, .bool, .rw, .member, 32768, 0, .oneOf [(0,1)]⟩,
  ⟨0x7300, 1, 0x02, 1, .enum8, .rws, .member, 32768, 1, .oneOf [(1,2)]⟩,
  ⟨0x7300, 1, 0x03, 1, .u16, .rws, .member, 32768, 0, .any⟩,
  ⟨0x7300, 1, 0x04, 1, .u16, .rws, .member, 32768, 0, .seg [(0,8191)]⟩,
  ⟨0x7300, 1, 0x05, 1, .u16, .rws, .member, 32768, 0, .any⟩,
  ⟨0x7300, 1, 0x06, 1, .bool, .rws, .member, 32768, 0, .oneOf [(0,1)]⟩,
  ⟨0x7300, 1, 0x07, 1, .u64, .ro, .member, 32768, 0, .any⟩,
  ⟨0x7300, 1, 0x08, 1, .u32, .ro, .member, 32768, 0, .any⟩,
  ⟨0x7300, 1, 0x09, 1, .u32, .ro, .member, 32768, 0, .any⟩,
  ⟨0x7300, 1, 0x0A, 1, .u32, .ro, .member, 32768, 0, .any⟩,
  ⟨0x7300, 1, 0x0B, 1, .u32, .ro, .member, 32768, 0, .any⟩,
  ⟨0x7300, 1, 0x0C, 1, .time96, .ro, .member, 32768, 0, .any⟩,
  ⟨0x7400, 1, 0x00, 1, .u16, .ro, .member, 0, 0x800, .any⟩,
  ⟨0x7400, 1, 0x01, 1, .bool, .rw, .member, 2048, 0, .oneOf [(0,1)]⟩,
  ⟨0x7400, 1, 0x02, 1, .enum8, .rws, .member, 2048, 0, .oneOf [(0,0),(1,1)]⟩,
  ⟨0x7400, 1, 0x03, 1, .enum8, .rws, .member, 2048, 0, .oneOf [(0,4)]⟩,
  ⟨0x7400, 1, 0x04, 1, .u16, .rws, .member, 2048, 0, .any⟩,
  ⟨0x7400, 1, 0x05, 1, (.octet 8), .rws, .member, 2048, 0, .any⟩,
  ⟨0x7400, 1, 0x06, 1, (.octet 6), .rws, .member, 2048, 0, .any⟩]
/-- Rows of the area 7000–7FFF (part 3). -/
def rows7_3 : List ObjRow := [
  ⟨0x7400, 1, 0x07, 1, .u16, .rws, .member, 2048, 0, .seg [(0,4094)]⟩,
  ⟨0x7400, 1, 0x08, 1, .u8, .rws, .member, 2048, 0, .seg [(0,7)]⟩,
  ⟨0x7400, 1, 0x09, 1, (.octet 16), .rws, .member, 2048, 0, .any⟩,
  ⟨0x7400, 1, 0x0A, 1, .u16, .rws, .member, 2048, 0xc635, .seg [(1,65535)]⟩,
  ⟨0x7400, 1, 0x0B, 1, .u8, .rws, .member, 2048, 0, .seg [(0,63)]⟩,
  ⟨0x7400, 1, 0x0C, 1, .u16, .rws, .member, 2048, 0x5f2, .seg [(128,9216)]⟩,
  ⟨0x7400, 1, 0x0D, 1, .u8, .rws, .member, 2048, 0xff, .seg [(1,255)]⟩,
  ⟨0x7400, 1, 0x0E, 1, .u32, .rws, .member, 2048, 0, .seg [(0,1000000)]⟩,
  ⟨0x7400, 1, 0x0F, 1, .enum8, .rws, .member, 2048, 0, .oneOf [(0,0),(1,1)]⟩,
  ⟨0x7400, 1, 0x10, 1, .bool, .rws, .member, 2048, 1, .oneOf [(0,1)]⟩,
  ⟨0x7400, 1, 0x11, 1, .bool, .rws, .member, 2048, 1, .oneOf [(0,1)]⟩,
  ⟨0x7400, 1, 0x12, 1, .enum8, .rws, .member, 2048, 0, .oneOf [(0,0),(1,1)]⟩,
  ⟨0x7400, 1, 0x13, 1, .u8, .rws, .member, 2048, 0xff, .seg [(0,63),(255,255)]⟩,
  ⟨0x7400, 1, 0x14, 1, .bool, .rws, .member, 2048, 1, .oneOf [(0,1)]⟩,
  ⟨0x7400, 1, 0x15, 1, .u32, .rws, .member, 2048, 0, .any⟩,
  ⟨0x7400, 1, 0x16, 1, .u64, .ro, .member, 2048, 0, .any⟩,
  ⟨0x7400, 1, 0x17, 1, .u64, .ro, .member, 2048, 0, .any⟩,
  ⟨0x7400, 1, 0x18, 1, .u32, .ro, .member, 2048, 0, .any⟩,
  ⟨0x7400, 1, 0x19, 1, .u32, .ro, .member, 2048, 0, .any⟩,
  ⟨0x7400, 1, 0x1A, 1, .u32, .ro, .member, 2048, 0, .any⟩,
  ⟨0x7400, 1, 0x1B, 1, .u32, .ro, .member, 2048, 0, .any⟩,
  ⟨0x7400, 1, 0x1C, 1, .u32, .ro, .member, 2048, 0, .any⟩,
  ⟨0x7400, 1, 0x1D, 1, .u16, .ro, .member, 2048, 0, .any⟩,
  ⟨0x7400, 1, 0x1E, 1, .u8, .rws, .member, 2048, 0x40, .seg [(1,255)]⟩,
  ⟨0x7800, 1, 0x01, 1, .u16, .ro, .member, 0, 0, .any⟩,
  ⟨0x7800, 1, 0x02, 1, .u16, .ro, .member, 0, 0, .any⟩,
  ⟨0x7800, 1, 0x03, 1, .u64, .ro, .member, 0, 0, .any⟩,
  ⟨0x7800, 1, 0x04, 1, .u32, .ro, .member, 0, 0, .any⟩,
  ⟨0x7800, 1, 0x05, 1, .u32, .ro, .member, 0, 0xa, .any⟩,
  ⟨0x7800, 1, 0x06, 1, .u64, .ro, .member, 0, 0, .any⟩]
/-- Rows of the area 7000–7FFF (part 4). -/
def rows7_4 : List ObjRow := [
  ⟨0x7800, 1, 0x07, 1, .u64, .ro, .member, 0, 0, .any⟩,
  ⟨0x7800, 1, 0x08, 1, .u64, .ro, .member, 0, 0, .any⟩,
  ⟨0x7800, 1, 0x09, 1, .u64, .ro, .member, 0, 0, .any⟩,
  ⟨0x7800, 1, 0x0A, 1, .u32, .ro, .member, 0, 0, .any⟩,
  ⟨0x7800, 1, 0x41, 1, .bool, .rw, .member, 0, 1, .oneOf [(0,1)]⟩,
  ⟨0x7810, 1, 0x00, 1, .u16, .ro, .member, 0, 0x2000, .any⟩,
  ⟨0x7810, 1, 0x01, 1, .enum8, .rws, .member, 8192, 0, .oneOf [(0,3)]⟩,
  ⟨0x7810, 1, 0x02, 1, .u32, .rw, .member, 8192, 0, .seg [(0,10000000)]⟩,
  ⟨0x7810, 1, 0x03, 1, .u64, .ro, .member, 8192, 0, .any⟩,
  ⟨0x7810, 1, 0x04, 1, .u32, .ro, .member, 8192, 0, .any⟩,
  ⟨0x7810, 1, 0x05, 1, .u32, .ro, .member, 8192, 0, .any⟩,
  ⟨0x7810, 1, 0x06, 1, .time96, .ro, .member, 8192, 0, .any⟩,
  ⟨0x7810, 1, 0x07, 1, .bool, .ro, .member, 8192, 0, .any⟩,
  ⟨0x7810, 1, 0x08, 1, .u32, .ro, .member, 8192, 0xffffffff, .any⟩,
  ⟨0x7810, 1, 0x10, 1, .enum8, .rws, .member, 8192, 0, .oneOf [(0,3)]⟩,
  ⟨0x7810, 1, 0x11, 1, .u16, .rws, .member, 8192, 0, .any⟩,
  ⟨0x7810, 1, 0x12, 1, .u16, .rws, .member, 8192, 0, .any⟩,
  ⟨0x7810, 1, 0x13, 1, .u16, .rws, .member, 8192, 1, .any⟩,
  ⟨0x7810, 1, 0x14, 1, .enum8, .rws, .member, 8192, 0, .oneOf [(0,0),(1,1)]⟩,
  ⟨0x7810, 1, 0x15, 1, .u16, .ro, .member, 8192, 0, .any⟩,
  ⟨0x7810, 1, 0x16, 1, .enum8, .ro, .member, 8192, 0, .any⟩,
  ⟨0x7810, 1, 0x17, 1, .u32, .ro, .member, 8192, 0, .any⟩,
  ⟨0x7810, 1, 0x18, 1, .u32, .ro, .member, 8192, 0, .any⟩,
  ⟨0x7810, 1, 0x19, 1, .u32, .ro, .member, 8192, 0, .any⟩,
  ⟨0x7810, 1, 0x1A, 1, .u32, .ro, .member, 8192, 0, .any⟩,
  ⟨0x7810, 1, 0x20, 1, .bool, .rws, .member, 8192, 0, .oneOf [(0,1)]⟩,
  ⟨0x7810, 1, 0x21, 1, .u8, .rws, .member, 8192, 0xff, .any⟩,
  ⟨0x7810, 1, 0x22, 1, .u16, .rws, .member, 8192, 0, .any⟩,
  ⟨0x7810, 1, 0x23, 1, .u16, .rws, .member, 8192, 0, .any⟩,
  ⟨0x7810, 1, 0x24, 1, .u8, .rws, .member, 8192, 0x18, .seg [(8,8),(16,16),(24,24),(32,32),(40,40),(48,48),(56,56),(64,64)]⟩]
/-- Rows of the area 7000–7FFF (part 5). -/
def rows7_5 : List ObjRow := [
  ⟨0x7810, 1, 0x25, 1, .u8, .rws, .member, 8192, 0x20, .seg [(24,24),(32,32),(40,40),(48,48),(56,56),(64,64),(72,72),(80,80),(88,88),(96,96),(104,104),(112,112),(120,120),(128,128)]⟩,
  ⟨0x7810, 1, 0x26, 1, .u32, .rw, .member, 8192, 0x1388, .any⟩,
  ⟨0x7810, 1, 0x27, 1, .u64, .ro, .member, 8192, 0, .any⟩,
  ⟨0x7810, 1, 0x28, 1, .u64, .ro, .member, 8192, 0, .any⟩,
  ⟨0x7810, 1, 0x29, 1, .u32, .ro, .member, 8192, 0, .any⟩,
  ⟨0x7810, 1, 0x2A, 1, .u32, .ro, .member, 8192, 0, .any⟩,
  ⟨0x7810, 1, 0x2B, 1, .u32, .ro, .member, 8192, 0, .any⟩,
  ⟨0x7820, 1, 0x00, 1, .u16, .ro, .member, 0, 0x8000, .any⟩,
  ⟨0x7820, 1, 0x01, 1, .u32, .rw, .member, 32768, 0, .any⟩,
  ⟨0x7820, 1, 0x02, 1, .enum8, .rws, .member, 32768, 0, .oneOf [(0,0),(1,1),(2,2),(3,3)]⟩,
  ⟨0x7820, 1, 0x03, 1, (.octet 8), .rws, .member, 32768, 0, .any⟩,
  ⟨0x7820, 1, 0x04, 1, .u32, .ro, .member, 32768, 0, .any⟩,
  ⟨0x7820, 1, 0x05, 1, .u32, .ro, .member, 32768, 0, .any⟩,
  ⟨0x7820, 1, 0x06, 1, .time96, .ro, .member, 32768, 0, .any⟩,
  ⟨0x7821, 1, 0x00, 1, .u16, .ro, .member, 0, 0x8000, .any⟩,
  ⟨0x7821, 1, 0x01, 1, .u32, .rw, .member, 32768, 0, .any⟩,
  ⟨0x7821, 1, 0x02, 1, .enum8, .rws, .member, 32768, 0, .oneOf [(0,0),(1,1),(2,2),(3,3)]⟩,
  ⟨0x7821, 1, 0x03, 1, (.octet 8), .rws, .member, 32768, 0, .any⟩,
  ⟨0x7821, 1, 0x04, 1, .u32, .ro, .member, 32768, 0, .any⟩,
  ⟨0x7821, 1, 0x05, 1, .u32, .ro, .member, 32768, 0, .any⟩,
  ⟨0x7821, 1, 0x06, 1, .time96, .ro, .member, 32768, 0, .any⟩,
  ⟨0x7830, 1, 0x00, 1, .u16, .ro, .member, 0, 0x8000, .any⟩,
  ⟨0x7830, 1, 0x01, 1, .bool, .rws, .member, 32768, 1, .oneOf [(0,1)]⟩,
  ⟨0x7830, 1, 0x02, 1, .u16, .rws, .member, 32768, 0xffff, .any⟩,
  ⟨0x7830, 1, 0x03, 1, .enum8, .rws, .member, 32768, 1, .oneOf [(0,1)]⟩,
  ⟨0x7830, 1, 0x04, 1, .u16, .ro, .member, 32768, 0, .any⟩,
  ⟨0x7830, 1, 0x05, 1, .u32, .ro, .member, 32768, 0, .any⟩,
  ⟨0x7830, 1, 0x06, 1, .enum8, .ro, .member, 32768, 0, .any⟩]
/-- All rows of the area 7000–7FFF. -/
def rows7 : List ObjRow := rows7_0 ++ rows7_1 ++ rows7_2 ++ rows7_3 ++ rows7_4 ++ rows7_5

/-- Rows of the area 8000–8FFF (part 0). -/
def rows8_0 : List ObjRow := [
  ⟨0x8000, 1, 0x01, 1, .time96, .ro, .member, 0, 0, .any⟩,
  ⟨0x8000, 1, 0x02, 1, .time96, .ro, .member, 0, 0, .any⟩,
  ⟨0x8000, 1, 0x03, 1, .enum8, .ro, .member, 0, 0, .any⟩,
  ⟨0x8000, 1, 0x04, 1, .enum8, .ro, .member, 0, 0, .any⟩,
  ⟨0x8000, 1, 0x05, 1, .bool, .wo, .member, 0, 0, .oneOf [(0,1)]⟩,
  ⟨0x8000, 1, 0x06, 4, .time96, .ro, .member, 0, 0, .any⟩,
  ⟨0x8000, 1, 0x0A, 1, (.octet 8), .ro, .member, 0, 0, .any⟩,
  ⟨0x8000, 1, 0x0B, 1, .u8, .ro, .member, 0, 0xf8, .any⟩,
  ⟨0x8000, 1, 0x0C, 1, .i32, .ro, .member, 0, 0, .any⟩,
  ⟨0x8000, 1, 0x0D, 1, .u32, .ro, .member, 0, 0, .any⟩,
  ⟨0x8010, 1, 0x01, 1, .bool, .rw, .member, 0, 1, .oneOf [(0,1)]⟩,
  ⟨0x8010, 1, 0x02, 1, .u8, .rws, .member, 0, 0x14, .seg [(0,127)]⟩,
  ⟨0x8010, 1, 0x03, 1, .bits32, .rws, .member, 0, 0xffff0, .bits 0xFFC00000⟩,
  ⟨0x8010, 1, 0x04, 1, .u8, .rw, .member, 0, 0xf6, .seg [(0,255)]⟩,
  ⟨0x8010, 1, 0x05, 1, .u8, .rw, .member, 0, 0xf8, .seg [(0,255)]⟩,
  ⟨0x8010, 1, 0x06, 1, .i32, .rw, .member, 0, 0xfffffffd, .seg [(-7,0)]⟩,
  ⟨0x8010, 1, 0x07, 1, .i32, .rw, .member, 0, 0, .seg [(-3,3)]⟩,
  ⟨0x8010, 1, 0x08, 1, .u32, .rw, .member, 0, 0xe10, .seg [(1,86400)]⟩,
  ⟨0x8010, 1, 0x09, 1, .u32, .ro, .member, 0, 0, .any⟩,
  ⟨0x8010, 1, 0x0A, 1, .u32, .ro, .member, 0, 0, .any⟩,
  ⟨0x8010, 1, 0x0B, 1, .u32, .ro, .member, 0, 0, .any⟩,
  ⟨0x8020, 1, 0x00, 1, .u16, .ro, .member, 0, 2, .any⟩,
  ⟨0x8020, 1, 0x01, 1, .bool, .rw, .member, 2, 1, .oneOf [(0,1)]⟩,
  ⟨0x8020, 1, 0x02, 1, .u8, .rws, .member, 2, 0, .seg [(0,127)]⟩,
  ⟨0x8020, 1, 0x03, 1, .u8, .rws, .member, 2, 0, .any⟩,
  ⟨0x8020, 1, 0x04, 1, .bits32, .rws, .member, 2, 0, .bits 0xFFC00000⟩,
  ⟨0x8020, 1, 0x05, 1, .enum8, .ro, .member, 2, 1, .any⟩,
  ⟨0x8020, 1, 0x06, 1, .i32, .ro, .member, 2, 0, .any⟩,
  ⟨0x8020, 1, 0x07, 1, .i32, .ro, .member, 2, 0, .any⟩,
  ⟨0x8020, 1, 0x08, 1, (.octet 8), .ro, .member, 2, 0, .any⟩]
/-- Rows of the area 8000–8FFF (part 1). -/
def rows8_1 : List ObjRow := [
  ⟨0x8020, 1, 0x09, 1, .u8, .rw, .member, 2, 3, .seg [(2,255)]⟩,
  ⟨0x8020, 1, 0x0A, 1, .u8, .rw, .member, 2, 3, .seg [(2,255)]⟩,
  ⟨0x8020, 1, 0x0B, 1, .u32, .rw, .member, 2, 0x64, .seg [(10,10000)]⟩,
  ⟨0x8020, 1, 0x0C, 1, .u8, .rw, .member, 2, 8, .seg [(1,64)]⟩,
  ⟨0x8020, 1, 0x0D, 1, .u32, .rw, .member, 2, 0x3e8, .any⟩,
  ⟨0x8020, 1, 0x0E, 1, .u32, .rw, .member, 2, 0x3e8, .seg [(100,1000000000)]⟩,
  ⟨0x8020, 1, 0x0F, 1, .u32, .ro, .member, 2, 0, .any⟩,
  ⟨0x8020, 1, 0x10, 1, .u32, .ro, .member, 2, 0, .any⟩,
  ⟨0x8020, 1, 0x11, 1, .u32, .ro, .member, 2, 0, .any⟩,
  ⟨0x8020, 1, 0x12, 1, .u32, .ro, .member, 2, 0, .any⟩,
  ⟨0x8020, 1, 0x13, 1, .u32, .ro, .member, 2, 0, .any⟩,
  ⟨0x8020, 1, 0x14, 1, .i32, .ro, .member, 2, 0, .any⟩,
  ⟨0x8020, 1, 0x41, 1, .u8, .rw, .member, 2, 2, .seg [(0,15)]⟩,
  ⟨0x8020, 1, 0x42, 1, .u8, .rw, .member, 2, 6, .seg [(0,15)]⟩,
  ⟨0x8020, 1, 0x43, 1, .u32, .rw, .member, 2, 0x3d090, .seg [(1000,500000)]⟩,
  ⟨0x8030, 1, 0x01, 1, .u16, .rw, .member, 0, 0x3e8, .seg [(100,10000)]⟩,
  ⟨0x8030, 1, 0x02, 1, .u32, .rw, .member, 0, 0x1388, .seg [(100,100000)]⟩,
  ⟨0x8030, 1, 0x03, 1, .bool, .rw, .member, 0, 0, .oneOf [(0,1)]⟩,
  ⟨0x8030, 1, 0x04, 1, .u16, .rw, .member, 0, 0x3c, .seg [(1,3600)]⟩,
  ⟨0x8030, 1, 0x05, 1, .u32, .ro, .member, 0, 0, .any⟩,
  ⟨0x8030, 1, 0x06, 1, .u32, .ro, .member, 0, 0, .any⟩,
  ⟨0x8030, 1, 0x07, 1, .time96, .ro, .member, 0, 0, .any⟩,
  ⟨0x8030, 1, 0x08, 1, .i32, .ro, .member, 0, 0, .any⟩,
  ⟨0x8030, 1, 0x09, 1, .u32, .ro, .member, 0, 0, .any⟩,
  ⟨0x8030, 1, 0x41, 1, .u8, .rw, .member, 0, 2, .seg [(0,15)]⟩,
  ⟨0x8030, 1, 0x42, 1, .bool, .rw, .member, 0, 0, .oneOf [(0,1)]⟩,
  ⟨0x8030, 1, 0x43, 1, .u32, .rw, .member, 0, 0x3e8, .seg [(100,1000000000)]⟩,
  ⟨0x8030, 1, 0x44, 1, .u8, .rw, .member, 0, 0x10, .seg [(1,64)]⟩,
  ⟨0x8040, 1, 0x01, 1, .bool, .rw, .nesk, 0, 1, .oneOf [(0,1)]⟩,
  ⟨0x8040, 1, 0x02, 1, .bool, .rw, .nesk, 0, 1, .oneOf [(0,1)]⟩]
/-- Rows of the area 8000–8FFF (part 2). -/
def rows8_2 : List ObjRow := [
  ⟨0x8040, 1, 0x03, 1, .u32, .rw, .nesk, 0, 0, .any⟩,
  ⟨0x8040, 1, 0x04, 1, .u32, .rw, .nesk, 0, 0, .any⟩,
  ⟨0x8040, 1, 0x05, 1, .i32, .rw, .nesk, 0, 0, .any⟩,
  ⟨0x8040, 1, 0x06, 1, .i32, .rw, .nesk, 0, 0, .seg [(-3,5)]⟩,
  ⟨0x8040, 1, 0x07, 1, .u32, .ro, .nesk, 0, 0, .any⟩,
  ⟨0x8040, 1, 0x08, 1, .i32, .ro, .nesk, 0, 0, .any⟩,
  ⟨0x8040, 1, 0x09, 1, .bool, .ro, .nesk, 0, 0, .any⟩,
  ⟨0x8040, 1, 0x0A, 1, .u32, .ro, .nesk, 0, 0, .any⟩,
  ⟨0x8040, 1, 0x0B, 1, .u32, .ro, .nesk, 0, 0, .any⟩,
  ⟨0x8040, 1, 0x0C, 1, .u32, .ro, .nesk, 0, 0, .any⟩,
  ⟨0x8040, 1, 0x0D, 1, .u32, .ro, .nesk, 0, 0, .any⟩,
  ⟨0x8040, 1, 0x0E, 1, .u32, .rw, .nesk, 0, 0xc3500, .any⟩,
  ⟨0x8050, 1, 0x00, 1, .u16, .ro, .member, 0, 2, .any⟩,
  ⟨0x8050, 1, 0x01, 1, .bool, .rw, .member, 2, 0, .oneOf [(0,1)]⟩,
  ⟨0x8050, 1, 0x02, 1, .enum8, .rw, .member, 2, 0, .oneOf [(0,0),(1,1),(2,2),(3,3)]⟩,
  ⟨0x8050, 1, 0x03, 1, .u32, .rw, .member, 2, 0x186a0, .seg [(1,500000)]⟩,
  ⟨0x8050, 1, 0x04, 1, .enum8, .rw, .member, 2, 0, .oneOf [(0,0),(1,1)]⟩,
  ⟨0x8050, 1, 0x05, 1, .u32, .rw, .member, 2, 0, .any⟩,
  ⟨0x8050, 1, 0x06, 1, .u32, .ro, .member, 2, 0, .any⟩,
  ⟨0x8051, 1, 0x01, 1, .bool, .rw, .member, 0, 0, .oneOf [(0,1)]⟩,
  ⟨0x8051, 1, 0x02, 1, .enum8, .rw, .member, 0, 0, .oneOf [(0,0),(1,1)]⟩,
  ⟨0x8051, 1, 0x03, 1, .u32, .rw, .member, 0, 0, .any⟩,
  ⟨0x8051, 1, 0x04, 4, .time96, .ro, .member, 0, 0, .any⟩,
  ⟨0x8051, 1, 0x08, 1, .u32, .ro, .member, 0, 0, .any⟩,
  ⟨0x8051, 1, 0x09, 1, .u32, .ro, .member, 0, 0, .any⟩,
  ⟨0x8060, 1, 0x01, 1, .bool, .rw, .can, 0, 0, .oneOf [(0,1)]⟩,
  ⟨0x8060, 1, 0x02, 1, .u32, .rws, .can, 0, 0x50, .seg [(8,8000)]⟩,
  ⟨0x8060, 1, 0x03, 1, .u8, .ro, .can, 0, 0, .any⟩,
  ⟨0x8060, 1, 0x04, 1, .u32, .ro, .can, 0, 0, .any⟩,
  ⟨0x8060, 1, 0x05, 1, .u32, .ro, .can, 0, 0, .any⟩]
/-- Rows of the area 8000–8FFF (part 3). -/
def rows8_3 : List ObjRow := [
  ⟨0x8060, 1, 0x06, 1, .enum8, .rws, .can, 0, 0, .oneOf [(0,0),(3,3)]⟩,
  ⟨0x8400, 1, 0x01, 1, .u32, .ro, .member, 0, 8, .any⟩,
  ⟨0x8400, 1, 0x02, 1, .u8, .ro, .member, 0, 0x10, .any⟩,
  ⟨0x8400, 1, 0x03, 1, .u16, .ro, .member, 0, 0x400, .any⟩,
  ⟨0x8400, 1, 0x04, 1, .bits32, .ro, .member, 0, 0, .any⟩,
  ⟨0x8400, 1, 0x05, 1, .u32, .ro, .member, 0, 0, .any⟩,
  ⟨0x8400, 1, 0x06, 1, .u32, .ro, .member, 0, 0, .any⟩,
  ⟨0x8410, 1, 0x01, 1, .bool, .rw, .member, 0, 0, .oneOf [(0,1)]⟩,
  ⟨0x8410, 1, 0x02, 1, .u16, .rws, .member, 0, 0x3c, .seg [(8,1024)]⟩,
  ⟨0x8410, 1, 0x03, 1, .u8, .rws, .member, 0, 2, .seg [(0,3)]⟩,
  ⟨0x8410, 1, 0x04, 1, .enum8, .rws, .member, 0, 0, .oneOf [(0,0),(1,1)]⟩,
  ⟨0x8410, 1, 0x05, 1, .u8, .rw, .member, 0, 0x10, .seg [(12,40)]⟩,
  ⟨0x8410, 1, 0x06, 1, .u16, .rw, .member, 0, 0x64, .seg [(10,10000)]⟩,
  ⟨0x8410, 1, 0x07, 1, .u32, .rw, .member, 0, 0, .seg [(0,0),(1000,10000000)]⟩,
  ⟨0x8410, 1, 0x08, 1, .enum8, .ro, .member, 0, 0, .any⟩,
  ⟨0x8410, 1, 0x09, 1, .bearing64, .ro, .member, 0, 0x4000000000000000, .any⟩,
  ⟨0x8410, 1, 0x0A, 1, .u32, .ro, .member, 0, 0, .any⟩,
  ⟨0x8410, 1, 0x0B, 1, .u32, .ro, .member, 0, 0, .any⟩,
  ⟨0x8410, 1, 0x0C, 1, .u32, .ro, .member, 0, 0, .any⟩,
  ⟨0x8410, 1, 0x0D, 1, .u32, .ro, .member, 0, 0, .any⟩,
  ⟨0x8410, 1, 0x0E, 1, .u32, .ro, .member, 0, 0, .any⟩,
  ⟨0x8410, 1, 0x0F, 1, .u32, .ro, .member, 0, 0, .any⟩,
  ⟨0x8410, 1, 0x10, 1, .u32, .ro, .member, 0, 0, .any⟩,
  ⟨0x8410, 1, 0x41, 1, .u16, .rw, .member, 0, 0x3e8, .seg [(0,10000)]⟩,
  ⟨0x8420, 1, 0x00, 1, .u16, .ro, .member, 0, 0x10, .any⟩,
  ⟨0x8420, 1, 0x01, 1, .bool, .rw, .member, 16, 0, .oneOf [(0,1)]⟩,
  ⟨0x8420, 1, 0x02, 1, .enum8, .rws, .member, 16, 0, .oneOf [(0,0),(1,1),(2,2),(3,3),(4,4)]⟩,
  ⟨0x8420, 1, 0x03, 1, .enum8, .rws, .member, 16, 0, .oneOf [(0,5)]⟩,
  ⟨0x8420, 1, 0x04, 1, (.octet 4), .rws, .member, 16, 0xff00, .any⟩,
  ⟨0x8420, 1, 0x05, 1, .bearing64, .rws, .member, 16, 0, .any⟩]
/-- Rows of the area 8000–8FFF (part 4). -/
def rows8_4 : List ObjRow := [
  ⟨0x8420, 1, 0x06, 1, .u32, .rws, .member, 16, 0xf4240, .any⟩,
  ⟨0x8420, 1, 0x07, 1, .u16, .rws, .member, 16, 0, .seg [(0,1024)]⟩,
  ⟨0x8420, 1, 0x08, 1, .u32, .rws, .member, 16, 0xf4240, .any⟩,
  ⟨0x8420, 1, 0x09, 1, .u16, .rws, .member, 16, 0, .seg [(0,1024)]⟩,
  ⟨0x8420, 1, 0x0A, 1, .enum8, .ro, .member, 16, 0, .any⟩,
  ⟨0x8420, 1, 0x0B, 1, .bool, .wo, .member, 16, 0, .oneOf [(0,1)]⟩,
  ⟨0x8420, 1, 0x0C, 1, .bearing64, .rw, .member, 16, 0, .any⟩,
  ⟨0x8420, 1, 0x0D, 1, .enum8, .rws, .member, 16, 0, .oneOf [(0,0),(1,1)]⟩,
  ⟨0x8420, 1, 0x0E, 1, .enum8, .ro, .member, 16, 0, .any⟩,
  ⟨0x8420, 1, 0x0F, 1, .u32, .ro, .member, 16, 0, .any⟩,
  ⟨0x8420, 1, 0x10, 1, .u32, .ro, .member, 16, 0, .any⟩,
  ⟨0x8420, 1, 0x11, 1, .u32, .ro, .member, 16, 0, .any⟩,
  ⟨0x8420, 1, 0x12, 1, .u32, .ro, .member, 16, 0, .any⟩,
  ⟨0x8420, 1, 0x13, 1, .u32, .ro, .member, 16, 0, .any⟩,
  ⟨0x8420, 1, 0x41, 1, .u32, .rw, .member, 16, 0, .seg [(0,100000)]⟩,
  ⟨0x8500, 16, 0x00, 1, .u16, .ro, .member, 0, 0x800, .any⟩,
  ⟨0x8500, 16, 0x01, 1, .u32, .rws, .member, 2048, 0, .any⟩,
  ⟨0x8500, 16, 0x02, 1, .u32, .rws, .member, 2048, 0, .any⟩]
/-- All rows of the area 8000–8FFF. -/
def rows8 : List ObjRow := rows8_0 ++ rows8_1 ++ rows8_2 ++ rows8_3 ++ rows8_4

/-- Rows of the area 9000–9FFF (part 0). -/
def rows9_0 : List ObjRow := [
  ⟨0x9000, 1, 0x01, 1, .enum8, .ro, .member, 0, 0, .any⟩,
  ⟨0x9000, 1, 0x02, 1, .enum8, .ro, .member, 0, 0, .any⟩,
  ⟨0x9000, 1, 0x03, 1, .u8, .ro, .member, 0, 0, .any⟩,
  ⟨0x9000, 1, 0x04, 1, .u32, .ro, .member, 0, 0, .any⟩,
  ⟨0x9000, 1, 0x05, 1, .u32, .ro, .member, 0, 0, .any⟩,
  ⟨0x9000, 1, 0x06, 1, .u32, .ro, .member, 0, 0, .any⟩,
  ⟨0x9000, 1, 0x07, 1, .u32, .ro, .member, 0, 0, .any⟩,
  ⟨0x9000, 1, 0x08, 1, .u32, .ro, .member, 0, 0, .any⟩,
  ⟨0x9000, 1, 0x09, 1, .u32, .ro, .member, 0, 0, .any⟩,
  ⟨0x9000, 1, 0x0A, 1, .u64, .ro, .member, 0, 0, .any⟩,
  ⟨0x9000, 1, 0x0B, 1, .u16, .ro, .member, 0, 0, .any⟩,
  ⟨0x9000, 1, 0x0C, 1, .u32, .ro, .member, 0, 0, .any⟩,
  ⟨0x9000, 1, 0x41, 1, .enum8, .rw, .member, 0, 4, .oneOf [(1,4)]⟩,
  ⟨0x9001, 1, 0x00, 1, .u16, .ro, .member, 0, 0x40, .any⟩,
  ⟨0x9001, 1, 0x01, 1, .u32, .ro, .member, 64, 0, .any⟩,
  ⟨0x9002, 1, 0x01, 1, .bool, .rw, .member, 0, 1, .oneOf [(0,1)]⟩,
  ⟨0x9002, 1, 0x02, 1, .u32, .ro, .member, 0, 0, .any⟩,
  ⟨0x9010, 1, 0x00, 1, .u16, .ro, .member, 0, 0x40, .any⟩,
  ⟨0x9010, 1, 0x01, 1, .bool, .rw, .member, 64, 0, .oneOf [(0,1)]⟩,
  ⟨0x9010, 1, 0x02, 1, .enum8, .rws, .member, 64, 0, .oneOf [(0,0),(1,1)]⟩,
  ⟨0x9010, 1, 0x03, 1, .enum8, .rws, .member, 64, 1, .oneOf [(1,2)]⟩,
  ⟨0x9010, 1, 0x04, 1, .u16, .rws, .member, 64, 0x100, .seg [(64,16384)]⟩,
  ⟨0x9010, 1, 0x05, 1, .u16, .rw, .member, 64, 1, .seg [(1,16384)]⟩,
  ⟨0x9010, 1, 0x06, 1, .u32, .rw, .member, 64, 0, .seg [(0,100000)]⟩,
  ⟨0x9010, 1, 0x07, 1, .bool, .wo, .member, 64, 0, .oneOf [(0,1)]⟩,
  ⟨0x9010, 1, 0x08, 1, .u16, .ro, .member, 64, 0, .any⟩,
  ⟨0x9010, 1, 0x09, 1, .u16, .ro, .member, 64, 0, .any⟩,
  ⟨0x9010, 1, 0x0A, 1, .u16, .ro, .member, 64, 0, .any⟩,
  ⟨0x9010, 1, 0x0B, 1, .u64, .ro, .member, 64, 0, .any⟩,
  ⟨0x9010, 1, 0x0C, 1, .u64, .ro, .member, 64, 0, .any⟩]
/-- Rows of the area 9000–9FFF (part 1). -/
def rows9_1 : List ObjRow := [
  ⟨0x9010, 1, 0x0D, 1, .u32, .ro, .member, 64, 0, .any⟩,
  ⟨0x9010, 1, 0x0E, 1, .u32, .ro, .member, 64, 0, .any⟩,
  ⟨0x9010, 1, 0x0F, 1, .u32, .ro, .member, 64, 0, .any⟩,
  ⟨0x9010, 1, 0x10, 1, .u32, .ro, .member, 64, 0, .any⟩,
  ⟨0x9010, 1, 0x11, 1, .u32, .ro, .member, 64, 0, .any⟩,
  ⟨0x9010, 1, 0x12, 1, .u32, .ro, .member, 64, 0, .any⟩,
  ⟨0x9010, 1, 0x13, 1, .bool, .ro, .member, 64, 0, .any⟩,
  ⟨0x9020, 1, 0x00, 1, .u16, .ro, .member, 0, 8, .any⟩,
  ⟨0x9020, 1, 0x01, 1, .u8, .rw, .member, 8, 0, .seg [(0,63)]⟩,
  ⟨0x9020, 1, 0x02, 1, .u16, .rw, .member, 8, 0x5f2, .seg [(1518,9216)]⟩,
  ⟨0x9021, 1, 0x01, 1, .bool, .rw, .member, 0, 1, .oneOf [(0,1)]⟩,
  ⟨0x9021, 1, 0x03, 1, .u32, .ro, .member, 0, 0, .any⟩,
  ⟨0x9021, 1, 0x04, 1, .u32, .ro, .member, 0, 0, .any⟩,
  ⟨0x9400, 1, 0x01, 1, .enum8, .ro, .member, 0, 0, .any⟩,
  ⟨0x9400, 1, 0x02, 1, .enum8, .ro, .member, 0, 0, .any⟩,
  ⟨0x9400, 1, 0x03, 1, .bits32, .ro, .member, 0, 0, .any⟩,
  ⟨0x9400, 1, 0x04, 1, .u8, .ro, .member, 0, 0, .any⟩,
  ⟨0x9400, 1, 0x05, 1, (.octet 8), .ro, .member, 0, 0, .any⟩,
  ⟨0x9400, 1, 0x06, 1, .u32, .ro, .member, 0, 0, .any⟩,
  ⟨0x9400, 1, 0x07, 1, .u32, .ro, .member, 0, 0, .any⟩,
  ⟨0x9400, 1, 0x08, 1, .u32, .ro, .member, 0, 0, .any⟩,
  ⟨0x9400, 1, 0x09, 1, .enum8, .rw, .member, 0, 0, .oneOf [(0,0),(1,1)]⟩,
  ⟨0x9400, 1, 0x0A, 1, .u32, .ro, .member, 0, 0, .any⟩,
  ⟨0x9400, 1, 0x0B, 1, .u32, .ro, .member, 0, 0, .any⟩,
  ⟨0x9400, 1, 0x41, 1, .u16, .rw, .member, 0, 0x3e8, .seg [(300,10000)]⟩,
  ⟨0x9401, 1, 0x00, 1, .u16, .ro, .member, 0, 4, .any⟩,
  ⟨0x9401, 1, 0x01, 1, .u32, .ro, .member, 4, 0, .any⟩,
  ⟨0x9401, 1, 0x02, 1, .u32, .ro, .member, 4, 0, .any⟩,
  ⟨0x9401, 1, 0x03, 1, .bool, .ro, .member, 4, 0, .any⟩,
  ⟨0x9401, 1, 0x04, 1, .u32, .ro, .member, 4, 0, .any⟩]
/-- Rows of the area 9000–9FFF (part 2). -/
def rows9_2 : List ObjRow := [
  ⟨0x9401, 1, 0x05, 1, .u32, .ro, .member, 4, 0, .any⟩,
  ⟨0x9410, 1, 0x00, 1, .u16, .ro, .member, 0, 4, .any⟩,
  ⟨0x9410, 1, 0x01, 1, .enum8, .ro, .member, 4, 0, .any⟩,
  ⟨0x9410, 1, 0x02, 1, .u32, .ro, .member, 4, 0, .any⟩,
  ⟨0x9410, 1, 0x03, 1, .u32, .ro, .member, 4, 0, .any⟩,
  ⟨0x9410, 1, 0x04, 1, .u32, .ro, .member, 4, 0, .any⟩,
  ⟨0x9410, 1, 0x05, 1, .enum8, .ro, .member, 4, 0, .any⟩,
  ⟨0x9410, 1, 0x06, 1, .u8, .ro, .member, 4, 0, .any⟩,
  ⟨0x9410, 1, 0x07, 1, .enum8, .ro, .member, 4, 0, .any⟩,
  ⟨0x9410, 1, 0x08, 1, .bool, .wo, .member, 4, 0, .oneOf [(0,1)]⟩,
  ⟨0x9420, 1, 0x01, 1, .bool, .rw, .k, 0, 1, .oneOf [(0,1)]⟩,
  ⟨0x9420, 1, 0x02, 1, .enum8, .ro, .k, 0, 0, .any⟩,
  ⟨0x9420, 1, 0x03, 1, .u8, .ro, .k, 0, 0xff, .any⟩,
  ⟨0x9420, 1, 0x04, 1, .u8, .ro, .k, 0, 0xff, .any⟩,
  ⟨0x9420, 1, 0x05, 1, .u32, .ro, .k, 0, 0, .any⟩,
  ⟨0x9420, 1, 0x06, 1, .u32, .ro, .k, 0, 0, .any⟩,
  ⟨0x9420, 1, 0x07, 1, .u32, .ro, .k, 0, 0, .any⟩,
  ⟨0x9420, 1, 0x08, 1, .u32, .ro, .k, 0, 0, .any⟩,
  ⟨0x9420, 1, 0x09, 1, .u32, .ro, .k, 0, 0, .any⟩,
  ⟨0x9420, 1, 0x0A, 1, .u32, .ro, .k, 0, 0, .any⟩,
  ⟨0x9420, 1, 0x0B, 1, .u64, .ro, .k, 0, 0, .any⟩,
  ⟨0x9420, 1, 0x0C, 1, .u64, .ro, .k, 0, 0, .any⟩,
  ⟨0x9430, 1, 0x01, 1, .enum8, .ro, .member, 0, 0, .any⟩,
  ⟨0x9430, 1, 0x02, 1, .i32, .ro, .member, 0, 0, .any⟩,
  ⟨0x9430, 1, 0x03, 1, .u32, .ro, .member, 0, 0, .any⟩,
  ⟨0x9430, 1, 0x04, 1, .u32, .ro, .member, 0, 0, .any⟩,
  ⟨0x9430, 1, 0x05, 1, .u32, .ro, .member, 0, 0, .any⟩,
  ⟨0x9440, 1, 0x01, 1, .u64, .ro, .member, 0, 0, .any⟩,
  ⟨0x9440, 1, 0x02, 1, .u32, .ro, .member, 0, 0, .any⟩,
  ⟨0x9440, 1, 0x03, 1, .u64, .ro, .member, 0, 0, .any⟩]
/-- Rows of the area 9000–9FFF (part 3). -/
def rows9_3 : List ObjRow := [
  ⟨0x9440, 1, 0x04, 1, .u32, .ro, .member, 0, 0, .any⟩,
  ⟨0x9440, 1, 0x05, 1, .u32, .ro, .member, 0, 0, .any⟩,
  ⟨0x9440, 1, 0x06, 1, .u64, .ro, .member, 0, 0, .any⟩,
  ⟨0x9440, 1, 0x07, 1, .u8, .ro, .member, 0, 0, .any⟩,
  ⟨0x9440, 1, 0x08, 1, .u32, .ro, .member, 0, 0, .any⟩,
  ⟨0x9440, 1, 0x09, 1, .bool, .wo, .member, 0, 0, .oneOf [(0,1)]⟩,
  ⟨0x9441, 1, 0x00, 1, .u16, .ro, .member, 0, 0x10, .any⟩,
  ⟨0x9441, 1, 0x01, 1, .u8, .ro, .member, 16, 0, .any⟩,
  ⟨0x9441, 1, 0x02, 1, .u64, .ro, .member, 16, 0, .any⟩,
  ⟨0x9441, 1, 0x03, 1, .enum8, .ro, .member, 16, 0, .any⟩,
  ⟨0x9441, 1, 0x04, 1, .enum8, .ro, .member, 16, 0, .any⟩,
  ⟨0x9441, 1, 0x05, 1, .time96, .ro, .member, 16, 0, .any⟩]
/-- All rows of the area 9000–9FFF. -/
def rows9 : List ObjRow := rows9_0 ++ rows9_1 ++ rows9_2 ++ rows9_3

/-- Rows of the area A000–AFFF (part 0). -/
def rowsA_0 : List ObjRow := [
  ⟨0xA000, 1, 0x01, 1, .enum8, .rw, .member, 0, 2, .oneOf [(1,4)]⟩,
  ⟨0xA000, 1, 0x02, 1, .enum8, .ro, .member, 0, 2, .any⟩,
  ⟨0xA000, 1, 0x03, 1, .bits32, .rw, .member, 0, 0x1f, .bits 0xFFFFFFE0⟩,
  ⟨0xA000, 1, 0x04, 1, .enum8, .ro, .member, 0, 0, .any⟩,
  ⟨0xA000, 1, 0x05, 1, .enum8, .ro, .member, 0, 0, .any⟩,
  ⟨0xA000, 1, 0x06, 1, .u8, .ro, .member, 0, 0xff, .any⟩,
  ⟨0xA000, 1, 0x07, 1, .u64, .ro, .member, 0, 0, .any⟩,
  ⟨0xA000, 1, 0x08, 1, .enum8, .ro, .member, 0, 0, .any⟩,
  ⟨0xA000, 1, 0x09, 1, .bool, .ro, .member, 0, 0, .any⟩,
  ⟨0xA000, 1, 0x0A, 1, .u32, .ro, .member, 0, 0, .any⟩,
  ⟨0xA000, 1, 0x0B, 1, .u32, .ro, .member, 0, 0, .any⟩,
  ⟨0xA000, 1, 0x0C, 1, .bool, .rw, .member, 0, 0, .oneOf [(0,1)]⟩,
  ⟨0xA000, 1, 0x0D, 1, .bool, .ro, .member, 0, 0, .any⟩,
  ⟨0xA000, 1, 0x0E, 1, .u32, .ro, .member, 0, 0, .any⟩,
  ⟨0xA000, 1, 0x41, 1, .u16, .rw, .member, 0, 0xfa0, .seg [(1000,60000)]⟩,
  ⟨0xA010, 1, 0x01, 1, .u16, .rw, .member, 0, 0x88b5, .any⟩,
  ⟨0xA010, 1, 0x02, 1, .bits32, .ro, .member, 0, 0, .any⟩,
  ⟨0xA010, 1, 0x03, 1, .bits32, .ro, .member, 0, 0, .any⟩,
  ⟨0xA020, 1, 0x01, 1, .bool, .rw, .ws, 0, 0, .oneOf [(0,1)]⟩,
  ⟨0xA020, 1, 0x02, 1, .u8, .rws, .ws, 0, 0, .seg [(0,254)]⟩,
  ⟨0xA020, 1, 0x03, 1, .u32, .rws, .ws, 0, 0x500, .any⟩,
  ⟨0xA020, 1, 0x04, 1, .u32, .rws, .ws, 0, 0x780, .bits 0xC0000000⟩,
  ⟨0xA020, 1, 0x05, 1, .u16, .rw, .ws, 0, 0x7d0, .seg [(100,60000)]⟩,
  ⟨0xA020, 1, 0x06, 1, .u16, .rw, .ws, 0, 0x96, .seg [(10,2000)]⟩,
  ⟨0xA020, 1, 0x07, 1, .u16, .rw, .ws, 0, 0x3e8, .seg [(10,30000)]⟩,
  ⟨0xA020, 1, 0x08, 1, .u32, .rw, .ws, 0, 0x4b0, .seg [(0,0),(10,86400)]⟩,
  ⟨0xA020, 1, 0x09, 1, .bool, .rw, .ws, 0, 0, .oneOf [(0,1)]⟩,
  ⟨0xA020, 1, 0x0A, 1, .bits32, .rw, .ws, 0, 0, .bits 0xFF000000⟩,
  ⟨0xA020, 1, 0x0B, 1, .bits32, .rw, .ws, 0, 0, .bits 0xFF000000⟩,
  ⟨0xA020, 1, 0x0C, 1, .enum8, .ro, .ws, 0, 0, .any⟩]
/-- Rows of the area A000–AFFF (part 1). -/
def rowsA_1 : List ObjRow := [
  ⟨0xA020, 1, 0x0D, 1, .bits32, .ro, .ws, 0, 0, .any⟩,
  ⟨0xA020, 1, 0x0E, 1, .enum8, .ro, .ws, 0, 0, .any⟩,
  ⟨0xA020, 1, 0x0F, 1, .u8, .ro, .ws, 0, 0xff, .any⟩,
  ⟨0xA020, 1, 0x10, 1, .bool, .ro, .ws, 0, 0, .any⟩,
  ⟨0xA020, 1, 0x11, 1, .u32, .ro, .ws, 0, 0, .any⟩,
  ⟨0xA020, 1, 0x12, 1, .u32, .ro, .ws, 0, 0, .any⟩,
  ⟨0xA020, 1, 0x13, 1, .u32, .ro, .ws, 0, 0, .any⟩,
  ⟨0xA020, 1, 0x14, 1, .u32, .ro, .ws, 0, 0, .any⟩,
  ⟨0xA020, 1, 0x15, 1, .u32, .ro, .ws, 0, 0, .any⟩,
  ⟨0xA020, 1, 0x16, 1, .u32, .ro, .ws, 0, 0, .any⟩,
  ⟨0xA020, 1, 0x17, 1, .u32, .ro, .ws, 0, 0, .any⟩,
  ⟨0xA020, 1, 0x18, 1, .u32, .ro, .ws, 0, 0, .any⟩,
  ⟨0xA020, 1, 0x19, 1, .u32, .ro, .ws, 0, 0, .any⟩,
  ⟨0xA020, 1, 0x1A, 1, .u16, .rw, .ws, 0, 0x40, .seg [(32,5000)]⟩,
  ⟨0xA020, 1, 0x1B, 1, .u32, .ro, .ws, 0, 0, .any⟩,
  ⟨0xA020, 1, 0x1C, 1, .bool, .wo, .ws, 0, 0, .oneOf [(0,1)]⟩,
  ⟨0xA020, 1, 0x1D, 1, .bool, .ro, .ws, 0, 0, .any⟩,
  ⟨0xA021, 1, 0x00, 1, .u16, .ro, .ws, 0, 8, .any⟩,
  ⟨0xA021, 1, 0x01, 1, .u8, .ro, .ws, 8, 0xff, .any⟩,
  ⟨0xA021, 1, 0x02, 1, .u64, .ro, .ws, 8, 0, .any⟩,
  ⟨0xA030, 1, 0x00, 1, .u16, .ro, .member, 0, 4, .any⟩,
  ⟨0xA030, 1, 0x01, 1, .bits32, .rw, .member, 4, 0, .bits 0xFF000000⟩,
  ⟨0xA030, 1, 0x02, 1, .bits32, .rw, .member, 4, 0, .bits 0xFF000000⟩,
  ⟨0xA030, 1, 0x03, 1, .bool, .rw, .member, 4, 1, .oneOf [(0,1)]⟩]
/-- All rows of the area A000–AFFF. -/
def rowsA : List ObjRow := rowsA_0 ++ rowsA_1

/-- Rows of the area B000–BFFF (part 0). -/
def rowsB_0 : List ObjRow := [
  ⟨0xB000, 1, 0x01, 1, .enum8, .ro, .member, 0, 0, .any⟩,
  ⟨0xB000, 1, 0x02, 1, .u8, .ro, .member, 0, 0, .any⟩,
  ⟨0xB000, 1, 0x03, 1, .u32, .ro, .member, 0, 0, .any⟩,
  ⟨0xB000, 1, 0x04, 1, .enum8, .ro, .member, 0, 0xff, .any⟩,
  ⟨0xB000, 1, 0x05, 1, .enum8, .ro, .member, 0, 0, .any⟩,
  ⟨0xB000, 1, 0x06, 1, .enum8, .ro, .member, 0, 0, .any⟩,
  ⟨0xB000, 1, 0x07, 1, .u32, .ro, .member, 0, 0, .any⟩,
  ⟨0xB000, 1, 0x08, 1, .u16, .ro, .member, 0, 0, .any⟩,
  ⟨0xB000, 1, 0x09, 1, .u32, .ro, .member, 0, 0, .any⟩,
  ⟨0xB010, 1, 0x01, 3, (.octet 64), .ro, .member, 0, 0, .any⟩,
  ⟨0xB010, 1, 0x04, 1, .enum8, .ro, .member, 0, 0xff, .any⟩,
  ⟨0xB020, 1, 0x01, 1, (.octet 128), .wo, .member, 0, 0, .any⟩,
  ⟨0xB020, 1, 0x02, 1, .u8, .ro, .member, 0, 0, .any⟩,
  ⟨0xB020, 1, 0x03, 1, .bool, .wo, .member, 0, 0, .oneOf [(0,1)]⟩,
  ⟨0xB020, 1, 0x04, 1, .bool, .wo, .member, 0, 0, .oneOf [(0,1)]⟩,
  ⟨0xB020, 1, 0x05, 1, .enum8, .ro, .member, 0, 0, .any⟩,
  ⟨0xB020, 1, 0x06, 1, .u64, .ro, .member, 0, 0, .any⟩,
  ⟨0xB020, 1, 0x07, 1, .enum8, .ro, .member, 0, 0, .any⟩,
  ⟨0xB020, 1, 0x08, 1, .u32, .ro, .member, 0, 0, .any⟩,
  ⟨0xB020, 1, 0x09, 1, .u32, .ro, .member, 0, 0, .any⟩,
  ⟨0xB020, 1, 0x0A, 1, .u32, .ro, .member, 0, 0, .any⟩,
  ⟨0xB030, 1, 0x01, 1, (.octet 32), .wo, .member, 0, 0, .any⟩,
  ⟨0xB030, 1, 0x02, 1, (.octet 32), .ro, .member, 0, 0, .any⟩,
  ⟨0xB030, 1, 0x03, 1, .u32, .ro, .member, 0, 0, .any⟩,
  ⟨0xB040, 1, 0x00, 1, .u16, .ro, .member, 0, 0x100, .any⟩,
  ⟨0xB040, 1, 0x01, 1, .enum8, .ro, .member, 256, 0, .any⟩,
  ⟨0xB040, 1, 0x02, 1, .enum8, .ro, .member, 256, 0, .any⟩,
  ⟨0xB040, 1, 0x03, 1, .bits32, .ro, .member, 256, 0, .any⟩,
  ⟨0xB040, 1, 0x04, 1, .u32, .ro, .member, 256, 0, .any⟩,
  ⟨0xB040, 1, 0x05, 1, (.octet 8), .ro, .member, 256, 0, .any⟩]
/-- Rows of the area B000–BFFF (part 1). -/
def rowsB_1 : List ObjRow := [
  ⟨0xB040, 1, 0x06, 1, .u16, .ro, .member, 256, 0, .any⟩,
  ⟨0xB040, 1, 0x07, 1, .u32, .ro, .member, 256, 0, .any⟩,
  ⟨0xB040, 1, 0x10, 1, .bool, .rw, .member, 256, 0, .oneOf [(0,1)]⟩,
  ⟨0xB040, 1, 0x11, 1, .enum8, .rws, .member, 256, 2, .oneOf [(1,2)]⟩,
  ⟨0xB040, 1, 0x12, 1, .bits32, .rws, .member, 256, 4, .bits 0xFFFFFFF9⟩,
  ⟨0xB040, 1, 0x13, 1, (.octet 32), .rws, .member, 256, 0, .any⟩,
  ⟨0xB050, 1, 0x01, 1, (.octet 32), .ro, .member, 0, 0, .any⟩,
  ⟨0xB050, 1, 0x02, 1, (.octet 32), .wo, .member, 0, 0, .any⟩,
  ⟨0xB050, 1, 0x03, 1, .u16, .ro, .member, 0, 0, .any⟩,
  ⟨0xB050, 1, 0x04, 1, .u32, .ro, .member, 0, 0, .any⟩,
  ⟨0xB050, 1, 0x05, 1, .u32, .ro, .member, 0, 0, .any⟩,
  ⟨0xB050, 1, 0x06, 1, .u32, .ro, .member, 0, 0, .any⟩,
  ⟨0xB051, 1, 0x00, 1, .u16, .ro, .member, 0, 2, .any⟩,
  ⟨0xB051, 1, 0x01, 1, (.octet 1024), .ro, .member, 2, 0, .any⟩,
  ⟨0xB052, 1, 0x00, 1, .u16, .ro, .member, 0, 2, .any⟩,
  ⟨0xB052, 1, 0x01, 1, (.octet 1024), .ro, .member, 2, 0, .any⟩,
  ⟨0xB060, 1, 0x01, 1, .u16, .ro, .member, 0, 0x200, .any⟩,
  ⟨0xB060, 1, 0x02, 1, .u16, .ro, .member, 0, 0x1000, .any⟩,
  ⟨0xB060, 1, 0x03, 1, .u32, .ro, .member, 0, 0, .any⟩,
  ⟨0xB060, 1, 0x04, 1, .u64, .ro, .member, 0, 0, .any⟩,
  ⟨0xB060, 1, 0x05, 1, .u32, .ro, .member, 0, 0, .any⟩,
  ⟨0xB060, 1, 0x06, 1, .u64, .ro, .member, 0, 0, .any⟩,
  ⟨0xB060, 1, 0x41, 1, .u8, .rw, .member, 0, 2, .seg [(2,6)]⟩,
  ⟨0xB060, 1, 0x42, 1, .u8, .rw, .member, 0, 6, .seg [(2,6)]⟩,
  ⟨0xB100, 1, 0x01, 1, .bool, .rw, .nk, 0, 0, .oneOf [(0,1)]⟩,
  ⟨0xB100, 1, 0x02, 1, (.octet 8), .rws, .nk, 0, 0, .any⟩,
  ⟨0xB100, 1, 0x03, 1, (.octet 8), .rws, .nk, 0, 0, .any⟩,
  ⟨0xB100, 1, 0x04, 1, .u8, .rw, .nk, 0, 0, .seg [(0,3)]⟩,
  ⟨0xB100, 1, 0x05, 1, .u32, .rw, .nk, 0, 0, .any⟩,
  ⟨0xB100, 1, 0x06, 1, .u64, .rw, .nk, 0, 0x8000000000000000, .any⟩]
/-- Rows of the area B000–BFFF (part 2). -/
def rowsB_2 : List ObjRow := [
  ⟨0xB100, 1, 0x07, 1, .u64, .ro, .nk, 0, 0, .any⟩,
  ⟨0xB100, 1, 0x08, 1, .u64, .ro, .nk, 0, 0, .any⟩,
  ⟨0xB100, 1, 0x09, 1, .u32, .ro, .nk, 0, 0, .any⟩,
  ⟨0xB100, 1, 0x0A, 1, .u32, .ro, .nk, 0, 0, .any⟩,
  ⟨0xB100, 1, 0x0B, 1, .u32, .ro, .nk, 0, 0, .any⟩,
  ⟨0xB100, 1, 0x0C, 1, .u32, .ro, .nk, 0, 0, .any⟩,
  ⟨0xB100, 1, 0x0D, 1, .u32, .ro, .nk, 0, 0, .any⟩,
  ⟨0xB100, 1, 0x0E, 1, .u64, .ro, .nk, 0, 0, .any⟩,
  ⟨0xB110, 1, 0x00, 1, .u16, .ro, .nk, 0, 8, .any⟩,
  ⟨0xB110, 1, 0x01, 1, .bool, .rw, .nk, 8, 0, .oneOf [(0,1)]⟩,
  ⟨0xB110, 1, 0x02, 1, .u8, .rws, .nk, 8, 0xff, .seg [(16,255)]⟩,
  ⟨0xB110, 1, 0x03, 1, .u32, .rws, .nk, 8, 0, .any⟩,
  ⟨0xB110, 1, 0x04, 1, (.octet 12), .rws, .nk, 8, 0, .any⟩,
  ⟨0xB110, 1, 0x05, 1, .u64, .rws, .nk, 8, 1, .any⟩,
  ⟨0xB110, 1, 0x06, 1, .u64, .ro, .nk, 8, 0, .any⟩,
  ⟨0xB110, 1, 0x07, 1, .bool, .ro, .nk, 8, 0, .any⟩,
  ⟨0xB800, 1, 0x01, 1, .u8, .ro, .member, 0, 0, .any⟩,
  ⟨0xB800, 1, 0x03, 1, .enum8, .ro, .member, 0, 0, .any⟩,
  ⟨0xB800, 1, 0x04, 1, .u32, .ro, .member, 0, 0, .any⟩,
  ⟨0xB800, 1, 0x05, 1, .u32, .ro, .member, 0, 0, .any⟩,
  ⟨0xB800, 1, 0x06, 1, .u32, .ro, .member, 0, 0, .any⟩,
  ⟨0xB800, 1, 0x07, 1, .u32, .ro, .member, 0, 0, .any⟩,
  ⟨0xB800, 1, 0x08, 1, .u8, .ro, .member, 0, 0, .any⟩,
  ⟨0xB800, 1, 0x09, 1, .u32, .ro, .member, 0, 0, .any⟩,
  ⟨0xB800, 1, 0x0A, 1, .enum8, .ro, .member, 0, 0, .any⟩,
  ⟨0xB800, 1, 0x0B, 1, .enum8, .ro, .member, 0, 0, .any⟩,
  ⟨0xB800, 1, 0x0C, 1, .bool, .ro, .member, 0, 0, .any⟩,
  ⟨0xB800, 1, 0x0D, 1, .u16, .ro, .member, 0, 0, .any⟩,
  ⟨0xB800, 1, 0x41, 1, .u8, .rw, .member, 0, 0xc8, .seg [(50,200)]⟩,
  ⟨0xB801, 1, 0x00, 1, .u16, .ro, .member, 0, 3, .any⟩]
/-- Rows of the area B000–BFFF (part 3). -/
def rowsB_3 : List ObjRow := [
  ⟨0xB801, 1, 0x01, 1, .enum8, .ro, .member, 3, 0, .any⟩,
  ⟨0xB801, 1, 0x02, 1, .enum8, .ro, .member, 3, 0, .any⟩,
  ⟨0xB801, 1, 0x03, 1, .u32, .ro, .member, 3, 0, .any⟩,
  ⟨0xB801, 1, 0x04, 1, .u8, .ro, .member, 3, 0, .any⟩,
  ⟨0xB801, 1, 0x05, 1, .u16, .ro, .member, 3, 0, .any⟩,
  ⟨0xB801, 1, 0x06, 1, .u32, .ro, .member, 3, 0, .any⟩,
  ⟨0xB801, 1, 0x07, 1, (.octet 16), .ro, .member, 3, 0, .any⟩,
  ⟨0xB801, 1, 0x08, 1, .u16, .ro, .member, 3, 0, .any⟩,
  ⟨0xB810, 1, 0x01, 1, (.octet 12), .wo, .member, 0, 0, .any⟩,
  ⟨0xB810, 1, 0x02, 1, .enum8, .ro, .member, 0, 0, .any⟩,
  ⟨0xB810, 1, 0x03, 1, .u32, .ro, .member, 0, 0, .any⟩,
  ⟨0xB810, 1, 0x04, 1, .enum8, .ro, .member, 0, 0, .any⟩,
  ⟨0xB810, 1, 0x05, 1, .u32, .ro, .member, 0, 0, .any⟩,
  ⟨0xB810, 1, 0x06, 1, .u16, .ro, .member, 0, 0, .any⟩,
  ⟨0xB810, 1, 0x07, 1, .u16, .ro, .member, 0, 0, .any⟩,
  ⟨0xB810, 1, 0x08, 1, .u16, .ro, .member, 0, 0xffff, .any⟩,
  ⟨0xB810, 1, 0x09, 1, .u32, .ro, .member, 0, 0, .any⟩,
  ⟨0xB810, 1, 0x0B, 1, .bool, .wo, .member, 0, 0, .oneOf [(0,1)]⟩,
  ⟨0xB810, 1, 0x0C, 1, .bool, .rw, .member, 0, 0, .oneOf [(0,1)]⟩,
  ⟨0xB810, 1, 0x0D, 1, .u16, .ro, .member, 0, 0, .any⟩,
  ⟨0xB810, 1, 0x0E, 1, .bool, .wo, .member, 0, 0, .oneOf [(0,1)]⟩,
  ⟨0xB810, 1, 0x0F, 1, .u32, .ro, .member, 0, 0, .any⟩,
  ⟨0xB811, 1, 0x00, 1, .u16, .ro, .member, 0, 0x40, .any⟩,
  ⟨0xB811, 1, 0x01, 1, .bits32, .ro, .member, 64, 0, .any⟩,
  ⟨0xB820, 1, 0x00, 1, .u16, .ro, .member, 0, 0x800, .any⟩,
  ⟨0xB820, 1, 0x01, 4, (.octet 1024), .wo, .member, 2048, 0, .any⟩,
  ⟨0xB820, 1, 0x05, 1, (.octet 16), .wo, .member, 2048, 0, .any⟩,
  ⟨0xB830, 1, 0x01, 1, .u32, .rw, .member, 0, 0xffffffff, .seg [(0,65535),(0xFFFFFFFF,0xFFFFFFFF)]⟩,
  ⟨0xB830, 1, 0x02, 1, .u32, .rw, .member, 0, 0x2710, .any⟩,
  ⟨0xB830, 1, 0x03, 1, .i32, .rw, .member, 0, 0, .any⟩]
/-- Rows of the area B000–BFFF (part 4). -/
def rowsB_4 : List ObjRow := [
  ⟨0xB830, 1, 0x04, 1, .i32, .ro, .member, 0, 0x7fffffff, .any⟩,
  ⟨0xB830, 1, 0x05, 1, .u16, .ro, .member, 0, 0, .any⟩,
  ⟨0xB830, 1, 0x06, 1, .bool, .rw, .member, 0, 0, .oneOf [(0,1)]⟩,
  ⟨0xB830, 1, 0x07, 1, .bits32, .ro, .member, 0, 0, .any⟩,
  ⟨0xB830, 1, 0x08, 1, .u32, .ro, .member, 0, 0, .any⟩,
  ⟨0xB840, 1, 0x01, 1, .enum8, .ro, .member, 0, 0, .any⟩,
  ⟨0xB840, 1, 0x02, 1, .u8, .ro, .member, 0, 0, .any⟩,
  ⟨0xB840, 1, 0x03, 1, .u16, .ro, .member, 0, 0, .any⟩,
  ⟨0xB840, 1, 0x04, 1, .u16, .rw, .member, 0, 0x3c, .seg [(10,300)]⟩,
  ⟨0xB840, 1, 0x05, 1, .bool, .rw, .member, 0, 0, .oneOf [(0,1)]⟩,
  ⟨0xB840, 1, 0x06, 1, .bool, .wo, .member, 0, 0, .oneOf [(0,1)]⟩]
/-- All rows of the area B000–BFFF. -/
def rowsB : List ObjRow := rowsB_0 ++ rowsB_1 ++ rowsB_2 ++ rowsB_3 ++ rowsB_4

/-- Rows of the area C000–CFFF (part 0). -/
def rowsC_0 : List ObjRow := [
  ⟨0xC000, 1, 0x00, 1, .u16, .ro, .member, 0, 9, .any⟩,
  ⟨0xC000, 1, 0x01, 1, .u32, .ro, .member, 9, 0, .any⟩,
  ⟨0xC000, 1, 0x02, 1, .u32, .ro, .member, 9, 0, .any⟩,
  ⟨0xC000, 1, 0x03, 1, .u32, .ro, .member, 9, 0, .any⟩,
  ⟨0xC000, 1, 0x04, 1, .u64, .ro, .member, 9, 0, .any⟩,
  ⟨0xC000, 1, 0x05, 1, .u32, .ro, .member, 9, 0, .any⟩,
  ⟨0xC000, 1, 0x06, 1, .u32, .ro, .member, 9, 0, .any⟩,
  ⟨0xC000, 1, 0x07, 1, .u32, .ro, .member, 9, 0, .any⟩,
  ⟨0xC000, 1, 0x08, 1, .u64, .ro, .member, 9, 0, .any⟩,
  ⟨0xC000, 1, 0x09, 1, .u32, .rw, .member, 9, 0, .seg [(60,86400)]⟩,
  ⟨0xC000, 1, 0x0A, 1, .u32, .ro, .member, 9, 0, .any⟩,
  ⟨0xC000, 1, 0x0B, 1, .u32, .ro, .member, 9, 0, .any⟩,
  ⟨0xC000, 1, 0x0C, 1, .u32, .ro, .member, 9, 0, .any⟩,
  ⟨0xC000, 1, 0x0D, 1, .u32, .ro, .member, 9, 0xffffffff, .any⟩,
  ⟨0xC020, 1, 0x01, 1, .u8, .rw, .member, 0, 0, .any⟩,
  ⟨0xC020, 1, 0x02, 1, .u32, .rw, .member, 0, 0, .any⟩,
  ⟨0xC020, 1, 0x03, 1, .u32, .rw, .member, 0, 0, .any⟩,
  ⟨0xC020, 1, 0x04, 1, .bool, .wo, .member, 0, 0, .oneOf [(0,1)]⟩,
  ⟨0xC020, 1, 0x05, 1, .enum8, .ro, .member, 0, 0, .any⟩,
  ⟨0xC020, 1, 0x06, 1, .u32, .ro, .member, 0, 0, .any⟩,
  ⟨0xC020, 1, 0x07, 1, .u32, .ro, .member, 0, 0, .any⟩,
  ⟨0xC020, 1, 0x08, 1, .u32, .ro, .member, 0, 0, .any⟩,
  ⟨0xC020, 1, 0x09, 1, .u32, .ro, .member, 0, 0xffffffff, .any⟩,
  ⟨0xC030, 1, 0x41, 1, .bool, .rw, .member, 0, 0, .oneOf [(0,1)]⟩,
  ⟨0xC030, 1, 0x42, 1, .u8, .rw, .member, 0, 0, .seg [(0,7)]⟩,
  ⟨0xC030, 1, 0x43, 1, .u32, .rw, .member, 0, 0, .any⟩,
  ⟨0xC030, 1, 0x44, 1, (.octet 64), .rw, .member, 0, 0, .any⟩,
  ⟨0xC030, 1, 0x45, 1, (.octet 5), .rw, .member, 0, 0, .any⟩,
  ⟨0xC030, 1, 0x46, 1, .u8, .rw, .member, 0, 1, .any⟩,
  ⟨0xC030, 1, 0x47, 1, .bool, .wo, .member, 0, 0, .oneOf [(0,1)]⟩]
/-- Rows of the area C000–CFFF (part 1). -/
def rowsC_1 : List ObjRow := [
  ⟨0xC030, 1, 0x48, 1, .bool, .wo, .member, 0, 0, .oneOf [(0,1)]⟩,
  ⟨0xC030, 1, 0x49, 1, .bool, .wo, .member, 0, 0, .oneOf [(0,1)]⟩,
  ⟨0xC030, 1, 0x4A, 1, (.octet 64), .ro, .member, 0, 0, .any⟩,
  ⟨0xC030, 1, 0x4B, 1, (.octet 5), .ro, .member, 0, 0, .any⟩,
  ⟨0xC030, 1, 0x4C, 1, .u8, .ro, .member, 0, 0, .any⟩,
  ⟨0xC030, 1, 0x4D, 1, .enum8, .ro, .member, 0, 0, .any⟩,
  ⟨0xC040, 1, 0x01, 1, .enum8, .rw, .member, 0, 0, .oneOf [(0,2)]⟩,
  ⟨0xC040, 1, 0x02, 1, .bool, .rw, .member, 0, 1, .oneOf [(0,1)]⟩,
  ⟨0xC040, 1, 0x03, 1, .u32, .ro, .member, 0, 0x2710, .any⟩,
  ⟨0xC040, 1, 0x04, 1, .u64, .ro, .member, 0, 0, .any⟩,
  ⟨0xC040, 1, 0x05, 1, .u32, .ro, .member, 0, 0, .any⟩,
  ⟨0xC040, 1, 0x06, 1, .u64, .ro, .member, 0, 0, .any⟩,
  ⟨0xC040, 1, 0x07, 1, .bool, .ro, .member, 0, 0, .any⟩,
  ⟨0xC040, 1, 0x08, 1, .u16, .ro, .member, 0, 0, .any⟩,
  ⟨0xC040, 1, 0x09, 1, .u16, .ro, .member, 0, 0, .any⟩,
  ⟨0xC040, 1, 0x0A, 1, .u8, .ro, .member, 0, 0, .any⟩,
  ⟨0xC050, 1, 0x00, 1, .u16, .ro, .member, 0, 0x20, .any⟩,
  ⟨0xC050, 1, 0x01, 1, .u8, .ro, .member, 32, 0xff, .any⟩,
  ⟨0xC050, 1, 0x02, 1, .u32, .ro, .member, 32, 0, .any⟩,
  ⟨0xC050, 1, 0x03, 1, .u32, .ro, .member, 32, 0, .any⟩,
  ⟨0xC050, 1, 0x04, 1, .u8, .ro, .member, 32, 0, .any⟩,
  ⟨0xC050, 1, 0x05, 1, .time96, .ro, .member, 32, 0, .any⟩,
  ⟨0xC050, 1, 0x06, 1, .time96, .ro, .member, 32, 0, .any⟩,
  ⟨0xC051, 1, 0x01, 1, .u32, .ro, .member, 0, 0, .any⟩,
  ⟨0xC051, 1, 0x02, 1, .bool, .wo, .member, 0, 0, .oneOf [(0,1)]⟩,
  ⟨0xC051, 1, 0x03, 1, .u32, .ro, .member, 0, 0, .any⟩,
  ⟨0xC051, 1, 0x41, 1, .u16, .rw, .member, 0, 0x10, .seg [(2,65535)]⟩]
/-- All rows of the area C000–CFFF. -/
def rowsC : List ObjRow := rowsC_0 ++ rowsC_1

/-- Rows of the area D000–DFFF (part 0). -/
def rowsD_0 : List ObjRow := [
  ⟨0xD000, 1, 0x01, 1, .bool, .rw, .member, 0, 1, .oneOf [(0,1)]⟩,
  ⟨0xD000, 1, 0x02, 1, .u64, .ro, .member, 0, 0, .any⟩,
  ⟨0xD000, 1, 0x03, 1, .u64, .ro, .member, 0, 0, .any⟩,
  ⟨0xD000, 1, 0x04, 1, .u64, .ro, .member, 0, 0, .any⟩,
  ⟨0xD000, 1, 0x05, 1, .u64, .ro, .member, 0, 0, .any⟩,
  ⟨0xD000, 1, 0x06, 1, .u32, .ro, .member, 0, 0x18000, .any⟩,
  ⟨0xD010, 1, 0x00, 1, .u16, .ro, .member, 0, 0x800, .any⟩,
  ⟨0xD010, 1, 0x01, 1, (.octet 32), .ro, .member, 2048, 0, .any⟩,
  ⟨0xD020, 1, 0x01, 1, .enum8, .rw, .member, 0, 0, .oneOf [(0,2)]⟩,
  ⟨0xD020, 1, 0x02, 1, .u16, .rw, .member, 0, 0x80, .seg [(64,9216)]⟩,
  ⟨0xD020, 1, 0x03, 1, .u16, .rw, .member, 0, 0, .any⟩,
  ⟨0xD020, 1, 0x04, 1, .u32, .rw, .member, 0, 0x3e8, .seg [(0,1000000)]⟩,
  ⟨0xD020, 1, 0x05, 1, .enum8, .ro, .member, 0, 0, .any⟩,
  ⟨0xD020, 1, 0x06, 1, .u64, .ro, .member, 0, 0, .any⟩,
  ⟨0xD020, 1, 0x07, 1, .u64, .ro, .member, 0, 0, .any⟩,
  ⟨0xD021, 1, 0x01, 1, .u64, .rw, .member, 0, 0, .any⟩,
  ⟨0xD021, 1, 0x02, 1, .u16, .rw, .member, 0, 0, .any⟩,
  ⟨0xD021, 1, 0x03, 1, (.octet 1024), .ro, .member, 0, 0, .any⟩,
  ⟨0xD021, 1, 0x04, 1, .u8, .wo, .member, 0, 0, .seg [(0,22)]⟩,
  ⟨0xD021, 1, 0x05, 1, .u32, .rw, .member, 0, 1, .any⟩]
/-- All rows of the area D000–DFFF. -/
def rowsD : List ObjRow := rowsD_0

end Sys2Proof.Machine
end

