-- ==== Sys2Proof/Machine/Table.lean ====
section
/-! DEFINITION. Sparse tables: a list of keys and values in one canonical form, keys strictly rising and no entry equal to what an unlisted key reads as. -/
namespace Sys2Proof.Machine

/-- A sparse table from keys to values. -/
abbrev Tbl (β : Type) := List (Nat × β)

/-- What a table reads at a key; an unlisted key reads as the default `d`. -/
def tget {β : Type} (d : Nat → β) : Tbl β → Nat → β
  | [], k => d k
  | (k', v) :: m, k => if k' = k then v else tget d m k

/-- A table with the entries of one key taken out. -/
def terase {β : Type} (m : Tbl β) (k : Nat) : Tbl β := m.filter (fun p => p.1 != k)

/-- A value put before the first larger key of a table that does not list its key, unless the key reads as the value anyway. -/
def tplace {β : Type} [DecidableEq β] (d : Nat → β) : Tbl β → Nat → β → Tbl β
  | [], k, v => if v = d k then [] else [(k, v)]
  | (k', v') :: m, k, v => if k < k' then (if v = d k then (k', v') :: m else (k, v) :: (k', v') :: m) else (k', v') :: tplace d m k v

/-- A write of a table that keeps the canonical form: a value that the key reads as anyway is not listed. -/
def tput {β : Type} [DecidableEq β] (d : Nat → β) (m : Tbl β) (k : Nat) (v : β) : Tbl β := tplace d (terase m k) k v

/-- Every key of the table is above `lo`, keys rise strictly, and no value is the default of its key. -/
def twfFrom {β : Type} [DecidableEq β] (d : Nat → β) : Option Nat → Tbl β → Bool
  | _, [] => true
  | lo, (k, v) :: m =>
    (match lo with | none => true | some l => decide (l < k)) && decide (v ≠ d k) && twfFrom d (some k) m

/-- The canonical form. -/
def twf {β : Type} [DecidableEq β] (d : Nat → β) (m : Tbl β) : Bool := twfFrom d none m

end Sys2Proof.Machine
end

