-- ==== Sys2Proof/Machine/State.lean ====
section
/-! DEFINITION. The state of one member device as plain data: the Almanac's object store, and what each unit holds beside its objects. -/
namespace Sys2Proof.Machine

/-- Why the machine stops with a fault. -/
inductive Fault where
  /-- Raised by any meaning whose operands name nothing the manual has (a port, channel, leg, FIFO or record outside its range). Safe: the hardware has no such command. -/
  | illFormed
  deriving DecidableEq, Repr

/-- Why a command has no meaning. -/
inductive Refusal where
  /-- A command not modelled yet, by its mnemonic. Safe. -/
  | notModelled (mnemonic : String)
  deriving DecidableEq, Repr

/-- An event on the event bus (R28) and in the event log (Table 18.5). The code of an event to which the manual gives no number is a free value. (DESIGN CHOICE: log entry 13.) -/
inductive EvCode where
  /-- An event code that the manual or a command gives. -/
  | code (n : Nat)
  /-- An event without a number in the manual, by this model's own number for it. -/
  | kind (n : Nat)
  deriving DecidableEq, Repr

/-- One event: local time in time-clock periods, source in the order of R28, interrupt vector (Table 13.3), code, path (Table 2.4), data. -/
structure EvRec where
  lt : Nat
  source : Nat
  vector : Option Nat
  code : EvCode
  path : Bytes
  data : Bytes
  deriving DecidableEq, Repr

/-- A gPTP message that the device sends: 0 Sync, 1 Follow_Up, 2 Announce, 3 Pdelay_Req, 4 Pdelay_Resp, 5 Pdelay_Resp_Follow_Up. -/
structure PtpOut where
  port : Nat
  kind : Nat
  domain : Nat
  seq : Nat
  oneStep : Bool
  /-- originTimestamp in 2^-16 ns. -/
  origin : Nat
  /-- correctionField in 2^-16 ns. -/
  corr : Int
  rate : Int
  prio1 : Nat
  prio2 : Nat
  utc : Int
  clockClass : Nat
  gm : Nat
  deriving DecidableEq, Repr

/-- One request of the server queue (R48): the service that carried it to this member, its source identity, its arrival, its record, and the member that forwarded it (R52). -/
structure Request where
  svc : Service
  src : Source
  arrived : Nat
  bytes : Bytes
  origin : Option Nat := none
  /-- The CAN channel that it came by is in XL mode (Table 2.6). -/
  xl : Bool := false
  /-- It stood in the queue of a lead that has changed (R356). -/
  old : Bool := false
  deriving DecidableEq, Repr

/-- A record that takes part in an election (R57), with the arrival of its first valid claim and every claim to answer. -/
structure Participant where
  record : Nat
  arrived : Nat
  claims : List Request
  deriving DecidableEq, Repr

/-- One key of a member's configuration record (R362): the member, the key, its last value and its stack write sequence number. -/
structure RecEntry where
  member : Nat
  idx : Nat
  sub : Nat
  path : Bytes
  record : Nat
  value : Bytes
  seq : Nat
  deriving DecidableEq, Repr

/-- A bridge request (Table 14.4). -/
structure BridgeReq where
  tag : Nat
  pair : Nat
  target : Nat
  addr : Nat
  len : Nat
  issued : Nat := 0
  deriving DecidableEq, Repr

/-- How words are sent on the transceiver SPI (R261): chip select, clock in kHz, SPI mode, bits of a word, µs with chip select deasserted between words. -/
structure SpiSetup where
  cs : Nat := 0xFF
  clock : Nat := 0
  mode : Nat := 0
  bits : Nat := 0
  deselect : Nat := 0
  deriving DecidableEq, Repr

/-- What the device sends or drives, newest first in `outbox`. This list is the model's own record, not a state of the device. (DESIGN CHOICE: log entry 15.) -/
inductive Out where
  /-- A reply or NOTIFY record on HS, UDP, CAN or the stack link. -/
  | record (svc : Service) (dst : Source) (rec : Bytes)
  /-- A reply of the lead to a member that forwarded a request (R52). -/
  | forwardedReply (member : Nat) (svc : Service) (src : Source) (rec : Bytes)
  /-- Bytes that the device shifts out on HS in one assertion. -/
  | hs (b : Bytes)
  /-- An MSI-X message: vector, with the address and data of its entry of the table. -/
  | msix (vector address data : Nat)
  /-- Items that a POP read returns. -/
  | popped (fifo : Nat) (items : List (BitVec 64))
  /-- A gPTP message. -/
  | ptp (m : PtpOut)
  /-- PPS_OUT pin level. -/
  | pps (pin : Nat) (high : Bool)
  /-- A learn message on a K link: its home member, key, destination, zone time in ns (R162). -/
  | learn (k sender key dest : Nat) (stamp : Int)
  /-- A removal message on a K link (R162). -/
  | removal (k : Nat) (r : Removal)
  /-- The lane of a port is set up at its enable: port record, physical lane, receive and transmit inversion (R175). -/
  | lane (port lane : Nat) (rx tx : Bool)
  /-- A frame leaves a MAC: port record, bytes without FCS, whether the FCS is good, SecTAG, and on a K link the 8 bytes of its stack header. -/
  | frame (port : Nat) (data : Bytes) (fcsGood : Bool) (sec : Option SecTag) (hdr : Bytes)
  /-- A frame is delivered to the control processors at FP11. -/
  | toCp (port : Nat) (data : Bytes)
  /-- A flow-control frame: port record, whether PFC, priority vector, pause time (R187, R188). -/
  | pause (port : Nat) (pfc : Bool) (vector time : Nat)
  /-- A verify (0) or respond (1) mPacket (R182). -/
  | mpacket (port kind : Nat)
  /-- A PLCA BEACON (R191). -/
  | beacon (port : Nat)
  /-- A request is forwarded to the lead (R52): the member at which it arrived, its service and source, whether that CAN channel is in XL mode, whether it stood in the queue of a lead that has changed. -/
  | forward (origin : Nat) (svc : Service) (src : Source) (xl old : Bool) (rec : Bytes)
  /-- A CAN channel starts a frame. -/
  | canStart (ch : Nat) (f : CanFrame) (pwm : Option (Nat × Nat))
  /-- A LIN master sends a header (R247, R248): channel, bit rate, dominant bits of the break, recessive bits of its delimiter, then the sync byte and the protected identifier. -/
  | linHeader (ch rate brk delimiter : Nat) (bytes : Bytes)
  /-- The bytes of a response with its checksum, as far as they are sent (R247, R250). -/
  | linResponse (ch : Nat) (data : Bytes)
  /-- A wake signal: a dominant pulse of a number of µs (R254). -/
  | linWake (ch us : Nat)
  /-- Levels of EN (bit 1) and STB (bit 0) of a W unit (R259). -/
  | lines (unit level : Nat)
  /-- A script's words leave on the transceiver SPI in this order, each most significant bit first (R261, R262). -/
  | script (spi : SpiSetup) (words : List Nat)
  /-- WAKE_OUT and MAIN_EN levels. -/
  | wakeOut (high : Bool)
  | mainEn (high : Bool)
  /-- SecTAG of the link frame that follows on a K link with MACsec (R352, R423). -/
  | linkTag (k : Nat) (sec : SecTag)
  /-- A hello on a K link (R352). -/
  | hello (k : Nat) (h : Hello)
  /-- A time message towards a neighbour (R364). -/
  | timeMsg (k : Nat) (m : TimeMsg)
  /-- Configuration check and commit messages of the lead, with the request record and, in a commit, the members that it addresses (R361, R363). -/
  | check (member : Nat) (svc : Service) (rec : Bytes)
  | commit (member seq : Nat) (addressed : List Nat) (rec : Bytes)
  /-- This member's answer to a check or a commit: status and refusing path. -/
  | answer (status : Nat) (path : Bytes)
  /-- A record entry that the lead replays to a joining member (R373). -/
  | replayEntry (member : Nat) (e : RecEntry)
  /-- Ownership state on VC3 (R356). -/
  | ownership (member : Nat) (o : Ownership)
  /-- A bridge message (R368): the 16 bytes of Table 14.4, then its data. -/
  | bridge (header data : Bytes)
  /-- A credit of VC1 goes back to the source of a bridge request (R371). -/
  | credit (member : Nat)
  /-- What a held read gives its pair: data and whether it is a read error (R370). -/
  | bridgeRead (pair : Nat) (data : Bytes) (error : Bool)
  deriving DecidableEq, Repr


/-- A write that waits for other members (R361): the members that have not answered, whether the commit has been sent, the first refusal in path order with its code and path, whether a member has taken the write, and the members that it addresses. -/
structure StackWrite where
  waitFor : List Nat
  committed : Bool := false
  refusal : Option (Nat × Bytes) := none
  taken : Bool := false
  addressed : List Nat := []
  /-- When the check messages left. -/
  since : Nat := 0
  deriving DecidableEq, Repr

/-- The Almanac server and its host buffers (R48, R57 to R63, R333, R334). (DESIGN CHOICE: log entries 37, 156.) -/
structure AlmSt where
  /-- Requests held, the one in service first; at most 64 (R48). -/
  queue : List Request := []
  /-- The request in service has been carried out and waits for its reply's condition (R233, R361). -/
  waiting : Bool := false
  /-- End of the lease. -/
  leaseEnd : Nat := 0
  /-- End of the election window. -/
  windowEnd : Nat := 0
  participants : List Participant := []
  /-- Quantum of the last doorbell, in which BUSY is set (R333). -/
  busyAt : Option Nat := none
  /-- The record in ALM_REPLY while READY is set. -/
  reply : Option Bytes := none
  /-- Records waiting for ALM_REPLY, each with whether it is a NOTIFY. -/
  replyQueue : List (Bytes × Bool) := []
  /-- Records waiting for HS, the next first. -/
  hsReplies : List Bytes := []
  /-- Records waiting for the CAN service's buffer, each with the channel and response identifier in force when it was made (R65). -/
  canOut : List (Nat × Nat × Bytes) := []
  /-- The write in service waits for other members (R361). -/
  stackWrite : Option StackWrite := none
  /-- The answer to a commit of the lead waits until this member has taken the write (R361). -/
  answerDue : Bool := false
  /-- Writes of `A:1040` that arrived here and were forwarded to the lead, each with whether it has been committed; they take effect after their reply (R65). -/
  settings : List (Bytes × Bool) := []
  /-- Service, and member that forwards for it, by which the owner last reached the server (R53). -/
  via : Option (Service × Option Nat) := none
  deriving DecidableEq, Repr

/-- EVENT_CAUSE, HS_MASK, the MSI-X table and the logbook's event ring (R335, R336, R471). (PRESUMED: log entry 38.) -/
structure EvSt where
  cause : BitVec 64 := 0
  hsMask : BitVec 64 := BitVec.allOnes 64
  msixMask : BitVec 64 := BitVec.allOnes 64
  pba : BitVec 64 := 0
  /-- Message address and data of the MSI-X table, by vector. -/
  targets : Tbl (Nat × Nat) := []
  /-- The endpoint function is in D3hot (R331). -/
  d3hot : Bool := false
  /-- Events of the present cycle, delivered at its end in the order of R28; and vectors whose source has arrived in it without a record of the Logbook. -/
  bus : List EvRec := []
  arrivals : List Nat := []
  /-- The event log, newest first, at most 2,048 records. -/
  log : List EvRec := []
  deriving DecidableEq, Repr

/-- A packet of a host FIFO: ingress data of the header, priority, its items from the header on, and how many have been read. -/
structure Packet where
  prio : Nat
  items : List (BitVec 64)
  read : Nat := 0
  bad : Bool := false
  deriving DecidableEq, Repr

/-- One host FIFO beside its objects (R337 to R345). -/
structure Fifo where
  /-- Visible packets not yet begun, in the order of their end items. -/
  visible : List Packet := []
  /-- The packet partly read. -/
  part : Option Packet := none
  /-- The packet open on the write side: its header and data items so far, and whether an item was lost. -/
  opened : Option (List (BitVec 64) × Bool) := none
  /-- Packet number of the next packet written to the host. -/
  seq : Nat := 0
  /-- STATUS[32]: a bad data item since the last header. -/
  poisoned : Bool := false
  /-- Start of the coalescing timer. -/
  timer : Option Nat := none
  deriving DecidableEq, Repr

/-- A time counter and its rate against local time (Table 3.1): value in 2^-48 ns, rate in 2^-48. -/
structure Clock where
  val : Int := 0
  rate : Int := 0
  deriving DecidableEq, Repr

/-- A two-step Sync that waits for its Follow_Up: sequence, port, stamps of the domain clock, zone time and local time, correction and interval. -/
structure HeldSync where
  seq : Nat
  port : Nat
  dom : Int
  zt : Int
  lt : Nat
  corr : Int
  log : Int
  deriving DecidableEq, Repr

/-- One tracked domain beside its objects (R76, R81, R82). -/
structure DomSt where
  clk : Clock := {}
  syncAt : Nat := 0
  syncLog : Int := 0
  annAt : Nat := 0
  annLog : Int := 0
  gotSync : Bool := false
  gotAnn : Bool := false
  /-- 0 next Sync is the first of a seed, 1 next Sync is the second, 2 running. -/
  seed : Nat := 0
  mPrev : Int := 0
  dPrev : Int := 0
  /-- Integrator I × 10^-9 in 2^-48. -/
  integ : Int := 0
  lockRun : Nat := 0
  unlockRun : Nat := 0
  lockedAt : Nat := 0
  held : Option HeldSync := none
  deriving DecidableEq, Repr

/-- A running blend (R85): start, initial rate, blend time in time-clock periods, target domain, the blend start shown before it, whether it took the place of a running blend, and when a restart of CP2 froze it (R89). -/
structure Blend where
  start : Nat
  r0 : Int
  tb : Nat
  target : Nat
  shown : Nat := 0
  again : Bool := false
  frozen : Option Nat := none
  deriving DecidableEq, Repr

/-- Peer delay of one port (R78): consecutive good measurements, sequence of the last request and its departure, and the previous response's stamps for the rate ratio. -/
structure PdelaySt where
  good : Nat := 0
  seq : Nat := 0
  /-- Start of the present interval, and whether the last request is still unanswered. -/
  at_ : Nat := 0
  waiting : Bool := false
  sentAt : Option Nat := none
  /-- Sequence and departure of the request before, whose response comes in the tick in which the next one is sent (R11), and that tick. -/
  last : Option (Nat × Nat × Nat) := none
  prev : Option (Nat × Nat) := none
  deriving DecidableEq, Repr

/-- A past stretch of zone time: its start in power-on time, the clock there, and the blend that ran in it with its target's rate. -/
structure ZtPast where
  from_ : Nat
  clk : Clock
  blend : Option (Blend × Int)
  deriving DecidableEq, Repr

/-- The Sextant beside its objects. -/
structure SexSt where
  zt : Clock := {}
  /-- Stretches of zone time that ended within the last ten seconds, newest first; a stamp of a frame's start is captured from them (R67, R71). -/
  past : List ZtPast := []
  d1 : DomSt := {}
  d2 : DomSt := {}
  blend : Option Blend := none
  /-- Rates of the last R83 updates since zone time last entered TRACKING, newest first (R87). -/
  rzHist : List Int := []
  /-- Whether zone time has left FREE RUN since reset, so that a further step is a later step (R84). -/
  tracked : Bool := false
  /-- Time of the last zone state change. -/
  stateAt : Nat := 0
  syncSeq : Nat := 0
  annSeq : Nat := 0
  /-- Starts of the present Sync and Announce intervals of the zone domain (R75). -/
  syncFrom : Nat := 0
  annFrom : Nat := 0
  /-- Peer delay by unit. -/
  pdelay : Tbl PdelaySt := []
  /-- Levels of PPS_OUT0 and PPS_OUT1 active, and the second of the last pulse of each. -/
  ppsActive : List Bool := [false, false]
  ppsEnd : List Nat := [0, 0]
  ppsSecond : List Int := [0, 0]
  /-- Time of the last active PPS_IN edge. -/
  ppsIn : Option Nat := none
  deriving DecidableEq, Repr

/-- The interpolation of the angle from one tooth on (R101): time of the tooth, interval, position on the phase source, and the units that it may run. -/
structure AngleRun where
  start : Nat
  base : Nat
  from_ : Nat
  cap : Nat
  deriving DecidableEq, Repr

/-- The phase input beside its objects (R99 to R102). (DESIGN CHOICE: log entry 170.) -/
structure PhaseSt where
  /-- Time of the last tooth edge, its tooth position, and the intervals before it in time-clock periods. -/
  edge : Option Nat := none
  pos : Nat := 0
  interval : Option Nat := none
  /-- Interval by which the angle is interpolated. -/
  base : Nat := 0
  rev : Nat := 0
  /-- The angle held while the input is not SYNCED. -/
  held : Nat := 0
  /-- The interpolation that the last tooth ended. -/
  past : Option AngleRun := none
  deriving DecidableEq, Repr

/-- One leg beside its objects (R95, R105 to R111). Source values are not reduced modulo the range of a Bearing. -/
structure LegSt where
  /-- Source value of the present cycle's start, and the next entry of the active bank. -/
  cyc : Int := 0
  next : Nat := 0
  /-- Advance in force in the present cycle, and later ones, each with the first cycle start that takes it (R111). -/
  adv : Nat := 0
  advs : List (Int × Nat) := []
  /-- Tick of the last event (R96), and the tick from which entries can be late: that of the last rephase or return. -/
  lastTick : Option Nat := none
  since : Nat := 0
  /-- Change Bearing of an armed swap, and the source value at its request. -/
  armed : Option (Nat × Int) := none
  /-- First boundary that a WAITING leg waits for, and what its boundaries are reckoned from in place of the base after a swap at a step (R108). -/
  startAt : Int := 0
  origin : Option Int := none
  /-- Source value last seen as the phase input was lost. -/
  last : Int := 0
  /-- Virtual angle of FALLBACK: a time and the position then, in 2^-32 units (R109). -/
  virt : Option (Nat × Int) := none
  deriving DecidableEq, Repr

/-- The Plotter beside its objects. -/
structure PlotSt where
  phase : PhaseSt := {}
  legs : Tbl LegSt := []
  /-- Last step of each source: its tick plus 1, and the source value right after it (R108). -/
  steps : Tbl (Nat × Int) := []
  /-- Window events that are not yet in force in their kernel: unit, buffer, when they are, whether the window opens (R244). -/
  windows : List (Nat × Nat × Nat × Bool) := []
  deriving DecidableEq, Repr

/-- One merge buffer entry (R459): line, time of its last write, and whether all 64 bytes are valid. -/
structure MergeEntry where
  line : Nat
  last : Nat
  full : Bool
  deriving DecidableEq, Repr

/-- One record of the frame recorder (Table 18.6): local time of ingress, ingress member and port, rule, frame length, oversize, sequence, captured bytes, and whether a line of it is uncorrectable. -/
structure RecFrame where
  lt : Nat
  member : Nat
  port : Nat
  rule : Nat
  length : Nat
  oversize : Bool
  seq : Nat
  bytes : Bytes
  lineError : Bool := false
  deriving DecidableEq, Repr

/-- A running replay (R473): next record sequence, port record, records left, and when and at which record time the last one left. -/
structure Replay where
  next : Nat
  port : Nat
  left : Nat
  lastOut : Option (Nat × Nat) := none
  deriving DecidableEq, Repr

/-- Memory integrity, the Sounding and the recorder beside their objects. (DESIGN CHOICE: log entry 198.) -/
structure IntSt where
  /-- Lines stored with POISON set, by memory × 2^32 + line. -/
  poison : Tbl Bool := []
  merge : Tbl (List MergeEntry) := []
  /-- The cycle after that in which each memory's port last served a request, 0 for none (R33). -/
  served : Tbl Nat := []
  /-- Raw line images written or copied while the test window is open: 70 stored bytes by line. -/
  raw : Tbl Bytes := []
  /-- Block open in the test window, as memory and block. -/
  window : Option (Nat × Nat) := none
  /-- Number of the free image of the lines in the open window. -/
  windowKey : Nat := 0
  /-- Block in each memory's save buffer, and whether its march has failed. -/
  save : Tbl (Option (Nat × Bool)) := []
  retired : Tbl (List Nat) := []
  escalated : Tbl (List Nat) := []
  /-- Next line of the patrol of each memory, and the start of its pass. -/
  patrol : Tbl (Nat × Nat) := []
  ring : List RecFrame := []
  nextRec : Nat := 0
  /-- Records left after the trigger. -/
  postTrigger : Nat := 0
  replay : Option Replay := none
  /-- Write-backs of corrected lines that wait for a scrubber slot (R458). -/
  writebacks : List (Nat × Nat) := []
  /-- Repair mode in force since the last start; spare rows and columns used by memory × 2^16 + macro, and those of them burned to fuses (R469). -/
  repairMode : Nat := 0
  spares : Tbl (Nat × Nat) := []
  burned : Tbl (Nat × Nat) := []
  /-- Blocks taken from the top of the migration scratch, and the Binnacle RAM's spare block (Table 18.4). -/
  scratchUsed : Nat := 0
  binnacleSpare : Bool := true
  deriving DecidableEq, Repr

/-- A request in the learn queue (R156): key, destination, zone time of the ingress stamp in ns, the member that sent it as a learn message, and whether it is a dynamic remote entry. -/
structure LearnReq where
  key : Nat
  dest : Nat
  stamp : Int
  msgFrom : Option Nat
  remote : Bool
  deriving DecidableEq, Repr

/-- A key of the recent-learn table (R163): key, stamp in ns, member that owns the stamp, local time of entry. (DESIGN CHOICE: log entry 70.) -/
structure Recent where
  key : Nat
  stamp : Int
  member : Nat
  at_ : Nat
  deriving DecidableEq, Repr

/-- A flush that runs or waits (R161): by port or by FID, and the value written or the port. (DESIGN CHOICE: log entry 69.) -/
structure ChartFlush where
  byFid : Bool
  val : Nat
  /-- At a hold-down expiry only local entries of the port leave. -/
  holdDown : Bool
  /-- The flush pointer: the next bucket of the sweep, T0, then T1, then the stash as one (R161). -/
  pos : Nat := 0
  /-- Entries removed so far. -/
  gone : Nat := 0
  /-- When the sweep's step at the pointer begins. -/
  at_ : Nat := 0
  deriving DecidableEq, Repr

/-- A write of a static entry or a seed that waits for the end of a flush (R156): index, subindex, record, value. (DEDUCED: log entry 196.) -/
structure HeldWrite where
  idx : Nat
  sub : Nat
  record : Nat
  value : Nat
  deriving DecidableEq, Repr

/-- The Chart beside its objects. -/
structure ChartSt where
  /-- Entries (Table 6.2): T0 at bucket × 4 + way, T1 at 32,768 on, the stash at 65,536 on. -/
  mac : Tbl Nat := []
  vway0 : Nat := 0
  vway1 : Nat := 0
  queue : List LearnReq := []
  /-- Newest first, at most 256. -/
  recent : List Recent := []
  /-- Next bucket of the ageing scan: T0, then T1, then the stash as one. -/
  scan : Nat := 0
  /-- Since when the ageing scan and the learn queue have waited for a step beside other work (R156). -/
  scanAt : Nat := 0
  learnAt : Nat := 0
  /-- Flushes waiting or running, the running one first. -/
  flushes : List ChartFlush := []
  /-- Owner writes that wait until no flush runs (R156), oldest first. -/
  held : List HeldWrite := []
  /-- Buckets removed by retirement (Table 18.4): bucket of T0, or 8,192 on of T1. -/
  gone : Tbl Bool := []
  deriving DecidableEq, Repr

/-- Token buckets of a policer (R215), in 1/80,000,000 byte: committed, excess or peak, and when they were last filled. -/
structure Bucket where
  tc : Int
  te : Int
  at_ : Nat
  deriving DecidableEq, Repr

/-- Shaping and policing beside their objects. -/
structure ShapeSt where
  /-- Local time of the first due visit that each leaf has not had: the period after the last visit (R219). -/
  visited : Tbl Nat := []
  /-- Credit of a node that is not at its burst, in 1/80,000,000 byte, and its time: port nodes at 0, subscribers at 16, leaves at 1,024 on. -/
  credit : Tbl (Option (Int × Nat)) := []
  buckets : Tbl (Option Bucket) := []
  deriving DecidableEq, Repr

/-- The settings that a frame takes with it from its start at a transmit MAC (R27): untagged, maximum length, maximum SDU, egress overhead, preemptible queue, minimum fragment in bytes; and whether preemption was active. -/
structure EgressSet where
  untag : Bool
  lim : Nat
  sdu : Nat
  ovh : Int
  pre : Bool := false
  frag : Nat := 64
  active : Bool := false
  deriving DecidableEq, Repr

/-- One copy of a stored frame on its way to an egress port record. -/
structure Copy where
  port : Nat
  /-- For a stack link: destination member, its port record, and HOPS. -/
  hdr : Option (Nat × Nat × Nat) := none
  /-- End of the hold in force when a new frame was given a path that has changed, 0 with none (R360). -/
  heldTo : Nat := 0
  leaf : Option Nat := none
  /-- Marked for cut-through (R123). -/
  cut : Bool := false
  /-- A mirror copy to FP11 (R21). -/
  mirror : Bool := false
  /-- Cells that have crossed the crossbar, and whether the last has. -/
  sent : Nat := 0
  crossed : Bool := false
  /-- Transmission at the MAC has begun; it is suspended by preemption. -/
  started : Bool := false
  suspended : Bool := false
  /-- It has been sent in more than one fragment (R181). -/
  fragmented : Bool := false
  /-- The frame ends bad: ABORT or POISON (R124); it is an ABORT. -/
  bad : Bool := false
  aborted : Bool := false
  /-- Place in the transmit staging of its MAC: copies in the order of their first cells there. -/
  order : Nat := 0
  /-- Start of the fragment on the line, and bytes sent in earlier fragments (R181). -/
  startAt : Nat := 0
  done : Nat := 0
  /-- The fragment ends at its next allowed boundary, and since when: its gate has closed or a hold is set (R181, R211). -/
  endDue : Bool := false
  endFrom : Nat := 0
  /-- A collision has cut it off and it is to be sent again; collisions so far (R192, R193). -/
  retry : Bool := false
  attempts : Nat := 0
  /-- The settings of its start. -/
  edit : Option EgressSet := none
  /-- Counted as held by the guard (R210). -/
  guardHeld : Bool := false
  /-- Packet number and association of a protected frame (R423). -/
  sec : Option SecTag := none
  /-- Gate overrun counted (R212). -/
  overrun : Bool := false
  deriving DecidableEq, Repr

/-- A gPTP frame of the device on its way to its MAC: the message, and for a relayed Sync the tracked domain and the local ingress stamp in 2^-16 ns (R77, R79). -/
structure PtpJob where
  msg : PtpOut
  relay : Option (Nat × Int) := none
  /-- Egress stamp in local time, in 2^-16 ns. -/
  stamp : Nat := 0
  deriving DecidableEq, Repr

/-- A stored frame: its descriptor (R116) and its copies. `len` counts from the destination address through the FCS. -/
structure Frame where
  id : Nat
  port : Nat
  data : Bytes
  len : Nat
  cls : Nat
  vid : Nat
  pcp : Nat
  dei : Bool
  tagged : Bool
  oversize : Bool
  /-- The FCS that arrived from the host is bad and is not replaced (R347). -/
  badFcs : Bool := false
  multi : Bool
  ptpEvent : Bool
  /-- Ingress local time in time-clock periods. -/
  stamp : Nat
  rule : Option Nat
  /-- Ingress member and port record. -/
  smem : Nat
  sport : Nat
  /-- Cells held from the ingress reserve, the egress reserve, the class reserve and the shared pool (R129), and cells already freed. -/
  ri : Nat := 0
  re : Nat := 0
  rc : Nat := 0
  sh : Nat := 0
  freed : Nat := 0
  /-- Cells in the buffer, and whether the last is. -/
  avail : Nat := 0
  whole : Bool := false
  /-- Received to its end, while its last cells still wait for their slots (R19). -/
  ended : Bool := false
  ports : List Nat := []
  /-- The egress record of a frame with a single destination, whose egress reserve serves it (R129). -/
  single : Option Nat := none
  /-- Cells of it that lie in retired blocks and leave use when they are freed (R140). -/
  leaving : Nat := 0
  /-- Cells before a lost next-cell link (R116). -/
  broken : Option Nat := none
  /-- A gPTP frame of this device. -/
  ptp : Option PtpJob := none
  /-- It leaves untagged as it is: a gPTP or NM frame of this device (R379). -/
  asIs : Bool := false
  /-- A last call of network management (R381). -/
  lastCall : Bool := false
  /-- A host container's packet, and its FIFO (R299). -/
  hostFifo : Option Nat := none
  copies : List Copy := []
  deriving DecidableEq, Repr

/-- A frame in reception at a port: the stored frame if it was admitted, its length and kind (0 unicast, 1 multicast, 2 broadcast), the key and destination of its learn request, zone time of its stamp in ns, its SecTAG. -/
structure RxSt where
  frame : Option Nat
  len : Nat
  kind : Nat
  learn : Option (Nat × Nat)
  remote : Bool
  stamp : Int
  sec : Option SecTag
  oversize : Bool
  /-- Discarded by the MAC or the GCM engine before the Chart. -/
  dead : Bool
  /-- Too short, or consumed by the MAC: counted at its first cell (R177). -/
  silent : Bool := false
  deriving DecidableEq, Repr

/-- The fabric and buffer beside their objects. (DESIGN CHOICE: log entry 166.) -/
structure FabSt where
  /-- Frames in the order of admission. -/
  frames : List Frame := []
  nextId : Nat := 0
  /-- Frames in reception, by port record × 2 + kind. -/
  rx : Tbl (Option RxSt) := []
  /-- Cells taken from each reserve: ingress at 0, egress at 32, class at 64 on. -/
  res : Tbl Nat := []
  gptr : Tbl Nat := []
  aptr : Tbl Nat := []
  /-- Subqueue whose turn it is, by VOQ (R119). -/
  turn : Tbl Nat := []
  /-- Link of each port record, and start of its hold-down (R137). -/
  link : Tbl Bool := []
  downAt : Tbl Nat := []
  /-- End of the hold of frames for a member after a path change (R360). -/
  pathHold : Tbl (Option Nat) := []
  /-- Frames that have crossed to FP8 and to FP11 as mirror copies, oldest first. -/
  toHost : List Frame := []
  mirrors : List Frame := []
  /-- Frames that have left FP10 for the Rose, oldest first. -/
  toRose : List Frame := []
  /-- Next place in a transmit staging. -/
  nextOrder : Nat := 0
  /-- MAC of each ingress fabric port that has the next cell slot (R19). -/
  slot : Tbl Nat := []
  /-- Fabric port that started the last admission clock, and first cells of this clock already taken in that order (R132). -/
  started : Nat := 11
  early : List (Nat × EthFrame) := []
  /-- Frames of which only cells beyond a lost link are left, until the audit (R116). -/
  orphans : List Frame := []
  /-- First cells of ports that wait for the cell time of their fabric clock: time, port and frame (R132). -/
  firsts : List (Nat × Nat × EthFrame) := []
  /-- Frames that wait at FP8 and FP10 towards the fabric (R117). -/
  offers : List Frame := []
  /-- Frames that wait at FP11 towards the fabric: of the control processors, and of the replay (R21). -/
  fromCp : List Frame := []
  fromLog : List Frame := []
  /-- Cells that the frame in progress at FP8, FP10 or FP11 still brings, by fabric port (R21, R117). -/
  slots : Tbl Nat := []
  /-- Start of the flush of each port record (R136). -/
  flushAt : Tbl Nat := []
  /-- Control words of the cells that crossed in the last cell time (Table 5.1). -/
  words : List Nat := []
  /-- Fabric clock of the last command, and the stored frames as that clock began (R219). -/
  snapAt : Nat := 0
  snap : List Frame := []
  deriving DecidableEq, Repr

/-- The PLCA cycle at an S port (R191): the opportunity counted last and when it began, whether a frame holds it, and the frames left of a burst with the end of the last one. -/
structure PlcaSt where
  running : Bool := false
  idx : Nat := 0
  from_ : Nat := 0
  busy : Bool := false
  burst : Nat := 0
  lastEnd : Nat := 0
  deriving DecidableEq, Repr

/-- The MACs beside their objects, by port record. -/
structure PortSt where
  /-- When XOFF was last sent (R187). -/
  xoffAt : Tbl Nat := []
  /-- End of the stop of a transmit queue, by port × 8 + queue (R189). -/
  stopped : Tbl (Option Nat) := []
  /-- Start of the present time in which some queue of a port is stopped. -/
  stopSince : Tbl (Option Nat) := []
  /-- Verify mPackets sent in VERIFYING and when the last was (R182). -/
  verify : Tbl (Nat × Nat) := []
  /-- Time of the last underrun or threshold decay (R186). -/
  lastUnder : Tbl Nat := []
  /-- Time of the last BEACON of a follower (R192). -/
  beaconAt : Tbl Nat := []
  /-- Flow-control frames that wait for a frame boundary, by pause time (R187). -/
  pauses : Tbl (List Nat) := []
  /-- A resend of XOFF in the present tick (R187). -/
  resentAt : Tbl (Option Nat) := []
  plca : Tbl PlcaSt := []
  /-- Gate states of the Plotter that are not yet in force: unit, when they are, gates, hold (R209). -/
  gates : List (Nat × Nat × Nat × Bool) := []
  /-- Lane and polarity in force since the port was last enabled: physical lane, and receive and transmit inversion (R175). -/
  lane : Tbl (Option (Nat × Bool × Bool)) := []
  /-- End of a back-off. -/
  backoff : Tbl (Option Nat) := []
  /-- Line faults present on an S port as bits of Table 7.4's values. -/
  faults : Tbl Nat := []
  deriving DecidableEq, Repr

/-- Power switching (R36, R481): domains that are on, as bits QN, QE, QS, QW, K; domains still to switch in order; the state that the switching leads to. -/
structure PowSt where
  domains : Nat := 0
  ramp : List Nat := []
  target : Nat := 2
  /-- When the droop step in force was entered; for each step the last event 0x0191 and the entries since (R487). -/
  droopAt : Nat := 0
  droop : Tbl (Option Nat × Nat) := []
  deriving DecidableEq, Repr

/-- A slot record of a key-store copy (Table 16.4), with its unwrapped key. -/
structure KsRecord where
  slot : Nat
  type : Nat
  usage : Nat
  gen : Nat
  key : Bytes
  deriving DecidableEq, Repr

/-- A key-store copy in flash: its generation and records. -/
structure KsCopy where
  gen : Nat
  recs : List KsRecord
  deriving DecidableEq, Repr

/-- A staged import blob (Table 16.5): operation, slot, key type, usage, counter and key. -/
structure Staged where
  op : Nat
  slot : Nat
  type : Nat
  usage : Nat
  counter : Nat
  key : Bytes
  deriving DecidableEq, Repr

/-- The Binnacle beside its objects. -/
structure BinSt where
  kroot : Option Bytes := none
  kwrap : Bytes := []
  kimp : Bytes := []
  seed : Bytes := []
  /-- Keys by slot. -/
  keys : Tbl Bytes := []
  /-- Slots whose lines were read uncorrectable, with the time at which each is rebuilt (R407). -/
  lost : List (Nat × Nat) := []
  staged : List Staged := []
  /-- Valid key-store copies in flash (R412). -/
  copyA : Option KsCopy := none
  copyB : Option KsCopy := none
  /-- A commit to a copy was interrupted before its marker (R418). -/
  broken : Bool := false
  provisioned : Bool := false
  /-- Last committed import counter, kept in flash. -/
  counter : Nat := 0
  identityReady : Bool := false
  /-- Highest PN validated, by unit × 8 + record (R423); whether a threshold event was raised. -/
  highPn : Tbl (Option Nat) := []
  pnRaised : Tbl Bool := []
  /-- Keys loaded into the GCM engines, by unit × 8 + record (R406). -/
  gcm : Tbl Bytes := []
  deriving DecidableEq, Repr

/-- A PDU that a field-bus channel hands to the Rose (R232, R251): the frame, and local and zone time of its start. -/
structure InPdu where
  frame : CanFrame
  lt : Nat
  zt : Int
  deriving DecidableEq, Repr

/-- A transmit buffer beside its record of `A:6020`: content, a held cancel (`some none`) or replace, the original's buffer of a rerouted copy, whether it is the segment's last call, and whether an attempt has failed since its load. -/
structure BufSt where
  frame : CanFrame := {}
  held : Option (Option CanFrame) := none
  copyOf : Option Nat := none
  lastCall : Bool := false
  again : Bool := false
  /-- Start of frame of the last attempt, and the transmitter delay that its data phase meets (R227, R236). -/
  start : Nat := 0
  delay : Nat := 0
  /-- The attempt has come to its data phase (R227). -/
  inData : Bool := false
  /-- A copy whose original has not ended: it follows the loads over its original (R242). -/
  linked : Bool := true
  /-- The content held over an ACTIVE buffer is a last call (R381). -/
  heldCall : Bool := false
  deriving DecidableEq, Repr

/-- A CAN channel beside its objects. -/
structure ChanSt where
  bufs : Tbl BufSt := []
  /-- Frames in receive staging (R232). -/
  staging : List InPdu := []
  /-- Earliest end of bus-off recovery. -/
  offUntil : Nat := 0
  /-- Start of the data phase of the attempt in progress, and its buffer (R227). -/
  phaseAt : Option (Nat × Nat) := none
  /-- A leg of consumer code 3 drives the channel (R245). -/
  driven : Bool := false
  /-- Kernel period in which a start of frame falls beside a cancel (R238). -/
  startsIn : Option Nat := none
  /-- End of the wait after a protocol exception (R223). -/
  idleFrom : Nat := 0
  /-- End of the transceiver's settling time (R260). -/
  settle : Option Nat := none
  /-- A stop waits for the frame in progress (R233). -/
  stopping : Bool := false
  /-- Woken by the Watch; still SLEEPING until the settling time ends. -/
  waking : Bool := false
  /-- Secondary sample point of the last data phase sent, in kernel periods from the start of the bit (R227). -/
  ssp : Nat := 0
  deriving DecidableEq, Repr

/-- A LIN frame in progress: identifier, length, start of the break, sample point of the break delimiter, end of the header and of the response space after it (R250), whether this channel publishes it, its response once sending has begun, its schedule entry type, whether it belongs to a collision table, whether it has failed, whether its record has been loaded again since its response began (R252), and whether it is the go-to-sleep command (R382). -/
structure LinFrame where
  id : Nat
  len : Nat
  start : Nat
  mark : Nat
  own : Bool
  respAt : Nat := 0
  resp : Option Bytes := none
  type : Nat := 0
  resolving : Bool := false
  failed : Bool := false
  reloaded : Bool := false
  sleepCmd : Bool := false
  deriving DecidableEq, Repr

/-- A LIN channel beside its objects. -/
structure LinSt where
  /-- Data of publish records, by identifier. -/
  data : Tbl Bytes := []
  frame : Option LinFrame := none
  /-- A table requested and not yet started (R256). -/
  request : Option Nat := none
  /-- Where the original table resumes after a collision table (R258). -/
  resume : Option (Nat × Nat) := none
  /-- Collision table that runs at the next slot start. -/
  collide : Option Nat := none
  /-- Start of the next slot on the channel's own timer. -/
  slotAt : Nat := 0
  staging : List InPdu := []
  /-- An own frame ended in an error since the response-error frame was last sent (R253). -/
  error : Bool := false
  settle : Option Nat := none
  stopping : Bool := false
  /-- The go-to-sleep command waits for the frame in progress (R382). -/
  sleepDue : Bool := false
  /-- A wake signal waits for the settling time (R254, R260). -/
  wakeDue : Bool := false
  deriving DecidableEq, Repr

/-- A selective-wake script that runs or waits (R262); once it runs, how its words are sent, the mask of their reads, and its words with their check masks. -/
structure Script where
  unit : Nat
  forSleep : Bool
  spi : SpiSetup := {}
  readMask : Nat := 0
  words : List (Nat × Nat) := []
  deriving DecidableEq, Repr

/-- A wake input beside its record of `A:68B0`: the level that has last lasted the filter time (R263), time it went active, time of its last test, a test in progress. -/
structure WakeIn where
  level : Bool := false
  activeAt : Nat := 0
  testAt : Nat := 0
  testing : Bool := false
  deriving DecidableEq, Repr

/-- A segment's network management beside `A:A020` (R375 to R390). -/
structure SegSt where
  /-- Expiry of Tr, and whether its last restart counts as remote need. -/
  tr : Option Nat := none
  trRemote : Bool := false
  /-- That restart came from a node and not from host or propagated need, so that the remote need propagates (R377). -/
  spread : Bool := true
  /-- Load of the last call, and end of its window. -/
  loadedAt : Option Nat := none
  windowEnd : Option Nat := none
  nmNext : Nat := 0
  /-- Node IDs honoured, each with the time of its last keep-alive. -/
  honoured : List (Nat × Nat) := []
  /-- Start of the time that `A:A020.19` counts. -/
  awakeFrom : Option Nat := none
  /-- GOING TO SLEEP: 0 no step, 1 a frame is in progress, 2 the script runs. -/
  step : Nat := 0
  /-- A wake detected while CP1 restarts (R390): reason and source. -/
  late : Option (Nat × Nat) := none
  deriving DecidableEq, Repr

/-- The Watch beside its objects: the pins RUN_REQ, MAIN_EN and MAIN_PG, why WAKE_OUT is asserted (bit 0 start, 1 wake, 2 safety), the acknowledge time, and whether the sleep condition has been answered. (DESIGN CHOICE: log entry 7.) -/
structure WatchSt where
  runReq : Bool := true
  mainEn : Bool := true
  mainPg : Bool := true
  /-- The device is in Watch, or Off. -/
  inWatch : Bool := false
  off : Bool := false
  /-- Start of the CORE domain: 0 running, 1 MAIN_PG awaited, 2 reference awaited, 3 PLLs awaited, 4 release awaited. -/
  stage : Nat := 0
  /-- When the always-on domain was reset. -/
  aonEpoch : Nat := 0
  wakeOut : Nat := 0
  ackEnd : Option Nat := none
  sleepSeen : Bool := false
  scripts : List Script := []
  inputs : Tbl WakeIn := []
  segs : Tbl SegSt := []
  deriving DecidableEq, Repr

/-- A PDU of queue E (R270): its container, kind, what it is matched by (identifier in the layout of `A:6020.05`, or PDU ID), the bus identifier of R283, the ACF bus ID, its frame fields, and its Fix in 2^-16 ns of zone time. -/
structure EPdu where
  cont : Nat
  kind : Nat
  ident : Nat
  srcId : Nat
  busId : Nat
  frame : CanFrame
  fix : Nat
  deriving DecidableEq, Repr

/-- An entry or ACF message of a transmit container (Tables 11.7, R297): PDU ID, bus identifier when valid, source, Fix in 2^-16 ns, kind, ACF bus ID, its data with the frame fields, and whether the data was truncated. -/
structure ContEntry where
  pduId : Nat
  busIdent : Option Nat
  source : Nat
  fix : Nat
  kind : Nat
  busId : Nat
  frame : CanFrame
  truncated : Bool := false
  deriving DecidableEq, Repr

/-- The Rose beside its objects. (DESIGN CHOICE: log entries 90, 99.) -/
structure RoseSt where
  /-- Ingress queues of C00–C23 and L00–L15, oldest first, and when the head of each came to it (R266, R301). -/
  queues : Tbl (List InPdu) := []
  headAt : Tbl Nat := []
  /-- Queue E, and when its head came to it. -/
  eq : List EPdu := []
  eqAt : Nat := 0
  /-- Queue P: destination definitions by number, containers from 8,192 on; and the pending bits in ascending order (R309). -/
  pq : List Nat := []
  pend : List Nat := []
  /-- The queue served last: W channels 0–39, E 40, P 41 (R267). -/
  last : Nat := 41
  /-- Values of large signals. -/
  large : Tbl Bytes := []
  /-- Emitted flags (R313), expiry ticks of 10 µs of local time (R315), and when the source PDU of the value came to the head of its queue (R301), by signal. -/
  emitted : Tbl Bool := []
  /-- Routes that have emitted since their enable (R312). -/
  carried : Tbl Bool := []
  fresh : Tbl (Option Nat) := []
  sigAt : Tbl Nat := []
  /-- When a W unit whose signals are suspended stopped (R318). -/
  pausedAt : Tbl (Option Nat) := []
  /-- Staged entries of transmit containers, when the first was added, and whether a frame has been sent or accepted since enable (R293, R296). -/
  staged : Tbl (List ContEntry) := []
  stagedAt : Tbl Nat := []
  seqSet : Tbl Bool := []
  /-- Frames sent over IPv4, for the identification field (R292). -/
  ipFrames : Nat := 0
  /-- Exceptions that wait for CP1 (R301). -/
  exceptions : Nat := 0
  /-- Start of the last emission that was not withheld and release of a deferred change, in local time (R308), by definition. -/
  lastStart : Tbl (Option Nat) := []
  release : Tbl Nat := []
  /-- A protection reference or counter is set, and a freshness value has been taken, since enable (R322, R325); last event of a secured failure (R327). -/
  protSet : Tbl Bool := []
  fvSet : Tbl Bool := []
  secAt : Tbl (Option Nat) := []
  deriving DecidableEq, Repr

/-- The boot record in force (Table 17.4). -/
structure BootRec where
  gen : Nat := 1
  roles : List Nat := [1, 0, 0]
  current : Nat := 0xFF
  trial : Nat := 0xFF
  fwPending : Bool := false
  almPending : Bool := false
  running : Bool := false
  starts : Nat := 0
  minutes : Nat := 0
  count : Nat := 0
  deriving DecidableEq, Repr

/-- The transfer header in flash (R442). -/
structure XferHdr where
  type : Nat
  id : Nat
  len : Nat
  deriving DecidableEq, Repr

/-- The xSPI flash, the fuses that boot burns, and the update engine (R429 to R451). (DESIGN CHOICE: log entry 12.) -/
structure FlashSt where
  /-- Contents by 4 KiB sector; an unlisted sector holds the release image in firmware slot 0 and is erased elsewhere (R431). The encrypted regions are held in clear. -/
  sectors : Tbl Bytes := []
  /-- None while both copies are erased. -/
  boot : Option BootRec := none
  header : Option XferHdr := none
  /-- Blocks whose bitmap bit is programmed. -/
  got : Tbl Bool := []
  /-- The assembly buffer: block and quarters (R443). -/
  block : Nat := 0
  quarters : Tbl Bytes := []
  /-- Slot that failed pass 2, in an always-on register (R438). -/
  failedSlot : Option Nat := none
  /-- Fused security version, and revocation of KH0. -/
  secVersion : Nat := 0
  revoked : Bool := false
  /-- Start of this run of a trial, whole minutes added in it, start of the unbroken health conditions, and the owner's confirmation. -/
  since : Nat := 0
  added : Nat := 0
  healthy : Option Nat := none
  confirmed : Bool := false
  /-- Last VBATSENSE samples in mV, newest first, at most 16 (R444). -/
  samples : List Nat := []
  /-- The ROM is in recovery (R437). -/
  recovery : Bool := false
  /-- The slot of the last revert (R451), until a transfer starts into it. -/
  reverted : Option Nat := none
  /-- The boot sequence has run since the last release of the CORE reset. -/
  booted : Bool := false
  /-- Reset cause latched in the always-on domain (R490); start of the root array's next attempt. -/
  cause : Nat := 1
  deriving DecidableEq, Repr

/-- One control-processor pair (R29, R30): 0 running, 1 restarting, 2 held in reset; when it stopped, and its last mismatch. -/
structure PairSt where
  state : Nat := 0
  stoppedAt : Nat := 0
  lastMismatch : Option Nat := none
  deriving DecidableEq, Repr

/-- A stack link beside its objects: hellos received in a row, when the last arrived, what it said, and when a round trip was last measured. -/
structure KLink where
  run : Nat := 0
  heard : Nat := 0
  hello : Option Hello := none
  tripAt : Option Nat := none
  /-- The member at its other end is held out for the number of a member that is PRESENT (R357). -/
  dup : Bool := false
  deriving DecidableEq, Repr

/-- The stack and the remote bridge beside their objects. -/
structure StackSt where
  links : Tbl KLink := []
  /-- This member's state in the view of the others: 1 JOINING, 2 PRESENT, 3 HELD OUT. -/
  self : Nat := 2
  /-- Configuration records of all members (R362), and members whose record has overflowed. -/
  record : List RecEntry := []
  overflow : Tbl Bool := []
  /-- Boot count in each member's last hello, none before the first. -/
  boots : Tbl (Option Nat) := []
  /-- Remaining lease in the replica of a member that is not the lead, or frozen at a change of lead; a replica runs from the ownership message that brought it (R356). -/
  lease : Option Nat := none
  leaseFrom : Option Nat := none
  /-- The last time message: when it came, its lead time in 2^-48 ns, and own local time in periods. -/
  lastMsg : Option (Nat × Int × Nat) := none
  /-- When this member last sent its hellos and, as lead, its time messages (R352, R364). -/
  helloAt : Option Nat := none
  timeAt : Option Nat := none
  /-- Posted writes in flight, writes that hold the bus for want of room, and the read of each initiating pair (R369, R370). -/
  writes : List BridgeReq := []
  held : List (BridgeReq × Bytes) := []
  reads : List BridgeReq := []
  deriving DecidableEq, Repr

/-- One member device. (DESIGN CHOICE: log entries 1, 8, 10, 148.) -/
structure Dev where
  /-- Time-clock periods of 0.8 ns since the always-on supply came up. -/
  now : Nat := 0
  /-- Power-on time at which local time was 0. -/
  ltEpoch : Nat := 0
  /-- STACKID[1:0] strap. -/
  stackId : Nat := 0
  /-- Values of the Almanac's objects that differ from their defaults, by key. -/
  store : Tbl Nat := []
  alm : AlmSt := {}
  ev : EvSt := {}
  fifos : Tbl Fifo := []
  /-- From-host FIFO read last, for the round-robin of R347. -/
  fifoTurn : Nat := 63
  sex : SexSt := {}
  plot : PlotSt := {}
  integ : IntSt := {}
  chart : ChartSt := {}
  shape : ShapeSt := {}
  fab : FabSt := {}
  ports : PortSt := {}
  pow : PowSt := {}
  bin : BinSt := {}
  chans : Tbl ChanSt := []
  lins : Tbl LinSt := []
  watch : WatchSt := {}
  rose : RoseSt := {}
  flash : FlashSt := {}
  pairs : Tbl PairSt := []
  stack : StackSt := {}
  /-- Number of free values used; each use advances it. -/
  freeCount : Nat := 0
  outbox : List Out := []
  deriving DecidableEq, Repr

/-- The block: the commands that wait, first in first out, and the device. (DESIGN CHOICE: log entry 1.) -/
structure State where
  pending : List Instr := []
  dev : Dev := {}
  deriving DecidableEq, Repr

/-- The device right after the release of the CORE reset (R42, R489): every object at its default, memories unlisted, no command waiting. (DESIGN CHOICE: log entries 7, 8, 10.) -/
def State.reset : State := { pending := [], dev := {} }

end Sys2Proof.Machine
end

