-- ==== Sys2Proof/Machine/Ops.lean ====
section
/-! DEFINITION. The named operations over the object store, the units, time and the record of what the device sends. -/
namespace Sys2Proof.Machine

/-! Units (Table 0.3), numbered in path order (R9): 0 the member, then N0–N3, E0–E7, S0–S7, C00–C23, L00–L15, PCIE, HS, K0, K1. -/

/-- Unit number of backbone port N`i`. -/
def uN (i : Nat) : Nat := 1 + i
/-- Unit number of port E`i`. -/
def uE (i : Nat) : Nat := 5 + i
/-- Unit number of segment S`i`. -/
def uS (i : Nat) : Nat := 13 + i
/-- Unit number of channel C`i`. -/
def uC (i : Nat) : Nat := 21 + i
/-- Unit number of channel L`i`. -/
def uL (i : Nat) : Nat := 45 + i
/-- Unit number of the PCIe host port. -/
def uPCIE : Nat := 61
/-- Unit number of the HS host port. -/
def uHS : Nat := 62
/-- Unit number of stack link K`i`. -/
def uK (i : Nat) : Nat := 63 + i
/-- Number of units, the member included. -/
def unitCount : Nat := 65

/-- Whether a unit has the objects of a scope. -/
def scopeHas : Scope → Nat → Bool
  | .member, u => u == 0
  | .ne, u => 1 ≤ u && u < 13
  | .nesk, u => (1 ≤ u && u < 21) || (63 ≤ u && u < 65)
  | .s, u => 13 ≤ u && u < 21
  | .can, u => 21 ≤ u && u < 45
  | .lin, u => 45 ≤ u && u < 61
  | .w, u => 21 ≤ u && u < 61
  | .ws, u => 13 ≤ u && u < 61
  | .k, u => 63 ≤ u && u < 65
  | .nk, u => (1 ≤ u && u < 5) || (63 ≤ u && u < 65)

/-- Unit of a port record of R127 (0–3 N, 4–11 E, 12–19 S, 20–21 K, 22 host, 23 Rose, 24 control processors); the last two have no unit. -/
def unitOfPort (p : Nat) : Nat :=
  if p < 20 then p + 1 else if p < 22 then p + 43 else if p = 22 then uPCIE else 0

/-- Port record of a unit that is an Ethernet port or a stack link. -/
def portOfUnit (u : Nat) : Nat := if u < 21 then u - 1 else if u = uPCIE then 22 else u - 43

/-- Group and index bytes of a unit (Table 2.4). -/
def unitGI (u : Nat) : Nat × Nat :=
  if u = 0 then (0, 0xFF)
  else if u < 5 then (0x4E, u - 1)
  else if u < 13 then (0x45, u - 5)
  else if u < 21 then (0x53, u - 13)
  else if u < 45 then (0x57, u - 21)
  else if u < 61 then (0x57, 0x40 + (u - 45))
  else if u < 63 then (0x48, u - 61)
  else (0x4B, u - 63)

/-- Unit that a group byte and an index byte name (Table 2.4); none for values outside the table. -/
def unitOfGI (g i : Nat) : Option Nat :=
  if g = 0x4E then (if i < 4 then some (uN i) else none)
  else if g = 0x45 then (if i < 8 then some (uE i) else none)
  else if g = 0x53 then (if i < 8 then some (uS i) else none)
  else if g = 0x57 then (if i < 24 then some (uC i) else if 0x40 ≤ i ∧ i < 0x50 then some (uL (i - 0x40)) else none)
  else if g = 0x48 then (if i < 2 then some (61 + i) else none)
  else if g = 0x4B then (if i < 2 then some (uK i) else none)
  else none

/-- First unit and number of units of a group byte, when it is one of Table 2.4. -/
def groupUnits (g : Nat) : Option (Nat × Nat) :=
  if g = 0x4E then some (1, 4) else if g = 0x45 then some (5, 8) else if g = 0x53 then some (13, 8)
  else if g = 0x57 then some (21, 40) else if g = 0x48 then some (61, 2) else if g = 0x4B then some (63, 2) else none

/-- The 4-byte path of a unit of a member (Table 2.4). -/
def unitPath (member u : Nat) : Bytes :=
  [BitVec.ofNat 8 member, BitVec.ofNat 8 (unitGI u).1, BitVec.ofNat 8 (unitGI u).2, 0]

/-! The object store. -/

/-- Key of field `sub` of record `r` of object `idx` at unit `u`. -/
def objKey (idx sub u r : Nat) : Nat := ((r * 256 + u) * 65536 + idx) * 256 + sub

/-- Rows of the area that an index lies in (Table 2.1). -/
def areaRows (idx : Nat) : List ObjRow :=
  match idx / 0x1000 with
  | 1 => rows1 | 2 => rows2 | 3 => rows3 | 4 => rows4 | 5 => rows5 | 6 => rows6 | 7 => rows7 | 8 => rows8
  | 9 => rows9 | 10 => rowsA | 11 => rowsB | 12 => rowsC | 13 => rowsD | _ => []

/-- Whether a row describes an index and subindex. -/
def ObjRow.covers (r : ObjRow) (idx sub : Nat) : Bool :=
  r.idx ≤ idx && idx < r.idx + r.n && r.sub ≤ sub && sub < r.sub + r.subs

/-- The row of an object, none when it is not implemented. -/
def findRow (idx sub : Nat) : Option ObjRow := (areaRows idx).find? (fun r => r.covers idx sub)

/-- Whether any row has the index. -/
def hasIndex (idx : Nat) : Bool := (areaRows idx).any (fun r => r.idx ≤ idx && idx < r.idx + r.n)

/-- Defaults that differ by record or unit, as the default columns state them. -/
def dfltByRecord (idx sub u r : Nat) : Option Nat :=
  match idx, sub with
  | 0x1010, 0x01 => some (if r = 0 then 1 else 0)
  | 0x1010, 0x02 => some (if r = 0 then 200 else 0)
  | 0x8020, 0x02 => some r
  | 0x8020, 0x03 => some r
  | 0x2040, 0x01 => some (if 23 ≤ r then 3 else 0)
  | 0x3010, 0x06 => some (if 23 ≤ r then 0 else 1)
  | 0x3020, 0x01 => some (if r = 1 then 1 else 0)
  | 0x3020, 0x02 => some (if r = 1 then 0x007FFFFF else 0)
  | 0x3020, 0x03 => some (if r = 1 then 0x007FFFFF else 0)
  | 0x3020, 0x04 => some r
  | 0x5010, 0x01 => some (if r < 15 then 1 else 0)
  | 0x5010, 0x02 => some (if r < 12 then r else if r < 15 then r + 8 else 0xFF)
  | 0x5010, 0x05 => some (r * 32)
  | 0x5020, 0x01 => some (if r % 32 = 0 ∧ r ≤ 448 then 1 else 0)
  | 0x5050, 0x01 => some (if 22 ≤ r then 0 else 20)
  | 0x5050, 0x02 => some (if 22 ≤ r then 0 else 20)
  | 0x6820, 0x03 => some (if 60 ≤ r then 0 else 1)
  | 0x6880, 0x01 => some (if u < 45 then 0xD2 else 0x0A)
  | 0x9010, 0x01 => some (if r ≤ 1 then 1 else 0)
  | 0x9010, 0x02 => some (if r = 1 then 1 else 0)
  | 0xC000, 0x01 => some (memLines r)
  | 0xC000, 0x02 => some (memLines r)
  | 0xC000, 0x09 => some (if r = 7 then 10000 else 1000)
  | 0x7000, 0x07 => some Config.roseMac
  | 0x9400, 0x05 => some Config.clockIdentity
  | 0xB100, 0x02 => some (Config.portMac u * 65536 + 1)
  | _, _ => none
where
  /-- Lines of each memory of Table 18.1. -/
  memLines (m : Nat) : Nat :=
    match m with
    | 0 => 131072 | 1 => 65536 | 2 => 32768 | 3 => 4096 | 4 => 4096 | 5 => 4096 | 6 => 4096 | 7 => 2097152 | 8 => 256 | _ => 0

/-- The default of an object's key (R42). (DESIGN CHOICE: log entry 157.) -/
def objDefault (k : Nat) : Nat :=
  let sub := k % 256
  let idx := k / 256 % 65536
  let u := k / 2 ^ 24 % 256
  let r := k / 2 ^ 32
  match dfltByRecord idx sub u r with
  | some v => v
  | none => match findRow idx sub with | some row => row.dflt | none => 0

/-- The value held for an object: field `sub` of record `r` of `idx` at unit `u`. (DESIGN CHOICE: log entry 5.) -/
def Dev.obj (d : Dev) (idx sub : Nat) (u : Nat := 0) (r : Nat := 0) : Nat := tget objDefault d.store (objKey idx sub u r)

/-- The object of a BOOL. -/
def Dev.flag (d : Dev) (idx sub : Nat) (u : Nat := 0) (r : Nat := 0) : Bool := d.obj idx sub u r != 0

/-- Store a value in an object. (DESIGN CHOICE: log entry 5.) -/
def Dev.set (d : Dev) (idx sub v : Nat) (u : Nat := 0) (r : Nat := 0) : Dev :=
  { d with store := tput objDefault d.store (objKey idx sub u r) v }

/-- Add to a 32-bit counter, which wraps modulo its size (R142, R350). -/
def Dev.inc (d : Dev) (idx sub : Nat) (u : Nat := 0) (r : Nat := 0) (n : Nat := 1) : Dev :=
  d.set idx sub ((d.obj idx sub u r + n) % 2 ^ 32) u r

/-- Add to a 64-bit counter, which wraps modulo its size. -/
def Dev.inc64 (d : Dev) (idx sub : Nat) (u : Nat := 0) (r : Nat := 0) (n : Nat := 1) : Dev :=
  d.set idx sub ((d.obj idx sub u r + n) % 2 ^ 64) u r

/-- Raise a peak value to the present one. -/
def Dev.peak (d : Dev) (idx sub v : Nat) (u : Nat := 0) (r : Nat := 0) : Dev :=
  if d.obj idx sub u r < v then d.set idx sub v u r else d

/-- Record something the device sends or drives. (DESIGN CHOICE: log entry 15.) -/
def Dev.out (d : Dev) (o : Out) : Dev := { d with outbox := o :: d.outbox }

/-- Replace the server's state. -/
def Dev.almUpd (d : Dev) (f : AlmSt → AlmSt) : Dev := { d with alm := f d.alm }

/-- Replace the event registers. -/
def Dev.evUpd (d : Dev) (f : EvSt → EvSt) : Dev := { d with ev := f d.ev }

/-- Replace the Sextant's state. -/
def Dev.sexUpd (d : Dev) (f : SexSt → SexSt) : Dev := { d with sex := f d.sex }

/-- Replace the Chart's state. -/
def Dev.chartUpd (d : Dev) (f : ChartSt → ChartSt) : Dev := { d with chart := f d.chart }

/-- Replace the Plotter's state. -/
def Dev.plotUpd (d : Dev) (f : PlotSt → PlotSt) : Dev := { d with plot := f d.plot }

/-- Replace the flash's state. -/
def Dev.flashUpd (d : Dev) (f : FlashSt → FlashSt) : Dev := { d with flash := f d.flash }

/-- A value that the manual leaves open, for the purpose `p`; the device's counter advances. (DESIGN CHOICE: log entry 14.) -/
def Dev.free (d : Dev) (p : Nat) : Nat × Dev := (Config.freeValue p d.freeCount, { d with freeCount := d.freeCount + 1 })

/-- The power domain of a unit is on (R36); the member's own functions and the host ports have no quadrant. -/
def Dev.unitPowered (d : Dev) (u : Nat) : Bool :=
  if u = 0 ∨ u = uPCIE ∨ u = uHS then true
  else bit d.pow.domains (if u < 5 then 0 else if u < 13 then 1 else if u < 21 then 2 else if u < 61 then 3 else 4)

/-- The fabric, Rose and kernel clocks run: they are gated in Standby, until the first domain is on (R478, R481). -/
def Dev.dataOn (d : Dev) : Bool := decide (3 ≤ d.obj 0xA000 0x02) || d.pow.domains != 0

/-! Time (R66 to R69). -/

/-- Time-clock periods in a microsecond, a millisecond and a second. -/
def perUs : Nat := 1250
/-- Time-clock periods in a millisecond. -/
def perMs : Nat := 1250000
/-- Time-clock periods in a second. -/
def perS : Nat := 1250000000

/-- Local time in time-clock periods. (DESIGN CHOICE: log entry 18.) -/
def Dev.lt (d : Dev) : Nat := d.now - d.ltEpoch

/-- Advance of a counter per period in 2^-48 ns: 0.8 ns × (1 + r), rounded (R66). (DESIGN CHOICE: log entry 48.) -/
def stepOf (r : Int) : Int := rdiv (4 * (2 ^ 48 + r)) 5

/-- A clock after `n` periods. -/
def Clock.run (c : Clock) (n : Nat) : Clock := { c with val := c.val + stepOf c.rate * n }

/-- The sum of ⌊(a·i + b) / m⌋ for i from 0 to n − 1, for m above 0; the first argument bounds the depth of the recursion. -/
def floorSum : Nat → Int → Int → Int → Int → Int
  | 0, _, _, _, _ => 0
  | k + 1, n, m, a, b =>
    let s := n * (n - 1) / 2 * (a / m) + n * (b / m)
    let y := a % m * n + b % m
    if y < m then s else s + floorSum k (y / m) (a % m) m (y % m)

/-- Rate of zone time `x` periods into a blend towards rate `r1`, quantised to 2^-48 (R66, R85). (DESIGN CHOICE: log entry 48.) -/
def Blend.rateAt (b : Blend) (r1 : Int) (x : Nat) : Int :=
  if b.tb ≤ x then r1 else b.r0 + rdiv ((r1 - b.r0) * x) b.tb

/-- What zone time gains in the periods from `x` to `y` of a blend: in each period the step of the rate of that period, each step rounded to 2^-48 ns (R66). The two sums are the steps' whole parts: a step is `stepOf` of `rateAt`, and 4/5 of a quantised rate is the rate less a fifth of it. -/
def Blend.advance (b : Blend) (r1 : Int) (x y : Nat) : Int :=
  let x' := min x b.tb
  let n : Int := ((min y b.tb : Nat) : Int) - x'
  let tb : Int := b.tb
  let e : Int := 2 * (r1 - b.r0) * x' + tb
  let h : Int := (8 * 2 ^ 48 + 8 * b.r0 + 5) / 2
  let ramp := if n ≤ 0 then 0 else floorSum 256 n (2 * tb) (2 * (r1 - b.r0)) e - floorSum 256 n (10 * tb) (2 * (r1 - b.r0)) (e + 2 * tb * (4 - h))
  ramp + stepOf r1 * (((y - x : Nat) : Int) - max 0 n)

/-- Zone time at a time of a stretch. -/
def ZtPast.at_ (e : ZtPast) (t : Nat) : Int :=
  match e.blend with
  | none => (e.clk.run (t - e.from_)).val
  | some (b, r1) => e.clk.val + b.advance r1 (e.from_ - b.start) (t - b.start)

/-- The stretches up to the first that starts at or before `t`. -/
def ZtPast.since (t : Nat) : List ZtPast → List ZtPast
  | [] => []
  | e :: l => if e.from_ ≤ t then [e] else e :: ZtPast.since t l

/-- The tracked domain `k` (0 primary, 1 redundant). -/
def SexSt.dom (x : SexSt) (k : Nat) : DomSt := if k = 0 then x.d1 else x.d2

/-- Replace the tracked domain `k`. -/
def SexSt.setDom (x : SexSt) (k : Nat) (v : DomSt) : SexSt := if k = 0 then { x with d1 := v } else { x with d2 := v }

/-- The running blend with its target's present rate; none while a restart of CP2 holds the rates (R89). -/
def SexSt.ramp (x : SexSt) : Option (Blend × Int) :=
  match x.blend with
  | some b => if b.frozen.isSome then none else some (b, (x.dom b.target).clk.rate)
  | none => none

/-- Note the stretch of zone time that runs at `t0`, unless the newest one noted goes on. -/
def SexSt.note (x : SexSt) (t0 : Nat) : SexSt :=
  let cur : ZtPast := { from_ := t0, clk := x.zt, blend := x.ramp }
  match x.past with
  | e :: _ =>
    if e.blend = cur.blend ∧ (cur.blend.isSome ∨ e.clk.rate = x.zt.rate) ∧ e.at_ t0 = x.zt.val then x
    else { x with past := cur :: ZtPast.since (t0 - 10 * perS) x.past }
  | [] => { x with past := [cur] }

/-- The counters after `n` periods that start at power-on time `t0`. -/
def SexSt.run (x : SexSt) (t0 n : Nat) : SexSt :=
  let zt : Clock := match x.ramp with
    | none => x.zt.run n
    | some (b, r1) => { val := x.zt.val + b.advance r1 (t0 - b.start) (t0 + n - b.start), rate := b.rateAt r1 (t0 + n - b.start) }
  { x with zt := zt, d1 := { x.d1 with clk := x.d1.clk.run n }, d2 := { x.d2 with clk := x.d2.clk.run n } }

/-- Let time pass up to `t`; a time already passed changes nothing (R69). (DESIGN CHOICE: log entry 2.) -/
def Dev.advance (d : Dev) (t : Nat) : Dev :=
  if d.now < t then { d with now := t, sex := (d.sex.note d.now).run d.now (t - d.now) } else d

/-- Zone time as a stamp captured it at a past time (R67). -/
def Dev.ztAt (d : Dev) (t : Nat) : Int :=
  if d.now ≤ t then d.sex.zt.val
  else match d.sex.past.find? (fun e => e.from_ ≤ t) with
    | some e => e.at_ t
    | none => d.sex.zt.val - stepOf d.sex.zt.rate * ((d.now - t : Nat) : Int)

/-- A TIME96 from a time in 2^-16 ns (Table 2.2). -/
def time96 (n : Nat) : Nat :=
  (n / (1000000000 * 65536)) % 2 ^ 48 * 2 ^ 48 + (n % (1000000000 * 65536)) / 65536 * 65536 + n % 65536

/-- Local time of a number of periods in 2^-16 ns, truncated (R66). -/
def lt16 (q : Nat) : Nat := q * 4 * 65536 / 5

/-- A counter value in 2^-16 ns. -/
def clk16 (v : Int) : Nat := (v / 2 ^ 32).toNat

/-- A counter value in whole ns. -/
def clkNs (v : Int) : Int := v / 2 ^ 48

/-- Local time now as a TIME96. -/
def Dev.ltTime (d : Dev) : Nat := time96 (lt16 d.lt)

/-- Zone time now as a TIME96. -/
def Dev.ztTime (d : Dev) : Nat := time96 (clk16 d.sex.zt.val)

/-- Local time in ns. -/
def Dev.ltNs (d : Dev) : Nat := d.lt * 4 / 5

/-! Lists. -/

/-- Replace the element at an index. -/
def setAt {α : Type} (l : List α) (i : Nat) (a : α) : List α := l.set i a

end Sys2Proof.Machine
end

