-- ==== Sys2Proof/Machine/Gates.lean ====
section
/-! DEFINITION. What comes about with time between commands: the fabric clock, and the gate states and CAN windows that the Plotter has set (R209 to R212, R219, R244). -/
namespace Sys2Proof.Machine

/-- The settings of an egress port and queue as they stand now. -/
def Dev.egressSet (d : Dev) (f : Frame) (c : Copy) : EgressSet :=
  let u := unitOfPort c.port
  { untag := bit (d.obj 0x3020 0x03 0 f.vid) c.port, lim := d.obj 0x4020 0x02 u, sdu := d.obj 0x5061 0x01 u f.cls, ovh := toI32 (d.obj 0x5050 0x02 0 c.port),
    pre := d.flag 0x4031 0x02 u f.cls, frag := 64 * (1 + d.obj 0x4040 0x04 u), active := c.port < 12 && d.flag 0x4040 0x06 u }

/-- The settings under which a copy is sent: a write acts from the next frame boundary on, so those of its start hold for a frame in progress (R27). (DESIGN CHOICE: log entry 193.) -/
def Dev.editOf (d : Dev) (f : Frame) (c : Copy) : EgressSet := c.edit.getD (d.egressSet f c)

/-- No frame is on a line under settings that a write has since changed: the write is in force (R27, R49). -/
def Dev.linesReady (d : Dev) : Bool :=
  d.fab.frames.all (fun f => f.copies.all (fun c => match c.edit with
    | some e => !c.started || { e with active := false } == { d.egressSet f c with active := false }
    | none => true))

/-- Kind of a copy at its MAC: 1 preemptible, 0 express (R122, R181). -/
def Dev.kindOf (d : Dev) (f : Frame) (c : Copy) : Nat := b2n ((d.editOf f c).pre && (d.editOf f c).active && !f.ptpEvent)

/-- The gate of a queue at a port is open (R209). -/
def Dev.gateOpen (d : Dev) (port cls : Nat) : Bool :=
  !(port < 22) || bit (d.obj 0x5060 0x01 (unitOfPort port)) cls

/-- Bytes of the fragment on the line sent at a time: 0.8 ns a period at the nominal rate in Mbit/s. -/
def Dev.fragBytes (d : Dev) (c : Copy) (at_ : Nat) : Nat := (at_ - c.startAt) * d.obj 0x4020 0x04 (unitOfPort c.port) / 10000

/-- The fragment on the line may end at a time: it has its minimum length, and so has what is left of the frame (R181). (PRESUMED: log entry 164.) -/
def Dev.atBoundary (d : Dev) (at_ : Nat) (f : Frame) (c : Copy) : Bool :=
  decide ((d.editOf f c).frag ≤ d.fragBytes c at_) && (!f.whole || decide (c.done + d.fragBytes c at_ + 64 ≤ f.len))

/-- The first time from which the fragment on the line, due to end, may do so. -/
def Dev.boundaryTime (d : Dev) (f : Frame) (c : Copy) : Nat := max c.endFrom (c.startAt + cdiv ((d.editOf f c).frag * 10000) (d.obj 0x4020 0x04 (unitOfPort c.port)))

/-- Change the copies of the stored frames in place. -/
def Dev.mapCopies (d : Dev) (g : Frame → Copy → Copy) : Dev :=
  { d with fab := { d.fab with frames := d.fab.frames.map (fun f => { f with copies := f.copies.map (g f) }) } }

/-- A preemptible copy is on the line at a port. -/
def Dev.onLineCopy (d : Dev) (port kind : Nat) (f : Frame) (c : Copy) : Bool :=
  c.port == port && !c.mirror && c.started && !c.suspended && d.kindOf f c == kind

/-- The fragment of a copy ends at a time (R181). -/
def Dev.endFragment (d : Dev) (c : Copy) (at_ : Nat) : Copy := { c with suspended := true, fragmented := true, endDue := false, done := c.done + d.fragBytes c at_ }

/-- The fragment of a copy is due to end and has come to its boundary by a time (R211). -/
def Dev.fragmentDue (d : Dev) (upTo : Nat) (f : Frame) (c : Copy) : Bool :=
  c.endDue && c.started && !c.suspended && decide (d.boundaryTime f c ≤ upTo) && d.atBoundary (d.boundaryTime f c) f c

/-- Fragments that are to end have ended at their boundaries up to a time (R181, R211). (PRESUMED: log entry 164.) -/
def Dev.endFragments (d : Dev) (upTo : Nat) : Dev :=
  let hit : List Nat := d.fab.frames.flatMap (fun f => (f.copies.filter (d.fragmentDue upTo f)).map (·.port))
  if hit.isEmpty then d
  else hit.foldl (fun d p => d.inc64 0x4040 0x08 (unitOfPort p)) (d.mapCopies fun f c => if d.fragmentDue upTo f c then d.endFragment c (d.boundaryTime f c) else c)

/-- A gate state comes into force at a port at a time (R209): a preemptible frame on the line ends its fragment at the next boundary while its gate is closed or a hold is set, and a frame that is completed with its gate closed counts as an overrun (R181, R211, R212). -/
def Dev.gateInForce (d : Dev) (at_ u gates : Nat) (hold : Bool) : Dev :=
  let p := portOfUnit u
  let was := bit (d.obj 0x5060 0x01 u) 8
  let d := d.set 0x5060 0x01 (gates + b2n hold * 256) u
  let d := if hold && !was && decide (u < 13) && d.flag 0x4040 0x06 u then d.inc 0x4040 0x07 u else d
  let late (f : Frame) (c : Copy) : Bool := d.onLineCopy p 0 f c && !bit gates f.cls && !c.overrun
  let n := (d.fab.frames.map (fun f => (f.copies.filter (late f)).length)).sum
  let d := if n = 0 then d else d.inc 0x5060 0x05 u 0 n
  d.mapCopies fun f c =>
    if d.onLineCopy p 1 f c then (let due : Bool := hold || !bit gates f.cls; { c with endDue := due, endFrom := if c.endDue then c.endFrom else at_ })
    else if late f c then { c with overrun := true } else c

/-- Gate states whose 16 ns have passed come into force in the order of their events (R209). -/
def Dev.gatesDue (d : Dev) : Dev :=
  let due := d.ports.gates.filter (fun g => g.2.1 ≤ d.now)
  if due.isEmpty then d
  else due.foldl (fun d g => ((d.endFragments g.2.1).inc 0x5060 0x03 g.1).gateInForce g.2.1 g.1 g.2.2.1 g.2.2.2) { d with ports := { d.ports with gates := d.ports.gates.filter (fun g => d.now < g.2.1) } }

/-- Fragments that are to end by now have ended. -/
def Dev.fragmentsDue (d : Dev) : Dev := d.endFragments d.now

/-- Format: 0 CC data, 1 FD, 2 XL, 3 CC remote. -/
def canFmt (f : CanFrame) : Nat := bits f.ident 31 30
/-- Extended identifier. -/
def canExt (f : CanFrame) : Bool := bit f.ident 29

/-! CAN windows (R236, R244). -/

/-- A CAN channel beside its objects, by unit. -/
def Dev.chan (d : Dev) (u : Nat) : ChanSt := tget (fun _ => {}) d.chans u

/-- Replace a channel. -/
def Dev.setChan (d : Dev) (u : Nat) (x : ChanSt) : Dev := { d with chans := tput (fun _ => {}) d.chans u x }

/-- A transmit buffer. -/
def Dev.buf (d : Dev) (u b : Nat) : BufSt := tget (fun _ => {}) (d.chan u).bufs b

/-- Replace a transmit buffer. -/
def Dev.setBuf (d : Dev) (u b : Nat) (x : BufSt) : Dev :=
  d.setChan u { d.chan u with bufs := tput (fun _ => {}) (d.chan u).bufs b x }

/-- State of a buffer (Table 9.5). -/
def Dev.bufState (d : Dev) (u b : Nat) : Nat := d.obj 0x6020 0x04 u b

/-- Unit of a channel's twin (R241). -/
def Dev.twin (d : Dev) (u : Nat) : Option Nat := let v := d.obj 0x6010 0x07 u; if v = 0xFF then none else some (uC v)

/-- The original in buffer `b` has ended: its copies at the twin follow it no more (R242). -/
def Dev.unlink (d : Dev) (u b : Nat) : Dev :=
  match d.twin u with
  | none => d
  | some w => d.setChan w { d.chan w with bufs := (d.chan w).bufs.map (fun x => if x.2.copyOf = some b then (x.1, { x.2 with linked := false }) else x) }

/-- A buffer becomes EMPTY with a result (R236). -/
def Dev.bufEmpty (d : Dev) (u b result : Nat) : Dev :=
  ((((d.unlink u b).set 0x6020 0x04 0 u b).set 0x6020 0x06 result u b).set 0x6020 0x0B 0 u b).setBuf u b {}

/-- The buffer is windowed and its window is closed. -/
def Dev.bufShut (d : Dev) (u b : Nat) : Bool := d.flag 0x6020 0x02 u b && !d.flag 0x6020 0x09 u b

/-- A buffer is to be sent: PENDING, or at a closed window BLOCKED, or after the close by the close action (R236, R244). -/
def Dev.bufArm (d : Dev) (u b : Nat) (failed : Bool) : Dev :=
  if d.bufShut u b then
    if failed ∧ d.obj 0x6020 0x03 u b = 1 then (d.bufEmpty u b 3).inc 0x6030 0x12 u
    else d.set 0x6020 0x04 2 u b
  else d.set 0x6020 0x04 1 u b

/-- The window of a buffer opens or closes (R244). -/
def Dev.canWindow (d : Dev) (u b : Nat) (open_ : Bool) : Dev :=
  let d := d.set 0x6020 0x09 (b2n open_) u b
  if ¬ d.flag 0x6020 0x02 u b then d
  else if open_ then (if d.bufState u b = 2 then d.set 0x6020 0x04 1 u b else d)
  else if d.bufState u b = 1 then d.bufArm u b true
  else d

/-- Time-clock periods of a number of kernel periods of 12.5 ns, rounded up. -/
def kernelTime (k : Nat) : Nat := cdiv (k * 125) 8

/-- The kernel period of 12.5 ns that a time lies in. -/
def kernelIndex (t : Nat) : Nat := t * 8 / 125

/-! The data phase of an own frame (R227). -/

/-- Nominal bits from the start of frame up to a header's last bit, stuff bits included: after five equal bits follows one of the other value. `run` counts the equal bits before, the last of value `v`. -/
def stuffedBits (v : Bool) (run : Nat) : List Bool → Nat
  | [] => 0
  | b :: l =>
    let stuffed : Bool := run == 5
    let run' := if stuffed then (if b == !v then 2 else 1) else if b == v then run + 1 else 1
    (if stuffed then 2 else 1) + stuffedBits b run' l

/-- Bits `n - 1` down to 0 of a value. -/
def bitsDown (v n : Nat) : List Bool := (List.range n).reverse.map (bit v)

/-- The header of an FD or XL frame up to the bit at which the bit rate switches: start of frame, identifier, and the bits that name the format (ISO 11898-1). (PRESUMED: log entry 217.) -/
def switchBits (f : CanFrame) : List Bool :=
  if canFmt f = 2 then false :: bitsDown f.ident 11 ++ [false, false, true, true, false, true]
  else if canExt f then false :: bitsDown (f.ident / 2 ^ 18) 11 ++ [true, true] ++ bitsDown f.ident 18 ++ [false, true, false, true]
  else false :: bitsDown f.ident 11 ++ [false, false, true, false, true]

/-- The frame has a data phase at the data bit rate. -/
def hasDataPhase (f : CanFrame) : Bool := (canFmt f == 1 && f.brs) || canFmt f == 2

/-- Start of the data phase of a frame started at a time: the sample point of the bit at which the rate switches. (PRESUMED: log entry 217.) -/
def Dev.phaseStart (d : Dev) (u : Nat) (f : CanFrame) (at_ : Nat) : Nat :=
  let brp := d.obj 0x6011 0x01 u
  let t1 := 1 + d.obj 0x6011 0x02 u
  at_ + kernelTime (brp * ((stuffedBits true 0 (switchBits f) - 1) * (t1 + d.obj 0x6011 0x03 u) + t1))

/-- The data phase of buffer `b` begins: its transmitter delay is measured and its secondary sample point set, limited to 255 kernel periods (R227). (DESIGN CHOICE: log entry 188.) -/
def Dev.dataPhase (d : Dev) (u b : Nat) : Dev :=
  let x := d.buf u b
  if ¬ hasDataPhase x.frame ∨ x.inData then d
  else
    let d := d.setBuf u b { x with inData := true }
    let n := x.delay + d.obj 0x6011 0x42 u
    if d.flag 0x6011 0x41 u then
      let d := (d.set 0x6011 0x0B x.delay u).setChan u { d.chan u with ssp := min n 255 }
      if 255 < n then d.inc 0x6030 0x09 u else d
    else d

/-- Data phases whose time has come begin. -/
def Dev.phasesDue (d : Dev) : Dev :=
  (d.chans.filterMap (fun x => x.2.phaseAt.bind (fun p => if p.1 ≤ d.now then some (x.1, p.2) else none))).foldl (fun d x => (d.setChan x.1 { d.chan x.1 with phaseAt := none }).dataPhase x.1 x.2) d

/-- A window event at a CAN channel: it is in force in the kernel 25 ns after it fires at `at_`. A close lets a selection of its own kernel period still take the buffer, so it acts at the end of that period; the events of one buffer keep their order (R244). (DESIGN CHOICE: log entry 191.) -/
def Dev.windowEvent (d : Dev) (u b at_ : Nat) (open_ : Bool) : Dev :=
  let e := if open_ then at_ + 32 else kernelTime ((at_ * 8 + 250) / 125 + 1)
  let last := ((d.plot.windows.filter (fun w => w.1 == u && w.2.1 == b)).map (·.2.2.1)).foldl max 0
  d.plotUpd fun x => { x with windows := x.windows ++ [(u, b, max e last, open_)] }

/-- Window events whose time has come are in force. (DESIGN CHOICE: log entry 191.) -/
def Dev.windowsDue (d : Dev) : Dev :=
  let due := d.plot.windows.filter (fun w => w.2.2.1 ≤ d.now)
  if due.isEmpty then d
  else due.foldl (fun d w => d.canWindow w.1 w.2.1 w.2.2.2) (d.plotUpd fun x => { x with windows := x.windows.filter (fun w => d.now < w.2.2.1) })

/-- A fabric clock begins: what a sampler visit in it sees is kept (R219), and the first cells of the clock before are done (R132). -/
def Dev.fabricClock (d : Dev) : Dev :=
  let k := d.lt / 2
  if d.fab.snapAt = k then d else { d with fab := { d.fab with snapAt := k, snap := d.fab.frames, early := [] } }

end Sys2Proof.Machine
end

