-- ==== Sys2Proof/Machine/EventBus.lean ====
section
/-! DEFINITION. The events of this device and their order on the event bus (R28). -/
namespace Sys2Proof.Machine

/-- This model's own numbers for the events to which the manual gives no code. -/
inductive Ev where
  | escalation | uncorrectable | scrubDone | retired | lockstep | pairHeld | reservesReduced | chartLock | ruleDisabled
  | verifyFailed | teffMax | foreignBeacon | canPassive | canBusOff | scriptFailed | inputFault | memberHeld | pathLoss
  | bridgeError | memberAdmitted | segmentSleep | segmentWake | sleepRequest | keyStoreLost | commitDone | commitFailed
  | pnThreshold | healthFailure | transferDone | fallbackStart | trialEnd | reverted | leaseLapse | wake | rootFailed | loadFailed
  | awakeExceeded | awakeNoNeed | stackSplit | duplicateId | lineFault | failSafe | chartFull | staticDisabled | other | secFailure | slotLost
  deriving DecidableEq, Repr

/-- Event code of one of this model's own events. (DESIGN CHOICE: log entry 13.) -/
def Ev.code (e : Ev) : EvCode := .kind e.ctorIdx

/-- Place of a path in the order of R9: the member, then the unit in the order of Table 2.4. -/
def pathPlace (p : Bytes) : Nat := byteAt p 0 * 256 + (unitOfGI (byteAt p 1) (byteAt p 2)).getD 0

/-- An event comes before another of its time in the order of R28: by source, and within the ports source in path order (R9). -/
def EvRec.before (x e : EvRec) : Bool := x.source < e.source || (x.source == e.source && (e.source != 6 || pathPlace x.path ≤ pathPlace e.path))

/-- Insert an event after those that come before it (R28). (DESIGN CHOICE: log entry 16.) -/
def busInsert (e : EvRec) : List EvRec → List EvRec
  | [] => [e]
  | x :: l => if x.before e then x :: busInsert e l else e :: x :: l

/-- An event enters the bus; it is delivered with the others of its cycle in the order of R28. -/
def Dev.onBus (d : Dev) (e : EvRec) : Dev := d.evUpd fun x => { x with bus := busInsert e d.ev.bus }

/-- A unit raises an event. (DESIGN CHOICE: log entry 16.) -/
def Dev.event (d : Dev) (source : Nat) (vector : Option Nat) (code : EvCode) (u : Nat := 0) (data : Bytes := []) : Dev :=
  d.onBus { lt := d.lt, source := source, vector := vector, code := code, path := unitPath d.stackId u, data := data }

/-- The source of a vector arrives on the event bus without an event of the Logbook (R336). -/
def Dev.signal (d : Dev) (v : Nat) : Dev := d.evUpd fun x => { x with arrivals := x.arrivals ++ [v] }

end Sys2Proof.Machine
end

