-- ==== Sys2Proof/Machine/Cipher.lean ====
section
/-! DEFINITION. The algorithms that the manual takes from published standards: AES (FIPS 197) with AES-CMAC (RFC 4493) and AES-XTS (IEEE 1619), and SHAKE256 (FIPS 202) with KMAC256 (SP 800-185). Log entry 222 marks them PRESUMED. -/
namespace Sys2Proof.Machine

/-! AES. A state is 16 bytes, column by column. -/

/-- The S-box of AES, entry 0 in the least significant byte. -/
def aesTable : Nat :=
  0x16bb54b00f2d99416842e6bf0d89a18cdf2855cee9871e9b948ed9691198f8e1 * 2 ^ 1792 +
  0x9e1dc186b95735610ef6034866b53e708a8bbd4b1f74dde8c6b4a61c2e2578ba * 2 ^ 1536 +
  0x08ae7a65eaf4566ca94ed58d6d37c8e779e4959162acd3c25c2406490a3a32e0 * 2 ^ 1280 +
  0xdb0b5ede14b8ee4688902a22dc4f816073195d643d7ea7c41744975fec130ccd * 2 ^ 1024 +
  0xd2f3ff1021dab6bcf5389d928f40a351a89f3c507f02f94585334d43fbaaefd0 * 2 ^ 768 +
  0xcf584c4a39becb6a5bb1fc20ed00d153842fe329b3d63b52a05a6e1b1a2c8309 * 2 ^ 512 +
  0x75b227ebe28012079a059618c323c7041531d871f1e5a534ccf73f362693fdb7 * 2 ^ 256 +
  0xc072a49cafa2d4adf04759fa7dc982ca76abd7fe2b670130c56f6bf27b777c63

/-- One byte through the S-box. -/
def aesSub (x : Nat) : Nat := aesTable / 256 ^ x % 256

/-- A byte doubled in the field of AES. -/
def aesDouble (x : Nat) : Nat := if x < 128 then 2 * x else (2 * x) ^^^ 0x11B

/-- Two byte lists added in the field. -/
def aesAdd (a b : List Nat) : List Nat := List.zipWith (· ^^^ ·) a b

/-- The rows shift to the left by their number. -/
def aesShift (s : List Nat) : List Nat := (List.range 16).map (fun i => s.getD ((i + 4 * (i % 4)) % 16) 0)

/-- The columns are mixed. -/
def aesMix (s : List Nat) : List Nat :=
  (List.range 16).map (fun i =>
    let at_ (k : Nat) : Nat := s.getD (i / 4 * 4 + (i + k) % 4) 0
    aesDouble (at_ 0) ^^^ aesDouble (at_ 1) ^^^ at_ 1 ^^^ at_ 2 ^^^ at_ 3)

/-- Words of the key schedule, the newest first, from a key of `nk` words. -/
def aesWords (nk : Nat) : Nat → List (List Nat) → List (List Nat)
  | 0, l => l
  | n + 1, l =>
    let i := l.length
    let prev := l.headD []
    let t :=
      if i % nk = 0 then aesAdd ((prev.drop 1 ++ prev.take 1).map aesSub) [Nat.repeat aesDouble (i / nk - 1) 1, 0, 0, 0]
      else if 6 < nk ∧ i % nk = 4 then prev.map aesSub
      else prev
    aesWords nk n (aesAdd t (l.getD (nk - 1) []) :: l)

/-- The round keys of a key of 16 or 32 bytes. -/
def aesKeys (key : Bytes) : List (List Nat) :=
  let nk := key.length / 4
  let ws := ((List.range nk).map (fun i => (slice key (4 * i) 4).map BitVec.toNat)).reverse
  let all := (aesWords nk (4 * (nk + 7) - nk) ws).reverse
  (List.range (nk + 7)).map (fun r => ((all.drop (4 * r)).take 4).flatten)

/-- The rounds after the first key; the last does not mix columns. -/
def aesRounds : List (List Nat) → List Nat → List Nat
  | [], s => s
  | [k], s => aesAdd (aesShift (s.map aesSub)) k
  | k :: ks, s => aesRounds ks (aesAdd (aesMix (aesShift (s.map aesSub))) k)

/-- AES of one block of 16 bytes, as a number read most significant byte first. -/
def aesNat (key : Bytes) (block : Nat) : Nat :=
  let ks := aesKeys key
  beNat ((aesRounds (ks.drop 1) (aesAdd ((beBytes 16 block).map BitVec.toNat) (ks.headD []))).map (BitVec.ofNat 8))

/-- A block doubled in the field of 2^128 elements. -/
def dbl128 (x : Nat) : Nat := if x < 2 ^ 127 then 2 * x else (2 * x % 2 ^ 128) ^^^ 0x87

/-- AES-CMAC of a message: 16 bytes (R326, R424). (PRESUMED: log entry 222.) -/
def aesCmac (key msg : Bytes) : Bytes :=
  let k1 := dbl128 (aesNat key 0)
  let n := max 1 ((msg.length + 15) / 16)
  let rest := msg.drop (16 * (n - 1))
  let last := if rest.length = 16 then beNat rest ^^^ k1 else beNat (rest ++ [0x80] ++ List.replicate (15 - rest.length) 0) ^^^ dbl128 k1
  let x := (List.range (n - 1)).foldl (fun x i => aesNat key (x ^^^ field msg (16 * i) 16)) 0
  beBytes 16 (aesNat key (x ^^^ last))

/-- AES-XTS of one whole block of a data unit under a key pair (R420). -/
def aesXts (key : Bytes) (unit block : Nat) (plain : Bytes) : Bytes :=
  let t0 := beNat (beBytes 16 (aesNat (key.drop 32) (beNat (beBytes 16 unit).reverse))).reverse
  let t := beNat (beBytes 16 (Nat.repeat dbl128 block t0)).reverse
  beBytes 16 (aesNat (key.take 32) (beNat plain ^^^ t) ^^^ t)

/-! Keccak. A state is 25 lanes of 64 bits, lane (x, y) at x + 5 y. -/

/-- A lane rotated to the left. -/
def rot64 (x n : Nat) : Nat := x * 2 ^ n % 2 ^ 64 + x / 2 ^ (64 - n)

/-- Rotations of the lanes. -/
def keccakRot : List Nat := [0, 1, 62, 28, 27, 36, 44, 6, 55, 20, 3, 10, 43, 25, 39, 41, 45, 15, 21, 8, 18, 2, 61, 56, 14]

/-- Constants of the 24 rounds. -/
def keccakConst : List Nat :=
  [0x1, 0x8082, 0x800000000000808a, 0x8000000080008000, 0x808b, 0x80000001, 0x8000000080008081, 0x8000000000008009, 0x8a, 0x88, 0x80008009, 0x8000000a] ++
  [0x8000808b, 0x800000000000008b, 0x8000000000008089, 0x8000000000008003, 0x8000000000008002, 0x8000000000000080, 0x800a, 0x800000008000000a, 0x8000000080008081, 0x8000000000008080, 0x80000001, 0x8000000080008008]

/-- One round. -/
def keccakRound (a : List Nat) (rc : Nat) : List Nat :=
  let lane (l : List Nat) (x y : Nat) : Nat := l.getD (x % 5 + 5 * (y % 5)) 0
  let col := (List.range 5).map (fun x => lane a x 0 ^^^ lane a x 1 ^^^ lane a x 2 ^^^ lane a x 3 ^^^ lane a x 4)
  let theta := (List.range 25).map (fun i => a.getD i 0 ^^^ col.getD ((i + 4) % 5) 0 ^^^ rot64 (col.getD ((i % 5 + 1) % 5) 0) 1)
  let b := (List.range 25).map (fun i =>
    let k := (i % 5 + 3 * (i / 5)) % 5 + 5 * (i % 5)
    rot64 (theta.getD k 0) (keccakRot.getD k 0))
  let chi := (List.range 25).map (fun i => b.getD i 0 ^^^ ((2 ^ 64 - 1 - lane b (i % 5 + 1) (i / 5)) &&& lane b (i % 5 + 2) (i / 5)))
  (chi.headD 0 ^^^ rc) :: chi.drop 1

/-- The permutation Keccak-f[1600]. -/
def keccakF (a : List Nat) : List Nat := keccakConst.foldl keccakRound a

/-- The first 17 lanes take one block of 136 bytes, each least significant byte first. -/
def keccakAbsorb (a : List Nat) (b : Bytes) : List Nat :=
  keccakF ((List.range 25).map (fun i => a.getD i 0 ^^^ beNat (slice b (8 * i) 8).reverse))

/-- The bytes that a state gives out at the rate of 136 bytes. -/
def keccakSqueeze : Nat → List Nat → Bytes
  | 0, _ => []
  | n + 1, a => ((a.take 17).map (fun x => (beBytes 8 x).reverse)).flatten ++ keccakSqueeze n (keccakF a)

/-- The sponge of capacity 512 bits: message, domain byte, number of bytes. -/
def keccak (msg : Bytes) (dom : Byte) (n : Nat) : Bytes :=
  let k := msg.length / 136 + 1
  let last : Bytes := msg.drop (136 * (k - 1)) ++ dom :: List.replicate (135 - (msg.length - 136 * (k - 1))) 0
  let last := last.take 135 ++ [last.getD 135 0 ||| 0x80]
  let a := (List.range (k - 1)).foldl (fun a i => keccakAbsorb a (slice msg (136 * i) 136)) (List.replicate 25 0)
  (keccakSqueeze ((n + 135) / 136) (keccakAbsorb a last)).take n

/-- SHAKE256 of a message to `n` bytes (R402). -/
def shake256 (msg : Bytes) (n : Nat) : Bytes := keccak msg 0x1F n

/-- Bytes that a number takes, at least one. -/
def byteCount (n : Nat) : Nat := if n < 256 then 1 else Nat.log2 n / 8 + 1

/-- A number behind the count of its bytes. -/
def leftEncode (n : Nat) : Bytes := BitVec.ofNat 8 (byteCount n) :: beBytes (byteCount n) n

/-- A string behind its length in bits. -/
def encodeString (b : Bytes) : Bytes := leftEncode (8 * b.length) ++ b

/-- A string behind the rate, filled with zeros to a multiple of it. -/
def bytePad (b : Bytes) : Bytes :=
  let p := leftEncode 136 ++ b
  p ++ List.replicate ((136 - p.length % 136) % 136) 0

/-- KMAC256 of a message under a key with a customisation string, to `n` bytes (R403). (PRESUMED: log entry 222.) -/
def kmac256 (key msg label : Bytes) (n : Nat) : Bytes :=
  keccak (bytePad (encodeString [0x4B, 0x4D, 0x41, 0x43] ++ encodeString label) ++ bytePad (encodeString key) ++ msg ++ beBytes (byteCount (8 * n)) (8 * n) ++ [BitVec.ofNat 8 (byteCount (8 * n))]) 0x04 n

end Sys2Proof.Machine
end

