-- ==== Sys2Proof/Machine/KeySlots.lean ====
section
/-! DEFINITION. The Binnacle's key slots: derivations, the slots' contents, and the rebuilding of a slot whose line was lost (R402 to R408). -/
namespace Sys2Proof.Machine

/-- Replace the Binnacle's state. -/
def Dev.binUpd (d : Dev) (f : BinSt → BinSt) : Dev := { d with bin := f d.bin }

/-- The ASCII bytes of a label (R403). -/
def ascii (s : String) : Bytes := s.toList.map (fun c => BitVec.ofNat 8 c.toNat)

/-- The key in a slot; empty for a slot without one. -/
def Dev.key (d : Dev) (slot : Nat) : Bytes := tget (fun _ => []) d.bin.keys slot

/-! Derivations (R402 to R404). -/

/-- SERIAL as 16 bytes. -/
def serialBytes : Bytes := beBytes 16 Config.serialNumber

/-- KDF of R403 under a root key with the measurement register of its stage. -/
def kdf (kroot : Bytes) (label : Bytes) (stage : Nat) (m : Bytes) (ctx : Bytes) (n : Nat) : Bytes :=
  let x := beBytes 1 label.length ++ label ++ beBytes 1 stage ++ m ++ serialBytes ++ beBytes 2 ctx.length ++ ctx ++ beBytes 2 n
  kmac256 kroot x (ascii "VZN-KDF") n

/-- A measurement register as 64 bytes. -/
def Dev.measure (d : Dev) (k : Nat) : Bytes := beBytes 64 (d.obj 0xB010 (1 + k))

/-- Put a key into a slot with its origin, type, usage and generation. -/
def Dev.setSlot (d : Dev) (slot origin type usage gen : Nat) (key : Bytes) : Dev :=
  let d := d.binUpd fun x => { x with keys := tput (fun _ => []) x.keys slot key, lost := x.lost.filter (fun y => y.1 != slot) }
  let d := (((d.set 0xB040 0x01 origin 0 slot).set 0xB040 0x02 type 0 slot).set 0xB040 0x03 usage 0 slot).set 0xB040 0x04 gen 0 slot
  d.set 0xB040 0x05 (if origin = 0 then 0 else beNat (kmac256 key [] (ascii "VZN-FP") 8)) 0 slot

/-- Empty a slot. -/
def Dev.clearSlot (d : Dev) (slot : Nat) : Dev := d.setSlot slot 0 0 0 0 []

/-- A slot holds a key that its users can have: it has one, and its line has not been lost (R407). -/
def Dev.slotFull (d : Dev) (slot : Nat) : Bool := d.obj 0xB040 0x01 0 slot != 0 && !d.bin.lost.any (fun x => x.1 == slot)

/-- K_imp from the attestation secret in force (R414). -/
def Dev.recomputeImp (d : Dev) : Dev :=
  d.binUpd fun x => { x with kimp := if d.slotFull 0 then kmac256 (d.key 0) serialBytes (ascii "VZN-IMPORT") 32 else [] }

/-- Bytes of a derived key of a type. -/
def keyBytes (type : Nat) : Nat := if type = 1 then 16 else if type = 3 then 64 else 32

/-- A transfer over the private key bus (R406). (DEDUCED: log entry 130.) -/
def Dev.keyTransfer (d : Dev) (slot : Nat) : Dev := (d.inc 0xB040 0x07 0 slot).inc64 0xB060 0x06

/-- A derived slot's key under a root key (R404, R408). -/
def Dev.derivedKey (d : Dev) (kroot : Bytes) (slot : Nat) : Bytes :=
  let type := d.obj 0xB040 0x11 0 slot
  let ctx := beBytes 1 slot ++ beBytes 1 type ++ beBytes 4 (d.obj 0xB040 0x12 0 slot) ++ beBytes 32 (d.obj 0xB040 0x13 0 slot)
  kdf kroot (ascii "SLOT") 2 (d.measure 2) ctx (keyBytes type)

/-- Compute a derived slot's key (R408). -/
def Dev.deriveSlot (d : Dev) (slot : Nat) : Dev :=
  match d.bin.kroot with
  | none => d
  | some k => d.setSlot slot 2 (d.obj 0xB040 0x11 0 slot) (d.obj 0xB040 0x12 0 slot) 0 (d.derivedKey k slot)

/-- Every slot record of a copy goes into its slot. -/
def Dev.loadStore (d : Dev) (c : KsCopy) : Dev :=
  (c.recs.foldl (fun d r => d.setSlot r.slot 3 r.type r.usage r.gen r.key) d).recomputeImp

/-- The copy in force at start (R413). -/
def BinSt.inForce (x : BinSt) : Option (Nat × KsCopy) :=
  match x.copyA, x.copyB with
  | some a, some b => if a.gen < b.gen then some (1, b) else some (0, a)
  | some a, none => some (0, a)
  | none, some b => some (1, b)
  | none, none => none

/-! A slot's line that is read uncorrectable (R407). -/

/-- The line of a slot is read uncorrectable: the slot is empty for its users until it is rebuilt, at a time within 1 ms that the manual leaves open. (DESIGN CHOICE: log entry 179.) -/
def Dev.slotLineLost (d : Dev) (slot : Nat) : Dev :=
  if d.obj 0xB040 0x01 0 slot = 0 ∨ d.bin.lost.any (fun x => x.1 == slot) then d
  else
    let (v, d) := d.free 21
    d.binUpd fun x => { x with keys := tput (fun _ => []) x.keys slot [], lost := x.lost ++ [(slot, d.now + v % (perMs + 1))] }

/-- The key that a slot is rebuilt with: a new derivation, or the record of the copy in force; none when neither is left. -/
def Dev.rebuiltKey (d : Dev) (slot : Nat) : Option Bytes :=
  match d.obj 0xB040 0x01 0 slot, d.bin.kroot with
  | 1, some k => some (if slot = 1 then kdf k (ascii "FLASH-XTS") 0 (d.measure 0) [] 64 else kdf k (ascii "DRAM-XTS") 1 (d.measure 1) (beBytes 1 (slot - 2)) 64)
  | 2, some k => some (d.derivedKey k slot)
  | 3, some _ => (d.bin.inForce.bind (fun c => c.2.recs.find? (fun r => r.slot == slot))).map (·.key)
  | _, _ => none

end Sys2Proof.Machine
end

