-- ==== Sys2Proof/Machine/LinkFrames.lean ====
section
/-! DEFINITION. MACsec at a port (R421 to R423), and what leaves on the stack links beside data frames (R351, R352). -/
namespace Sys2Proof.Machine

/-! MACsec (R421 to R423). -/

/-- Record of an association in `A:B110` and its table key. -/
def saKey (u r : Nat) : Nat := u * 8 + r

/-- MACsec is on at a port record. -/
def Dev.macsecOn (d : Dev) (port : Nat) : Bool := (port < 4 || port == 20 || port == 21) && d.flag 0xB100 0x01 (unitOfPort port)

/-- The GCM engine's check of a received frame at its SecTAG (R80, R421 to R423); false discards it. (DEDUCED: log entry 74.) -/
def Dev.macsecAccept (d : Dev) (port : Nat) (sec : Option SecTag) (ptp : Bool) : Dev × Bool :=
  if ¬ d.macsecOn port then (d, true)
  else
    let u := unitOfPort port
    match sec with
    | none => if ptp then (d.inc64 0xB100 0x0E u, true) else (d.inc 0xB100 0x0C u, false)
    | some g =>
      let r := 4 + g.an % 4
      let low : Nat := match tget (fun _ => none) d.bin.highPn (saKey u r) with
        | some h => h - d.obj 0xB100 0x05 u
        | none => d.obj 0xB110 0x05 u r
      if ¬ d.flag 0xB110 0x01 u r then (d.inc 0xB100 0x0B u, false)
      else if g.pn = 0 ∨ g.pn < low then (d.inc 0xB100 0x09 u, false)
      else if ptp then (d.inc 0x8040 0x0B u, false)
      else (d, true)

/-- The ICV of a protected frame has been checked at its end (R423). (DEDUCED: log entry 74.) -/
def Dev.macsecEnd (d : Dev) (port : Nat) (sec : Option SecTag) (good : Bool) : Dev :=
  match sec with
  | none => d
  | some g =>
    if ¬ d.macsecOn port then d
    else
      let u := unitOfPort port
      let r := 4 + g.an % 4
      if good then
        let high := max g.pn ((tget (fun _ => none) d.bin.highPn (saKey u r)).getD 0)
        let d := d.binUpd fun x => { x with highPn := tput (fun _ => none) x.highPn (saKey u r) (some high) }
        (d.inc64 0xB100 0x08 u).set 0xB110 0x06 ((high + 1) % 2 ^ 64) u r
      else d.inc 0xB100 0x0A u

/-- A frame takes the next PN of the active association at its start (R423); none when the association is exhausted and the frame is dropped. -/
def Dev.macsecTake (d : Dev) (port : Nat) : Dev × Option SecTag :=
  let u := unitOfPort port
  let r := d.obj 0xB100 0x04 u
  if d.flag 0xB110 0x07 u r then (d.inc 0xB100 0x0D u, none)
  else
    let pn := d.obj 0xB110 0x06 u r
    let d := d.inc64 0xB100 0x07 u
    let d := if pn = 2 ^ 64 - 1 then d.set 0xB110 0x07 1 u r else d.set 0xB110 0x06 (pn + 1) u r
    let raised := tget (fun _ => false) d.bin.pnRaised (saKey u r)
    let d := if d.obj 0xB100 0x06 u ≤ pn ∧ ¬ raised then
        (d.binUpd fun x => { x with pnRaised := tput (fun _ => false) x.pnRaised (saKey u r) true }).event 8 (some 20) Ev.pnThreshold.code u
      else d
    (d, some { an := r, pn := pn })

/-! Messages on the stack links (R351, R352). -/

/-- A stack link beside its objects. -/
def Dev.klink (d : Dev) (k : Nat) : KLink := tget (fun _ => {}) d.stack.links k

/-- State of a stack link (`A:9420.02`): 0 down, 1 lock, 2 up. -/
def Dev.klinkState (d : Dev) (k : Nat) : Nat := d.obj 0x9420 0x02 (uK k)

/-- Another member is PRESENT. -/
def Dev.memberPresent (d : Dev) (m : Nat) : Bool := m == d.stackId || d.obj 0x9410 0x01 0 m == 2

/-- The other PRESENT members. -/
def Dev.otherMembers (d : Dev) : List Nat := (List.range 4).filter (fun m => m != d.stackId && d.memberPresent m)

/-- A message leaves on a stack link. With MACsec on it takes a packet number of the controlled port, which stands before it; an exhausted association sends nothing (R352, R423). (DESIGN CHOICE: log entry 226.) -/
def Dev.sendLink (d : Dev) (k : Nat) (o : Out) : Dev :=
  if ¬ d.macsecOn (20 + k) then d.out o
  else match d.macsecTake (20 + k) with
    | (d, some g) => (d.out (.linkTag k g)).out o
    | (d, none) => d

/-- A time message leaves on the uncontrolled port of a link (R80, R352). (DESIGN CHOICE: log entry 226.) -/
def Dev.sendTime (d : Dev) (k : Nat) (m : TimeMsg) : Dev := (if d.macsecOn (20 + k) then d.inc64 0xB100 0x0E (uK k) else d).out (.timeMsg k m)

/-- The link of the path to a member, none where no link that is up leads to it (R358). -/
def Dev.linkTo (d : Dev) (m : Nat) : Option Nat :=
  match d.obj 0x9410 0x07 0 m with
  | 1 => some 0
  | 2 => some 1
  | _ => none

/-- A message leaves on the path to a member. -/
def Dev.sendTo (d : Dev) (m : Nat) (o : Out) : Dev :=
  match d.linkTo m with
  | some k => d.sendLink k o
  | none => d

/-- The neighbour at a link that is up, when it is PRESENT. -/
def Dev.presentAt (d : Dev) (k : Nat) : Bool :=
  d.klinkState k == 2 && !(d.klink k).dup && d.obj 0x9420 0x03 (uK k) < 4 && d.obj 0x9420 0x03 (uK k) != d.stackId && d.memberPresent (d.obj 0x9420 0x03 (uK k))

/-- A learn or removal message of this member goes to the others in shared mode, on each link with a PRESENT neighbour (R162, R367). (DEDUCED: log entry 228.) -/
def Dev.tellStack (d : Dev) (o : Nat → Out) : Dev :=
  if d.obj 0x3008 0x00 = 1 then [0, 1].foldl (fun d k => if d.presentAt k then (d.sendLink k (o k)).inc64 0x3008 0x01 else d) d else d

end Sys2Proof.Machine
end

