-- ==== Sys2Proof/Machine/MacTable.lean ====
section
/-! DEFINITION. The MAC table's entries and places, and the sweep of a flush, which goes on between commands (R149, R150, R156, R161). -/
namespace Sys2Proof.Machine

/-! The MAC entry (Table 6.2) and the hashes (R150). -/

/-- Replace bits [hi:lo] of a value. -/
def setField (v hi lo x : Nat) : Nat := v - bits v hi lo * 2 ^ lo + x % 2 ^ (hi + 1 - lo) * 2 ^ lo

/-- Key of an entry: FID followed by MAC, which are its bits [59:0]. -/
def entKey (e : Nat) : Nat := bits e 59 0
/-- AGE of an entry. -/
def entAge (e : Nat) : Nat := bits e 76 60
/-- MOVES of an entry. -/
def entMoves (e : Nat) : Nat := bits e 84 77
/-- DEST of an entry. -/
def entDest (e : Nat) : Nat := bits e 95 85
/-- PRIO of an entry. -/
def entPrio (e : Nat) : Nat := bits e 99 96
/-- LOCK of an entry. -/
def entLock (e : Nat) : Bool := bit e 100
/-- TYPE of an entry. -/
def entType (e : Nat) : Nat := bits e 102 101

/-- An entry from its fields, unlocked. -/
def mkEntry (key age moves dest prio type : Nat) : Nat :=
  key % 2 ^ 60 + age % 2 ^ 17 * 2 ^ 60 + moves % 256 * 2 ^ 77 + dest % 2048 * 2 ^ 85 + prio % 16 * 2 ^ 96 + type % 4 * 2 ^ 101

/-- Key of a FID and an address. -/
def macKey (fid mac : Nat) : Nat := fid % 4096 * 2 ^ 48 + mac % 2 ^ 48

/-- The register of the hash after the `n` low bits of the key (R150). -/
def hashRun (poly key : Nat) : Nat → Nat → Nat
  | 0, c => c
  | n + 1, c =>
    let f := bit c 15 != bit key n
    let c := c * 2 % 65536
    hashRun poly key n (if f then c ^^^ poly else c)

/-- H of R150: the bucket of a key. -/
def chartHash (poly seed key : Nat) : Nat := hashRun poly key 60 seed % 8192

/-- Bucket of a key in table `t`. -/
def Dev.bucket (d : Dev) (t key : Nat) : Nat :=
  if t = 0 then chartHash 0x1021 (d.obj 0x3001 0x41) key else chartHash 0x8BB7 (d.obj 0x3001 0x42) key

/-- Position of way `w` of bucket `b` in table `t`. -/
def wayPos (t b w : Nat) : Nat := t * 32768 + b * 4 + w
/-- First position of the stash. -/
def stashBase : Nat := 65536

/-- The entry at a position, 0 when empty. -/
def Dev.mac (d : Dev) (p : Nat) : Nat := tget (fun _ => 0) d.chart.mac p

/-- Write the entry at a position. -/
def Dev.setMac (d : Dev) (p e : Nat) : Dev := d.chartUpd fun x => { x with mac := tput (fun _ => 0) d.chart.mac p e }

/-- Remove the entry at a position. -/
def Dev.chartRemove (d : Dev) (p : Nat) : Dev := d.setMac p 0

/-- Send a removal message to the other members in shared mode. -/
def Dev.tellRemoval (d : Dev) (key : Nat) : Dev := d.tellStack fun k => .removal k { key := key, sender := d.stackId }

/-- The bucket that a position lies in: T0, T1, then the stash as one. -/
def scanBucket (p : Nat) : Nat := min (p / 4) 16384

/-- Whether an entry leaves in a flush. -/
def ChartFlush.takes (f : ChartFlush) (self e : Nat) : Bool :=
  if f.byFid then (entType e == 1 || entType e == 2) && (f.val == 0xFFFF || entKey e / 2 ^ 48 == f.val)
  else if f.val = 0xFF then entType e == 1 || entType e == 2
  else (entType e == 1 || (entType e == 2 && !f.holdDown)) && entDest e == self * 32 + f.val

/-! The sweep (R156, R161). -/

/-- Clock edges of 8 that a droop step leaves (Table 19.6). -/
def edgesLeft (step : Nat) : Nat := match step with | 0 => 8 | 1 => 7 | 2 => 6 | _ => 4

/-- Periods of the time clock in `n` steps of the learning engine: 16 fabric clocks each (R156), longer under a droop step. -/
def Dev.enginePeriods (d : Dev) (n : Nat) : Nat := n * 256 / edgesLeft (d.obj 0x2000 0x08)

/-- The running flush removes what it takes of the buckets from its pointer up to `hi`, and its pointer moves there. (DESIGN CHOICE: log entry 69.) -/
def Dev.sweepTo (d : Dev) (hi : Nat) : Dev :=
  match d.chart.flushes with
  | [] => d
  | f :: l =>
    let gone := d.chart.mac.filter (fun x => f.takes d.stackId x.2 && decide (f.pos ≤ scanBucket x.1) && decide (scanBucket x.1 < hi))
    let d := gone.foldl (fun d x => let d := d.chartRemove x.1; if entType x.2 = 1 then d.tellRemoval (entKey x.2) else d) d
    d.chartUpd fun x => { x with flushes := { f with pos := max f.pos hi, gone := f.gone + gone.length } :: l }

/-- The sweep of the running flush up to now: it takes every step that the ageing scan and the learn queue have not taken. -/
def Dev.sweepDue (d : Dev) : Dev :=
  match d.chart.flushes with
  | [] => d
  | f :: l =>
    let n := (d.now - f.at_) * edgesLeft (d.obj 0x2000 0x08) / 256
    if ¬ d.dataOn then d.chartUpd fun x => { x with flushes := { f with at_ := d.now } :: l }
    else if n = 0 then d
    else Dev.sweepTo (d.chartUpd fun x => { x with flushes := { f with at_ := f.at_ + d.enginePeriods n } :: l }) (min (f.pos + n) 16385)

/-- The ageing scan or the learn queue has taken `n` steps, which the running flush has not (R156). -/
def Dev.engineTook (d : Dev) (n : Nat) : Dev :=
  match d.chart.flushes with
  | [] => d
  | f :: l => d.chartUpd fun x => { x with flushes := { f with at_ := f.at_ + d.enginePeriods n } :: l }

/-- The running flush has not yet come to a position. -/
def Dev.aheadOfSweep (d : Dev) (p : Nat) : Bool :=
  match d.chart.flushes with
  | [] => false
  | f :: _ => decide (f.pos ≤ scanBucket p)

end Sys2Proof.Machine
end

