-- ==== Sys2Proof/Machine/Times.lean ====
section
/-! DEFINITION. The time of a command, and the waiting commands that share a tick or a cycle with the present one. -/
namespace Sys2Proof.Machine

/-- The time of a command in periods of the time clock. -/
def Instr.time : Instr → Nat
  | .almDoorbell t .. => t
  | .almAck t .. => t
  | .hsRequest t .. => t
  | .hsReplyFetch t .. => t
  | .hsEventCauseRead t .. => t
  | .hsEventCauseClear t .. => t
  | .hsMaskWrite t .. => t
  | .hsMaskRead t .. => t
  | .hsUnknownCommand t .. => t
  | .udpRequest t .. => t
  | .canServiceRequest t .. => t
  | .stackForwardedRequest t .. => t
  | .read t .. => t
  | .write t .. => t
  | .claim t .. => t
  | .electionWindowClose t .. => t
  | .renew t .. => t
  | .release t .. => t
  | .handover t .. => t
  | .leaseExpiry t .. => t
  | .eventBusEvent t .. => t
  | .eventCauseClear t .. => t
  | .hsMaskBarWrite t .. => t
  | .msixUnmask t .. => t
  | .barIgnoredWrite t .. => t
  | .pcieLinkUp t .. => t
  | .pcieLinkDown t .. => t
  | .functionLevelReset t .. => t
  | .d3hotEntry t .. => t
  | .fifoHeadWrite t .. => t
  | .fifoDataWrite t .. => t
  | .fifoEndWrite t .. => t
  | .fifoPopRead t .. => t
  | .fifoFlushWrite t .. => t
  | .fifoFlushTakesEffect t .. => t
  | .fifoPacketToHost t .. => t
  | .fifoCoalescingExpiry t .. => t
  | .fifoPacketFromHost t .. => t
  | .syncReceived t .. => t
  | .followUpReceived t .. => t
  | .announceReceived t .. => t
  | .syncReceiptTimeout t .. => t
  | .announceReceiptTimeout t .. => t
  | .blendEnd t .. => t
  | .revertHoldOffExpiry t .. => t
  | .holdoverLimitExpiry t .. => t
  | .domainEnable t .. => t
  | .zoneSyncInterval t .. => t
  | .announceInterval t .. => t
  | .pdelayInterval t .. => t
  | .pdelayReqReceived t .. => t
  | .pdelayRespReceived t .. => t
  | .snapshot t .. => t
  | .ppsOutEdge t .. => t
  | .ppsOutPulseEnd t .. => t
  | .ppsInEdge t .. => t
  | .plotterEntryFire t .. => t
  | .legEnable t .. => t
  | .legStart t .. => t
  | .swapRequest t .. => t
  | .swapTakesEffect t .. => t
  | .phaseEnable t .. => t
  | .toothEdge t .. => t
  | .phaseStopTimeout t .. => t
  | .ethFrameFirstCell t .. => t
  | .ethFrameEnd t .. => t
  | .macControlReceived t .. => t
  | .pauseExpiry t .. => t
  | .xoffResendTimer t .. => t
  | .fabricMatch t .. => t
  | .mirrorRecord t .. => t
  | .transmitStart t .. => t
  | .transmitUnderrun t .. => t
  | .frameTransmitEnd t .. => t
  | .linkUp t .. => t
  | .linkDown t .. => t
  | .flushComplete t .. => t
  | .holdDownExpiry t .. => t
  | .portEnable t .. => t
  | .peakReset t .. => t
  | .verifyMpacketTimer t .. => t
  | .respondMpacketReceived t .. => t
  | .verifyMpacketReceived t .. => t
  | .thresholdDecay t .. => t
  | .thresholdReset t .. => t
  | .plcaCycleStart t .. => t
  | .beaconReceived t .. => t
  | .beaconTimeout t .. => t
  | .plcaCollision t .. => t
  | .csmaCollision t .. => t
  | .backoffExpiry t .. => t
  | .lineFaultDeclare t .. => t
  | .lineFaultClear t .. => t
  | .cableTestStart t .. => t
  | .cableTestComplete t .. => t
  | .learnEngineInsert t .. => t
  | .ageingScan t .. => t
  | .stashDrain t .. => t
  | .chartFlushByPort t .. => t
  | .chartFlushByFid t .. => t
  | .chartFlushComplete t .. => t
  | .learnMessageReceived t .. => t
  | .removalMessageReceived t .. => t
  | .unlockAll t .. => t
  | .staticEntryEnable t .. => t
  | .seedWrite t .. => t
  | .ruleEnable t .. => t
  | .learningEnable t .. => t
  | .portNodeEnable t .. => t
  | .policerMode t .. => t
  | .samplerVisit t .. => t
  | .histogramClear t .. => t
  | .canEnable t .. => t
  | .canStop t .. => t
  | .canStopComplete t .. => t
  | .canIntegrationComplete t .. => t
  | .canFrameReceived t .. => t
  | .canFrameStart t .. => t
  | .canAttemptEnd t .. => t
  | .canArbitrationLost t .. => t
  | .canBusError t .. => t
  | .protocolException t .. => t
  | .busOffRecovery t .. => t
  | .canBufferCancel t .. => t
  | .timeMasterEnable t .. => t
  | .transceiverSettlingEnd t .. => t
  | .linStop t .. => t
  | .linTableRequest t .. => t
  | .linSlotStart t .. => t
  | .linHeaderReceived t .. => t
  | .linResponseSend t .. => t
  | .linFrameComplete t .. => t
  | .linFrameTimeLimit t .. => t
  | .linWakeSignalReceived t .. => t
  | .transceiverScriptRequest t .. => t
  | .transceiverScriptComplete t .. => t
  | .wakeInputWake t .. => t
  | .wakeInputTestStart t .. => t
  | .wakeInputTestEnd t .. => t
  | .wakeInputStuck t .. => t
  | .rosePduJob job => job.time
  | .roseUnpackJob t .. => t
  | .roseEmissionJob t .. => t
  | .containerCollectionExpiry t .. => t
  | .deferredChangeRelease t .. => t
  | .freshnessExpiry t .. => t
  | .definitionEnable t .. => t
  | .signalEnable t .. => t
  | .routeEnable t .. => t
  | .containerEnable t .. => t
  | .stackLinkLock t .. => t
  | .stackLinkLockLoss t .. => t
  | .helloSend t .. => t
  | .helloReceived t .. => t
  | .helloTimeout t .. => t
  | .rejoinComplete t .. => t
  | .memberAdmit t .. => t
  | .stackWriteCheck t .. => t
  | .stackWriteCommit t .. => t
  | .ownershipStateMessage t .. => t
  | .timeMessageSend t .. => t
  | .timeMessageReceived t .. => t
  | .timeMessageLoss t .. => t
  | .linkDelayRoundTrip t .. => t
  | .pathChangeHoldEnd t .. => t
  | .bridgePostedWriteIssue t .. => t
  | .bridgeReadIssue t .. => t
  | .bridgeRequestExecute t .. => t
  | .bridgeReadCompletion t .. => t
  | .bridgeWriteErrorReport t .. => t
  | .bridgeReadTimeout t .. => t
  | .bridgeLogClear t .. => t
  | .nmPduReceived t .. => t
  | .readySleepExpiry t .. => t
  | .nmCycle t .. => t
  | .lastCallNotSent t .. => t
  | .lastCallWindowClose t .. => t
  | .busWake t .. => t
  | .maxAwakeExceeded t .. => t
  | .hostNeed t .. => t
  | .managementSwitch t .. => t
  | .clearIgnoreList t .. => t
  | .stateCommandWatch t .. => t
  | .stateCommandStandby t .. => t
  | .stateCommandPartial t .. => t
  | .stateCommandRun t .. => t
  | .powerDomainRampEnd t .. => t
  | .acknowledgeTimeExpiry t .. => t
  | .runReqRise t .. => t
  | .runReqFall t .. => t
  | .vaonPowerOn t .. => t
  | .vaonRemoval t .. => t
  | .mainPgRise t .. => t
  | .brownout t .. => t
  | .referenceValid t .. => t
  | .corePllsLocked t .. => t
  | .referenceLoss t .. => t
  | .resetNAssert t .. => t
  | .coreResetRelease t .. => t
  | .rootReadRetry t .. => t
  | .identityKeyReady t .. => t
  | .droopThresholdCrossing t .. => t
  | .droopStepRecovery t .. => t
  | .lockstepMismatch t .. => t
  | .pairRestartComplete t .. => t
  | .importBlobSet t .. => t
  | .importBlobErase t .. => t
  | .importBlobSetInClear t .. => t
  | .discardStaging t .. => t
  | .keyStoreCommit t .. => t
  | .keyStoreCommitEnd t .. => t
  | .attestationChallenge t .. => t
  | .identitySignRequest t .. => t
  | .slotDerive t .. => t
  | .randomHealthFailure t .. => t
  | .macsecSaEnable t .. => t
  | .activeAnWrite t .. => t
  | .macsecEnable t .. => t
  | .transferStartFirmware t .. => t
  | .transferStartAlmanac t .. => t
  | .blockQuarterWrite t .. => t
  | .blockCheckValue t .. => t
  | .transferVerifyComplete t .. => t
  | .transferActivate t .. => t
  | .transferAbandon t .. => t
  | .trialMinute t .. => t
  | .healthConditionsHeld t .. => t
  | .confirmWrite t .. => t
  | .correctedWriteback t .. => t
  | .mergeEntryRetire t .. => t
  | .patrolRead t .. => t
  | .clearCorrectionTable t .. => t
  | .softwareScrubStart t .. => t
  | .softwareScrubComplete t .. => t
  | .testWindowOpen t .. => t
  | .rawWrite t .. => t
  | .rawRead t .. => t
  | .decodeRead t .. => t
  | .soundingStart t .. => t
  | .soundingBlockEnd t .. => t
  | .saveBufferRelease t .. => t
  | .startupSoundingComplete t .. => t
  | .replayStart t .. => t
  | .replayFrameSend t .. => t
  | .wakeInputRelease t .. => t
  | .vbatsenseSample t .. => t
  | .forwardedReplyReceived t .. => t
  | .memberAnswerReceived t .. => t

/-- Waiting commands of the present tick: those at the front of the queue whose time falls in it. A tick is `n` periods of the time clock, aligned to local time. (DESIGN CHOICE: log entries 159, 182.) -/
def State.tick (s : State) (d : Dev) (n : Nat := 1) : List Instr := s.pending.takeWhile (fun c => decide ((Instr.time c - d.ltEpoch) / n ≤ d.lt / n))

/-- A waiting command is of the present cycle: the event bus has still to hear it (R28). -/
def State.follows (s : State) (d : Dev) : Bool := match s.pending with | c :: _ => decide (Instr.time c ≤ d.now) | [] => false

end Sys2Proof.Machine
end

