-- ==== Sys2Proof/Machine/Flags.lean ====
section
/-! DEFINITION. The event bus, the event log, EVENT_CAUSE, MSI-X and HS_INT (R28, R335, R336, R471), and the frame in which every command runs. -/
namespace Sys2Proof.Machine

/-- Event code as software reads it: the manual's number, or a free value for an event without one. -/
def EvCode.value : EvCode → Nat
  | .code n => n
  | .kind n => Config.eventCode n % 65536

/-- The 32-byte record of an event (Table 18.5). -/
def EvRec.bytes (e : EvRec) : Bytes :=
  beBytes 12 (time96 (lt16 e.lt)) ++ [BitVec.ofNat 8 e.source, 0] ++ beBytes 2 e.code.value ++ (e.path ++ [0, 0, 0, 0]).take 4 ++
    ((if e.data = [] then Config.eventData e.code.value e.lt else e.data) ++ List.replicate 12 0).take 12

/-- HS_INT is asserted while an unmasked cause is set and `A:9002.01` is true (R335). -/
def Dev.hsInt (d : Dev) : Bool := (d.ev.cause &&& ~~~ d.ev.hsMask) != 0 && d.flag 0x9002 0x01

/-- Send the MSI-X message of a vector, or set its PBA bit while it is masked (R336). -/
def Dev.msix (d : Dev) (v : Nat) : Dev :=
  if d.ev.msixMask.getLsbD v then d.evUpd fun x => { x with pba := d.ev.pba ||| BitVec.ofNat 64 (2 ^ v) }
  else
    let e := tget (fun _ => (0, 0)) d.ev.targets v
    ((d.out (.msix v e.1 e.2)).inc 0x9001 0x01 0 v).inc64 0x9000 0x0A

/-- An event of a vector's source arrives: the cause bit is set, and a message follows a change from 0 to 1 (R336). -/
def Dev.raise (d : Dev) (v : Nat) : Dev :=
  let was := d.ev.cause.getLsbD v
  let d := d.evUpd fun x => { x with cause := d.ev.cause ||| BitVec.ofNat 64 (2 ^ v) }
  if was then d else d.msix v

/-- Start or end the post-trigger count of the frame recorder (R472). -/
def Dev.trigger (d : Dev) (code : Nat) : Dev :=
  if d.obj 0xD020 0x01 = 2 ∧ d.obj 0xD020 0x05 = 1 ∧ d.obj 0xD020 0x03 = code then
    let n := d.obj 0xD020 0x04
    let d := { d with integ := { d.integ with postTrigger := n } }
    d.set 0xD020 0x05 (if n = 0 then 3 else 2)
  else d

/-- Write an event into the event log ring, overwriting the oldest record of a full ring (R471). -/
def Dev.logEvent (d : Dev) (e : EvRec) : Dev :=
  let d := d.inc64 0xD000 0x02
  if d.flag 0xD000 0x01 then
    let d := if d.ev.log.length ≥ 2048 then d.inc64 0xD000 0x03 else d
    d.evUpd fun x => { x with log := e :: d.ev.log.take 2047 }
  else d

/-- One event reaches the Logbook and the MSI-X logic. -/
def Dev.deliver (d : Dev) (e : EvRec) : Dev :=
  let d := d.logEvent e
  let d := if d.obj 0xD020 0x01 = 2 then d.trigger e.code.value else d
  match e.vector with
  | some v => d.raise v
  | none => d

/-- Deliver the events of the cycle. -/
def Dev.settle (d : Dev) : Dev := d.ev.arrivals.foldl Dev.raise (d.ev.bus.foldl Dev.deliver (d.evUpd fun x => { x with bus := [], arrivals := [] }))

/-- Slots whose lines were lost are rebuilt; one that cannot be stays empty and raises vector 20 (R407). (DESIGN CHOICE: log entry 179.) -/
def Dev.slotsDue (d : Dev) : Dev :=
  (d.bin.lost.filter (fun x => x.2 ≤ d.now)).foldl (fun d x =>
    match d.rebuiltKey x.1 with
    | some k => (d.binUpd fun y => { y with keys := tput (fun _ => []) y.keys x.1 k, lost := y.lost.filter (fun z => z.1 != x.1) }).inc 0xB000 0x09
    | none => (d.clearSlot x.1).event 8 (some 20) Ev.slotLost.code 0 (beBytes 1 x.1)) d

/-- What time alone brings about up to now. (DESIGN CHOICE: log entry 3.) -/
def Dev.catchUp (d : Dev) : Dev := d.fabricClock.gatesDue.windowsDue.fragmentsDue.phasesDue.sweepDue.slotsDue

/-- The CORE domain runs: the device is neither Off nor in Watch, and the CORE reset is released (Table 1.9, R489). -/
def Dev.coreOn (d : Dev) : Bool := decide (d.watch.stage = 0) && !d.watch.inWatch && !d.watch.off

/-- The end of a command: the event bus delivers the events of the cycle in the order of R28 once no waiting command is of that cycle; while the CORE domain is off they reach nobody. (DESIGN CHOICE: log entry 16.) -/
def State.close (s : State) (d : Dev) : Dev :=
  if ¬ d.coreOn then d.evUpd fun x => { x with bus := [], arrivals := [] } else if s.follows d then d else d.settle

/-- The frame of every command of the CORE domain: operands that name nothing stop it; otherwise time passes up to `t` and, while the CORE domain runs, the effect happens and the events of the cycle are delivered. The queue of waiting commands is left alone. (DESIGN CHOICE: log entries 2, 6.) -/
def State.cmd (s : State) (t : Nat) (ok : Bool) (f : Dev → Dev) : Host.Outcome State Fault Refusal :=
  if ok then
    let d := (s.dev.advance t).catchUp
    .next { s with dev := s.close (if d.coreOn then f d else d) }
  else .fault .illFormed

/-- The frame of the commands that the always-on domain takes in every device state but Off (R386, R397). -/
def State.aon (s : State) (t : Nat) (ok : Bool) (f : Dev → Dev) : Host.Outcome State Fault Refusal :=
  if ok then
    let d := (s.dev.advance t).catchUp
    .next { s with dev := s.close (if d.watch.off then d else f d) }
  else .fault .illFormed

end Sys2Proof.Machine
end

