-- ==== Sys2Proof/Machine/CanBuf.lean ====
section
/-! DEFINITION. The CAN service's way to its transmit buffer (R51, R65, R235). -/
namespace Sys2Proof.Machine

/-- Channel state (Table 9.4). -/
def Dev.canState (d : Dev) (u : Nat) : Nat := d.obj 0x6010 0x04 u

/-- The Rose treats a segment in GOING TO SLEEP as SLEEPING (R384). -/
def Dev.goingToSleep (d : Dev) (u : Nat) : Bool := d.obj 0xA020 0x0C u == 6

/-- Blocks that a frame's payload takes (R234). -/
def canBlocks (f : CanFrame) : Nat := max 1 (cdiv f.data.length 64)

/-- Buffers of an owner. -/
def Dev.ownerBufs (d : Dev) (u o : Nat) : List Nat := (List.range 32).filter (fun b => d.obj 0x6020 0x01 u b == o)

/-- Put content into a buffer. -/
def Dev.bufFill (d : Dev) (u b : Nat) (f : CanFrame) (copyOf : Option Nat) : Dev :=
  (((d.set 0x6020 0x05 f.ident u b).set 0x6020 0x0B (canBlocks f) u b).set 0x6020 0x08 (b2n copyOf.isSome) u b).setBuf u b { frame := f, copyOf := copyOf }

/-- The channel takes no load: STOPPED, SLEEPING, going to sleep or without power (R284, R384). -/
def Dev.canShut (d : Dev) (u : Nat) : Bool :=
  d.canState u == 0 || d.canState u == 5 || d.goingToSleep u || !d.unitPowered u

/-- One reply record as a frame of a channel's mode: an FD frame in the 29-bit format with BRS set, padded with zeros to the next length of FD, or an XL frame whose 11-bit identifier is the low part of the response identifier. (DESIGN CHOICE: log entries 186, 187.) -/
def Dev.canReply (d : Dev) (u id : Nat) (rec : Bytes) : CanFrame :=
  let size : Nat := ([20, 24, 32, 48, 64].find? (rec.length ≤ ·)).getD 64
  if d.obj 0x6010 0x02 u = 2 then { ident := 2 ^ 31 + id % 2 ^ 11, data := rec, brs := true }
  else { ident := 2 ^ 30 + 2 ^ 29 + id, data := rec ++ List.replicate (size - rec.length) 0, brs := true }

/-- A reply of the CAN service goes into its buffer when that is EMPTY, and waits while it is not; on a channel that is STOPPED or SLEEPING, or without the buffer, it is dropped. (DEDUCED: log entry 81.) -/
def Dev.canPut (d : Dev) (x : Nat × Nat × Bytes) : Dev :=
  let u := uC x.1
  if 24 ≤ x.1 ∨ d.canShut u then d
  else match (d.ownerBufs u 2).head? with
    | none => d
    | some b =>
      if d.bufState u b ≠ 0 then d.almUpd fun a => { a with canOut := a.canOut ++ [x] }
      else (d.bufFill u b (d.canReply u x.2.1 x.2.2) none).bufArm u b false

/-- Offer every waiting reply of the CAN service to its buffer in the order in which they were made, on the channel and with the identifier in force then (R51, R65, R235). (DEDUCED: log entry 81; DESIGN CHOICE: log entries 186, 187.) -/
def Dev.canPump (d : Dev) : Dev := d.alm.canOut.foldl Dev.canPut (d.almUpd fun x => { x with canOut := [] })

end Sys2Proof.Machine
end

