-- ==== Sys2Proof/Machine/Service.lean ====
section
/-! DEFINITION. The five Almanac services: request records, replies and their queues (R45, R48 to R53, R333, R334). -/
namespace Sys2Proof.Machine

/-! Fields of a request record (Table 2.3). -/

/-- Opcode of a record. -/
def recOp (b : Bytes) : Nat := byteAt b 0
/-- Index of a record. -/
def recIndex (b : Bytes) : Nat := field b 4 2
/-- Subindex of a record. -/
def recSub (b : Bytes) : Nat := byteAt b 6
/-- Path of a record. -/
def recPath (b : Bytes) : Bytes := slice b 8 4
/-- Record number of a record. -/
def recRecord (b : Bytes) : Nat := field b 12 2
/-- Declared data length of a record. -/
def recLen (b : Bytes) : Nat := field b 16 2
/-- Data of a record. -/
def recData (b : Bytes) : Bytes := slice b 20 (recLen b)

/-- Header bytes of a request as a reply copies them; a byte that never arrived is a free value. (DESIGN CHOICE: log entry 21.) -/
def copied (b : Bytes) (off n : Nat) : Bytes := (List.range n).map (fun i => b.getD (off + i) (Config.missingHeader b (off + i)))

/-- One reply record (R45). -/
def replyRecord (b : Bytes) (more : Bool) (status : Nat) (data : Bytes) : Bytes :=
  copied b 0 1 ++ [BitVec.ofNat 8 (1 + 2 * b2n more)] ++ copied b 2 5 ++ [0] ++ copied b 8 6 ++ beBytes 2 status ++ beBytes 2 data.length ++ [0, 0] ++ data

/-- Largest data of one reply record to a request: on CAN one frame of the channel's mode (Table 2.6). -/
def Request.room (q : Request) : Nat := if q.svc = .can ∧ ¬ q.xl then 44 else 1024

/-- The records of a reply; all but the last carry flag [1] (R46). -/
def segments (b : Bytes) (status room : Nat) : Nat → Bytes → List Bytes
  | 0, data => [replyRecord b false status data]
  | n + 1, data =>
    if data.length ≤ room then [replyRecord b false status data]
    else replyRecord b true status (data.take room) :: segments b status room n (data.drop room)

/-- A record for the host over PCIe: ALM_REPLY with cause 0, or the queue behind an unacknowledged record; a NOTIFY also raises cause 1 (R334). (DESIGN CHOICE: log entry 28.) -/
def Dev.replyPcie (d : Dev) (rec : Bytes) (notify : Bool) : Dev :=
  if d.alm.reply.isSome then d.almUpd fun x => { x with replyQueue := x.replyQueue ++ [(rec, notify)] }
  else
    let d := (d.almUpd fun x => { x with reply := some rec }).signal 0
    if notify then d.signal 1 else d

/-- The frame of a UDP reply: tagged as `A:1040.03` says, IPv4 for an IPv4-mapped address (R50). (DESIGN CHOICE: log entry 185.) -/
def Dev.udpFrame (d : Dev) (addr port : Nat) (rec : Bytes) : Bytes :=
  let n := rec.length
  let v4 : Bool := addr / 2 ^ 32 == 0xFFFF
  let vlan := d.obj 0x1040 0x03
  let ip : Bytes := if v4 then [8, 0] ++ Config.udpPart 1 addr n 16 ++ beBytes 4 addr else [0x86, 0xDD] ++ Config.udpPart 1 addr n 24 ++ beBytes 16 addr
  Config.udpPart 0 addr n 12 ++ (if vlan = 0 then [] else [0x81, 0] ++ beBytes 2 vlan) ++ ip ++
    beBytes 2 (d.obj 0x1040 0x02) ++ beBytes 2 port ++ beBytes 2 (n + 8) ++ Config.udpPart 2 addr n 2 ++ rec

/-- A frame of the control processors that the Chart is to decide as one of record 24 waits for its cell slots at FP11 (R21, R128). -/
def Dev.offerChart (d : Dev) (b : Bytes) : Dev :=
  let f : Frame := {
    id := 0, port := 24, data := b, len := b.length + 4, cls := 0, vid := 0, pcp := 0, dei := false, tagged := false, oversize := false,
    multi := false, ptpEvent := false, stamp := 0, rule := none, smem := d.stackId, sport := 24, whole := true }
  { d with fab := { d.fab with fromCp := d.fab.fromCp ++ [f] } }

/-- Send one record to a source on the service that reaches it (R50 to R53). (DEDUCED: log entry 81.) -/
def Dev.sendRecord (d : Dev) (origin : Option Nat) (svc : Service) (src : Source) (notify : Bool) (rec : Bytes) : Dev :=
  match origin with
  | some m => d.sendTo m (.forwardedReply m svc src rec)
  | none =>
    match svc with
    | .pcie => d.replyPcie rec notify
    | .hs =>
      let d := d.almUpd fun x => { x with hsReplies := x.hsReplies ++ [rec] }
      if notify then d.signal 1 else d
    | .can => (d.almUpd fun x => { x with canOut := x.canOut ++ [(d.obj 0x1040 0x04, d.obj 0x1040 0x07, rec)] }).canPump
    | .udp =>
      match src with
      | .udp addr port => (d.out (.record svc src rec)).offerChart (d.udpFrame addr port rec)
      | _ => d.out (.record svc src rec)
    | .stack => d.out (.record svc src rec)

/-- Answer a request (R45, R46). -/
def Dev.reply (d : Dev) (q : Request) (status : Nat) (data : Bytes := []) : Dev :=
  (segments q.bytes status q.room data.length data).foldl (fun d r => d.sendRecord q.origin q.svc q.src false r) d

/-- A control-processor pair runs, so that its services go on (Table 1.5). -/
def Dev.pairRuns (d : Dev) (p : Nat) : Bool := (tget (fun _ => {}) d.pairs p).state == 0

/-- A request goes on to the lead with the member at which it arrived, so that its reply takes the same way back (R52); `old` says that it stood in the queue of a lead that has changed (R356). (DEDUCED: log entries 197, 213.) -/
def Dev.forwardOn (d : Dev) (q : Request) (old : Bool := false) : Dev := d.sendTo (d.obj 0x9400 0x04) (.forward (q.origin.getD d.stackId) q.svc q.src q.xl old q.bytes)

/-- This member answers a check or a commit of the lead (R361). -/
def Dev.answerLead (d : Dev) (status : Nat) (path : Bytes) : Dev := d.sendTo (d.obj 0x9400 0x04) (.answer status path)

/-- This member is the lead, whose server alone serves requests (R52, R356). (DESIGN CHOICE: log entry 29.) -/
def Dev.isLead (d : Dev) : Bool := d.obj 0x9400 0x04 == d.stackId

/-- Place of a request in the queue: at its end, but a request of the old lead's queue stands before every request that is none, save the one in service (R356). (DEDUCED: log entry 213.) -/
def Dev.enqueue (d : Dev) (q : Request) : List Request :=
  let n := if d.alm.waiting then 1 else 0
  let rest := d.alm.queue.drop n
  if q.old then d.alm.queue.take n ++ rest.filter (·.old) ++ [q] ++ rest.filter (fun x => !x.old) else d.alm.queue ++ [q]

/-- A request arrives at this member (R48, R52): forwarded to the lead, answered S-0403 when the queue is full and CP0 runs, or queued. A request that another member has forwarded keeps that member as its origin, and whether its CAN channel is in XL mode. A write of `A:1040` that goes on to the lead is remembered until its reply comes back (R65). (DESIGN CHOICE: log entry 29.) -/
def Dev.arrive (d : Dev) (svc : Service) (src : Source) (b : Bytes) (from_ : Option Forwarded := none) : Dev :=
  let q : Request := {
    svc := svc
    src := src
    arrived := d.now
    bytes := b
    origin := (from_.map (·.member)).filter (fun m => m != d.stackId)
    old := (from_.map (·.old)).getD false
    xl := (from_.map (·.xl)).getD (d.obj 0x6010 0x02 (uC (d.obj 0x1040 0x04)) == 2) }
  if ¬ d.isLead then
    let d := if from_.isNone && recOp b == 2 && recIndex b == 0x1040 then d.almUpd fun x => { x with settings := x.settings ++ [(b, false)] } else d
    d.forwardOn q
  else if 64 ≤ d.alm.queue.length then (if d.pairRuns 0 then (d.inc 0x1041 0x07).reply q 0x403 else d)
  else d.almUpd fun x => { x with queue := d.enqueue q }

/-- The request in service has been answered and leaves the queue (R48). -/
def Dev.served (d : Dev) : Dev := d.almUpd fun x => { x with queue := x.queue.drop 1, waiting := false, stackWrite := none }

/-- Answer the request in service and take the next. -/
def Dev.finish (d : Dev) (status : Nat) (data : Bytes := []) : Dev :=
  match d.alm.queue with
  | q :: _ => (d.reply q status data).served
  | [] => d

/-- Every member that a committed write waits for has answered or is lost, and one has taken it (R361, R363). -/
def Dev.membersReady (d : Dev) : Bool :=
  match d.alm.stackWrite with
  | some w => w.committed && w.taken && !(w.waitFor.any d.memberPresent)
  | none => true

/-- No channel that a write stops is still in a frame, no MAC that a write sets is, no written flush runs, no power domain ramps and no member has still to answer: the write in service may be answered (R27, R49, R161, R233, R361, R480). -/
def Dev.writeReady (d : Dev) : Bool :=
  !(d.chans.any (fun x => x.2.stopping)) && !(d.lins.any (fun x => x.2.stopping)) && d.chart.flushes.all (·.holdDown) && d.chart.held.isEmpty && d.pow.ramp.isEmpty &&
    d.linesReady && d.membersReady

/-- Answer the write in service, or a commit of the lead, once what it waits for has happened; a stopped CP0 answers nothing (Table 1.5). -/
def Dev.finishIfReady (d : Dev) : Dev :=
  if ¬ d.pairRuns 0 then d
  else
    let d := if d.alm.waiting && d.writeReady then d.finish 0 else d
    if d.alm.answerDue && d.writeReady then (d.answerLead 0 []).almUpd fun x => { x with answerDue := false } else d

/-- VBATSENSE in mV: the mean of the last 16 samples. (DESIGN CHOICE: log entry 136.) -/
def Dev.vbat (d : Dev) : Nat := d.flash.samples.sum / max 1 d.flash.samples.length

/-! Health of a trial (R449). -/

/-- The boot record in force; both copies erased read as the record of R431. -/
def Dev.bootRec (d : Dev) : BootRec := d.flash.boot.getD {}

/-- The conditions of R449 but the owner's hold now. -/
def Dev.healthNow (d : Dev) : Bool :=
  d.obj 0xB840 0x01 != 0 && [0, 1, 2, 3].all d.pairRuns && d.obj 0xB800 0x0D == 0 && d.obj 0xB000 0x01 == 3 && d.flag 0xC040 0x07

/-- The unbroken time of the conditions starts when they hold. -/
def Dev.healthStart (d : Dev) : Dev :=
  if ¬ d.healthNow then d.flashUpd fun x => { x with healthy := none }
  else if d.flash.healthy.isSome then d
  else d.flashUpd fun x => { x with healthy := some d.now }

end Sys2Proof.Machine
end

