-- ==== Sys2Proof/Machine/Ties.lean ====
section
/-! DEFINITION. Ties: what R11 says of a timer that expires in the tick in which the event it awaits arrives, and the cycle of a memory's port that a command takes (R33). -/
namespace Sys2Proof.Machine

/-- The frame of a timer's expiry: when an event that the timer awaits arrives in the tick of the expiry, the event wins and the expiry is suppressed (R11). -/
def State.timer (s : State) (t : Nat) (ok : Bool) (awaits : Dev → Instr → Bool) (f : Dev → Dev) (n : Nat := 1) : Host.Outcome State Fault Refusal :=
  s.cmd t ok fun d => if (s.tick d n).any (awaits d) then d else f d

/-- As `State.timer`, for a timer of the always-on domain. -/
def State.aonTimer (s : State) (t : Nat) (ok : Bool) (awaits : Dev → Instr → Bool) (f : Dev → Dev) (n : Nat := 1) : Host.Outcome State Fault Refusal :=
  s.aon t ok fun d => if (s.tick d n).any (awaits d) then d else f d

/-- Ports of memories serve a request in this cycle of 1.6 ns (R33). (DESIGN CHOICE: log entry 182.) -/
def Dev.usePorts (d : Dev) (mems : List Nat) : Dev :=
  { d with integ := { d.integ with served := mems.foldl (fun l m => tput (fun _ => 0) l m (d.lt / 2 + 1)) d.integ.served } }

/-- The frame of a command that takes a cycle of the ports of memories (R33). -/
def State.portCmd (s : State) (t : Nat) (mems : List Nat) (ok : Bool) (f : Dev → Dev) : Host.Outcome State Fault Refusal :=
  s.cmd t ok fun d => (f d).usePorts mems

end Sys2Proof.Machine
end

