-- ==== Sys2Proof/Machine/Chart.lean ====
section
/-! DEFINITION. The Chart: MAC table, learning, ageing, flushes and the forwarding decision (R143 to R172). -/
namespace Sys2Proof.Machine

/-- A bucket that retirement has removed. -/
def Dev.bucketGone (d : Dev) (t b : Nat) : Bool := tget (fun _ => false) d.chart.gone (t * 8192 + b)

/-- Positions of the ways of a key's bucket in table `t` that still exist. -/
def Dev.ways (d : Dev) (t key : Nat) : List Nat :=
  let b := d.bucket t key
  if d.bucketGone t b then [] else (List.range 4).map (wayPos t b)

/-- A position that holds an entry with the key. -/
def Dev.holds (d : Dev) (key p : Nat) : Bool := d.mac p != 0 && entKey (d.mac p) == key && entType (d.mac p) != 0

/-- Where a key is present, leaving out the tables of `bad` whose bucket read is uncorrectable (R151, Table 18.2). -/
def Dev.chartFind (d : Dev) (key : Nat) (bad : List Nat := []) : Option Nat :=
  ((if bad.contains 0 then [] else d.ways 0 key) ++ (if bad.contains 1 then [] else d.ways 1 key) ++
    (List.range 64).map (stashBase + ·)).find? (d.holds key)

/-- Local-time seconds. -/
def Dev.ltSec (d : Dev) : Nat := d.lt / perS

/-- Entries in the stash. -/
def Dev.stashUse (d : Dev) : Nat := (d.chart.mac.filter (fun x => stashBase ≤ x.1)).length

/-- One more displacement in a chain of `n` (R152). -/
def Dev.displaced (d : Dev) (n : Nat) : Dev := (d.inc64 0x3000 0x07).peak 0x3000 0x08 n

/-- Write an entry to the lowest empty way of its bucket in table `t`, when there is one. -/
def Dev.fillWay (d : Dev) (t e : Nat) : Option Dev :=
  ((d.ways t (entKey e)).find? (fun p => d.mac p == 0)).map (fun p => d.setMac p e)

/-- A running flush has still to take an entry displaced from a position, and its other bucket lies behind the pointer. (DESIGN CHOICE: log entry 211.) -/
def Dev.leavesNow (d : Dev) (p e : Nat) : Bool :=
  match d.chart.flushes with
  | f :: _ => f.takes d.stackId e && d.aheadOfSweep p && decide (32768 ≤ p ∧ p < stashBase) && decide (d.bucket 0 (entKey e) < f.pos)
  | [] => false

/-- A displaced entry leaves in the running flush: behind the pointer the sweep would miss it. -/
def Dev.sweptEntry (d : Dev) (e : Nat) : Dev :=
  let d := d.chartUpd fun x => { x with flushes := match x.flushes with | f :: l => { f with gone := f.gone + 1 } :: l | [] => [] }
  if entType e = 1 then d.tellRemoval (entKey e) else d

/-- The relocation of R152 from displacement `16 - n + 1` on: entry in hand, table, and the path of positions and victims, last first; false when it ends FULL. -/
def Dev.relocate (d : Dev) (cur t : Nat) (path : List (Nat × Nat)) : Nat → Dev × Bool
  | 0 =>
    match ((List.range 64).map (stashBase + ·)).find? (fun p => d.mac p == 0) with
    | some p =>
      let d := d.setMac p cur
      (d.peak 0x3000 0x06 d.stashUse, true)
    | none =>
      let d := path.foldl (fun d x => d.setMac x.1 x.2) d
      ((d.inc 0x3000 0x09).event 4 (some 6) Ev.chartFull.code, false)
  | n + 1 =>
    let b := d.bucket t (entKey cur)
    if d.bucketGone t b then d.relocate cur (1 - t) path n
    else
      let w := if t = 0 then d.chart.vway0 else d.chart.vway1
      let d := d.chartUpd fun x => if t = 0 then { x with vway0 := (w + 1) % 4 } else { x with vway1 := (w + 1) % 4 }
      let p := wayPos t b w
      let hold := d.mac p
      let d := (d.setMac p cur).displaced (16 - n)
      if d.leavesNow p hold then (d.sweptEntry hold, true)
      else match d.fillWay (1 - t) hold with
      | some d => (d, true)
      | none => d.relocate hold (1 - t) ((p, hold) :: path) n

/-- insert(e) of R152; false when it returns FULL. (DESIGN CHOICE: log entry 68.) -/
def Dev.chartInsert (d : Dev) (e : Nat) : Dev × Bool :=
  match d.chartFind (entKey e) with
  | some p => (d.setMac p e, true)
  | none =>
    match d.fillWay 0 e with
    | some d => (d, true)
    | none =>
      match d.fillWay 1 e with
      | some d => (d, true)
      | none => d.relocate e 0 [] 16

/-! The stack's learning (R162 to R164). -/

/-- Send a learn message to the other members in shared mode (R162). -/
def Dev.tellLearn (d : Dev) (key dest : Nat) (stamp : Int) : Dev := d.tellStack fun k => .learn k d.stackId key dest stamp

/-- Remember a key that this member has learned or moved, by its own frame or by a message of a member (R163). (DESIGN CHOICE: log entry 70.) -/
def Dev.remember (d : Dev) (q : LearnReq) : Dev :=
  let key := q.key
  let r : Recent := { key := key, stamp := q.stamp, member := q.msgFrom.getD d.stackId, at_ := d.now }
  d.chartUpd fun y => { y with recent := (r :: d.chart.recent.filter (fun x => x.key ≠ key)).take 256 }

/-! The learning engine (R156, R158, R159). -/

/-- An age refresh of the entry at a position (R157). -/
def Dev.chartRefresh (d : Dev) (p : Nat) : Dev :=
  let e := d.mac p
  let s := d.ltSec % 2 ^ 17
  if entAge e = s then d
  else
    let e := setField e 76 60 s
    d.setMac p (if entLock e then e else setField e 84 77 0)

/-- A learn message has been applied. -/
def Dev.msgApplied (d : Dev) (q : LearnReq) : Dev := if q.msgFrom.isSome then d.inc64 0x3008 0x02 else d

/-- A move of the entry at a position, or its lock (R159). -/
def Dev.chartMove (d : Dev) (p : Nat) (q : LearnReq) : Dev :=
  let e := d.mac p
  let s := d.ltSec % 2 ^ 17
  let moves := if entAge e = s then entMoves e else 0
  if moves + 1 ≤ d.obj 0x3005 0x01 then
    let e := setField (setField (setField (setField e 76 60 s) 84 77 (moves + 1)) 95 85 q.dest) 102 101 (if q.remote then 2 else 1)
    let d := (((d.setMac p e).inc64 0x3005 0x04).remember q).msgApplied q
    if q.remote then d else d.tellLearn q.key q.dest q.stamp
  else
    let e := setField (setField e 84 77 (d.ltSec % 256)) 100 100 1
    ((d.setMac p e).inc 0x3005 0x05).event 4 (some 6) Ev.chartLock.code

/-- A learn message that the recent-learn table holds back (R163). -/
def Dev.stale (d : Dev) (q : LearnReq) : Bool :=
  match q.msgFrom with
  | none => false
  | some m => d.chart.recent.any (fun r => r.key == q.key && decide (d.now < r.at_ + perMs) &&
      !(decide (r.stamp < q.stamp) || (r.stamp == q.stamp && decide (m < r.member))))

/-- The engine serves one request of the learn queue. -/
def Dev.chartServe (d : Dev) (q : LearnReq) : Dev :=
  if d.stale q then d.inc 0x3008 0x03
  else
    match d.chartFind q.key with
    | some p =>
      let e := d.mac p
      if entType e = 3 then (if entDest e = q.dest then d.msgApplied q else d.inc 0x3005 0x06)
      else if entDest e = q.dest then (if q.msgFrom.isSome ∧ entLock e then d.inc 0x3005 0x06 else (d.chartRefresh p).msgApplied q)
      else if entLock e then d.inc 0x3005 0x06
      else d.chartMove p q
    | none =>
      let e := mkEntry q.key d.ltSec 0 q.dest 0 (if q.remote then 2 else 1)
      match d.chartInsert e with
      | (d, false) => d
      | (d, true) =>
        let d := ((d.inc64 0x3004 0x02).remember q).msgApplied q
        if q.remote then d else d.tellLearn q.key q.dest q.stamp

/-- The engine has neither a request nor a flush (R154, R156). -/
def Dev.engineIdle (d : Dev) : Bool := d.chart.queue.isEmpty && d.chart.flushes.isEmpty

/-- Rounds of 16 engine steps that have passed since a time (R156). -/
def Dev.rounds (d : Dev) (since : Nat) : Nat := (d.now - since) / d.enginePeriods 16

/-- Put a request into the learn queue (R156). -/
def Dev.chartRequest (d : Dev) (q : LearnReq) : Dev :=
  if ¬ d.flag 0x3004 0x01 then d
  else if 256 ≤ d.chart.queue.length then d.inc 0x3004 0x03
  else
    let d := d.chartUpd fun x =>
      { x with queue := d.chart.queue ++ [q], learnAt := if d.chart.queue.isEmpty then d.now else x.learnAt, scanAt := if d.engineIdle then d.now else x.scanAt }
    d.peak 0x3000 0x0B d.chart.queue.length

/-- Steps of the engine for a request served between two states (R156): 2 for an insertion and 1 for every displacement and its unwinding, else 1. -/
def engineSteps (a b : Dev) (q : LearnReq) : Nat :=
  let m := b.obj 0x3000 0x07 - a.obj 0x3000 0x07
  let full := b.obj 0x3000 0x09 - a.obj 0x3000 0x09
  if (a.chartFind q.key).isSome then 1 else 2 + m + m * full

/-- LEARN_ENGINE_INSERT (R152, R156, R158, R159): while a flush runs the learn queue has one step of each round, so that a request is done once it has had a round for each of its steps. (DESIGN CHOICE: log entry 68.) -/
def execLearnEngineInsert (t : Nat) (s : State) : Host.Outcome State Fault Refusal :=
  s.portCmd t [1] true fun d =>
    match d.chart.queue with
    | [] => d
    | q :: l =>
      let e := (d.chartUpd fun x => { x with queue := l }).chartServe q
      let n := engineSteps d e q
      if ¬ d.chart.flushes.isEmpty ∧ d.rounds d.chart.learnAt < n then d
      else (e.engineTook n).chartUpd fun x => { x with learnAt := d.now }

/-- The key that a frame received whole and good, or the learn queue, brings to the engine. -/
def Dev.brings (d : Dev) : Instr → Option Nat
  | .ethFrameEnd _ port preemptible _ .good => (tget (fun _ => none) d.fab.rx (port * 2 + b2n preemptible)).bind (fun r => r.learn.map (·.1))
  | .learnEngineInsert _ => d.chart.queue.head?.map (·.key)
  | _ => none

/-- The ageing scan at one entry (R159, R160); a refresh or a move of one of the keys `late` reaches its entry in the same step, so that the entry stays. -/
def Dev.chartAge (late : List Nat) (d : Dev) (p : Nat) : Dev :=
  let e := d.mac p
  let aged : Bool := decide (d.obj 0x3006 0x01 < (d.ltSec + 2 ^ 17 - entAge e) % 2 ^ 17)
  let mortal : Bool := entType e == 1 || (entType e == 2 && d.obj 0x3008 0x00 == 0)
  if aged && mortal && !late.contains (entKey e) then
    let d := (d.chartRemove p).inc64 0x3006 0x02
    if entType e = 1 then d.tellRemoval (entKey e) else d
  else if entLock e && d.obj 0x3005 0x03 != 0 && decide (d.obj 0x3005 0x03 ≤ (d.ltSec + 256 - entMoves e) % 256) then
    d.setMac p (setField (setField e 100 100 0) 84 77 0)
  else d

/-- AGEING_SCAN (R156, R159, R160): `n` steps of the scan, each of which reads one bucket, but at most one in each round while requests wait or a flush runs; a refresh or a move of the last step's time wins (R11). (DESIGN CHOICE: log entry 159.) -/
def execAgeingScan (t n : Nat) (s : State) : Host.Outcome State Fault Refusal :=
  s.portCmd t [1] (n ≤ 16385) fun d =>
    let n := if d.engineIdle then n else min n (d.rounds d.chart.scanAt)
    let a := d.chart.scan
    let inRange (p : Nat) : Bool := let b := scanBucket p; (decide (a ≤ b) && decide (b < a + n)) || decide (b + 16385 < a + n)
    let late := (s.tick d 32).filterMap d.brings
    let d := ((d.chart.mac.map (·.1)).filter inRange).foldl (Dev.chartAge late) d
    (d.engineTook n).chartUpd fun x => { x with scan := (a + n) % 16385, scanAt := if d.engineIdle then d.now else x.scanAt + d.enginePeriods (16 * n) }

/-- STASH_DRAIN (R154): while the engine is idle, stash entries in index order, each tried in its two buckets without relocation. -/
def execStashDrain (t : Nat) (s : State) : Host.Outcome State Fault Refusal :=
  s.portCmd t [1] true fun d =>
    if ¬ d.engineIdle then d
    else (((d.chart.mac.map (·.1)).filter (fun p => stashBase ≤ p))).foldl (fun d p =>
      let e := d.mac p
      match (d.setMac p 0).fillWay 0 e with
      | some d => d
      | none => match (d.setMac p 0).fillWay 1 e with | some d => d | none => d) d

/-! Flushes (R161). -/

/-- Start a flush, behind those that run or wait. (DEDUCED: log entry 71.) -/
def Dev.chartFlush (d : Dev) (byFid : Bool) (val : Nat) (holdDown : Bool) : Dev :=
  let first : Bool := d.chart.flushes.isEmpty
  d.chartUpd fun x =>
    { x with flushes := x.flushes ++ [{ byFid := byFid, val := val, holdDown := holdDown, at_ := d.now }], learnAt := if first then d.now else x.learnAt, scanAt := if d.engineIdle then d.now else x.scanAt }

/-- Remove the dynamic remote entries of a member (R367). -/
def Dev.chartForget (d : Dev) (m : Nat) : Dev :=
  d.chartUpd fun y => { y with mac := d.chart.mac.filter (fun x => !(entType x.2 == 2 && bits (entDest x.2) 6 5 == m)) }

/-- Remove every dynamic entry (R165, R171). -/
def Dev.chartClear (d : Dev) : Dev :=
  d.chartUpd fun y => { y with mac := d.chart.mac.filter (fun x => entType x.2 == 3) }

/-! Static entries and retirement (R155, R171, Table 18.4). -/

/-- The entry of a static record (R155). -/
def Dev.staticEntry (d : Dev) (r : Nat) : Nat :=
  let c := d.obj 0x3050 0x05 0 r
  mkEntry (macKey (d.obj 0x3050 0x03 0 r) (d.obj 0x3050 0x02 0 r)) d.ltSec 0 (d.obj 0x3050 0x04 0 r) (if c < 8 then 8 + c else 0) 3

/-- Records of enabled static entries. -/
def Dev.statics (d : Dev) : List Nat :=
  (d.store.filterMap (fun x => if x.1 % 2 ^ 24 = 0x305001 ∧ x.2 = 1 then some (x.1 / 2 ^ 32) else none))

/-- Reinsert every static record; one that is FULL is disabled (R171). -/
def Dev.reinsertStatics (d : Dev) : Dev :=
  d.statics.foldl (fun d r =>
    match d.chartInsert (d.staticEntry r) with
    | (d, true) => d
    | (d, false) => (d.set 0x3050 0x01 0 0 r).event 4 (some 6) Ev.staticDisabled.code 0 (beBytes 4 r)) d

/-- The 64 buckets of a retired block leave their table; their entries are reinserted. -/
def Dev.retireBuckets (d : Dev) (blk : Nat) : Dev :=
  let t := blk / 128
  let b0 := blk % 128 * 64
  let inBlk (p : Nat) : Bool := decide (wayPos t b0 0 ≤ p ∧ p < wayPos t (b0 + 64) 0)
  let gone := d.chart.mac.filter (fun x => inBlk x.1)
  let d := (List.range 64).foldl (fun d i =>
    (d.chartUpd fun x => { x with gone := tput (fun _ => false) d.chart.gone (t * 8192 + b0 + i) true })) d
  let d := gone.foldl (fun d x => d.chartRemove x.1) d
  gone.foldl (fun d x => (d.chartInsert x.2).1) d

/-- A bucket whose read is uncorrectable is emptied, and the static entries that hash to it are inserted again (Table 18.2). (DEDUCED: log entry 155.) -/
def Dev.chartBucketLost (d : Dev) (t key : Nat) : Dev :=
  let b := d.bucket t key
  let d := (List.range 4).foldl (fun d w => d.setMac (wayPos t b w) 0) d
  (d.statics.filter (fun r => d.bucket t (entKey (d.staticEntry r)) == b)).foldl (fun d r => (d.chartInsert (d.staticEntry r)).1) d

/-! Parsing and classification (R145, R168). -/

/-- What the Chart extracts from a frame's header. (PRESUMED: log entry 181.) -/
structure Parsed where
  da : Nat
  sa : Nat
  tagged : Bool
  vlanTag : Nat
  ethertype : Nat
  /-- Offset of the L2 payload after all tags. -/
  payload : Nat
  deriving DecidableEq, Repr

/-- Skip VLAN tags from an offset, at most as many as the bytes hold: the Ethertype after all tags and the payload's offset. -/
def skipTags (b : Bytes) (off : Nat) : Nat → Nat × Nat
  | 0 => (field b off 2, off + 2)
  | n + 1 => if field b off 2 = 0x8100 then skipTags b (off + 4) n else (field b off 2, off + 2)

/-- Parse a frame. -/
def parseFrame (b : Bytes) : Parsed :=
  let tagged : Bool := field b 12 2 == 0x8100
  let p := skipTags b 12 (b.length / 4)
  { da := field b 0 6, sa := field b 6 6, tagged := tagged, vlanTag := if tagged then field b 14 2 else 0, ethertype := p.1, payload := p.2 }

/-- A destination of 01-80-C2-00-00-00 to 0F (Table 6.1). -/
def reservedDest (da : Nat) : Bool := da / 16 == 0x0180C2000000 / 16

/-- Group bit of an address. -/
def groupAddr (a : Nat) : Bool := bit a 40

/-- What classification gives a frame (R145). -/
structure Classified where
  vid : Nat
  pcp : Nat
  dei : Bool
  tagged : Bool
  fid : Nat
  deriving DecidableEq, Repr

/-- VID, PCP and DEI of a frame at port record `port` (step 1 of R145). -/
def Dev.classify (d : Dev) (port : Nat) (p : Parsed) : Classified :=
  let v := bits p.vlanTag 11 0
  let vid := if p.tagged && v != 0 then v else d.obj 0x3010 0x01 0 port
  { vid := vid, pcp := if p.tagged then bits p.vlanTag 15 13 else d.obj 0x3010 0x04 0 port, dei := p.tagged && bit p.vlanTag 12,
    tagged := p.tagged, fid := d.obj 0x3020 0x04 0 vid }

/-- Steps 2 and 3 of R145: the counter of the drop, none when the frame passes. -/
def Dev.classifyDrop (d : Dev) (port : Nat) (p : Parsed) (c : Classified) : Option Nat :=
  let mode := d.obj 0x3010 0x02 0 port
  let realTag := p.tagged && bits p.vlanTag 11 0 != 0
  if (mode = 1 ∧ ¬ realTag) ∨ (mode = 2 ∧ realTag) then some 0x08
  else if d.flag 0x3010 0x03 0 port ∧ (¬ d.flag 0x3020 0x01 0 c.vid ∨ ¬ bit (d.obj 0x3020 0x02 0 c.vid) port) then some 0x07
  else none

/-- The 320-bit key of the ternary rules (Table 6.3). A frame whose type field is a length carries no L3 protocol. (PRESUMED: log entry 181.) -/
def ternaryKey (b : Bytes) (p : Parsed) (c : Classified) (port member : Nat) (udfOff : Nat) (dstKnown srcKnown : Bool) : Nat :=
  let o := p.payload
  let v4 : Bool := p.ethertype == 0x0800
  let v6 : Bool := p.ethertype == 0x86DD
  let l3 := if v4 then 1 else if v6 then 2 else if p.ethertype < 0x600 then 0 else 3
  let fragField := if v4 then field b (o + 6) 2 else 0
  let next6 := byteAt b (o + 6)
  let frag6 : Bool := v6 && next6 == 44
  let fo6 := if frag6 then field b (o + 42) 2 / 8 else 0
  let proto := if v4 then byteAt b (o + 9) else if v6 then next6 else 0
  let upper := if frag6 then byteAt b (o + 40) else proto
  let frag : Bool := if v4 then bit fragField 13 || fragField % 8192 != 0 else frag6
  let later : Bool := if v4 then fragField % 8192 != 0 else frag6 && fo6 != 0
  let dscp := if v4 then byteAt b (o + 1) / 4 else if v6 then field b o 2 / 64 % 64 else 0
  let src := if v4 then field b (o + 12) 4 else if v6 then field b (o + 20) 4 else 0
  let dst := if v4 then field b (o + 16) 4 else if v6 then field b (o + 36) 4 else 0
  let l4 := o + (if v4 then byteAt b o % 16 * 4 else if frag6 then 48 else 40)
  let ports : Bool := (v4 || v6) && !later && (upper == 6 || upper == 17)
  let pad := b ++ List.replicate 160 0
  (p.da % 2 ^ 48) * 2 ^ 272 + (p.sa % 2 ^ 48) * 2 ^ 224 + c.vid % 4096 * 2 ^ 212 + c.pcp % 8 * 2 ^ 209 + b2n c.dei * 2 ^ 208 +
    p.ethertype % 65536 * 2 ^ 192 + port % 32 * 2 ^ 187 + member % 4 * 2 ^ 185 + b2n (p.tagged && bits p.vlanTag 11 0 != 0) * 2 ^ 184 +
    b2n (p.tagged && bits p.vlanTag 11 0 == 0) * 2 ^ 183 + l3 * 2 ^ 181 + proto * 2 ^ 173 + dscp * 2 ^ 167 + b2n frag * 2 ^ 166 +
    b2n later * 2 ^ 165 + src * 2 ^ 133 + dst * 2 ^ 101 + (if ports then field pad l4 2 * 2 ^ 85 + field pad (l4 + 2) 2 * 2 ^ 69 else 0) +
    (if ports && upper == 6 then byteAt pad (l4 + 13) * 2 ^ 61 else 0) + (if p.ethertype == 0x22F0 then byteAt b o * 2 ^ 53 else 0) +
    field pad (o + udfOff) 4 * 2 ^ 21 + b2n dstKnown * 2 ^ 20 + b2n srcKnown * 2 ^ 19

/-- Records of enabled rules, lowest first. -/
def Dev.rulesOn (d : Dev) : List Nat :=
  (d.store.filterMap (fun x => if x.1 % 2 ^ 24 = 0x304001 ∧ x.2 = 1 then some (x.1 / 2 ^ 32) else none))

/-- The lowest-numbered rule that matches a key (R167). (DESIGN CHOICE: log entry 180.) -/
def Dev.ruleMatch (d : Dev) (key : Nat) : Option Nat :=
  d.rulesOn.find? (fun r => key &&& d.obj 0x3040 0x03 0 r == d.obj 0x3040 0x02 0 r &&& d.obj 0x3040 0x03 0 r)

/-! The forwarding decision (Table 6.1, R147, R148, R359). -/

/-- One egress of a frame: a port record of this member, or a member and its destination port record. -/
inductive Egress where
  | loc (port : Nat)
  | rem (member dport : Nat)
  deriving DecidableEq, Repr

/-- The result of stages 4 and 5: egress set, class, rule, mirror, and the key whose request the frame may give at its end. -/
structure Decision where
  out : List Egress := []
  cls : Nat := 0
  rule : Option Nat := none
  mirror : Bool := false
  learn : Option Nat := none
  /-- The frame is dropped; it may still give a request (Table 6.1, step 5). -/
  drop : Bool := false
  deriving DecidableEq, Repr

/-- Port records whose bit is set in a mask, stack links and the ingress port left out. -/
def maskPorts (mask ingress : Nat) : List Nat := (List.range 25).filter (fun p => bit mask p && p != 20 && p != 21 && p != ingress)

/-- The local egress set of a flood or of a multicast group (R147, R359); the flag says whether it is an unknown unicast flood. -/
def Dev.groupSet (d : Dev) (vid da ingress : Nat) (hit : Option Nat) : List Nat × Bool :=
  let members := d.obj 0x3020 0x02 0 vid
  if groupAddr da then
    match hit with
    | some e => (maskPorts (d.obj 0x3030 0x01 0 (bits (entDest e) 9 0) &&& members) ingress, false)
    | none => (maskPorts (members &&& d.obj 0x3020 0x06 0 vid) ingress, false)
  else (maskPorts (members &&& d.obj 0x3020 0x05 0 vid) ingress, true)

/-- Class for a PCP in the port's map (R148). -/
def Dev.pcpClass (d : Dev) (port pcp : Nat) : Nat := bits (d.obj 0x3010 0x05 0 port) (3 * pcp + 2) (3 * pcp)

/-- The class of R148 from the rule, the destination's static entry and the PCP map. -/
def Dev.classOf (d : Dev) (port pcp : Nat) (rule hit : Option Nat) : Nat :=
  let byEntry := match hit with
    | some e => if entType e = 3 ∧ bit (entPrio e) 3 then entPrio e % 8 else d.pcpClass port pcp
    | none => d.pcpClass port pcp
  match rule with
  | some r => if d.obj 0x3040 0x06 0 r = 0xFF then byEntry else d.obj 0x3040 0x06 0 r % 8
  | none => byEntry

/-- The destination lookup's result for a frame of this member's own port `port` (R147): the device with its counters, and the egress set, none when the step discards the frame. -/
def Dev.destination (d : Dev) (port vid da : Nat) (hit : Option Nat) : Dev × Option (List Egress) :=
  let flood (d : Dev) : Dev × Option (List Egress) :=
    let (ps, unknown) := d.groupSet vid da port hit
    ((if unknown then d.inc64 0x3000 0x0A else d), some (ps.map .loc ++ d.otherMembers.map (fun m => .rem m 0x1F)))
  match hit with
  | none => flood d
  | some e =>
    if groupAddr da then flood d
    else
      let dst := entDest e
      let m := bits dst 6 5
      let p := bits dst 4 0
      if m ≠ d.stackId then (d, some [.rem m p])
      else if p = port then (d.inc 0x3010 0x09 0 port, none)
      else if ¬ bit (d.obj 0x3020 0x02 0 vid) p ∧ ¬ (entType e = 3 ∧ 23 ≤ p) then (d.inc 0x3010 0x0A 0 port, none)
      else (d, some [.loc p])

/-- Counter of an invalid source: a group address or zero (R157). -/
def badSource (sa : Nat) : Option Nat := if groupAddr sa then some 0x05 else if sa = 0 then some 0x06 else none

/-- Steps 3 to 7 of Table 6.1 for a frame of this member's own port. A frame that step 3 or step 4 drops does not reach the steps behind it (R144); one that step 3 has let pass still gives its request (R157). -/
def Dev.forward (d : Dev) (port : Nat) (b : Bytes) (p : Parsed) (c : Classified) (bad : List Nat) : Dev × Decision :=
  let dBad := bad.filter (· < 2)
  let sBad := (bad.filter (2 ≤ ·)).map (· - 2)
  let dk := macKey c.fid p.da
  let sk := macKey c.fid p.sa
  let dHit := (d.chartFind dk dBad).map d.mac
  let sHit := (d.chartFind sk sBad).map d.mac
  let d := (dBad.foldl (fun d t => d.chartBucketLost t dk) d)
  let d := (sBad.foldl (fun d t => d.chartBucketLost t sk) d)
  let key := ternaryKey b p c port d.stackId (d.obj 0x3010 0x41 0 port) dHit.isSome sHit.isSome
  let rule := d.ruleMatch key
  let d := match rule with | some r => d.inc64 0x3040 0x0A 0 r | none => d
  let act := (rule.map (d.obj 0x3040 0x04 0 ·)).getD 0
  let isRule (sub : Nat) : Bool := (rule.map (d.flag 0x3040 sub 0 ·)).getD false
  let fwd : Dev × Option (List Egress) :=
    match act with
    | 0 => d.destination port c.vid p.da dHit
    | 1 => (d, none)
    | 2 =>
      let r := (rule.map (d.obj 0x3040 0x05 0 ·)).getD 0
      (d, some [if bits r 6 5 = d.stackId then .loc (bits r 4 0) else .rem (bits r 6 5) (bits r 4 0)])
    | 3 => (d, some [.loc 24])
    | _ => (d, some [.loc 23])
  let d := fwd.1
  let learn : Option Nat :=
    if act ≠ 1 ∧ badSource p.sa = none ∧ d.flag 0x3004 0x01 ∧ d.flag 0x3010 0x06 0 port ∧ d.flag 0x3020 0x07 0 c.vid ∧ ¬ isRule 0x09 then some sk else none
  match fwd.2, badSource p.sa with
  | none, _ => (d, { drop := true, rule := rule, learn := learn })
  | some _, some sub => (d.inc 0x3004 sub, { drop := true, rule := rule })
  | some out, none =>
    let self := d.stackId * 32 + port
    let pinned : Bool := match sHit with
      | some e => entDest e != self && (entType e == 3 || entLock e)
      | none => false
    let cls := d.classOf port c.pcp rule dHit
    (d, { out := out, cls := cls, rule := rule, mirror := isRule 0x08, learn := learn, drop := pinned && d.obj 0x3005 0x02 == 1 })

/-- The egress set at the member that a stack header names (R147, R162, R359): the device, the egress set, and the source key in independent mode. -/
def Dev.decideStack (d : Dev) (kPort : Nat) (b : Bytes) (h : StackHdr) : Dev × Decision :=
  let p := parseFrame b
  let fid := d.obj 0x3020 0x04 0 h.vid
  let hit := (d.chartFind (macKey fid p.da)).map d.mac
  let less (l : List Nat) : List Nat := if h.smem = d.stackId then l.filter (· ≠ h.sport) else l
  let learn : Option Nat :=
    if d.obj 0x3008 0x00 = 0 ∧ d.flag 0x3004 0x01 ∧ d.flag 0x3010 0x06 0 kPort ∧ d.flag 0x3020 0x07 0 h.vid ∧ badSource p.sa = none then some (macKey fid p.sa) else none
  let flood (d : Dev) : Dev × Decision :=
    let (ps, unknown) := d.groupSet h.vid p.da kPort hit
    ((if unknown then d.inc64 0x3000 0x0A else d), { out := (less ps).map .loc, cls := h.cls, learn := learn })
  if h.dport = 0x1F then flood d
  else if hit.isNone ∧ ¬ groupAddr p.da ∧ h.dport < 23 ∧ d.obj 0x3008 0x00 = 1 then
    flood ((match d.linkTo h.smem with | some k => d.sendLink k (.removal k { key := macKey fid p.da, sender := d.stackId, target := some h.smem }) | none => d).inc 0x3008 0x04)
  else if h.dport < 23 ∧ ¬ bit (d.obj 0x3020 0x02 0 h.vid) h.dport then (d.inc 0x3010 0x0A 0 kPort, { cls := h.cls, learn := learn, drop := true })
  else (d, { out := [.loc h.dport], cls := h.cls, learn := learn })

/-! Almanac writes of 3000–3FFF. -/

/-- Checks 10 of 3000–3FFF beyond type and range. The redirect port's default 0xFF is no port record and stands for none while the action is no redirect. (DESIGN CHOICE: log entry 180.) -/
def Dev.chartValue (d : Dev) (idx sub r v : Nat) : Nat :=
  match idx, sub with
  | 0x3010, 0x06 => if 23 ≤ r ∧ v = 1 then 0x302 else 0
  | 0x3020, _ => if r = 0 ∨ r = 4095 then 0x302 else 0
  | 0x3040, 0x01 =>
    if v = 0 ∨ d.flag 0x3040 0x01 0 r then 0
    else
      let value := d.obj 0x3040 0x02 0 r
      let mask := d.obj 0x3040 0x03 0 r
      let pol := d.obj 0x3040 0x07 0 r
      let redirect := d.obj 0x3040 0x05 0 r
      if value &&& mask ≠ value then 0x302
      else if mask % 2 ^ 19 ≠ 0 then 0x303
      else if (24 < redirect % 32 ∧ ¬ (redirect = 0xFF ∧ d.obj 0x3040 0x04 0 r ≠ 2)) ∨ (pol ≠ 0xFFFF ∧ 2047 < pol) then 0x301
      else 0
  | 0x3050, 0x01 =>
    if v = 0 ∨ d.flag 0x3050 0x01 0 r then 0
    else
      let dst := d.obj 0x3050 0x04 0 r
      let group := groupAddr (d.obj 0x3050 0x02 0 r)
      if (¬ group ∧ (bits dst 15 7 ≠ 0 ∨ 24 < bits dst 4 0)) ∨ (group ∧ bits dst 15 10 ≠ 0) then 0x301
      else if d.statics.any (fun k => k != r && entKey (d.staticEntry k) == entKey (d.staticEntry r)) then 0x302
      else 0
  | 0x3070, 0x01 => if 24 < v ∧ v ≠ 0xFF then 0x301 else 0
  | 0x3070, 0x02 => if 4095 < v ∧ v ≠ 0xFFFF then 0x301 else 0
  | _, _ => 0

/-- Check 11 of 3000–3FFF: the owning function is stopped. -/
def Dev.chartStopped (d : Dev) (idx r : Nat) : Bool :=
  match idx with
  | 0x3001 => !d.flag 0x3004 0x01
  | 0x3008 => !d.flag 0x3004 0x01
  | 0x3040 => !d.flag 0x3040 0x01 0 r
  | 0x3050 => !d.flag 0x3050 0x01 0 r
  | _ => true

/-- Checks 12 and 13 of 3000–3FFF. -/
def Dev.chartDeps (d : Dev) (idx sub r v : Nat) : Nat :=
  match idx, sub with
  | 0x3040, 0x01 =>
    let pol := d.obj 0x3040 0x07 0 r
    if v = 1 ∧ ¬ d.flag 0x3040 0x01 0 r ∧ pol ≤ 2047 ∧ d.obj 0x5040 0x01 0 pol = 0 then 0x304 else 0
  | 0x3050, 0x01 => if v = 1 ∧ ¬ d.flag 0x3050 0x01 0 r ∧ d.chart.flushes.isEmpty ∧ ¬ (d.chartInsert (d.staticEntry r)).2 then 0x306 else 0
  | _, _ => 0

/-- A write of a static entry or of a seed, which is work of the learning engine (R156). -/
def engineWrite (idx sub : Nat) : Bool := idx == 0x3001 || (idx == 0x3050 && sub == 0x01)

/-- What an accepted write of 3000–3FFF does, once the engine takes it. -/
def Dev.chartPut (d : Dev) (idx sub r v : Nat) : Dev :=
  match idx, sub with
  | 0x3001, _ =>
    let d := d.set idx sub v
    Dev.reinsertStatics (d.chartUpd fun x => { x with mac := [] })
  | 0x3004, 0x01 => (if v = 0 then (d.chartUpd fun x => { x with queue := [] }) else d).set idx sub v
  | 0x3005, 0x07 =>
    if v = 1 then
      (d.chartUpd fun y => { y with mac := d.chart.mac.map (fun x =>
        if entLock x.2 then (x.1, setField (setField x.2 100 100 0) 84 77 0) else x) })
    else d
  | 0x3008, 0x00 => if d.obj 0x3008 0x00 = v then d else d.chartClear.set idx sub v
  | 0x3050, 0x01 =>
    if v = 1 then (if d.flag 0x3050 0x01 0 r then d else (d.chartInsert (d.staticEntry r)).1.set idx sub 1 0 r)
    else
      let d := match d.chartFind (entKey (d.staticEntry r)) with
        | some p => if d.flag 0x3050 0x01 0 r then d.chartRemove p else d
        | none => d
      d.set idx sub 0 0 r
  | 0x3070, 0x01 => d.chartFlush false v false
  | 0x3070, 0x02 => d.chartFlush true v false
  | _, _ => d.set idx sub v 0 r

/-- What an accepted write of 3000–3FFF does. A write of a static entry or a seed waits while a flush runs (R156). -/
def Dev.chartApply (d : Dev) (idx sub r v : Nat) : Dev :=
  if engineWrite idx sub && !d.chart.flushes.isEmpty then d.chartUpd fun x => { x with held := x.held ++ [{ idx := idx, sub := sub, record := r, value := v }] }
  else d.chartPut idx sub r v

/-- A write that has waited is taken; a static entry that now finds no place is answered S-0306 (R155). (DEDUCED: log entry 196.) -/
def Dev.takeHeld (d : Dev) (h : HeldWrite) : Dev :=
  if h.idx = 0x3050 ∧ h.value = 1 then
    match d.chartInsert (d.staticEntry h.record) with
    | (d, true) => d.set 0x3050 0x01 1 0 h.record
    | (d, false) => if d.alm.waiting then d.finish 0x306 else if d.alm.answerDue then (d.answerLead 0x306 []).almUpd fun x => { x with answerDue := false } else d
  else d.chartPut h.idx h.sub h.record h.value

/-- CHART_FLUSH_COMPLETE (R161): the flush that runs, of the kind named, ends once its sweep has come to the end; the writes that wait for it are taken, and the reply to a written flush follows. -/
def execChartFlushComplete (t : Nat) (byFid : Bool) (s : State) : Host.Outcome State Fault Refusal :=
  s.cmd t true fun d =>
    match d.chart.flushes with
    | [] => d
    | f :: _ =>
      if f.byFid ≠ byFid ∨ f.pos < 16385 then d else
      let gone := f.gone
      let d := d.chartUpd fun x => { x with flushes := match x.flushes.drop 1 with | g :: l => { g with at_ := d.now } :: l | [] => [] }
      let d := if f.holdDown then d else d.set 0x3070 0x03 gone
      let d := if d.chart.flushes.isEmpty then d.chart.held.foldl Dev.takeHeld (d.chartUpd fun x => { x with held := [] }) else d
      d.finishIfReady

end Sys2Proof.Machine
end

