-- ==== Sys2Proof/Machine/Shaping.lean ====
section
/-! DEFINITION. Shaping credit and policers (R199 to R218). -/
namespace Sys2Proof.Machine

/-- Parts of a byte in which credit and tokens grow, so that none of a continuous growth is lost (R205). (DESIGN CHOICE: log entry 75.) -/
def bytePart : Int := 80000000

/-- Parts that one period of the time clock brings at the rate unit of 8 kbit/s. -/
def ratePart : Int := 64

/-- An amount of parts at the resolution in which credit is kept, 1/1,024 byte (R205). -/
def atResolution (v : Int) : Int := v / 78125 * 78125

/-! Shaping nodes (R199). -/

/-- Node number of a subscriber. -/
def subNode (s : Nat) : Nat := 16 + s
/-- Node number of a leaf queue. -/
def leafNode (l : Nat) : Nat := 1024 + l

/-- Rate of a node in units of 8 kbit/s; 0 is not limited. -/
def Dev.nodeRate (d : Dev) (k : Nat) : Nat :=
  if k < 16 then d.obj 0x5010 0x03 0 k else if k < 1024 then d.obj 0x5020 0x02 0 (k - 16) else d.obj 0x5030 0x01 0 (k - 1024)

/-- Burst of a node in bytes. -/
def Dev.nodeBurst (d : Dev) (k : Nat) : Nat :=
  if k < 16 then d.obj 0x5010 0x04 0 k else if k < 1024 then d.obj 0x5020 0x03 0 (k - 16) else d.obj 0x5030 0x02 0 (k - 1024)

/-- Credit of a node now, in parts of a byte (R206). (DESIGN CHOICE: log entry 75.) -/
def Dev.credit (d : Dev) (k : Nat) : Int :=
  let top := (d.nodeBurst k : Int) * bytePart
  match tget (fun _ => none) d.shape.credit k with
  | none => top
  | some (v, t0) => min top (v + d.nodeRate k * ratePart * ((d.now - t0 : Nat) : Int))

/-- Set a node's credit. -/
def Dev.setCredit (d : Dev) (k : Nat) (v : Option (Int × Nat)) : Dev :=
  { d with shape := { d.shape with credit := tput (fun _ => none) d.shape.credit k v } }

/-- Credit of a node as software reads it: bytes rounded down, as an I32. -/
def Dev.creditObj (d : Dev) (k : Nat) : Nat := ofI32 (d.credit k / bytePart)

/-- A node permits a frame to start: it is not limited or its credit is at least 0 (R206). -/
def Dev.nodeOpen (d : Dev) (k : Nat) : Bool := d.nodeRate k == 0 || decide (0 ≤ atResolution (d.credit k))

/-- Charge a limited node with a counted length (R206). -/
def Dev.chargeNode (d : Dev) (k : Nat) (len : Int) : Dev :=
  if d.nodeRate k = 0 then d
  else
    let low : Int := -16777216 * bytePart
    let v := d.credit k - len * bytePart
    d.setCredit k (some (if v < low then low else v, d.now))

/-- The enabled port node bound to a port record. -/
def Dev.portNode (d : Dev) (port : Nat) : Option Nat :=
  (List.range 16).find? (fun p => d.flag 0x5010 0x01 0 p && d.obj 0x5010 0x02 0 p == port)

/-- The leaf of a frame at an egress port (R200). -/
def Dev.leafOf (d : Dev) (port vid cls : Nat) : Option Nat :=
  (d.portNode port).map fun p =>
    let base := d.obj 0x5010 0x05 0 p
    let g := d.obj 0x5038 0x01 0 vid
    let g := if d.obj 0x5010 0x06 0 p ≤ g then 0 else g
    let s := if d.flag 0x5020 0x01 0 (base + g) then base + g else base
    s * 8 + bits (d.obj 0x5020 0x04 0 s) (3 * cls + 2) (3 * cls)

/-- The port node that owns a subscriber. -/
def Dev.ownerNode (d : Dev) (s : Nat) : Option Nat :=
  (List.range 16).find? (fun p => d.flag 0x5010 0x01 0 p && decide (d.obj 0x5010 0x05 0 p ≤ s ∧ s < d.obj 0x5010 0x05 0 p + d.obj 0x5010 0x06 0 p))

/-- A node never limits towards an egress port whose nominal rate is below its own (R208). -/
def Dev.aboveNominal (d : Dev) (port k : Nat) : Bool :=
  let r := d.obj 0x4020 0x04 (unitOfPort port)
  decide (port < 22) && r != 0 && decide (r * 1000 < d.nodeRate k * 8)

/-- Every limited node on the path of a leaf to an egress port has credit (R206, R208). -/
def Dev.leafOpen (d : Dev) (port leaf : Nat) : Bool :=
  let free (k : Nat) : Bool := d.nodeOpen k || d.aboveNominal port k
  free (leafNode leaf) && free (subNode (leaf / 8)) && (match d.ownerNode (leaf / 8) with | some p => free p | none => true)

/-- Charge the nodes on a leaf's path with a counted length, and count the frame (R206, R207). -/
def Dev.chargeLeaf (d : Dev) (leaf : Nat) (len : Int) : Dev :=
  let s := leaf / 8
  let n := len.toNat
  let d := d.chargeNode (leafNode leaf) len
  let d := d.chargeNode (subNode s) len
  let d := (((d.inc64 0x5030 0x05 0 leaf).inc64 0x5030 0x06 0 leaf n).inc64 0x5020 0x06 0 s)
  match d.ownerNode s with
  | some p => ((d.chargeNode p len).inc64 0x5010 0x08 0 p).inc64 0x5010 0x09 0 p n
  | none => d

/-! Policers (R214 to R217). -/

/-- Rate, committed burst, second rate and second burst of a policer. -/
def Dev.polParam (d : Dev) (k sub : Nat) : Int := (d.obj 0x5040 sub 0 k : Int)

/-- The buckets of a policer, filled up to now (R215). -/
def Dev.polBucket (d : Dev) (k : Nat) : Bucket :=
  let cbs := d.polParam k 0x04 * bytePart
  let ebs := d.polParam k 0x06 * bytePart
  match tget (fun _ => none) d.shape.buckets k with
  | none => { tc := cbs, te := ebs, at_ := d.now }
  | some b =>
    let n : Int := (d.now - b.at_ : Nat)
    let fill := b.tc + d.polParam k 0x03 * ratePart * n
    if d.obj 0x5040 0x01 0 k = 1 then
      { tc := min cbs fill, te := min ebs (b.te + max 0 (fill - cbs)), at_ := d.now }
    else { tc := min cbs fill, te := min ebs (b.te + d.polParam k 0x05 * ratePart * n), at_ := d.now }

/-- Set a policer's buckets. -/
def Dev.setBucket (d : Dev) (k : Nat) (b : Option Bucket) : Dev :=
  { d with shape := { d.shape with buckets := tput (fun _ => none) d.shape.buckets k b } }

/-- Meter `len` parts of a byte against buckets in a mode from an input colour: the buckets and the output colour (0 green, 1 yellow, 2 red). -/
def meter (mode : Nat) (b : Bucket) (len : Int) (colour : Nat) : Bucket × Nat :=
  if mode = 1 then
    if colour = 0 ∧ len ≤ b.tc then ({ b with tc := b.tc - len }, 0)
    else if colour ≠ 2 ∧ len ≤ b.te then ({ b with te := b.te - len }, 1)
    else (b, 2)
  else
    if colour = 2 ∨ b.te < len then (b, 2)
    else if colour = 1 ∨ b.tc < len then ({ b with te := b.te - len }, 1)
    else ({ b with te := b.te - len, tc := b.tc - len }, 0)

/-- What policing leaves of a frame: dropped, its colour, its DEI. -/
structure Policed where
  drop : Bool := false
  colour : Nat := 0
  dei : Bool
  deriving DecidableEq, Repr

/-- One policer meters a frame of `len` bytes (R215, R216); `input` is the input colour of colour-aware mode. -/
def Dev.police (d : Dev) (k : Nat) (len : Int) (input : Nat) (p : Policed) : Dev × Policed :=
  let mode := d.obj 0x5040 0x01 0 k
  if mode = 0 then (d, p)
  else
    let inp := if d.obj 0x5040 0x02 0 k = 1 then input else 0
    let (b, c) := meter mode (d.polBucket k) (len * bytePart) inp
    let d := (d.setBucket k (some b)).inc64 0x5040 (0x09 + c) 0 k
    let act := if c = 1 then d.obj 0x5040 0x07 0 k else d.obj 0x5040 0x08 0 k
    if c = 0 then (d, { p with colour := 0 })
    else if (c = 1 ∧ act = 2) ∨ (c = 2 ∧ act = 0) then (d.inc64 0x5040 0x0C 0 k, { p with drop := true, colour := c })
    else (d, { p with colour := c, dei := p.dei || (c == 1 && act == 0) || (c == 2 && act == 1) })

/-- The policers of a frame: its port's, then its rule's, each at most once (R214). `len` is the length as received. -/
def Dev.policeFrame (d : Dev) (port : Nat) (rulePol : Option Nat) (len : Nat) (dei : Bool) : Dev × Policed :=
  let n : Int := len + toI32 (d.obj 0x5050 0x01 0 port)
  let k := d.obj 0x5045 0x01 0 port
  let meters : Bool := decide (k ≤ 2047) && d.obj 0x5040 0x01 0 k != 0
  let first := if meters then d.police k n (b2n dei) { dei := dei } else (d, { dei := dei })
  let input2 := if meters then first.2.colour else b2n dei
  match rulePol with
  | some r => if first.2.drop ∨ r = k ∨ 2047 < r then first else first.1.police r n input2 first.2
  | none => first

/-! Almanac writes of 5000–5FFF. -/

/-- Checks 10 of 5000–5FFF beyond type and range. -/
def Dev.shapeValue (d : Dev) (idx sub r v : Nat) : Nat :=
  match idx, sub with
  | 0x5010, 0x01 =>
    let port := d.obj 0x5010 0x02 0 r
    let lo := d.obj 0x5010 0x05 0 r
    let hi := lo + d.obj 0x5010 0x06 0 r
    let others := (List.range 16).filter (fun k => k != r && d.flag 0x5010 0x01 0 k)
    if v = 0 ∨ d.flag 0x5010 0x01 0 r then 0
    else if 22 < port then 0x301
    else if 512 < hi then 0x301
    else if others.any (fun k => d.obj 0x5010 0x02 0 k == port) then 0x302
    else if others.any (fun k => decide (d.obj 0x5010 0x05 0 k < hi ∧ lo < d.obj 0x5010 0x05 0 k + d.obj 0x5010 0x06 0 k)) then 0x302
    else 0
  | 0x5040, 0x01 =>
    if v = 0 then 0
    else if v = 2 ∧ d.obj 0x5040 0x05 0 r < d.obj 0x5040 0x03 0 r then 0x301
    else if d.obj 0x5040 0x03 0 r = 0 ∧ d.obj 0x5040 0x04 0 r = 0 then 0x301
    else 0
  | 0x5010, 0x02 => if 22 < v then 0x301 else 0
  | 0x5070, 0x41 => if (List.range 10).any (fun k => 8 * 2 ^ k == v) then 0 else if 8 ≤ v ∧ v ≤ 4096 then 0x302 else 0x301
  | _, _ => 0

/-- Check 11 of 5000–5FFF. -/
def Dev.shapeStopped (d : Dev) (idx r : Nat) : Bool :=
  match idx with
  | 0x5010 => !d.flag 0x5010 0x01 0 r
  | 0x5040 => d.obj 0x5040 0x01 0 r == 0
  | _ => true

/-- Checks 12 and 13 of 5000–5FFF. -/
def Dev.shapeDeps (d : Dev) (idx sub r v : Nat) : Nat :=
  match idx, sub with
  | 0x5010, 0x01 => if v = 1 ∧ ¬ d.flag 0x5010 0x01 0 r ∧ ¬ d.flag 0x5020 0x01 0 (d.obj 0x5010 0x05 0 r) then 0x304 else 0
  | 0x5020, 0x01 =>
    if v = 0 ∧ (List.range 16).any (fun p => d.flag 0x5010 0x01 0 p && d.obj 0x5010 0x05 0 p == r) then 0x304 else 0
  | 0x5045, 0x01 => if v ≤ 2047 ∧ d.obj 0x5040 0x01 0 v = 0 then 0x304 else 0
  | _, _ => 0

/-- A node's rate or burst changes: its credit is settled first; a rate changed from 0 starts it at its burst (R208). -/
def Dev.settleNode (d : Dev) (k : Nat) : Dev :=
  if d.nodeRate k = 0 then d.setCredit k none else d.setCredit k (some (d.credit k, d.now))

/-- The node and whether a write of an object changes its rate or burst. -/
def shapeNode (idx sub r : Nat) : Option Nat :=
  match idx, sub with
  | 0x5010, 0x03 => some r
  | 0x5010, 0x04 => some r
  | 0x5020, 0x02 => some (subNode r)
  | 0x5020, 0x03 => some (subNode r)
  | 0x5030, 0x01 => some (leafNode r)
  | 0x5030, 0x02 => some (leafNode r)
  | _, _ => none

/-- Leaves whose histograms hold anything. -/
def Dev.observed (d : Dev) : List Nat :=
  (d.store.filterMap (fun x => if x.1 / 256 % 65536 = 0x5080 then some (x.1 / 2 ^ 32) else none)).eraseDups

/-- What an accepted write of 5000–5FFF does. -/
def Dev.shapeApply (d : Dev) (idx sub u r v : Nat) : Dev :=
  match idx, sub with
  | 0x5040, 0x01 => (d.setBucket r none).set idx sub v 0 r |> fun d => d.setBucket r (if v = 0 then none else some (d.polBucket r))
  | 0x5070, 0x03 =>
    if v = 1 then d.observed.foldl (fun d l => (List.range 6).foldl (fun d k => d.set 0x5080 (k + 1) 0 0 l) d) d else d
  | _, _ =>
    match shapeNode idx sub r with
    | some k =>
      let d := (d.settleNode k).set idx sub v u r
      d.setCredit k ((tget (fun _ => none) d.shape.credit k).map (fun x => (min x.1 ((d.nodeBurst k : Int) * bytePart), x.2)))
    | none => d.set idx sub v u r

end Sys2Proof.Machine
end

