-- ==== Sys2Proof/Machine/Fabric.lean ====
section
/-! DEFINITION. The switch fabric and packet buffer (R114 to R142). -/
namespace Sys2Proof.Machine

/-- Replace the fabric's state. -/
def Dev.fabUpd (d : Dev) (f : FabSt → FabSt) : Dev := { d with fab := f d.fab }

/-- Fabric port of a port record (Table 1.1, R127). -/
def fpOf (p : Nat) : Nat :=
  if p < 4 then p else if p < 8 then 4 else if p < 12 then 5 else if p < 20 then 9 else if p < 22 then p - 14
  else if p = 22 then 8 else if p = 23 then 10 else 11

/-- MAC of a port record within its fabric port (Table 5.1). -/
def macOf (p : Nat) : Nat := if 4 ≤ p ∧ p < 12 then p % 4 else if 12 ≤ p ∧ p < 20 then p - 12 else 0

/-- Egress MAC of a copy within its fabric port (Table 5.1). -/
def Copy.mac (c : Copy) : Nat := macOf c.port

/-- Cells of a length (R114). -/
def cellsOf (len : Nat) : Nat := cdiv len 64

/-- A port record is UP (Table 5.6). -/
def Dev.portUp (d : Dev) (p : Nat) : Bool := d.obj 0x2040 0x01 0 p == 3

/-! The cell counters (R127 to R129). -/

/-- Cells taken from a reserve. -/
def Dev.resUse (d : Dev) (k : Nat) : Nat := tget (fun _ => 0) d.fab.res k

/-- Set the cells taken from a reserve. -/
def Dev.setRes (d : Dev) (k v : Nat) : Dev := d.fabUpd fun x => { x with res := tput (fun _ => 0) x.res k v }

/-- Cells of a frame held now. -/
def Frame.held (f : Frame) : Nat := f.ri + f.re + f.rc + f.sh

/-- Cells in use that lie in retired blocks (R140). -/
def Dev.leavingCells (d : Dev) : Nat := (d.fab.frames.map (fun f => min f.leaving f.held)).sum

/-- Free list: usable cells less the cells in use outside the retired blocks. -/
def Dev.freeCells (d : Dev) : Nat := d.obj 0x2000 0x02 + d.leavingCells - d.obj 0x2000 0x04

/-- Egress port records that a frame is charged to. -/
def Frame.egress (f : Frame) : List Nat := f.ports

/-- How `n` cells of a frame are taken (R129): ingress reserve, egress reserve for a single destination, class reserve, shared pool. -/
def Dev.takeCells (d : Dev) (port cls n : Nat) (single : Option Nat) : Nat × Nat × Nat × Nat :=
  let ri := min n (d.obj 0x2010 0x03 0 port - d.resUse port)
  let re := match single with
    | some e => min (n - ri) (d.obj 0x2020 0x03 0 e - d.resUse (32 + e))
    | none => 0
  let rc := min (n - ri - re) (d.obj 0x2030 0x03 0 cls - d.resUse (64 + cls))
  (ri, re, rc, n - ri - re - rc)

/-- Add to a cell counter and raise its peak. -/
def Dev.cellsUp (d : Dev) (idx r n : Nat) : Dev := let d := d.inc idx 0x04 0 r n; d.peak idx 0x05 (d.obj idx 0x04 0 r) 0 r

/-- Take from a cell counter. -/
def Dev.cellsDown (d : Dev) (idx r n : Nat) : Dev := d.set idx 0x04 (d.obj idx 0x04 0 r - n) 0 r

/-- Charge the cells that a frame holds to every counter and source. -/
def Dev.chargeCells (d : Dev) (f : Frame) : Dev :=
  let n := f.held
  let d := (d.cellsUp 0x2010 f.port n).cellsUp 0x2030 f.cls n
  let d := f.egress.foldl (fun d p => d.cellsUp 0x2020 p n) d
  let d := (d.inc 0x2000 0x04 0 0 n).inc 0x2000 0x06 0 0 f.sh
  let d := d.setRes f.port (d.resUse f.port + f.ri)
  let d := match f.single with
    | some e => d.setRes (32 + e) (d.resUse (32 + e) + f.re)
    | none => d
  d.setRes (64 + f.cls) (d.resUse (64 + f.cls) + f.rc)

/-- Return cells of a frame to their sources and counters: `i` of the ingress reserve, `e` of the egress reserve, `c` of the class reserve, `s` shared. -/
def Dev.returnCells (d : Dev) (f : Frame) (i e c s : Nat) : Dev :=
  let n := i + e + c + s
  let d := (d.cellsDown 0x2010 f.port n).cellsDown 0x2030 f.cls n
  let d := f.egress.foldl (fun d p => d.cellsDown 0x2020 p n) d
  let d := (d.set 0x2000 0x04 (d.obj 0x2000 0x04 - n)).set 0x2000 0x06 (d.obj 0x2000 0x06 - s)
  let d := d.setRes f.port (d.resUse f.port - i)
  let d := match f.single with
    | some k => d.setRes (32 + k) (d.resUse (32 + k) - e)
    | none => d
  d.setRes (64 + f.cls) (d.resUse (64 + f.cls) - c)

/-- Return the last `k` cells of a frame, in the reverse of the order of taking (R129). -/
def Dev.returnBack (d : Dev) (f : Frame) (k : Nat) : Dev × Frame :=
  let s := min k f.sh
  let c := min (k - s) f.rc
  let e := min (k - s - c) f.re
  let i := min (k - s - c - e) f.ri
  (d.returnCells f i e c s, { f with ri := f.ri - i, re := f.re - e, rc := f.rc - c, sh := f.sh - s })

/-- Free the first `k` cells that a frame still holds. (DEDUCED: log entry 62.) -/
def Dev.freeFront (d : Dev) (f : Frame) (k : Nat) : Dev × Frame :=
  let i := min k f.ri
  let e := min (k - i) f.re
  let c := min (k - i - e) f.rc
  let s := min (k - i - e - c) f.sh
  (d.returnCells f i e c s, { f with ri := f.ri - i, re := f.re - e, rc := f.rc - c, sh := f.sh - s, freed := f.freed + (i + e + c + s) })

/-! The stored frames. -/

/-- A stored frame by its number. -/
def Dev.frame? (d : Dev) (id : Nat) : Option Frame := d.fab.frames.find? (fun f => f.id == id)

/-- Store a frame back; a frame whose copies are all done gives up its cells: all of them once it is whole, else those already written (R133, R184). The cells beyond a lost link stay in use until the audit (R116). (DEDUCED: log entry 62.) -/
def Dev.putFrame (d : Dev) (f : Frame) : Dev :=
  if f.copies.isEmpty then
    if f.whole then
      let (d, g) := d.freeFront f (match f.broken with | some b => b - f.freed | none => f.held)
      d.fabUpd fun x => { x with frames := x.frames.filter (fun g => g.id ≠ f.id), orphans := if g.held = 0 then x.orphans else x.orphans ++ [g] }
    else
      let (d, f) := d.freeFront f ((match f.broken with | some b => min b f.avail | none => f.avail) - f.freed)
      d.fabUpd fun x => { x with frames := x.frames.map (fun g => if g.id = f.id then f else g) }
  else d.fabUpd fun x => { x with frames := x.frames.map (fun g => if g.id = f.id then f else g) }

/-- Replace a copy of a frame. -/
def Frame.setCopy (f : Frame) (k : Nat) (c : Copy) : Frame := { f with copies := f.copies.set k c }

/-- A copy is done: sent or discarded. -/
def Frame.dropCopy (f : Frame) (k : Nat) : Frame := { f with copies := f.copies.eraseIdx k }

/-- Cells of a frame's copy that are still to cross: those in the buffer. -/
def voqCells (f : Frame) (c : Copy) : Nat := f.avail - c.sent

/-- Cells in the VOQ of ingress fabric port `i`, egress fabric port `j` and class `c`. -/
def Dev.voqSize (d : Dev) (i j c : Nat) : Nat :=
  ((d.fab.frames.filter (fun f => fpOf f.port == i && f.cls == c)).map (fun f =>
    ((f.copies.filter (fun k => fpOf k.port == j && !k.crossed)).map (voqCells f)).sum)).sum

/-- Raise the peaks of the VOQs that hold a frame (R142). -/
def Dev.voqPeaks (d : Dev) (f : Frame) : Dev :=
  f.copies.foldl (fun d c => d.peak 0x2050 0x07 (d.voqSize (fpOf f.port) (fpOf c.port) f.cls) 0 (fpOf f.port)) d

/-- Cells of a frame have been written: `n` are in the buffer. -/
def Dev.writeCells (d : Dev) (id n : Nat) : Dev :=
  match d.frame? id with
  | none => d
  | some f =>
    let top := if f.whole then f.held + f.freed else cellsOf f.len - 1
    (d.putFrame { f with avail := max f.avail (min n top) }).voqPeaks f

/-! Admission (R128 to R134). -/

/-- Count a frame refused for a member's egress row: not UP, or its limit (Table 5.5). -/
def Dev.memberRefused (d : Dev) (p : Nat) : Dev := if d.portUp p then d.inc 0x2020 0x07 0 p else d.inc 0x2040 0x05 0 p

/-- The egress row of a port accepts `n` more cells. -/
def Dev.egressFits (d : Dev) (p n : Nat) : Bool := d.portUp p && decide (d.obj 0x2020 0x04 0 p + n ≤ d.obj 0x2020 0x01 0 p)

/-- First row of Table 5.5 that fails for the frame as a whole, as the object that counts it. -/
def Dev.wholeRow (d : Dev) (port cls n : Nat) (single : Option Nat) : Option (Nat × Nat) :=
  let (_, _, _, sh) := d.takeCells port cls n single
  if d.obj 0x2010 0x01 0 port < d.obj 0x2010 0x04 0 port + n then some (0x2010, port)
  else if d.obj 0x2030 0x01 0 cls < d.obj 0x2030 0x04 0 cls + n then some (0x2030, cls)
  else if 0 < sh ∧ d.obj 0x2000 0x05 < d.obj 0x2000 0x06 + sh then some (0x2010, port)
  else if d.freeCells < n then some (0x2010, port)
  else none

/-- The MACs of FP4, FP5 and FP9, which share their fabric port's cell slots (R19). -/
def sharesSlots (port : Nat) : Bool := 4 ≤ port && port < 20

/-- Store a frame that has passed its checks with a commitment of `n` cells; the cells of a MAC that shares its fabric port wait for their slots (R19). -/
def Dev.storeFrame (d : Dev) (f : Frame) (n : Nat) (single : Option Nat) : Dev × Option Nat :=
  let (ri, re, rc, sh) := d.takeCells f.port f.cls n single
  let f := { f with id := d.fab.nextId, ri := ri, re := re, rc := rc, sh := sh, ports := (f.copies.map (·.port)).eraseDups, single := single,
                    avail := if f.whole then n else if sharesSlots f.port then 0 else min 1 (cellsOf f.len - 1) }
  let d := d.chargeCells f
  ((d.fabUpd fun x => { x with frames := x.frames ++ [f], nextId := x.nextId + 1 }).voqPeaks f, some f.id)

/-- Admission of a frame with its wanted copies and commitment `n`; the number of the stored frame, none when it is refused (R128, R131, R134). -/
def Dev.admission (d : Dev) (f : Frame) (n : Nat) : Dev × Option Nat :=
  let mirrors := f.copies.filter (·.mirror)
  let mirrorOk := d.egressFits 24 n
  let main := f.copies.filter (fun c => !c.mirror)
  let addMirror (l : List Copy) : List Copy := if mirrorOk then l ++ mirrors else l
  let lost (d : Dev) : Dev := if mirrors.isEmpty || mirrorOk then d else d.inc64 0xD000 0x05
  match main with
  | [c] =>
    if ¬ d.portUp c.port then (d.inc 0x2040 0x05 0 c.port, none)
    else
      let single := some c.port
      let copies := addMirror [c]
      if d.obj 0x2010 0x01 0 f.port < d.obj 0x2010 0x04 0 f.port + n then (d.inc 0x2010 0x06 0 f.port, none)
      else if ¬ d.egressFits c.port n then (d.inc 0x2020 0x06 0 c.port, none)
      else match d.wholeRow f.port f.cls n single with
        | some (idx, r) => (d.inc idx 0x06 0 r, none)
        | none => (lost d).storeFrame { f with copies := copies, multi := false } n single
  | _ =>
    let good := main.filter (fun c => d.egressFits c.port n)
    let bad := main.filter (fun c => !d.egressFits c.port n)
    let copies := addMirror good
    match d.wholeRow f.port f.cls n none with
    | some (idx, r) => (d.inc idx 0x06 0 r, none)
    | none =>
      if main.isEmpty ∧ copies.isEmpty then (lost d, none)
      else if ¬ main.isEmpty ∧ good.isEmpty then (d.inc 0x2010 0x06 0 f.port, none)
      else
        let d := bad.foldl (fun d c => d.memberRefused c.port) (lost d)
        d.storeFrame { f with copies := copies, multi := true } n none

/-! The last cell (R128, R129) and bad ends (R124). -/

/-- The last cell of a frame of length `len` is in the buffer; the commitment not used is returned. -/
def Dev.finishFrame (d : Dev) (id len : Nat) : Dev :=
  match d.frame? id with
  | none => d
  | some f =>
    let k := cellsOf len
    let extra := f.held + f.freed - k
    let (d, f) := d.returnBack f extra
    let d := d.fabUpd fun x => { x with frames := x.frames.map (fun g => if g.id = id then f else g) }
    (d.putFrame { f with len := len, whole := true, avail := k }).writeCells id k

/-- A frame has been received to its end: its last cell is in the buffer, or waits for its slot at a MAC that shares its fabric port (R19). -/
def Dev.endFrame (d : Dev) (id len : Nat) : Dev :=
  match d.frame? id with
  | none => d
  | some f =>
    if sharesSlots f.port then d.fabUpd fun x => { x with frames := x.frames.map (fun g => if g.id = id then { f with len := len, ended := true } else g) }
    else d.finishFrame id len

/-- A frame in reception turns out bad: a copy whose transfer has begun ends with ABORT at its last available cell, which is the frame's last where the fault shows at its end (`atEnd`), and the cell in assembly where every other has crossed; a copy still wholly in the buffer is discarded (R124, R177). `countAll` says that discarded copies count as well. (DESIGN CHOICE: log entry 64.) -/
def Dev.abortFrame (d : Dev) (id : Nat) (countAll atEnd : Bool) : Dev :=
  match d.frame? id with
  | none => d
  | some f =>
    let begun := f.copies.filter (fun c => c.sent != 0)
    let rest := f.copies.filter (fun c => c.sent == 0)
    let d := (begun.filter (fun c => !c.bad)).foldl (fun d c => d.inc 0x2040 0x0A 0 c.port) d
    let d := if countAll then rest.foldl (fun d c => d.inc 0x2040 0x0A 0 c.port) d else d
    let k := if begun.any (fun c => decide (f.avail ≤ c.sent)) then f.avail + 1 else f.avail
    let d := d.fabUpd fun x => { x with frames := x.frames.map (fun g => if g.id = id then { f with copies := begun.map (fun c => { c with bad := true, aborted := true }) } else g) }
    if atEnd ∧ ¬ begun.isEmpty then d.endFrame id f.len else d.finishFrame id (k * 64)

/-! Flow control that a port sends (R187, R188). -/

/-- No frame and no fragment is on the line of a port: its MAC is at a frame boundary. -/
def Dev.lineFree (d : Dev) (p : Nat) : Bool := !d.fab.frames.any (fun f => f.copies.any (fun c => c.port == p && !c.mirror && c.started && !c.suspended))

/-- Flow-control frames of a port that wait, oldest first, by pause time. -/
def Dev.pauses (d : Dev) (p : Nat) : List Nat := tget (fun _ => []) d.ports.pauses p

/-- Replace the waiting flow-control frames of a port. -/
def Dev.setPauses (d : Dev) (p : Nat) (l : List Nat) : Dev := { d with ports := { d.ports with pauses := tput (fun _ => []) d.ports.pauses p l } }

/-- At a frame boundary, or between fragments, the waiting flow-control frames leave ahead of every queue (R187). -/
def Dev.pauseDue (d : Dev) (p : Nat) : Dev :=
  if (d.pauses p).isEmpty ∨ ¬ d.lineFree p then d
  else
    let u := unitOfPort p
    (d.pauses p).foldl (fun d n => (d.out (.pause p (d.obj 0x4050 0x01 u == 2) (d.obj 0x4050 0x05 u) n)).inc 0x4050 (if n = 0 then 0x09 else 0x08) u) (d.setPauses p [])

/-- Send an XOFF or release frame at the next frame boundary (R187). (DEDUCED: log entry 65.) -/
def Dev.sendPause (d : Dev) (p time : Nat) : Dev :=
  let u := unitOfPort p
  let d := if (d.pauses p).getLast? = some time then d else d.setPauses p (d.pauses p ++ [time])
  let d := if time = 0 then d.set 0x4050 0x07 0 u
    else (d.set 0x4050 0x07 1 u) |> fun d => { d with ports := { d.ports with xoffAt := tput (fun _ => 0) d.ports.xoffAt p d.now } }
  d.pauseDue p

/-- Of a resend and the fall below the low watermark in one tick only the release is sent (R187): the resend of this tick is taken back. -/
def Dev.unsendPause (d : Dev) (p : Nat) : Dev :=
  if tget (fun _ => none) d.ports.resentAt p = some d.now then
    let u := unitOfPort p
    let d := { d with ports := { d.ports with resentAt := tput (fun _ => none) d.ports.resentAt p none } }
    if (d.pauses p).isEmpty then
      { d with outbox := d.outbox.eraseP (fun o => match o with | .pause q _ _ n => q == p && n != 0 | _ => false) }.set 0x4050 0x08 ((d.obj 0x4050 0x08 u + (2 ^ 32 - 1)) % 2 ^ 32) u
    else d.setPauses p (d.pauses p).dropLast
  else d

/-- Compare a port's ingress counter with its watermarks (R187). (DEDUCED: log entry 65.) -/
def Dev.flowPort (d : Dev) (p : Nat) : Dev :=
  let u := unitOfPort p
  if d.obj 0x4050 0x01 u = 0 then d
  else
    let c := d.obj 0x2010 0x04 0 p
    if d.obj 0x4050 0x07 u = 0 then (if d.obj 0x4050 0x02 u < c then d.sendPause p (d.obj 0x4050 0x04 u) else d)
    else if c < d.obj 0x4050 0x03 u then (d.unsendPause p).sendPause p 0 else d

/-- Flow control of every port with it. -/
def Dev.flowAll (d : Dev) : Dev := ((List.range 12) ++ [20, 21]).foldl (fun d p => (d.pauseDue p).flowPort p) d

/-- XOFF_RESEND_TIMER (R187): half a pause time has passed while the counter has not fallen below the low watermark. -/
def execXoffResendTimer (t port : Nat) (s : State) : Host.Outcome State Fault Refusal :=
  s.cmd t (port < 12 || port == 20 || port == 21) fun d =>
    let u := unitOfPort port
    let due : Bool := decide (d.obj 0x4050 0x04 u * 640000 ≤ (d.now - tget (fun _ => 0) d.ports.xoffAt port) * 2 * d.obj 0x4020 0x04 u)
    if d.obj 0x4050 0x01 u ≠ 0 ∧ d.obj 0x4050 0x07 u = 1 ∧ due ∧ d.obj 0x4050 0x03 u ≤ d.obj 0x2010 0x04 0 port then
      { d.sendPause port (d.obj 0x4050 0x04 u) with ports := { (d.sendPause port (d.obj 0x4050 0x04 u)).ports with resentAt := tput (fun _ => none) d.ports.resentAt port (some d.now) } }
    else d

/-! Transfer (R118 to R122). -/

/-- The transfer context of a copy's MAC and kind carries another frame (R122). -/
def Dev.contextBusy (d : Dev) (f : Frame) (c : Copy) : Bool :=
  d.fab.frames.any (fun g => g.copies.any (fun k => k.port == c.port && d.kindOf g k == d.kindOf f c && k.sent != 0 && !k.crossed &&
    !(g.id == f.id && k.hdr == c.hdr && k.mirror == c.mirror)))

/-- Items of the to-host packet of a frame. -/
def packetItems (len : Nat) : Nat := 1 + cdiv len 8

/-- To-host FIFO of a frame: that of its host container, else that of its class (R299, R346). -/
def Dev.hostFifoOf (d : Dev) (f : Frame) : Nat := f.hostFifo.getD (d.obj 0x9020 0x01 0 f.cls)

/-- FP8 has room for a frame: its FIFO holds the whole packet beside the frames that wait for it (R346). -/
def Dev.hostRoom (d : Dev) (f : Frame) : Bool :=
  let n := d.hostFifoOf f
  let x := tget (fun _ => {}) d.fifos n
  let held := (x.visible.map (fun p => p.items.length - p.read)).sum + ((x.part.map (fun p => p.items.length - p.read)).getD 0) +
    ((x.opened.map (fun o => o.1.length)).getD 0)
  let waiting := ((d.fab.toHost.filter (fun g => d.hostFifoOf g == n)).map (fun g => packetItems g.len)).sum
  decide (held + waiting + packetItems f.len ≤ d.obj 0x9010 0x04 0 n)

/-- FP10 takes a frame for the Rose only when queue E is empty (R270). -/
def Dev.roseRoom (d : Dev) : Bool := d.rose.eq.isEmpty && d.fab.toRose.isEmpty

/-- A new frame for a member waits out the hold after the path change that it met (R360). (DEDUCED: log entry 67.) -/
def Dev.pathHeld (d : Dev) (c : Copy) : Bool :=
  match c.hdr with
  | some (m, _, _) =>
    c.heldTo != 0 && (match tget (fun _ => none) d.fab.pathHold m with | some e => c.heldTo == e || decide (d.now < c.heldTo) | none => false)
  | none => false

/-- A head frame may begin or go on with its transfer (R119); `full` are the port records without staging room. -/
def Dev.eligible (d : Dev) (full : List Nat) (f : Frame) (c : Copy) : Bool :=
  d.portUp c.port && !full.contains c.port && decide (c.sent < f.avail) && (c.cut || f.whole) &&
    (c.sent != 0 ||
      (!d.contextBusy f c && !d.pathHeld c && (c.port != 22 || d.hostRoom f) && (c.port != 23 || d.roseRoom) && d.gateOpen c.port f.cls &&
        (f.ptpEvent || (match c.leaf with | some l => d.leafOpen c.port l | none => true))))

/-- The head of a subqueue: the first copy of ingress fabric port, egress fabric port, class and egress MAC that has not crossed (R118). -/
def Dev.subHead (d : Dev) (i j c m : Nat) : Option (Frame × Nat) :=
  (d.fab.frames.filter (fun f => fpOf f.port == i && f.cls == c)).findSome? (fun f =>
    ((List.range f.copies.length).find? (fun k =>
      match f.copies[k]? with
      | some x => fpOf x.port == j && x.mac == m && !x.crossed
      | none => false)).map (fun k => (f, k)))

/-- Number of subqueues of a VOQ towards an egress fabric port (R118). -/
def subqueues (j : Nat) : Nat := if j = 4 ∨ j = 5 then 4 else if j = 9 then 8 else 1

/-- The eligible head of one subqueue. -/
def Dev.subReady (d : Dev) (full : List Nat) (i j c m : Nat) : Option (Frame × Nat) :=
  match d.subHead i j c m with
  | some (f, k) => match f.copies[k]? with
    | some x => if d.eligible full f x then some (f, k) else none
    | none => none
  | none => none

/-- The copy found is a mirror copy. -/
def isMirror (x : Frame × Nat) : Bool := match x.1.copies[x.2]? with | some c => c.mirror | none => false

/-- A frame for the control processors is eligible at FP11, so mirror copies wait (R21). -/
def Dev.cpReady (d : Dev) (full : List Nat) : Bool :=
  (List.range 12).any (fun i => (List.range 8).any (fun c => match d.subReady full i 11 c 0 with | some x => !isMirror x | none => false))

/-- The copy that a VOQ would send: its eligible subqueues take turns (R119). -/
def Dev.voqReady (d : Dev) (full : List Nat) (cp : Bool) (i j c : Nat) : Option (Frame × Nat) :=
  let n := subqueues j
  let t0 := tget (fun _ => 0) d.fab.turn ((i * 12 + j) * 8 + c)
  ((List.range n).map (fun k => (t0 + k) % n)).findSome? (fun m => (d.subReady full i j c m).filter (fun x => !(cp && j == 11 && isMirror x)))

/-- Classes from the highest down. -/
def classesDown : List Nat := [7, 6, 5, 4, 3, 2, 1, 0]

/-- A frame waits in some VOQ from ingress fabric port `i` to egress fabric port `j`. -/
def Dev.waits (d : Dev) (i j : Nat) : Bool :=
  d.fab.frames.any (fun f => fpOf f.port == i && f.copies.any (fun c => fpOf c.port == j && !c.crossed))

/-- req[i][j] of R120 as class plus 1, 0 for none. -/
def Dev.request (d : Dev) (full : List Nat) (cp : Bool) (i j : Nat) : Nat :=
  if ¬ d.waits i j then 0
  else match classesDown.find? (fun c => (d.voqReady full cp i j c).isSome) with
  | some c => c + 1
  | none => 0

/-- The first element from `p` on, round mod 12, that satisfies a test. -/
def ringFind (p : Nat) (test : Nat → Bool) : Option Nat := ((List.range 12).map (fun k => (p + k) % 12)).find? test

/-- Largest of a list. -/
def maxOf (l : List Nat) : Nat := l.foldl max 0

/-- State of the matching: matches as ingress, egress, class plus 1 and iteration. -/
structure Matching where
  got : List (Nat × Nat × Nat × Nat) := []
  gptr : Tbl Nat
  aptr : Tbl Nat
  deriving DecidableEq, Repr

/-- One iteration of R120 over the requests `req i j`. -/
def matchStep (req : Nat → Nat → Nat) (it : Nat) (m : Matching) : Matching :=
  let freeI (i : Nat) : Bool := !(m.got.any (fun x => x.1 == i))
  let freeJ (j : Nat) : Bool := !(m.got.any (fun x => x.2.1 == j))
  let grants : List (Nat × Nat) := (List.range 12).filterMap (fun j =>
    if freeJ j then
      let best := maxOf ((List.range 12).map (fun i => if freeI i then req i j else 0))
      if best = 0 then none
      else (ringFind (tget (fun _ => 0) m.gptr j) (fun i => freeI i && req i j == best)).map (fun i => (j, i))
    else none)
  (List.range 12).foldl (fun m i =>
    let g := (grants.filter (fun x => x.2 == i)).map (·.1)
    let best := maxOf (g.map (req i))
    if g.isEmpty then m
    else match ringFind (tget (fun _ => 0) m.aptr i) (fun j => g.contains j && req i j == best) with
      | some j =>
        let got := m.got ++ [(i, j, best, it)]
        if it = 1 then { got := got, aptr := tput (fun _ => 0) m.aptr i ((j + 1) % 12), gptr := tput (fun _ => 0) m.gptr j ((i + 1) % 12) }
        else { m with got := got }
      | none => m) m

/-- The matching of one cell time (R120, R121). -/
def matchAll (req : Nat → Nat → Nat) (iterations : Nat) (m : Matching) : Matching :=
  ((List.range 3).filter (· < iterations)).foldl (fun m k => matchStep req (k + 1) m) m

/-- A copy's last cell has crossed to an egress without a MAC: the Rose, the host or the control processors take the frame; a bad one is discarded (R124). -/
def Dev.arriveInside (d : Dev) (f : Frame) (k : Nat) (c : Copy) : Dev :=
  let d := if c.bad then d
    else if f.oversize ∧ 23 ≤ c.port ∧ ¬ c.mirror then d.inc 0x2040 0x0A 0 c.port
    else if c.port = 22 then d.fabUpd fun x => { x with toHost := x.toHost ++ [{ f with copies := [] }] }
    else if c.port = 23 then d.fabUpd fun x => { x with toRose := x.toRose ++ [{ f with copies := [] }] }
    else if c.mirror then d.fabUpd fun x => { x with mirrors := x.mirrors ++ [{ f with copies := [] }] }
    else d.out (.toCp f.port f.data)
  let d := match c.leaf with
    | some l => if c.bad then d else d.chargeLeaf l (f.len + toI32 (d.obj 0x5050 0x02 0 c.port))
    | none => d
  d.putFrame (f.dropCopy k)

/-- The control word that accompanies a cell of a copy (R115, Table 5.1); `k` cells of the copy have crossed before it. -/
def controlWord (f : Frame) (c : Copy) (k : Nat) (last poison abort : Bool) : Nat :=
  let valid := if last ∧ f.whole ∧ f.len - 64 * k < 64 then f.len - 64 * k - 1 else 63
  fpOf c.port + fpOf f.port * 2 ^ 4 + f.cls * 2 ^ 8 + c.mac * 2 ^ 11 + macOf f.port * 2 ^ 14 + b2n (k == 0) * 2 ^ 17 + b2n last * 2 ^ 18 +
    valid * 2 ^ 19 + b2n poison * 2 ^ 25 + b2n abort * 2 ^ 26 + b2n f.multi * 2 ^ 27

/-- One cell of a copy crosses from ingress to egress fabric port; the read may be uncorrectable or its link lost (R115, R116, R119, R124). A copy that is aborted before its line has begun is discarded (R207). -/
def Dev.sendCell (d : Dev) (f : Frame) (k : Nat) (c : Copy) (poison lost : Bool) : Dev :=
  let i := fpOf f.port
  let j := fpOf c.port
  let d := (d.inc64 0x2050 0x01 0 i).inc64 0x2050 0x02 0 j
  let d := d.fabUpd fun x => { x with turn := tput (fun _ => 0) x.turn ((i * 12 + j) * 8 + f.cls) ((c.mac + 1) % subqueues j) }
  let first : Bool := c.sent = 0
  let d := if first then d.inc 0x2040 (if c.cut then 0x08 else 0x09) 0 c.port else d
  let d := if lost then d.inc 0x2000 0x0A else d
  let f := if lost && f.broken.isNone then { f with broken := some (c.sent + 1) } else f
  let cutOff : Bool := f.broken = some (c.sent + 1)
  let last : Bool := cutOff || (f.whole && decide (f.avail ≤ c.sent + 1))
  let d := if (poison || cutOff) && !c.bad then d.inc 0x2040 0x0A 0 c.port else d
  let d := d.fabUpd fun x => { x with words := x.words ++ [controlWord f c c.sent last poison (last && (c.aborted || cutOff))] }
  let c' := { c with sent := c.sent + 1, crossed := last, bad := c.bad || poison || cutOff, aborted := c.aborted || cutOff, order := if first then d.fab.nextOrder else c.order }
  let d := if first then d.fabUpd fun x => { x with nextOrder := x.nextOrder + 1 } else d
  let f := f.setCopy k c'
  if last ∧ 22 ≤ c.port then d.arriveInside f k c'
  else if last ∧ c'.aborted ∧ ¬ c'.started then d.putFrame (f.dropCopy k)
  else d.putFrame f

/-! Cell slots at ingress (R19, R21). -/

/-- Complete cells of a frame in reception: `ready` gives those of each port and kind; the first is complete with its arrival, the last with the frame's end. -/
def Dev.cellsReady (d : Dev) (ready : List (Nat × Nat × Nat)) (f : Frame) : Nat :=
  if f.ended then cellsOf f.len
  else
    let n := (ready.find? (fun w => w.1 == f.port && (tget (fun _ => none) d.fab.rx (w.1 * 2 + w.2.1)).any (fun r => r.frame == some f.id))).map (·.2.2)
    min (max 1 (n.getD 1)) (cellsOf f.len - 1)

/-- The frame in reception whose next cell takes the slot of an ingress fabric port: its MACs take slots in turn, and one without a complete cell ready is passed over (R19). (DESIGN CHOICE: log entry 161.) -/
def Dev.slotTaker (d : Dev) (ready : List (Nat × Nat × Nat)) (i : Nat) : Option (Nat × Nat) :=
  let t0 := tget (fun _ => 0) d.fab.slot i
  let want := d.fab.frames.filterMap (fun f => if fpOf f.port = i ∧ ¬ f.whole ∧ f.avail < d.cellsReady ready f then some (macOf f.port, f.id) else none)
  ((List.range 8).map (fun k => (t0 + k) % 8)).findSome? (fun m => (want.find? (fun x => x.1 == m)))

/-- Every ingress fabric port writes the cell of the MAC whose turn it is. -/
def Dev.takeSlots (d : Dev) (ready : List (Nat × Nat × Nat)) : Dev :=
  (List.range 12).foldl (fun d i =>
    match d.slotTaker ready i with
    | some (m, id) =>
      let d := d.fabUpd fun x => { x with slot := tput (fun _ => 0) x.slot i ((m + 1) % 8) }
      match d.frame? id with
      | some f => if f.ended ∧ cellsOf f.len ≤ f.avail + 1 then d.finishFrame id f.len else d.writeCells id (f.avail + 1)
      | none => d
    | none => d) d

/-- The free-list audit returns the cells beyond lost links (R116). (DESIGN CHOICE: log entry 165.) -/
def Dev.auditCells (d : Dev) : Dev :=
  d.fab.orphans.foldl (fun d f => (d.returnCells f f.ri f.re f.rc f.sh).inc 0x2000 0x0B 0 0 f.held) (d.fabUpd fun x => { x with orphans := [] })

/-! Port states (R135 to R137). -/

/-- The link of a port record is up. -/
def Dev.linkUp (d : Dev) (p : Nat) : Bool := tget (fun _ => false) d.fab.link p

/-- A port's link comes up (Table 5.6). -/
def Dev.portLinkUp (d : Dev) (p : Nat) : Dev :=
  let d := d.fabUpd fun x => { x with link := tput (fun _ => false) x.link p true }
  if d.obj 0x2040 0x01 0 p = 1 then d else d.set 0x2040 0x01 3 0 p

/-- A port's link goes down: the hold-down starts, and a port that was UP flushes (Table 5.6, R137). -/
def Dev.portLinkDown (d : Dev) (p : Nat) : Dev :=
  let was := d.linkUp p
  let d := d.fabUpd fun x => { x with link := tput (fun _ => false) x.link p false }
  let d := if was then d.fabUpd fun x => { x with downAt := tput (fun _ => 0) x.downAt p d.now } else d
  if d.obj 0x2040 0x01 0 p = 3 ∧ p < 23 then (d.set 0x2040 0x01 1 0 p).fabUpd fun x => { x with flushAt := tput (fun _ => 0) x.flushAt p d.now } else d

/-- The stamps of `n` aborted copies of a frame are discarded; a Pdelay_Req that was aborted has no departure (R72). -/
def Dev.stampLost (d : Dev) (u : Nat) (f : Frame) (n : Nat) : Dev :=
  let d := d.inc 0x8040 0x0D u 0 n
  match f.ptp with
  | some j => if j.msg.kind = 3 then d.sexUpd fun x => { x with pdelay := tput (fun _ => {}) x.pdelay u { tget (fun _ => {}) x.pdelay u with sentAt := none } } else d
  | none => d

/-- The flush of a port: every frame for it leaves every subqueue and its staging (R136), the stamp of a PTP event frame on its line is discarded (R72), and no back-off of its frames is left. -/
def Dev.flushPort (d : Dev) (p : Nat) : Dev :=
  let mine (c : Copy) : Bool := c.port == p && !c.mirror
  let hit := d.fab.frames.filter (fun f => f.copies.any mine)
  let d := hit.foldl (fun d f =>
    let gone := f.copies.filter mine
    let stamps : Nat := if f.ptpEvent then (gone.filter (·.started)).length else 0
    let d := if stamps = 0 then d else d.stampLost (unitOfPort p) f stamps
    (d.inc 0x2040 0x04 0 p gone.length).putFrame { f with copies := f.copies.filter (fun c => !mine c) }) d
  let d := if p = 22 then (d.inc 0x2040 0x04 0 p d.fab.toHost.length).fabUpd fun x => { x with toHost := [] } else d
  let d := { d with ports := { d.ports with backoff := tput (fun _ => none) d.ports.backoff p none } }
  (d.inc 0x2040 0x03 0 p).set 0x2040 0x0B ((d.now - tget (fun _ => 0) d.fab.flushAt p) / perUs) 0 p

/-- FLUSH_COMPLETE (R136, Table 5.6). -/
def execFlushComplete (t port : Nat) (s : State) : Host.Outcome State Fault Refusal :=
  s.cmd t (port < 23) fun d =>
    if d.obj 0x2040 0x01 0 port = 1 then ((d.flushPort port).set 0x2040 0x01 (if d.linkUp port then 3 else 2) 0 port).flowAll.finishIfReady else d

/-! Arrivals of known length (R128): the host, the Rose and replay. -/

/-- Whether a frame is a PTP event frame (R80). -/
def ptpEventFrame (b : Bytes) : Bool :=
  let p := parseFrame b
  p.ethertype == 0x88F7 && ([0, 2, 3].contains (byteAt b p.payload % 16))

/-- Stack header fields of a frame that is sent to a K port as such: the neighbour's local egress set (R353). (DESIGN CHOICE: log entry 227.) -/
def Dev.neighbourHdr (d : Dev) (port : Nat) : Option (Nat × Nat × Nat) :=
  if port = 20 ∨ port = 21 then some (d.obj 0x9420 0x03 (unitOfPort port) % 4, 0x1F, 0) else none

/-- The copy for one egress of the decision: none for a member that is not PRESENT (R358, R360). -/
def Dev.copyFor (d : Dev) (vid cls : Nat) (hops : Nat) : Egress → Dev × Option Copy
  | .loc p => (d, some { port := p, hdr := d.neighbourHdr p, leaf := d.leafOf p vid cls })
  | .rem m q =>
    let via := d.obj 0x9410 0x07 0 m
    if d.memberPresent m ∧ m ≠ d.stackId ∧ via ≠ 0 then
      let hold := (tget (fun _ => none) d.fab.pathHold m).getD 0
      (if hold = 0 then d else d.inc 0x9400 0x0A, some { port := 19 + via, hdr := some (m, q, hops), heldTo := hold, leaf := d.leafOf (19 + via) vid cls })
    else (d.inc 0x9400 0x0B, none)

/-- The copies of a decision's egress set. -/
def Dev.copiesFor (d : Dev) (vid cls hops : Nat) : List Egress → Dev × List Copy
  | [] => (d, [])
  | e :: l =>
    let (d, c) := d.copyFor vid cls hops e
    let (d, cs) := d.copiesFor vid cls hops l
    (d, c.toList ++ cs)

/-- Classify, look up, police and take in a whole frame of record `port` (R347, R128): the device and the number of the stored frame. -/
def Dev.offerWhole (d : Dev) (port : Nat) (b : Bytes) (oversize badFcs : Bool) : Dev × Option Nat :=
  let p := parseFrame b
  let c := d.classify port p
  let len := b.length + 4
  let base : Frame := {
    id := 0, port := port, data := b, len := len, cls := 0, vid := c.vid, pcp := c.pcp, dei := c.dei, tagged := c.tagged,
    oversize := oversize, badFcs := badFcs, multi := false, ptpEvent := ptpEventFrame b, stamp := d.lt, rule := none, smem := d.stackId, sport := port, whole := true }
  if reservedDest p.da then
    let cls := d.pcpClass port c.pcp
    let (d, pol) := d.policeFrame port none len c.dei
    if pol.drop then (d, none) else d.admission { base with cls := cls, dei := pol.dei, copies := [{ port := 24 }] } (cellsOf len)
  else
    match d.classifyDrop port p c with
    | some sub => (d.inc 0x3010 sub 0 port, none)
    | none =>
      let (d, dec) := d.forward port b p c []
      let d := match dec.learn with
        | some key =>
          if 23 ≤ port then d
          else match d.chartFind key with
            | some q => if entDest (d.mac q) = d.stackId * 32 + port ∧ entType (d.mac q) ≠ 3 then d.chartRefresh q
                else if entDest (d.mac q) = d.stackId * 32 + port then d
                else d.chartRequest { key := key, dest := d.stackId * 32 + port, stamp := clkNs d.sex.zt.val, msgFrom := none, remote := false }
            | none => d.chartRequest { key := key, dest := d.stackId * 32 + port, stamp := clkNs d.sex.zt.val, msgFrom := none, remote := false }
        | none => d
      if dec.drop then (d, none)
      else
        let (d, pol) := d.policeFrame port (dec.rule.map (d.obj 0x3040 0x07 0 ·)) len c.dei
        if pol.drop then (d, none)
        else
          let (d, cs) := d.copiesFor c.vid dec.cls 0 dec.out
          let cs := if dec.mirror then cs ++ [{ port := 24, mirror := true }] else cs
          d.admission { base with cls := dec.cls, dei := pol.dei, rule := dec.rule, copies := cs } (cellsOf len)

/-- A frame of record 22 or 23 waits for its cell slots at FP8 or FP10 (R117). -/
def Dev.offer (d : Dev) (f : Frame) : Dev := d.fabUpd fun x => { x with offers := x.offers ++ [f] }

/-- An Ethernet frame of record `port` that is still to be looked up. -/
def Dev.rawFrame (d : Dev) (port : Nat) (b : Bytes) (oversize badFcs : Bool) : Frame :=
  { id := 0, port := port, data := b, len := b.length + 4, cls := 0, vid := 0, pcp := 0, dei := false, tagged := false, oversize := oversize, badFcs := badFcs,
    multi := false, ptpEvent := false, stamp := d.lt, rule := none, smem := d.stackId, sport := port, whole := true }

/-- A frame that leaves through FP11 towards one port record, with its class and leaf. -/
def Dev.fp11Frame (d : Dev) (port : Nat) (b : Bytes) : Frame :=
  let c := d.classify 24 (parseFrame b)
  let cls := d.pcpClass 24 c.pcp
  { id := 0, port := 24, data := b, len := b.length + 4, cls := cls, vid := c.vid, pcp := c.pcp, dei := c.dei, tagged := c.tagged, oversize := false,
    multi := false, ptpEvent := ptpEventFrame b, stamp := d.lt, rule := none, smem := d.stackId, sport := 24, whole := true,
    copies := [{ port := port, hdr := d.neighbourHdr port, leaf := d.leafOf port c.vid cls }] }

/-- A frame of the control processors waits for its cell slots at FP11. -/
def Dev.offerCp (d : Dev) (f : Frame) : Dev := d.fabUpd fun x => { x with fromCp := x.fromCp ++ [f] }

/-- A frame of the recorder's replay waits for its cell slots at FP11 (R473). -/
def Dev.offerReplay (d : Dev) (port : Nat) (b : Bytes) : Dev :=
  let f := d.fp11Frame port b
  d.fabUpd fun x => { x with fromLog := x.fromLog ++ [f] }

/-! FP8, FP10 and FP11 towards the fabric, and one cell time. -/

/-- The frame that FP8, FP10 or FP11 brings next, and the device without it: at FP11 one of the control processors goes before one of the replay (R21). -/
def Dev.localNext (d : Dev) (i : Nat) : Option (Frame × Dev) :=
  if i = 11 then
    match d.fab.fromCp, d.fab.fromLog with
    | f :: l, _ => some (f, d.fabUpd fun x => { x with fromCp := l })
    | [], f :: l => some (f, d.fabUpd fun x => { x with fromLog := l })
    | [], [] => none
  else (d.fab.offers.find? (fun f => fpOf f.port == i)).map (fun f => (f, d.fabUpd fun x => { x with offers := x.offers.erase f }))

/-- FP8, FP10 or FP11 may begin with a frame: every cell of the one before has had its slot, and the retirements of start-up are done (R117, R140). -/
def Dev.localFree (d : Dev) (i : Nat) : Bool := tget (fun _ => 0) d.fab.slots i == 0 && d.flag 0xC040 0x07

/-- FP8 takes a packet of the host (R117, R140). -/
def Dev.hostFree (d : Dev) : Bool := d.localFree 8 && !(d.fab.offers.any (fun f => fpOf f.port == 8))

/-- The first cell of the next frame of FP8, FP10 or FP11: the frame is looked up unless it names its egress, policed and admitted, and it holds the slots of its other cells (R21, R117, R214). (DESIGN CHOICE: log entry 162.) -/
def Dev.localFirst (d : Dev) (i : Nat) : Dev :=
  match d.localNext i with
  | none => d
  | some (f, d) =>
    let d := d.fabUpd fun x => { x with slots := tput (fun _ => 0) x.slots i (cellsOf f.len - 1) }
    if f.copies.isEmpty then (d.offerWhole f.port f.data f.oversize f.badFcs).1
    else
      let (d, pol) := d.policeFrame f.port none f.len f.dei
      if pol.drop then d else (d.admission { f with dei := pol.dei } (cellsOf f.len)).1

/-- The frames in progress at FP8, FP10 and FP11 bring one cell each. -/
def Dev.localCells (d : Dev) : Dev := d.fabUpd fun x => { x with slots := x.slots.map (fun s => (s.1, s.2 - 1)) |>.filter (fun s => s.2 != 0) }

/-- One matching of the fabric and the cells that cross (R115, R116, R120, R121). (DESIGN CHOICE: log entry 61.) -/
def Dev.crossCells (d : Dev) (c : CellTime) : Dev :=
  let cp := d.cpReady c.full
  let reqs : List (List Nat) := (List.range 12).map (fun i => (List.range 12).map (fun j => d.request c.full cp i j))
  let req (i j : Nat) : Nat := (reqs.getD i []).getD j 0
  let m := matchAll req (d.obj 0x2000 0x41) { gptr := d.fab.gptr, aptr := d.fab.aptr }
  let picks := m.got.filterMap (fun x => (d.voqReady c.full cp x.1 x.2.1 (x.2.2.1 - 1)).map (fun y => (x, y.1.id, y.2)))
  let d := d.fabUpd fun x => { x with gptr := m.gptr, aptr := m.aptr }
  let d := picks.foldl (fun d x =>
    let d := d.inc64 0x2050 (0x02 + x.1.2.2.2) 0 x.1.1
    match d.frame? x.2.1 with
    | some f => match f.copies[x.2.2]? with
      | some y => d.sendCell f x.2.2 y (c.poisoned.contains (fpOf y.port)) (c.lost.contains (fpOf y.port))
      | none => d
    | none => d) d
  (List.range 12).foldl (fun d i =>
    if (reqs.getD i []).any (0 < ·) && !(m.got.any (fun x => x.1 == i)) then d.inc64 0x2050 0x06 0 i else d) d

/-! Retired blocks (R140) and the limits (R130, R131). -/

/-- The 75 or fewer reserves: index and record of each. -/
def reserveList : List (Nat × Nat) := (List.range 25).map (fun r => (0x2010, r)) ++ (List.range 25).map (fun r => (0x2020, r)) ++ (List.range 8).map (fun r => (0x2030, r))

/-- Sum of the configured reserves. -/
def Dev.reserveSum (d : Dev) : Nat := (reserveList.map (fun x => d.obj x.1 0x02 0 x.2)).sum

/-- Recompute the effective reserves and the shared pool (R127, R140). -/
def Dev.recomputePool (d : Dev) : Dev :=
  let u := d.obj 0x2000 0x02
  let total := d.reserveSum
  let fits : Bool := decide (total ≤ u)
  let d := reserveList.foldl (fun d x => let v := d.obj x.1 0x02 0 x.2; d.set x.1 0x03 (if fits then v else v * u / total) 0 x.2) d
  let eff := (reserveList.map (fun x => d.obj x.1 0x03 0 x.2)).sum
  let d := d.set 0x2000 0x05 (u - eff)
  let was := d.flag 0x2000 0x07
  let d := d.set 0x2000 0x07 (b2n !fits)
  if ¬ fits ∧ ¬ was then d.event 3 (some 5) Ev.reservesReduced.code else d

/-- A block of 64 cells leaves the packet buffer (R140): its free cells at once, its cells in use as they are freed. How many of its cells a stored frame holds is not stated, for a cell's place is not part of the state: a free value for each frame. (DESIGN CHOICE: log entry 166.) -/
def Dev.retireCells (d : Dev) : Dev :=
  let (d, fs, _) := d.fab.frames.foldl (fun (x : Dev × List Frame × Nat) f =>
    let (v, d) := x.1.free 9
    let n := v % (min x.2.2 (f.held - f.leaving) + 1)
    (d, x.2.1 ++ [{ f with leaving := f.leaving + n }], x.2.2 - n)) (d, [], 64)
  let d := d.fabUpd fun x => { x with frames := fs }
  let d := (d.set 0x2000 0x02 (d.obj 0x2000 0x02 - 64)).inc 0x2000 0x03 0 0 64
  d.recomputePool

/-- MIRROR_RECORD is in the chapter on integrity; this takes the oldest mirror copy at FP11. -/
def Dev.takeMirror (d : Dev) : Option (Frame × Dev) :=
  match d.fab.mirrors with
  | f :: l => some (f, d.fabUpd fun x => { x with mirrors := l })
  | [] => none

/-! Almanac writes of 2000–2FFF. -/

/-- Checks 10 of 2000–2FFF beyond type and range (R130). -/
def Dev.fabValue (d : Dev) (idx sub r v : Nat) : Nat :=
  if idx = 0x2010 ∨ idx = 0x2020 ∨ idx = 0x2030 then
    match sub with
    | 0x01 => if v < d.obj idx 0x02 0 r ∨ d.obj 0x2000 0x02 < v then 0x301 else 0
    | 0x02 => if d.obj idx 0x01 0 r < v then 0x301 else 0
    | _ => 0
  else 0

/-- Checks 12 and 13 of 2000–2FFF (R130). -/
def Dev.fabDeps (d : Dev) (idx sub r v : Nat) : Nat :=
  if (idx = 0x2010 ∨ idx = 0x2020 ∨ idx = 0x2030) ∧ sub = 0x02 then
    (if d.obj 0x2000 0x02 < d.reserveSum - d.obj idx 0x02 0 r + v then 0x306 else 0)
  else 0

/-- What an accepted write of 2000–2FFF does. -/
def Dev.fabApply (d : Dev) (idx sub r v : Nat) : Dev :=
  if idx = 0x2000 ∧ sub = 0x0C then
    if v = 1 then
      let d := reserveList.foldl (fun d x => d.set x.1 0x05 (d.obj x.1 0x04 0 x.2) 0 x.2) d
      (List.range 12).foldl (fun d i => d.set 0x2050 0x07 (maxOf ((List.range 12).map (fun j => maxOf ((List.range 8).map (d.voqSize i j))))) 0 i) d
    else d
  else
    let d := d.set idx sub v 0 r
    if (idx = 0x2010 ∨ idx = 0x2020 ∨ idx = 0x2030) ∧ sub = 0x02 then d.recomputePool else d

end Sys2Proof.Machine
end

