-- ==== Sys2Proof/Machine/Binnacle.lean ====
section
/-! DEFINITION. The Binnacle, the key store and the objects of MACsec (R399 to R428). -/
namespace Sys2Proof.Machine

/-- Stage 0 after the root is rebuilt (R402, R404, R413). -/
def Dev.binStage0 (d : Dev) : Dev :=
  let k := shake256 (ascii "VZN-ROOT" ++ Config.rootBits) 32
  let m0 := shake256 (ascii "VZN-M0" ++ Config.romContents) 64
  let d := ((d.set 0xB010 0x01 (beNat m0)).set 0xB010 0x04 0).set 0xB000 0x01 1
  let d := (d.setSlot 1 1 3 1 0 (kdf k (ascii "FLASH-XTS") 0 m0 [] 64)).keyTransfer 1
  let d := d.binUpd fun x => { x with kroot := some k, kwrap := kdf k (ascii "KS-WRAP") 0 m0 [] 32, seed := kdf k (ascii "IDENTITY") 0 m0 [] 48, identityReady := false }
  let d := if d.bin.broken then ((d.inc 0xB020 0x0A).set 0xB020 0x07 3).binUpd fun x => { x with broken := false } else d
  let d := d.set 0xB020 0x06 d.bin.counter
  match d.bin.inForce with
  | some (letter, c) => (((d.set 0xB000 0x03 c.gen).set 0xB000 0x04 letter).set 0xB000 0x05 1).loadStore c
  | none => if d.bin.provisioned then (d.set 0xB000 0x05 2).event 8 (some 20) Ev.keyStoreLost.code else d

/-- Stage 1 with the image digest of the firmware manifest (R402, R404). -/
def Dev.binStage1 (d : Dev) (fwd : Bytes) : Dev :=
  match d.bin.kroot with
  | none => d
  | some k =>
    let m1 := shake256 (ascii "VZN-M1" ++ d.measure 0 ++ fwd) 64
    let d := ((d.set 0xB010 0x02 (beNat m1)).set 0xB010 0x04 1).set 0xB000 0x01 2
    [0, 1, 2].foldl (fun d r => (d.setSlot (2 + r) 1 3 1 0 (kdf k (ascii "DRAM-XTS") 1 m1 (beBytes 1 r) 64)).keyTransfer (2 + r)) d

/-- Stage 2 with the digest of the Almanac image; derived slots are computed again (R402, R408). -/
def Dev.binStage2 (d : Dev) (aid : Bytes) : Dev :=
  match d.bin.kroot with
  | none => d
  | some _ =>
    let m2 := shake256 (ascii "VZN-M2" ++ d.measure 1 ++ aid) 64
    let d := ((d.set 0xB010 0x03 (beNat m2)).set 0xB010 0x04 2).set 0xB000 0x01 3
    (List.range 256).foldl (fun d s => if d.flag 0xB040 0x10 0 s then d.deriveSlot s else d) d

/-- The root array is read for a start; a third failed attempt is root failed (R400, R401). -/
def Dev.rootRead (d : Dev) (ok : Bool) : Dev :=
  let d := d.inc 0xB000 0x02
  if ok then d.binStage0
  else if 3 ≤ d.obj 0xB000 0x02 then (d.set 0xB000 0x01 4).event 8 none Ev.rootFailed.code
  else d

/-- Keys, staging and measurements leave at a CORE reset (R399, R415). -/
def Dev.binReset (d : Dev) : Dev :=
  d.binUpd fun x => { x with
    kroot := none, kwrap := [], kimp := [], seed := [], keys := [], lost := [], staged := [], identityReady := false, highPn := [], pnRaised := [], gcm := [],
    broken := x.broken || d.obj 0xB020 0x05 == 2 }

/-- IDENTITY_KEY_READY (R410). -/
def execIdentityKeyReady (t : Nat) (s : State) : Host.Outcome State Fault Refusal :=
  s.cmd t true fun d =>
    if d.bin.kroot.isNone then d
    else
      let pk := Config.falconPublic d.bin.seed
      let part (k : Nat) : Nat := beNat (((pk.drop (1024 * k)).take 1024 ++ List.replicate 1024 0).take 1024)
      let d := (d.set 0xB051 0x01 (part 0)).set 0xB051 0x01 (part 1) 0 1
      (d.set 0xB050 0x01 (beNat (shake256 (ascii "VZN-IDFP" ++ pk) 32))).binUpd fun x => { x with identityReady := true }

/-- RANDOM_HEALTH_FAILURE (R427). -/
def execRandomHealthFailure (t : Nat) (s : State) : Host.Outcome State Fault Refusal :=
  s.cmd t true fun d => ((d.set 0xB000 0x06 1).inc 0xB000 0x07).event 8 (some 20) Ev.healthFailure.code

/-! Attestation and identity (R409, R410). -/

/-- X_att around a nonce (R409). -/
def Dev.xAtt (d : Dev) (nonce : Nat) : Bytes :=
  beBytes 32 nonce ++ d.measure 0 ++ d.measure 1 ++ d.measure 2 ++ serialBytes ++ beBytes 32 (d.obj 0xB050 0x01)

/-- The attestation response (R409). -/
def Dev.attest (d : Dev) (nonce : Nat) : Dev :=
  (d.set 0xB030 0x02 (beNat (kmac256 (d.key 0) (d.xAtt nonce) (ascii "VZN-ATTEST") 32))).inc 0xB030 0x03

/-- An identity signature (R410); the signer's randomness is a free value. (DEDUCED: log entry 129.) -/
def Dev.sign (d : Dev) (nonce : Nat) : Dev :=
  let (r, d) := d.free 20
  let sig := (Config.falconSign d.bin.seed (ascii "VZN-IDSIG" ++ d.xAtt nonce) r ++ List.replicate 1280 0).take 1280
  let d := (d.set 0xB052 0x01 (beNat (sig.take 1024))).set 0xB052 0x01 (beNat (sig.drop 1024 ++ List.replicate 768 0)) 0 1
  (d.set 0xB050 0x03 1280).inc 0xB050 0x04

/-! Slot references (R406). -/

/-- Enabled associations that name a slot. -/
def Dev.gcmRefs (d : Dev) (slot : Nat) : Nat :=
  ([1, 2, 3, 4, 63, 64].map (fun u => ((List.range 8).filter (fun r => d.flag 0xB110 0x01 u r && d.obj 0xB110 0x02 u r == slot)).length)).sum

/-- Enabled secured definitions and used candidate records that name a slot. -/
def Dev.cmacRefs (d : Dev) (slot : Nat) : Nat :=
  (d.store.filter (fun x => x.1 % 2 ^ 24 == 0x781021 && x.2 == slot && d.flag 0x7810 0x20 0 (x.1 / 2 ^ 32) && d.flag 0x7100 0x01 0 (x.1 / 2 ^ 32))).length +
    ((List.range 16).filter (fun r => (d.obj 0x1010 0x01 0 r == 2 || d.obj 0x1010 0x01 0 r == 3) && d.obj 0x1010 0x05 0 r == slot)).length

/-- XTS slots are in use by their engine once derived. -/
def Dev.slotRefs (d : Dev) (slot : Nat) : Nat :=
  d.gcmRefs slot + d.cmacRefs slot + (if 1 ≤ slot ∧ slot ≤ 4 ∧ d.slotFull slot then 1 else 0)

/-! Provisioning (R414 to R419). -/

/-- Type and usage fit together (Table 16.3). -/
def typeUsageOk (type usage : Nat) : Bool :=
  match type with
  | 1 => usage == 4
  | 2 => usage == 4 || usage == 2 || usage == 6
  | 3 => usage == 1
  | 4 => usage == 8
  | _ => false

/-- Exclusive-or of two byte strings. -/
def xorBytes (a b : Bytes) : Bytes := (a.zip b).map (fun x => x.1 ^^^ x.2)

/-- Counter that a new blob has to exceed (R415). (DEDUCED: log entry 131.) -/
def Dev.lastCounter (d : Dev) : Nat := max (d.obj 0xB020 0x06) ((d.bin.staged.map (·.counter)).foldl max 0)

/-- The slots that a CMAC user may keep while a blob changes them (R406). -/
def Dev.swapAllowed (d : Dev) (slot op type usage : Nat) : Bool :=
  d.gcmRefs slot == 0 && (d.cmacRefs slot == 0 || (op != 2 && d.obj 0xB040 0x02 0 slot == type && d.obj 0xB040 0x03 0 slot == usage))

/-- The checks of R415 in order; `local_` says that the write came over PCIe or HS (R419). 0 accepts. (DEDUCED: log entry 131.) -/
def Dev.blobCheck (d : Dev) (b : Bytes) (local_ : Bool) : Nat :=
  let op := byteAt b 1
  let slot := byteAt b 2
  let type := byteAt b 3
  let usage := field b 4 4
  let zeros (l : Bytes) : Bool := l.all (· == 0)
  let len := keyBytes type
  if d.obj 0xB020 0x05 = 2 then 0x613
  else if byteAt b 0 ≠ 1 ∨ op < 1 ∨ 3 < op ∨ ¬ zeros (slice b 80 32) then 0x302
  else if op = 2 ∧ (type ≠ 0 ∨ usage ≠ 0 ∨ ¬ zeros (slice b 16 64)) then 0x302
  else if op ≠ 2 ∧ (¬ typeUsageOk type usage ∨ type = 3 ∨ (slot = 0 ∧ type ≠ 4)) then 0x302
  else if op = 3 ∧ (d.obj 0xB000 0x05 ≠ 0 ∨ ¬ local_ ∨ ¬ zeros (slice b 112 16) ∨ ¬ zeros (slice b (16 + len) (64 - len))) then 0x302
  else if op ≠ 3 ∧ kmac256 d.bin.kimp (b.take 112) (ascii "VZN-IMPORT-TAG") 16 ≠ slice b 112 16 then 0x302
  else if field b 8 8 ≤ d.lastCounter then 0x302
  else if (1 ≤ slot ∧ slot ≤ 15) ∨ d.flag 0xB040 0x10 0 slot ∨ ¬ d.swapAllowed slot op type usage then 0x611
  else if 32 ≤ d.bin.staged.length then 0x306
  else 0

/-- Stage an accepted blob (R415). -/
def Dev.stageBlob (d : Dev) (b : Bytes) : Dev :=
  let op := byteAt b 1
  let type := byteAt b 3
  let fieldB := slice b 16 64
  let plain := if op = 1 then xorBytes fieldB (kmac256 d.bin.kimp (b.take 16) (ascii "VZN-IMPORT-ENC") 64) else fieldB
  let st : Staged := { op := op, slot := byteAt b 2, type := type, usage := field b 4 4, counter := field b 8 8, key := plain.take (keyBytes type) }
  let d := d.binUpd fun x => { x with staged := x.staged ++ [st] }
  (d.set 0xB020 0x02 d.bin.staged.length).set 0xB020 0x05 1

/-- Discard the staging (R415). -/
def Dev.discardStaging (d : Dev) : Dev :=
  if d.obj 0xB020 0x05 = 2 then d
  else ((d.binUpd fun x => { x with staged := [] }).set 0xB020 0x02 0).set 0xB020 0x05 0

/-- The records of a copy with the staged blobs applied (R416). -/
def applyStaged (gen : Nat) (recs : List KsRecord) (l : List Staged) : List KsRecord :=
  l.foldl (fun r s =>
    let r' := r.filter (fun x => x.slot ≠ s.slot)
    if s.op = 2 then r' else r' ++ [{ slot := s.slot, type := s.type, usage := s.usage, gen := gen, key := s.key }]) recs

/-- KEY_STORE_COMMIT_END (R416, R417): `ok` says that a read-back of each step succeeded within the one repetition. -/
def execKeyStoreCommitEnd (t : Nat) (ok : Bool) (s : State) : Host.Outcome State Fault Refusal :=
  s.cmd t true fun d =>
    if d.obj 0xB020 0x05 ≠ 2 then d
    else if ¬ ok then
      let d := (d.set 0xB020 0x07 2).set 0xB020 0x05 (if d.bin.staged.isEmpty then 0 else 1)
      d.event 8 (some 20) Ev.commitFailed.code
    else
      let cur := d.bin.inForce
      let gen := (cur.map (·.2.gen)).getD 0 + 1
      let copy : KsCopy := { gen := gen, recs := applyStaged gen ((cur.map (·.2.recs)).getD []) d.bin.staged }
      let virgin := !d.bin.provisioned
      let letter : Nat := if virgin then 0 else match cur with | some (0, _) => 1 | _ => 0
      let last := (d.bin.staged.map (·.counter)).foldl max d.bin.counter
      let erased := (d.bin.staged.filter (fun x => x.op == 2)).map (·.slot)
      let d := d.binUpd fun x => { x with
        copyA := if virgin || letter == 0 then some copy else x.copyA
        copyB := if virgin || letter == 1 then some copy else x.copyB
        provisioned := true, counter := last, staged := [] }
      let d := (erased.foldl Dev.clearSlot d).loadStore copy
      let d := ((d.set 0xB000 0x03 gen).set 0xB000 0x04 letter).set 0xB000 0x05 1
      let d := (((d.set 0xB020 0x07 1).set 0xB020 0x06 last).inc 0xB020 0x08).set 0xB020 0x02 0
      (d.set 0xB020 0x05 0).event 8 (some 20) Ev.commitDone.code

/-! Almanac writes of B000–B7FF. -/

/-- Checks 10 of B000–B7FF beyond type and range. -/
def Dev.binValue (d : Dev) (idx sub u r v : Nat) (local_ : Bool) : Nat :=
  match idx, sub with
  | 0xB020, 0x01 => d.blobCheck (beBytes 128 v) local_
  | 0xB040, 0x10 => if r < 16 then 0x302 else if v = 1 ∧ d.obj 0xB040 0x01 0 r = 3 then 0x611 else 0
  | 0xB040, 0x11 => if r < 16 then 0x302 else 0
  | 0xB040, 0x12 => if r < 16 then 0x302 else if v = 2 ∨ v = 4 ∨ v = 6 then 0 else 0x302
  | 0xB040, 0x13 => if r < 16 then 0x302 else 0
  | 0xB060, 0x41 => if d.obj 0xB060 0x42 < v then 0x301 else 0
  | 0xB060, 0x42 => if v < d.obj 0xB060 0x41 then 0x301 else 0
  | 0xB110, 0x01 =>
    let slot := d.obj 0xB110 0x02 u r
    if v = 0 ∨ d.flag 0xB110 0x01 u r then 0
    else if 256 ≤ slot ∨ ¬ d.slotFull slot then 0x610
    else if d.obj 0xB040 0x02 0 slot ≠ 2 ∨ ¬ bit (d.obj 0xB040 0x03 0 slot) 1 then 0x302
    else 0
  | _, _ => 0

/-- Check 11 of B000–B7FF. -/
def Dev.binStopped (d : Dev) (idx u r : Nat) : Bool :=
  match idx with
  | 0xB040 => !d.flag 0xB040 0x10 0 r
  | 0xB100 => !d.flag 0xB100 0x01 u
  | 0xB110 => !d.flag 0xB110 0x01 u r
  | _ => true

/-- Checks 12 and 13 of B000–B7FF. -/
def Dev.binDeps (d : Dev) (idx sub u r v : Nat) : Nat :=
  match idx, sub with
  | 0xB020, 0x03 => if v = 1 ∧ d.obj 0xB020 0x05 = 2 then 0x613 else if v = 1 ∧ d.bin.staged.isEmpty then 0x304 else 0
  | 0xB020, 0x04 => if v = 1 ∧ d.obj 0xB020 0x05 = 2 then 0x613 else 0
  | 0xB030, 0x01 => if d.obj 0xB010 0x04 ≠ 2 then 0x307 else if ¬ d.slotFull 0 then 0x610 else 0
  | 0xB040, 0x10 => if v = 0 ∧ d.flag 0xB040 0x10 0 r ∧ d.slotRefs r ≠ 0 then 0x611 else 0
  | 0xB050, 0x02 => if ¬ d.bin.identityReady ∨ d.obj 0xB000 0x06 = 1 then 0x307 else 0
  | 0xB100, 0x01 => if v = 1 ∧ ¬ d.flag 0xB110 0x01 u (d.obj 0xB100 0x04 u) then 0x304 else 0
  | 0xB100, 0x04 => if ¬ d.flag 0xB110 0x01 u v then 0x304 else 0
  | 0xB110, 0x01 => if v = 0 ∧ r < 4 ∧ d.flag 0xB100 0x01 u ∧ d.obj 0xB100 0x04 u = r then 0x304 else 0
  | _, _ => 0

/-- What an accepted write of B000–B7FF does. -/
def Dev.binApply (d : Dev) (idx sub u r v : Nat) : Dev :=
  match idx, sub with
  | 0xB020, 0x01 => d.stageBlob (beBytes 128 v)
  | 0xB020, 0x03 => if v = 1 then d.set 0xB020 0x05 2 else d
  | 0xB020, 0x04 => if v = 1 then d.discardStaging else d
  | 0xB030, 0x01 => d.attest v
  | 0xB050, 0x02 => d.sign v
  | 0xB040, 0x10 =>
    if v = 1 then (if d.flag 0xB040 0x10 0 r then d else (d.set idx sub 1 0 r).deriveSlot r)
    else if d.flag 0xB040 0x10 0 r then (d.set idx sub 0 0 r).clearSlot r else d
  | 0xB110, 0x01 =>
    if v = 1 then
      if d.flag 0xB110 0x01 u r then d
      else
        let slot := d.obj 0xB110 0x02 u r
        let d := (d.keyTransfer slot).binUpd fun x => { x with
          gcm := tput (fun _ => []) x.gcm (saKey u r) (tget (fun _ => []) x.keys slot)
          highPn := tput (fun _ => none) x.highPn (saKey u r) none
          pnRaised := tput (fun _ => false) x.pnRaised (saKey u r) false }
        ((d.set idx sub 1 u r).set 0xB110 0x06 (d.obj 0xB110 0x05 u r) u r).set 0xB110 0x07 0 u r
    else (d.set idx sub 0 u r).binUpd fun x => { x with gcm := tput (fun _ => []) x.gcm (saKey u r) [] }
  | _, _ => d.set idx sub v u r

end Sys2Proof.Machine
end

