-- ==== Sys2Proof/Machine/HostFifo.lean ====
section
/-! DEFINITION. The message FIFOs of the host port (R337 to R345). -/
namespace Sys2Proof.Machine

/-- A FIFO beside its objects. -/
def Dev.fifo (d : Dev) (f : Nat) : Fifo := tget (fun _ => {}) d.fifos f

/-- Replace a FIFO. -/
def Dev.setFifo (d : Dev) (f : Nat) (x : Fifo) : Dev := { d with fifos := tput (fun _ => {}) d.fifos f x }

/-- Items of a packet not yet read. -/
def Packet.left (p : Packet) : Nat := p.items.length - p.read

/-- COUNT: items of visible packets not yet read (R339). -/
def Fifo.count (x : Fifo) : Nat := (x.visible.map Packet.left).sum + (x.part.map Packet.left).getD 0

/-- Items held: visible, incomplete or partly read (R339). -/
def Fifo.heldItems (x : Fifo) : Nat := x.count + (x.opened.map (fun o => o.1.length)).getD 0

/-- FREE: the size less the items held (R339). -/
def Dev.fifoFree (d : Dev) (f : Nat) : Nat := d.obj 0x9010 0x04 0 f - (d.fifo f).heldItems

/-- A FIFO is enabled. -/
def Dev.fifoOn (d : Dev) (f : Nat) : Bool := d.flag 0x9010 0x01 0 f

/-- A FIFO is a to-host FIFO. -/
def Dev.fifoToHost (d : Dev) (f : Nat) : Bool := d.obj 0x9010 0x02 0 f == 0

/-- The idle item (R340). -/
def idleItem : BitVec 64 := 0x7F00000000000000

/-- The value that a FIFO's level is compared with: COUNT to host, FREE from host (R344). -/
def Dev.levelValue (d : Dev) (f : Nat) : Nat := if d.fifoToHost f then (d.fifo f).count else d.fifoFree f

/-- The cause of a FIFO 0–7 is set (R344). -/
def Dev.fifoCause (d : Dev) (f : Nat) : Dev := (d.signal (8 + f)).inc 0x9010 0x12 0 f

/-- Level crossing, coalescing timer and peak of a FIFO after a change from `old` (R344). (DEDUCED: log entry 46.) -/
def Dev.fifoSettle (d old : Dev) (f : Nat) : Dev :=
  let d := d.peak 0x9010 0x0A (d.fifo f).heldItems 0 f
  let c0 := (old.fifo f).count
  let c1 := (d.fifo f).count
  let level := d.obj 0x9010 0x05 0 f
  let crossing : Bool := f < 8 && decide (old.levelValue f < level ∧ level ≤ d.levelValue f)
  let timer : Option Nat :=
    if c1 = 0 ∨ crossing then none else if c0 = 0 ∧ f < 8 ∧ d.fifoToHost f then some d.now else (d.fifo f).timer
  let d := d.setFifo f { d.fifo f with timer := timer }
  if crossing then d.fifoCause f else d

/-- An access of the host to the BARs: the function is in D0 for it. (DESIGN CHOICE: log entry 223.) -/
def Dev.inD0 (d : Dev) : Dev := if d.ev.d3hot then d.evUpd fun x => { x with d3hot := false } else d

/-- FIFO_HEAD_WRITE (R342, R343). -/
def execFifoHeadWrite (t f : Nat) (item : BitVec 64) (s : State) : Host.Outcome State Fault Refusal :=
  s.cmd t (f < 64) fun d =>
    let d := d.inD0
    if ¬ d.fifoOn f ∨ d.fifoToHost f then d.inc 0x9010 0x0F 0 f
    else
      let old := d
      let x := d.fifo f
      let d := if x.opened.isSome then d.inc 0x9010 0x0E 0 f else d
      let d := d.setFifo f { x with opened := none }
      if d.fifoFree f = 0 then ((d.inc 0x9010 0x0F 0 f).setFifo f { d.fifo f with opened := some ([], true) }).fifoSettle old f
      else (d.setFifo f { d.fifo f with opened := some ([item], false) }).fifoSettle old f

/-- Append data items to the open packet; an item that finds FREE 0 is lost (R343). -/
def Dev.fifoAppend (d : Dev) (f : Nat) : List (BitVec 64) → Dev
  | [] => d
  | i :: l =>
    let d := match (d.fifo f).opened with
      | some (its, lost) =>
        if d.fifoFree f = 0 then (d.inc 0x9010 0x0F 0 f).setFifo f { d.fifo f with opened := some (its, true) }
        else d.setFifo f { d.fifo f with opened := some (its ++ [i], lost) }
      | none => d
    d.fifoAppend f l

/-- FIFO_DATA_WRITE (R342, R343). -/
def execFifoDataWrite (t f : Nat) (items : List (BitVec 64)) (s : State) : Host.Outcome State Fault Refusal :=
  s.cmd t (f < 64 && 1 ≤ items.length && items.length ≤ 32) fun d =>
    let d := d.inD0
    if ¬ d.fifoOn f ∨ d.fifoToHost f then d.inc 0x9010 0x0F 0 f items.length
    else if (d.fifo f).opened.isNone then d.inc 0x9010 0x0E 0 f
    else (d.fifoAppend f items).fifoSettle d f

/-- LENGTH and PRIO of a header item (Table 13.4). -/
def headerLength (h : BitVec 64) : Nat := bits h.toNat 15 0

/-- PRIO of a header item. -/
def headerPrio (h : BitVec 64) : Nat := bits h.toNat 18 16

/-- Whether a packet that the host has closed passes its checks (R343). -/
def packetGood (items : List (BitVec 64)) : Bool :=
  match items with
  | [] => false
  | h :: data =>
    let v := h.toNat
    bits v 63 60 == 0xA && 1 ≤ headerLength h && headerLength h ≤ 9216 && bits v 59 55 == 0 && bits v 31 27 == 0 && bits v 23 19 == 0 &&
      !bit v 26 && data.length == cdiv (headerLength h) 8

/-- FIFO_END_WRITE (R342, R343). -/
def execFifoEndWrite (t f : Nat) (item : BitVec 64) (s : State) : Host.Outcome State Fault Refusal :=
  s.cmd t (f < 64) fun d =>
    let d := d.inD0
    if ¬ d.fifoOn f ∨ d.fifoToHost f then d.inc 0x9010 0x0F 0 f
    else if (d.fifo f).opened.isNone then d.inc 0x9010 0x0E 0 f
    else
      let old := d
      let d := d.fifoAppend f [item]
      let x := d.fifo f
      match x.opened with
      | none => d
      | some (its, lost) =>
        if lost ∨ ¬ packetGood its then ((d.setFifo f { x with opened := none }).inc 0x9010 0x0E 0 f).fifoSettle old f
        else
          let p : Packet := { prio := headerPrio (its.getD 0 0), items := its }
          ((d.setFifo f { x with opened := none, visible := x.visible ++ [p] }).inc64 0x9010 0x0B 0 f).fifoSettle old f

/-- The packet that is read next: highest PRIO, first end item (R339), and the others. -/
def nextPacket : List Packet → Option (Packet × List Packet)
  | [] => none
  | p :: l =>
    match nextPacket l with
    | none => some (p, [])
    | some (q, rest) => if p.prio < q.prio then some (q, p :: rest) else some (p, l)

/-- Pop `n` items; `k` is the place of the next item in the read and `bad` the places whose parity fails (R339, R341). -/
def Dev.popItems (d : Dev) (f : Nat) (bad : List Nat) : Nat → Nat → List (BitVec 64) → Dev × List (BitVec 64)
  | 0, _, acc => (d, acc.reverse)
  | n + 1, k, acc =>
    let x := d.fifo f
    let cur : Option (Packet × List Packet) := match x.part with
      | some p => some (p, x.visible)
      | none => nextPacket x.visible
    match cur with
    | none => d.popItems f bad n (k + 1) (idleItem :: acc)
    | some (p, rest) =>
      let item := p.items.getD p.read idleItem
      let isBad := bad.contains k
      let header : Bool := p.read = 0
      let item := if header && isBad then item ||| BitVec.ofNat 64 (2 ^ 25) else item
      let poisoned := if header then false else x.poisoned || isBad
      let p := { p with read := p.read + 1 }
      let done : Bool := p.items.length ≤ p.read
      let d := d.setFifo f { x with visible := rest, part := if done then none else some p, poisoned := poisoned }
      let d := if isBad then d.inc 0x9010 0x10 0 f else d
      let d := if done then d.inc64 0x9010 0x0C 0 f else d
      d.popItems f bad n (k + 1) (item :: acc)

/-- A read of a POP window is aligned and a whole number of items (R332). -/
def popWhole (r : PopRead) : Bool := r.offset % 8 == 0 && r.bytes % 8 == 0 && r.bytes != 0

/-- A read of a POP window gets items. -/
def popServed (r : PopRead) : Bool := popWhole r && !r.abort

/-- FIFO_POP_READ (R332, R340 to R342, R461): a read that is not of whole items is an Unsupported Request, one whose data has an uncorrectable error a Completer Abort; `bad` are the places of items whose parity fails. (DESIGN CHOICE: log entries 43, 225.) -/
def execFifoPopRead (t f : Nat) (read : PopRead) (bad : List Nat) (s : State) : Host.Outcome State Fault Refusal :=
  s.cmd t (f < 64) fun d =>
    let d := d.inD0
    if ¬ popWhole read then d.inc 0x9000 0x08
    else if read.abort then d.inc 0x9000 0x07
    else
      let n := read.bytes / 8
      if ¬ d.fifoOn f ∨ ¬ d.fifoToHost f then (d.inc 0x9010 0x11 0 f).out (.popped f (List.replicate n idleItem))
      else
        let take := min n (d.fifo f).count
        let (d1, items) := d.popItems f bad take 0 []
        let d1 := if take < n then d1.inc 0x9010 0x11 0 f else d1
        (d1.out (.popped f (items ++ List.replicate (n - take) idleItem))).fifoSettle d f

/-- Set flush pending (R345). -/
def Dev.fifoFlush (d : Dev) (f : Nat) : Dev := d.set 0x9010 0x13 1 0 f

/-- FIFO_FLUSH_WRITE (R345). -/
def execFifoFlushWrite (t f : Nat) (s : State) : Host.Outcome State Fault Refusal :=
  s.cmd t (f < 64) fun d => d.inD0.fifoFlush f

/-- FIFO_FLUSH_TAKES_EFFECT (R345): no packet partly read and none open. (DESIGN CHOICE: log entry 42.) -/
def execFifoFlushTakesEffect (t f : Nat) (s : State) : Host.Outcome State Fault Refusal :=
  s.cmd t (f < 64) fun d =>
    let x := d.fifo f
    if d.flag 0x9010 0x13 0 f ∧ x.part.isNone ∧ x.opened.isNone then
      (((d.setFifo f { x with visible := [] }).inc 0x9010 0x0D 0 f x.visible.length).set 0x9010 0x13 0 0 f).fifoSettle d f
    else d

/-- Every FIFO is flushed at once, partly read and open packets included (R345). (DESIGN CHOICE: log entry 42.) -/
def Dev.flushAllFifos (d : Dev) : Dev :=
  (List.range 64).foldl (fun d f =>
    let x := d.fifo f
    let n := x.visible.length + b2n x.part.isSome + b2n x.opened.isSome
    (((d.setFifo f { x with visible := [], part := none, opened := none, timer := none }).inc 0x9010 0x0D 0 f n).set 0x9010 0x13 0 0 f).fifoSettle d f) d

/-! Almanac writes of 9010 and 9020 (R337, R344, R346). -/

/-- Checks 10 of 9010–9021 beyond type and range. -/
def Dev.fifoValue (d : Dev) (idx sub r v : Nat) : Nat :=
  match idx, sub with
  | 0x9010, 0x01 =>
    let lmax := if d.obj 0x9010 0x03 0 r = 1 then d.obj 0x9020 0x02 else 9216
    if v = 1 ∧ ¬ d.fifoOn r ∧ d.obj 0x9010 0x04 0 r < 1 + cdiv lmax 8 then 0x301 else 0
  | 0x9010, 0x05 => if 8 ≤ r then 0x302 else 0
  | 0x9010, 0x06 => if 8 ≤ r ∨ ¬ d.fifoToHost r then 0x302 else 0
  | _, _ => 0

/-- Checks 12 and 13 of 9010–9021. (DESIGN CHOICE: log entry 47.) -/
def Dev.fifoDeps (d : Dev) (idx sub r v : Nat) : Nat :=
  match idx, sub with
  | 0x9010, 0x01 =>
    let used := (((List.range 64).filter d.fifoOn).map (fun f => d.obj 0x9010 0x04 0 f)).sum
    if v = 1 ∧ ¬ d.fifoOn r ∧ 16384 < used + d.obj 0x9010 0x04 0 r then 0x306 else 0
  | 0x9020, 0x01 => if ¬ d.fifoOn v ∨ ¬ d.fifoToHost v ∨ d.obj 0x9010 0x03 0 v ≠ 1 then 0x304 else 0
  | _, _ => 0

/-- What an accepted write of 9000–93FF does. -/
def Dev.fifoApply (d : Dev) (idx sub r v : Nat) : Dev :=
  if idx = 0x9010 ∧ sub = 0x07 then (if v = 1 then d.fifoFlush r else d) else d.set idx sub v 0 r

end Sys2Proof.Machine
end

