-- ==== Sys2Proof/Machine/Observe.lean ====
section
/-! DEFINITION. Queue observation (R219 to R221). -/
namespace Sys2Proof.Machine

/-- Copies of a leaf that had not started as the present fabric clock began, with their frames, oldest first (R219). -/
def Dev.leafWaiting (d : Dev) (leaf : Nat) : List Frame :=
  d.fab.snap.filter (fun f => f.copies.any (fun c => c.leaf == some leaf && !c.started && !c.retry))

/-- Depth of a leaf in cells (R220). -/
def Dev.leafDepth (d : Dev) (leaf : Nat) : Nat :=
  ((d.leafWaiting leaf).map (fun f => (if f.whole then cellsOf f.len else f.avail) * (f.copies.filter (fun c => c.leaf == some leaf && !c.started && !c.retry)).length)).sum

/-- Bin of a depth (Table 8.1): 0 for 0, then powers of two. -/
def depthBin (n : Nat) : Nat := if n = 0 then 0 else min 15 (Nat.log2 n + 1)

/-- Bin of a delay with base `b` (Table 8.1). -/
def delayBin (b n : Nat) : Nat := depthBin (n / b)

/-- Count one in a bin of a histogram of sixteen U32, bin 0 first, each saturating. -/
def binUp (h k : Nat) : Nat :=
  let lo := (15 - k) * 32
  if h / 2 ^ lo % 2 ^ 32 = 2 ^ 32 - 1 then h else h + 2 ^ lo

/-- Length of a pass over the 4,096 leaves in time-clock periods: 819.2 ns at full clock, more in a droop step (R219, R486). (DESIGN CHOICE: log entry 194.) -/
def Dev.passLength (d : Dev) : Nat :=
  match d.obj 0x2000 0x08 with
  | 1 => cdiv (1024 * 8) 7
  | 2 => cdiv (1024 * 4) 3
  | 3 => 2048
  | _ => 1024

/-- The visit of a leaf that is due now: its period's number, and whether it has waited for the pass before (R219). (DESIGN CHOICE: log entry 194.) -/
def Dev.visitDue (d : Dev) (leaf : Nat) : Option (Nat × Bool) :=
  let period := d.obj 0x5070 0x02 * perUs
  let place := leaf / 8 * 2
  if period = 0 ∨ d.lt < place then none
  else
    let k := (d.lt - place) / period
    let since := d.lt - place - k * period
    let at_ := place + k * period
    let late : Bool := k ≠ 0 && decide (period + place < d.passLength)
    if at_ < tget (fun _ => 0) d.shape.visited leaf ∨ (late ∧ since < d.passLength - period - place) then none else some (k, late)

/-- SAMPLER_VISIT (R219 to R221): a visit of a leaf of an enabled subscriber, once in each period. -/
def execSamplerVisit (t subscriber queue : Nat) (s : State) : Host.Outcome State Fault Refusal :=
  s.cmd t (subscriber < 512 && queue < 8) fun d =>
    let leaf := subscriber * 8 + queue
    if ¬ d.flag 0x5070 0x01 then d
    else match d.visitDue leaf with
    | none => d
    | some (_, late) =>
      let d := { d with shape := { d.shape with visited := tput (fun _ => 0) d.shape.visited leaf (d.lt + 1) } }
      let d := if leaf = 4095 then d.inc64 0x5070 0x04 else d
      if ¬ d.flag 0x5020 0x01 0 (leaf / 8) then d
      else
        let d := if late then d.inc 0x5070 0x05 else d
        let depth := d.leafDepth leaf
        let d := d.set 0x5080 0x01 (binUp (d.obj 0x5080 0x01 0 leaf) (depthBin depth)) 0 leaf
        let d := if d.obj 0x5080 0x03 0 leaf < depth then (d.set 0x5080 0x03 depth 0 leaf).set 0x5080 0x04 d.ltTime 0 leaf else d
        match (d.leafWaiting leaf).head? with
        | some f =>
          if depth = 0 then d
          else
            let delay := (d.lt - f.stamp) * 4 / 5
            let d := d.set 0x5080 0x02 (binUp (d.obj 0x5080 0x02 0 leaf) (delayBin (d.obj 0x5070 0x41) delay)) 0 leaf
            if d.obj 0x5080 0x05 0 leaf < delay then (d.set 0x5080 0x05 (min delay (2 ^ 32 - 1)) 0 leaf).set 0x5080 0x06 d.ltTime 0 leaf else d
        | none => d

end Sys2Proof.Machine
end

