-- ==== Sys2Proof/Machine/LineCode.lean ====
section
/-! DEFINITION. The line code: Reed–Solomon over GF(2^8), 64 data and 5 check symbols, and the tag byte (R454, R455). -/
namespace Sys2Proof.Machine

/-- Multiply by x in GF(2^8) with the field polynomial 0x11D. -/
def gfDouble (a : Nat) : Nat := if a < 128 then 2 * a else (2 * a) ^^^ 0x11D

/-- Product in GF(2^8), over the low `n` bits of `b`. -/
def gfMulBits : Nat → Nat → Nat → Nat
  | 0, _, _ => 0
  | n + 1, a, b => (if b % 2 = 1 then a else 0) ^^^ gfMulBits n (gfDouble a) (b / 2)

/-- Product in GF(2^8). -/
def gfMul (a b : Nat) : Nat := gfMulBits 8 a b

/-- Power in GF(2^8). -/
def gfPow (a : Nat) : Nat → Nat
  | 0 => 1
  | n + 1 => gfMul a (gfPow a n)

/-- Square repeatedly: a^(2^n). -/
def gfSquares (a : Nat) : Nat → Nat
  | 0 => a
  | n + 1 => gfSquares (gfMul a a) n

/-- Inverse in GF(2^8): a^254 = a^2 · a^4 · … · a^128. -/
def gfInv (a : Nat) : Nat := (List.range 7).foldl (fun p k => gfMul p (gfSquares a (k + 1))) 1

/-- Coefficients of g(x) below x^5, from x^4 down: the product of (x + α^j) for j = 0–4 (R454). -/
def generator : List Nat := ((List.range 5).foldl (fun g j =>
  let a := gfPow 2 j
  (g ++ [0]).zipWith (· ^^^ ·) (0 :: g.map (gfMul a))) [1]).tail

/-- One step of the division of D(x) × x^5 by g(x): the remainder so far, from x^4 down, and the next data byte. -/
def checkStep (c : List Nat) (b : Nat) : List Nat :=
  let f := b ^^^ c.headD 0
  (c.tail ++ [0]).zipWith (fun x g => x ^^^ gfMul f g) generator

/-- The five check bytes of 64 data bytes (R454). -/
def checkBytes (data : List Nat) : List Nat := data.foldl checkStep [0, 0, 0, 0, 0]

/-- Syndrome S_j of the 69 symbols of a line (R455). -/
def syndrome (r : List Nat) (j : Nat) : Nat := let a := gfPow 2 j; r.foldl (fun s x => gfMul s a ^^^ x) 0

/-- The tag byte of a domain: odd number of ones (R454). -/
def tagByte (poison : Bool) (domain : Nat) : Nat :=
  let v := b2n poison * 128 + domain % 8 * 16
  let ones := ((List.range 8).filter (fun k => bit v k)).length
  v + (1 - ones % 2)

/-- Outcome of a decode: the corrected symbols and how many were corrected; none when uncorrectable. -/
def rsDecode (r : List Nat) : Option (List Nat × Nat) :=
  let s0 := syndrome r 0
  let s1 := syndrome r 1
  let s2 := syndrome r 2
  let s3 := syndrome r 3
  let s4 := syndrome r 4
  let fix (l : List Nat) (x e : Nat) : List Nat :=
    (l.zip (List.range 69)).map (fun y => if gfPow 2 (68 - y.2) = x then y.1 ^^^ e else y.1)
  if s0 = 0 ∧ s1 = 0 ∧ s2 = 0 ∧ s3 = 0 ∧ s4 = 0 then some (r, 0)
  else
    let places := (List.range 69).map (gfPow 2)
    let x1 := gfMul s1 (gfInv s0)
    if s0 ≠ 0 ∧ s2 = gfMul s1 x1 ∧ s3 = gfMul s2 x1 ∧ s4 = gfMul s3 x1 ∧ places.contains x1 then some (fix r x1 s0, 1)
    else
      let det := gfMul s0 s2 ^^^ gfMul s1 s1
      if det = 0 then none
      else
        let l1 := gfMul (gfMul s0 s3 ^^^ gfMul s1 s2) (gfInv det)
        let l2 := gfMul (gfMul s1 s3 ^^^ gfMul s2 s2) (gfInv det)
        let roots := places.filter (fun x => gfMul x x ^^^ gfMul l1 x ^^^ l2 = 0)
        match roots with
        | [x, y] =>
          if s4 ^^^ gfMul l1 s3 ^^^ gfMul l2 s2 ≠ 0 then none
          else
            let e1 := gfMul (s1 ^^^ gfMul s0 y) (gfInv (x ^^^ y))
            some (fix (fix r x e1) y (s0 ^^^ e1), 2)
        | _ => none

/-- Decode the 70 stored bytes of a line whose partition has the given domain: 0 clean, 1 or 2 symbols corrected, 3 uncorrectable; and the data (R455, R464). -/
def lineDecode (img : Bytes) (domain : Nat) : Nat × Bytes :=
  let v := (img ++ List.replicate 70 0).take 70 |>.map BitVec.toNat
  let tag := v.getD 69 0
  let ones := ((List.range 8).filter (fun k => bit tag k)).length
  match rsDecode (v.take 69) with
  | none => (3, (img.take 64))
  | some (w, n) =>
    let data := (w.take 64).map (BitVec.ofNat 8)
    if ones % 2 = 0 ∨ bits tag 6 4 ≠ domain ∨ bit tag 7 then (3, data) else (n, data)

end Sys2Proof.Machine
end

