-- ==== Sys2Proof/Machine/Integrity.lean ====
section
/-! DEFINITION. Memory integrity, the Sounding and the frame recorder (R453 to R474). -/
namespace Sys2Proof.Machine

/-- Domain of a line (Table 18.1): the DRAM's region decides for memory 7. -/
def lineDomain (mem line : Nat) : Nat :=
  if mem < 3 then mem else if mem < 7 then 3
  else if mem = 7 then (if line < 0x40000 then 4 else if line < 0x1C0000 then 5 else 6) else 7

/-- Lines of a memory (Table 18.1). -/
def memoryLines (mem : Nat) : Nat := dfltByRecord.memLines mem

/-- Key of a line among all memories. -/
def lineKey (mem line : Nat) : Nat := mem * 2 ^ 32 + line

/-- Replace the state of this unit. -/
def Dev.integUpd (d : Dev) (f : IntSt → IntSt) : Dev := { d with integ := f d.integ }

/-- A line is stored with POISON set. -/
def Dev.poisoned (d : Dev) (mem line : Nat) : Bool := tget (fun _ => false) d.integ.poison (lineKey mem line)

/-- Store a line with POISON set or clear (R456). -/
def Dev.setPoison (d : Dev) (mem line : Nat) (b : Bool) : Dev :=
  d.integUpd fun x => { x with poison := tput (fun _ => false) x.poison (lineKey mem line) b }

/-- The block in a memory's save buffer and whether its march has failed. -/
def Dev.saved (d : Dev) (mem : Nat) : Option (Nat × Bool) := tget (fun _ => none) d.integ.save mem

/-- Put a block into a memory's save buffer, or release it. -/
def Dev.setSaved (d : Dev) (mem : Nat) (v : Option (Nat × Bool)) : Dev :=
  d.integUpd fun x => { x with save := tput (fun _ => none) x.save mem v }

/-- Retired blocks of a memory. -/
def Dev.retiredBlocks (d : Dev) (mem : Nat) : List Nat := tget (fun _ => []) d.integ.retired mem

/-- Blocks that escalation puts first in the rotation (R457). -/
def Dev.escalatedBlocks (d : Dev) (mem : Nat) : List Nat := tget (fun _ => []) d.integ.escalated mem

/-- Merge buffer entries of a memory, oldest first (R459). -/
def Dev.merges (d : Dev) (mem : Nat) : List MergeEntry := tget (fun _ => []) d.integ.merge mem

/-- Replace the merge buffer of a memory. -/
def Dev.setMerges (d : Dev) (mem : Nat) (l : List MergeEntry) : Dev :=
  d.integUpd fun x => { x with merge := tput (fun _ => []) x.merge mem l }

/-- Memories with a merge buffer (Table 18.1). -/
def hasMerge (mem : Nat) : Bool := 1 ≤ mem && mem ≤ 8

/-! Reads (R455, R457, R461). -/

/-- Entry of the correctable-error table for a line, or the first free entry. -/
def Dev.corrEntry (d : Dev) (mem line : Nat) : Option Nat :=
  match (List.range 32).find? (fun r => d.obj 0xC050 0x01 0 r = mem ∧ d.obj 0xC050 0x02 0 r = line) with
  | some r => some r
  | none => (List.range 32).find? (fun r => d.obj 0xC050 0x01 0 r = 0xFF)

/-- A corrected read of a line: counted, logged in the table, escalated at the count of `A:C051.41`, and queued for write-back. -/
def Dev.correctedRead (d : Dev) (mem line symbols : Nat) : Dev :=
  let d := d.inc64 0xC000 0x04 0 mem
  let d := d.integUpd fun x => { x with writebacks := x.writebacks ++ [(mem, line)] }
  match d.corrEntry mem line with
  | none => d.inc 0xC051 0x01
  | some r =>
    let fresh : Bool := d.obj 0xC050 0x01 0 r = 0xFF
    let d := if fresh then ((d.set 0xC050 0x01 mem 0 r).set 0xC050 0x02 line 0 r).set 0xC050 0x05 d.ltTime 0 r else d
    let d := ((d.inc 0xC050 0x03 0 r).set 0xC050 0x04 symbols 0 r).set 0xC050 0x06 d.ltTime 0 r
    if d.obj 0xC050 0x03 0 r = d.obj 0xC051 0x41 then
      let d := d.integUpd fun x => { x with escalated := tput (fun _ => []) x.escalated mem (tget (fun _ => []) x.escalated mem ++ [line / 64]) }
      (d.inc 0xC051 0x03).event 0 (some 18) Ev.escalation.code 0 (beBytes 4 mem ++ beBytes 8 (line / 64))
    else d

/-- An uncorrectable read of a line that is not a poisoned read (R461). -/
def Dev.uncorrectableRead (d : Dev) (mem line : Nat) : Dev :=
  ((d.inc 0xC000 0x05 0 mem).set 0xC000 0x0D line 0 mem).event 0 (some 18) Ev.uncorrectable.code 0 (beBytes 4 mem ++ beBytes 8 line)

/-- Count what a read of a line found (R455). -/
def Dev.lineRead (d : Dev) (mem line : Nat) : LineRead → Dev
  | .clean => if d.poisoned mem line then d.inc 0xC000 0x06 0 mem else d
  | .corrected n => d.correctedRead mem line n
  | .uncorrectable => d.uncorrectableRead mem line
  | .tagParity => (d.inc 0xC000 0x07 0 mem).uncorrectableRead mem line
  | .wrongDomain => (d.inc 0xC000 0x07 0 mem).uncorrectableRead mem line
  | .poisoned => d.inc 0xC000 0x06 0 mem

/-- Whether the data of a read may be used. -/
def lineGood : LineRead → Bool
  | .clean => true
  | .corrected _ => true
  | _ => false

/-! The memory ports (R33, R36). -/

/-- The memories that a command asks for a cycle of their ports, and its place in the order of R33: 0 functional, 1 scrubber, 2 Sounding. (DESIGN CHOICE: log entry 182.) -/
def Dev.portRequests (d : Dev) : Instr → List (Nat × Nat)
  | .ethFrameFirstCell .. => [(0, 0), (1, 0)]
  | .ethFrameEnd .. => [(0, 0), (1, 0)]
  | .frameTransmitEnd .. => [(1, 0)]
  | .fabricMatch .. => [(0, 0)]
  | .learnEngineInsert .. => [(1, 0)]
  | .ageingScan .. => [(1, 0)]
  | .stashDrain .. => [(1, 0)]
  | .rosePduJob .. => [(2, 0)]
  | .roseUnpackJob .. => [(2, 0)]
  | .roseEmissionJob .. => [(2, 0)]
  | .mirrorRecord .. => [(7, 0)]
  | .replayFrameSend .. => [(7, 0)]
  | .mergeEntryRetire _ m .. => [(m, 0)]
  | .correctedWriteback _ m .. => [(m, 1)]
  | .patrolRead _ m .. => [(m, 1)]
  | .softwareScrubComplete .. => [(d.obj 0xC020 0x01, 1)]
  | .soundingStart _ m => [(m, 2)]
  | _ => []

/-- A memory's port has served a request in the present cycle, or one that goes before a request of place `k` waits in it, so that this one is not served in it (R33). (DESIGN CHOICE: log entry 182.) -/
def State.portTaken (s : State) (d : Dev) (mem k : Nat) : Bool :=
  tget (fun _ => 0) d.integ.served mem == d.lt / 2 + 1 || (s.tick d 2).any (fun c => (d.portRequests c).any (fun x => x.1 == mem && decide (x.2 < k)))

/-- A memory's clock runs and its contents can be reached: in Standby the data-plane clocks are gated and the DRAM is in self-refresh (Table 1.9). -/
def Dev.memoryOn (d : Dev) (mem : Nat) : Bool := d.dataOn || !(mem < 3 || mem == 7)

/-- CORRECTED_WRITEBACK (R33, R458): at scrubber priority, dropped when a functional write to the line was served first. (DESIGN CHOICE: log entry 146.) -/
def execCorrectedWriteback (t mem line : Nat) (superseded : Bool) (s : State) : Host.Outcome State Fault Refusal :=
  s.cmd t (mem ≤ 8 && line < memoryLines mem) fun d =>
    if d.integ.writebacks.contains (mem, line) ∧ d.memoryOn mem ∧ ¬ s.portTaken d mem 1 then
      let d := d.integUpd fun x => { x with writebacks := x.writebacks.erase (mem, line) }
      if superseded then d.setPoison mem line false else d.usePorts [mem]
    else d

/-- MERGE_ENTRY_RETIRE (R459, R460): the entry of a line retires; `full` says that all 64 bytes are valid, `r` what the read of a read–modify–write found. The write supersedes a write-back of the line that waits (R458). (DESIGN CHOICE: log entry 142.) -/
def execMergeEntryRetire (t mem line : Nat) (full : Bool) (r : LineRead) (s : State) : Host.Outcome State Fault Refusal :=
  s.portCmd t [mem] (hasMerge mem && line < memoryLines mem) fun d =>
    if ¬ d.memoryOn mem then d
    else
    let whole : Bool := full || (d.merges mem).any (fun e => e.line = line && e.full)
    let d := d.setMerges mem ((d.merges mem).filter (fun e => e.line ≠ line))
    let d := d.integUpd fun x => { x with writebacks := x.writebacks.filter (fun w => w != (mem, line)) }
    if whole then d.setPoison mem line false
    else
      let d := (d.inc64 0xC000 0x08 0 mem).lineRead mem line r
      if lineGood r then d else d.setPoison mem line true

/-- A partial write merges into the entry of its line or takes a free one of 16; the oldest retires first when none is free (R459). (DESIGN CHOICE: log entry 142.) -/
def Dev.partialWrite (d : Dev) (mem line : Nat) : Dev :=
  let l := d.merges mem
  let l' := if l.any (fun e => e.line = line) then l.map (fun e => if e.line = line then { e with last := d.now } else e)
    else (if 16 ≤ l.length then l.tail else l) ++ [{ line := line, last := d.now, full := false }]
  let d := if !l.any (fun e => e.line = line) && decide (16 ≤ l.length) then d.inc64 0xC000 0x08 0 mem else d
  d.setMerges mem l'

/-! Patrol and software scrub (R462, R463). -/

/-- Rules whose shadow line is read uncorrectable are disabled, with an event (R170). (DESIGN CHOICE: log entry 183.) -/
def Dev.shadowLost (d : Dev) (line : Nat) : Dev :=
  (d.rulesOn.filter (fun r => Config.ruleLine r % memoryLines 1 == line)).foldl (fun d r =>
    (d.set 0x3040 0x01 0 0 r).event 4 (some 6) Ev.ruleDisabled.code 0 (beBytes 4 r)) d

/-- What the scrubber does at a line of the Chart memory beside counting (R170): the rules of `upset`, whose copies in the array differ from their shadows in this line, are rewritten and counted, or disabled with the line. (DESIGN CHOICE: log entry 183.) -/
def Dev.shadowScrub (d : Dev) (mem line : Nat) (r : LineRead) (upset : List Nat) : Dev :=
  if mem ≠ 1 then d
  else if lineGood r then
    let n := ((upset.filter (fun k => decide (k < 1024) && Config.ruleLine k % memoryLines 1 == line)).eraseDups).length
    if n = 0 then d else d.inc 0x3000 0x0C 0 0 n
  else d.shadowLost line

/-- PATROL_READ (R33, R170, R462): the next line of a memory, in a cycle in which nothing else asks for its port; a retired or saved block and a line with a merge entry are skipped. With a pass of the packet buffer the free-list audit runs (R116). (DESIGN CHOICE: log entries 143, 165.) -/
def execPatrolRead (t mem : Nat) (r : PatrolLine) (s : State) : Host.Outcome State Fault Refusal :=
  s.cmd t (mem < 8) fun d =>
   if s.portTaken d mem 1 ∨ ¬ d.memoryOn mem then d
   else
    let p := tget (fun _ => (0, 0)) d.integ.patrol mem
    let line := p.1
    let skip : Bool := (d.retiredBlocks mem).contains (line / 64) || (d.saved mem).any (fun b => b.1 = line / 64) ||
      (d.merges mem).any (fun e => e.line = line)
    let d := if skip then d else (d.lineRead mem line r.read).shadowScrub mem line r.read r.upset
    let last : Bool := memoryLines mem ≤ line + 1
    let p' := if last then (0, d.now) else (line + 1, p.2)
    let d := d.integUpd fun x => { x with patrol := tput (fun _ => (0, 0)) x.patrol mem p' }
    let d := d.usePorts [mem]
    if last then
      let d := (if mem = 0 then d.auditCells else d).inc 0xC000 0x0A 0 mem
      if p.2 + d.obj 0xC000 0x09 0 mem * perS < d.now then d.inc 0xC000 0x0B 0 mem else d
    else d

/-- SOFTWARE_SCRUB_COMPLETE (R33, R463): the range is done with a last read at scrubber priority; `reads` are its lines that were not clean. -/
def execSoftwareScrubComplete (t : Nat) (reads : List (Nat × LineRead)) (s : State) : Host.Outcome State Fault Refusal :=
  s.cmd t true fun d =>
    if d.obj 0xC020 0x05 ≠ 1 ∨ ¬ d.memoryOn (d.obj 0xC020 0x01) ∨ s.portTaken d (d.obj 0xC020 0x01) 1 then d
    else
      let mem := d.obj 0xC020 0x01
      let d := d.usePorts [mem]
      let lo := d.obj 0xC020 0x02
      let hi := d.obj 0xC020 0x03
      let live : List (Nat × LineRead) := reads.filter (fun x => decide (lo ≤ x.1 ∧ x.1 ≤ hi) && !(d.retiredBlocks mem).contains (x.1 / 64) &&
        !(d.merges mem).any (fun e => e.line = x.1))
      let gone := ((d.retiredBlocks mem).map (fun b => (min hi (b * 64 + 63) + 1) - max lo (b * 64))).sum
      let bad := live.filter (fun x => !lineGood x.2)
      let fixed := live.filter (fun x => lineGood x.2 && x.2 ≠ .clean)
      let d := live.foldl (fun d x => let d := (d.lineRead mem x.1 x.2).shadowScrub mem x.1 x.2 []; if lineGood x.2 then d else d.setPoison mem x.1 true) d
      let d := ((((d.set 0xC020 0x06 (hi + 1 - lo - gone)).set 0xC020 0x07 fixed.length).set 0xC020 0x08 bad.length).set 0xC020 0x09
        ((bad.map (·.1)).foldl min 0xFFFFFFFF)).set 0xC020 0x05 2
      d.event 0 (some 18) Ev.scrubDone.code

/-! The test window (R464). -/

/-- The 64 data bytes of a DRAM line as they are stored: AES-XTS under its region's key, with a data unit of 4,096 bytes numbered by the byte address divided by 4,096 (R32, R420). -/
def Dev.dramCipher (d : Dev) (line : Nat) (plain : Bytes) : Bytes :=
  (List.range 4).flatMap (fun i => aesXts (d.key (lineDomain 7 line - 2)) (line / 64) (line % 64 * 4 + i) (slice plain (16 * i) 16))

/-- A line as it is stored: data, check symbols and tag (R454). -/
def lineEncode (data : Bytes) (domain : Nat) : Bytes :=
  data ++ (checkBytes (data.map BitVec.toNat)).map (BitVec.ofNat 8) ++ [BitVec.ofNat 8 (tagByte false domain)]

/-- The data of a line of the Chart memory that holds a bucket: way w at bytes 16w to 16w + 15, each entry most significant byte first (R39, R149). (DESIGN CHOICE: log entry 216.) -/
def Dev.bucketLine (d : Dev) (line : Nat) : Bytes := (List.range 4).flatMap (fun w => beBytes 16 (d.mac (wayPos (line / 8192) (line % 8192) w)))

/-- A line of the Chart memory holds a bucket of T0 or T1. (DESIGN CHOICE: log entry 216.) -/
def Dev.isBucket (d : Dev) (mem line : Nat) : Bool := mem == 1 && decide (line < 16384) && !d.bucketGone (line / 8192) (line % 8192)

/-- What a line holds that no raw write has touched: a bucket's entries, and the DRAM's data encrypted under the line code, each beside the errors in its cells. -/
def Dev.storedImage (d : Dev) (mem line : Nat) : Bytes :=
  let free := Config.lineImage mem line d.integ.windowKey
  if d.isBucket mem line then (lineEncode (d.bucketLine line) (lineDomain 1 line)).zipWith (· ^^^ ·) (Config.lineError (2 ^ 32 + line) d.integ.windowKey)
  else if mem ≠ 7 then free
  else (lineEncode (d.dramCipher line (free.take 64)) (lineDomain 7 line)).zipWith (· ^^^ ·) (Config.lineError line d.integ.windowKey)

/-- The stored image of the test line: raw bytes written while the window is open, otherwise what the line holds. -/
def Dev.testImage (d : Dev) : Bytes :=
  let line := d.obj 0xC030 0x43
  match tget (fun _ => []) d.integ.raw line with
  | [] => d.storedImage (d.obj 0xC030 0x42) line
  | b => b

/-- The test line lies in the open block. -/
def Dev.inWindow (d : Dev) : Bool :=
  match d.integ.window with
  | some (m, b) => m = d.obj 0xC030 0x42 && b = d.obj 0xC030 0x43 / 64
  | none => false

/-- Close the test window and restore its block; also at a change of ownership (R44, R464). (DESIGN CHOICE: log entry 144.) -/
def Dev.closeWindow (d : Dev) : Dev :=
  match d.integ.window with
  | some (m, _) => ((d.setSaved m none).integUpd fun x => { x with window := none, raw := [] }).set 0xC030 0x41 0
  | none => d

/-! The Sounding (R465 to R470). -/

/-- Blocks of a memory. -/
def memoryBlocks (mem : Nat) : Nat := memoryLines mem / 64

/-- The next block of the rotation that is not retired, from `b` on. -/
def nextBlock (blocks : Nat) (gone : List Nat) : Nat → Nat → Nat
  | 0, b => b % blocks
  | n + 1, b => if gone.contains (b % blocks) then nextBlock blocks gone n (b + 1) else b % blocks

/-- No droop step is in force and the device is not in Standby (R468). -/
def Dev.soundingGoesOn (d : Dev) : Bool := d.obj 0x2000 0x08 == 0 && d.obj 0xA000 0x02 != 2

/-- Number of memories whose save buffer an in-service sounding uses. -/
def Dev.soundingsRunning (d : Dev) : Nat := ((List.range 8).filter (fun m => (d.saved m).any (fun b => !b.2))).length

/-- Byte pattern of a background at a line: all 0x00, all 0xFF, 0x55 and 0xAA alternating by line, the line index in every 4 bytes (R465). -/
def background (bg line : Nat) : Bytes :=
  match bg with
  | 0 => List.replicate 72 0
  | 1 => List.replicate 72 0xFF
  | 2 => List.replicate 72 (if line % 2 = 0 then 0x55 else 0xAA)
  | _ => (List.range 18).flatMap (fun _ => beBytes 4 line)

/-- Operation `op` of the 2,560 of a block's march: its line and, for a read, the 72 bytes expected. March C−: write the background; read it and write its complement, read that and write it back, both upwards and then both downwards; read the background (R465). (PRESUMED: log entry 184.) -/
def marchOp (block op : Nat) : Nat × Option Bytes :=
  let k := op % 640
  let e := (k - 64) / 128
  let i := (k - 64) % 128 / 2
  let at_ : Nat := if k < 64 then k else if k < 576 then (if e < 2 then i else 63 - i) else k - 576
  let line := block * 64 + at_
  let fill := background (op / 640) line
  let reads : Bool := decide (576 ≤ k) || (decide (64 ≤ k) && (k - 64) % 2 == 0)
  (line, if ¬ reads then none else if k < 576 ∧ e % 2 = 1 then some (fill.map (fun b => ~~~ b)) else some fill)

/-- A march fails when any bit read differs from the bit expected (R465). -/
def marchFails (block : Nat) (reads : List (Nat × Bytes)) : Bool :=
  reads.any (fun x => decide (x.1 < 2560) && (match (marchOp block x.1).2 with | some b => b != x.2 | none => false))

/-- The DRAM's shortened start-up pass: one write and then one read of each line with the line-index background; the reads are operations 64 to 127 (R466). -/
def shortFails (block : Nat) (reads : List (Nat × Bytes)) : Bool :=
  reads.any (fun x => decide (64 ≤ x.1 ∧ x.1 < 128) && background 3 (block * 64 + (x.1 - 64)) != x.2)

/-- SOUNDING_START (R29, R33, R467, R468): the block at the pointer, or an escalated block, is copied out; merge entries of the block retire first. -/
def execSoundingStart (t mem : Nat) (s : State) : Host.Outcome State Fault Refusal :=
  s.cmd t (mem < 8) fun d =>
    if d.flag 0xC040 0x02 ∧ d.flag 0xC040 0x07 ∧ d.pairRuns 3 ∧ d.saved mem = none ∧ d.soundingsRunning < 2 ∧ d.soundingGoesOn ∧ ¬ s.portTaken d mem 2 then
      let gone := d.retiredBlocks mem
      let blk := match (d.escalatedBlocks mem).find? (fun b => !gone.contains b) with
        | some b => b
        | none => nextBlock (memoryBlocks mem) gone gone.length (d.obj 0xC000 0x0C 0 mem)
      let mine := (d.merges mem).filter (fun e => e.line / 64 = blk)
      let d := d.setMerges mem ((d.merges mem).filter (fun e => e.line / 64 ≠ blk))
      let d := d.inc64 0xC000 0x08 0 mem (mine.filter (fun e => !e.full)).length
      (d.setSaved mem (some (blk, false))).usePorts [mem]
    else d

/-- What retirement of a block does in its memory (Table 18.4). -/
def Dev.retireEffect (d : Dev) (mem blk : Nat) : Dev :=
  match mem with
  | 0 => d.retireCells
  | 1 => if blk < 256 then (d.set 0x3000 0x01 (d.obj 0x3000 0x01 - 256)).retireBuckets blk else d
  | 2 => d
  | 7 =>
    if lineDomain 7 (blk * 64) = 5 then d.set 0xD000 0x06 (d.obj 0xD000 0x06 - 4)
    else d.integUpd fun x => { x with scratchUsed := x.scratchUsed + 1 }
  | 8 => d.integUpd fun x => { x with binnacleSpare := false }
  | m =>
    if 3 ≤ m ∧ m < 7 ∧ 5 ≤ (d.retiredBlocks m).length then
      { d with pairs := tput (fun _ => {}) d.pairs (m - 3) { state := 2, stoppedAt := d.now } }
    else d

/-- Retire a block (R470). -/
def Dev.retireBlock (d : Dev) (mem blk : Nat) : Dev :=
  if (d.retiredBlocks mem).contains blk then d
  else
    let d := d.integUpd fun x => { x with retired := tput (fun _ => []) x.retired mem (tget (fun _ => []) x.retired mem ++ [blk]) }
    let d := ((d.inc 0xC000 0x03 0 mem).inc 0xC040 0x05).set 0xC040 0x06 (mem * 2 ^ 32 + blk)
    let d := d.set 0xC000 0x02 (d.obj 0xC000 0x02 0 mem - 64) 0 mem
    (d.event 0 (some 18) Ev.retired.code 0 (beBytes 4 mem ++ beBytes 8 blk)).retireEffect mem blk

/-- Spare rows and columns used in a 256 KiB macro. -/
def Dev.sparesUsed (d : Dev) (mem blk : Nat) : Nat × Nat := tget (fun _ => (0, 0)) d.integ.spares (mem * 65536 + blk / 64)

/-- Fuse entries that repairs of `n` spares burn: while VBATSENSE is at least 11.8 V, and while entries are left (R469). -/
def Dev.fuses (d : Dev) (n : Nat) : Nat :=
  if d.integ.repairMode = 2 ∧ 11800 ≤ d.vbat then min n (64 - d.obj 0xC040 0x0A) else 0

/-- Replace failing rows and columns by spares in the repair mode in force, when they fit and the retest passes (R469); none when the block has to be retired. (DESIGN CHOICE: log entry 198.) -/
def Dev.repairBlock (d : Dev) (mem blk : Nat) (x : BlockTest) (retestFails : Bool) : Option Dev :=
  let u := d.sparesUsed mem blk
  let rows := (x.spares.filter (· == .row)).length
  let cols := (x.spares.filter (· == .column)).length
  let key := mem * 65536 + blk / 64
  if d.integ.repairMode = 0 ∨ mem = 8 ∨ rows + cols = 0 ∨ 4 < u.1 + rows ∨ 2 < u.2 + cols ∨ retestFails then none
  else
    let f := d.fuses (rows + cols)
    let b := tget (fun _ => (0, 0)) d.integ.burned key
    let d := d.integUpd fun y => { y with
      spares := tput (fun _ => (0, 0)) y.spares key (u.1 + rows, u.2 + cols)
      burned := tput (fun _ => (0, 0)) y.burned key (b.1 + min f rows, b.2 + (f - min f rows)) }
    let d := (d.inc 0xC040 0x08 0 0 rows).inc 0xC040 0x09 0 0 cols
    some (if f = 0 then d else d.inc 0xC040 0x0A 0 0 f)

/-- The rotation goes on after a block: the pointer moves past it, or the escalated block leaves the list. -/
def Dev.rotate (d : Dev) (mem blk : Nat) : Dev :=
  if (d.escalatedBlocks mem).contains blk then
    d.integUpd fun x => { x with escalated := tput (fun _ => []) x.escalated mem ((tget (fun _ => []) x.escalated mem).filter (· ≠ blk)) }
  else
    let gone := d.retiredBlocks mem
    d.set 0xC000 0x0C (nextBlock (memoryBlocks mem) gone gone.length (blk + 1)) 0 mem

/-- SOUNDING_BLOCK_END (R465, R468 to R470): the block passes and is restored, is repaired with spares, or is retired and keeps its save buffer. (DESIGN CHOICE: log entry 199.) -/
def execSoundingBlockEnd (t mem block : Nat) (test : BlockTest) (s : State) : Host.Outcome State Fault Refusal :=
  s.cmd t (mem < 8 && block < memoryBlocks mem) fun d =>
    match d.saved mem with
    | some (blk, false) =>
      if blk ≠ block ∨ d.integ.window = some (mem, blk) ∨ ¬ d.soundingGoesOn then d
      else
        let d := d.inc64 0xC040 0x04
        if ¬ marchFails blk test.reads then (d.setSaved mem none).rotate mem blk
        else match d.repairBlock mem blk test (marchFails blk test.retest) with
          | some d => (d.setSaved mem none).rotate mem blk
          | none => ((d.setSaved mem (some (blk, true))).retireBlock mem blk).rotate mem blk
    | _ => d

/-- SAVE_BUFFER_RELEASE (R470): the last line of a retired block has left use. -/
def execSaveBufferRelease (t mem : Nat) (s : State) : Host.Outcome State Fault Refusal :=
  s.cmd t (mem < 8) fun d =>
    match d.saved mem with
    | some (_, true) => d.setSaved mem none
    | _ => d

/-- The start-up test of a block: a failing block is repaired with spares or retired (R466, R469). -/
def Dev.startupBlock (d : Dev) (mem blk : Nat) (x : BlockTest) : Dev :=
  let fails (l : List (Nat × Bytes)) : Bool := if mem = 7 then shortFails blk l else marchFails blk l
  if ¬ fails x.reads then d
  else match d.repairBlock mem blk x (fails x.retest) with
    | some d => d
    | none => d.retireBlock mem blk

/-! The frame recorder (R472, R473). -/

/-- Bytes that a record takes in the ring. -/
def RecFrame.size (r : RecFrame) : Nat := 64 * cdiv (32 + r.bytes.length) 64

/-- Drop the oldest records until the ring fits its size; the list is newest first. (DESIGN CHOICE: log entry 145.) -/
def ringFit (cap : Nat) : List RecFrame → List RecFrame
  | [] => []
  | r :: l => if cap < r.size then [] else r :: ringFit (cap - r.size) l

/-- Write a mirror copy into the recorder ring, in the recorder's mode (R472). (DESIGN CHOICE: log entry 145.) -/
def Dev.record (d : Dev) (r : RecFrame) : Dev :=
  let st := d.obj 0xD020 0x05
  if ¬ d.flag 0xD000 0x01 ∨ (st ≠ 1 ∧ st ≠ 2) then d
  else
    let r := { r with seq := d.integ.nextRec, bytes := r.bytes.take (d.obj 0xD020 0x02) }
    let ring := ringFit (d.obj 0xD000 0x06 * 1024) (r :: d.integ.ring)
    let left := d.integ.postTrigger - 1
    let d := d.integUpd fun x => { x with ring := ring, nextRec := x.nextRec + 1, postTrigger := if st = 2 then left else x.postTrigger }
    let d := ((d.inc64 0xD000 0x04).set 0xD020 0x07 r.seq).set 0xD020 0x06 ((ring.getLast?.map (·.seq)).getD r.seq)
    if st = 2 ∧ left = 0 then d.set 0xD020 0x05 3 else d

/-- MIRROR_RECORD (R21, R472): the oldest mirror copy at FP11 is written to the ring, or dropped and counted while the ring write is `behind`. -/
def execMirrorRecord (t : Nat) (behind : Bool) (s : State) : Host.Outcome State Fault Refusal :=
  s.portCmd t [7] true fun d =>
    if ¬ d.memoryOn 7 then d
    else match d.takeMirror with
    | none => d
    | some (f, d) =>
      if behind then d.inc64 0xD000 0x05
      else
        d.record {
          lt := f.stamp, member := f.smem, port := f.sport, rule := f.rule.getD 0xFFFF, length := f.len, oversize := f.oversize, seq := 0,
          bytes := f.data }

/-- The 32-byte header and the captured bytes of a record (Table 18.6). -/
def RecFrame.image (r : RecFrame) : Bytes :=
  beBytes 12 (time96 (lt16 r.lt)) ++ [BitVec.ofNat 8 r.member, BitVec.ofNat 8 r.port] ++ beBytes 2 r.rule ++ beBytes 2 r.length ++
    beBytes 2 r.bytes.length ++ [BitVec.ofNat 8 (b2n (r.bytes.length < r.length) + 2 * b2n r.oversize + 4 * b2n r.lineError), 0, 0, 0] ++ beBytes 8 r.seq ++ r.bytes

/-- The record of a sequence, when it is still in the ring. -/
def Dev.recorded (d : Dev) (seq : Nat) : Option RecFrame := d.integ.ring.find? (fun r => r.seq = seq)

/-- Up to 1,024 bytes of the record of `A:D021.01` from the offset, zero-filled (R473); a free value while the DRAM is in self-refresh (R36). (DESIGN CHOICE: log entry 230.) -/
def Dev.recordData (d : Dev) : Nat :=
  if ¬ d.memoryOn 7 then Config.asleepRead (d.obj 0xD021 0x01) (d.obj 0xD021 0x02) % 2 ^ 8192
  else
  let b := match d.recorded (d.obj 0xD021 0x01) with | some r => r.image.drop (d.obj 0xD021 0x02) | none => []
  beNat ((b ++ List.replicate 1024 0).take 1024)

/-- REPLAY_FRAME_SEND (R473): the next record, at its original spacing; a record with an uncorrectable line is skipped. -/
def execReplayFrameSend (t : Nat) (s : State) : Host.Outcome State Fault Refusal :=
  s.portCmd t [7] true fun d =>
    if ¬ d.memoryOn 7 then d
    else match d.integ.replay with
    | none => d
    | some p =>
      match (d.integ.ring.reverse.filter (fun r => decide (p.next ≤ r.seq) && !r.lineError)).head? with
      | none => d.integUpd fun x => { x with replay := none }
      | some r =>
        let due : Bool := match p.lastOut with | none => true | some (tOut, tRec) => decide (tOut + (r.lt - tRec) ≤ d.now)
        if due then
          let p' : Option Replay := if p.left ≤ 1 then none else some { p with next := r.seq + 1, left := p.left - 1, lastOut := some (d.now, r.lt) }
          (d.integUpd fun x => { x with replay := p' }).offerReplay p.port r.bytes
        else d

/-! Almanac writes of C000–DFFF (R457, R463, R464, R469, R472, R473). -/

/-- Checks 10 of C000–DFFF beyond type and range. -/
def Dev.integValue (d : Dev) (idx sub v : Nat) : Nat :=
  match idx, sub with
  | 0xC020, 0x04 =>
    let m := d.obj 0xC020 0x01
    if v = 1 ∧ (7 < m ∨ d.obj 0xC020 0x03 < d.obj 0xC020 0x02 ∨ memoryLines m ≤ d.obj 0xC020 0x03) then 0x301 else 0
  | 0xC030, 0x41 => if v = 1 ∧ memoryLines (d.obj 0xC030 0x42) ≤ d.obj 0xC030 0x43 then 0x301 else 0
  | 0xD021, 0x01 => if (d.recorded v).isNone then 0x301 else 0
  | _, _ => 0

/-- Checks 12 and 13 of C000–DFFF. -/
def Dev.integDeps (d : Dev) (idx sub v : Nat) : Nat :=
  match idx, sub with
  | 0xC020, 0x04 => if v = 1 ∧ d.obj 0xC020 0x05 = 1 then 0x307 else 0
  | 0xC030, 0x41 => if v = 1 ∧ d.saved (d.obj 0xC030 0x42) ≠ none then 0x305 else 0
  | 0xC030, 0x47 => if v = 1 ∧ ¬ d.inWindow then 0x307 else 0
  | 0xC030, 0x48 => if v = 1 ∧ ¬ d.inWindow then 0x307 else 0
  | 0xC030, 0x49 => if v = 1 ∧ ¬ d.inWindow then 0x307 else 0
  | _, _ => 0

/-- What an accepted write of C000–DFFF does. -/
def Dev.integApply (d : Dev) (idx sub r v : Nat) : Dev :=
  match idx, sub with
  | 0xC020, 0x04 => if v = 1 then d.set 0xC020 0x05 1 else d
  | 0xC030, 0x41 =>
    if v = 1 then
      let m := d.obj 0xC030 0x42
      let b := d.obj 0xC030 0x43 / 64
      ((((d.setSaved m (some (b, false))).integUpd fun x => { x with window := some (m, b), raw := [], windowKey := d.freeCount }).set 0xC030 0x41 1).free 9).2
    else d.closeWindow
  | 0xC030, 0x47 =>
    if v = 1 then
      let img := beBytes 64 (d.obj 0xC030 0x44) ++ beBytes 5 (d.obj 0xC030 0x45) ++ beBytes 1 (d.obj 0xC030 0x46)
      d.integUpd fun x => { x with raw := tput (fun _ => []) x.raw (d.obj 0xC030 0x43) img }
    else d
  | 0xC030, 0x48 =>
    if v = 1 then
      let img := d.testImage
      ((d.set 0xC030 0x4A (field img 0 64)).set 0xC030 0x4B (field img 64 5)).set 0xC030 0x4C (byteAt img 69)
    else d
  | 0xC030, 0x49 =>
    if v = 1 then
      let o := lineDecode d.testImage (lineDomain (d.obj 0xC030 0x42) (d.obj 0xC030 0x43))
      (d.set 0xC030 0x4D o.1).set 0xC030 0x4A (beNat (o.2.take 64))
    else d
  | 0xC051, 0x02 =>
    if v = 1 then
      (List.range 32).foldl (fun d k => ((((((d.set 0xC050 0x01 0xFF 0 k).set 0xC050 0x02 0 0 k).set 0xC050 0x03 0 0 k).set 0xC050 0x04 0 0 k).set 0xC050 0x05 0 0 k).set 0xC050 0x06 0 0 k)) d
    else d
  | 0xD020, 0x01 => (d.set 0xD020 0x01 v).set 0xD020 0x05 (if v = 0 then 0 else 1)
  | 0xD021, 0x04 => d.integUpd fun x => { x with replay := some { next := d.obj 0xD021 0x01, port := v, left := d.obj 0xD021 0x05 } }
  | _, _ => d.set idx sub v 0 r

end Sys2Proof.Machine
end

