-- ==== Sys2Proof/Machine/RoseBase.lean ====
section
/-! DEFINITION. What the field buses and the Rose share: definitions, signals, ingress queues and the suspension of deadlines (R266, R271, R278, R318). -/
namespace Sys2Proof.Machine

/-- Replace the Rose's state. -/
def Dev.roseUpd (d : Dev) (f : RoseSt → RoseSt) : Dev := { d with rose := f d.rose }

/-- Field of a PDU definition (`A:7100`). -/
def Dev.pdef (d : Dev) (sub r : Nat) : Nat := d.obj 0x7100 sub 0 r

/-- Field of a definition's emission and protection (`A:7810`). -/
def Dev.pex (d : Dev) (sub r : Nat) : Nat := d.obj 0x7810 sub 0 r

/-- Field of a signal (`A:7200`, `A:7201`). -/
def Dev.sig (d : Dev) (sub n : Nat) : Nat := d.obj (0x7200 + n / 32768) sub 0 (n % 32768)

/-- Store a field of a signal. -/
def Dev.setSig (d : Dev) (sub n v : Nat) : Dev := d.set (0x7200 + n / 32768) sub v 0 (n % 32768)

/-- Field of a signal's freshness (`A:7820`, `A:7821`). -/
def Dev.sfr (d : Dev) (sub n : Nat) : Nat := d.obj (0x7820 + n / 32768) sub 0 (n % 32768)

/-- Store a field of a signal's freshness. -/
def Dev.setSfr (d : Dev) (sub n v : Nat) : Dev := d.set (0x7820 + n / 32768) sub v 0 (n % 32768)

/-- Records of a member-level table whose enable is true, in ascending order. -/
def Dev.enabledRecs (d : Dev) (idx : Nat) : List Nat := (d.store.filter (fun x => x.1 % 2 ^ 32 == idx * 256 + 1 && x.2 != 0)).map (fun x => x.1 / 2 ^ 32)

/-- Enabled signals in ascending number (R278). -/
def Dev.signalsOn (d : Dev) : List Nat := d.enabledRecs 0x7200 ++ (d.enabledRecs 0x7201).map (· + 32768)

/-- Unit of a W index (Table 2.4), none beyond it. -/
def unitOfW (w : Nat) : Option Nat := if w < 24 then some (uC w) else if 0x40 ≤ w ∧ w < 0x50 then some (uL (w - 0x40)) else none

/-- W unit of a definition of kind 0 or 1. -/
def Dev.defUnit (d : Dev) (r : Nat) : Option Nat := if d.pdef 0x02 r ≤ 1 then unitOfW (d.pdef 0x04 r) else none

/-- A W unit's channel runs: neither STOPPED nor SLEEPING, and powered (R318). -/
def Dev.wRuns (d : Dev) (u : Nat) : Bool :=
  d.unitPowered u && (if u < 45 then d.obj 0x6010 0x04 u != 0 && d.obj 0x6010 0x04 u != 5 else d.obj 0x6810 0x05 u == 1)

/-- Local time in freshness ticks of 10 µs. -/
def Dev.tick10 (d : Dev) : Nat := d.lt / (10 * perUs)

/-- The deadlines of a W unit's signals stop, or go on with their remaining time once its power is on (R318). -/
def Dev.freshRun (d : Dev) (u : Nat) (runs : Bool) : Dev :=
  if runs && d.flag 0x7800 0x41 && !d.unitPowered u then d
  else if runs then
    match tget (fun _ => none) d.rose.pausedAt u with
    | some p =>
      let n := d.tick10 - p
      let mine (k : Nat) : Bool := d.defUnit (d.sig 0x02 k) == some u
      d.roseUpd fun x => { x with
        pausedAt := tput (fun _ => none) x.pausedAt u none
        fresh := x.fresh.map (fun e => if mine e.1 then (e.1, e.2.map (· + n)) else e) }
    | none => d
  else if d.flag 0x7800 0x41 ∧ tget (fun _ => none) d.rose.pausedAt u = none then
    d.roseUpd fun x => { x with pausedAt := tput (fun _ => none) x.pausedAt u (some d.tick10) }
  else d

/-- The deadlines of every W unit's signals follow its channel and its power (R318). -/
def Dev.freshAll (d : Dev) : Dev := ((List.range 40).map (· + 21)).foldl (fun d u => d.freshRun u (d.wRuns u)) d

/-! Reception (R232, R251, R266). -/

/-- Ingress queue of the Rose: C00–C23 at 0, L00–L15 at 24. -/
def Dev.ingress (d : Dev) (q : Nat) : List InPdu := tget (fun _ => []) d.rose.queues q

/-- Replace an ingress queue; a PDU that comes to its head does so now, and the peak follows (R301). -/
def Dev.setIngress (d : Dev) (q : Nat) (l : List InPdu) : Dev :=
  let old := d.ingress q
  let at_ := if old.length < l.length ∧ old ≠ [] then tget (fun _ => 0) d.rose.headAt q else d.now
  { d with rose := { d.rose with queues := tput (fun _ => []) d.rose.queues q l, headAt := tput (fun _ => 0) d.rose.headAt q at_ } }.peak 0x7010 0x04 l.length (21 + q)

end Sys2Proof.Machine
end

