-- ==== Sys2Proof/Machine/Can.lean ====
section
/-! DEFINITION. The CAN channels: transmit buffers, selection, windows, error counting, bus-off and reroute (R223 to R246, R92, R93). -/
namespace Sys2Proof.Machine

/-- Enter a channel state; the deadlines of its signals run only while it runs (R318). -/
def Dev.setCanState (d : Dev) (u v : Nat) : Dev := (d.freshRun u (v != 0 && v != 5)).set 0x6010 0x04 v u

/-! Identifiers and formats (Table 9.1, layout of `A:6020.05`). -/

/-- Whether a mode handles a format (Table 9.1). -/
def modeHandles (mode fmt : Nat) : Bool := fmt == 0 || fmt == 3 || fmt ≤ mode

/-- Rank of a frame in the selection, lower first: base identifier, format order, extension (R237 points 1 to 3). -/
def canRank (f : CanFrame) : Nat :=
  if (canExt f) then
    bits f.ident 28 18 * 2 ^ 24 + 4 * 2 ^ 20 + bits f.ident 17 0 * 4 + (match (canFmt f) with | 0 => 0 | 1 => 1 | _ => 2)
  else bits f.ident 10 0 * 2 ^ 24 + (canFmt f) * 2 ^ 20

/-- Blocks taken by a buffer's content and by content held over it. -/
def Dev.bufBlocks (d : Dev) (u b : Nat) : Nat :=
  if d.bufState u b = 0 then 0
  else d.obj 0x6020 0x0B u b + (match (d.buf u b).held with | some (some f) => (canBlocks f) | _ => 0)

/-- Free blocks of a channel's payload area (R234). -/
def Dev.freeBlocks (d : Dev) (u : Nat) : Nat := 128 - ((List.range 32).map (d.bufBlocks u)).sum

/-! Buffers (R235 to R239, R244). -/

/-- A load into a buffer that is not EMPTY (R239); none when the payload area is too small. -/
def Dev.bufReplace (d : Dev) (u b : Nat) (f : CanFrame) : Option Dev :=
  let x := d.buf u b
  if d.bufState u b = 3 then
    let old : Nat := match x.held with | some (some h) => (canBlocks h) | _ => 0
    if d.freeBlocks u + old < (canBlocks f) then none
    else some ((d.setBuf u b { x with held := some (some f), heldCall := false }).inc 0x6030 0x11 u)
  else if d.freeBlocks u + d.obj 0x6020 0x0B u b < (canBlocks f) then none
  else some (((((d.set 0x6020 0x05 f.ident u b).set 0x6020 0x0B (canBlocks f) u b)).setBuf u b { x with frame := f, lastCall := false }).inc 0x6030 0x11 u)

/-- Result of a load: loaded into a buffer, refused (R235), or the channel is not loaded (R284). -/
inductive Loaded where
  | into (b : Nat)
  | refused
  | notReady
  deriving DecidableEq, Repr

/-- Load a frame into an owner-0 buffer by a load policy (R231, R235, R284); the copy of an original carries the rerouted flag. An XL frame with a 29-bit identifier is a format that no mode can send (R223, R224). -/
def Dev.canPlace (d : Dev) (u : Nat) (f : CanFrame) (policy : Nat) (copyOf : Option Nat) : Dev × Loaded :=
  if d.canShut u then (d, .notReady)
  else if d.flag 0x6010 0x03 u then (if copyOf.isSome then d else d.inc 0x6030 0x15 u, .notReady)
  else if ¬ modeHandles (d.obj 0x6010 0x02 u) (canFmt f) ∨ (canFmt f = 2 ∧ (canExt f ∨ 2 ^ 11 ≤ f.ident % 2 ^ 29)) then (if copyOf.isSome then d else d.inc 0x6030 0x17 u, .refused)
  else
    let refuse : Dev × Loaded := (if copyOf.isSome then d else d.inc 0x6030 0x0F u, .refused)
    let same := if policy = 1 then (d.ownerBufs u 0).find? (fun b => d.bufState u b != 0 && (d.buf u b).frame.ident == f.ident) else none
    match same with
    | some b => match d.bufReplace u b f with
      | some d => (d, .into b)
      | none => refuse
    | none =>
      match (d.ownerBufs u 0).find? (fun b => d.bufState u b == 0) with
      | some b => if d.freeBlocks u < (canBlocks f) then refuse else ((d.bufFill u b f copyOf).bufArm u b false, .into b)
      | none => refuse

/-- The buffer of the twin that holds the copy of an original. -/
def Dev.copyBuf (d : Dev) (w b : Nat) : Option Nat := (List.range 32).find? (fun k => d.bufState w k != 0 && (d.buf w k).copyOf == some b && (d.buf w k).linked)

/-- Copy a frame of buffer `b` to the twin, or replace its copy there (R242). (DEDUCED: log entry 82.) -/
def Dev.reroute (d : Dev) (u b : Nat) (f : CanFrame) (replaced : Bool) : Dev :=
  match d.twin u with
  | none => d
  | some w =>
    let g := { f with ident := f.ident ^^^ (d.obj 0x6010 0x08 u % 2 ^ 29) }
    let (d, r) := match (if replaced then d.copyBuf w b else none) with
      | some k => match d.bufReplace w k g with | some d => (d, Loaded.into k) | none => (d, .refused)
      | none => d.canPlace w g 0 (some b)
    match r with
    | .into k => (d.inc 0x6030 0x13 u).event 6 (some 17) Ev.other.code u (unitPath d.stackId u ++ unitPath d.stackId w ++ [BitVec.ofNat 8 b, BitVec.ofNat 8 k])
    | _ => d.inc 0x6030 0x14 u

/-- A load of the Rose: the channel, and in BUS-OFF the twin (R242 step 3). (DEDUCED: log entry 82.) -/
def Dev.canLoad (d : Dev) (u : Nat) (f : CanFrame) (policy : Nat) : Dev × Loaded :=
  let had : List Nat := (List.range 32).filter (fun b => d.bufState u b != 0)
  let (d, r) := d.canPlace u f policy none
  if d.canState u = 4 then
    match r with
    | .into b => (d.reroute u b f (had.contains b), r)
    | .refused => (d.reroute u 32 f false, r)
    | .notReady => (d, r)
  else (d, r)

/-! Reference messages (R92, R93, R245). -/

/-- A Plotter event of consumer code 3 makes the reference buffer PENDING. -/
def Dev.canReference (d : Dev) (u : Nat) : Dev :=
  if ¬ d.flag 0x8060 0x01 u ∨ d.canShut u then d
  else match (d.ownerBufs u 1).head? with
    | none => d
    | some b =>
      if d.bufState u b ≠ 0 then d.inc 0x6050 0x04 u
      else
        let n := d.obj 0x6050 0x03 u
        let f : CanFrame := { ident := d.obj 0x6050 0x01 u, data := List.replicate n 0 }
        (d.bufFill u b f none).bufArm u b false |> fun d => d.setChan u { d.chan u with driven := true }

/-- Master_Ref_Mark of a start of frame now: global time at the sample point of the start-of-frame bit in 1/8 NTU, modulo 2^13 NTU (R92). (DESIGN CHOICE: log entry 192.) -/
def Dev.refMark (d : Dev) (u : Nat) : Nat :=
  let q := d.obj 0x6011 0x01 u * (1 + d.obj 0x6011 0x02 u)
  let base : Int := if d.obj 0x8060 0x06 u = 3 then (d.lt * 2 ^ 50 / 5 : Nat) else d.sex.zt.val
  let rate : Int := if d.obj 0x8060 0x06 u = 3 then 0 else d.sex.zt.rate
  let x : Int := base + q * 25 * (2 ^ 48 + rate) / 2
  ((x * 16 / (25 * 2 ^ 48 * max 1 (d.obj 0x8060 0x02 u))) % 2 ^ 16).toNat

/-- The data of a reference message at its start: the cycle count and the mark (R92). (DESIGN CHOICE: log entry 192.) -/
def Dev.refData (d : Dev) (u n : Nat) : Bytes :=
  ([BitVec.ofNat 8 (d.obj 0x8060 0x03 u % 64), 0] ++ beBytes 2 (d.refMark u) ++ List.replicate 4 0).take n

/-! Selection and attempts (R237 to R240). -/

/-- The buffer that an attempt is in progress for. -/
def Dev.canActive (d : Dev) (u : Nat) : Option Nat := (List.range 32).find? (fun b => d.bufState u b == 3)

/-- The better of two ranked buffers; at equal rank the first. -/
def better (d : Dev) (u : Nat) : Option Nat → Nat → Option Nat
  | none, b => some b
  | some a, b => if canRank (d.buf u b).frame < canRank (d.buf u a).frame then some b else some a

/-- The highest-priority buffer of a list (R237). -/
def Dev.firstOf (d : Dev) (u : Nat) (l : List Nat) : Option Nat := l.foldl (better d u) none

/-- The buffer that the next selection takes (R237); a reference message only while a leg of consumer code 3 drives the channel (R245). -/
def Dev.canSelect (d : Dev) (u : Nat) : Option Nat :=
  d.firstOf u ((List.range 32).filter (fun b => d.bufState u b == 1 && (d.obj 0x6020 0x01 u b != 1 || (d.chan u).driven)))

/-- Nominal bit time in kernel periods (R225). -/
def Dev.bitPeriods (d : Dev) (u : Nat) : Nat := d.obj 0x6011 0x01 u * (1 + d.obj 0x6011 0x02 u + d.obj 0x6011 0x03 u)

/-- The channel may start a frame: on the bus, its receiver settled, no attempt in progress, no stop and no sleep under way (R231, R233, R260, R384). -/
def Dev.canMayStart (d : Dev) (u : Nat) : Bool :=
  let c := d.chan u
  (d.canState u == 2 || d.canState u == 3) && d.unitPowered u && !d.flag 0x6010 0x03 u && (d.canActive u).isNone && !c.stopping &&
    c.settle.isNone && decide (c.idleFrom ≤ d.now) && !d.goingToSleep u

/-- A cancel of a buffer (R238); one in the kernel period of the buffer's start of frame is too late, and is held. -/
def Dev.bufCancel (d : Dev) (u b : Nat) : Dev :=
  let late : Bool := d.bufState u b == 1 && (d.chan u).startsIn == some (kernelIndex d.now) && d.canMayStart u && d.canSelect u == some b
  if d.bufState u b = 0 then d
  else if d.bufState u b = 3 ∨ late then d.setBuf u b { d.buf u b with held := some none, heldCall := false }
  else ((d.bufEmpty u b 2).inc 0x6030 0x10 u).canPump

/-- Network management of a segment beside its objects. -/
def Dev.seg (d : Dev) (u : Nat) : SegSt := tget (fun _ => {}) d.watch.segs u

/-- Replace a segment. -/
def Dev.setSeg (d : Dev) (u : Nat) (x : SegSt) : Dev := { d with watch := { d.watch with segs := tput (fun _ => {}) d.watch.segs u x } }

/-- The last call of a segment starts on the line, or its frame ends on LIN: the window runs (R381, R382). -/
def Dev.callStarts (d : Dev) (u : Nat) : Dev :=
  let g := d.seg u
  if d.obj 0xA020 0x0C u = 5 ∧ g.windowEnd.isNone then
    d.setSeg u { g with loadedAt := none, windowEnd := some (d.now + d.obj 0xA020 0x06 u * perMs) }
  else d

/-- The sample point of a channel's start-of-frame bit, in time-clock periods from the start of the bit. (DESIGN CHOICE: log entry 189.) -/
def Dev.sofSample (d : Dev) (u : Nat) : Nat := kernelTime (d.obj 0x6011 0x01 u * (1 + d.obj 0x6011 0x02 u))

/-- Zone time at the sample point of the start-of-frame bit of a buffer's last attempt (R71, R236); while that lies ahead, it is reckoned at the present rate. (DESIGN CHOICE: log entry 189.) -/
def Dev.canStamp (d : Dev) (u b : Nat) : Dev :=
  let e := (d.buf u b).start + d.sofSample u
  d.set 0x6020 0x07 (time96 (clk16 (if e ≤ d.now then d.ztAt e else d.sex.zt.val + stepOf d.sex.zt.rate * ((e - d.now : Nat) : Int)))) u b

/-- The PWM drive of a frame's data phase in XL mode with mode switching: short and long phase in kernel periods (R228). -/
def Dev.pwm (d : Dev) (u : Nat) (f : CanFrame) : Option (Nat × Nat) :=
  if canFmt f = 2 ∧ d.obj 0x6010 0x02 u = 2 ∧ d.flag 0x6011 0x43 u then some (d.obj 0x6011 0x44 u, d.obj 0x6011 0x45 u) else none

/-- The start of frame of buffer `b`; `delay` is the transmitter delay that its data phase will meet (R224, R227, R237, R381). -/
def Dev.canStart (d : Dev) (u b delay : Nat) : Dev :=
  let x := d.buf u b
  let owner := d.obj 0x6020 0x01 u b
  let f := if owner = 1 then { x.frame with data := d.refData u x.frame.data.length } else { x.frame with esi := d.canState u == 3 }
  let d := if owner = 1 ∧ x.again then d.inc 0x8060 0x05 u else d
  let d := ((d.set 0x6020 0x04 3 u b).setBuf u b { x with frame := f, start := d.now, delay := delay, inData := false }).canStamp u b
  let d := d.setChan u { d.chan u with phaseAt := if hasDataPhase f then some (d.phaseStart u f d.now, b) else none, startsIn := none }
  let d := if x.lastCall then d.callStarts u else d
  d.out (.canStart (u - 21) f (d.pwm u f))

/-- State changes of the error counters (Table 9.4): ERROR PASSIVE and back. -/
def Dev.canErrState (d : Dev) (u : Nat) : Dev :=
  let high : Bool := decide (127 < d.obj 0x6010 0x05 u) || decide (127 < d.obj 0x6010 0x06 u)
  match d.canState u, high with
  | 2, true => ((d.setCanState u 3).inc 0x6030 0x0B u).event 6 (some 17) Ev.canPassive.code u
  | 3, false => d.setCanState u 2
  | _, _ => d

/-- What was held over a buffer takes its place, a last call as such (R381), and a copy as the copy of its original. -/
def Dev.bufCall (d : Dev) (u b : Nat) (x : BufSt) : Dev := d.setBuf u b { d.buf u b with lastCall := x.heldCall, linked := x.linked }

/-- An attempt succeeds: the buffer is EMPTY, or held content becomes a new PENDING frame (R236, R238, R239). -/
def Dev.canSent (d : Dev) (u b : Nat) : Dev :=
  let x := d.buf u b
  let d := ((d.canStamp u b).dataPhase u b).inc64 0x6030 0x04 u
  let d := if 0 < d.obj 0x6010 0x05 u then (d.set 0x6010 0x05 (d.obj 0x6010 0x05 u - 1) u).canErrState u else d
  let d := if d.obj 0x6020 0x01 u b = 1 then
      (d.set 0x8060 0x03 (if d.obj 0x6050 0x02 u ≤ d.obj 0x8060 0x03 u then 0 else d.obj 0x8060 0x03 u + 1) u).inc 0x8060 0x04 u
    else d
  match x.held with
  | some (some f) => ((((d.unlink u b).set 0x6020 0x06 1 u b).bufFill u b f x.copyOf).bufCall u b x).bufArm u b false
  | _ => (d.bufEmpty u b 1).canPump

/-- An attempt fails: the buffer is PENDING again, follows the close action, or takes what is held (R236, R238, R239, R244). -/
def Dev.canFailed (d : Dev) (u b : Nat) : Dev :=
  let x := d.buf u b
  let d := (d.canStamp u b) |> fun d => d.setChan u { d.chan u with phaseAt := none }
  match x.held with
  | some none => ((d.bufEmpty u b 2).inc 0x6030 0x10 u).canPump
  | some (some f) => (((d.bufFill u b f x.copyOf).bufCall u b x).bufArm u b true).canPump
  | none => ((d.setBuf u b { x with again := true, inData := false }).bufArm u b true).canPump

/-- Fail the attempt in progress, if any. -/
def Dev.canFail (d : Dev) (u : Nat) : Dev := match d.canActive u with | some b => d.canFailed u b | none => d

/-- An entry into BUS-OFF, by errors or by the mark of an earlier one (Table 9.4): it counts, raises an event, and the count of recessive sequences starts from 0 (R230, R233). -/
def Dev.busOffEntry (d : Dev) (u : Nat) : Dev :=
  let d := ((d.setCanState u 4).inc 0x6030 0x0C u).set 0x6000 0x05 (setBit (d.obj 0x6000 0x05) (u - 21) true)
  (d.setChan u { d.chan u with offUntil := d.now + kernelTime (1408 * d.bitPeriods u) }).event 6 (some 17) Ev.canBusOff.code u

/-- Bus-off: the attempt ends as a failed one, then the reroute of the highest-priority owner-0 buffer (R229, R240, R242). -/
def Dev.canBusOff (d : Dev) (u : Nat) : Dev :=
  let d := (d.busOffEntry u).canFail u
  let cands := (d.ownerBufs u 0).filter (fun b => (d.bufState u b == 1 || d.bufState u b == 2) && (d.buf u b).copyOf.isNone)
  match d.firstOf u cands with
  | some b => d.reroute u b (d.buf u b).frame false
  | none => d

/-- Counter of an error kind (Table 9.6). -/
def errorCounter (kind : Nat) : Nat :=
  match kind with | 1 => 0x06 | 2 => 0x07 | 3 => 0x08 | 4 => 0x09 | 5 => 0x09 | _ => 0x0A

/-- The duplicate-identifier monitor (R243): a recessive bit of an own frame read dominant in the control, data or CRC field. -/
def Dev.canDuplicate (d : Dev) (u b : Nat) (pos fld : Nat) : Dev :=
  let id := (d.buf u b).frame.ident
  let d := ((d.inc 0x6040 0x01 u).set 0x6040 0x02 id u).set 0x6040 0x03 (pos % 65536) u
  ((d.set 0x6040 0x04 fld u).set 0x6040 0x05 d.ltTime u).event 6 (some 17) Ev.duplicateId.code u (beBytes 4 id ++ beBytes 2 pos ++ [BitVec.ofNat 8 fld])

/-- An error in the data phase of an XL frame that the channel does not signal: `A:6011.46` is false, as mode switching needs it (R228). (PRESUMED: log entry 219.) -/
def Dev.unsignalled (d : Dev) (u : Nat) (own : Option Nat) (e : CanError) : Bool :=
  d.obj 0x6010 0x02 u == 2 && !d.flag 0x6011 0x46 u &&
    (match own with
     | some b => (d.buf u b).inData && canFmt (d.buf u b).frame == 2
     | none => match e.place with | some (_, fld) => decide (1 ≤ fld) | none => false)

/-- An error on the bus of a channel that takes part in it (R229, R231, R243). (PRESUMED: log entry 77; DESIGN CHOICE: log entry 188.) -/
def Dev.canError (d : Dev) (u : Nat) (e : CanError) : Dev :=
  let d := (d.inc 0x6030 (errorCounter e.kind) u).set 0x6010 0x09 e.kind u
  if d.flag 0x6010 0x03 u then d
  else
    let own := if e.transmitting then d.canActive u else none
    let d := match own, e.place with
      | some b, some (pos, fld) => if e.kind = 4 then d.canDuplicate u b pos fld else d
      | _, _ => d
    let d := match own with
      | some b => if (e.kind == 3 || e.kind == 2 || (match e.place with | some (_, fld) => decide (1 ≤ fld) | none => false)) = true then d.dataPhase u b else d
      | none => d
    if d.unsignalled u own e then (if own.isSome then d.canFail u else d)
    else
    let d := if own.isSome then (if e.exempt then d else d.set 0x6010 0x05 (min 256 (d.obj 0x6010 0x05 u + 8)) u)
      else d.set 0x6010 0x06 (min 128 (d.obj 0x6010 0x06 u + (if e.heavy then 8 else 1))) u
    let d := d.canErrState u
    if 255 < d.obj 0x6010 0x05 u then d.canBusOff u else if own.isSome then d.canFail u else d

/-! Reception (R232). -/

/-- A received frame's stamps (R71): `age` periods before now. -/
def Dev.inPdu (d : Dev) (f : CanFrame) (age : Nat) : InPdu := { frame := f, lt := d.lt - age, zt := d.ztAt (d.now - age) }

/-- A frame received without error counts down REC (ISO 11898-1); above 127 its new value is open between 119 and 127. (DESIGN CHOICE: log entry 78.) -/
def Dev.canGood (d : Dev) (u : Nat) : Dev :=
  let r := d.obj 0x6010 0x06 u
  if r = 0 then d
  else if 127 < r then
    let (v, d) := d.free 30
    (d.set 0x6010 0x06 (119 + v % 9) u).canErrState u
  else d.set 0x6010 0x06 (r - 1) u

/-- A frame that a node other than this channel sends is received: to the Rose's ingress queue, the staging, or dropped. -/
def Dev.canDeliver (d : Dev) (u : Nat) (p : InPdu) : Dev :=
  let q := u - 21
  let c := d.chan u
  if (d.ingress q).length < 16 ∧ c.staging = [] then d.setIngress q (d.ingress q ++ [p])
  else if c.staging.length < 2 then d.setChan u { c with staging := c.staging ++ [p] }
  else d.inc 0x6030 0x0E u

/-- The frame carries the request identifier on the channel of the CAN service (R51, R232); an XL frame, which has 11 bits of identifier, its low 11 bits. (DESIGN CHOICE: log entry 200.) -/
def Dev.canServiceFrame (d : Dev) (u : Nat) (f : CanFrame) : Bool :=
  decide (d.obj 0x1040 0x04 = u - 21) && (if canFmt f = 2 then f.ident % 2 ^ 11 == d.obj 0x1040 0x05 % 2 ^ 11 else canExt f && f.ident % 2 ^ 29 == d.obj 0x1040 0x05)

/-- A frame received without error (R232). -/
def Dev.canReceive (d : Dev) (u : Nat) (f : CanFrame) (age : Nat) : Dev :=
  let d := d.inc64 0x6030 (match (canFmt f) with | 1 => 0x02 | 2 => 0x03 | _ => 0x01) u
  let d := if d.flag 0x6010 0x03 u then d else d.canGood u
  if d.canServiceFrame u f then d.arrive .can (.can (u - 21) (d.obj 0x1040 0x05)) f.data
  else d.canDeliver u (d.inPdu f age)

/-! Channel states (R229, R230, R233). -/

/-- Every non-empty buffer becomes EMPTY with the result stopped (R229, R233). -/
def Dev.canClear (d : Dev) (u : Nat) : Dev :=
  (List.range 32).foldl (fun d b => if d.bufState u b = 0 then d else (d.bufEmpty u b 5).inc 0x6030 0x10 u) d

/-- The channel enters STOPPED, keeping the bus-off mark when it was in BUS-OFF (R233). -/
def Dev.canStopped (d : Dev) (u : Nat) : Dev :=
  let d := if d.canState u = 4 then (d.set 0x6010 0x0A 1 u).set 0x6000 0x05 (setBit (d.obj 0x6000 0x05) (u - 21) false) else d
  (((d.canClear u).setCanState u 0).setChan u { d.chan u with stopping := false, settle := none, waking := false, bufs := [] }).canPump

/-- The channel enters SLEEPING (R229); bus-off is not ended by it (R230). -/
def Dev.canSleep (d : Dev) (u : Nat) : Dev :=
  let d := if d.canState u = 4 then (d.set 0x6010 0x0A 1 u).set 0x6000 0x05 (setBit (d.obj 0x6000 0x05) (u - 21) false) else d
  (((d.canClear u).setCanState u 5).setChan u { d.chan u with settle := none, waking := false, bufs := [] }).canPump

/-- The channel's receiver has settled (R260): a channel enabled or woken joins its bus, or goes back to BUS-OFF with the mark (R233). -/
def Dev.canJoin (d : Dev) (u : Nat) : Dev :=
  let c := d.chan u
  let d := d.setChan u { c with settle := none, waking := false }
  if ¬ d.flag 0x6010 0x01 u ∨ (d.canState u ≠ 0 ∧ ¬ c.waking) then d
  else if d.flag 0x6010 0x0A u then d.busOffEntry u
  else d.setCanState u 1

/-! Almanac writes of 6000–67FF and 8060 (R226, R228, R231, R235, R241, R244). -/

/-- Timing value of a channel with a write of `A:6011.sub` taken as made. -/
def Dev.tm (d : Dev) (u ws wv sub : Nat) : Nat := if sub = ws then wv else d.obj 0x6011 sub u

/-- The checks of Table 9.2 and R228 with a write of `A:6011.ws` taken as made; `ws` 0 for none. -/
def Dev.timing (d : Dev) (u ws wv : Nat) : Nat :=
  let v := d.tm u ws wv
  let mode := d.obj 0x6010 0x02 u
  let nb := v 1 * (1 + v 2 + v 3)
  let db := v 5 * (1 + v 6 + v 7)
  let inr (x lo hi : Nat) : Bool := decide (lo ≤ x) && decide (x ≤ hi)
  let pwm := v 0x44 + v 0x45
  if ¬ (inr (v 1) 1 32 ∧ inr (v 2) 2 256 ∧ inr (v 3) 1 128 ∧ inr (v 4) 1 128) then 0x301
  else if ¬ (inr (v 5) 1 32 ∧ inr (v 6) 1 64 ∧ inr (v 7) 1 32 ∧ inr (v 8) 1 32) then 0x301
  else if v 3 < v 4 ∨ v 7 < v 8 then 0x301
  else if 80000000 < 10000 * nb ∨ 1000000 * nb < 80000000 ∨ 1 + v 2 + v 3 < 8 then 0x301
  else if nb < db ∨ (mode = 1 ∧ db * 8000000 < 80000000) ∨ db < 8 then 0x301
  else if db < 80 ∧ v 0x41 = 0 then 0x302
  else if v 0x43 = 1 ∧ (mode ≠ 2 ∨ v 0x46 = 1) then 0x302
  else if v 0x43 = 1 ∧ (pwm = 0 ∨ db % pwm ≠ 0 ∨ 4 < db / pwm) then 0x301
  else 0

/-- A channel that names this one as its twin stands against a write of another twin; the pair may be dissolved while that channel is stopped. (DESIGN CHOICE: log entry 218.) -/
def Dev.twinHolds (d : Dev) (u w : Nat) : Bool :=
  (List.range 24).any (fun c => c != u - 21 && c != w && d.obj 0x6010 0x07 (uC c) == u - 21 && (w != 0xFF || d.canState (uC c) != 0))

/-- The twin rules of R241 for a channel with twin `w` and mode `m`. -/
def Dev.twinValue (d : Dev) (u w : Nat) : Nat :=
  if d.twinHolds u w then 0x302
  else if w = 0xFF then 0
  else if uC w = u ∨ d.obj 0x6010 0x02 (uC w) < d.obj 0x6010 0x02 u then 0x302
  else let back := d.obj 0x6010 0x07 (uC w); if back ≠ 0xFF ∧ uC back ≠ u then 0x302 else 0

/-- Checks 10 of 6000–67FF and 8060 beyond type and range. -/
def Dev.canValue (d : Dev) (idx sub u r v : Nat) : Nat :=
  let service : Bool := decide (d.obj 0x1040 0x04 = u - 21)
  match idx, sub with
  | 0x6010, 0x01 =>
    if v = 0 ∨ d.flag 0x6010 0x01 u then 0
    else if d.timing u 0 0 ≠ 0 then d.timing u 0 0
    else match d.twin u with
      | none => 0
      | some w => if d.obj 0x6010 0x07 w ≠ u - 21 ∨ d.obj 0x6010 0x02 w < d.obj 0x6010 0x02 u then 0x302 else 0
  | 0x6010, 0x02 =>
    if v = 0 ∧ service then 0x302
    else match d.twin u with
      | none => 0
      | some w => if d.obj 0x6010 0x02 w < v ∨ (d.obj 0x6010 0x07 w = u - 21 ∧ v < d.obj 0x6010 0x02 w) then 0x302 else 0
  | 0x6010, 0x03 => if v = 1 ∧ (service ∨ d.flag 0x8060 0x01 u) then 0x302 else 0
  | 0x6010, 0x07 => d.twinValue u v
  | 0x6011, s => d.timing u s v
  | 0x6020, 0x01 => if v = 1 ∧ d.flag 0x6020 0x02 u r then 0x302 else 0
  | 0x6020, 0x02 => if v = 1 ∧ d.obj 0x6020 0x01 u r = 1 then 0x302 else 0
  | 0x6050, 0x01 => if bits v 31 30 ≠ 0 then 0x302 else 0
  | 0x8060, 0x01 => if v = 1 ∧ d.flag 0x6010 0x03 u then 0x302 else 0
  | _, _ => 0

/-- Check 11 of 6000–67FF: the channel is stopped. -/
def Dev.canIsStopped (d : Dev) (u : Nat) : Bool := d.canState u == 0 && !d.flag 0x6010 0x01 u

/-- Checks 12 and 13 of 6000–67FF and 8060. -/
def Dev.canDeps (d : Dev) (idx sub u r v : Nat) : Nat :=
  match idx, sub with
  | 0x6010, 0x01 => if v = 0 ∧ d.flag 0xA020 0x01 u then 0x304 else 0
  | 0x6020, 0x01 => if v ≠ 0 ∧ (d.ownerBufs u v).any (fun b => b != r) then 0x305 else 0
  | 0x8060, 0x01 => if v = 1 ∧ (d.ownerBufs u 1).length ≠ 1 then 0x304 else 0
  | _, _ => 0

end Sys2Proof.Machine
end

