-- ==== Sys2Proof/Machine/Lin.lean ====
section
/-! DEFINITION. The LIN channels: publish records, schedule tables, frames (R247 to R258). -/
namespace Sys2Proof.Machine

/-- A LIN channel beside its objects, by unit. -/
def Dev.lin (d : Dev) (u : Nat) : LinSt := tget (fun _ => {}) d.lins u

/-- Replace a LIN channel. -/
def Dev.setLin (d : Dev) (u : Nat) (x : LinSt) : Dev := { d with lins := tput (fun _ => {}) d.lins u x }

/-- Channel state (Table 10.1). -/
def Dev.linState (d : Dev) (u : Nat) : Nat := d.obj 0x6810 0x05 u

/-- The channel is a master. -/
def Dev.linMaster (d : Dev) (u : Nat) : Bool := d.obj 0x6810 0x02 u == 0

/-- Length of the frame of an identifier: 60 and 61 always have 8 bytes (R247). -/
def Dev.linLen (d : Dev) (u id : Nat) : Nat := if id = 60 ∨ id = 61 then 8 else d.obj 0x6820 0x02 u id

/-- TFrame_Max of a frame of `n` data bytes in tenths of a bit time (R249). (DEDUCED: log entry 84.) -/
def frameMax (n : Nat) : Nat := 14 * (34 + 10 * (n + 1))

/-- TFrame_Max in time-clock periods at a bit rate. (DEDUCED: log entry 84.) -/
def frameMaxTime (n rate : Nat) : Nat := cdiv (frameMax n * 125000000) (max 1 rate)

/-- Time-clock periods of a number of half bit times at a bit rate. -/
def linBits (h rate : Nat) : Nat := cdiv (h * 625000000) (max 1 rate)

/-- The protected identifier: the identifier with its two parity bits of ISO 17987 (R247, R249). (PRESUMED: log entry 220.) -/
def linPid (id : Nat) : Nat :=
  id + 64 * b2n ((bit id 0 != bit id 1) != (bit id 2 != bit id 4)) + 128 * b2n (!((bit id 1 != bit id 3) != (bit id 4 != bit id 5)))

/-- The checksum of ISO 17987 (R247): the inverted sum with carry of the data bytes, in the enhanced model of the protected identifier too. (PRESUMED: log entry 220.) -/
def linChecksum (enhanced : Bool) (id : Nat) (b : Bytes) : Byte :=
  let add (a x : Nat) : Nat := if 255 < a + x then a + x - 255 else a + x
  BitVec.ofNat 8 (255 - (b.map BitVec.toNat).foldl add (if enhanced then linPid id else 0))

/-- The checksum that a frame of an identifier carries on a channel (R247): 60 to 63 always the classic one. -/
def Dev.linCheckByte (d : Dev) (u id : Nat) (b : Bytes) : Byte := linChecksum (decide (id < 60) && d.flag 0x6820 0x03 u id) id b

/-- A frame whose break begins at `start` on a master (R71, R248, R250): its break delimiter is sampled in the middle of its one bit, 20 bits of sync byte and protected identifier follow it, then the response space. (DESIGN CHOICE: log entry 190.) -/
def Dev.masterFrame (d : Dev) (u id len start : Nat) : LinFrame :=
  let brk := d.obj 0x6810 0x04 u
  let rate := d.obj 0x6810 0x03 u
  { id := id, len := len, start := start, mark := start + linBits (2 * brk + 1) rate, own := true,
    respAt := start + linBits (2 * (brk + 21 + d.obj 0x6810 0x09 u)) rate }

/-- A master sends a header (R247, R248). -/
def Dev.sendHeader (d : Dev) (u id : Nat) : Dev :=
  (d.inc 0x6840 0x01 u).out (.linHeader (u - 45) (d.obj 0x6810 0x03 u) (d.obj 0x6810 0x04 u) 1 [0x55, BitVec.ofNat 8 (linPid id)])

/-- The publish record of an identifier holds data (R252). -/
def Dev.linLoaded (d : Dev) (u id : Nat) : Bool := d.flag 0x6820 0x04 u id

/-- The record is loaded and its data has not been sent. -/
def Dev.linFresh (d : Dev) (u id : Nat) : Bool := d.linLoaded u id && !d.flag 0x6820 0x05 u id

/-- A load of the Rose into a publish record (R252, R285). -/
def Dev.linLoad (d : Dev) (u id : Nat) (data : Bytes) : Dev × Loaded :=
  if d.linState u ≠ 1 ∨ d.goingToSleep u ∨ ¬ d.unitPowered u then (d, .notReady)
  else if d.obj 0x6820 0x01 u id ≠ 1 then (d, .refused)
  else
    let x := d.lin u
    let frame := x.frame.map (fun f => { f with reloaded := f.reloaded || (f.id == id && f.resp.isSome) })
    (((d.setLin u { x with data := tput (fun _ => []) x.data id data, frame := frame }).set 0x6820 0x04 1 u id).set 0x6820 0x05 0 u id, .into 0)

/-- Every publish record is unloaded (R254). -/
def Dev.linUnload (d : Dev) (u : Nat) : Dev :=
  let d := (List.range 64).foldl (fun d id => (d.set 0x6820 0x04 0 u id).set 0x6820 0x05 0 u id) d
  d.setLin u { d.lin u with data := [] }

/-! Frames (R248 to R253). -/

/-- The response-error bit set in a publish frame's data (R253). (DEDUCED: log entry 86.) -/
def Dev.linMark (d : Dev) (u id : Nat) (b : Bytes) : Bytes :=
  if ¬ d.linMaster u ∧ d.obj 0x6810 0x0A u = id then
    let k := d.obj 0x6810 0x0B u
    (List.range b.length).map (fun i => if i = k / 8 then BitVec.ofNat 8 (setBit (byteAt b i) (k % 8) (d.lin u).error) else b.getD i 0)
  else b

/-- The frame in progress ends; a waiting go-to-sleep command starts (R382). -/
def Dev.linEnd (d : Dev) (u : Nat) : Dev :=
  let x := d.lin u
  let was : Bool := match x.frame with | some f => f.sleepCmd | none => false
  let d := d.setLin u { x with frame := none }
  if was then d.callStarts u
  else if x.sleepDue then
    (d.setLin u { d.lin u with frame := some { d.masterFrame u 60 8 d.now with sleepCmd := true }, sleepDue := false }).sendHeader u 60
  else d

/-- The go-to-sleep command is sent now, or after the frame in progress (R382). -/
def Dev.linGoToSleep (d : Dev) (u : Nat) : Dev :=
  let d := d.setLin u { d.lin u with sleepDue := true }
  if (d.lin u).frame.isNone then d.linEnd u else d

/-- An own frame ended in an error (R253). -/
def Dev.linErred (d : Dev) (u : Nat) (f : LinFrame) : Dev := if f.own then d.setLin u { d.lin u with error := true } else d

/-- A frame without error goes to the Rose's ingress queue, the staging, or is dropped (R251). -/
def Dev.linDeliver (d : Dev) (u : Nat) (p : InPdu) : Dev :=
  let q := u - 45 + 24
  let x := d.lin u
  if (d.ingress q).length < 16 ∧ x.staging = [] then d.setIngress q (d.ingress q ++ [p])
  else if x.staging.length < 2 then d.setLin u { x with staging := x.staging ++ [p] }
  else d.inc 0x6840 0x0E u

/-! Schedule tables (R255 to R258). -/

/-- Number of entries of a table. -/
def Dev.tableCount (d : Dev) (tb : Nat) : Nat := d.obj 0x6838 0x01 0 tb

/-- A leg with consumer code 4 drives the slots of a channel (R257). -/
def Dev.slotsDriven (d : Dev) (u : Nat) : Bool :=
  (List.range 16).any (fun n =>
    let p := d.obj 0x8420 0x04 0 n
    d.obj 0x8420 0x03 0 n == 4 && decide (2 ≤ d.obj 0x8420 0x0E 0 n) && decide (bits p 31 24 = d.stackId) && unitOfGI (bits p 23 16) (bits p 15 8) == some u)

/-- The next slot start takes entry 0 of another table (R256, R258). -/
def LinSt.newTable (x : LinSt) : Bool := x.collide.isSome || (x.request.isSome && x.resume.isNone)

/-- A table becomes active at a slot start: a request, unless a collision is being resolved, or the collision table of a collision (R256, R258). -/
def Dev.linTable (d : Dev) (u : Nat) : Dev :=
  let x := d.lin u
  match x.collide, x.request with
  | some c, _ =>
    ((d.setLin u { x with collide := none, resume := some (d.obj 0x6810 0x06 u, d.obj 0x6810 0x08 u) }).set 0x6810 0x06 c u).set 0x6810 0x08 0 u
  | none, some r =>
    if x.resume.isSome then d
    else
      let d := if d.obj 0x6810 0x06 u = 0xFF then d else d.inc 0x6840 0x0D u
      ((d.setLin u { x with request := none }).set 0x6810 0x06 r u).set 0x6810 0x08 0 u
  | none, none => d

/-- The entry pointer moves on; at the end of a collision table the original table resumes (R258). -/
def Dev.linAdvance (d : Dev) (u tb ptr : Nat) : Dev :=
  let wrap (p n : Nat) : Nat := if n ≤ p then 0 else p
  if ptr + 1 < d.tableCount tb then d.set 0x6810 0x08 (ptr + 1) u
  else match (d.lin u).resume with
    | some (t0, p0) => ((d.setLin u { d.lin u with resume := none }).set 0x6810 0x06 t0 u).set 0x6810 0x08 (wrap p0 (d.tableCount t0)) u
    | none => d.set 0x6810 0x08 0 u

/-- Whether the header of an entry is sent (Table 10.2, R252). -/
def Dev.linSends (d : Dev) (u type id : Nat) : Bool :=
  match type with
  | 0 => d.obj 0x6820 0x01 u id != 1 || d.linLoaded u id
  | 2 => d.linFresh u id
  | 3 => d.linFresh u id
  | _ => true

/-- A slot start (R257): from the Plotter, whose header starts `lag` periods later, or the channel's own timer. (DESIGN CHOICE: log entry 85.) -/
def Dev.linSlot (d : Dev) (u lag : Nat) : Dev :=
  let seg := d.obj 0xA020 0x0C u
  if d.linState u ≠ 1 ∨ ¬ d.linMaster u ∨ ¬ d.unitPowered u ∨ (d.lin u).settle.isSome ∨ (d.lin u).stopping ∨ seg = 5 ∨ seg = 6 then d
  else if (d.lin u).frame.isSome then d.inc 0x6840 0x0B u
  else
    let d := d.linTable u
    let tb := d.obj 0x6810 0x06 u
    if tb = 0xFF then d
    else
      let ptr := d.obj 0x6810 0x08 u
      let e := tb * 64 + ptr
      let type := d.obj 0x6830 0x01 0 e
      let id := d.obj 0x6830 0x02 0 e
      let resolving := (d.lin u).resume.isSome
      let d := d.linAdvance u tb ptr
      let d := d.setLin u { d.lin u with slotAt := d.now + d.obj 0x6830 0x03 0 e * 125000 }
      if d.linSends u type id then
        let f : LinFrame := { d.masterFrame u id (d.linLen u id) (d.now + lag) with own := d.obj 0x6820 0x01 u id == 1 && type != 1 && type != 4, type := type, resolving := resolving }
        (d.setLin u { d.lin u with frame := some f }).sendHeader u id
      else if d.obj 0x6820 0x01 u id = 1 ∧ ¬ d.linLoaded u id then d.inc 0x6840 0x0C u
      else d

/-- An event-triggered slot ends in an error: a collision, resolved unless a collision table runs already; a collision table without entries is at its end at once (R258). -/
def Dev.linCollision (d : Dev) (u : Nat) (f : LinFrame) : Dev :=
  let d := d.inc 0x6840 0x0A u
  if f.resolving then d
  else
    let tb := d.obj 0x6810 0x06 u
    let n := d.tableCount tb
    let e := tb * 64 + (if d.obj 0x6810 0x08 u = 0 then n - 1 else d.obj 0x6810 0x08 u - 1)
    let c := d.obj 0x6830 0x04 0 e
    if c = 0xFF ∨ d.tableCount c = 0 then d else d.setLin u { d.lin u with collide := some c }

/-- A frame in progress has reached its time limit (R249); `started` says that a response byte of another node had begun. -/
def Dev.linLimit (d : Dev) (u : Nat) (started : Bool) : Dev :=
  match (d.lin u).frame with
  | none => d
  | some f =>
    let d := if f.failed ∨ f.sleepCmd then d
      else if started ∨ f.resp.isSome then (d.inc 0x6840 0x07 u).linErred u f
      else if f.type = 1 ∨ f.id = 61 then d
      else (d.inc 0x6840 0x06 u).linErred u f
    d.linEnd u

/-- A dominant phase is a break for a slave: at least 11 nominal bit times (R248). -/
def Dev.isBreak (d : Dev) (u brk : Nat) : Bool := decide (11 * 1250000000 ≤ brk * d.obj 0x6810 0x03 u)

/-- A header that a slave receives, at its end (R248, R249, R252): the break delimiter of one bit lay before 20 bits of sync byte and protected identifier, the break before it. A break ends the frame before it. (DESIGN CHOICE: log entry 190.) -/
def Dev.linHeader (d : Dev) (u pid : Nat) (h : LinHead) : Dev :=
  if ¬ d.isBreak u h.brk then d
  else
    let d := (d.linLimit u h.began).set 0x6810 0x0C h.rate u
    let id := pid % 64
    let nominal := d.obj 0x6810 0x03 u
    if nominal * d.obj 0x6810 0x41 u < (max h.rate nominal - min h.rate nominal) * 100 then d.inc 0x6840 0x08 u
    else if pid ≠ linPid id then d.inc 0x6840 0x09 u
    else
      let dir := d.obj 0x6820 0x01 u id
      if dir = 0 ∨ (dir = 1 ∧ ¬ d.linLoaded u id) then d
      else
        d.setLin u { d.lin u with
          frame := some
            { id := id, len := d.linLen u id, start := d.now - linBits 42 h.rate - h.brk, mark := d.now - linBits 41 h.rate, own := dir == 1,
              respAt := d.now + linBits (2 * d.obj 0x6810 0x09 u) nominal } }

/-- Data of the response that the channel sends for a frame; those of the go-to-sleep command are fixed (R253, R382). -/
def Dev.linData (d : Dev) (u : Nat) (f : LinFrame) : Bytes :=
  if f.sleepCmd then 0 :: List.replicate 7 0xFF else d.linMark u f.id (tget (fun _ => []) (d.lin u).data f.id)

/-- The channel sends its response, data and checksum, after the response space; it stops at the end of the byte in which the first bit read back differs (R250). (DEDUCED: log entry 86.) -/
def Dev.linRespond (d : Dev) (u : Nat) (differs : Option Nat) : Dev :=
  match (d.lin u).frame with
  | none => d
  | some f =>
    if ¬ f.own ∨ f.failed ∨ f.resp.isSome ∨ d.now < f.respAt then d
    else
      let b := d.linData u f
      let whole := b ++ [d.linCheckByte u f.id b]
      match differs.filter (· < whole.length) with
      | some k =>
        let d := ((d.out (.linResponse (u - 45) (whole.take (k + 1)))).inc 0x6840 0x04 u).linErred u f
        d.setLin u { d.lin u with frame := some { f with resp := some b, failed := true } }
      | none => (d.out (.linResponse (u - 45) whole)).setLin u { d.lin u with frame := some { f with resp := some b } }

/-- The error that a response of another node ends in, or none: the line's own, or a checksum that is not that of its data (R247, R249). -/
def Dev.linFault (d : Dev) (u : Nat) (f : LinFrame) (data : Bytes) (check : LinCheck) : Option Nat :=
  match check with
  | .framing => some 0x08
  | .bit => some 0x04
  | .good => if f.own ∨ data.getD f.len 0 = d.linCheckByte u f.id (data.take f.len) then none else some 0x05

/-- The response is complete: `data` is what the line gave, the data bytes and the checksum (R249, R251). -/
def Dev.linComplete (d : Dev) (u : Nat) (data : Bytes) (check : LinCheck) : Dev :=
  match (d.lin u).frame with
  | none => d
  | some f =>
    if f.failed ∨ (f.own ∧ f.resp.isNone) ∨ (¬ f.own ∧ data.length ≠ f.len + 1) then d
    else
      let b := if f.own then f.resp.getD [] else data.take f.len
      match d.linFault u f data check with
      | none =>
        let d := if f.own then (d.inc64 0x6840 0x03 u) else d
        if f.sleepCmd then d.linEnd u
        else
          let d := if f.own ∧ ¬ f.reloaded then d.set 0x6820 0x05 1 u f.id else d
          let d := if f.own ∧ d.obj 0x6810 0x0A u = f.id then d.setLin u { d.lin u with error := false } else d
          let d := if d.obj 0x6820 0x01 u f.id = 0 then d
            else
              let age := d.now - f.mark
              ((d.inc64 0x6840 0x02 u).inc 0x6820 0x06 u f.id).linDeliver u (d.inPdu { ident := f.id, data := b } age)
          d.linEnd u
      | some e =>
        let d := if f.type = 1 then d.linCollision u f else (d.inc 0x6840 e u).linErred u f
        d.linEnd u

/-! Channel states (R254). -/

/-- The channel enters STOPPED or SLEEPING: its publish records are unloaded. A stopped channel has no table active. -/
def Dev.linRest (d : Dev) (u state : Nat) : Dev :=
  let d := ((d.linUnload u).freshRun u false).set 0x6810 0x05 state u
  let x := d.lin u
  let d := d.setLin u { data := [], staging := x.staging, error := x.error }
  if state = 0 then (d.set 0x6810 0x06 0xFF u).set 0x6810 0x08 0 u
  else match x.resume with
    | some (t0, _) => (d.set 0x6810 0x06 t0 u).set 0x6810 0x08 0 u
    | none => d.set 0x6810 0x08 0 u

/-- The channel enters RUNNING; its first slot waits for the settling time (R260). (DESIGN CHOICE: log entry 85.) -/
def Dev.linRun (d : Dev) (u : Nat) : Dev := ((d.freshRun u true).set 0x6810 0x05 1 u).setLin u { d.lin u with slotAt := d.now }

/-- A veto resumes the active schedule table at entry 0 (R382). -/
def Dev.linResume (d : Dev) (u : Nat) : Dev :=
  let x := d.lin u
  let d := match x.resume with | some (t0, _) => d.set 0x6810 0x06 t0 u | none => d
  (d.setLin u { x with sleepDue := false, resume := none, collide := none, slotAt := d.now }).set 0x6810 0x08 0 u

/-! Almanac writes of 6800–6FFF that concern LIN (R247, R253, R255, R256). -/

/-- A running master has a table active or requested (R256). -/
def Dev.tableUsed (d : Dev) (tb : Nat) : Bool :=
  (List.range 16).any (fun i =>
    let u := uL i
    let x := d.lin u
    d.linState u == 1 && d.linMaster u && (d.obj 0x6810 0x06 u == tb || x.request == some tb || x.collide == some tb || (x.resume.map (·.1)) == some tb))

/-- The checks of R256 in their order. -/
def Dev.tableCheck (d : Dev) (u tb : Nat) : Nat :=
  let es := (List.range (d.tableCount tb)).map (tb * 64 + ·)
  let ty (e : Nat) := d.obj 0x6830 0x01 0 e
  let id (e : Nat) := d.obj 0x6830 0x02 0 e
  let badId (e : Nat) : Bool := (ty e == 3 && id e != 60) || (ty e == 4 && id e != 61) || (ty e < 3 && d.obj 0x6820 0x01 u (id e) == 0)
  let badColl (e : Nat) : Bool :=
    let c := d.obj 0x6830 0x04 0 e
    ty e == 1 && (c == tb || decide (63 < c) || ((List.range (d.tableCount c)).any (fun k => ty (c * 64 + k) == 1)))
  let short (e : Nat) : Bool := decide (d.obj 0x6830 0x03 0 e * d.obj 0x6810 0x03 u < 1000 * frameMax (d.linLen u (id e)))
  if ¬ d.linMaster u then 0x307
  else if es = [] then 0x304
  else if es.any badId then 0x302
  else if es.any badColl then 0x302
  else if es.any short then 0x301
  else 0

/-- The response-error record fits (R253). -/
def Dev.errRecord (d : Dev) (u id k : Nat) : Nat :=
  if id = 0xFF then 0 else if d.obj 0x6820 0x01 u id ≠ 1 ∨ d.linLen u id < (k + 8) / 8 then 0x304 else 0

/-- Checks 10 of the LIN objects beyond type and range. -/
def linValue (idx sub r v : Nat) : Nat :=
  match idx, sub with
  | 0x6810, 0x07 => if 63 < v ∧ v ≠ 0xFF then 0x301 else 0
  | 0x6820, 0x03 => if v = 1 ∧ 60 ≤ r then 0x302 else 0
  | 0x6830, 0x04 => if 63 < v ∧ v ≠ 0xFF then 0x301 else 0
  | _, _ => 0

/-- Check 11 of the LIN objects: the channel, or the table, is stopped. -/
def Dev.linStopped (d : Dev) (idx u r : Nat) : Bool :=
  match idx with
  | 0x6830 => !d.tableUsed (r / 64)
  | 0x6838 => !d.tableUsed r
  | _ => d.linState u == 0 && !d.flag 0x6810 0x01 u

/-- Checks 12 and 13 of the LIN objects. -/
def Dev.linDeps (d : Dev) (idx sub u v : Nat) : Nat :=
  match idx, sub with
  | 0x6810, 0x01 => if v = 0 ∧ d.flag 0xA020 0x01 u then 0x304 else 0
  | 0x6810, 0x07 => if v = 0xFF then 0 else d.tableCheck u v
  | 0x6810, 0x0A => d.errRecord u v (d.obj 0x6810 0x0B u)
  | 0x6810, 0x0B => d.errRecord u (d.obj 0x6810 0x0A u) v
  | _, _ => 0

end Sys2Proof.Machine
end

