-- ==== Sys2Proof/Machine/RoseCore.lean ====
section
/-! DEFINITION. The Rose: bit numbering, mailboxes, emission triggers, and protection of PDUs (R275 to R281, R305 to R328). -/
namespace Sys2Proof.Machine

/-! Bit numbering (R275 to R277). -/

/-- Bit at a position of a PDU. (DEDUCED: log entry 96.) -/
def pduBit (b : Bytes) (p : Nat) : Bool := bit (byteAt b (p / 8)) (p % 8)

/-- Put a bit at a position of a PDU. -/
def putPduBit (b : Bytes) (p : Nat) (v : Bool) : Bytes := b.set (p / 8) (BitVec.ofNat 8 (setBit (byteAt b (p / 8)) (p % 8) v))

/-- The position of the next lower bit of a big-endian signal. -/
def belowBe (p : Nat) : Nat := if p % 8 ≠ 0 then p - 1 else p + 15

/-- Positions of a big-endian signal of `n` bits from its most significant bit down. -/
def bePositions : Nat → Nat → List Nat
  | 0, _ => []
  | n + 1, p => p :: bePositions n (belowBe p)

/-- Positions of a signal's bits, the least significant first. -/
def sigPositions (order start len : Nat) : List Nat :=
  if order = 0 then (List.range len).map (· + start) else (bePositions len start).reverse

/-- The value at positions, the least significant first. -/
def bitsAt (b : Bytes) (l : List Nat) : Nat := l.foldr (fun p v => 2 * v + b2n (pduBit b p)) 0

/-- Insert a value at positions, the least significant first. -/
def insertAt (b : Bytes) : List Nat → Nat → Bytes
  | [], _ => b
  | p :: l, v => insertAt (putPduBit b p (bit v 0)) l (v / 2)

/-- The signal is a large signal (R279). -/
def Dev.isLarge (d : Dev) (n : Nat) : Bool := decide (64 < d.sig 0x04 n)

/-- Positions of a signal from a start bit in its own order and length; a large signal fills whole bytes in PDU order. -/
def Dev.sigAtBit (d : Dev) (n start : Nat) : List Nat :=
  if d.isLarge n then (List.range (d.sig 0x04 n)).map (· + start) else sigPositions (d.sig 0x05 n) start (d.sig 0x04 n)

/-- Positions lie inside a number of bytes. -/
def insideBytes (l : List Nat) (n : Nat) : Bool := l.all (fun p => decide (p < 8 * n))

/-- A large signal's value. -/
def Dev.largeValue (d : Dev) (n : Nat) : Bytes := (tget (fun _ => []) d.rose.large n ++ List.replicate (d.sig 0x04 n / 8) 0).take (d.sig 0x04 n / 8)

/-! The emission queue (R266, R308, R309). -/

/-- A job enters P, merges into one that is there, or waits as a pending bit. Containers stand from 8,192 on. -/
def Dev.pushP (d : Dev) (j : Nat) : Dev :=
  if d.rose.pq.contains j || d.rose.pend.contains j then
    let d := if j < 8192 then d.inc 0x7810 0x04 0 j else d
    d.inc64 0x7800 0x03
  else if 1024 ≤ d.rose.pq.length then
    (d.roseUpd fun x => { x with pend := x.pend.filter (· < j) ++ j :: x.pend.filter (j < ·) }).inc 0x7800 0x04
  else (d.roseUpd fun x => { x with pq := x.pq ++ [j] }).peak 0x7800 0x02 (d.rose.pq.length + 1)

/-- The lowest pending bit takes a free place of P. -/
def RoseSt.fillP (x : RoseSt) : RoseSt :=
  match x.pend with
  | j :: rest => if x.pq.length < 1024 then { x with pq := x.pq ++ [j], pend := rest } else x
  | [] => x

/-- The head job of P leaves. -/
def Dev.popP (d : Dev) : Dev := d.roseUpd fun x => RoseSt.fillP { x with pq := x.pq.drop 1 }

/-- A job of P is withdrawn. -/
def Dev.dropP (d : Dev) (j : Nat) : Dev := d.roseUpd fun x => RoseSt.fillP { x with pq := x.pq.filter (· != j), pend := x.pend.filter (· != j) }

/-- A change trigger of a destination (R307, R308). -/
def Dev.changeTrigger (d : Dev) (r : Nat) : Dev :=
  if d.pex 0x01 r < 2 then d
  else
    let gap := d.pex 0x02 r * perUs
    match tget (fun _ => none) d.rose.lastStart r with
    | none => d.pushP r
    | some l =>
      if l + gap ≤ d.lt then d.pushP r
      else if d.flag 0x7810 0x07 0 r then (d.inc 0x7810 0x04 0 r).inc64 0x7800 0x03
      else if d.rose.pq.contains r || d.rose.pend.contains r then d.pushP r
      else (d.set 0x7810 0x07 1 0 r).roseUpd fun x => { x with release := tput (fun _ => 0) x.release r (l + gap) }

/-- A Plotter event of consumer code 5 (R306, R308): it enters P and clears a deferred change, which merges into it. (DEDUCED: log entry 105.) -/
def Dev.rosePeriodic (d : Dev) (r : Nat) : Dev :=
  if d.pex 0x01 r ≠ 1 ∧ d.pex 0x01 r ≠ 3 then d
  else
    let d := if d.flag 0x7810 0x07 0 r then ((d.set 0x7810 0x07 0 0 r).inc 0x7810 0x04 0 r).inc64 0x7800 0x03 else d
    d.pushP r

/-! Mailboxes (R280, R281, R307, R313, R315). -/

/-- Enabled signal routes of a signal, in ascending number. -/
def Dev.sigRoutes (d : Dev) (n : Nat) : List Nat := (d.enabledRecs 0x7300).filter (fun r => d.obj 0x7300 0x02 0 r == 2 && d.obj 0x7300 0x03 0 r == n)

/-- Change triggers of the routes of a signal that satisfy a test. -/
def Dev.sigTriggers (d : Dev) (n : Nat) (test : Nat → Bool) : Dev :=
  ((d.sigRoutes n).filter (fun r => d.flag 0x7830 0x01 0 r && test r)).foldl (fun d r => d.changeTrigger (d.obj 0x7300 0x04 0 r)) d

/-- The next mailbox sequence number: 65,535 wraps to 1. -/
def nextSeq (s : Nat) : Nat := if s = 65535 then 1 else s + 1

/-- The deadline of a signal starts again from this tick; while its channel's deadlines are suspended, it is kept as from their stop, so that it goes on whole (R318). -/
def Dev.freshStart (d : Dev) (n : Nat) : Dev :=
  let dl := d.sfr 0x01 n / 10
  let from_ := ((d.defUnit (d.sig 0x02 n)).bind (fun u => tget (fun _ => none) d.rose.pausedAt u)).getD d.tick10
  d.roseUpd fun x => { x with fresh := tput (fun _ => none) x.fresh n (if dl = 0 then none else some (from_ + dl + 1)) }

/-- A mailbox takes a new value: the value of a signal up to 64 bits, or the bytes of a large signal. `fix` is zone time in 2^-16 ns, `at_` when the source PDU came to the head of its queue. (DESIGN CHOICE: log entry 141.) -/
def Dev.mailbox (d : Dev) (n value : Nat) (big : Bytes) (fix at_ : Nat) : Dev :=
  let st := d.sig 0x08 n
  let seq := d.sig 0x0B n
  let large := d.isLarge n
  let changed : Bool := large || st != 1 || d.sig 0x09 n != value
  let flag := tget (fun _ => false) d.rose.emitted n
  let d := if ¬ flag ∧ seq ≠ 0 ∧ ¬ (d.sigRoutes n).isEmpty then d.setSfr 0x05 n ((d.sfr 0x05 n + 1) % 2 ^ 32) else d
  let d := d.roseUpd fun x => { x with emitted := tput (fun _ => false) x.emitted n false, sigAt := tput (fun _ => 0) x.sigAt n at_ }
  let d := if large then d.roseUpd fun x => { x with large := tput (fun _ => []) x.large n big } else d
  let d := ((d.setSig 0x08 n 1).setSig 0x09 n value).setSig 0x0A n (time96 fix)
  let d := (d.setSig 0x0B n (nextSeq seq)).setSig 0x0C n ((d.sig 0x0C n + 1) % 2 ^ 32)
  let d := (if large then d else d.partialWrite 2 (Config.mailboxLine n % memoryLines 2)).freshStart n
  if changed then d.sigTriggers n (fun _ => true) else d

/-- The deadline of a signal has run out and is not suspended (R315, R318). -/
def Dev.expired (d : Dev) (signal : Nat) : Bool :=
  match tget (fun _ => none) d.rose.fresh signal with
  | none => false
  | some e =>
    let held : Bool := d.flag 0x7800 0x41 && (match d.defUnit (d.sig 0x02 signal) with | some u => !d.wRuns u | none => false)
    decide (e ≤ d.tick10) && !held && d.sig 0x08 signal == 1

/-- A route's content changes when its signal expires (R317). -/
def Dev.expiryTriggers (d : Dev) (signal route : Nat) : Bool :=
  match d.sfr 0x02 signal with
  | 0 => d.obj 0x7830 0x02 0 route != 0xFFFF
  | 1 => d.sfr 0x03 signal != d.sig 0x09 signal
  | 3 => true
  | _ => false

/-- A signal expires: its mailbox is STALE or SUBSTITUTED (R316, R317). -/
def Dev.expire (d : Dev) (signal : Nat) : Dev :=
  if ¬ d.expired signal then d
  else
    let d := d.roseUpd fun x => { x with fresh := tput (fun _ => none) x.fresh signal none }
    let d := (d.setSig 0x08 signal (if d.sfr 0x02 signal = 1 then 3 else 2)).setSfr 0x04 signal ((d.sfr 0x04 signal + 1) % 2 ^ 32)
    let d := (d.inc64 0x7800 0x06).setSfr 0x06 signal d.ztTime
    d.sigTriggers signal (d.expiryTriggers signal)

/-- Every expiry that is due takes effect before the next job starts (R316). -/
def Dev.expiriesDue (d : Dev) : Dev := (d.rose.fresh.map (·.1)).foldl Dev.expire d

/-- FRESHNESS_EXPIRY (R315 to R318): the deadline of a signal has run out. -/
def execFreshnessExpiry (t signal : Nat) (s : State) : Host.Outcome State Fault Refusal :=
  s.cmd t (signal < 65536) fun d => d.expire signal

/-- DEFERRED_CHANGE_RELEASE (R308): the lowest-numbered definition whose release time has come. -/
def execDeferredChangeRelease (t : Nat) (s : State) : Host.Outcome State Fault Refusal :=
  s.cmd t true fun d =>
    match d.rose.release.find? (fun x => d.flag 0x7810 0x07 0 x.1 && decide (x.2 ≤ d.lt)) with
    | some (r, _) => ((d.set 0x7810 0x07 0 0 r).roseUpd fun x => { x with release := tput (fun _ => 0) x.release r 0 }).pushP r
    | none => d

/-! Protection headers (R320 to R323). -/

/-- One bit of an unreflected CRC. -/
def crcStep (w poly : Nat) (c : Nat) : Nat := if bit c (w - 1) then (2 * c % 2 ^ w) ^^^ poly else 2 * c % 2 ^ w

/-- One bit of a reflected CRC-32 of polynomial 0x1EDC6F41. -/
def crcStepR (c : Nat) : Nat := if bit c 0 then (c / 2) ^^^ 0x82F63B78 else c / 2

/-- Apply a step eight times. -/
def eight (f : Nat → Nat) (c : Nat) : Nat := f (f (f (f (f (f (f (f c)))))))

/-- CRC of a profile over bytes (Table 12.3). -/
def crcOf (profile : Nat) (b : Bytes) : Nat :=
  match profile with
  | 1 => b.foldl (fun c x => eight (crcStep 8 0x1D) (c ^^^ x.toNat)) 0xFF ^^^ 0xFF
  | 2 => b.foldl (fun c x => eight (crcStep 16 0x1021) (c ^^^ (x.toNat * 256))) 0xFFFF
  | _ => b.foldl (fun c x => eight crcStepR (c ^^^ x.toNat)) 0xFFFFFFFF ^^^ 0xFFFFFFFF

/-- Bytes of the CRC and of the whole header, and counter bits, of a profile. -/
def profileShape (p : Nat) : Nat × Nat × Nat := match p with | 1 => (1, 2, 4) | 2 => (2, 3, 8) | _ => (4, 8, 16)

/-- Overwrite bytes from an offset. -/
def putBytes (b : Bytes) (off : Nat) (v : Bytes) : Bytes := b.take off ++ v ++ b.drop (off + v.length)

/-- Part of a PDU that the protection covers: the authentic payload of a secured PDU (R321). (DEDUCED: log entry 106.) -/
def Dev.coveredLen (d : Dev) (r n : Nat) : Nat := if d.flag 0x7810 0x20 0 r then min n (d.pex 0x23 r) else n

/-- CRC of a PDU of a definition (R321). -/
def Dev.pduCrc (d : Dev) (r : Nat) (b : Bytes) : Nat :=
  let o := d.pex 0x12 r
  let c := (profileShape (d.pex 0x10 r)).1
  let body := b.take (d.coveredLen r b.length)
  crcOf (d.pex 0x10 r) (beBytes 2 (d.pex 0x11 r) ++ body.take o ++ body.drop (o + c))

/-- Write counter, length and CRC of a definition's profile (R322). -/
def Dev.protect (d : Dev) (r : Nat) (b : Bytes) : Bytes :=
  let o := d.pex 0x12 r
  let k := d.pex 0x15 r
  match d.pex 0x10 r with
  | 0 => b
  | 1 => let b := putBytes b (o + 1) [BitVec.ofNat 8 (k % 16)]; putBytes b o (beBytes 1 (d.pduCrc r b))
  | 2 => let b := putBytes b (o + 2) (beBytes 1 k); putBytes b o (beBytes 2 (d.pduCrc r b))
  | _ => let b := putBytes b (o + 4) (beBytes 2 k ++ beBytes 2 b.length); putBytes b o (beBytes 4 (d.pduCrc r b))

/-- The counter of a destination rises for a PDU that it has sent (R322). -/
def Dev.protectNext (d : Dev) (r : Nat) : Dev :=
  if d.pex 0x10 r = 0 then d else d.set 0x7810 0x15 ((d.pex 0x15 r + 1) % 2 ^ (profileShape (d.pex 0x10 r)).2.2) 0 r

/-- The protection check of a received PDU (Table 12.5); false discards it. -/
def Dev.protectCheck (d : Dev) (r : Nat) (b : Bytes) : Dev × Bool :=
  let p := d.pex 0x10 r
  if p = 0 then (d, true)
  else
    let (cn, hn, k) := profileShape p
    let o := d.pex 0x12 r
    let c := match p with | 1 => byteAt b (o + 1) % 16 | 2 => byteAt b (o + 2) | _ => field b (o + 4) 2
    let bad : Bool := decide (b.length < o + hn) || field b o cn != d.pduCrc r b || (p == 3 && field b (o + 6) 2 != b.length)
    let drop (d : Dev) : Dev × Bool := (d.inc64 0x7800 0x08, false)
    if bad then drop ((d.set 0x7810 0x16 6 0 r).inc 0x7810 0x17 0 r)
    else if ¬ tget (fun _ => false) d.rose.protSet r then
      (((d.set 0x7810 0x16 1 0 r).set 0x7810 0x15 c 0 r).roseUpd fun x => { x with protSet := tput (fun _ => false) x.protSet r true }, true)
    else
      let dd := (c + 2 ^ k - d.pex 0x15 r) % 2 ^ k
      if dd = 0 then drop ((d.set 0x7810 0x16 4 0 r).inc 0x7810 0x18 0 r)
      else if dd = 1 then ((d.set 0x7810 0x16 2 0 r).set 0x7810 0x15 c 0 r, true)
      else if dd ≤ d.pex 0x13 r then (((d.set 0x7810 0x16 3 0 r).set 0x7810 0x15 c 0 r).inc 0x7810 0x1A 0 r (dd - 1), true)
      else
        let d := ((d.set 0x7810 0x16 5 0 r).set 0x7810 0x15 c 0 r).inc 0x7810 0x19 0 r
        if d.pex 0x14 r = 0 then drop d else (d, true)

/-! Secured PDUs (R324 to R328). -/

/-- Zone time is untraceable (flag T of R290): FREE RUN, or DEAD RECKONING beyond the holdover limit. -/
def Dev.untraceable (d : Dev) : Bool :=
  d.obj 0x8000 0x03 == 0 || (d.obj 0x8000 0x03 == 4 && (d.obj 0x8000 0x0B == 248 || decide (d.sex.stateAt + d.obj 0x8010 0x08 * perS < d.now)))

/-- Zone time in µs. -/
def Dev.ztUs (d : Dev) : Nat := (clkNs d.sex.zt.val / 1000).toNat

/-- Security of a definition is available (R328). -/
def Dev.secReady (d : Dev) (r : Nat) : Bool := !d.untraceable && d.slotFull (d.pex 0x21 r) && !(d.key (d.pex 0x21 r)).isEmpty

/-- Security was unavailable for a PDU. -/
def Dev.secMissing (d : Dev) (r : Nat) : Dev := (d.inc 0x7810 0x2B 0 r).inc 0x7800 0x0A

/-- CMAC over data ID, authentic payload and freshness value (R326). -/
def Dev.pduMac (d : Dev) (r : Nat) (b : Bytes) (fv : Nat) : Bytes :=
  (aesCmac (d.key (d.pex 0x21 r)) (beBytes 2 (d.pex 0x22 r) ++ b.take (d.pex 0x23 r) ++ beBytes 8 fv)).take (d.pex 0x25 r / 8)

/-- The freshness value of the next PDU of a destination (R325). -/
def Dev.nextFv (d : Dev) (r : Nat) : Nat := if tget (fun _ => false) d.rose.fvSet r then max (d.pex 0x27 r + 1) d.ztUs else d.ztUs

/-- A secured PDU from its authentic payload (R326). (DEDUCED: log entry 106.) -/
def Dev.secure (d : Dev) (r : Nat) (b : Bytes) : Bytes :=
  if ¬ d.flag 0x7810 0x20 0 r then b
  else let fv := d.nextFv r; b.take (d.pex 0x23 r) ++ beBytes (d.pex 0x24 r / 8) fv ++ d.pduMac r b fv

/-- The freshness value of a destination is used (R325). -/
def Dev.secureNext (d : Dev) (r : Nat) : Dev :=
  if ¬ d.flag 0x7810 0x20 0 r then d
  else ((d.keyTransfer (d.pex 0x21 r)).set 0x7810 0x27 (d.nextFv r % 2 ^ 64) 0 r).roseUpd fun x => { x with fvSet := tput (fun _ => false) x.fvSet r true }

/-- A secured PDU fails; the Logbook names its definition at most once a second (R327). -/
def Dev.secFailed (d : Dev) (r sub : Nat) : Dev :=
  let d := (d.inc 0x7810 sub 0 r).inc64 0x7800 0x09
  let quiet : Bool := match tget (fun _ => none) d.rose.secAt r with | some e => decide (d.now < e + perS) | none => false
  if quiet then d
  else (d.roseUpd fun x => { x with secAt := tput (fun _ => none) x.secAt r (some d.now) }).event 5 (some 7) Ev.secFailure.code 0 (beBytes 2 r)

/-- The freshness value that a received field stands for (R327): the value congruent to it nearest to the receiver's time. -/
def rebuildFv (f v t : Nat) : Int :=
  let m : Int := 2 ^ f
  let lo : Int := (t : Int) - 2 ^ (f - 1)
  lo + ((v : Int) - lo) % m

/-- The secured check of a received PDU; false discards it. -/
def Dev.secureCheck (d : Dev) (r : Nat) (b : Bytes) : Dev × Bool :=
  if ¬ d.flag 0x7810 0x20 0 r then (d, true)
  else if ¬ d.secReady r then (d.secMissing r, false)
  else
    let d := d.keyTransfer (d.pex 0x21 r)
    let a := d.pex 0x23 r
    let f := d.pex 0x24 r
    let t := d.ztUs
    let c := rebuildFv f (field b a (f / 8)) t
    if d.pex 0x26 r < (c - t).natAbs ∨ c ≤ d.pex 0x27 r then (d.secFailed r 0x2A, false)
    else if slice b (a + f / 8) (d.pex 0x25 r / 8) ≠ d.pduMac r b c.toNat then (d.secFailed r 0x29, false)
    else ((d.set 0x7810 0x27 c.toNat 0 r).inc64 0x7810 0x28 0 r, true)

/-! Costs (Tables 11.1, 12.6). -/

/-- Cycles of the protection and security of a PDU of `n` bytes (R329). -/
def Dev.checkCost (d : Dev) (r n : Nat) : Nat :=
  (if d.pex 0x10 r = 0 then 0 else 2 * cdiv (2 + d.coveredLen r n - (profileShape (d.pex 0x10 r)).1) 64) +
    (if d.flag 0x7810 0x20 0 r then 20 + 15 * cdiv (10 + d.pex 0x23 r) 16 else 0)

/-- Cycles of the extraction or insertion of a signal. -/
def Dev.sigCost (d : Dev) (n : Nat) : Nat := if d.isLarge n then 10 * cdiv (d.sig 0x04 n / 8) 64 else 10

/-- Cycles in ns, longer under a droop step in its ratio (R268). -/
def Dev.cyclesNs (d : Dev) (n : Nat) : Nat :=
  match d.obj 0x2000 0x08 with | 0 => 2 * n | 1 => cdiv (16 * n) 7 | 2 => cdiv (8 * n) 3 | _ => 4 * n

end Sys2Proof.Machine
end

