-- ==== Sys2Proof/Machine/Consumers.lean ====
section
/-! DEFINITION. What the Plotter's events do at their consumers (Table 4.3). -/
namespace Sys2Proof.Machine

/-- A gate event at an N, E, S or K port: bits 7–0 of the queues, and hold. It is in force at the transmit MAC 16 ns after the event fires (R209). -/
def Dev.gateEvent (d : Dev) (u gates : Nat) (hold : Bool) (at_ : Nat) : Dev :=
  { d with ports := { d.ports with gates := d.ports.gates ++ [(u, at_ + 20, gates, hold)] } }

/-- No leg drives a port any more: its gates are open at once and the hold is clear (R106, R209). -/
def Dev.gatesOpen (d : Dev) (u : Nat) : Dev :=
  Dev.gateInForce { d with ports := { d.ports with gates := d.ports.gates.filter (fun g => g.1 ≠ u) } } d.now u 0xFF false

end Sys2Proof.Machine
end

