-- ==== Sys2Proof/Machine/Plotter.lean ====
section
/-! DEFINITION. The Plotter: Bearings, the phase input, and the sixteen legs (R95 to R113). -/
namespace Sys2Proof.Machine

/-! Bearings (R97, R98). -/

/-- Source field of a BEARING64. -/
def bearingSource (b : Nat) : Nat := bits b 63 60

/-- Tooth positions per revolution in angle units: U = P × 256 (R98). -/
def Dev.phaseU (d : Dev) : Nat := d.obj 0x8410 0x02 * 256

/-- Position of a Bearing on its source: ns for time, revolutions × U + angle for phase. -/
def Dev.bearingPos (d : Dev) (b : Nat) : Int :=
  if bearingSource b = 4 then ((bits b 59 32 * d.phaseU + bits b 31 0 : Nat) : Int) else ((b % 2 ^ 60 : Nat) : Int)

/-- Check 10 of a BEARING64 value (R97). -/
def Dev.bearingCheck (d : Dev) (b : Nat) : Nat :=
  if 4 < bearingSource b then 0x302
  else if bearingSource b = 4 ∧ d.phaseU ≤ bits b 31 0 then 0x301
  else 0

/-- Range in which the arithmetic on a source is done (R98): 2^60 ns, or 2^28 revolutions. -/
def Dev.sourceMod (d : Dev) (src : Nat) : Int := if src = 4 then (2 ^ 28 * d.phaseU : Nat) else 2 ^ 60

/-- A difference of two Bearings in the range of their source, as the nearer of the two ways round. (DEDUCED: log entry 167.) -/
def nearer (y m : Int) : Int := let r := y % m; if 2 * r < m then r else r - m

/-- How far Bearing `b` lies ahead of a source value. -/
def Dev.ahead (d : Dev) (src b : Nat) (x : Int) : Int := nearer (d.bearingPos b - x) (d.sourceMod src)

/-! The tick (R95) and the sources. -/

/-- Number of the present tick: 10 periods of the time clock, aligned to local time. -/
def Dev.tick (d : Dev) : Nat := d.lt / 10

/-- The time-clock edge at which the present tick captures its stamp. -/
def Dev.tickStart (d : Dev) : Nat := d.ltEpoch + d.tick * 10

/-- Whether the phase Bearing advances: SYNCED or SYNCED UNREFERENCED (R99). -/
def Dev.phaseSynced (d : Dev) : Bool := d.obj 0x8410 0x08 = 3 || d.obj 0x8410 0x08 = 4

/-- Units that the angle may run past the last tooth: 255, or up to U − 1 across the gap (R101). -/
def Dev.phaseCap (d : Dev) : Nat :=
  let m := d.obj 0x8410 0x03
  if m ≠ 0 ∧ d.plot.phase.pos + m + 1 = d.obj 0x8410 0x02 then (m + 1) * 256 - 1 else 255

/-- Position that an interpolation has reached at a time (R101). -/
def AngleRun.at_ (r : AngleRun) (t : Nat) : Nat := r.from_ + min (if r.base = 0 then 0 else (t - r.start) * 256 / r.base) r.cap

/-- The interpolation from the last tooth on. -/
def Dev.angleRun (d : Dev) : AngleRun :=
  let p := d.plot.phase
  { start := p.edge.getD d.now, base := if p.edge.isSome then p.base else 0, from_ := p.rev * d.phaseU + p.pos * 256, cap := d.phaseCap }

/-- Position of the phase input at a time that is not after now: interpolated while synced, held otherwise (R101, R102). -/
def Dev.phasePos (d : Dev) (t : Nat) : Nat :=
  let p := d.plot.phase
  if d.phaseSynced then
    match p.past with
    | some r => if t < d.angleRun.start then r.at_ t else d.angleRun.at_ t
    | none => d.angleRun.at_ t
  else p.rev * d.phaseU + p.held

/-- The angle now. -/
def Dev.phaseAngle (d : Dev) : Nat := d.phasePos d.now - d.plot.phase.rev * d.phaseU

/-- The phase Bearing (`A:8410.09`, Table 4.1). -/
def Dev.phaseBearing (d : Dev) : Nat := 4 * 2 ^ 60 + d.plot.phase.rev % 2 ^ 28 * 2 ^ 32 + d.phaseAngle

/-- Value of a source as a stamp captures it at a time not after now: whole ns of a time counter, revolutions × U + angle for phase. Legs run on the value itself, of which a Bearing shows the remainder in its range (R97). -/
def Dev.sourceAt (d : Dev) (src t : Nat) : Int :=
  let back (c : Clock) : Int := clkNs (c.val - stepOf c.rate * ((d.now - t : Nat) : Int))
  match src with
  | 0 => clkNs (d.ztAt t)
  | 1 => back d.sex.d1.clk
  | 2 => back d.sex.d2.clk
  | 3 => (((t - d.ltEpoch) * 4 / 5 : Nat) : Int)
  | _ => (d.phasePos t : Int)

/-- Value of a source now. -/
def Dev.sourceVal (d : Dev) (src : Nat) : Int := d.sourceAt src d.now

/-- Value of a source on which the present tick acts: that of its stamp (R95), but after a step in the tick the value right after the step (R108), and after a tooth in it at least the tooth's own position (R101). -/
def Dev.sourceTick (d : Dev) (src : Nat) : Int :=
  let z := tget (fun _ => (0, 0)) d.plot.steps src
  let x := d.sourceAt src d.tickStart
  if z.1 = d.tick + 1 then z.2
  else if src = 4 ∧ d.phaseSynced ∧ d.tickStart ≤ d.angleRun.start then max x (d.angleRun.from_ : Nat)
  else x

/-! Leg data. -/

/-- State of a leg beside its objects. -/
def Dev.leg (d : Dev) (n : Nat) : LegSt := tget (fun _ => {}) d.plot.legs n

/-- Replace the state of a leg. -/
def Dev.setLeg (d : Dev) (n : Nat) (l : LegSt) : Dev :=
  d.plotUpd fun x => { x with legs := tput (fun _ => {}) d.plot.legs n l }

/-- Cycle of a bank of a leg (0 A, 1 B). -/
def Dev.legCycle (d : Dev) (n b : Nat) : Nat := d.obj 0x8420 (if b = 0 then 0x06 else 0x08) 0 n

/-- Entry count of a bank. -/
def Dev.legCount (d : Dev) (n b : Nat) : Nat := d.obj 0x8420 (if b = 0 then 0x07 else 0x09) 0 n

/-- Offset of entry `i` of a bank (R113). -/
def Dev.legOff (d : Dev) (n b i : Nat) : Nat := d.obj (0x8500 + n) 0x01 0 (b * 1024 + i)

/-- Data word of entry `i` of a bank. -/
def Dev.legData (d : Dev) (n b i : Nat) : Nat := d.obj (0x8500 + n) 0x02 0 (b * 1024 + i)

/-- Source of a leg. -/
def Dev.legSource (d : Dev) (n : Nat) : Nat := d.obj 0x8420 0x02 0 n

/-- Active bank of a leg. -/
def Dev.legBank (d : Dev) (n : Nat) : Nat := d.obj 0x8420 0x0A 0 n

/-- Leg state (Table 4.5). -/
def Dev.legState (d : Dev) (n : Nat) : Nat := d.obj 0x8420 0x0E 0 n

/-- Enter a leg state; `A:8400.04` shows the legs in RUNNING. -/
def Dev.setLegState (d : Dev) (n v : Nat) : Dev :=
  (d.set 0x8420 0x0E v 0 n).set 0x8400 0x04 (setBit (d.obj 0x8400 0x04) n (v = 2))

/-- Consumer unit of a leg as a unit number, none when its path names none of this member. (DESIGN CHOICE: log entry 168.) -/
def Dev.legUnit (d : Dev) (n : Nat) : Option Nat :=
  let p := d.obj 0x8420 0x04 0 n
  if bits p 31 24 ≠ d.stackId ∨ bits p 7 0 ≠ 0 then none
  else if bits p 23 16 = 0 then (if bits p 15 8 = 0xFF then some 0 else none)
  else unitOfGI (bits p 23 16) (bits p 15 8)

/-- Whether a unit is of the kind that Table 4.3 gives for a consumer. -/
def consumerKind (c : Nat) : Option Nat → Bool
  | none => c == 0
  | some u =>
    match c with
    | 0 => true
    | 1 => scopeHas .nesk u
    | 2 => scopeHas .can u
    | 3 => scopeHas .can u
    | 4 => scopeHas .lin u
    | 5 => u == 0
    | _ => false

/-- Reserved data bits of a consumer (Table 4.3): the data word has to be below this value. -/
def consumerDataBound (c : Nat) : Nat :=
  match c with
  | 0 => 2 ^ 32 | 1 => 2 ^ 9 | 2 => 2 ^ 6 | 5 => 2 ^ 13 | _ => 1

/-- Position of `x` in cycles of length `c` counted from `o` (R98). -/
def cyclePos (x o : Int) (c : Nat) : Int := if c = 0 then 0 else (x - o) % c

/-- First cycle boundary o + k × C at or after `x` (Table 4.5). -/
def firstBoundary (x o : Int) (c : Nat) : Int := if c = 0 then x else x + (o - x) % c

/-- First boundary of a leg's cycles at or after source value `x`: reckoned from the base in the range of the source (R98), or from its origin after a swap at a step. -/
def Dev.legBoundary (d : Dev) (n : Nat) (x : Int) : Int :=
  let o := match (d.leg n).origin with | some o => o | none => x + d.ahead (d.legSource n) (d.obj 0x8420 0x05 0 n) x
  firstBoundary x o (d.legCycle n (d.legBank n))

/-- Number of entry positions at or before source value `x`, counted from `o`. -/
def passedCount (offs : List Nat) (x o : Int) (c : Nat) : Int :=
  if c = 0 then 0 else (x - o) / c * offs.length + (offs.filter (fun (k : Nat) => decide ((k : Int) ≤ (x - o) % c))).length

/-- Offsets of a bank in entry order. -/
def Dev.legOffs (d : Dev) (n b : Nat) : List Nat := (List.range (d.legCount n b)).map (d.legOff n b)

/-- Index of the first entry of a bank whose offset is above `p`. -/
def firstAfter (offs : List Nat) (p : Int) : Nat := (offs.takeWhile (fun (o : Nat) => decide ((o : Int) ≤ p))).length

/-! Delivery (R95, R112, Table 4.3). -/

/-- Hand one event of a leg to its consumer. -/
def Dev.consume (d : Dev) (c u data : Nat) : Dev :=
  match c with
  | 1 => d.gateEvent u (data % 256) (bit data 8) d.tickStart
  | 2 => d.windowEvent u (data % 32) d.tickStart (bit data 5)
  | 3 => d.canReference u
  | 4 => d.linSlot u 32
  | 5 => d.rosePeriodic (data % 8192)
  | _ => d

/-- Fire entry `i` of the active bank: the event reaches its consumer, or is discarded and counted while the consumer's domain is off (R112). -/
def Dev.legEvent (d : Dev) (n i : Nat) : Dev :=
  let c := d.obj 0x8420 0x03 0 n
  match d.legUnit n with
  | none => d.inc 0x8420 0x0F 0 n
  | some u =>
    if d.unitPowered u then (d.consume c u (d.legData n (d.legBank n) i)).inc 0x8420 0x0F 0 n
    else d.inc 0x8420 0x11 0 n

/-- Entries of a bank from the position `p` backwards round the cycle: those at or before it, latest first, then the others, latest first. -/
def Dev.entriesBack (d : Dev) (n b : Nat) (p : Int) : List Nat :=
  let idx := List.range (d.legCount n b)
  let before := idx.filter (fun i => decide ((d.legOff n b i : Int) ≤ p))
  let after := idx.filter (fun i => decide (p < (d.legOff n b i : Int)))
  before.reverse ++ after.reverse

/-- A leg drives a state consumer (Table 4.3). -/
def Dev.stateLeg (d : Dev) (n : Nat) : Bool := d.obj 0x8420 0x03 0 n == 1 || d.obj 0x8420 0x03 0 n == 2

/-- The state that a state consumer takes at position `p` of the cycle, as one event: every gate, or every window that the bank names (R108). It is the leg's one event of the tick (R96), delivered also when an entry has fired in that tick before it; while the consumer's domain is off it is discarded (R112). (DESIGN CHOICE: log entry 206.) -/
def Dev.legTakeState (d : Dev) (n : Nat) (p : Int) : Dev :=
  let b := d.legBank n
  match d.legUnit n with
  | none => d
  | some u =>
    if ¬ d.stateLeg n then d
    else
      let d := d.setLeg n { d.leg n with lastTick := some d.tick }
      if ¬ d.unitPowered u then d.inc 0x8420 0x11 0 n
      else
        let back := d.entriesBack n b p
        if d.obj 0x8420 0x03 0 n = 1 then
          match back with
          | i :: _ => d.consume 1 u (d.legData n b i)
          | [] => d
        else
          let bufs := (List.range 32).filterMap (fun k => (back.find? (fun i => d.legData n b i % 32 = k)).map (fun i => (k, bit (d.legData n b i) 5)))
          bufs.foldl (fun d x => d.windowEvent u x.1 d.tickStart x.2) d

/-! Steps of a source (R108). -/

/-- A leg stands at source value `x`, its cycles counted from `o`: its cycle and its next entry. (DEDUCED: log entry 167.) -/
def Dev.legPlace (d : Dev) (n : Nat) (o x : Int) (adv : Nat) : Dev :=
  let b := d.legBank n
  let p := cyclePos (x + adv) o (d.legCycle n b)
  d.setLeg n { d.leg n with cyc := x + adv - p, next := firstAfter (d.legOffs n b) p, adv := adv }

/-- The banks exchange roles (R107). -/
def Dev.exchangeBanks (d : Dev) (n : Nat) : Dev :=
  ((d.set 0x8420 0x0A (1 - d.legBank n) 0 n).inc 0x8420 0x12 0 n).setLeg n { d.leg n with armed := none }

/-- Where an armed swap acts at a step to source value `x`: at its change Bearing, when that lies at or before `x`. -/
def Dev.swapAtStep (d : Dev) (n : Nat) (x : Int) : Option Int :=
  match (d.leg n).armed with
  | some (ch, _) => let a := d.ahead (d.legSource n) ch x; if a ≤ 0 then some (x + a) else none
  | none => none

/-- One leg rephases as its source steps from `x0` to `x1` in the tick of now. Entries that were due and had not fired are passed over too; those passed over after the change Bearing of a swap that acts are of the bank that becomes active. A leg in WAITING counts no rephase. (DEDUCED: log entry 58; DESIGN CHOICE: log entry 208.) -/
def Dev.rephaseLeg (d : Dev) (x0 x1 : Int) (n : Nat) : Dev :=
  let l := d.leg n
  let swapAt := d.swapAtStep n x1
  match d.legState n with
  | 1 =>
    let d := match swapAt with
      | some ch => (d.exchangeBanks n).setLeg n { (d.exchangeBanks n).leg n with origin := some ch }
      | none => d
    d.setLeg n { d.leg n with startAt := d.legBoundary n x1, armed := (d.leg n).armed.map (fun a => (a.1, x1)) }
  | 2 =>
    let a := d.legBank n
    let upTo (b : Nat) (start y : Int) : Int := passedCount (d.legOffs n b) (y + l.adv) start (d.legCycle n b)
    let left (y : Int) : Nat := (upTo a l.cyc y - l.next).toNat
    let passed : Nat := match swapAt with
      | some ch =>
        if x1 ≤ x0 then left x1
        else if ch ≤ x0 then left x0 + (upTo (1 - a) ch x1 - upTo (1 - a) ch x0).toNat
        else left (ch - 1 - l.adv) + (upTo (1 - a) ch x1 - upTo (1 - a) ch (ch - 1 - l.adv)).toNat
      | none => left x1
    let d := d.inc 0x8420 0x11 0 n passed
    let d := match swapAt with
      | some ch => (d.exchangeBanks n).legPlace n ch x1 l.adv
      | none => d.legPlace n l.cyc x1 l.adv
    let d := (d.inc 0x8420 0x13 0 n).setLeg n { d.leg n with since := d.tick, advs := [], armed := (d.leg n).armed.map (fun a => (a.1, x1)) }
    let d := if l.advs.isEmpty then d else d.setLeg n { d.leg n with advs := [((d.leg n).cyc + d.legCycle n (d.legBank n), d.obj 0x8420 0x41 0 n)] }
    let l' := d.leg n
    d.legTakeState n (x1 + l'.adv - l'.cyc)
  | _ => d

/-- Every leg of source `src` sees the step of its source from `x0` to `x1`. -/
def Dev.sourceStep (d : Dev) (src : Nat) (x0 x1 : Int) : Dev :=
  let d := d.plotUpd fun x => { x with steps := tput (fun _ => (0, 0)) x.steps src (d.tick + 1, x1) }
  let legs := (List.range 16).filter (fun n => d.legSource n = src ∧ d.legState n ≠ 0)
  if legs = [] then d else legs.foldl (fun d n => d.rephaseLeg x0 x1 n) (d.inc 0x8400 0x05)

/-! Firing (R95, R96, R107, R111). -/

/-- Period of a revolution of the virtual angle (R109). -/
def Dev.fallbackPeriod (d : Dev) : Nat := if d.obj 0x8410 0x07 = 0 then d.obj 0x8410 0x02 * d.plot.phase.base else d.obj 0x8410 0x07 * perUs

/-- The virtual angle at a time, in 2^-32 units: U units in each period (R109). -/
def Dev.virtAt (d : Dev) (v : Nat × Int) (t : Nat) : Int :=
  if d.fallbackPeriod = 0 then v.2 else v.2 + (((t - v.1) * d.phaseU * 2 ^ 32 / d.fallbackPeriod : Nat) : Int)

/-- Source value of a leg at a time not after now: that of its virtual angle in FALLBACK. -/
def Dev.legAt (d : Dev) (n t : Nat) : Int :=
  match d.legState n, (d.leg n).virt with
  | 4, some v => d.virtAt v t / 2 ^ 32
  | _, _ => d.sourceAt (d.legSource n) t

/-- Value on which the present tick acts for a leg. -/
def Dev.legTick (d : Dev) (n : Nat) : Int :=
  match d.legState n, (d.leg n).virt with
  | 4, some v => d.virtAt v d.tickStart / 2 ^ 32
  | _, _ => d.sourceTick (d.legSource n)

/-- Virtual angles go on from here at the period that holds from now on. -/
def Dev.virtNow (d : Dev) : Dev :=
  (List.range 16).foldl (fun d n =>
    match (d.leg n).virt with
    | some v => d.setLeg n { d.leg n with virt := some (d.now, d.virtAt v d.now) }
    | none => d) d

/-- Advance of a cycle that starts at `s` (R111). -/
def LegSt.advOf (l : LegSt) (s : Int) : Nat := ((l.advs.filter (fun a => a.1 ≤ s)).getLast?.map (·.2)).getD l.adv

/-- Whether the end of the present cycle has been reached with every entry fired. -/
def Dev.legCycleEnded (d : Dev) (n : Nat) : Bool :=
  let l := d.leg n
  let b := d.legBank n
  let s := l.cyc + d.legCycle n b
  d.legCount n b ≤ l.next && decide (s ≤ d.legTick n + l.advOf s)

/-- An armed swap acts at cycle boundary `s` (R107): at or after the change Bearing, and not before the request. -/
def Dev.swapActs (d : Dev) (n : Nat) (s : Int) : Bool :=
  match (d.leg n).armed with
  | some (ch, x) => decide (d.ahead (d.legSource n) ch s ≤ 0) && decide (x ≤ s)
  | none => false

/-- Whether an armed swap acts at the end of the present cycle. One requested once the advance has brought the next cycle forward acts a cycle later. (DEDUCED: log entry 57; DESIGN CHOICE: log entry 207.) -/
def Dev.swapDue (d : Dev) (n : Nat) : Bool := d.swapActs n ((d.leg n).cyc + d.legCycle n (d.legBank n))

/-- The next cycle begins, with the other bank when a swap acts there. -/
def Dev.legWrap (d : Dev) (n : Nat) : Dev :=
  let l := d.leg n
  let s := l.cyc + d.legCycle n (d.legBank n)
  let d := if d.swapDue n then d.exchangeBanks n else d
  d.setLeg n { d.leg n with cyc := s, next := 0, adv := l.advOf s, advs := l.advs.filter (fun a => s < a.1) }

/-- Fire the next entry of a leg when the stamp of the tick has reached it, at most one in a tick; an entry that the stamp of the tick before had reached counts as late (R96). (DESIGN CHOICE: log entry 59.) -/
def Dev.legFire (d : Dev) (n : Nat) : Dev :=
  let d := if d.legCycleEnded n then d.legWrap n else d
  let l := d.leg n
  let b := d.legBank n
  let pos := l.cyc + d.legOff n b l.next
  if l.next < d.legCount n b ∧ pos ≤ d.legTick n + l.adv ∧ l.lastTick ≠ some d.tick then
    let late : Bool := decide (l.since + 1 < d.tick) && decide (pos ≤ d.legAt n (d.tickStart - 10) + l.adv)
    let d := d.setLeg n { l with next := l.next + 1, lastTick := some d.tick }
    let d := if late then d.inc 0x8420 0x10 0 n else d
    d.legEvent n l.next
  else d

/-- PLOTTER_ENTRY_FIRE (R95). A leg whose next entry is not due fires nothing. -/
def execPlotterEntryFire (t leg : Nat) (s : State) : Host.Outcome State Fault Refusal :=
  s.cmd t (leg < 16) fun d => if d.legState leg = 2 ∨ d.legState leg = 4 then d.legFire leg else d

/-- LEG_START (R106): the first cycle boundary at or after the enable tick, taken the advance early (R111); an armed swap acts there when the boundary is at or after its change Bearing (R107). (DEDUCED: log entry 57; DESIGN CHOICE: log entry 169.) -/
def execLegStart (t leg : Nat) (s : State) : Host.Outcome State Fault Refusal :=
  s.cmd t (leg < 16) fun d =>
    let l := d.leg leg
    let adv := if d.legSource leg = 4 then 0 else d.obj 0x8420 0x41 0 leg
    if d.legState leg = 1 ∧ l.startAt ≤ d.sourceTick (d.legSource leg) + adv ∧ (d.legSource leg = 4 → d.phaseSynced) then
      let d := if d.swapActs leg l.startAt then d.exchangeBanks leg else d
      (d.setLegState leg 2).setLeg leg { d.leg leg with cyc := l.startAt, next := 0, adv := adv, advs := [] }
    else d

/-- SWAP_TAKES_EFFECT (R107): at the first cycle boundary at or after the change Bearing the banks exchange roles. -/
def execSwapTakesEffect (t leg : Nat) (s : State) : Host.Outcome State Fault Refusal :=
  s.cmd t (leg < 16) fun d =>
    if (d.legState leg = 2 ∨ d.legState leg = 4) ∧ d.swapDue leg ∧ d.legCycleEnded leg then d.legWrap leg else d

/-! The phase input (R99 to R102, R109, R110). -/

/-- A phase leg leaves RUNNING as the phase input leaves the synced states (R109). -/
def Dev.phaseLost (d : Dev) (x : Int) : Dev :=
  (List.range 16).foldl (fun d n =>
    if d.legSource n = 4 ∧ d.legState n = 2 then
      let fallback : Bool := d.obj 0x8420 0x0D 0 n = 1
      let d := d.setLeg n { d.leg n with last := x, virt := if fallback then some (d.now, x * 2 ^ 32) else none }
      d.setLegState n (if fallback then 4 else 3)
    else d) d

/-- A HELD or FALLBACK leg returns to RUNNING at the real position, its cycles still counted from the last boundary (R107, R110). An entry at the real position itself counts as skipped. (DESIGN CHOICE: log entry 209.) -/
def Dev.legReturn (d : Dev) (n : Nat) : Dev :=
  let l := d.leg n
  let b := d.legBank n
  let c := d.legCycle n b
  let real := d.sourceVal 4
  let last := if d.legState n = 4 then d.legAt n d.now else l.last
  let rp := cyclePos real l.cyc c
  let lp := cyclePos last l.cyc c
  let gap := if c = 0 then 0 else (real - last) % c
  let offs := d.legOffs n b
  let d := d.setLegState n 2
  let l := { l with cyc := real - rp, virt := none, since := d.tick }
  if 2 * gap ≤ c then
    let skipped := offs.filter (fun (o : Nat) => decide (0 < ((o : Int) - lp) % c ∧ ((o : Int) - lp) % c ≤ gap))
    let d := (d.inc 0x8420 0x11 0 n skipped.length).setLeg n { l with next := firstAfter offs rp }
    (if d.stateLeg n then d.inc 0x8420 0x13 0 n else d).legTakeState n rp
  else d.setLeg n { l with next := if rp ≤ lp then firstAfter offs lp else offs.length }

/-- What the legs of the phase input do as it enters a synced state: those that lost it return, and those that wait do so for the first boundary from here (R106, R110). (DESIGN CHOICE: log entry 169.) -/
def Dev.phaseReturn (d : Dev) : Dev :=
  (List.range 16).foldl (fun d n =>
    if d.legSource n ≠ 4 then d
    else if d.legState n = 3 ∨ d.legState n = 4 then d.legReturn n
    else if d.legState n = 1 then d.setLeg n { d.leg n with startAt := d.legBoundary n (d.sourceVal 4) }
    else d) d

/-- Enter a phase input state with the present angle kept, and tell the legs of a loss or a return. (DESIGN CHOICE: log entry 172.) -/
def Dev.setPhaseState (d : Dev) (v : Nat) (f : PhaseSt → PhaseSt) : Dev :=
  let was := d.phaseSynced
  let x := d.sourceVal 4
  let angle := d.phaseAngle
  let run := d.angleRun
  let d := d.virtNow
  let d := d.plotUpd fun x => { x with phase := f { d.plot.phase with held := angle, past := if was then some run else none } }
  let d := d.set 0x8410 0x08 v
  if was ∧ ¬ d.phaseSynced then d.phaseLost x
  else if ¬ was ∧ d.phaseSynced then d.phaseReturn
  else d

/-- Speed of `A:8410.0B` for a tooth interval in ns. -/
def Dev.phaseSpeed (d : Dev) (ns : Nat) : Nat :=
  if d.obj 0x8410 0x02 * ns = 0 then 0 else 60000000000 / (d.obj 0x8410 0x02 * ns) % 2 ^ 32

/-- A tooth edge accepted in the present state, with the interval to the previous edge (Table 4.2, R100). Every tooth that ends a gap counts a revolution; on a wheel without a gap every P teeth do. (DESIGN CHOICE: log entry 170.) -/
def Dev.tooth (d : Dev) : Dev :=
  let p := d.plot.phase
  let pp := d.obj 0x8410 0x02
  let m := d.obj 0x8410 0x03
  let st := d.obj 0x8410 0x08
  let now := d.now
  let iv : Option Nat := p.edge.map (fun e => now - e)
  let gap : Bool := m ≠ 0 && (match iv, p.interval with
    | some i, some j => decide (j * d.obj 0x8410 0x05 < i * 8)
    | _, _ => false)
  let beyond : Bool := match iv with | some i => decide (i < 20 * perUs) | none => false
  let wrong : Bool := st == 3 && (gap != (p.pos + m + 1 == pp))
  let note : PhaseSt → PhaseSt := fun q => { q with edge := some now, interval := iv, base := iv.getD q.base, rev := if gap then q.rev + 1 else q.rev }
  let d := d.inc 0x8410 0x0C
  let d := match iv with
    | some i => (d.set 0x8410 0x0A (i * 4 / 5 % 2 ^ 32)).set 0x8410 0x0B (d.phaseSpeed (i * 4 / 5))
    | none => d
  let d := if gap then d.inc 0x8410 0x0D else d
  let d := if beyond ∧ 2 ≤ st then d.inc 0x8410 0x10 else d
  let d := if wrong then d.inc 0x8410 0x0E else d
  match st with
  | 1 => d.setPhaseState (if m = 0 then 4 else 2) (fun q => { note q with interval := none, pos := 0 })
  | 2 =>
    if beyond then d.setPhaseState 2 note
    else if m = 0 then d.setPhaseState 4 (fun q => { note q with pos := 0 })
    else if gap then d.setPhaseState 3 (fun q => { note q with pos := 0 })
    else d.setPhaseState 2 note
  | 3 =>
    if beyond ∨ wrong then d.setPhaseState 2 note
    else d.setPhaseState 3 (fun q => { note q with pos := if gap then 0 else q.pos + 1 })
  | 4 =>
    if beyond then d.setPhaseState 2 note
    else d.setPhaseState 4 (fun q => if q.pos + 1 = pp then { note q with pos := 0, rev := q.rev + 1 } else { note q with pos := q.pos + 1 })
  | _ => d

/-- A tooth edge that the input accepts: of the edge of `A:8410.04`, and longer than the glitch filter, `lasted` in ns (R100). -/
def Dev.toothTaken (d : Dev) (rising : Bool) (lasted : Nat) : Bool :=
  d.obj 0x8410 0x08 ≠ 0 && (decide (d.obj 0x8410 0x04 = 0) == rising) && decide (d.obj 0x8410 0x41 < lasted)

/-- TOOTH_EDGE (R100). (DESIGN CHOICE: log entry 60.) -/
def execToothEdge (t : Nat) (rising : Bool) (lasted : Nat) (s : State) : Host.Outcome State Fault Refusal :=
  s.cmd t true fun d => if d.toothTaken rising lasted then d.tooth else d

/-- PHASE_STOP_TIMEOUT (R102): no tooth edge for the stop timeout; an edge of the same tick is taken instead (R11). -/
def execPhaseStopTimeout (t : Nat) (s : State) : Host.Outcome State Fault Refusal :=
  s.timer t true (fun d c => match c with | .toothEdge _ rising lasted => d.toothTaken rising lasted | _ => false) (n := 10) fun d =>
    match d.plot.phase.edge with
    | some e =>
      if 2 ≤ d.obj 0x8410 0x08 ∧ e + d.obj 0x8410 0x06 * perMs ≤ d.now then
        ((d.inc 0x8410 0x0F).setPhaseState 1 (fun q => { q with edge := none, interval := none })).set 0x8410 0x0B 0
      else d
    | none => d

/-- The state consumers of a domain that has been powered again take their state (R112); `was` is the device before. -/
def Dev.plotterRepower (d was : Dev) : Dev :=
  (List.range 16).foldl (fun d n =>
    let l := d.leg n
    match d.legUnit n with
    | some u =>
      if d.stateLeg n ∧ 2 ≤ d.legState n ∧ ¬ was.unitPowered u ∧ d.unitPowered u then
        let x := if d.legState n = 3 then l.last else d.legAt n d.now
        (d.inc 0x8420 0x13 0 n).legTakeState n (cyclePos (x + l.adv) l.cyc (d.legCycle n (d.legBank n)))
      else d
    | none => d) d

/-! Almanac writes of 8400–8FFF (R103 to R107, R111). -/

/-- Whether a bank of a leg is stopped (R106). -/
def Dev.bankStopped (d : Dev) (n b : Nat) : Bool :=
  !d.flag 0x8420 0x01 0 n || (d.legBank n ≠ b && (d.leg n).armed.isNone)

/-- PDU definitions that the entries of a bank name. -/
def Dev.bankPdus (d : Dev) (n b : Nat) : List Nat := (List.range (d.legCount n b)).map (fun i => d.legData n b i % 8192)

/-- PDU definitions of both banks of a Rose leg. -/
def Dev.legPdus (d : Dev) (n : Nat) : List Nat := d.bankPdus n 0 ++ d.bankPdus n 1

/-- Whether enabling leg `n`, or giving it the PDUs `pdus`, conflicts with another enabled leg (R104). -/
def Dev.legConflict (d : Dev) (n : Nat) (pdus : List Nat) : Bool :=
  let c := d.obj 0x8420 0x03 0 n
  (List.range 16).any (fun m =>
    m != n && d.flag 0x8420 0x01 0 m && d.obj 0x8420 0x03 0 m == c && c != 0 &&
      (if c = 5 then pdus.any (fun x => (d.legPdus m).contains x) else d.legUnit m == d.legUnit n))

/-- Rows 2 to 7 of Table 4.4, on a bank. (DESIGN CHOICE: log entry 171.) -/
def Dev.bankValueCheck (d : Dev) (n b : Nat) : Nat :=
  let cnt := d.legCount n b
  let c := d.legCycle n b
  let src := d.legSource n
  let con := d.obj 0x8420 0x03 0 n
  let offs := d.legOffs n b
  let pairs := offs.zip offs.tail
  if cnt = 0 ∨ 1024 < cnt then 0x301
  else if src = 4 ∧ ¬ (c = d.phaseU ∨ c = 2 * d.phaseU ∨ c = 3 * d.phaseU ∨ c = 4 * d.phaseU) then 0x301
  else if src ≠ 4 ∧ (c < 1000 ∨ 4000000000 < c ∨ c % 8 ≠ 0) then 0x301
  else if offs.any (fun o => c ≤ o || (src != 4 && o % 8 != 0)) then 0x301
  else if pairs.any (fun x => x.2 < x.1) then 0x301
  else if con ≠ 2 ∧ con ≠ 5 ∧ pairs.any (fun x => x.1 = x.2) then 0x302
  else if (List.range cnt).any (fun i => consumerDataBound con ≤ d.legData n b i) then 0x303
  else 0

/-- Row 1 of Table 4.4: the base is of the leg's source and the unit of the consumer's kind. (DESIGN CHOICE: log entry 168.) -/
def Dev.legFitCheck (d : Dev) (n : Nat) : Nat :=
  if bearingSource (d.obj 0x8420 0x05 0 n) ≠ d.legSource n ∨ ¬ consumerKind (d.obj 0x8420 0x03 0 n) (d.legUnit n) then 0x302 else 0

/-- Readiness row of Table 4.4 (R103). -/
def Dev.legReadyCheck (d : Dev) (n b : Nat) : Nat :=
  let con := d.obj 0x8420 0x03 0 n
  let linBad : Bool := match d.legUnit n with | some u => con = 4 && d.obj 0x6810 0x02 u ≠ 0 | none => false
  let pduBad : Bool := con = 5 && (d.bankPdus n b).any (fun p =>
    d.obj 0x7100 0x03 0 p ≠ 1 || (d.obj 0x7810 0x01 0 p ≠ 1 && d.obj 0x7810 0x01 0 p ≠ 3))
  if linBad ∨ pduBad ∨ (d.legSource n = 4 ∧ ¬ d.flag 0x8410 0x01) then 0x304 else 0

/-- The first failing code of a list of checks, 0 when all pass. -/
def firstCode (l : List Nat) : Nat := (l.find? (· ≠ 0)).getD 0

/-- Checks 10 of 8400–8FFF beyond type and range. The value checks of a swap request are rows 1 to 7 of Table 4.4 (R107). Missing teeth M are checked against P at a write of M, not at one of P. (DESIGN CHOICE: log entries 171, 210.) -/
def Dev.plotValue (d : Dev) (idx sub r v : Nat) : Nat :=
  if idx = 0x8410 then (if sub = 0x03 ∧ d.obj 0x8410 0x02 ≤ 4 * v then 0x301 else 0)
  else if idx = 0x8420 then
    match sub with
    | 0x04 =>
      let d' := d.set 0x8420 0x04 v 0 r
      if consumerKind (d.obj 0x8420 0x03 0 r) (d'.legUnit r) then 0 else 0x302
    | 0x05 => if d.bearingCheck v ≠ 0 then d.bearingCheck v else if bearingSource v ≠ d.legSource r then 0x302 else 0
    | 0x0C => d.bearingCheck v
    | 0x41 => if v ≠ 0 ∧ d.legSource r = 4 then 0x302 else 0
    | 0x01 => if v = 1 ∧ ¬ d.flag 0x8420 0x01 0 r then firstCode [d.legFitCheck r, d.bankValueCheck r (d.legBank r)] else 0
    | 0x0B =>
      if v = 0 then 0
      else if d.flag 0x8420 0x01 0 r then
        firstCode [d.legFitCheck r, d.bankValueCheck r (1 - d.legBank r), if bearingSource (d.obj 0x8420 0x0C 0 r) ≠ d.legSource r then 0x302 else 0]
      else firstCode [d.legFitCheck r, d.bankValueCheck r (1 - d.legBank r)]
    | _ => 0
  else if 0x8500 ≤ idx ∧ sub = 0x02 then (if consumerDataBound (d.obj 0x8420 0x03 0 (idx - 0x8500)) ≤ v then 0x303 else 0)
  else 0

/-- Whether the owning function of an RWS object of 8400–8FFF is stopped (R106). -/
def Dev.plotStopped (d : Dev) (idx sub r : Nat) : Bool :=
  if idx = 0x8410 then !d.flag 0x8410 0x01
  else if idx = 0x8420 then
    (if sub = 0x06 ∨ sub = 0x07 then d.bankStopped r 0 else if sub = 0x08 ∨ sub = 0x09 then d.bankStopped r 1 else !d.flag 0x8420 0x01 0 r)
  else d.bankStopped (idx - 0x8500) (r / 1024)

/-- Checks 12 and 13 of 8400–8FFF. -/
def Dev.plotDeps (d : Dev) (idx sub r v : Nat) : Nat :=
  let conflictIf (n : Nat) (pdus : List Nat) : Nat := if d.legConflict n pdus then 0x305 else 0
  if idx = 0x8420 ∧ sub = 0x01 then
    (if v = 1 ∧ ¬ d.flag 0x8420 0x01 0 r then firstCode [d.legReadyCheck r (d.legBank r), conflictIf r (d.legPdus r)] else 0)
  else if idx = 0x8420 ∧ sub = 0x0B then
    (if v = 1 ∧ d.flag 0x8420 0x01 0 r then
      firstCode [if (d.leg r).armed.isSome then 0x307 else 0, d.legReadyCheck r (1 - d.legBank r), conflictIf r (d.legPdus r)]
     else 0)
  else if idx = 0x8420 ∧ (sub = 0x07 ∨ sub = 0x09) then
    (if d.flag 0x8420 0x01 0 r ∧ d.obj 0x8420 0x03 0 r = 5 then
      conflictIf r ((d.set 0x8420 sub v 0 r).legPdus r) else 0)
  else if 0x8500 ≤ idx ∧ sub = 0x02 then
    let n := idx - 0x8500
    (if d.flag 0x8420 0x01 0 n ∧ d.obj 0x8420 0x03 0 n = 5 ∧ r % 1024 < d.legCount n (r / 1024) then conflictIf n [v % 8192] else 0)
  else 0

/-- The consumer of a disabled leg returns to its unscheduled behaviour: every gate open, every window open, no reference message (R245). -/
def Dev.unschedule (d : Dev) (n : Nat) : Dev :=
  match d.legUnit n, d.obj 0x8420 0x03 0 n with
  | some u, 1 => d.gatesOpen u
  | some u, 2 => (List.range 32).foldl (fun d k => d.canWindow u k true) (d.plotUpd fun x => { x with windows := x.windows.filter (fun w => w.1 != u) })
  | some u, 3 => d.setChan u { d.chan u with driven := false }
  | _, _ => d

/-- A write of the advance of a leg in RUNNING holds from the next cycle boundary that its entries have not been brought forward to (R111). -/
def Dev.advanceWritten (d : Dev) (n v : Nat) : Dev :=
  let l := d.leg n
  if d.legState n = 2 then
    let c := d.legCycle n (d.legBank n)
    let s := firstBoundary (d.sourceVal (d.legSource n) + l.adv + 1) l.cyc c
    d.setLeg n { l with advs := l.advs.filter (fun a => a.1 < s) ++ [(s, v)] }
  else d

/-- What an accepted write of 8400–8FFF does. STOPPED that a write of the phase enable enters is no stop that `A:8410.0F` counts. (DESIGN CHOICE: log entry 172.) -/
def Dev.plotApply (d : Dev) (idx sub r v : Nat) : Dev :=
  if idx = 0x8410 ∧ sub = 0x01 then
    let d := d.set 0x8410 0x01 v
    (if v = 1 then (if d.obj 0x8410 0x08 = 0 then d.set 0x8410 0x08 1 else d)
     else (d.setPhaseState 0 (fun q => { q with edge := none, interval := none })).set 0x8410 0x0B 0)
  else if idx = 0x8410 ∧ sub = 0x07 then d.virtNow.set idx sub v 0 r
  else if idx = 0x8420 ∧ sub = 0x01 then
    (if v = 1 then
      (if d.flag 0x8420 0x01 0 r then d
       else
        let d := ((d.set 0x8420 0x01 1 0 r).setLegState r 1).setLeg r {}
        d.setLeg r { startAt := d.legBoundary r (d.sourceTick (d.legSource r)) })
     else if d.flag 0x8420 0x01 0 r then (((d.set 0x8420 0x01 0 0 r).setLegState r 0).setLeg r {}).unschedule r
     else d)
  else if idx = 0x8420 ∧ sub = 0x0B then
    (if v = 0 then d
     else if d.flag 0x8420 0x01 0 r then d.setLeg r { d.leg r with armed := some (d.obj 0x8420 0x0C 0 r, d.sourceTick (d.legSource r)) }
     else d.exchangeBanks r)
  else if idx = 0x8420 ∧ sub = 0x41 then (d.advanceWritten r v).set idx sub v 0 r
  else d.set idx sub v 0 r

end Sys2Proof.Machine
end

