-- ==== Sys2Proof/Machine/RoseCont.lean ====
section
/-! DEFINITION. Rose containers, IEEE 1722 tunnels and host containers: layouts, staging, sending and receiving (R290 to R299). -/
namespace Sys2Proof.Machine

/-- Field of a container (`A:7400`). -/
def Dev.cont (d : Dev) (sub c : Nat) : Nat := d.obj 0x7400 sub 0 c

/-- Bytes with padding to a whole number of quadlets. -/
def pad4 (b : Bytes) : Bytes := b ++ List.replicate ((4 - b.length % 4) % 4) 0

/-- The format is an IEEE 1722 format (R297). -/
def isTunnel (fmt : Nat) : Bool := fmt == 2 || fmt == 3

/-- A TIME96 as a time in 2^-16 ns. -/
def of96 (v : Nat) : Nat := (v / 2 ^ 48) * (1000000000 * 65536) + v % 2 ^ 48

/-- Zone time in ns at a time in 2^-16 ns, modulo 2^64. -/
def ns64 (fix : Nat) : Nat := fix / 65536 % 2 ^ 64

/-! Layouts (Tables 11.6, 11.7, R292, R297). -/

/-- One container entry (Table 11.7). -/
def entryBytes (withFix : Bool) (e : ContEntry) : Bytes :=
  pad4 (beBytes 2 e.pduId ++ [BitVec.ofNat 8 (b2n e.busIdent.isSome + 2 * b2n e.truncated), BitVec.ofNat 8 e.source] ++
    beBytes 4 (e.busIdent.getD 0) ++ beBytes 2 e.frame.data.length ++ [0, 0] ++ (if withFix then beBytes 12 (time96 e.fix) else []) ++ e.frame.data)

/-- One ACF message: type 1 ACF_CAN, 2 ACF_CAN_BRIEF, 3 ACF_LIN (R297). (DESIGN CHOICE: log entry 95.) -/
def acfBytes (type : Nat) (e : ContEntry) : Bytes :=
  let f := e.frame
  let fmt := bits f.ident 31 30
  let stamp := if type = 2 then [] else beBytes 8 (ns64 e.fix)
  let flags := (4 - f.data.length % 4) % 4 * 64 + b2n (type != 2) * 32
  let rest : Bytes :=
    if type = 3 then [BitVec.ofNat 8 (flags + e.busId % 32), BitVec.ofNat 8 f.ident] ++ stamp ++ f.data
    else [BitVec.ofNat 8 (flags + b2n (fmt == 3) * 16 + b2n (bit f.ident 29) * 8 + b2n f.brs * 4 + b2n (fmt == 1) * 2 + b2n f.esi), BitVec.ofNat 8 (e.busId % 32)] ++
      stamp ++ beBytes 4 (f.ident % 2 ^ 29) ++ f.data
  pad4 (beBytes 2 (type * 512 + cdiv (2 + rest.length) 4) ++ rest)

/-- Type of the ACF message that an entry becomes in a container. -/
def Dev.acfType (d : Dev) (c : Nat) (e : ContEntry) : Nat := if e.kind = 4 then 3 else if d.cont 0x12 c = 0 then 1 else 2

/-- Bytes of an entry in a container. -/
def Dev.entryOf (d : Dev) (c : Nat) (e : ContEntry) : Bytes :=
  if isTunnel (d.cont 0x03 c) then acfBytes (d.acfType c e) e else entryBytes (d.flag 0x7400 0x10 0 c) e

/-- Bytes around the entries of a container's frame, from the destination address through the FCS; a host container has its own header alone. (DESIGN CHOICE: log entry 91.) -/
def Dev.contOverhead (d : Dev) (c : Nat) : Nat :=
  let tag := if d.cont 0x07 c = 0 then 0 else 4
  match d.cont 0x03 c with
  | 0 => 14 + tag + 28 + 16 + 4
  | 1 => 14 + tag + 48 + 16 + 4
  | 2 => 14 + tag + 12 + 4
  | 3 => 14 + tag + 24 + 4
  | _ => 16

/-- Entries fit one frame of a container: its maximum frame length and, for NTSCF, 2,047 bytes of messages (R293, R297). (DESIGN CHOICE: log entry 91.) -/
def Dev.contFits (d : Dev) (c : Nat) (l : List ContEntry) : Bool :=
  let n := (l.map (fun e => (d.entryOf c e).length)).sum
  decide (d.contOverhead c + n ≤ d.cont 0x0C c) && (d.cont 0x03 c != 2 || decide (n ≤ 2047))

/-- One's complement sum of 16-bit words, folded. -/
def sum16 : Bytes → Nat
  | a :: b :: l => a.toNat * 256 + b.toNat + sum16 l
  | [a] => a.toNat * 256
  | [] => 0

/-- Internet checksum of bytes. -/
def inetSum (b : Bytes) : Nat :=
  let fold (n : Nat) : Nat := n / 65536 + n % 65536
  65535 - fold (fold (fold (sum16 b)))

/-- A UDP datagram with its pseudo-header's addresses; `sum` says whether its checksum is computed. -/
def udpBytes (src dst : Bytes) (sport dport : Nat) (body : Bytes) (sum : Bool) : Bytes :=
  let n := 8 + body.length
  let head := beBytes 2 sport ++ beBytes 2 dport ++ beBytes 2 n
  let c := inetSum (src ++ dst ++ beBytes 4 17 ++ beBytes 4 n ++ head ++ [0, 0] ++ body)
  head ++ beBytes 2 (if ¬ sum then 0 else if c = 0 then 65535 else c) ++ body

/-- An IPv4 datagram without options (R292). (PRESUMED: log entry 89.) -/
def ipv4Bytes (dscp ident ttl : Nat) (src dst payload : Bytes) : Bytes :=
  let a := [0x45, BitVec.ofNat 8 (dscp * 4)] ++ beBytes 2 (20 + payload.length) ++ beBytes 2 ident ++ [0x40, 0] ++ [BitVec.ofNat 8 ttl, 17]
  let c := inetSum (a ++ [0, 0] ++ src ++ dst)
  a ++ beBytes 2 c ++ src ++ dst ++ payload

/-- An IPv6 datagram (R292). (PRESUMED: log entry 89.) -/
def ipv6Bytes (dscp hops : Nat) (src dst payload : Bytes) : Bytes :=
  beBytes 4 (6 * 2 ^ 28 + dscp * 4 * 2 ^ 20) ++ beBytes 2 payload.length ++ [17, BitVec.ofNat 8 hops] ++ src ++ dst ++ payload

/-! Sending (R290, R292, R297, R299). -/

/-- The container header (Table 11.6). -/
def Dev.contHeader (d : Dev) (c seq count : Nat) : Bytes :=
  [1, BitVec.ofNat 8 (b2n (d.flag 0x7400 0x10 0 c) + 2 * b2n d.untraceable)] ++ beBytes 2 (d.cont 0x04 c) ++ beBytes 2 seq ++ beBytes 2 count ++
    beBytes 8 ((clkNs d.sex.zt.val) % 2 ^ 64).toNat

/-- The AVTP header of a tunnel frame with `n` bytes of messages (R297). -/
def Dev.avtpHeader (d : Dev) (c seq n : Nat) : Bytes :=
  let sid := beBytes 8 (d.cont 0x05 c)
  if d.cont 0x03 c = 2 then [0x82, BitVec.ofNat 8 (0x80 + n / 256 % 8), BitVec.ofNat 8 n, BitVec.ofNat 8 seq] ++ sid
  else [0x05, 0x81, BitVec.ofNat 8 seq, 0] ++ sid ++ beBytes 4 (((clkNs d.sex.zt.val).toNat + d.cont 0x15 c) % 2 ^ 32) ++ [0, 0, 0, 0] ++ beBytes 2 n ++ [0, 0]

/-- Ethernet header of a container's frame. -/
def Dev.contEth (d : Dev) (c etype : Nat) : Bytes :=
  beBytes 6 (d.cont 0x06 c) ++ beBytes 6 (d.obj 0x7000 0x07) ++
    (if d.cont 0x07 c = 0 then [] else [0x81, 0x00] ++ beBytes 2 (d.cont 0x08 c * 8192 + d.cont 0x07 c)) ++ beBytes 2 etype

/-- Admit a host container's frame from FP10 to FP8 (R299, R348). -/
def Dev.offerHost (d : Dev) (c : Nat) (b : Bytes) : Dev :=
  let len := b.length
  let cls := d.pcpClass 23 (d.cont 0x08 c)
  d.offer {
    id := 0, port := 23, data := b, len := len, cls := cls, vid := 0, pcp := d.cont 0x08 c, dei := false, tagged := false, oversize := false,
    multi := false, ptpEvent := false, stamp := d.lt, rule := none, smem := d.stackId, sport := 23, whole := true,
    hostFifo := some (d.cont 0x13 c), copies := [{ port := 22 }] }

/-- Sequence number of a container's next frame (R290, R297). -/
def Dev.nextContSeq (d : Dev) (c : Nat) : Nat :=
  if tget (fun _ => false) d.rose.seqSet c then (d.cont 0x1D c + 1) % (if isTunnel (d.cont 0x03 c) then 256 else 65536) else 0

/-- Send the staged entries of a container as one frame; the cycles that this costs (Table 11.1). (DESIGN CHOICE: log entry 90; DEDUCED: log entry 104.) -/
def Dev.sendCont (d : Dev) (c : Nat) : Dev × Nat :=
  let l := tget (fun _ => []) d.rose.staged c
  if l.isEmpty then (d, 0)
  else
    let fmt := d.cont 0x03 c
    let seq := d.nextContSeq c
    let body := (l.map (d.entryOf c)).flatten
    let d := ((d.set 0x7400 0x1D seq 0 c).inc64 0x7400 0x16 0 c).inc64 0x7400 0x17 0 c l.length
    let d := d.roseUpd fun x => { x with seqSet := tput (fun _ => false) x.seqSet c true, staged := tput (fun _ => []) x.staged c [] }
    let box := d.contHeader c seq l.length ++ body
    let cost (n : Nat) : Nat := 225 + 25 * cellsOf n
    let whole (etype : Nat) (b : Bytes) : Bytes := let f := d.contEth c etype ++ b; f ++ List.replicate (60 - f.length) 0
    let peer := beBytes 16 (d.cont 0x09 c)
    match fmt with
    | 0 =>
      let src := beBytes 4 (d.obj 0x7000 0x08)
      let dst := peer.drop 12
      let ident := (Config.freeValue 46 0 + d.rose.ipFrames) % 65536
      let f := whole 0x0800 (ipv4Bytes (d.cont 0x0B c) ident (d.cont 0x1E c) src dst (udpBytes src dst (d.obj 0x7000 0x06) (d.cont 0x0A c) box (d.flag 0x7400 0x14 0 c)))
      ((d.roseUpd fun x => { x with ipFrames := x.ipFrames + 1 }).offer (d.rawFrame 23 f false false), cost (f.length + 4))
    | 1 =>
      let src := beBytes 16 (d.obj 0x7000 0x09)
      let f := whole 0x86DD (ipv6Bytes (d.cont 0x0B c) (d.cont 0x1E c) src peer (udpBytes src peer (d.obj 0x7000 0x06) (d.cont 0x0A c) box true))
      (d.offer (d.rawFrame 23 f false false), cost (f.length + 4))
    | 4 => (d.offerHost c box, cost box.length)
    | _ =>
      let f := whole 0x22F0 (d.avtpHeader c seq body.length ++ body)
      (d.offer (d.rawFrame 23 f false false), cost (f.length + 4))

/-- What an entry replaces in replace mode: its PDU ID and bus identifier, or its bus ID and identifier (R294). -/
def sameEntry (tunnel : Bool) (a b : ContEntry) : Bool :=
  if tunnel then a.busId == b.busId && a.kind == b.kind && a.frame.ident == b.frame.ident else a.pduId == b.pduId && a.busIdent == b.busIdent

/-- Add an entry to a container (R293, R294): the device, whether it was added, and the cycles of the frames sent. (DEDUCED: log entry 92.) -/
def Dev.addEntry (d : Dev) (c : Nat) (e : ContEntry) (atOnce : Bool) : Dev × Bool × Nat :=
  if ¬ d.contFits c [e] then (d.inc 0x7400 0x19 0 c, false, 0)
  else
    let l := tget (fun _ => []) d.rose.staged c
    let put (d : Dev) (l : List ContEntry) : Dev := d.roseUpd fun x => { x with staged := tput (fun _ => []) x.staged c l }
    let start (d : Dev) : Dev := d.roseUpd fun x => { x with stagedAt := tput (fun _ => 0) x.stagedAt c d.lt }
    let after (d : Dev) (n : Nat) : Dev × Bool × Nat :=
      if atOnce ∨ d.cont 0x0E c = 0 then let (d, m) := d.sendCont c; (d, true, n + m) else (d, true, n)
    let old := if d.cont 0x0F c = 1 then l.findIdx? (sameEntry (isTunnel (d.cont 0x03 c)) e) else none
    let new := match old with | some i => l.set i e | none => l ++ [e]
    if d.contFits c new ∧ new.length ≤ d.cont 0x0D c then
      let d := if l.isEmpty then start d else d
      let d := if old.isSome then d.inc 0x7400 0x18 0 c else d
      after (put d new) 0
    else
      let (d, n) := d.sendCont c
      after (put (start d) [e]) n

/-- CONTAINER_COLLECTION_EXPIRY (R293, R309): the lowest-numbered container whose collection time has run out and whose job is not in P. -/
def execContainerCollectionExpiry (t : Nat) (s : State) : Host.Outcome State Fault Refusal :=
  s.cmd t true fun d =>
    match d.rose.staged.find? (fun x => decide (tget (fun _ => 0) d.rose.stagedAt x.1 + d.cont 0x0E x.1 * perUs ≤ d.lt) && !(d.rose.pq.contains (8192 + x.1) || d.rose.pend.contains (8192 + x.1))) with
    | some (c, _) => d.pushP (8192 + c)
    | none => d

/-! Receiving (R295 to R299). -/

/-- One entry of a Rose or host container from an offset: the PDU and the offset of the next entry; none when it is malformed, its padding not zero included (R291). (DEDUCED: log entry 102.) -/
def Dev.takeEntry (d : Dev) (c : Nat) (b : Bytes) (withFix : Bool) (now16 off : Nat) : Option (EPdu × Nat) :=
  let head := if withFix then 24 else 12
  let n := field b (off + 8) 2
  let stop := off + cdiv (head + n) 4 * 4
  if b.length < off + head ∨ 2048 < n ∨ b.length < stop ∨ 4 ≤ byteAt b (off + 2) ∨ field b (off + 10) 2 ≠ 0 ∨ !(slice b (off + head + n) (stop - (off + head + n))).all (· == 0) then none
  else
    let fix := if withFix ∧ d.flag 0x7400 0x11 0 c then of96 (field b (off + 12) 12) else now16
    some ({ cont := c, kind := 2, ident := field b off 2, srcId := field b (off + 4) 4, busId := 0, frame := { data := slice b (off + head) n }, fix := fix }, stop)

/-- The entries of a container; none when they do not fill the payload exactly. -/
def Dev.takeEntries (d : Dev) (c : Nat) (b : Bytes) (withFix : Bool) (now16 : Nat) : Nat → Nat → Option (List EPdu)
  | 0, off => if off = b.length then some [] else none
  | n + 1, off =>
    match d.takeEntry c b withFix now16 off with
    | none => none
    | some (e, next) => (d.takeEntries c b withFix now16 n next).map (e :: ·)

/-- Check 5 of Table 11.8 and the entries of a container record. (DEDUCED: log entry 102.) -/
def Dev.readCont (d : Dev) (c : Nat) (b : Bytes) (now16 : Nat) : Option (List EPdu) :=
  if b.length < 16 ∨ byteAt b 0 ≠ 1 ∨ 4 ≤ byteAt b 1 then none
  else
    let n := field b 6 2
    if n = 0 ∨ 255 < n then none else d.takeEntries c b (bit (byteAt b 1) 0) now16 n 16

/-- One ACF message of `b` bytes from its header on: the PDU, none for another type or a malformed message (R298). -/
def Dev.takeAcf (d : Dev) (c : Nat) (m : Bytes) (now16 : Nat) : Option EPdu :=
  let type := byteAt m 0 / 2
  let fl := byteAt m 2
  let pad := fl / 64
  let head := if type = 1 then 16 else if type = 2 then 8 else 12
  if ¬ (1 ≤ type ∧ type ≤ 3) ∨ m.length < head + pad then none
  else
    let data := slice m head (m.length - head - pad)
    let stamped : Bool := type != 2 && bit fl 5 && d.flag 0x7400 0x11 0 c
    let fix := if stamped then field m 4 8 * 65536 else now16
    if type = 3 then
      if data.length = 0 ∨ 8 < data.length then none
      else some { cont := c, kind := 4, ident := byteAt m 3 % 64, srcId := byteAt m 3 % 64, busId := fl % 32, frame := { ident := byteAt m 3 % 64, data := data }, fix := fix }
    else
      let fmt := if bit fl 1 then 1 else if bit fl 4 then 3 else 0
      let ident := fmt * 2 ^ 30 + b2n (bit fl 3) * 2 ^ 29 + field m (head - 4) 4 % 2 ^ 29
      if (if fmt = 1 then 64 else if fmt = 0 then 8 else 0) < data.length then none
      else some { cont := c, kind := 3, ident := ident, srcId := ident, busId := byteAt m 3 % 32, frame := { ident := ident, data := data, brs := bit fl 2, esi := bit fl 0 }, fix := fix }

/-- The ACF messages of a tunnel frame, none for each that is skipped; no list when they do not fill the stated length. -/
def Dev.takeAcfs (d : Dev) (c : Nat) (now16 : Nat) : Nat → Bytes → Option (List (Option EPdu))
  | 0, b => if b = [] then some [] else none
  | n + 1, b =>
    if b = [] then some []
    else
      let q := field b 0 2 % 512 * 4
      if q = 0 ∨ b.length < q then none else (d.takeAcfs c now16 n (b.drop q)).map (d.takeAcf c (b.take q) now16 :: ·)

/-- An enabled receive container that satisfies a test. -/
def Dev.rxCont (d : Dev) (test : Nat → Bool) : Option Nat := (d.enabledRecs 0x7400).find? (fun c => d.cont 0x02 c == 1 && test c)

/-- Check 6 of Table 11.8 (R296) and the entries that an accepted frame puts into E; `none` entries were skipped. -/
def Dev.acceptCont (d : Dev) (c seq modulus : Nat) (l : List (Option EPdu)) : Dev :=
  let dd := (seq + modulus - d.cont 0x1D c % modulus) % modulus
  let first := ¬ tget (fun _ => false) d.rose.seqSet c
  if ¬ first ∧ (dd = 0 ∨ modulus ≤ 2 * dd) then d.inc 0x7400 0x1B 0 c
  else
    let d := if ¬ first ∧ 1 < dd then d.inc 0x7400 0x1A 0 c (dd - 1) else d
    let good := l.filterMap id
    let d := (((d.set 0x7400 0x1D seq 0 c).inc64 0x7400 0x16 0 c).inc64 0x7400 0x17 0 c good.length).inc 0x7400 0x1C 0 c (l.length - good.length)
    d.roseUpd fun x => { x with seqSet := tput (fun _ => false) x.seqSet c true, eq := good, eqAt := d.now }

/-- A frame fails checks 1 to 4 of Table 11.8. -/
def Dev.notMatched (d : Dev) : Dev := d.inc 0x7000 0x0D

/-- A frame fails check 5. -/
def Dev.badCont (d : Dev) (c : Nat) : Dev := (d.inc 0x7000 0x0E).inc 0x7400 0x1C 0 c

/-- A container record, of an IP datagram or of the host, is checked and taken. -/
def Dev.takeCont (d : Dev) (c : Nat) (b : Bytes) (now16 : Nat) : Dev :=
  match d.readCont c b now16 with
  | none => d.badCont c
  | some l => d.acceptCont c (field b 4 2) 65536 (l.map some)

/-- A UDP datagram of the given format, its addresses and its payload. (DEDUCED: log entry 94.) -/
def Dev.takeUdp (d : Dev) (fmt : Nat) (src dst u : Bytes) (now16 : Nat) : Dev :=
  let n := field u 4 2
  let sum := field u 6 2
  let good : Bool := decide (8 ≤ n ∧ n ≤ u.length) && field u 2 2 == d.obj 0x7000 0x06 &&
    ((fmt == 0 && sum == 0) || (sum != 0 && inetSum (src ++ dst ++ beBytes 4 17 ++ beBytes 4 n ++ u.take n) == 0))
  if ¬ good then d.notMatched
  else
    let body := slice u 8 (n - 8)
    let peerOk (c : Nat) : Bool := let p := d.cont 0x09 c; p == 0 || (if fmt = 0 then p % 2 ^ 32 else p) == beNat src
    match d.rxCont (fun c => d.cont 0x03 c == fmt && decide (4 ≤ body.length) && d.cont 0x04 c == field body 2 2 && peerOk c) with
    | none => d.notMatched
    | some c => d.takeCont c body now16

/-- A frame from FP10 (R295, Table 11.8); `ident` its FIFO when it comes from the host. (DEDUCED: log entry 94.) -/
def Dev.unpack (d : Dev) (f : Frame) : Dev :=
  let now16 := clk16 (d.ztAt (d.ltEpoch + f.stamp))
  match f.hostFifo with
  | some n =>
    match d.rxCont (fun c => d.cont 0x03 c == 4 && d.cont 0x13 c == n) with
    | none => d.notMatched
    | some c => d.takeCont c f.data now16
  | none =>
    let p := parseFrame f.data
    let b := f.data.drop p.payload
    if p.ethertype = 0x0800 then
      let total := field b 2 2
      if byteAt b 0 ≠ 0x45 ∨ total < 20 ∨ b.length < total ∨ inetSum (b.take 20) ≠ 0 ∨ field b 6 2 % 16384 ≠ 0 ∨ byteAt b 9 ≠ 17 ∨ field b 16 4 ≠ d.obj 0x7000 0x08 then d.notMatched
      else d.takeUdp 0 (slice b 12 4) (slice b 16 4) (slice b 20 (total - 20)) now16
    else if p.ethertype = 0x86DD then
      let n := field b 4 2
      if byteAt b 0 / 16 ≠ 6 ∨ b.length < 40 + n ∨ byteAt b 6 ≠ 17 ∨ field b 24 16 ≠ d.obj 0x7000 0x09 then d.notMatched
      else d.takeUdp 1 (slice b 8 16) (slice b 24 16) (slice b 40 n) now16
    else if p.ethertype = 0x22F0 then
      let nt : Bool := byteAt b 0 == 0x82
      let okHead : Bool := (nt || byteAt b 0 == 0x05) && byteAt b 1 / 16 == 8
      match (if okHead then d.rxCont (fun c => d.cont 0x03 c == (if nt then 2 else 3) && d.cont 0x05 c == field b 4 8) else none) with
      | none => d.notMatched
      | some c =>
        let head := if nt then 12 else 24
        let n := if nt then field b 1 2 % 2048 else field b 20 2
        if b.length < head + n then d.badCont c
        else match d.takeAcfs c now16 n (slice b head n) with
          | none => d.badCont c
          | some l => d.acceptCont c (byteAt b (if nt then 3 else 2)) 256 l
    else d.notMatched

end Sys2Proof.Machine
end

