-- ==== Sys2Proof/Machine/RoseJobs.lean ====
section
/-! DEFINITION. The jobs of the Rose: PDU jobs, unpack jobs and emission jobs, and the latency bounds of routes (R266 to R303, R310 to R314). -/
namespace Sys2Proof.Machine

/-- Field of a route (`A:7300`). -/
def Dev.rt (d : Dev) (sub n : Nat) : Nat := d.obj 0x7300 sub 0 n

/-! Matching (R272). -/

/-- A received PDU: its kind, what it is matched by, the identifier and source byte that an entry carries, its container or W index, its ACF bus ID, frame fields, Fix in 2^-16 ns, and when it came to the head of its queue. -/
structure RxPdu where
  kind : Nat
  ident : Nat
  busIdent : Nat
  source : Nat
  place : Nat
  busId : Nat
  frame : CanFrame
  fix : Nat
  at_ : Nat
  deriving DecidableEq, Repr

/-- Length of a PDU in bytes; a CC remote frame has the length that it asks for. -/
def frameLen (f : CanFrame) : Nat := if canFmt f = 3 then f.dlc else f.data.length

/-- Identifier bits under a mask. -/
def sameBits (a b mask : Nat) : Bool := (a &&& mask) % 2 ^ 30 == (b &&& mask) % 2 ^ 30

/-- Enabled source definitions of a PDU's kind and place. -/
def Dev.sourceDefs (d : Dev) (p : RxPdu) : List Nat :=
  (d.enabledRecs 0x7100).filter (fun r => d.pdef 0x03 r == 0 && d.pdef 0x02 r == p.kind && d.pdef (if p.kind ≤ 1 then 0x04 else 0x05) r == p.place &&
    (p.kind ≤ 2 || d.pdef 0x0B r == p.busId) && bits (d.pdef 0x06 r) 31 30 == bits p.ident 31 30)

/-- The definition that a PDU matches: exact before masked, then the lowest record (R272). -/
def Dev.matchPdu (d : Dev) (p : RxPdu) : Option Nat :=
  let l := d.sourceDefs p
  let exact (r : Nat) : Bool := d.pdef 0x07 r == 0x3FFFFFFF
  match l.find? (fun r => exact r && sameBits (d.pdef 0x06 r) p.ident 0x3FFFFFFF) with
  | some r => some r
  | none => l.find? (fun r => !exact r && sameBits (d.pdef 0x06 r) p.ident (d.pdef 0x07 r))

/-! Destination PDUs (R282, R283). -/

/-- Format of a kind 0 or 3 definition. -/
def Dev.defFmt (d : Dev) (r : Nat) : Nat := bits (d.pdef 0x06 r) 31 30

/-- The next FD length (Table 11.2). -/
def fdLength (n : Nat) : Nat := ([8, 12, 16, 20, 24, 32, 48].find? (fun k => n ≤ k)).map (fun k => if n ≤ 8 then n else k) |>.getD 64

/-- Largest length of a definition's kind and format (Table 11.2). -/
def Dev.kindMax (d : Dev) (r : Nat) : Nat :=
  match d.pdef 0x02 r with
  | 1 => 8
  | 2 => 2048
  | 4 => 8
  | _ => match d.defFmt r with | 1 => 64 | 2 => 2048 | _ => 8

/-- Length of a destination PDU for data of `n` bytes (R282). -/
def Dev.destLen (d : Dev) (r n : Nat) : Nat :=
  if d.pdef 0x08 r ≠ 0xFFFF then d.pdef 0x08 r
  else
    let n := min n (d.kindMax r)
    match d.pdef 0x02 r with
    | 1 => (d.defUnit r).elim n (fun u => d.obj 0x6820 0x02 u (d.pdef 0x06 r % 64))
    | 2 => n
    | 4 => max 1 n
    | _ => match d.defFmt r with | 1 => fdLength n | 2 => max 1 n | _ => n

/-- Data copied to a destination: truncated or padded with the fill byte (R282). (DESIGN CHOICE: log entry 95.) -/
def Dev.fitData (d : Dev) (r : Nat) (b : Bytes) : Bytes := let n := d.destLen r b.length; b.take n ++ List.replicate (n - b.length) (BitVec.ofNat 8 (d.pdef 0x09 r))

/-- Identifier of a CAN destination from a source identifier (R283). -/
def Dev.destIdent (d : Dev) (r src : Nat) : Nat :=
  let m := d.pdef 0x07 r % 2 ^ 30
  let i := d.pdef 0x06 r
  i / 2 ^ 30 * 2 ^ 30 + ((i % 2 ^ 30 &&& m) ||| (src % 2 ^ 30 &&& (2 ^ 30 - 1 - m)))

/-- BRS of a destination: from the received FD frame, else open for an FD destination (R283). (DESIGN CHOICE: log entry 80.) -/
def Dev.destBrs (d : Dev) (r : Nat) (src : Option CanFrame) : Bool × Dev :=
  match src with
  | some f => if canFmt f = 1 then (f.brs, d) else if d.defFmt r = 1 then let (v, d) := d.free 45; (v % 2 == 1, d) else (false, d)
  | none => if d.defFmt r = 1 then let (v, d) := d.free 45; (v % 2 == 1, d) else (false, d)

/-- A destination's frame of kind 0 or 3 (R283, R284). -/
def Dev.destFrame (d : Dev) (r ident : Nat) (b : Bytes) (src : Option CanFrame) : CanFrame × Dev :=
  let (brs, d) := d.destBrs r src
  let fmt := d.defFmt r
  let asked := match src with | some f => if d.pdef 0x08 r = 0xFFFF then f.dlc else d.pdef 0x08 r | none => d.pdef 0x08 r
  let base : CanFrame := { ident := ident, data := if fmt = 3 then [] else b, dlc := if fmt = 3 then asked else 0, brs := brs, esi := src.elim false (·.esi) }
  let f := match src with
    | some f => if fmt = 2 ∧ canFmt f = 2 then { base with sdt := f.sdt, sec := f.sec, vcid := f.vcid, af := f.af } else base
    | none => base
  (f, d)

/-- What became of a destination PDU. -/
inductive Placed where
  | done
  | refused
  | notReady
  | notFitting
  deriving DecidableEq, Repr

/-- Where the PDU came from, for the entry's fields (Table 11.7): bus identifier, source byte and Fix. -/
structure Origin where
  busIdent : Option Nat
  source : Nat
  fix : Nat
  deriving DecidableEq, Repr

/-- Hand a destination PDU to its channel or container (R284 to R286): the outcome and the cycles of container frames sent. (DESIGN CHOICE: log entry 93.) -/
def Dev.placePdu (d : Dev) (r : Nat) (b : Bytes) (src : Option CanFrame) (o : Origin) (trunc atOnce : Bool) : Dev × Placed × Nat :=
  let ident := d.destIdent r (o.busIdent.getD (d.pdef 0x06 r))
  let kind := d.pdef 0x02 r
  let add (d : Dev) (e : ContEntry) : Dev × Placed × Nat :=
    let c := d.pdef 0x05 r
    if ¬ d.flag 0x7400 0x01 0 c ∨ d.cont 0x02 c ≠ 0 then (d, .notReady, 0)
    else
      let (d, ok, n) := d.addEntry c e atOnce
      (d, if ok then .done else .notFitting, n)
  let ofLoad (x : Dev × Loaded) : Dev × Placed × Nat := (x.1, match x.2 with | .into _ => .done | .refused => .refused | .notReady => .notReady, 0)
  match kind, d.defUnit r with
  | 0, some u => let (f, d) := d.destFrame r ident b src; ofLoad (d.canLoad u f (d.pdef 0x0A r))
  | 1, some u => ofLoad (d.linLoad u (d.pdef 0x06 r % 64) b)
  | 2, _ => add d { pduId := d.pdef 0x06 r % 65536, busIdent := o.busIdent, source := o.source, fix := o.fix, kind := 2, busId := 0, frame := { data := b }, truncated := trunc }
  | 3, _ => let (f, d) := d.destFrame r ident b src; add d { pduId := 0, busIdent := none, source := o.source, fix := o.fix, kind := 3, busId := d.pdef 0x0B r, frame := f }
  | 4, _ => add d { pduId := 0, busIdent := none, source := o.source, fix := o.fix, kind := 4, busId := d.pdef 0x0B r, frame := { ident := d.pdef 0x06 r % 64, data := b } }
  | _, _ => (d, .notReady, 0)

/-- The outcome of a destination PDU counts for its definition and for routes (R284, R285, Table 11.9). (DESIGN CHOICE: log entry 93; DEDUCED: log entry 97.) -/
def Dev.countPlaced (d : Dev) (r : Nat) (routes : List Nat) (p : Placed) : Dev :=
  match p with
  | .done => d.inc64 0x7100 0x0D 0 r
  | .refused => routes.foldl (fun d n => d.inc 0x7300 0x08 0 n) d
  | .notReady => routes.foldl (fun d n => d.inc 0x7300 0x09 0 n) d
  | .notFitting => d

/-- Security of a secured destination is unavailable, so that its PDU is withheld (R311, R328). -/
def Dev.withheldSec (d : Dev) (r : Nat) : Bool := d.flag 0x7810 0x20 0 r && !d.secReady r

/-- A PDU of a destination is withheld (R311). (DEDUCED: log entry 97.) -/
def Dev.withhold (d : Dev) (r : Nat) : Dev := (d.inc 0x7810 0x05 0 r).inc64 0x7800 0x07

/-! Latency bounds (R300, R314). -/

/-- Enabled frame routes of a source definition, in ascending number. -/
def Dev.frameRoutes (d : Dev) (r : Nat) : List Nat := (d.enabledRecs 0x7300).filter (fun n => d.rt 0x02 n == 1 && d.rt 0x03 n == r)

/-- Enabled signal routes to a destination definition, in ascending number. -/
def Dev.routesTo (d : Dev) (r : Nat) : List Nat := (d.enabledRecs 0x7300).filter (fun n => d.rt 0x02 n == 2 && d.rt 0x04 n == r)

/-- Enabled signals of a source definition, in ascending number. -/
def Dev.signalsOf (d : Dev) (r : Nat) : List Nat := d.signalsOn.filter (fun n => d.sig 0x02 n == r)

/-- The routes' PDU goes to a container that sends it within the job. -/
def Dev.sendsNow (d : Dev) (r : Nat) (routes : List Nat) : Bool := d.cont 0x0E (d.pdef 0x05 r) == 0 || routes.any (fun n => d.flag 0x7300 0x06 0 n)

/-- No entry waits in a container between two jobs: it collects for no time, or all that adds to it sends at once. -/
def Dev.contAlone (d : Dev) (c : Nat) : Bool :=
  d.cont 0x0E c == 0 ||
    ((d.enabledRecs 0x7300).all (fun n => let q := d.rt 0x04 n; d.pdef 0x02 q < 2 || d.pdef 0x05 q != c || d.flag 0x7300 0x06 0 n) &&
      (List.range 40).all (fun w => !d.flag 0x7010 0x01 (w + 21) || d.obj 0x7010 0x02 (w + 21) != c))

/-- Cycles of the frames that a job sends at most as it adds an entry of `len` bytes and a kind to a container (R293): the frame with the entry alone where none waits; else the frame that waited, and after it one with the entry alone where the entry did not fit it and is sent at once. (DEDUCED: log entry 153.) -/
def Dev.contSendCost (d : Dev) (c kind len : Nat) (atOnce : Bool) : Nat :=
  let e : ContEntry := { pduId := 0, busIdent := none, source := 0, fix := 0, kind := kind, busId := 0, frame := { data := List.replicate len 0 } }
  let own := 225 + 25 * cellsOf (d.contOverhead c + (d.entryOf c e).length)
  let full := 225 + 25 * cellsOf (d.cont 0x0C c)
  if d.contAlone c then own else if atOnce then full + own else full

/-- Cycles of a PDU of `n` source bytes to a destination at most (Tables 11.1, 12.6); `atOnce` says that it is sent at once. -/
def Dev.routeCost (d : Dev) (r n : Nat) (atOnce : Bool) : Nat :=
  let len := d.destLen r n
  75 + d.checkCost r len + (if d.pdef 0x02 r < 2 then 0 else d.contSendCost (d.pdef 0x05 r) (d.pdef 0x02 r) len atOnce)

/-- Cycles of a frame route for a PDU of `n` source bytes at most. -/
def Dev.frameRouteCost (d : Dev) (k n : Nat) : Nat := d.routeCost (d.rt 0x04 k) n (d.flag 0x7300 0x06 0 k)

/-- Cycles of an emission job of a destination at most. -/
def Dev.emissionCost (d : Dev) (r : Nat) : Nat := 50 + ((d.routesTo r).map (fun n => d.sigCost (d.rt 0x03 n))).sum + d.routeCost r (d.pdef 0x08 r) ((d.routesTo r).any (fun n => d.flag 0x7300 0x06 0 n))

/-- Cycles of a PDU job of a source definition at most (R329). -/
def Dev.pduCost (d : Dev) (r : Nat) : Nat :=
  let n := d.pdef 0x08 r
  50 + d.checkCost r n + max ((d.signalsOf r).map d.sigCost).sum ((d.frameRoutes r).map (fun k => d.frameRouteCost k n)).sum

/-- Longest data of a W unit's frames: by the mode of a CAN channel (Table 9.1), 8 bytes on LIN. -/
def Dev.unitMax (d : Dev) (u : Nat) : Nat :=
  if u < 45 then (match d.obj 0x6010 0x02 u with | 0 => 8 | 1 => 64 | _ => 2048) else 8

/-- Cycles of the job of an undefined PDU of a W unit that goes to the host, at most; 0 where it does not (R273). -/
def Dev.undefinedCost (d : Dev) (u : Nat) : Nat :=
  let c := d.obj 0x7010 0x02 u
  if d.flag 0x7010 0x01 u ∧ d.flag 0x7400 0x01 0 c ∧ d.cont 0x02 c = 0 then 125 + d.contSendCost c 2 (d.unitMax u) false else 0

/-- Longest job that a queue can hold (R300): W channels 0–39, E 40, P 41. (DEDUCED: log entry 153.) -/
def Dev.queueJob (d : Dev) (q : Nat) : Nat :=
  let src (test : Nat → Bool) : List Nat := ((d.enabledRecs 0x7100).filter (fun r => d.pdef 0x03 r == 0 && test r)).map d.pduCost
  if q < 40 then maxOf (d.undefinedCost (q + 21) :: src (fun r => d.defUnit r == some (q + 21)))
  else
    let conts := d.enabledRecs 0x7400
    if q = 40 then maxOf (src (fun r => 2 ≤ d.pdef 0x02 r) ++ (conts.filter (fun c => d.cont 0x02 c == 1)).map (fun c => 50 + 8 * cellsOf (d.cont 0x0C c)))
    else maxOf (((d.enabledRecs 0x7100).filter (fun r => d.pex 0x01 r != 0)).map d.emissionCost ++
      (conts.filter (fun c => d.cont 0x02 c == 0 && d.cont 0x0E c != 0)).map (fun c => 275 + 25 * cellsOf (d.cont 0x0C c)))

/-- W(q) of R300. -/
def Dev.waitBound (d : Dev) (q : Nat) : Nat := (((List.range 42).filter (· ≠ q)).map d.queueJob).sum

/-- Queue of a source definition. -/
def Dev.queueOf (d : Dev) (r : Nat) : Nat := (d.defUnit r).elim 40 (· - 21)

/-- Longest interval between consecutive positions of a cycle that hold a definition. -/
def longestGap (cycle : Nat) (l : List Nat) : Nat :=
  match l with
  | [] => 0
  | a :: rest => maxOf ((l.zip (rest ++ [a + cycle])).map (fun x => x.2 - x.1))

/-- Intervals of R314 in the banks of the enabled time-source legs that name a definition. -/
def Dev.periodicGaps (d : Dev) (r : Nat) : List Nat :=
  ((List.range 16).filter (fun n => d.flag 0x8420 0x01 0 n && d.obj 0x8420 0x03 0 n == 5 && d.legSource n < 4)).flatMap (fun n =>
    [0, 1].filterMap (fun b =>
      let l := ((List.range (d.legCount n b)).filter (fun i => d.legData n b i % 8192 == r)).map (d.legOff n b)
      if l.isEmpty then none else some (longestGap (d.legCycle n b) l)))

/-- An unbounded latency. -/
def unbounded : Nat := 0xFFFFFFFF

/-- Emission bound of a destination in ns (R314). -/
def Dev.emissionBound (d : Dev) (r : Nat) : Nat :=
  let gap := min unbounded (d.pex 0x02 r * 1000)
  let periodic := if d.periodicGaps r = [] then unbounded else maxOf (d.periodicGaps r)
  match d.pex 0x01 r with
  | 1 => periodic
  | 2 => gap
  | 3 => min periodic gap
  | _ => unbounded

/-- Cycles in ns at full Rose clock. -/
def fullNs (n : Nat) : Nat := 2 * n

/-- Latency bound of a route in ns (R300). -/
def Dev.routeBound (d : Dev) (n : Nat) : Nat :=
  if ¬ d.flag 0x7300 0x01 0 n then 0
  else
    let dest := d.rt 0x04 n
    if d.rt 0x02 n = 1 then
      let s := d.rt 0x03 n
      let len := d.pdef 0x08 s
      let upTo := (d.frameRoutes s).filter (· ≤ n)
      let cyc := d.waitBound (d.queueOf s) + 50 + d.checkCost s len + (upTo.map (fun k => d.frameRouteCost k len)).sum
      let c := d.pdef 0x05 dest
      let collect := if 2 ≤ d.pdef 0x02 dest ∧ ¬ d.sendsNow dest [n] then d.cont 0x0E c * 1000 else 0
      min unbounded (fullNs cyc + collect)
    else
      let sg := d.rt 0x03 n
      let s := d.sig 0x02 sg
      let rank := (((d.signalsOf s).filter (· ≤ sg)).map d.sigCost).sum
      let e := d.emissionBound dest
      if e = unbounded then unbounded
      else min unbounded (fullNs (d.waitBound (d.queueOf s) + 50 + d.checkCost s (d.pdef 0x08 s) + rank + d.waitBound 41 + d.emissionCost dest) + e)

/-- A measurement of a route (R301). (DEDUCED: log entry 98; DESIGN CHOICE: log entry 99.) -/
def Dev.measured (d : Dev) (n ns : Nat) : Dev :=
  let d := if d.rt 0x0B n < ns then (d.set 0x7300 0x0B ns 0 n).set 0x7300 0x0C d.ztTime 0 n else d
  if d.routeBound n < ns then
    let d := d.inc 0x7000 0x11
    if d.pairRuns 1 then d.roseUpd fun x => { x with exceptions := 0 }
    else if d.rose.exceptions < 256 then d.roseUpd fun x => { x with exceptions := x.exceptions + 1 }
    else d.inc 0x7000 0x10
  else d

/-- Time since a moment in ns. -/
def Dev.since (d : Dev) (at_ : Nat) : Nat := (d.now - at_) * 4 / 5

/-! PDU jobs (R24, R274, R278, R282). -/

/-- One extraction; the cycles that it cost. (DEDUCED: log entry 96.) -/
def Dev.extract (d : Dev) (p : RxPdu) (n : Nat) : Dev × Nat :=
  let b := p.frame.data
  let at_ := d.sigAtBit n (d.sig 0x03 n)
  let ub := d.sig 0x06 n
  if ¬ insideBytes at_ b.length then (d.setSig 0x0D n ((d.sig 0x0D n + 1) % 2 ^ 32), 0)
  else if ub ≠ 0xFFFF ∧ ¬ pduBit b ub then (d, 0)
  else if d.isLarge n then
    let v := slice b (d.sig 0x03 n / 8) (d.sig 0x04 n / 8)
    (d.mailbox n (beNat (v.take 8)) v p.fix p.at_, d.sigCost n)
  else (d.mailbox n (bitsAt b at_) [] p.fix p.at_, d.sigCost n)

/-- Every extraction of a source definition, in ascending signal number. -/
def Dev.extractAll (d : Dev) (p : RxPdu) : List Nat → Dev × Nat
  | [] => (d, 0)
  | n :: l =>
    let (d, a) := d.extract p n
    let (d, b) := d.extractAll p l
    (d, a + b)

/-- One frame route; `spent` are the cycles of the job before it; the cycles that it costs. -/
def Dev.frameRoute (d : Dev) (p : RxPdu) (n spent : Nat) : Dev × Nat :=
  let r := d.rt 0x04 n
  if d.withheldSec r then ((d.secMissing r).withhold r, 75)
  else
    let b := d.fitData r p.frame.data
    let trunc : Bool := b.length < p.frame.data.length
    let d := if trunc then d.inc 0x7100 0x0F 0 r else d
    let out := d.secure r (d.protect r b)
    let cost := 75 + d.checkCost r b.length
    let (d, res, m) := d.placePdu r out (if p.kind = 1 ∨ p.kind = 2 ∨ p.kind = 4 then none else some p.frame) { busIdent := some p.busIdent, source := p.source, fix := p.fix } trunc (d.flag 0x7300 0x06 0 n)
    let d := d.countPlaced r [n] res
    if res = .done then
      let d := ((d.inc64 0x7300 0x07 0 n).protectNext r).secureNext r
      (d.measured n (d.since p.at_ + d.cyclesNs (spent + cost + m)), cost + m)
    else (d, cost + m)

/-- The frame routes of a PDU in ascending number. -/
def Dev.frameRoutesRun (d : Dev) (p : RxPdu) (spent : Nat) : List Nat → Dev × Nat
  | [] => (d, 0)
  | n :: l =>
    let (d, a) := d.frameRoute p n spent
    let (d, b) := d.frameRoutesRun p (spent + a) l
    (d, a + b)

/-- A PDU that matches no definition (R273). -/
def Dev.undefinedPdu (d : Dev) (p : RxPdu) (unit : Option Nat) : Dev × Nat :=
  match unit with
  | none => (d.inc 0x7400 0x1C 0 p.place, 50)
  | some u =>
    if d.flag 0x7010 0x01 u then
      let c := d.obj 0x7010 0x02 u
      let (d, _, m) := if d.flag 0x7400 0x01 0 c ∧ d.cont 0x02 c = 0 then
          d.addEntry c { pduId := 0xFFFF, busIdent := some p.busIdent, source := p.source, fix := p.fix, kind := 2, busId := 0, frame := { data := p.frame.data } } false
        else (d, false, 0)
      (d, 125 + m)
    else ((d.inc 0x7010 0x06 u).inc64 0x7000 0x0C, 50)

/-- One PDU job (R24, R268, R329): the cycles that it takes. (DESIGN CHOICE: log entry 103.) -/
def Dev.pduJob (d : Dev) (p : RxPdu) (unit : Option Nat) : Dev × Nat :=
  match d.matchPdu p with
  | none => d.undefinedPdu p unit
  | some r =>
    let b := p.frame.data
    let d := d.inc64 0x7100 0x0C 0 r
    let d := if frameLen p.frame ≠ d.pdef 0x08 r then d.inc 0x7100 0x0E 0 r else d
    let spent := 50 + d.checkCost r b.length
    let (d, ok) := d.secureCheck r b
    let (d, ok) := if ok then d.protectCheck r b else (d, false)
    if ¬ ok then (d, spent)
    else
      let (d, x) := d.extractAll p (d.signalsOf r)
      let (d, y) := d.frameRoutesRun p spent (d.frameRoutes r)
      (d, spent + max x y)

/-- The job that the Rose takes next: the first non-empty queue after the one it served last (R267). -/
def Dev.nextQueue (d : Dev) : Option Nat :=
  let busy (q : Nat) : Bool := if q < 40 then !(d.ingress q).isEmpty else if q = 40 then !d.rose.eq.isEmpty || !d.fab.toRose.isEmpty else !d.rose.pq.isEmpty
  ((List.range 42).map (fun k => (d.rose.last + 1 + k) % 42)).find? busy

/-- The Rose works: its clock is not gated (R478). -/
def Dev.roseNext (d : Dev) : Option Nat := if d.dataOn then d.nextQueue else none

/-- At a job boundary, the expiries that are due come first (R316). -/
def Dev.jobStart (d : Dev) : Dev := if d.dataOn then d.expiriesDue else d

/-- A job has ended (R266, Table 11.9). -/
def Dev.jobDone (d : Dev) (q cycles : Nat) : Dev := ((d.roseUpd fun x => { x with last := q }).inc64 0x7000 0x0A).inc64 0x7000 0x0B 0 0 (d.cyclesNs cycles)

/-- Frames that waited in a channel's staging follow into its ingress queue (R232, R251, R270). -/
def Dev.refill (d : Dev) (q : Nat) : Dev :=
  let u := q + 21
  if 16 ≤ (d.ingress q).length then d
  else if q < 24 then
    match (d.chan u).staging with
    | p :: l => (d.setChan u { d.chan u with staging := l }).setIngress q (d.ingress q ++ [p])
    | [] => d
  else
    match (d.lin u).staging with
    | p :: l => (d.setLin u { d.lin u with staging := l }).setIngress q (d.ingress q ++ [p])
    | [] => d

/-- The CMAC engine finds the lines of slots uncorrectable as a job needs their keys (R407). -/
def Dev.cmacLinesLost (d : Dev) (slots : List Nat) : Dev := (slots.filter (fun k => decide (k < 256) && d.cmacRefs k != 0)).foldl Dev.slotLineLost d

/-- ROSE_PDU_JOB (R24, R266, R267, R407): the Rose takes the next PDU, when its next job is a PDU job; the lines of `job.lostSlots` are then found uncorrectable. -/
def execRosePduJob (job : PduJob) (s : State) : Host.Outcome State Fault Refusal :=
  s.portCmd job.time [2] (job.lostSlots.all (· < 256)) fun d =>
    let d := d.jobStart
    match d.roseNext with
    | none => d
    | some q =>
      let d := if q < 41 then d.cmacLinesLost job.lostSlots else d
      if q < 40 then
        match d.ingress q with
        | [] => d
        | x :: l =>
          let u := q + 21
          let at_ := tget (fun _ => 0) d.rose.headAt q
          let lin : Bool := 24 ≤ q
          let w := (unitGI u).2
          let p : RxPdu := {
            kind := b2n lin, ident := if lin then x.frame.ident % 64 else x.frame.ident, busIdent := if lin then x.frame.ident % 64 else x.frame.ident,
            source := w, place := w, busId := 0, frame := if lin then { x.frame with ident := x.frame.ident % 64 } else x.frame, fix := clk16 x.zt, at_ := at_ }
          let d := ((d.setIngress q l).inc64 0x7010 0x05 u).refill q
          let (d, n) := d.pduJob p (some u)
          d.jobDone q n
      else if q = 40 then
        match d.rose.eq with
        | [] => d
        | e :: l =>
          let p : RxPdu := {
            kind := e.kind, ident := e.ident, busIdent := e.srcId, source := 0xE0, place := e.cont, busId := e.busId, frame := e.frame, fix := e.fix, at_ := d.rose.eqAt }
          let d := d.roseUpd fun x => { x with eq := l, eqAt := d.now }
          let (d, n) := d.pduJob p none
          d.jobDone q n
      else d

/-- ROSE_UNPACK_JOB (R270, R295): with E empty, the Rose takes a frame from FP10. -/
def execRoseUnpackJob (t : Nat) (s : State) : Host.Outcome State Fault Refusal :=
  s.portCmd t [2] true fun d =>
    let d := d.jobStart
    match d.roseNext, d.rose.eq, d.fab.toRose with
    | some 40, [], f :: l =>
      let d := d.fabUpd fun x => { x with toRose := l }
      (d.unpack f).jobDone 40 (50 + 8 * cellsOf f.len)
    | _, _, _ => d

/-! Emission jobs (R287, R310 to R313). -/

/-- What a signal inserts (Table 12.2): its value, or the bytes of a large signal. -/
def Dev.insertPdu (d : Dev) (b : Bytes) (n : Nat) : Bytes :=
  let sg := d.rt 0x03 n
  let start := d.rt 0x05 n
  let st := d.sig 0x08 sg
  if d.isLarge sg then putBytes b (start / 8) (d.largeValue sg)
  else insertAt b (d.sigAtBit sg start) (if st = 3 ∨ (st = 0 ∧ d.sfr 0x02 sg = 1) then d.sfr 0x03 sg else d.sig 0x09 sg)

/-- The validity bits of a destination (R310, R319). -/
def Dev.validityBits (d : Dev) (b : Bytes) (routes : List Nat) : Bytes :=
  let l := routes.filter (fun n => d.obj 0x7830 0x02 0 n != 0xFFFF)
  l.foldl (fun b n =>
    let pos := d.obj 0x7830 0x02 0 n
    let bad : Bool := l.any (fun k => d.obj 0x7830 0x02 0 k == pos && d.sig 0x08 (d.rt 0x03 k) != 1)
    putPduBit b pos ((d.obj 0x7830 0x03 0 n == 1) == bad)) b

/-- A signal route's record of an emission (R312, R313, R301). (DEDUCED: log entry 98.) -/
def Dev.emitted (d : Dev) (cycles n : Nat) : Dev :=
  let sg := d.rt 0x03 n
  let s := d.sig 0x0B sg
  let l := d.obj 0x7830 0x04 0 n
  let dd := (s + 65535 - l) % 65535
  let again := tget (fun _ => false) d.rose.carried n
  let d := if again ∧ 2 ≤ dd then d.inc 0x7830 0x05 0 n (dd - 1) else d
  let d := d.roseUpd fun x => { x with carried := tput (fun _ => false) x.carried n true }
  let first : Bool := s != 0 && s != l
  let d := ((d.set 0x7830 0x04 s 0 n).set 0x7830 0x06 (d.sig 0x08 sg) 0 n).inc64 0x7300 0x07 0 n
  if first then d.measured n (d.since (tget (fun _ => 0) d.rose.sigAt sg) + d.cyclesNs cycles) else d

/-- An emission job of a destination (R310): the cycles that it takes. (DESIGN CHOICE: log entry 103.) -/
def Dev.emission (d : Dev) (r : Nat) : Dev × Nat :=
  let routes := d.routesTo r
  if ¬ d.flag 0x7100 0x01 0 r then (d, 50)
  else if routes.any (fun n => let sg := d.rt 0x03 n; d.sfr 0x02 sg == 2 && (d.sig 0x08 sg == 2 || d.sig 0x08 sg == 0)) then (d.withhold r, 50)
  else if d.withheldSec r then ((d.secMissing r).withhold r, 50)
  else
    let len := d.pdef 0x08 r
    let blank : Bytes := List.replicate len (BitVec.ofNat 8 (d.pdef 0x09 r))
    let b := d.validityBits (routes.foldl d.insertPdu blank) routes
    let out := d.secure r (d.protect r b)
    let zt := clk16 d.sex.zt.val
    let d := ((d.inc64 0x7810 0x03 0 r).set 0x7810 0x06 d.ztTime 0 r).roseUpd fun x => { x with lastStart := tput (fun _ => none) x.lastStart r (some d.lt) }
    let cost := 50 + (routes.map (fun n => d.sigCost (d.rt 0x03 n))).sum + 75 + d.checkCost r len
    let (d, res, m) := d.placePdu r out none { busIdent := none, source := 0xF0, fix := zt } false (routes.any (fun n => d.flag 0x7300 0x06 0 n))
    let d := ((d.countPlaced r routes res).protectNext r).secureNext r
    let d := routes.foldl (fun d n => d.emitted (cost + m) n) d
    let d := routes.foldl (fun d n => d.roseUpd fun x => { x with emitted := tput (fun _ => false) x.emitted (d.rt 0x03 n) true }) d
    (d, cost + m)

/-- ROSE_EMISSION_JOB (R266, R293, R310): the head job of P, when it is the Rose's next job. -/
def execRoseEmissionJob (t : Nat) (s : State) : Host.Outcome State Fault Refusal :=
  s.portCmd t [2] true fun d =>
    let d := d.jobStart
    match d.roseNext, d.rose.pq with
    | some 41, j :: _ =>
      let d := d.popP
      if j < 8192 then let (d, n) := d.emission j; d.jobDone 41 n
      else let (d, n) := d.sendCont (j - 8192); d.jobDone 41 (50 + n)
    | _, _ => d

end Sys2Proof.Machine
end

