-- ==== Sys2Proof/Machine/Rose.lean ====
section
/-! DEFINITION. Almanac writes and computed objects of 7000–7FFF: the enables of definitions, signals, routes and containers (R271 to R289, R293, R305, R306, R319 to R324). -/
namespace Sys2Proof.Machine

/-- The first condition that holds decides the code. -/
def firstBad (l : List (Bool × Nat)) : Nat := ((l.find? (·.1)).map (·.2)).getD 0

/-- An enabled Plotter leg names a definition in one of its banks (R306). -/
def Dev.legNames (d : Dev) (r : Nat) : Bool :=
  (List.range 16).any (fun n => d.flag 0x8420 0x01 0 n && d.obj 0x8420 0x03 0 n == 5 && (d.legPdus n).contains r)

/-- An enabled route or signal uses a definition (R288). -/
def Dev.defUsed (d : Dev) (r : Nat) : Bool :=
  (d.enabledRecs 0x7300).any (fun n => d.rt 0x04 n == r || (d.rt 0x02 n == 1 && d.rt 0x03 n == r)) || d.signalsOn.any (fun n => d.sig 0x02 n == r)

/-- The length suits the definition's kind and format (Table 11.2). -/
def Dev.lengthFits (d : Dev) (r : Nat) : Bool :=
  let n := d.pdef 0x08 r
  let fd : Bool := [0, 1, 2, 3, 4, 5, 6, 7, 8, 12, 16, 20, 24, 32, 48, 64].contains n
  n == 0xFFFF || (match d.pdef 0x02 r with
    | 1 => (match d.defUnit r with | some u => n == d.linLen u (d.pdef 0x06 r % 64) | none => true)
    | 2 => decide (n ≤ 2048)
    | 4 => decide (1 ≤ n ∧ n ≤ 8)
    | _ => match d.defFmt r with | 1 => fd | 2 => decide (1 ≤ n ∧ n ≤ 2048) | _ => decide (n ≤ 8))

/-- The identifier suits the definition's kind (Table 11.2). -/
def Dev.identFits (d : Dev) (r : Nat) : Bool :=
  let i := d.pdef 0x06 r
  match d.pdef 0x02 r with | 2 => decide (i ≤ 0xFFFE) | 1 => decide (i < 64) | 4 => decide (i < 64) | _ => true

/-- Two definitions have the same identity (R272). -/
def Dev.sameIdentity (d : Dev) (a b : Nat) : Bool :=
  d.pdef 0x02 a == d.pdef 0x02 b && d.pdef 0x06 a == d.pdef 0x06 b && d.pdef 0x07 a == 0x3FFFFFFF && d.pdef 0x07 b == 0x3FFFFFFF && d.pdef 0x03 a == 0 && d.pdef 0x03 b == 0 &&
    (if d.pdef 0x02 a ≤ 1 then d.pdef 0x04 a == d.pdef 0x04 b else d.pdef 0x05 a == d.pdef 0x05 b && (d.pdef 0x02 a == 2 || d.pdef 0x0B a == d.pdef 0x0B b))

/-- Masked definitions enabled, sources and destinations alike (`A:7000.12`, R272). (DEDUCED: log entry 101.) -/
def Dev.maskedCount (d : Dev) : Nat := ((d.enabledRecs 0x7100).filter (fun r => d.pdef 0x07 r != 0x3FFFFFFF)).length

/-- Largest maximum delta of a profile (R323). -/
def deltaMax (p : Nat) : Nat := match p with | 1 => 7 | 2 => 127 | _ => 32767

/-- Checks of a definition's enable (R271, R272, R321, R323, R324). (DEDUCED: log entry 100.) -/
def Dev.defEnable (d : Dev) (r : Nat) : Nat :=
  let kind := d.pdef 0x02 r
  let n := d.pdef 0x08 r
  let p := d.pex 0x10 r
  let secured := d.flag 0x7810 0x20 0 r
  let a := d.pex 0x23 r
  let cover := if secured then min n a else n
  let (_, hn, _) := profileShape p
  let unit := unitOfW (d.pdef 0x04 r)
  let slot := d.pex 0x21 r
  let span := match p with | 1 => (2, 64) | 2 => (3, 256) | _ => (8, 2048)
  firstBad [
    (kind ≤ 1 && d.pdef 0x04 r == 0xFF, 0x304),
    (kind ≤ 1 && (match unit with | none => true | some u => (kind == 0) != scopeHas .can u), 0x302),
    (2 ≤ kind && d.pdef 0x05 r == 0xFFFF, 0x304),
    (kind == 3 && d.defFmt r == 2, 0x302),
    (n == 0xFFFF && d.pdef 0x03 r == 0, 0x302),
    (n == 0xFFFF && (p != 0 || secured), 0x302),
    (!d.identFits r || !d.lengthFits r, 0x301),
    (p != 0 && (decide (cover < d.pex 0x12 r + hn) || decide (n < span.1) || decide (span.2 < n) || d.pex 0x13 r == 0 || decide (deltaMax p < d.pex 0x13 r)), 0x301),
    (secured && decide (4096 < 2 + a + 8), 0x612),
    (secured && (a + d.pex 0x24 r / 8 + d.pex 0x25 r / 8 != n || decide (2 ^ (d.pex 0x24 r - 1) ≤ d.pex 0x26 r)), 0x301),
    (secured && slot != 0xFF && d.slotFull slot && !bit (d.obj 0xB040 0x03 0 slot) 2, 0x302),
    (d.pdef 0x03 r == 0 && (d.enabledRecs 0x7100).any (fun q => q != r && d.sameIdentity q r), 0x302),
    (secured && slot == 0xFF, 0x304),
    (secured && !d.slotFull slot, 0x610),
    (d.pdef 0x07 r != 0x3FFFFFFF && decide (512 ≤ d.maskedCount), 0x306)]

/-- Bytes that a large signal's mailbox takes (R279). -/
def Dev.largeBytes (d : Dev) (n : Nat) : Nat := if d.isLarge n then cdiv (d.sig 0x04 n / 8) 64 * 64 else 0

/-- Bytes of the large-signal store in use (`A:7000.14`). -/
def Dev.largeUsed (d : Dev) : Nat := (d.signalsOn.map d.largeBytes).sum

/-- Length within which a definition's fields lie: the authentic length when it is secured (R319, R324). -/
def Dev.fieldLen (d : Dev) (r : Nat) : Nat := if d.flag 0x7810 0x20 0 r then min (d.pdef 0x08 r) (d.pex 0x23 r) else d.pdef 0x08 r

/-- Checks of a signal's enable (R278, R279, R324). (DEDUCED: log entry 100.) -/
def Dev.signalEnable (d : Dev) (n : Nat) : Nat :=
  let s := d.sig 0x02 n
  firstBad [
    (d.isLarge n && d.sig 0x03 n % 8 != 0, 0x302),
    (d.isLarge n && d.sfr 0x02 n == 1, 0x302),
    (!insideBytes (d.sigAtBit n (d.sig 0x03 n)) (d.fieldLen s), 0x301),
    (!d.flag 0x7100 0x01 0 s || d.pdef 0x03 s != 0, 0x304),
    (decide (8 * 2 ^ 20 < d.largeUsed + d.largeBytes n), 0x306)]

/-- Bits of a destination that a signal route fills. -/
def Dev.routeBits (d : Dev) (n : Nat) : List Nat := d.sigAtBit (d.rt 0x03 n) (d.rt 0x05 n)

/-- Validity-bit checks of a route (R319). -/
def Dev.validityCheck (d : Dev) (n : Nat) : Nat :=
  let v := d.obj 0x7830 0x02 0 n
  let dest := d.rt 0x04 n
  let others := (d.routesTo dest).filter (· ≠ n)
  let o := d.pex 0x12 dest
  let header : Bool := d.pex 0x10 dest != 0 && decide (o ≤ v / 8 ∧ v / 8 < o + (profileShape (d.pex 0x10 dest)).2.1)
  if d.rt 0x02 n = 1 then (if v ≠ 0xFFFF then 0x302 else 0)
  else firstBad [
    (v == 0xFFFF && d.sfr 0x02 (d.rt 0x03 n) == 3, 0x304),
    (v != 0xFFFF && decide (8 * d.fieldLen dest ≤ v), 0x301),
    (v != 0xFFFF && (header || (n :: others).any (fun k => (d.routeBits k).contains v)), 0x302),
    (v != 0xFFFF && others.any (fun k => d.obj 0x7830 0x02 0 k == v && d.obj 0x7830 0x03 0 k != d.obj 0x7830 0x03 0 n), 0x302),
    (others.any (fun k => d.obj 0x7830 0x02 0 k != 0xFFFF && (d.routeBits n).contains (d.obj 0x7830 0x02 0 k)), 0x302)]

/-- A definition of kind 0 or 3 is a CC remote frame; an XL frame. -/
def Dev.isFormat (d : Dev) (fmt r : Nat) : Bool := (d.pdef 0x02 r == 0 || d.pdef 0x02 r == 3) && d.defFmt r == fmt

/-- The route's destination does not fit its container, or a remote or XL rule forbids it (R283, R286). -/
def Dev.kindMismatch (d : Dev) (n : Nat) : Bool :=
  let dest := d.rt 0x04 n
  let kind := d.pdef 0x02 dest
  let fmt := d.cont 0x03 (d.pdef 0x05 dest)
  let s := d.rt 0x03 n
  (2 ≤ kind && isTunnel fmt != (3 ≤ kind)) || (d.rt 0x02 n == 1 && (d.isFormat 3 s != d.isFormat 3 dest || (d.isFormat 2 s && kind == 3)))

/-- Checks of a route's enable (Table 11.5, R285, R305, R319). -/
def Dev.routeEnable (d : Dev) (n : Nat) : Nat :=
  let dest := d.rt 0x04 n
  let s := d.rt 0x03 n
  let frame := d.rt 0x02 n == 1
  let source : Bool := if frame then decide (s < 8192) && d.flag 0x7100 0x01 0 s && d.pdef 0x03 s == 0 else d.flag (0x7200 + s / 32768) 0x01 0 (s % 32768)
  let publish : Bool := d.pdef 0x02 dest != 1 || (match d.defUnit dest with | some u => d.obj 0x6820 0x01 u (d.pdef 0x06 dest % 64) == 1 | none => false)
  let rest := firstBad [
    (!source || !d.flag 0x7100 0x01 0 dest || d.pdef 0x03 dest != 1 || !publish, 0x304),
    (d.obj 0x7100 0x10 0 dest != 0 && d.obj 0x7100 0x10 0 dest != d.rt 0x02 n, 0x302),
    (d.kindMismatch n || (frame && d.pex 0x01 dest != 0), 0x302),
    (!frame && d.pdef 0x08 dest == 0xFFFF, 0x302),
    (!frame && !insideBytes (d.routeBits n) (d.fieldLen dest), 0x301),
    (!frame && (d.routesTo dest).any (fun k => k != n && (d.routeBits k).any (d.routeBits n).contains), 0x302),
    (!frame && d.isLarge s && d.rt 0x05 n % 8 != 0, 0x302)]
  if rest ≠ 0 then rest else d.validityCheck n

/-- Staging bytes of a container (R293). -/
def Dev.stagingBytes (d : Dev) (c : Nat) : Nat := if d.cont 0x02 c = 0 then cdiv (d.cont 0x0C c) 64 * 64 else 0

/-- Bytes of the staging pool in use (`A:7000.13`). -/
def Dev.stagingUsed (d : Dev) : Nat := ((d.enabledRecs 0x7400).map d.stagingBytes).sum

/-- Checks of a container's enable (R293, R299, R348, Table 11.9). (DESIGN CHOICE: log entry 47.) -/
def Dev.contEnable (d : Dev) (c : Nat) : Nat :=
  let fmt := d.cont 0x03 c
  let f := d.cont 0x13 c
  let tx : Bool := d.cont 0x02 c == 0
  let others := (d.enabledRecs 0x7400).filter (· ≠ c)
  let own : Bool := if fmt = 0 then d.obj 0x7000 0x08 != 0 else d.obj 0x7000 0x09 != 0
  firstBad [
    (!tx && others.any (fun k => d.cont 0x02 k == 1 && d.cont 0x03 k == fmt && d.cont 0x04 k == d.cont 0x04 c), 0x302),
    (decide (fmt ≤ 1) && (!own || (tx && d.cont 0x09 c == 0)), 0x304),
    (fmt == 4 && (decide (64 ≤ f) || d.obj 0x9010 0x03 0 f != 2 || d.obj 0x9010 0x02 0 f != d.cont 0x02 c), 0x304),
    (fmt == 4 && others.any (fun k => d.cont 0x03 k == 4 && d.cont 0x02 k == d.cont 0x02 c && d.cont 0x13 k == f), 0x305),
    (decide (512 * 1024 < d.stagingUsed + d.stagingBytes c), 0x306)]

/-! Checks 10 to 13. -/

/-- Check 10 of 7000–7FFF beyond type and range. -/
def Dev.roseValue (d : Dev) (idx sub r v : Nat) : Nat :=
  match idx, sub with
  | 0x7100, 0x04 => if v = 0xFF ∨ (unitOfW v).isSome then 0 else 0x301
  | 0x7200, 0x03 => if v < 8 * d.pdef 0x08 (d.sig 0x02 r) then 0 else 0x301
  | 0x7201, 0x03 => if v < 8 * d.pdef 0x08 (d.sig 0x02 (r + 32768)) then 0 else 0x301
  | 0x7200, 0x04 => if (1 ≤ v ∧ v ≤ 64) ∨ (72 ≤ v ∧ v ≤ 16384 ∧ v % 8 = 0) then 0 else 0x301
  | 0x7201, 0x04 => if (1 ≤ v ∧ v ≤ 64) ∨ (72 ≤ v ∧ v ≤ 16384 ∧ v % 8 = 0) then 0 else 0x301
  | 0x7820, 0x01 => if v = 0 ∨ (100 ≤ v ∧ v ≤ 60000000 ∧ v % 10 = 0) then 0 else 0x301
  | 0x7821, 0x01 => if v = 0 ∨ (100 ≤ v ∧ v ≤ 60000000 ∧ v % 10 = 0) then 0 else 0x301
  | 0x7820, 0x02 => if v = 1 ∧ d.isLarge r then 0x302 else 0
  | 0x7821, 0x02 => if v = 1 ∧ d.isLarge (r + 32768) then 0x302 else 0
  | 0x7810, 0x13 => if v = 0 ∨ deltaMax (d.pex 0x10 r) < v then 0x301 else 0
  | 0x7810, 0x20 => if v = 1 ∧ 4096 < 2 + d.pex 0x23 r + 8 then 0x612 else 0
  | 0x7810, 0x23 => if d.flag 0x7810 0x20 0 r ∧ 4096 < 2 + v + 8 then 0x612 else 0
  | 0x7810, 0x26 => if v = 0 ∨ 2 ^ (d.pex 0x24 r - 1) ≤ v then 0x301 else 0
  | _, _ => 0

/-- Check 11 of 7000–7FFF: the owning record is disabled (R289, R330). -/
def Dev.roseStopped (d : Dev) (idx r : Nat) : Bool :=
  match idx with
  | 0x7100 => !d.flag 0x7100 0x01 0 r
  | 0x7810 => !d.flag 0x7100 0x01 0 r
  | 0x7200 => !d.flag 0x7200 0x01 0 r
  | 0x7820 => !d.flag 0x7200 0x01 0 r
  | 0x7201 => !d.flag 0x7201 0x01 0 r
  | 0x7821 => !d.flag 0x7201 0x01 0 r
  | 0x7300 => !d.flag 0x7300 0x01 0 r
  | 0x7830 => !d.flag 0x7300 0x01 0 r
  | 0x7400 => !d.flag 0x7400 0x01 0 r
  | _ => true

/-- A signal's disable: an enabled signal route still uses it (R288). -/
def Dev.signalUsed (d : Dev) (n : Nat) : Bool := !(d.sigRoutes n).isEmpty

/-- Checks 12 and 13 of 7000–7FFF; the checks of an enable stand here together. -/
def Dev.roseDeps (d : Dev) (idx sub u r v : Nat) : Nat :=
  let on := d.flag idx 0x01 u r
  match idx, sub with
  | 0x7000, 0x06 => if v = d.obj 0x1040 0x02 then 0x305 else 0
  | 0x7010, 0x02 => if v = 0xFFFF ∨ (v < 2048 ∧ d.cont 0x03 v = 4 ∧ d.cont 0x02 v = 0) then 0 else 0x304
  | 0x7100, 0x01 => if v = 1 then (if on then 0 else d.defEnable r) else if on ∧ (d.defUsed r ∨ d.legNames r) then 0x304 else 0
  | 0x7200, 0x01 => if v = 1 then (if on then 0 else d.signalEnable r) else if on ∧ d.signalUsed r then 0x304 else 0
  | 0x7201, 0x01 => if v = 1 then (if on then 0 else d.signalEnable (r + 32768)) else if on ∧ d.signalUsed (r + 32768) then 0x304 else 0
  | 0x7200, 0x02 => if d.pdef 0x03 v = 0 then 0 else 0x304
  | 0x7201, 0x02 => if d.pdef 0x03 v = 0 then 0 else 0x304
  | 0x7300, 0x01 => if v = 1 ∧ ¬ on then d.routeEnable r else 0
  | 0x7400, 0x01 => if v = 1 ∧ ¬ on then d.contEnable r else 0
  | 0x7810, 0x01 => if (v = 0 ∨ v = 2) ∧ d.legNames r then 0x304 else 0
  | _, _ => 0

/-! What accepted writes do. -/

/-- A definition starts: its protection and freshness begin anew (R322, R323, R325). -/
def Dev.defOn (d : Dev) (r : Nat) : Dev :=
  (((d.set 0x7100 0x01 1 0 r).set 0x7810 0x15 0 0 r).set 0x7810 0x16 0 0 r).roseUpd fun x => { x with
    protSet := tput (fun _ => false) x.protSet r false, fvSet := tput (fun _ => false) x.fvSet r false }

/-- A definition stops: its job and its deferred change are withdrawn. -/
def Dev.defOff (d : Dev) (r : Nat) : Dev :=
  (((d.set 0x7100 0x01 0 0 r).set 0x7810 0x07 0 0 r).dropP r).roseUpd fun x => { x with release := tput (fun _ => 0) x.release r 0 }

/-- A mailbox begins at NEVER RECEIVED with a value (R280, R281). -/
def Dev.mailboxNew (d : Dev) (n value : Nat) : Dev :=
  ((((d.setSig 0x08 n 0).setSig 0x09 n value).setSig 0x0A n 0).setSig 0x0B n 0).roseUpd fun x => { x with
    large := tput (fun _ => []) x.large n [], emitted := tput (fun _ => false) x.emitted n false, fresh := tput (fun _ => none) x.fresh n none,
    sigAt := tput (fun _ => 0) x.sigAt n 0 }

/-- A signal is enabled or disabled (R280, R281). -/
def Dev.signalSwitch (d : Dev) (n v : Nat) : Dev :=
  let was := d.sig 0x01 n
  if v = was then d
  else (d.setSig 0x01 n v).mailboxNew n (if v = 1 ∧ ¬ d.isLarge n then d.sig 0x07 n else 0)

/-- A route is enabled or disabled; `A:7100.10` of its destination follows (R287, R312). -/
def Dev.routeSwitch (d : Dev) (n v : Nat) : Dev :=
  let dest := d.rt 0x04 n
  if v = b2n (d.flag 0x7300 0x01 0 n) then d
  else
    let d := d.set 0x7300 0x01 v 0 n
    if v = 1 then (((d.set 0x7830 0x04 0 0 n).set 0x7830 0x06 0 0 n).roseUpd fun x => { x with carried := tput (fun _ => false) x.carried n false }).set 0x7100 0x10 (d.rt 0x02 n) 0 dest
    else if (d.enabledRecs 0x7300).any (fun k => d.rt 0x04 k == dest) then d
    else d.set 0x7100 0x10 0 0 dest

/-- A container is enabled or disabled: its staging is empty and its sequence begins anew (R290, R293, R296). (DEDUCED: log entry 92.) -/
def Dev.contSwitch (d : Dev) (c v : Nat) : Dev :=
  if v = b2n (d.flag 0x7400 0x01 0 c) then d
  else ((d.set 0x7400 0x01 v 0 c).dropP (8192 + c)).roseUpd fun x => { x with
    staged := tput (fun _ => []) x.staged c [], stagedAt := tput (fun _ => 0) x.stagedAt c 0, seqSet := tput (fun _ => false) x.seqSet c false }

/-- What an accepted write of 7000–7FFF does. -/
def Dev.roseApply (d : Dev) (idx sub u r v : Nat) : Dev :=
  match idx, sub with
  | 0x7100, 0x01 => if v = b2n (d.flag 0x7100 0x01 0 r) then d else if v = 1 then d.defOn r else d.defOff r
  | 0x7200, 0x01 => d.signalSwitch r v
  | 0x7201, 0x01 => d.signalSwitch (r + 32768) v
  | 0x7300, 0x01 => d.routeSwitch r v
  | 0x7400, 0x01 => d.contSwitch r v
  | 0x7800, 0x41 =>
    let d := d.set idx sub v u r
    let units := (List.range 40).map (· + 21)
    if v = 1 then units.foldl (fun d k => if d.wRuns k then d else d.freshRun k false) d else units.foldl (fun d k => d.freshRun k true) d
  | _, _ => d.set idx sub v u r

/-- Objects of 7000–7FFF that are computed when they are read. -/
def Dev.roseView (d : Dev) (idx sub u r : Nat) : Option Nat :=
  match idx, sub with
  | 0x7000, 0x12 => some d.maskedCount
  | 0x7000, 0x13 => some d.stagingUsed
  | 0x7000, 0x14 => some d.largeUsed
  | 0x7010, 0x03 => some (d.ingress (u - 21)).length
  | 0x7300, 0x0A => some (d.routeBound r)
  | 0x7800, 0x01 => some d.rose.pq.length
  | 0x7810, 0x08 => some (d.emissionBound r)
  | _, _ => none

end Sys2Proof.Machine
end

