-- ==== Sys2Proof/Machine/Sextant.lean ====
section
/-! DEFINITION. The Sextant: tracked domains and their servos, zone time and changeover, gPTP messages and the PPS pins (R66 to R94). -/
namespace Sys2Proof.Machine

/-- A control-processor pair runs its services (R29). -/
def Dev.cpUp (d : Dev) (k : Nat) : Bool := (tget (fun _ => ({} : PairSt)) d.pairs k).state == 0

/-- 2^-48 of a value in 10^-9. -/
def ppb48 (v : Nat) : Int := ((v * 2 ^ 48 / 1000000000 : Nat) : Int)

/-- A rate of 2^-48 in units of 10^-12, as the objects show it: to the nearest unit. (DESIGN CHOICE: log entry 173.) -/
def rate12 (r : Int) : Nat := ofI32 (rdiv (r * 1000000000000) (2 ^ 48))

/-- Zone time is this member's own: it is the lead, stand-alone, or has had no time message yet (R364, R365). -/
def Dev.ownZone (d : Dev) : Bool := decide (d.obj 0x9430 0x01 < 2)

/-- A time in ps as 2^-48 ns. -/
def ps48 (p : Int) : Int := p * 2 ^ 48 / 1000

/-- Length of `n` intervals of 2^log seconds in time-clock periods. -/
def intervalsOf (n : Nat) (log : Int) : Nat :=
  if log < 0 then n * perS / 2 ^ log.natAbs else n * perS * 2 ^ log.natAbs

/-! Zone time (R83 to R88). -/

/-- Replace zone time's clock. -/
def Dev.setZt (d : Dev) (c : Clock) : Dev := d.sexUpd fun x => { x with zt := c }

/-- Enter a zone state; `A:8000.0B` shows the clockClass of Table 3.3. -/
def Dev.setZone (d : Dev) (v : Nat) : Dev :=
  let d := d.sexUpd fun x => { x with stateAt := d.now }
  (d.set 0x8000 0x03 v).set 0x8000 0x0B (if v = 0 then 248 else if v = 4 then 7 else 6)

/-- State of a tracked domain (Table 3.4). -/
def Dev.domState (d : Dev) (k : Nat) : Nat := d.obj 0x8020 0x05 0 k

/-- Start a blend towards domain `k` (R85); while CP2 restarts its rate is held from its start (R89). The time of the last zone state change is that of the start, also of a restarted blend. (DESIGN CHOICE: log entry 205.) -/
def Dev.startBlend (d : Dev) (k : Nat) : Dev :=
  let b : Blend := { start := d.now, r0 := d.sex.zt.rate, tb := d.obj 0x8030 0x01 * perMs, target := k, shown := d.obj 0x8030 0x07, again := d.sex.blend.isSome, frozen := if d.cpUp 2 then none else some d.now }
  let d := d.sexUpd fun x => { x with blend := some b }
  ((d.setZone 3).inc 0x8030 0x05).set 0x8030 0x07 d.ltTime

/-- Mean of the recorded zone rates, the present rate when there is none (R87). -/
def Dev.meanRate (d : Dev) : Int :=
  let l := d.sex.rzHist.take (d.obj 0x8030 0x44)
  if l = [] then d.sex.zt.rate else rdiv l.sum l.length

/-- Enter DEAD RECKONING with a held rate (R87). -/
def Dev.deadReckon (d : Dev) (rhold : Int) : Dev :=
  let d := d.sexUpd fun x => { x with blend := none, zt := { d.sex.zt with rate := rhold } }
  (d.setZone 4).inc 0x8030 0x06

/-- A tracked domain is lost: receipt timeout, grandmaster change, disable, or unlock of a blend's target (Table 3.7). -/
def Dev.domainLost (d : Dev) (k : Nat) (unlock : Bool := false) : Dev :=
  let other := 1 - k
  let otherLocked : Bool := d.domState other = 3
  if ¬ d.ownZone then d
  else match d.obj 0x8000 0x03, d.sex.blend with
  | 3, some b =>
    if b.target = k then
      (if b.start = d.now ∧ ¬ otherLocked then
        -- both domains lost in the tick of the changeover: no blend took place
        ((d.set 0x8030 0x05 ((d.obj 0x8030 0x05 + 2 ^ 32 - 1) % 2 ^ 32)).set 0x8030 0x07 b.shown).deadReckon (if b.again then d.sex.zt.rate else d.meanRate)
       else if otherLocked then d.startBlend other
       else d.deadReckon d.sex.zt.rate)
    else d
  | st, _ =>
    if (st = 1 ∨ st = 2) ∧ d.obj 0x8000 0x04 = k + 1 ∧ ¬ unlock then
      (if otherLocked then d.startBlend other else d.deadReckon d.meanRate)
    else d

/-- Value in 2^-48 ns of the counter a PPS record selects. -/
def Dev.ppsCounter (d : Dev) (pin : Nat) : Int :=
  match d.obj 0x8050 0x02 0 pin with
  | 0 => d.sex.zt.val
  | 1 => d.sex.d1.clk.val
  | 2 => d.sex.d2.clk.val
  | _ => (lt16 d.lt : Int) * 2 ^ 32

/-- The integer second that the counter plus the pad delay has reached. -/
def Dev.ppsSec (d : Dev) (pin : Nat) : Int := (d.ppsCounter pin + ps48 (d.obj 0x8050 0x05 0 pin)) / (1000000000 * 2 ^ 48)

/-- After a step of a counter, the next pulse of a pin on it comes at the first integer second after the step (R90). (DESIGN CHOICE: log entry 56.) -/
def Dev.ppsSkip (d : Dev) (src : Nat) : Dev :=
  (List.range 2).foldl (fun d k =>
    if d.obj 0x8050 0x02 0 k = src then (d.sexUpd fun x => { x with ppsSecond := d.sex.ppsSecond.set k (d.ppsSec k) }) else d) d

/-- Zone time steps by `-e` (R84); the legs on zone time rephase and PPS pulses of skipped seconds are not sent. -/
def Dev.zoneStep (d : Dev) (e : Int) : Dev :=
  let x0 := d.sourceVal 0
  let d := d.setZt { d.sex.zt with val := d.sex.zt.val - e }
  (d.sourceStep 0 x0 (d.sourceVal 0)).ppsSkip 0

/-- Enter TRACKING of domain `k`. (DEDUCED: log entry 53.) -/
def Dev.track (d : Dev) (k : Nat) : Dev :=
  let d := d.sexUpd fun x => { x with blend := none, rzHist := [], tracked := true }
  (d.setZone (k + 1)).set 0x8000 0x04 (k + 1)

/-- One R83 update at a Sync of the selected domain `k`: zone offset `e` at the Sync's stamp and the advance `dm` of M since the Sync before; `first` at the transition out of FREE RUN. At an update that steps, the offset left is 0. (DESIGN CHOICE: log entry 202.) -/
def Dev.zoneUpdate (d : Dev) (k : Nat) (e dm : Int) (first : Bool) : Dev :=
  let d := d.set 0x8030 0x08 (ofI32 (clkNs e))
  let beyond : Bool := decide ((d.obj 0x8030 0x43 : Int) * 2 ^ 48 < (absN e : Int))
  let stepNow : Bool := beyond && (first || d.flag 0x8030 0x42)
  let d := if stepNow then d.zoneStep e else d
  let d := if stepNow && !first then d.inc 0x8030 0x09 else d
  let e' := if stepNow then 0 else e
  if dm ≤ 0 then d
  else
    let corr := clampI (- rdiv (e' * 2 ^ 48) (dm * 2 ^ d.obj 0x8030 0x41)) (ppb48 (d.obj 0x8030 0x02))
    let rz := (d.sex.dom k).clk.rate + corr
    d.sexUpd fun x => { x with zt := { d.sex.zt with rate := rz }, rzHist := (rz :: d.sex.rzHist).take 64 }

/-- A domain has reached LOCKED (R84, Table 3.7). Answers whether zone time just left FREE RUN with it. When D1 locks in the same tick, D1 is taken. -/
def Dev.domainLocked (d : Dev) (k : Nat) (d1 : Bool) : Dev × Bool :=
  if ¬ d.ownZone ∨ (k = 1 ∧ d1) then (d, false)
  else match d.obj 0x8000 0x03 with
  | 0 => (d.track k, true)
  | 4 => (d.startBlend k, false)
  | _ => (d, false)

/-! Tracked domains (R76, R81, R82). -/

/-- Replace a tracked domain. -/
def Dev.setDom (d : Dev) (k : Nat) (x : DomSt) : Dev := { d with sex := d.sex.setDom k x }

/-- Enter a domain state; an exit from LOCKED counts in `A:8020.13`. -/
def Dev.setDomState (d : Dev) (k v : Nat) : Dev :=
  let d := if d.domState k = 3 ∧ v ≠ 3 then d.inc 0x8020 0x13 0 k else d
  d.set 0x8020 0x05 v 0 k

/-- The domain clock steps by `-theta`; legs on it rephase (R76, R108). -/
def Dev.domStep (d : Dev) (k : Nat) (theta : Int) : Dev :=
  let x0 := d.sourceVal (k + 1)
  let y := d.sex.dom k
  let d := (d.setDom k { y with clk := { y.clk with val := y.clk.val - theta } }).inc 0x8020 0x12 0 k
  (d.sourceStep (k + 1) x0 (d.sourceVal (k + 1))).ppsSkip (k + 1)

/-- Rate and integrator after a Sync in running state (R81): term is theta / (M[n] − M[n−1]) in 2^-48. (DESIGN CHOICE: log entry 49.) -/
def servoRun (kp ki : Nat) (rmax integ term : Int) : Int × Int :=
  let i1 := integ + rdiv term (2 ^ ki)
  let r1 := - (rdiv term (2 ^ kp) + i1)
  if absN r1 ≤ rmax.toNat then (r1, i1)
  else (clampI (- (rdiv term (2 ^ kp) + integ)) rmax, integ)

/-- Rate and integrator from the two Syncs of a seed (R82): err is the fractional frequency error measured between them in 2^-48. (DESIGN CHOICE: log entry 49.) -/
def servoSeed (rmax rate err : Int) : Int × Int :=
  let r1 := rate - err
  let r := clampI r1 rmax
  (r, - r)

/-- The domain servo and state machine take a Sync with its origin: stamps of the domain clock and of zone time, and M, all in 2^-48 ns; `d1` says that D1 locks in this tick. -/
def Dev.servo (d : Dev) (d1 : Bool) (k : Nat) (dst zst m : Int) : Dev :=
  let x := d.sex.dom k
  let st := d.domState k
  if st = 0 then d
  else if st = 1 ∧ ¬ x.gotAnn then d.setDom k { x with gotSync := true }
  else
    let entering : Bool := st = 1
    let x := if entering then { x with gotSync := true, seed := 0, lockRun := 0, unlockRun := 0, syncAt := d.now, annAt := d.now } else x
    let d := if entering then (d.setDom k x).setDomState k 2 else d
    let d := d.inc 0x8020 0x0F 0 k
    let st := d.domState k
    let theta := dst - m
    let dm := m - x.mPrev
    let haveDm : Bool := x.seed ≠ 0 && decide (0 < dm)
    let d := d.set 0x8020 0x06 (ofI32 (clkNs theta)) 0 k
    let rmax := ppb48 (d.obj 0x8020 0x43 0 k)
    let mag : Int := (absN theta : Int)
    let stepped : Bool := st = 2 && decide ((d.obj 0x8020 0x0E 0 k : Int) * 2 ^ 48 < mag)
    -- rate, integrator and seed
    let d := if stepped then d.domStep k theta else d
    let y := d.sex.dom k
    let y : DomSt :=
      if stepped then { y with seed := 1, mPrev := m, dPrev := m }
      else if x.seed = 0 then { y with seed := 1, mPrev := m, dPrev := dst }
      else if dm ≤ 0 then { y with mPrev := m, dPrev := dst }
      else if x.seed = 1 then
        let (r, i) := servoSeed rmax y.clk.rate (rdiv (((dst - x.dPrev) - dm) * 2 ^ 48) dm)
        { y with seed := 2, integ := i, clk := { y.clk with rate := r }, mPrev := m, dPrev := dst }
      else
        let (r, i) := servoRun (d.obj 0x8020 0x41 0 k) (d.obj 0x8020 0x42 0 k) rmax y.integ (rdiv (theta * 2 ^ 48) dm)
        { y with integ := i, clk := { y.clk with rate := r }, mPrev := m, dPrev := dst }
    -- lock and unlock
    let small : Bool := decide (mag < (d.obj 0x8020 0x0B 0 k : Int) * 2 ^ 48)
    let big : Bool := decide ((d.obj 0x8020 0x0D 0 k : Int) * 2 ^ 48 < mag)
    let lockRun := if st = 2 ∧ small then x.lockRun + 1 else 0
    let unlockRun := if st = 3 ∧ big then x.unlockRun + 1 else 0
    let locks : Bool := st = 2 && decide (d.obj 0x8020 0x0C 0 k ≤ lockRun)
    let unlocks : Bool := st = 3 && decide (2 ≤ unlockRun)
    let y := { y with lockRun := if locks then 0 else lockRun, unlockRun := if unlocks then 0 else unlockRun,
                      lockedAt := if locks then d.now else y.lockedAt }
    let d := d.setDom k y
    let d := d.set 0x8020 0x07 (rate12 y.clk.rate) 0 k
    let d := if unlocks then (d.setDomState k 2).domainLost k true else d
    let (d, first) := if locks then (d.setDomState k 3).domainLocked k d1 else (d, false)
    -- zone time follows the selected domain
    if d.ownZone ∧ (d.obj 0x8000 0x03 = 1 ∨ d.obj 0x8000 0x03 = 2) ∧ d.obj 0x8000 0x04 = k + 1 then
      d.zoneUpdate k (zst - (if stepped then dst - theta else dst)) (if haveDm then dm else 0) first
    else d

/-- Port unit of the slave port of a domain. -/
def Dev.slaveUnit (d : Dev) (k : Nat) : Nat := uN (d.obj 0x8020 0x03 0 k)

/-- A stamp corrected by the receive latency of a port in ps (R70); the device's own fixed paths are taken as none. (DESIGN CHOICE: log entry 201.) -/
def Dev.rxStamp (d : Dev) (u : Nat) (v : Int) : Int := v - ps48 (d.obj 0x8040 0x03 u)

/-- M of R81: origin in ns, correction in 2^-16 ns, mean link delay and asymmetry of the slave port in ps. (PRESUMED: log entry 51.) -/
def Dev.masterTime (d : Dev) (u origin : Nat) (corr : Int) : Int :=
  (origin : Int) * 2 ^ 48 + corr * 2 ^ 32 + ps48 ((d.obj 0x8040 0x07 u : Int) + toI32 (d.obj 0x8040 0x05 u))

/-- Ports of a mask of R74, as unit numbers. -/
def maskUnits (m : Nat) : List Nat := ((List.range 22).filter (fun i => bit m i)).map unitOfPort

/-- Whether a port sends and accepts Sync (R78). -/
def Dev.syncPort (d : Dev) (u : Nat) : Bool := d.flag 0x8040 0x01 u && d.flag 0x8040 0x09 u

/-! gPTP frames of the device (R79, R80, R128). -/

/-- Type of a message and length of its frame without FCS. (PRESUMED: log entry 163.) -/
def ptpForm (kind : Nat) (oneStep : Bool) : Nat × Nat :=
  match kind with
  | 0 => (0, if oneStep then 90 else 58)
  | 1 => (8, 90)
  | 2 => (11, 90)
  | 3 => (2, 68)
  | 4 => (3, 68)
  | _ => (10, 68)

/-- A gPTP frame waits at FP11 for its egress port (R128). What the message says stands in its job: a stamp is inserted as the frame leaves (R79). The bytes held are its header; no unit reads those after it. -/
def Dev.sendPtp (d : Dev) (u : Nat) (m : PtpOut) (relay : Option (Nat × Int)) : Dev :=
  let (ty, len) := ptpForm m.kind m.oneStep
  let b : Bytes := beBytes 6 0x0180C200000E ++ beBytes 6 (Config.portMac u) ++ beBytes 2 0x88F7 ++ [BitVec.ofNat 8 ty] ++ List.replicate (len - 15) 0
  d.offerCp { d.fp11Frame (portOfUnit u) b with asIs := true, ptp := some { msg := { m with port := u }, relay := relay } }

/-- Send one Sync on a port: one-step with the fields inserted, or two-step with a Follow_Up from CP2 (R79, R89). (DESIGN CHOICE: log entry 174.) -/
def Dev.sendSync (d : Dev) (u : Nat) (m : PtpOut) (relay : Option (Nat × Int)) : Dev :=
  if d.flag 0x8040 0x02 u then d.sendPtp u { m with oneStep := true } relay
  else if d.cpUp 2 then d.sendPtp u { m with oneStep := false } relay
  else d

/-- Peer delay state of a port. (DESIGN CHOICE: log entry 176.) -/
def Dev.pd (d : Dev) (u : Nat) : PdelaySt := tget (fun _ => {}) d.sex.pdelay u

/-- Replace the peer delay state of a port. -/
def Dev.setPd (d : Dev) (u : Nat) (p : PdelaySt) : Dev :=
  d.sexUpd fun x => { x with pdelay := tput (fun _ => {}) d.sex.pdelay u p }

/-- A time in ps as 2^-16 ns. -/
def ps16 (p : Int) : Int := p * 65536 / 1000

/-- The first symbol of a frame leaves at a port: a gPTP frame takes its egress stamp, and the Sextant writes the originTimestamp of a zone Sync, or what a relayed Sync has gathered, into the frame as it streams (R70, R75, R77, R79). A two-step Sync carries what its Follow_Up says. (DESIGN CHOICE: log entries 50, 174.) -/
def Dev.ptpStart (d : Dev) (u : Nat) (f : Frame) : Dev × Frame :=
  match f.ptp with
  | none => (d, f)
  | some j =>
    let lat := d.obj 0x8040 0x04 u
    let lt := lt16 d.lt + (ps16 lat).toNat
    let m : PtpOut := match j.msg.kind, j.relay with
      | 0, none => { j.msg with origin := clk16 (d.sex.zt.val + ps48 lat) }
      | 0, some (k, came) =>
        let r := (d.sex.dom k).clk.rate
        { j.msg with corr := j.msg.corr + rdiv (((lt : Int) - came) * (2 ^ 48 + r)) (2 ^ 48) + ps16 (d.obj 0x8040 0x07 (d.slaveUnit k)),
                     rate := rdiv (j.msg.rate * 2 ^ 48 + r * 2 ^ 41 + j.msg.rate * r) (2 ^ 48) }
      | _, _ => j.msg
    let d := if m.kind = 0 ∧ m.oneStep then d.inc 0x8040 0x0C u else d
    let d := if m.kind = 3 then d.setPd u { d.pd u with sentAt := some d.lt } else d
    (d, { f with ptp := some { j with msg := m, stamp := lt } })

/-- A gPTP frame has left whole: what it said, the count of R75, and the message that carries its stamp (R79). -/
def Dev.ptpSent (d : Dev) (u : Nat) (j : PtpJob) : Dev :=
  let m := j.msg
  let d := d.out (.ptp m)
  let d := if m.kind = 0 ∧ j.relay.isNone then d.inc 0x8010 0x09 else if m.kind = 2 ∧ j.relay.isNone then d.inc 0x8010 0x0A else d
  if m.kind = 0 ∧ ¬ m.oneStep ∧ d.cpUp 2 then d.sendPtp u { m with kind := 1 } none
  else if m.kind = 4 ∧ d.cpUp 2 then d.sendPtp u { m with kind := 5, origin := j.stamp } none
  else d

/-- A Sync of domain `k` that came at local time `came` is relayed on the relay ports of the domain (R77). -/
def Dev.relaySync (d : Dev) (k : Nat) (m : PtpMsg) (came : Int) (origin : Nat) (corr : Int) : Dev :=
  (maskUnits (d.obj 0x8020 0x04 0 k)).foldl (fun d u =>
    if d.syncPort u then
      d.sendSync u { port := u, kind := 0, domain := m.domain, seq := m.seq, oneStep := true, origin := origin * 65536, corr := corr,
                     rate := m.rate, prio1 := 0, prio2 := 0, utc := 0, clockClass := 0, gm := d.obj 0x8020 0x08 0 k } (some (k, came))
    else d) d

/-- Domains that a message on a port belongs to as slave port. (DEDUCED: log entry 52.) -/
def Dev.slaveDomains (d : Dev) (m : PtpMsg) : List Nat :=
  (List.range 2).filter (fun k => d.domState k ≠ 0 ∧ d.obj 0x8020 0x02 0 k = m.domain ∧ d.slaveUnit k = m.port)

/-- Local time of a stamp taken at a port, in 2^-16 ns (R70); the device's own fixed paths are taken as none. (DESIGN CHOICE: log entry 201.) -/
def Dev.cameAt (d : Dev) (u at_ : Nat) : Int := lt16 at_ - ps16 (d.obj 0x8040 0x03 u)

/-- What a received Sync does: it restarts the Sync receipt timeout; a one-step Sync feeds the servo and is relayed, a two-step Sync waits for its Follow_Up. -/
def Dev.syncEffect (d : Dev) (d1 : Bool) (m : PtpMsg) : Dev :=
  if ¬ d.syncPort m.port then d
  else (d.slaveDomains m).foldl (fun d k =>
    let came := d.cameAt m.port d.lt
    if d.cpUp 2 then
      let x := { d.sex.dom k with syncAt := d.now, syncLog := m.log }
      let dst := d.rxStamp m.port x.clk.val
      let zst := d.rxStamp m.port d.sex.zt.val
      if m.twoStep then d.setDom k { x with held := some { seq := m.seq, port := m.port, dom := dst, zt := zst, lt := d.lt, corr := m.corr, log := m.log } }
      else ((d.setDom k { x with held := none }).servo d1 k dst zst (d.masterTime m.port m.origin m.corr)).relaySync k m came m.origin m.corr
    else if m.twoStep then d else d.relaySync k m came m.origin m.corr) d

/-- What a received Follow_Up does: it completes the two-step Sync of the same sequence (R79). -/
def Dev.followUpEffect (d : Dev) (d1 : Bool) (m : PtpMsg) : Dev :=
  if ¬ d.syncPort m.port ∨ ¬ d.cpUp 2 then d
  else (d.slaveDomains m).foldl (fun d k =>
    let x := d.sex.dom k
    match x.held with
    | some h =>
      if h.seq = m.seq ∧ h.port = m.port then
        ((d.setDom k { x with held := none }).servo d1 k h.dom h.zt (d.masterTime m.port m.origin (h.corr + m.corr))).relaySync k m
          (d.cameAt m.port h.lt) m.origin (h.corr + m.corr)
      else d
    | none => d) d

/-- A Sync that still waits in the present tick makes D1 lock (R84, R85). -/
def State.d1Locks (s : State) (d : Dev) : Bool :=
  let locks (e : Dev) : Bool := d.domState 0 ≠ 3 && e.domState 0 == 3
  (s.tick d).any fun c => match c with
    | .syncReceived _ m => locks (d.syncEffect false m)
    | .followUpReceived _ m => locks (d.followUpEffect false m)
    | _ => false

/-- SYNC_RECEIVED (R81). -/
def execSyncReceived (t : Nat) (m : PtpMsg) (s : State) : Host.Outcome State Fault Refusal :=
  s.cmd t (m.port < unitCount) fun d => d.syncEffect (s.d1Locks d) m

/-- FOLLOW_UP_RECEIVED (R79). (DESIGN CHOICE: log entry 175.) -/
def execFollowUpReceived (t : Nat) (m : PtpMsg) (s : State) : Host.Outcome State Fault Refusal :=
  s.cmd t (m.port < unitCount) fun d => d.followUpEffect (s.d1Locks d) m

/-- A domain enters ACQUIRING for a fresh seed (R82). A two-step Sync that waits for its Follow_Up is no Sync in ACQUIRING. (DESIGN CHOICE: log entry 175.) -/
def Dev.reacquire (d : Dev) (k : Nat) : Dev :=
  (d.setDomState k 2).setDom k { d.sex.dom k with seed := 0, lockRun := 0, unlockRun := 0, held := none }

/-- An Announce of domain `k` is relayed on the relay ports of the domain (R77). (PRESUMED: log entry 214.) -/
def Dev.relayAnnounce (d : Dev) (k : Nat) (m : PtpMsg) : Dev :=
  (maskUnits (d.obj 0x8020 0x04 0 k)).foldl (fun d u =>
    if d.syncPort u then
      d.sendPtp u { port := u, kind := 2, domain := m.domain, seq := m.seq, oneStep := false, origin := m.origin * 65536, corr := m.corr,
                    rate := 0, prio1 := m.prio1, prio2 := m.prio2, utc := m.utc, clockClass := m.clockClass, gm := m.gm } (some (k, 0))
    else d) d

/-- ANNOUNCE_RECEIVED (R75, R76, R77). -/
def execAnnounceReceived (t : Nat) (m : PtpMsg) (s : State) : Host.Outcome State Fault Refusal :=
  s.cmd t (m.port < unitCount) fun d =>
    if ¬ d.cpUp 2 then d
    else
      let d := if m.domain = d.obj 0x8010 0x02 ∧ (maskUnits (d.obj 0x8010 0x03)).contains m.port then d.inc 0x8010 0x0B else d
      (d.slaveDomains m).foldl (fun d k =>
        let x := { d.sex.dom k with annAt := d.now, annLog := m.log, gotAnn := true }
        let d := (d.setDom k x).set 0x8020 0x14 (ofI32 m.utc) 0 k
        let known := d.obj 0x8020 0x08 0 k
        let changed : Bool := known ≠ 0 && known ≠ m.gm
        let d := d.set 0x8020 0x08 m.gm 0 k
        let d := (if changed then d.inc 0x8020 0x11 0 k else d).relayAnnounce k m
        if changed ∧ 2 ≤ d.domState k then (d.reacquire k).domainLost k
        else if d.domState k = 1 ∧ x.gotSync then (d.reacquire k).setDom k { (d.reacquire k).sex.dom k with syncAt := d.now }
        else d) d

/-- Whether a receipt timeout of a domain has run out (R76, R89). -/
def Dev.receiptDue (d : Dev) (k since n : Nat) (log : Int) : Bool :=
  d.cpUp 2 && 2 ≤ d.domState k && since + intervalsOf n log ≤ d.now

/-- Receipt timeout of a domain: back to LISTENING, and Table 3.7. -/
def Dev.receiptTimeout (d : Dev) (k : Nat) : Dev :=
  let d := (d.inc 0x8020 0x10 0 k).setDomState k 1
  (d.setDom k { d.sex.dom k with gotSync := false, gotAnn := false, held := none }).domainLost k

/-- SYNC_RECEIPT_TIMEOUT (R76); a Sync of the same tick is received instead (R11). -/
def execSyncReceiptTimeout (t dom : Nat) (s : State) : Host.Outcome State Fault Refusal :=
  s.timer t (dom < 2) (fun d c => match c with
      | .syncReceived _ m => d.syncPort m.port && (d.slaveDomains m).contains dom
      | _ => false) fun d =>
    let x := d.sex.dom dom
    if d.receiptDue dom x.syncAt (d.obj 0x8020 0x09 0 dom) x.syncLog then d.receiptTimeout dom else d

/-- ANNOUNCE_RECEIPT_TIMEOUT (R76); an Announce of the same tick is received instead (R11). -/
def execAnnounceReceiptTimeout (t dom : Nat) (s : State) : Host.Outcome State Fault Refusal :=
  s.timer t (dom < 2) (fun d c => match c with
      | .announceReceived _ m => (d.slaveDomains m).contains dom
      | _ => false) fun d =>
    let x := d.sex.dom dom
    if d.receiptDue dom x.annAt (d.obj 0x8020 0x0A 0 dom) x.annLog then d.receiptTimeout dom else d

/-- BLEND_END (R85): zone time enters TRACKING of the target; not while CP2 restarts (R89). (DEDUCED: log entry 53.) -/
def execBlendEnd (t : Nat) (s : State) : Host.Outcome State Fault Refusal :=
  s.cmd t true fun d =>
    match d.sex.blend with
    | some b => if b.frozen.isNone ∧ b.start + b.tb ≤ d.now then d.track b.target else d
    | none => d

/-- REVERT_HOLD_OFF_EXPIRY (R85, last line of Table 3.7). -/
def execRevertHoldOffExpiry (t : Nat) (s : State) : Host.Outcome State Fault Refusal :=
  s.cmd t true fun d =>
    if d.ownZone ∧ d.obj 0x8000 0x03 = 2 ∧ d.flag 0x8030 0x03 ∧ d.domState 0 = 3 ∧ d.cpUp 2 ∧ d.sex.d1.lockedAt + d.obj 0x8030 0x04 * perS ≤ d.now then
      d.startBlend 0
    else d

/-- HOLDOVER_LIMIT_EXPIRY (R75, Table 3.3). -/
def execHoldoverLimitExpiry (t : Nat) (s : State) : Host.Outcome State Fault Refusal :=
  s.cmd t true fun d =>
    if d.ownZone ∧ d.obj 0x8000 0x03 = 4 ∧ d.sex.stateAt + d.obj 0x8010 0x08 * perS < d.now then d.set 0x8000 0x0B 248 else d

/-- currentUtcOffset of the selected domain (R75). -/
def Dev.utcOffset (d : Dev) : Int := if d.obj 0x8000 0x04 = 0 then 0 else toI32 (d.obj 0x8020 0x14 0 (d.obj 0x8000 0x04 - 1))

/-- A message of the zone domain. -/
def Dev.zoneMessage (d : Dev) (kind seq : Nat) : PtpOut :=
  { port := 0, kind := kind, domain := d.obj 0x8010 0x02, seq := seq, oneStep := false, origin := clk16 d.sex.zt.val, corr := 0, rate := 0,
    prio1 := d.obj 0x8010 0x04, prio2 := d.obj 0x8010 0x05, utc := d.utcOffset, clockClass := d.obj 0x8000 0x0B, gm := d.obj 0x9400 0x05 }

/-- The start of the interval of `len` periods that has just begun after the one from `from_`; none while that one lasts. -/
def intervalDue (from_ len now : Nat) : Option Nat := if len = 0 ∨ now < from_ + len then none else some (from_ + (now - from_) / len * len)

/-- ZONE_SYNC_INTERVAL (R75, R78): the interval of `A:8010.06` has passed; a zone Sync on every asCapable master port. -/
def execZoneSyncInterval (t : Nat) (s : State) : Host.Outcome State Fault Refusal :=
  s.cmd t true fun d =>
    match intervalDue d.sex.syncFrom (intervalsOf 1 (toI32 (d.obj 0x8010 0x06))) d.now with
    | none => d
    | some e =>
      if ¬ d.flag 0x8010 0x01 then d
      else
        let q := d.sex.syncSeq
        let d := d.sexUpd fun x => { x with syncSeq := (q + 1) % 65536, syncFrom := e }
        (maskUnits (d.obj 0x8010 0x03)).foldl (fun d u => if d.syncPort u then d.sendSync u (d.zoneMessage 0 q) none else d) d

/-- ANNOUNCE_INTERVAL (R75): the interval of `A:8010.07` has passed; an Announce on every master port, none while CP2 restarts (R89). -/
def execAnnounceInterval (t : Nat) (s : State) : Host.Outcome State Fault Refusal :=
  s.cmd t true fun d =>
    match intervalDue d.sex.annFrom (intervalsOf 1 (toI32 (d.obj 0x8010 0x07))) d.now with
    | none => d
    | some e =>
      if ¬ d.flag 0x8010 0x01 ∨ ¬ d.cpUp 2 then d
      else
        let q := d.sex.annSeq
        let d := d.sexUpd fun x => { x with annSeq := (q + 1) % 65536, annFrom := e }
        (maskUnits (d.obj 0x8010 0x03)).foldl (fun d u => if d.flag 0x8040 0x01 u then d.sendPtp u (d.zoneMessage 2 q) none else d) d

/-! Peer delay (R78). -/

/-- A peer delay message. -/
def Dev.pdMessage (d : Dev) (kind seq : Nat) (origin : Nat) : PtpOut := { d.zoneMessage kind seq with origin := origin }

/-- A waiting command of the tick is the response to the last request of a port. -/
def State.pdelayComes (s : State) (d : Dev) (port : Nat) : Bool :=
  (s.tick d).any fun c => match c with
    | .pdelayRespReceived _ u q _ _ => u == port && q == (d.pd port).seq && (d.pd port).sentAt.isSome
    | _ => false

/-- PDELAY_INTERVAL (R78): the interval of `A:8040.06` has passed at a port; a Pdelay_Req, and a request still unanswered counts as a lost response, unless its response comes in this tick (R11). -/
def execPdelayInterval (t port : Nat) (s : State) : Host.Outcome State Fault Refusal :=
  s.cmd t (scopeHas .nesk port) fun d =>
    let p := d.pd port
    let comes := s.pdelayComes d port
    match intervalDue p.at_ (intervalsOf 1 (toI32 (d.obj 0x8040 0x06 port))) d.now with
    | none => d
    | some e =>
      if d.flag 0x8040 0x01 port ∧ d.cpUp 2 then
        let d := if p.waiting ∧ ¬ comes then d.inc 0x8040 0x0A port else d
        let last := if comes then p.sentAt.map (fun x => (p.seq, x, d.now)) else none
        (d.setPd port { p with seq := (p.seq + 1) % 65536, sentAt := none, last := last, waiting := true, at_ := e }).sendPtp port (d.pdMessage 3 ((p.seq + 1) % 65536) 0) none
      else d

/-- PDELAY_REQ_RECEIVED (R78): answered with a Pdelay_Resp that carries the stamp of the request; its own stamp follows. (PRESUMED: log entry 163.) -/
def execPdelayReqReceived (t port seq : Nat) (s : State) : Host.Outcome State Fault Refusal :=
  s.cmd t (scopeHas .nesk port) fun d =>
    if d.flag 0x8040 0x01 port ∧ d.cpUp 2 then d.sendPtp port (d.pdMessage 4 seq (d.cameAt port d.lt).toNat) none else d

/-- PDELAY_RESP_RECEIVED (R78): `t2` and `t3` are the partner's receive and transmit times in ps; the delay is half of the round trip in the partner's rate less the partner's turnaround. (DESIGN CHOICE: log entry 176.) -/
def execPdelayRespReceived (t port seq t2 t3 : Nat) (s : State) : Host.Outcome State Fault Refusal :=
  s.cmd t (scopeHas .nesk port) fun d =>
    let p := d.pd port
    let late := match p.last with | some (q, x, at_) => if q = seq ∧ at_ = d.now then some x else none | none => none
    match (if p.seq = seq ∧ p.sentAt.isSome then p.sentAt else late) with
    | some t1 =>
      if d.flag 0x8040 0x01 port ∧ d.cpUp 2 then
        let t4 := d.lt
        let ratio : Int := match p.prev with
          | some (a3, a4) => if a4 < t4 then rdiv (((t3 : Int) - a3 - (t4 - a4 : Nat) * 800) * 1000000000000) ((t4 - a4 : Nat) * 800) else 0
          | none => 0
        let lat : Int := (d.obj 0x8040 0x03 port : Int) + d.obj 0x8040 0x04 port
        let trip : Int := (t4 - t1 : Nat) * 800 - lat
        let mean : Int := (trip + rdiv (trip * ratio) 1000000000000 - ((t3 : Int) - t2)) / 2
        let delay := mean.toNat
        let good := if delay < d.obj 0x8040 0x0E port then p.good + 1 else 0
        let p := if late.isSome then { p with last := none } else { p with sentAt := none, waiting := false }
        let d := d.setPd port { p with prev := some (t3, t4), good := good }
        ((d.set 0x8040 0x07 (delay % 2 ^ 32) port).set 0x8040 0x08 (ofI32 ratio) port).set 0x8040 0x09 (b2n (3 ≤ good)) port
      else d
    | none => d

/-! PPS pins (R90, R91). -/

/-- The next pulse of a pin is that of the next second of its counter: the pin is enabled, or another counter or pad delay holds for it (R90). -/
def Dev.ppsFrom (d : Dev) (pin : Nat) : Dev := d.sexUpd fun x => { x with ppsSecond := d.sex.ppsSecond.set pin (d.ppsSec pin) }

/-- Drive a PPS_OUT pin active or inactive at its polarity. -/
def Dev.ppsDrive (d : Dev) (pin : Nat) (active : Bool) : Dev :=
  (d.sexUpd fun x => { x with ppsActive := d.sex.ppsActive.set pin active }).out (.pps pin (active == (d.obj 0x8050 0x04 0 pin = 0)))

/-- PPS_OUT_EDGE (R90): the counter has crossed an integer second, less the pad delay. A second skipped by a step gives no pulse. (DESIGN CHOICE: log entry 56.) -/
def execPpsOutEdge (t pin : Nat) (s : State) : Host.Outcome State Fault Refusal :=
  s.cmd t (pin < 2) fun d =>
    let sec := d.ppsSec pin
    if d.flag 0x8050 0x01 0 pin ∧ d.sex.ppsSecond.getD pin 0 < sec then
      let d := d.sexUpd fun x => { x with ppsSecond := d.sex.ppsSecond.set pin sec, ppsEnd := d.sex.ppsEnd.set pin (d.now + d.obj 0x8050 0x03 0 pin * perUs) }
      (d.ppsDrive pin true).inc 0x8050 0x06 0 pin
    else d

/-- PPS_OUT_PULSE_END (R90). -/
def execPpsOutPulseEnd (t pin : Nat) (s : State) : Host.Outcome State Fault Refusal :=
  s.cmd t (pin < 2) fun d =>
    if d.sex.ppsActive.getD pin false ∧ d.sex.ppsEnd.getD pin 0 ≤ d.now then d.ppsDrive pin false else d

/-- PPS_IN_EDGE (R91): a stamp of all four counters, or an edge too close to the one before. (DEDUCED: log entry 55.) -/
def execPpsInEdge (t : Nat) (rising : Bool) (s : State) : Host.Outcome State Fault Refusal :=
  s.cmd t true fun d =>
    if d.flag 0x8051 0x01 ∧ (d.obj 0x8051 0x02 = 0 ↔ rising = true) then
      let close : Bool := match d.sex.ppsIn with | some e => decide (d.now - e < perUs) | none => false
      let d := d.sexUpd fun x => { x with ppsIn := some d.now }
      if close then d.inc 0x8051 0x09
      else
        let lat := d.obj 0x8051 0x03
        let cut (v : Int) : Nat := time96 (clk16 (v - ps48 lat))
        let d := (d.set 0x8051 0x04 (cut ((lt16 d.lt : Int) * 2 ^ 32))).set 0x8051 0x05 (cut d.sex.zt.val)
        ((d.set 0x8051 0x06 (cut d.sex.d1.clk.val)).set 0x8051 0x07 (cut d.sex.d2.clk.val)).inc 0x8051 0x08
    else d

/-! Almanac writes of 8000–83FF (R68, R74, R76, R94). -/

/-- Checks 10 of 8000–83FF beyond type and range. -/
def Dev.sexValue (d : Dev) (idx sub r v : Nat) : Nat :=
  match idx, sub with
  | 0x8010, 0x02 => if v = d.obj 0x8020 0x02 0 0 ∨ v = d.obj 0x8020 0x02 0 1 then 0x302 else 0
  | 0x8020, 0x02 => if v = d.obj 0x8010 0x02 ∨ v = d.obj 0x8020 0x02 0 (1 - r) then 0x302 else 0
  | 0x8020, 0x03 => if 3 < v ∨ bit (d.obj 0x8020 0x04 0 r) v then 0x302 else 0
  | 0x8020, 0x04 => if 16 ≤ v ∨ bit v (d.obj 0x8020 0x03 0 r) then 0x302 else 0
  | 0x8020, 0x0B => if d.obj 0x8020 0x0D 0 r < v then 0x301 else 0
  | 0x8020, 0x0D => if v < d.obj 0x8020 0x0B 0 r then 0x301 else 0
  | _, _ => 0

/-- Whether the owning function of an RWS object of 8000–83FF is stopped (R94). -/
def Dev.sexStopped (d : Dev) (idx u r : Nat) : Bool :=
  if idx = 0x8010 then !d.flag 0x8010 0x01 else if idx = 0x8020 then !d.flag 0x8020 0x01 0 r else !d.flag 0x8060 0x01 u

/-- A tracked domain is enabled or disabled (R76). -/
def Dev.domainSet (d : Dev) (r v : Nat) : Dev :=
  let d := d.set 0x8020 0x01 v 0 r
  if v = 1 then
    (if d.domState r = 0 then
      ((d.set 0x8020 0x08 0 0 r).set 0x8020 0x05 1 0 r).setDom r { d.sex.dom r with gotSync := false, gotAnn := false, held := none, seed := 0 }
     else d)
  else if d.domState r = 0 then d
  else (d.setDomState r 0).domainLost r

/-- What an accepted write of 8000–83FF does. While CP2 restarts no domain state and no zone state changes, so that the enable of a tracked domain acts at the restart's end (R89). (DEDUCED: log entry 215.) -/
def Dev.sexApply (d : Dev) (idx sub u r v : Nat) : Dev :=
  match idx, sub with
  | 0x8000, 0x05 =>
    if v = 1 then
      (((d.set 0x8000 0x06 d.ltTime).set 0x8000 0x07 d.ztTime).set 0x8000 0x08 (time96 (clk16 d.sex.d1.clk.val))).set 0x8000 0x09 (time96 (clk16 d.sex.d2.clk.val))
    else d
  | 0x8010, 0x08 =>
    let d := d.set idx sub v
    if d.ownZone ∧ d.obj 0x8000 0x03 = 4 ∧ d.now ≤ d.sex.stateAt + v * perS then d.set 0x8000 0x0B 7 else d
  | 0x8020, 0x01 => if d.cpUp 2 then d.domainSet r v else d.set 0x8020 0x01 v 0 r
  | 0x8010, 0x01 => (d.sexUpd fun x => if d.flag 0x8010 0x01 then x else { x with syncFrom := d.now, annFrom := d.now }).set 0x8010 0x01 v
  | 0x8040, 0x01 => (if d.flag 0x8040 0x01 u then d else d.setPd u { d.pd u with at_ := d.now, waiting := false, sentAt := none }).set 0x8040 0x01 v u
  | 0x8050, 0x01 =>
    let d := d.ppsFrom r
    let d := if v = 0 ∧ d.sex.ppsActive.getD r false then d.ppsDrive r false else d
    d.set 0x8050 0x01 v 0 r
  | 0x8050, 0x02 => (d.set 0x8050 0x02 v 0 r).ppsFrom r
  | 0x8050, 0x05 => (d.set 0x8050 0x05 v 0 r).ppsFrom r
  | _, _ => d.set idx sub v u r

end Sys2Proof.Machine
end

