-- ==== Sys2Proof/Machine/Ports.lean ====
section
/-! DEFINITION. The Ethernet MACs and the 10BASE-T1S PHYs: reception, transmission, preemption, flow control, link state (R173 to R198). -/
namespace Sys2Proof.Machine

/-- Replace the MACs' state. -/
def Dev.portUpd (d : Dev) (f : PortSt → PortSt) : Dev := { d with ports := f d.ports }

/-! Reception (R145 to R148, R157, R177, R178). -/

/-- Ethertype of MAC control frames. -/
def macControl : Nat := 0x8808

/-- A frame that the MAC consumes: its Ethertype field, right behind the addresses, is that of MAC control (R177). -/
def isMacControl (b : Bytes) : Bool := field b 12 2 == macControl

/-- Kind of a destination: 0 unicast, 1 multicast, 2 broadcast. -/
def destKind (da : Nat) : Nat := if da = 2 ^ 48 - 1 then 2 else if groupAddr da then 1 else 0

/-- Whether a frame may be marked for cut-through towards a port (R123). -/
def Dev.mayCut (d : Dev) (port : Nat) (ptp : Bool) (c : Copy) : Bool :=
  let isS (p : Nat) : Bool := 12 ≤ p && p < 20
  d.flag 0x2040 0x07 0 port && decide (d.obj 0x4020 0x04 (unitOfPort c.port) ≤ d.obj 0x4020 0x04 (unitOfPort port)) &&
    !isS port && !isS c.port && decide (c.port < 22) && !ptp

/-- The reception of a frame that goes no further than the MAC or the Chart. -/
def RxSt.discarded (len kind : Nat) (sec : Option SecTag) (dead : Bool) (learn : Option (Nat × Nat)) (remote : Bool) (stamp : Int) (oversize : Bool) : RxSt :=
  { frame := none, len := len, kind := kind, learn := learn, remote := remote, stamp := stamp, sec := sec, oversize := oversize, dead := dead }

/-- The reception of a frame that is too short or that the MAC consumes: only a bad FCS at its end still counts (R177). -/
def RxSt.consumed (len : Nat) (stamp : Int) : RxSt := { RxSt.discarded len 0 none true none false stamp false with silent := true }

/-- Set the frame in reception at a port and kind. -/
def Dev.setRx (d : Dev) (port kind : Nat) (r : Option RxSt) : Dev := d.fabUpd fun x => { x with rx := tput (fun _ => none) x.rx (port * 2 + kind) r }

/-- What the stages before admission give a received frame: classification, class, DEI after policing, rule, copies, and the request of its end. -/
structure Received where
  vid : Nat
  pcp : Nat
  dei : Bool
  tagged : Bool
  cls : Nat
  rule : Option Nat
  smem : Nat
  sport : Nat
  oversize : Bool
  copies : List Copy
  learn : Option (Nat × Nat)
  remote : Bool
  deriving DecidableEq, Repr

/-- Stages 4 to 6 of Table 1.3 for a frame with a stack header (R214, R358, R359). -/
def Dev.receiveStack (d : Dev) (port : Nat) (b : Bytes) (h : StackHdr) (len : Nat) : Dev × Option Received :=
  let base : Received := {
    vid := h.vid, pcp := h.pcp, dei := h.dei, tagged := h.tagged, cls := h.cls, rule := none, smem := h.smem, sport := h.sport,
    oversize := h.oversize, copies := [], learn := none, remote := true }
  if h.dmem ≠ d.stackId then
    if h.hops = 3 then (d.inc 0x9420 0x09 (unitOfPort port), none)
    else (d, some { base with copies := [{ port := if port = 20 then 21 else 20, hdr := some (h.dmem, h.dport, h.hops + 1) }] })
  else
    let (d, dec) := d.decideStack port b h
    let (d, pol) := if dec.drop then (d, { drop := true, dei := h.dei }) else d.policeFrame port none len h.dei
    let learn := dec.learn.map (fun k => (k, h.smem * 32 + h.sport))
    if dec.drop ∨ pol.drop then (d, some { base with learn := learn })
    else
      let (d, cs) := d.copiesFor h.vid dec.cls 0 dec.out
      (d, some { base with cls := dec.cls, dei := pol.dei, copies := cs, learn := learn })

/-- Stages 4 to 6 of Table 1.3 for a frame of a port of this member. -/
def Dev.receiveLocal (d : Dev) (port : Nat) (b : Bytes) (bad : List Nat) (len : Nat) (oversize : Bool) : Dev × Option Received :=
  let p := parseFrame b
  let c := d.classify port p
  let base : Received := {
    vid := c.vid, pcp := c.pcp, dei := c.dei, tagged := c.tagged, cls := d.pcpClass port c.pcp, rule := none, smem := d.stackId, sport := port,
    oversize := oversize, copies := [], learn := none, remote := false }
  if reservedDest p.da then
    let (d, pol) := d.policeFrame port none len c.dei
    (d, if pol.drop then none else some { base with dei := pol.dei, copies := [{ port := 24 }] })
  else
    match d.classifyDrop port p c with
    | some sub => (d.inc 0x3010 sub 0 port, none)
    | none =>
      let (d, dec) := d.forward port b p c bad
      let learn := dec.learn.map (fun k => (k, d.stackId * 32 + port))
      let base := { base with rule := dec.rule, learn := learn, cls := dec.cls }
      if dec.drop then (d, some base)
      else
        let (d, pol) := d.policeFrame port (dec.rule.map (d.obj 0x3040 0x07 0 ·)) len c.dei
        if pol.drop then (d, some base)
        else
          let (d, cs) := d.copiesFor c.vid dec.cls 0 dec.out
          (d, some { base with dei := pol.dei, copies := if dec.mirror then cs ++ [{ port := 24, mirror := true }] else cs })

/-! PLCA (R191, R192): the opportunities of a cycle. -/

/-- Periods of one bit time at 10 Mbit/s. -/
def bitTime : Nat := 125

/-- The device's own node ID (R191). -/
def Dev.plcaId (d : Dev) (u : Nat) : Nat := if d.obj 0x4060 0x01 u = 0 then 0 else d.obj 0x4060 0x02 u

/-- The PLCA cycle of a port at a time: a burst that has not gone on ends its opportunity, and opportunities that nobody takes pass (R191). -/
def Dev.plcaAt (d : Dev) (port t : Nat) : PlcaSt :=
  let u := unitOfPort port
  let x := tget (fun _ => ({} : PlcaSt)) d.ports.plca port
  let x := if ¬ x.busy ∧ x.burst ≠ 0 ∧ x.lastEnd + d.obj 0x4060 0x06 u * bitTime < t then
      { x with burst := 0, idx := x.idx + 1, from_ := x.lastEnd + d.obj 0x4060 0x06 u * bitTime } else x
  if x.running ∧ ¬ x.busy ∧ x.burst = 0 then
    let n := (t - x.from_) / (d.obj 0x4060 0x04 u * bitTime)
    { x with idx := x.idx + n, from_ := x.from_ + n * (d.obj 0x4060 0x04 u * bitTime) }
  else x

/-- Replace the PLCA cycle of a port. -/
def Dev.setPlca (d : Dev) (port : Nat) (x : PlcaSt) : Dev := d.portUpd fun y => { y with plca := tput (fun _ => {}) y.plca port x }

/-- A frame of another node is heard: it holds the opportunity in which it began, 576 bit times before its first cell (R191). (DESIGN CHOICE: log entry 177.) -/
def Dev.plcaHear (d : Dev) (port : Nat) : Dev :=
  if 12 ≤ port ∧ port < 20 ∧ d.obj 0x4060 0x07 (unitOfPort port) = 1 then
    let x := d.plcaAt port (d.now - 576 * bitTime)
    if x.busy then d else d.setPlca port { x with busy := true }
  else d

/-- An opportunity with a frame ends, and the next begins, unless a burst may go on (R191). -/
def Dev.plcaDone (d : Dev) (port : Nat) (own : Bool) : Dev :=
  let x := tget (fun _ => ({} : PlcaSt)) d.ports.plca port
  if ¬ x.busy then d
  else if own ∧ x.burst ≠ 0 then d.setPlca port { x with busy := false, lastEnd := d.now }
  else d.setPlca port { x with busy := false, burst := 0, idx := x.idx + 1, from_ := d.now }

/-- The device may start a frame on a segment: with PLCA active in its own opportunity or burst (R191), else whenever the line is free (R193). -/
def Dev.plcaMay (d : Dev) (port : Nat) : Bool :=
  let u := unitOfPort port
  if port < 12 ∨ 20 ≤ port then true
  else if d.obj 0x4060 0x07 u ≠ 1 then (tget (fun _ => none) d.fab.rx (port * 2)).isNone
  else
    let x := d.plcaAt port d.now
    x.running && !x.busy && decide (x.from_ ≤ d.now) && x.idx == d.plcaId u

/-- The device takes its opportunity with a frame, or goes on with its burst (R191). -/
def Dev.plcaTake (d : Dev) (port : Nat) : Dev :=
  let u := unitOfPort port
  if 12 ≤ port ∧ port < 20 ∧ d.obj 0x4060 0x07 u = 1 then
    let x := d.plcaAt port d.now
    d.setPlca port { x with busy := true, burst := if x.burst = 0 then d.obj 0x4060 0x05 u else x.burst - 1 }
  else d

/-! The first cell. -/

/-- The operands of a first cell name something. -/
def cellFits (port : Nat) (fr : EthFrame) : Bool :=
  decide (port < 22) && (fr.hdr.isSome == decide (20 ≤ port)) &&
    (match fr.hdr with | some h => h.dmem < 4 && h.dport < 32 && h.smem < 4 && h.sport < 25 && h.cls < 8 && h.vid < 4096 && h.hops < 4 | none => true)

/-- The first cell of a frame that came at time `at_`: the frame is checked, classified, looked up, policed, and admitted or refused whole (R128, R177, R178). -/
def Dev.firstCell (d : Dev) (at_ port : Nat) (fr : EthFrame) : Dev :=
  let u := unitOfPort port
  let kind := b2n fr.preemptible
  let p := parseFrame fr.data
  let max_ := d.obj 0x4020 0x02 u
  let full := fr.data.length + 4
  let oversize := decide (max_ < full)
  let len := min full max_
  let b := if oversize then fr.data.take (max_ - 4) else fr.data
  let ptp := ptpEventFrame b
  let dk := destKind p.da
  let zt := clkNs ((d.advance at_).ztAt at_)
  if ¬ d.linkUp port then d
  else if full < 64 then (d.inc 0x4070 0x06 u).setRx port kind (some (RxSt.consumed len zt))
  else if isMacControl fr.data then (d.inc 0x4070 0x08 u).setRx port kind (some (RxSt.consumed len zt))
  else
    let d := if fr.hdr.isSome then d.inc64 0x9420 0x0C u else d
    let (d, ok) := d.macsecAccept port fr.sec (p.ethertype == 0x88F7)
    if ¬ ok then d.setRx port kind (some (RxSt.discarded len dk none true none false zt oversize))
    else
      let (d, got) := match fr.hdr with
        | some h => d.receiveStack port b h len
        | none => d.receiveLocal port b fr.badBuckets len oversize
      match got with
      | none => d.setRx port kind (some (RxSt.discarded len dk fr.sec false none false zt oversize))
      | some g =>
        let rx := RxSt.discarded len dk fr.sec false g.learn g.remote zt oversize
        if g.copies.isEmpty then d.setRx port kind (some rx)
        else
          let single : Bool := (g.copies.filter (fun c => !c.mirror)).length == 1
          let copies := g.copies.map (fun c => { c with cut := single && !c.mirror && d.mayCut port ptp c })
          let f : Frame := {
            id := 0, port := port, data := b, len := len, cls := g.cls, vid := g.vid, pcp := g.pcp, dei := g.dei, tagged := g.tagged,
            oversize := oversize || g.oversize, multi := false, ptpEvent := ptp, stamp := at_ - d.ltEpoch, rule := g.rule, smem := g.smem, sport := g.sport, copies := copies }
          let (d, id) := d.admission f (cellsOf max_)
          (d.setRx port kind (some { rx with frame := id })).flowAll

/-- Other first cells of the present fabric clock that wait: time, port and frame. (DESIGN CHOICE: log entry 160.) -/
def State.firstCells (s : State) (d : Dev) : List (Nat × Nat × EthFrame) :=
  (s.pending.takeWhile (fun c => decide ((Instr.time c - d.ltEpoch) / 2 ≤ d.lt / 2))).filterMap (fun c =>
    match c with
    | .ethFrameFirstCell t port fr => if cellFits port fr then some (max t d.now, port, fr) else none
    | _ => none)

/-- A first cell that reaches the fabric: of a port, with its time, or of FP8, FP10 or FP11. -/
inductive FirstOf where
  | port (at_ port : Nat) (fr : EthFrame)
  | inner (fp : Nat)
  deriving DecidableEq, Repr

/-- Fabric port of a first cell. -/
def FirstOf.fp : FirstOf → Nat
  | .port _ p _ => fpOf p
  | .inner i => i

/-- First cells of one fabric clock in the order of admission: from the fabric port that follows `start`, which started the clock before (R132). -/
def inTurn (start : Nat) (l : List FirstOf) : List FirstOf := (List.range 12).flatMap (fun k => l.filter (fun x => x.fp == (start + 1 + k) % 12))

/-- One first cell is admitted or refused. -/
def Dev.takeFirst (d : Dev) : FirstOf → Dev
  | .port at_ p fr => (d.plcaHear p).firstCell at_ p fr
  | .inner i => d.localFirst i

/-- The first cells of one fabric clock are admitted one after another (R132). -/
def Dev.takeFirsts (d : Dev) (l : List FirstOf) : Dev :=
  let order := inTurn d.fab.started l
  (order.foldl Dev.takeFirst d).fabUpd fun x => { x with started := (order.head?.map FirstOf.fp).getD d.fab.started }

/-- A cell time of the fabric waits in the present fabric clock. -/
def State.matchWaits (s : State) (d : Dev) : Bool := (s.tick d 2).any (fun c => match c with | .fabricMatch .. => true | _ => false)

/-- ETH_FRAME_FIRST_CELL (R128, R132). The first of a fabric clock brings all of that clock in their order; each of the others then finds its frame already taken. Where the fabric's cell time falls in the same clock, the frame waits for it, which brings the first cells of FP8, FP10 and FP11 as well. (DESIGN CHOICE: log entry 160.) -/
def execEthFrameFirstCell (t port : Nat) (fr : EthFrame) (s : State) : Host.Outcome State Fault Refusal :=
  s.portCmd t [0, 1] (cellFits port fr) fun d =>
    if d.fab.early.contains (port, fr) then d.fabUpd fun x => { x with early := x.early.erase (port, fr) }
    else if s.matchWaits d then d.fabUpd fun x => { x with firsts := x.firsts ++ [(d.now, port, fr)] }
    else
      let more := s.firstCells d
      (d.takeFirsts (.port d.now port fr :: more.map (fun x => .port x.1 x.2.1 x.2.2))).fabUpd fun x => { x with early := more.map (fun y => (y.2.1, y.2.2)) }

/-- FABRIC_MATCH (R19, R21, R115 to R117, R120, R121, R132): one cell time: the cells of the frames in progress and the first cells of its fabric clock enter, and one matching sends. (DESIGN CHOICE: log entries 61, 160, 161, 162.) -/
def execFabricMatch (t : Nat) (c : CellTime) (s : State) : Host.Outcome State Fault Refusal :=
  s.portCmd t [0] (c.written.all (fun w => w.1 < 25 && w.2.1 < 2)) fun d =>
    if ¬ d.dataOn then d
    else
      let d := (d.inc 0x2000 0x09 0 0 c.corrected).fabUpd fun x => { x with words := [] }
      let inner := [8, 10, 11].filter (fun i => d.localFree i && (d.localNext i).isSome)
      let more := if d.fab.early.isEmpty then s.firstCells d else []
      let wait := d.fab.firsts
      let d := ((d.takeSlots c.written).localCells).fabUpd fun x => { x with firsts := [] }
      let d := (d.takeFirsts ((wait ++ more).map (fun x => .port x.1 x.2.1 x.2.2) ++ inner.map .inner)).fabUpd fun x =>
        { x with early := if more.isEmpty then x.early else more.map (fun y => (y.2.1, y.2.2)) }
      (d.crossCells c).flowAll

/-- The request that a frame received whole and good gives from its source lookup (R157). -/
def Dev.learnAtEnd (d : Dev) (key dest : Nat) (remote : Bool) (stamp : Int) : Dev :=
  let q : LearnReq := { key := key, dest := dest, stamp := stamp, msgFrom := none, remote := remote }
  match d.chartFind key with
  | none => d.chartRequest q
  | some p =>
    let e := d.mac p
    if entDest e = dest then (if entType e = 3 then d else d.chartRefresh p) else d.chartRequest q

/-- The frame in reception ends bad (R124, R177). -/
def Dev.rxBad (d : Dev) (r : RxSt) (countAll atEnd : Bool) : Dev :=
  match r.frame with
  | some id => d.abortFrame id countAll atEnd
  | none => d

/-- The end of a received frame (R124, R157, R177, R182): the last byte of the frame in reception; `fragments` is the number of fragments it arrived in. A reassembly or SMD error counts whether a frame is in reassembly or not. (DEDUCED: log entry 72.) -/
def Dev.frameReceived (d : Dev) (port : Nat) (preemptible : Bool) (fragments : Nat) (e : RxEnd) : Dev :=
  let u := unitOfPort port
  let kind := b2n preemptible
  let d := if port < 12 then (match e with | .assemblyError => d.inc 0x4040 0x0B u | .smdError => d.inc 0x4040 0x0C u | _ => d) else d
  let d := if 12 ≤ port ∧ port < 20 then d.plcaDone port false else d
  match tget (fun _ => none) d.fab.rx (port * 2 + kind) with
  | none => d
  | some r =>
    let d := d.setRx port kind none
    let d := if 2 ≤ fragments ∧ port < 12 then d.inc64 0x4040 0x09 u 0 fragments else d
    (match e with
    | .linkLoss => d.rxBad r true false
    | .badIcv => (d.macsecEnd port r.sec false).rxBad r true true
    | .badFcs => (d.inc 0x4070 0x05 u).rxBad r false true
    | .assemblyError => d.rxBad r false false
    | .smdError => d.rxBad r false false
    | .good =>
      if r.silent then d
      else
      let d := if 2 ≤ fragments ∧ port < 12 then d.inc64 0x4040 0x0A u else d
      let d := (d.inc64 0x4070 0x01 u).inc64 0x4070 0x02 u 0 r.len
      let d := if r.kind = 1 then d.inc64 0x4070 0x03 u else if r.kind = 2 then d.inc64 0x4070 0x04 u else d
      let d := if r.oversize then d.inc 0x4070 0x07 u else d
      if r.dead then d
      else
        let d := d.macsecEnd port r.sec true
        let d := match r.learn with | some (k, dest) => d.learnAtEnd k dest r.remote r.stamp | none => d
        match r.frame with
        | some id => d.endFrame id r.len
        | none => d).flowAll

/-! Received flow control (R189). -/

/-- Account for the time in which some queue of a port is stopped. -/
def Dev.stopTime (d : Dev) (port : Nat) : Dev :=
  let any : Bool := (List.range 8).any (fun q => (tget (fun _ => none) d.ports.stopped (port * 8 + q)).isSome)
  match tget (fun _ => none) d.ports.stopSince port, any with
  | none, true => d.portUpd fun x => { x with stopSince := tput (fun _ => none) x.stopSince port (some d.now) }
  | some t0, false =>
    (d.portUpd fun x => { x with stopSince := tput (fun _ => none) x.stopSince port none }).inc64 0x4050 0x0B (unitOfPort port) 0 ((d.now - t0) * 4 / 5)
  | _, _ => d

/-- Stop a transmit queue for a pause time in quanta of 512 bit times at the nominal rate; 0 ends the stop. (DEDUCED: log entry 66.) -/
def Dev.stopQueue (d : Dev) (port q time : Nat) : Dev :=
  let rate := max 1 (d.obj 0x4020 0x04 (unitOfPort port))
  d.portUpd fun x => { x with stopped := tput (fun _ => none) x.stopped (port * 8 + q) (if time = 0 then none else some (d.now + cdiv (time * 640000) rate)) }

/-- MAC_CONTROL_RECEIVED (R177, R189): a good frame's bytes from the destination address on, without FCS; one below 64 bytes is undersize. (DEDUCED: log entry 66.) -/
def execMacControlReceived (t port : Nat) (data : Bytes) (s : State) : Host.Outcome State Fault Refusal :=
  s.cmd t (port < 22 && isMacControl data) fun d =>
    let u := unitOfPort port
    let op := field data 14 2
    let pfc : Bool := op == 0x0101
    if ¬ d.linkUp port then d
    else if data.length + 4 < 64 then d.inc 0x4070 0x06 u
    else
    let d := d.inc 0x4070 0x08 u
    if (op = 1 ∨ pfc) ∧ (port < 12 ∨ 20 ≤ port) then
      let d := d.inc 0x4050 0x0A u
      if d.flag 0x4050 0x06 u then
        let d := (List.range 8).foldl (fun d q =>
          if pfc then (if bit (field data 16 2) q then d.stopQueue port q (field data (18 + 2 * q) 2) else d)
          else d.stopQueue port q (field data 16 2)) d
        d.stopTime port
      else d
    else d

/-- PAUSE_EXPIRY (R189). -/
def execPauseExpiry (t port queue : Nat) (s : State) : Host.Outcome State Fault Refusal :=
  s.cmd t (port < 22 && queue < 8) fun d =>
    match tget (fun _ => none) d.ports.stopped (port * 8 + queue) with
    | some e => if e ≤ d.now then (d.stopQueue port queue 0).stopTime port else d
    | none => d

/-! Egress editing (R178, R179, R213). -/

/-- A frame as it leaves at a port: its bytes without FCS, and whether the FCS is inverted. On a K link the stack header carries the OVERSIZE mark in place of the inverted FCS (Table 14.2). (DESIGN CHOICE: log entry 64.) -/
def Dev.egressEdit (d : Dev) (f : Frame) (c : Copy) : Bytes × Bool :=
  let pad (b : Bytes) : Bytes := if b.length < 60 then b ++ List.replicate (60 - b.length) 0 else b
  if f.asIs then (pad f.data, false)
  else
    let bare := if field f.data 12 2 = 0x8100 then f.data.take 12 ++ f.data.drop 16 else f.data
    let tag := beBytes 2 0x8100 ++ beBytes 2 (f.pcp * 8192 + b2n f.dei * 4096 + f.vid)
    let b := if (d.editOf f c).untag then bare else bare.take 12 ++ tag ++ bare.drop 12
    (pad b, (f.oversize && c.hdr.isNone) || f.badFcs)

/-- Length of a frame at its egress, FCS included (R179, R204). (DEDUCED: log entry 72.) -/
def Dev.egressLen (d : Dev) (f : Frame) (c : Copy) : Nat := (d.egressEdit f c).1.length + 4

/-! The guard (R210, R211). -/

/-- The enabled leg that drives a consumer at a unit. -/
def Dev.legOf (d : Dev) (code u : Nat) : Option Nat :=
  (List.range 16).find? (fun n => d.obj 0x8420 0x03 0 n == code && d.legUnit n == some u && decide (1 ≤ d.legState n))

/-- Source value at which a cycle that starts at `s` with bank `b` first closes a queue, from entry `i` on. -/
def Dev.closesAt (d : Dev) (n b i q : Nat) (s : Int) (adv : Nat) : Option Int :=
  ((List.range (d.legCount n b)).filter (fun k => i ≤ k && !bit (d.legData n b k) q)).head?.map (fun k => s + d.legOff n b k - adv)

/-- Time in ns until the next entry of a time leg that closes a queue: in the present cycle (for a leg that waits, its first), in the next, or in the first after an armed swap (R210); none when none does. -/
def Dev.nextClose (d : Dev) (n q : Nat) : Option Int :=
  let l := d.leg n
  let bank := d.legBank n
  let wait : Bool := d.legState n = 1
  let s0 := if wait then l.startAt else l.cyc
  let acted : Bool := wait && d.swapActs n s0
  let b0 := if acted then 1 - bank else bank
  let s1 := s0 + d.legCycle n b0
  let b1 := if !acted && d.swapActs n s1 then 1 - b0 else b0
  let later : Option Int := match l.armed with
    | some (ch, x) =>
      if acted || b1 != b0 then none
      else
        let c := d.legCycle n b0
        d.closesAt n (1 - bank) 0 q (firstBoundary (s0 + max (d.ahead (d.legSource n) ch s0) (x - s0)) s0 c) (l.advOf s1)
    | none => none
  let adv0 := if wait then d.obj 0x8420 0x41 0 n else l.adv
  if d.legState n = 1 ∨ d.legState n = 2 then
    (([d.closesAt n b0 (if wait then 0 else l.next) q s0 adv0, d.closesAt n b1 0 q s1 (if wait then adv0 else l.advOf s1), later].filterMap id).head?).map
      (fun x => x - d.legAt n d.now)
  else none

/-- Time in ns until a gate next closes at the transmit MAC: by an event on its way there, else 16 ns after the next entry that closes the queue (R209, R210). -/
def Dev.gateCloses (d : Dev) (u q : Nat) : Option Int :=
  match d.ports.gates.find? (fun g => g.1 == u && !bit g.2.2.1 q) with
  | some g => some (((g.2.1 - d.now) * 4 / 5 : Nat) : Int)
  | none => match d.legOf 1 u with
    | none => none
    | some n => if d.legSource n = 4 then none else (d.nextClose n q).map (· + 16)

/-- The guard permits a frame of counted length `len` to start (R210, R211). -/
def Dev.guardOk (d : Dev) (port q : Nat) (len : Int) : Bool :=
  let u := unitOfPort port
  let phase : Bool := match d.legOf 1 u with | some n => d.legSource n = 4 | none => false
  if ¬ d.flag 0x5060 0x02 u ∨ phase then true
  else match d.gateCloses u q with
    | none => true
    | some c => decide (len * 8 * 1000 ≤ c * d.obj 0x4020 0x04 u)

/-- Counted length that the guard sees: of a preemptible queue the first fragment, of a frame that is not whole the most that it may become (R210, R211). -/
def Dev.guardLen (d : Dev) (f : Frame) (c : Copy) : Int :=
  let x := d.egressSet f c
  let len := if d.kindOf f c = 1 then min (d.egressLen f c) x.frag
    else if f.whole then d.egressLen f c
    else if x.sdu = 0 then x.lim else min x.lim x.sdu
  len + x.ovh

/-- The guard permits a copy to start. -/
def Dev.guardFits (d : Dev) (port : Nat) (f : Frame) (c : Copy) : Bool := d.guardOk port f.cls (d.guardLen f c)

/-! Transmission (R180 to R184, R206, R207, R213). -/

/-- A copy among others in the order of their first cells at the MAC. -/
def insertStaged (x : Nat × Nat × Nat) : List (Nat × Nat × Nat) → List (Nat × Nat × Nat)
  | [] => [x]
  | y :: l => if x.1 ≤ y.1 then x :: y :: l else y :: insertStaged x l

/-- Copies at a port's MAC that satisfy a test, as frame number and place in the frame, in the order of their first cells there. -/
def Dev.staged (d : Dev) (port kind : Nat) (test : Frame → Copy → Bool) : List (Nat × Nat) :=
  ((d.fab.frames.flatMap (fun f => (List.range f.copies.length).filterMap (fun k =>
    match f.copies[k]? with
    | some c => if c.port == port && !c.mirror && c.sent != 0 && d.kindOf f c == kind && test f c then some (c.order, f.id, k) else none
    | none => none))).foldr insertStaged []).map (·.2)

/-- The frame of a kind in transmission at a port, suspended ones left out. -/
def Dev.onLine (d : Dev) (port kind : Nat) : Option (Nat × Nat) := (d.staged port kind (fun _ c => c.started && !c.suspended)).head?

/-- Apply a change to a copy. -/
def Dev.withCopy (d : Dev) (x : Nat × Nat) (g : Dev → Frame → Copy → Dev) : Dev :=
  match d.frame? x.1 with
  | some f => match f.copies[x.2]? with | some c => g d f c | none => d
  | none => d

/-- A test of a copy. -/
def Dev.copyIs (d : Dev) (x : Nat × Nat) (g : Frame → Copy → Bool) : Bool :=
  match d.frame? x.1 with
  | some f => match f.copies[x.2]? with | some c => g f c | none => false
  | none => false

/-- Ingress fabric port and class of a copy: its subqueue at this MAC (R118). -/
def Dev.subOf (d : Dev) (x : Nat × Nat) : Option (Nat × Nat) := (d.frame? x.1).map (fun f => (fpOf f.port, f.cls))

/-- The first of each subqueue of a list. -/
def Dev.firsts (d : Dev) (seen : List (Option (Nat × Nat))) : List (Nat × Nat) → List (Nat × Nat)
  | [] => []
  | x :: l => if seen.contains (d.subOf x) then d.firsts seen l else x :: d.firsts (d.subOf x :: seen) l

/-- Heads of the subqueues at a MAC: the frames of a flow start in their order (R138). -/
def Dev.heads (d : Dev) (port kind : Nat) : List (Nat × Nat) := d.firsts [] (d.staged port kind (fun _ c => !c.started))

/-- The queue of a class is stopped by received flow control (R189). -/
def Dev.queueStopped (d : Dev) (port cls : Nat) : Bool := (tget (fun _ => none) d.ports.stopped (port * 8 + cls)).isSome

/-- A staged copy may start now (R119, R183, R189, R207, R209); the guard apart. -/
def Dev.mayStart (d : Dev) (port : Nat) (f : Frame) (c : Copy) : Bool :=
  let teff := d.obj 0x4030 0x02 (unitOfPort port)
  !c.started && !c.aborted && !(12 ≤ port && port < 20 && d.goingToSleep (unitOfPort port)) &&
    !d.queueStopped port f.cls && d.gateOpen port f.cls &&
    (f.whole || (c.cut && teff < 145 && decide (teff ≤ f.avail))) &&
    (f.ptpEvent || (match c.leaf with | some l => d.leafOpen port l | none => true))

/-- The next frame of a kind to start: of the highest queue with a head that may start, unless the guard holds that head and a lower queue has one that fits (R180, R210). First come the heads that the guard holds. -/
def Dev.nextStart (d : Dev) (port kind : Nat) : List (Nat × Nat) × Option (Nat × Nat) :=
  let ready := (d.heads port kind).filter (fun x => d.copyIs x (d.mayStart port))
  let firsts := classesDown.filterMap (fun q => ready.find? (fun x => (d.subOf x).map (·.2) == some q))
  let fits (x : Nat × Nat) : Bool := d.copyIs x (d.guardFits port)
  (firsts.takeWhile (fun x => !fits x), firsts.find? fits)

/-- Heads beyond the maximum SDU of their queue are discarded uncharged (R213). -/
def Dev.dropLong (port kind : Nat) : Nat → Dev → Dev
  | 0, d => d
  | n + 1, d =>
    match (d.heads port kind).find? (fun x => d.copyIs x (fun f c => f.whole && (d.egressSet f c).sdu != 0 && decide ((d.egressSet f c).sdu < d.egressLen f c))) with
    | some x => Dev.dropLong port kind n (d.withCopy x fun d f _ => (d.inc 0x5060 0x06 (unitOfPort port)).putFrame (f.dropCopy x.2))
    | none => d

/-- A copy begins on the line, with the settings of now (R27). (DESIGN CHOICE: log entry 193.) -/
def Dev.begun (d : Dev) (f : Frame) (c : Copy) : Copy := { c with started := true, retry := false, startAt := d.now, done := 0, edit := some (d.egressSet f c) }

/-- A frame starts at the MAC: its packet number and its egress stamp are taken (R79, R423), and on a segment its opportunity (R191). -/
def Dev.startCopy (d : Dev) (x : Nat × Nat) : Dev :=
  d.withCopy x fun d f c =>
    let u := unitOfPort c.port
    let c' := d.begun f c
    if d.macsecOn c.port ∧ (parseFrame f.data).ethertype ≠ 0x88F7 then
      match d.macsecTake c.port with
      | (d, none) => d.putFrame (f.dropCopy x.2)
      | (d, some g) => d.putFrame (f.setCopy x.2 { c' with sec := some g })
    else
      let d := if d.macsecOn c.port then d.inc64 0xB100 0x0E u else d
      let d := if f.lastCall then d.callStarts u else d
      let (d, f) := d.ptpStart u f
      (d.plcaTake c.port).putFrame (f.setCopy x.2 c')

/-- The rest of a suspended frame follows as a new fragment (R181). -/
def Dev.resumeCopy (d : Dev) (x : Nat × Nat) : Dev :=
  d.withCopy x fun d f c => d.putFrame (f.setCopy x.2 { c with suspended := false, endDue := false, startAt := d.now })

/-- The fragment on the line at a port ends where it may (R181). -/
def Dev.suspend (d : Dev) (x : Nat × Nat) : Dev :=
  d.withCopy x fun d f c => (d.putFrame (f.setCopy x.2 (d.endFragment c d.now))).inc64 0x4040 0x08 (unitOfPort c.port)

/-- A frame of a kind starts or goes on at a port's MAC (R180, R181, R183, R210). -/
def Dev.transmitStart (d : Dev) (port kind : Nat) : Dev :=
  let u := unitOfPort port
  let pre : Bool := port < 12 && d.flag 0x4040 0x06 u
  let hold : Bool := pre && bit (d.obj 0x5060 0x01 u) 8
  let d := Dev.dropLong port kind d.fab.frames.length (d.pauseDue port)
  let busy : Bool := (d.onLine port kind).isSome || (kind == 1 && (hold || (d.onLine port 0).isSome || (d.nextStart port 0).2.isSome))
  if ¬ d.portUp port ∨ (tget (fun _ => none) d.ports.backoff port).isSome ∨ busy ∨ ¬ d.plcaMay port then d
  else
    let again := (d.staged port kind (fun _ c => c.retry)).head?
    if again.any (fun x => !d.copyIs x (d.mayStart port)) then d
    else
      match again.filter (fun x => d.copyIs x (d.guardFits port)), (d.staged port kind (fun _ c => c.suspended)).head? with
      | some x, _ => d.startCopy x
      | none, some x => if d.copyIs x (fun f _ => d.gateOpen port f.cls && !d.queueStopped port f.cls) then d.resumeCopy x else d
      | none, none =>
        let (held, next) := d.nextStart port kind
        let d := held.foldl (fun d x => d.withCopy x fun d f c =>
          if c.guardHeld then d else (d.putFrame (f.setCopy x.2 { c with guardHeld := true })).inc 0x5060 0x04 u) d
        match next with
        | none => d
        | some x =>
          match (if kind = 0 ∧ pre then d.onLine port 1 else none) with
          | some y => if d.copyIs y (d.atBoundary d.now) then ((d.suspend y).pauseDue port).startCopy x else d
          | none => d.startCopy x

/-- TRANSMIT_START (R180, R181, R183, R210): a preemptible frame that was suspended resumes first, and so does one that a collision has cut off (R192, R193). An express frame starts where the fragment on the line may end. -/
def execTransmitStart (t port : Nat) (preemptible : Bool) (s : State) : Host.Outcome State Fault Refusal :=
  s.cmd t (port < 22) fun d => d.transmitStart port (b2n preemptible)

/-- The stack header that the K MAC puts before a frame (R353, Table 14.2). -/
def stackHeader (f : Frame) (c : Copy) : Bytes :=
  match c.hdr with
  | none => []
  | some (m, q, hops) =>
    beBytes 8 (m * 2 ^ 62 + q * 2 ^ 57 + f.smem * 2 ^ 55 + f.sport * 2 ^ 50 + f.cls * 2 ^ 47 + f.pcp * 2 ^ 44 + b2n f.dei * 2 ^ 43 + f.vid * 2 ^ 31 +
      hops * 2 ^ 29 + b2n f.oversize * 2 ^ 28 + b2n f.tagged * 2 ^ 27)

/-- The copy leaves the MAC: counters, charge, and the record of what is on the line. A frame that ended early ends with the cells that crossed (R124, R207); the stamp of a PTP event frame that ends so is discarded (R72). (DESIGN CHOICE: log entry 63.) -/
def Dev.copySent (d : Dev) (x : Nat × Nat) : Dev :=
  d.withCopy x fun d f c =>
    let u := unitOfPort c.port
    let e := d.editOf f c
    let (b, inv) := d.egressEdit f c
    let b := if c.bad then b.take (c.sent * 64 + b.length - f.data.length) else b
    let trunc : Bool := decide (e.lim < b.length + 4)
    let b := if trunc then b.take (e.lim - 4) else b
    let beyond : Bool := e.sdu != 0 && decide (e.sdu < b.length + 4)
    let b := if beyond then b.take (e.sdu - 4) else b
    let bad := c.bad || inv || trunc || beyond
    let d := if trunc then d.inc 0x4030 0x06 u else d
    let d := if beyond then d.inc 0x5060 0x06 u else d
    let d := if bad then d.inc 0x4030 0x05 u else d
    let d := if c.bad ∧ f.ptpEvent then d.stampLost u f 1 else d
    let dk := destKind (parseFrame f.data).da
    let d := ((d.inc64 0x4070 0x09 u).inc64 0x4070 0x0A u 0 (b.length + 4)).inc64 0x4031 0x01 u f.cls
    let d := if dk = 1 then d.inc64 0x4070 0x0B u else if dk = 2 then d.inc64 0x4070 0x0C u else d
    let d := if c.fragmented then d.inc64 0x4040 0x08 u else d
    let d := if c.hdr.isSome then d.inc64 0x9420 0x0B u else d
    let d := match c.leaf with
      | some l => d.chargeLeaf l ((b.length + 4 : Nat) + e.ovh)
      | none => d
    let d := if 12 ≤ c.port ∧ c.port < 20 then d.plcaDone c.port true else d
    let d := d.putFrame (f.dropCopy x.2)
    match f.ptp with
    | some j => if bad then d.out (.frame c.port b false c.sec (stackHeader f c)) else d.ptpSent u j
    | none => d.out (.frame c.port b (!bad) c.sec (stackHeader f c))

/-- A frame that still streams ends where it has reached the maximum SDU of its queue or the maximum length of its port (R178, R213). -/
def Dev.atLimit (d : Dev) (f : Frame) (c : Copy) : Bool :=
  let e := d.editOf f c
  let there : Int := c.sent * 64 + (d.egressLen f c : Int) - f.len
  (e.sdu != 0 && decide ((e.sdu : Int) ≤ there)) || decide ((e.lim : Int) ≤ there)

/-- The last byte of the frame on the line leaves the MAC (R206, R207, R213). (DESIGN CHOICE: log entry 63.) -/
def Dev.transmitEnd (d : Dev) (port kind : Nat) : Dev :=
  match (d.staged port kind (fun f c => c.started && !c.suspended && (c.crossed || d.atLimit f c))).head? with
  | some x => (d.copySent x).flowAll.finishIfReady
  | none => d

/-- A waiting command of the present cell time ends a copy with ABORT: its frame turns out bad, its ingress link is lost, or a link word of the buffer is (R124, R185). -/
def State.abortComes (s : State) (d : Dev) (f : Frame) (c : Copy) : Bool :=
  (s.tick d (128 / edgesLeft (d.obj 0x2000 0x08))).any (fun i => match i with
    | .ethFrameEnd _ p k _ e => p == f.port && e != .good && (tget (fun _ => none) d.fab.rx (p * 2 + b2n k)).any (fun r => r.frame == some f.id)
    | .linkDown _ p loss => p == f.port && !(match loss with | .errors _ => true | _ => false)
    | .fabricMatch _ ct => ct.lost.contains (fpOf c.port)
    | _ => false)

/-- TRANSMIT_UNDERRUN (R184, R185, R207): a frame that ends with ABORT in the same cell time counts as ended bad in transfer only. -/
def execTransmitUnderrun (t port : Nat) (preemptible : Bool) (s : State) : Host.Outcome State Fault Refusal :=
  s.cmd t (port < 22) fun d =>
    match (d.staged port (b2n preemptible) (fun _ c => c.started && !c.suspended && c.cut && !c.crossed)).head? with
    | none => d
    | some x => (d.withCopy x fun d f c =>
      if c.aborted then d.copySent x
      else if s.abortComes d f c then
        let d := if c.bad then d else d.inc 0x2040 0x0A 0 port
        (d.putFrame (f.setCopy x.2 { c with bad := true, aborted := true })).copySent x
      else
        let u := unitOfPort port
        let teff := min 145 (d.obj 0x4030 0x02 u + 1)
        let was := d.obj 0x4030 0x02 u
        let d := ((d.inc 0x4030 0x03 u).inc 0x4030 0x05 u).set 0x4030 0x02 teff u
        let d := d.portUpd fun y => { y with lastUnder := tput (fun _ => 0) y.lastUnder port d.now }
        let d := if teff = 145 ∧ was ≠ 145 then (d.set 0x4030 0x04 1 u).event 6 (some 16) Ev.teffMax.code u else d
        let (b, _) := d.egressEdit f c
        let delta : Int := (b.length : Int) - f.data.length
        let sent : Int := c.sent * 64 + delta + 4
        let d := match c.leaf with | some l => d.chargeLeaf l (sent + (d.editOf f c).ovh) | none => d
        (d.out (.frame port (b.take (sent - 4).toNat) false c.sec (stackHeader f c))).putFrame (f.dropCopy x.2)).flowAll.finishIfReady

/-- THRESHOLD_DECAY (R186); an underrun of the same tick leaves no whole interval without one (R11). -/
def execThresholdDecay (t port : Nat) (s : State) : Host.Outcome State Fault Refusal :=
  s.timer t (port < 22) (fun _ c => match c with | .transmitUnderrun _ p _ => p == port | _ => false) fun d =>
    let u := unitOfPort port
    let n := d.obj 0x4030 0x41 u
    if n ≠ 0 ∧ tget (fun _ => 0) d.ports.lastUnder port + n * perS ≤ d.now then
      let d := d.portUpd fun y => { y with lastUnder := tput (fun _ => 0) y.lastUnder port d.now }
      d.set 0x4030 0x02 (max (d.obj 0x4030 0x01 u) (d.obj 0x4030 0x02 u - 1)) u
    else d

/-! Preemption verify (R182). -/

/-- Enter INITIAL, and from there VERIFYING or SUCCEEDED while the link is up (Table 7.3). -/
def Dev.verifyStart (d : Dev) (port : Nat) : Dev :=
  let u := unitOfPort port
  let d := d.set 0x4040 0x06 0 u
  if ¬ d.flag 0x4040 0x01 u then d.set 0x4040 0x05 0 u
  else if ¬ d.linkUp port then d.set 0x4040 0x05 1 u
  else if d.flag 0x4040 0x02 u then (d.set 0x4040 0x05 3 u).set 0x4040 0x06 1 u
  else ((d.set 0x4040 0x05 2 u).out (.mpacket port 0)).portUpd fun x => { x with verify := tput (fun _ => (0, 0)) x.verify port (1, d.now) }

/-- VERIFY_MPACKET_TIMER (R182); a respond mPacket of the same tick is received instead (R11). -/
def execVerifyMpacketTimer (t port : Nat) (s : State) : Host.Outcome State Fault Refusal :=
  s.timer t (port < 12) (fun _ c => match c with | .respondMpacketReceived _ p => p == port | _ => false) fun d =>
    let u := unitOfPort port
    let v := tget (fun _ => (0, 0)) d.ports.verify port
    if d.obj 0x4040 0x05 u = 2 ∧ v.2 + d.obj 0x4040 0x03 u * perMs ≤ d.now then
      if v.1 < 3 then (d.out (.mpacket port 0)).portUpd fun x => { x with verify := tput (fun _ => (0, 0)) x.verify port (v.1 + 1, d.now) }
      else ((d.set 0x4040 0x05 4 u).inc 0x4040 0x0D u).event 6 (some 16) Ev.verifyFailed.code u
    else d

/-- RESPOND_MPACKET_RECEIVED (R182). -/
def execRespondMpacketReceived (t port : Nat) (s : State) : Host.Outcome State Fault Refusal :=
  s.cmd t (port < 12) fun d =>
    let u := unitOfPort port
    if d.obj 0x4040 0x05 u = 2 then (d.set 0x4040 0x05 3 u).set 0x4040 0x06 1 u else d

/-- VERIFY_MPACKET_RECEIVED (R182). -/
def execVerifyMpacketReceived (t port : Nat) (s : State) : Host.Outcome State Fault Refusal :=
  s.cmd t (port < 12) fun d => if d.obj 0x4040 0x05 (unitOfPort port) = 0 then d else d.out (.mpacket port 1)

/-! Link state (R174, R176, R194). -/

/-- Speeds that a lane mode of Table 7.2 carries, in Mbit/s. -/
def modeRates (port mode : Nat) : List Nat :=
  if port < 4 then (match mode with | 0 => [10000] | 1 => [10000, 5000, 2500, 1000, 100] | 2 => [5000] | 3 => [2500] | _ => [])
  else (match mode with | 0 => [1000, 100] | 1 => [2500] | _ => [])

/-- A lane mode with an auto-negotiation word (Table 7.2). -/
def modeWord (port mode : Nat) : Bool := if port < 4 then mode == 1 else mode == 0

/-- The ports of a member that is JOINING or HELD OUT stay DOWN (R355). -/
def Dev.portsBarred (d : Dev) : Bool := d.stack.self != 2

/-- An S segment's PHY is off: asleep, waiting to wake, or held off by the fail-safe (R384, R395). -/
def Dev.segmentOff (d : Dev) (u : Nat) : Bool :=
  13 ≤ u && u < 21 && (d.flag 0xA000 0x09 || d.obj 0xA020 0x0C u == 1 || d.obj 0xA020 0x0C u == 2)

/-- A port's link comes up at a rate. -/
def Dev.linkRise (d : Dev) (port rate : Nat) : Dev :=
  let u := unitOfPort port
  if d.linkUp port then d
  else
    let d := ((d.set 0x4020 0x03 1 u).set 0x4020 0x04 rate u).inc 0x4020 0x05 u
    let d := (d.set 0x4000 0x03 (setBit (d.obj 0x4000 0x03) port true)).portLinkUp port
    let d := if port < 12 then d.verifyStart port else d
    if 12 ≤ port ∧ port < 20 ∧ d.obj 0x4060 0x07 u ≠ 3 then
      (d.set 0x4060 0x07 (if d.obj 0x4060 0x01 u = 2 then 0 else 1) u).portUpd fun x => { x with beaconAt := tput (fun _ => 0) x.beaconAt port d.now }
    else d

/-- A port's link goes down: frames in reception end bad, the port flushes, preemption starts again (R124, R135, R182, R196). -/
def Dev.linkFall (d : Dev) (port : Nat) : Dev :=
  let u := unitOfPort port
  if ¬ d.linkUp port then d
  else
    let d := ((d.set 0x4020 0x03 0 u).set 0x4020 0x04 0 u).inc 0x4020 0x06 u
    let d := d.set 0x4000 0x03 (setBit (d.obj 0x4000 0x03) port false)
    let d := [0, 1].foldl (fun d k =>
      match tget (fun _ => none) d.fab.rx (port * 2 + k) with
      | some r => (d.setRx port k none).rxBad r true false
      | none => d) d
    let d := d.portLinkDown port
    let d := d.portUpd fun x => { x with plca := tput (fun _ => {}) x.plca port {} }
    let d := if port < 12 then d.verifyStart port else d
    if 12 ≤ port ∧ port < 20 ∧ d.obj 0x4060 0x0E u = 5 then d.set 0x4060 0x0E 0 u else d

/-- The conditions under which a port takes part: it is enabled and powered, start-up is done, its member is not barred, and its segment is on. -/
def Dev.portReady (d : Dev) (port : Nat) : Bool :=
  let u := unitOfPort port
  d.flag 0x4020 0x01 u && d.unitPowered u && d.flag 0xC040 0x07 && !d.portsBarred && !d.segmentOff u

/-- The link of an S port follows its conditions: enabled, and line state OK or REVERSED CORRECTED (R194). -/
def Dev.segLink (d : Dev) (port : Nat) : Dev :=
  let state := d.obj 0x4060 0x0E (unitOfPort port)
  if port < 12 ∨ 20 ≤ port then d
  else if d.portReady port ∧ (state = 0 ∨ state = 5) then d.linkRise port 10
  else d.linkFall port

/-- The links of all S ports follow their conditions. -/
def Dev.segLinks (d : Dev) : Dev := (List.range 8).foldl (fun d i => d.segLink (12 + i)) d

/-- LINK_UP (R176, R194): the line side is ready at a rate; `half` and `word` are what an auto-negotiation word reports. -/
def execLinkUp (t port rate : Nat) (half : Bool) (word : Nat) (s : State) : Host.Outcome State Fault Refusal :=
  s.cmd t (port < 20 && rate < 65536 && word < 65536) fun d =>
    let u := unitOfPort port
    if ¬ d.portReady port then d
    else if port < 12 then
      let mode := d.obj 0x4010 0x01 u
      let d := (d.set 0x4010 0x04 1 u).set 0x4010 0x05 (if modeWord port mode then word else 0) u
      if (modeRates port mode).contains rate ∧ ¬ (half ∧ modeWord port mode) then d.linkRise port rate
      else if modeWord port mode then d.inc 0x4010 0x08 u else d
    else d.segLink port

/-- LINK_DOWN (R176): a condition of the link is lost; that of an S port goes down only with its own conditions (R194). An auto-negotiation word is one only in a mode that has it; half duplex or a speed that the mode does not carry counts, and a word that reports no link has speed 0. -/
def execLinkDown (t port : Nat) (loss : LinkLoss) (s : State) : Host.Outcome State Fault Refusal :=
  s.cmd t (port < 20 && (match loss with | .word _ rate value => rate < 65536 && value < 65536 | _ => true)) fun d =>
    let u := unitOfPort port
    let mode := d.obj 0x4010 0x01 u
    if 12 ≤ port then d.segLink port
    else match loss with
      | .lock n => ((d.inc 0x4010 0x09 u 0 n).set 0x4010 0x04 0 u).linkFall port
      | .errors n => d.inc 0x4010 0x09 u 0 n
      | .localFault => (d.inc 0x4010 0x06 u).linkFall port
      | .remoteFault => (d.inc 0x4010 0x07 u).linkFall port
      | .word half rate value =>
        if ¬ modeWord port mode then d
        else
          let d := d.set 0x4010 0x05 value u
          let odd : Bool := half || (rate != 0 && !(modeRates port mode).contains rate)
          let d := if odd then d.inc 0x4010 0x08 u else d
          if odd ∨ rate = 0 then d.linkFall port else d

/-! 10BASE-T1S (R191 to R197). -/

/-- PLCA_CYCLE_START (R191): the coordinator sends a BEACON of 20 bit times once the opportunities of the cycle before have been granted. -/
def execPlcaCycleStart (t port : Nat) (s : State) : Host.Outcome State Fault Refusal :=
  s.cmd t (12 ≤ port && port < 20) fun d =>
    let u := unitOfPort port
    let x := d.plcaAt port d.now
    if d.obj 0x4060 0x01 u = 0 ∧ d.obj 0x4060 0x07 u = 1 ∧ d.linkUp port ∧ (¬ x.running ∨ (¬ x.busy ∧ x.burst = 0 ∧ d.obj 0x4060 0x03 u ≤ x.idx)) then
      ((d.setPlca port { running := true, from_ := d.now + 20 * bitTime }).out (.beacon port)).inc 0x4060 0x08 u
    else d

/-- The PHY finds the line reversed (R196). -/
def Dev.lineReversed (d : Dev) (port : Nat) : Dev :=
  let u := unitOfPort port
  let correct := d.flag 0x4060 0x41 u
  if d.obj 0x4060 0x0E u ≠ 0 ∧ ¬ (d.obj 0x4060 0x0E u = 6 ∧ correct) then d
  else if correct then ((d.set 0x4060 0x0E 5 u).inc 0x4060 0x10 u).segLink port
  else (d.set 0x4060 0x0E 6 u).segLink port

/-- BEACON_RECEIVED (R192, R196): at its end, a follower's cycle begins; a coordinator steps down. A disabled port receives nothing. -/
def execBeaconReceived (t port : Nat) (reversed : Bool) (s : State) : Host.Outcome State Fault Refusal :=
  s.cmd t (12 ≤ port && port < 20) fun d =>
    let u := unitOfPort port
    if ¬ d.flag 0x4020 0x01 u ∨ ¬ d.unitPowered u ∨ d.segmentOff u then d
    else
    let d := if reversed then d.lineReversed port else d
    if d.obj 0x4060 0x01 u = 0 then
      (((d.inc 0x4060 0x09 u).set 0x4060 0x07 3 u)).event 6 (some 16) Ev.foreignBeacon.code u
    else if d.obj 0x4060 0x01 u = 1 then
      let d := d.portUpd fun x => { x with beaconAt := tput (fun _ => 0) x.beaconAt port d.now }
      let d := d.setPlca port { running := true, from_ := d.now }
      if d.obj 0x4060 0x07 u = 2 then d.set 0x4060 0x07 1 u else d
    else d

/-- BEACON_TIMEOUT (R192); a BEACON of the same tick is received instead (R11). -/
def execBeaconTimeout (t port : Nat) (s : State) : Host.Outcome State Fault Refusal :=
  s.timer t (12 ≤ port && port < 20) (fun _ c => match c with | .beaconReceived _ p _ => p == port | _ => false) fun d =>
    let u := unitOfPort port
    if d.obj 0x4060 0x01 u = 1 ∧ d.obj 0x4060 0x07 u = 1 ∧ tget (fun _ => 0) d.ports.beaconAt port + d.obj 0x4060 0x42 u * bitTime ≤ d.now then
      (d.set 0x4060 0x07 2 u).inc 0x4060 0x0A u
    else d

/-- A collision cuts off the frame on the line: it is to be sent again before any other (R180, R192, R193). -/
def Dev.cutOff (d : Dev) (x : Nat × Nat) (attempts : Nat) : Dev :=
  d.withCopy x fun d f c => d.putFrame (f.setCopy x.2 { c with started := false, retry := true, attempts := attempts, edit := none })

/-- A collision under PLCA (R192): the frame on the line is retried in the next opportunity, without back-off. -/
def Dev.plcaCollide (d : Dev) (port : Nat) : Dev :=
  let u := unitOfPort port
  if d.obj 0x4060 0x07 u ≠ 1 then d
  else
    let d := d.inc 0x4060 0x0B u
    match d.onLine port 0 with
    | some x => (d.cutOff x 0).setPlca port { (d.plcaAt port d.now) with busy := false, burst := 0, idx := (d.plcaAt port d.now).idx + 1, from_ := d.now } |>.finishIfReady
    | none => d

/-- A collision without PLCA (R193): back-off of a random number of slot times, or the frame is dropped. (DESIGN CHOICE: log entry 73.) -/
def Dev.csmaCollide (d : Dev) (port : Nat) (late : Bool) : Dev :=
  let u := unitOfPort port
  match d.onLine port 0 with
  | none => d
  | some x =>
    if d.obj 0x4060 0x07 u = 1 then d
    else
      let n := match d.frame? x.1 with
        | some f => match f.copies[x.2]? with | some c => c.attempts + 1 | none => 1
        | none => 1
      let drop (d : Dev) : Dev := d.withCopy x fun d f _ => d.putFrame (f.dropCopy x.2)
      if late then (drop (d.inc 0x4060 0x0C u)).finishIfReady
      else if 16 ≤ n then (drop (d.inc 0x4060 0x0D u)).finishIfReady
      else
        let (r, d) := d.free 7
        let d := d.portUpd fun y => { y with backoff := tput (fun _ => none) y.backoff port (some (d.now + r % 2 ^ min n 10 * 64000)) }
        (d.cutOff x n).finishIfReady

/-- BACKOFF_EXPIRY (R193). -/
def execBackoffExpiry (t port : Nat) (s : State) : Host.Outcome State Fault Refusal :=
  s.cmd t (12 ≤ port && port < 20) fun d =>
    match tget (fun _ => none) d.ports.backoff port with
    | some e => if e ≤ d.now then d.portUpd fun y => { y with backoff := tput (fun _ => none) y.backoff port none } else d
    | none => d

/-- Value of a line fault in Table 7.4. -/
def faultValue : LineFault → Nat
  | .open_ => 1
  | .shortGround => 2
  | .shortSupply => 3
  | .linesShorted => 4
  | .reversed => 6

/-- The line state for the faults present: the lowest value of 1 to 4 (R195). -/
def lowestFault (m : Nat) : Nat := ([1, 2, 3, 4].find? (fun k => bit m k)).getD 0

/-- A line fault is declared (R195, R196): a fault that has persisted for 1 ms. (DESIGN CHOICE: log entry 76.) -/
def Dev.faultDeclare (d : Dev) (port : Nat) (f : LineFault) : Dev :=
  let u := unitOfPort port
  if f = .reversed then d.lineReversed port
  else
    let m := tget (fun _ => 0) d.ports.faults port
    if bit m (faultValue f) then d
    else
      let m := setBit m (faultValue f) true
      let d := d.portUpd fun x => { x with faults := tput (fun _ => 0) x.faults port m }
      ((d.linkFall port).set 0x4060 0x0E (lowestFault m) u).inc 0x4060 0x0F u

/-- LINE_FAULT_CLEAR (R195): a fault that has been absent for 10 ms. -/
def execLineFaultClear (t port : Nat) (f : LineFault) (s : State) : Host.Outcome State Fault Refusal :=
  s.cmd t (12 ≤ port && port < 20) fun d =>
    let u := unitOfPort port
    if f = .reversed then (if d.obj 0x4060 0x0E u = 6 then (d.set 0x4060 0x0E 0 u).segLink port else d)
    else
      let m := tget (fun _ => 0) d.ports.faults port
      if ¬ bit m (faultValue f) then d
      else
        let m := setBit m (faultValue f) false
        ((d.portUpd fun x => { x with faults := tput (fun _ => 0) x.faults port m }).set 0x4060 0x0E (lowestFault m) u).segLink port

/-- CABLE_TEST_COMPLETE (R197): result 2 OK, 3 open or 4 short, and the distance in dm. (DESIGN CHOICE: log entry 76.) -/
def execCableTestComplete (t port result distance : Nat) (s : State) : Host.Outcome State Fault Refusal :=
  s.cmd t (12 ≤ port && port < 20 && 2 ≤ result && result ≤ 4 && distance < 65536) fun d =>
    let u := unitOfPort port
    if d.obj 0x4060 0x12 u = 1 then (d.set 0x4060 0x12 result u).set 0x4060 0x13 distance u else d

/-! Almanac writes of 4000–4FFF. -/

/-- Whether a lane map is a permutation within its group (R175). -/
def lanePermutation (v n lo : Nat) : Bool :=
  let b := beBytes n v
  (List.range n).all (fun k => b.any (fun x => x.toNat == lo + k))

/-- A node ID fits a PLCA mode (R191). (DESIGN CHOICE: log entry 177.) -/
def nodeFits (mode id : Nat) : Bool := if mode = 0 then id == 0 else if mode = 1 then 1 ≤ id && id ≤ 31 else true

/-- The lane that carries a port, and the inversion of its polarity, as the port is enabled (R175). -/
def Dev.laneSetup (d : Dev) (u : Nat) : Dev :=
  let port := portOfUnit u
  if 12 ≤ port then d
  else
    let map := if port < 4 then beBytes 4 (d.obj 0x4000 0x01) else beBytes 8 (d.obj 0x4000 0x02)
    let me := if port < 4 then port else port - 4
    let lane := (map.findIdx (fun b => b.toNat == me))
    let rx := d.flag 0x4010 0x03 u
    let tx := d.flag 0x4010 0x02 u
    (d.portUpd fun x => { x with lane := tput (fun _ => none) x.lane port (some (lane, rx, tx)) }).out (.lane port lane rx tx)

/-- Checks 10 of 4000–4FFF beyond type and range. -/
def Dev.portValue (d : Dev) (idx sub u v : Nat) : Nat :=
  match idx, sub with
  | 0x4000, 0x01 => if lanePermutation v 4 0 then 0 else 0x302
  | 0x4000, 0x02 => if lanePermutation (v / 2 ^ 32) 4 0 ∧ lanePermutation (v % 2 ^ 32) 4 4 then 0 else 0x302
  | 0x4010, 0x01 => if (u < 5 ∧ 3 < v) ∨ (5 ≤ u ∧ 1 < v) then 0x302 else 0
  | 0x4050, 0x01 => if v ≠ 0 ∧ 13 ≤ u ∧ u < 21 then 0x302 else 0
  | 0x4050, 0x02 => if v ≤ d.obj 0x4050 0x03 u then 0x301 else 0
  | 0x4050, 0x03 => if d.obj 0x4050 0x02 u ≤ v then 0x301 else 0
  | 0x4060, 0x01 => if nodeFits v (d.obj 0x4060 0x02 u) then 0 else 0x302
  | 0x4060, 0x02 => if nodeFits (d.obj 0x4060 0x01 u) v then 0 else 0x302
  | _, _ => 0

/-- Check 11 of 4000–4FFF. -/
def Dev.portStopped (d : Dev) (idx sub u : Nat) : Bool :=
  match idx with
  | 0x4000 => if sub = 1 then (List.range 4).all (fun i => !d.flag 0x4020 0x01 (uN i)) else (List.range 8).all (fun i => !d.flag 0x4020 0x01 (uE i))
  | 0x4010 => !d.flag 0x4020 0x01 u
  | 0x4060 => !d.flag 0x4020 0x01 u
  | _ => true

/-- Checks 12 and 13 of 4000–4FFF: the port of a managed segment stays enabled (R375). -/
def Dev.portDeps (d : Dev) (idx sub u v : Nat) : Nat :=
  if idx = 0x4060 ∧ sub = 0x11 ∧ v = 1 ∧ d.flag 0x4020 0x01 u then 0x307
  else if idx = 0x4020 ∧ sub = 0x01 ∧ v = 0 ∧ 13 ≤ u ∧ u < 21 ∧ d.flag 0xA020 0x01 u then 0x304
  else 0

/-- What an accepted write of 4000–4FFF does. -/
def Dev.portApply (d : Dev) (idx sub u r v : Nat) : Dev :=
  match idx, sub with
  | 0x4020, 0x01 =>
    let was := d.flag 0x4020 0x01 u
    let d := d.set idx sub v u
    if v = 0 then
      let d := d.linkFall (portOfUnit u)
      if 13 ≤ u ∧ u < 21 then d.set 0x4060 0x07 0 u else if u < 13 then d.set 0x4010 0x04 0 u else d
    else if was then d else (d.laneSetup u).segLink (portOfUnit u)
  | 0x4050, 0x01 => let d := d.set idx sub v u; if v = 0 then d.set 0x4050 0x07 0 u else d
  | 0x4030, 0x01 => (d.set idx sub v u).set 0x4030 0x02 (max v (d.obj 0x4030 0x02 u)) u
  | 0x4030, 0x42 => if v = 1 then (d.set 0x4030 0x02 (d.obj 0x4030 0x01 u) u).set 0x4030 0x04 0 u else d
  | 0x4040, 0x01 => if d.obj 0x4040 0x01 u = v then d else (d.set idx sub v u).verifyStart (portOfUnit u)
  | 0x4060, 0x01 => (d.set idx sub v u).set 0x4060 0x07 0 u
  | 0x4060, 0x11 => if v = 1 then d.set 0x4060 0x12 1 u else d
  | _, _ => d.set idx sub v u r

end Sys2Proof.Machine
end

