-- ==== Sys2Proof/Machine/Reset.lean ====
section
/-! DEFINITION. The CORE reset (R397, R488, R489). -/
namespace Sys2Proof.Machine

/-- Objects that survive a CORE reset: the always-on objects of R397, the fuse count of the repairs, and the counts of failed starts and reverts, which only a restart makes. (DESIGN CHOICE: log entry 17.) -/
def keptIndex (idx sub : Nat) : Bool :=
  (0xA000 ≤ idx && idx < 0xB000) || idx == 0x6880 || idx == 0x6890 || idx == 0x68A0 || idx == 0x68B0 ||
    (idx == 0xC040 && sub == 0x0A) || (idx == 0xB800 && (sub == 0x06 || sub == 0x07))

/-- A store key belongs to a kept object. -/
def keptKey (k : Nat) : Bool := keptIndex (k / 256 % 65536) (k % 256)

/-- What a CORE reset leaves (R488, R489), with the repair mode selected for the start and the repairs that are burned (R469): the always-on domain, the flash, the fuses and the pins; every other unit is in its reset state, and the time counters start again from 0. (DESIGN CHOICE: log entry 17.) -/
def Dev.coreReset (d : Dev) (cause : Nat) : Dev :=
  let b := d.binReset
  let e : Dev :=
  { now := d.now
    ltEpoch := d.now
    stackId := d.stackId
    store := d.store.filter (fun x => keptKey x.1)
    integ := { repairMode := if d.flash.booted then d.obj 0xC040 0x01 else d.integ.repairMode, spares := d.integ.burned, burned := d.integ.burned }
    bin := b.bin
    watch := { d.watch with segs := d.watch.segs }
    flash := { d.flash with cause := cause, quarters := [], block := 0, healthy := none, confirmed := false, added := 0, recovery := false, booted := false }
    freeCount := d.freeCount
    outbox := d.outbox }
  ((e.set 0x9400 0x04 d.stackId).set 0xC040 0x08 ((d.integ.burned.map (·.2.1)).sum)).set 0xC040 0x09 ((d.integ.burned.map (·.2.2)).sum)

/-- STARTUP_SOUNDING_COMPLETE (R465, R466, R469): the blocks that fail at start are repaired or retired, and `A:C040.07` is set; the links of the S ports may then rise (R194). -/
def execStartupSoundingComplete (t : Nat) (tests : List (Nat × Nat × BlockTest)) (s : State) : Host.Outcome State Fault Refusal :=
  s.cmd t (tests.all (fun x => x.1 ≤ 8 && x.2.1 < memoryBlocks x.1)) fun d =>
    ((tests.foldl (fun d x => d.startupBlock x.1 x.2.1 x.2.2) d).set 0xC040 0x07 1).healthStart.segLinks

end Sys2Proof.Machine
end

