-- ==== Sys2Proof/Machine/StackLink.lean ====
section
/-! DEFINITION. The stack: links and hellos, membership, lead selection, time across the stack and the remote bridge (R351 to R374). -/
namespace Sys2Proof.Machine

/-- Replace the stack's state. -/
def Dev.stackUpd (d : Dev) (f : StackSt → StackSt) : Dev := { d with stack := f d.stack }

/-- Replace a stack link. -/
def Dev.setKlink (d : Dev) (k : Nat) (x : KLink) : Dev := d.stackUpd fun s => { s with links := tput (fun _ => {}) s.links k x }

/-- State of a member as this member sees it (Table 14.3). -/
def Dev.mState (d : Dev) (m : Nat) : Nat := if m = d.stackId then d.stack.self else d.obj 0x9410 0x01 0 m

/-- An event of the stack on vector 19. -/
def Dev.stackEvent (d : Dev) (e : Ev) (data : Bytes := []) : Dev := d.event 10 (some 19) e.code 0 data

/-! Hellos and the topology (R352, R354). -/

/-- The last hellos on the links that are up, a duplicate's left out. -/
def Dev.hellos (d : Dev) : List Hello := ([0, 1].filter (fun k => d.klinkState k == 2 && !(d.klink k).dup)).filterMap (fun k => (d.klink k).hello)

/-- What the links that are up have told of a member. -/
def Dev.memberInfo (d : Dev) (m : Nat) : Option MemberInfo :=
  let hs := d.hellos
  match hs.find? (fun h => h.self.member == m) with
  | some h => some h.self
  | none => (hs.flatMap (·.others)).find? (fun i => i.member == m)

/-- The neighbour on a link that is up, none where a duplicate is held out. -/
def Dev.neighbour (d : Dev) (k : Nat) : Option Nat := if d.klinkState k = 2 ∧ ¬ (d.klink k).dup then (d.klink k).hello.map (·.self.member) else none

/-- Members at this member's links that are up. -/
def Dev.neighbours (d : Dev) : List Nat := ([0, 1].filterMap d.neighbour).filter (fun m => m != d.stackId)

/-- CP0 of this member is held in reset (R30). -/
def Dev.cp0Held (d : Dev) : Bool := (tget (fun _ => {}) d.pairs 0).state == 2

/-- This member's own entry of a hello. -/
def Dev.selfInfo (d : Dev) : MemberInfo :=
  { member := d.stackId, firmware := d.obj 0x1000 0x05, image := d.obj 0x1000 0x06, boots := (d.flash.boot.map (·.count)).getD 0,
    applied := d.obj 0x9400 0x07, clock := d.obj 0x9400 0x05, lead := d.obj 0x9400 0x04, state := d.stack.self, cp0Held := d.cp0Held, links := d.neighbours,
    reason := d.obj 0x9410 0x05 0 d.stackId }

/-- The hello that leaves on a K port (R352). -/
def Dev.helloOut (d : Dev) (k : Nat) : Hello :=
  { self := d.selfInfo, port := k,
    others := ((List.range 4).filter (fun m => m != d.stackId && d.mState m != 0)).filterMap (fun m => (d.memberInfo m).map (fun i => { i with state := d.mState m, reason := d.obj 0x9410 0x05 0 m })) }

/-- Links of a member, as the hellos tell; this member is left out. -/
def Dev.linksOf (d : Dev) (m : Nat) : List Nat := (((d.memberInfo m).map (·.links)).getD []).filter (fun x => x != d.stackId)

/-- Steps from a set of members to a member without passing through this one. -/
def Dev.stepsTo (d : Dev) (m : Nat) : Nat → List Nat → List Nat → Option Nat
  | 0, _, _ => none
  | n + 1, front, seen =>
    if front.contains m then some 0
    else
      let next := (front.flatMap d.linksOf).filter (fun x => !(seen.contains x) && !(front.contains x))
      if next.isEmpty then none else (d.stepsTo m n next (seen ++ front)).map (· + 1)

/-- Hops to a member by way of a K link (R354). -/
def Dev.hopsVia (d : Dev) (k m : Nat) : Option Nat :=
  match d.neighbour k with
  | some n => if n = d.stackId then none else (d.stepsTo m 4 [n] []).map (· + 1)
  | none => none

/-- Hops and path to a member: the shorter way, on equal hops the port of `A:9400.09` (R358). -/
def Dev.pathTo (d : Dev) (m : Nat) : Option (Nat × Nat) :=
  match d.hopsVia 0 m, d.hopsVia 1 m with
  | some a, some b => if a < b then some (a, 1) else if b < a then some (b, 2) else some (a, 1 + d.obj 0x9400 0x09)
  | some a, none => some (a, 1)
  | none, some b => some (b, 2)
  | none, none => none

/-- The topology (`A:9400.02`): a ring when the links of the members form one closed cycle. (DESIGN CHOICE: log entry 108.) -/
def Dev.topology (d : Dev) : Nat :=
  let ms := (List.range 4).filter (fun m => m != d.stackId && (d.pathTo m).isSome)
  let ends := d.neighbours.length + (ms.map (fun m => (((d.memberInfo m).map (·.links)).getD []).length)).sum
  if ms.isEmpty then 0 else if 2 ≤ ms.length ∧ ends = 2 * (ms.length + 1) then 2 else 1

/-! The lead (R356, R366). -/

/-- The member whose server serves: the PRESENT member with the lowest number whose CP0 is not held in reset. -/
def Dev.leadChoice (d : Dev) : Nat :=
  ((List.range 4).find? (fun m => d.mState m == 2 && !(if m = d.stackId then d.cp0Held else ((d.memberInfo m).map (·.cp0Held)).getD false))).getD d.stackId

/-- Time left of a lease. -/
def Dev.leaseLeft (d : Dev) : Nat := d.alm.leaseEnd - d.now

/-- Time left of the lease in the replica of a member that is not the lead, which runs while no change of lead has begun (R356). -/
def Dev.replicaLease (d : Dev) : Nat :=
  match d.stack.lease, d.stack.leaseFrom with
  | some l, some a => l - (d.now - a)
  | some l, none => l
  | none, _ => d.leaseLeft

/-- Zone time of a member that becomes lead goes on without a step (R366); while its CP2 restarts that waits for the restart's end (R89). (DEDUCED: log entry 215.) -/
def Dev.zoneTakeOver (d : Dev) : Dev :=
  if ¬ d.cpUp 2 then d
  else if d.ownZone then d.set 0x9430 0x01 0
  else
    let d := d.set 0x9430 0x01 0
    if d.domState 0 = 3 then d.startBlend 0 else if d.domState 1 = 3 then d.startBlend 1 else d.deadReckon d.meanRate

/-- Select the lead (R356): the old lead forwards its waiting requests, the lease freezes until the new lead serves. (DEDUCED: log entries 113, 197.) -/
def Dev.leadSelect (d : Dev) : Dev :=
  let old := d.obj 0x9400 0x04
  let new := d.leadChoice
  if new = old then d
  else
    let d := ((d.inc 0x9400 0x06).set 0x9400 0x04 new).stackUpd fun x => { x with lease := some d.replicaLease, leaseFrom := none }
    if old = d.stackId then
      let keep := if d.alm.waiting then d.alm.queue.take 1 else []
      let go := if d.alm.waiting then d.alm.queue.drop 1 else d.alm.queue
      let d := go.foldl (fun d q => d.forwardOn q true) d
      let d := d.almUpd fun x => { x with queue := keep }
      d.set 0x9430 0x01 1
    else if new = d.stackId then d.zoneTakeOver
    else d

/-! Membership (R355, R357, R372). -/

/-- This stack has formed: another member is PRESENT. -/
def Dev.formed (d : Dev) : Bool := (List.range 4).any (fun m => m != d.stackId && d.obj 0x9410 0x01 0 m == 2)

/-- The lead device claims at formation when nobody holds the lease (R59): it takes part in an open election window, or opens one as its first participant. (DEDUCED: log entry 112.) -/
def Dev.leadClaim (d : Dev) : Dev :=
  match (List.range 16).find? (fun r => d.obj 0x1010 0x01 0 r == 4) with
  | some r =>
    if d.isLead ∧ d.obj 0x1011 0x02 = 0 then
      (d.set 0x1011 0x02 1).almUpd fun x => { x with windowEnd := d.now + d.obj 0x1011 0x41 * perMs, participants := [{ record := r, arrived := d.now, claims := [] }] }
    else if d.isLead ∧ d.obj 0x1011 0x02 = 1 ∧ ¬ d.alm.participants.any (fun p => p.record == r) then
      d.almUpd fun x => { x with participants := x.participants ++ [{ record := r, arrived := d.now, claims := [] }] }
    else d
  | none => d

/-- What the stack objects show after a change of membership. -/
def Dev.stackView (d : Dev) : Dev :=
  let up := [0, 1].any (fun k => d.klinkState k == 2)
  let was := d.obj 0x9400 0x01
  let v := if ¬ up then 0 else if d.formed ∧ d.stack.self = 2 then 2 else 1
  let d := (d.set 0x9400 0x01 v).set 0x9400 0x02 d.topology
  let d := if v = 0 then d.set 0x9400 0x05 Config.clockIdentity else d
  let d := if d.obj 0x9400 0x04 = d.stackId ∨ v ≠ 2 then d else if d.obj 0x9430 0x01 = 0 then d.set 0x9430 0x01 1 else d
  if v = 2 ∧ was ≠ 2 then d.leadClaim else d

/-- The ports of this member may come UP: it is PRESENT, or it stands alone (R355). -/
def Dev.unbar (d : Dev) : Dev :=
  let d := (d.stackUpd fun x => { x with self := 2 }).segLinks
  if d.obj 0x9000 0x01 = 2 then d.portLinkUp 22 else d

/-- A member becomes PRESENT. -/
def Dev.memberIn (d : Dev) (m : Nat) : Dev :=
  if m = d.stackId then (if d.stack.self = 2 then d else d.unbar.inc 0x9410 0x03 0 m)
  else if d.obj 0x9410 0x01 0 m = 2 then d
  else ((d.set 0x9410 0x01 2 0 m).inc 0x9410 0x03 0 m).stackEvent .memberAdmitted [BitVec.ofNat 8 m]

/-- A joining member is held out for a reason (R357, R373). -/
def Dev.holdOut (d : Dev) (m reason : Nat) : Dev :=
  let d := if m = d.stackId then d.stackUpd fun x => { x with self := 3 } else d.set 0x9410 0x01 3 0 m
  (d.set 0x9410 0x05 reason 0 m).stackEvent .memberHeld [BitVec.ofNat 8 m, BitVec.ofNat 8 reason]

/-- An entry of the bridge error log, newest first (R369). -/
def Dev.bridgeLog (d : Dev) (r : BridgeReq) (status : Nat) : Dev :=
  let n := d.obj 0x9440 0x07
  let d := if n = 16 then d.inc 0x9440 0x08 else d.set 0x9440 0x07 (n + 1)
  let d := (List.range 15).foldl (fun d k => [1, 2, 3, 4, 5].foldl (fun d s => d.set 0x9441 s (d.obj 0x9441 s 0 (14 - k)) 0 (15 - k)) d) d
  let d := (((d.set 0x9441 1 r.target).set 0x9441 2 r.addr).set 0x9441 3 status).set 0x9441 4 r.pair
  ((d.set 0x9441 5 d.ltTime).inc 0x9440 0x02).stackEvent .bridgeError

/-- A held read ends with all-ones and a read error (R370). -/
def Dev.bridgeFail (d : Dev) (r : BridgeReq) : Dev :=
  (d.stackUpd fun x => { x with reads := x.reads.filter (fun y => y != r) }).out (.bridgeRead r.pair (List.replicate r.len 0xFF) true)

/-- Bridge traffic to a lost member ends (R369, R370). -/
def Dev.bridgeLost (d : Dev) (m : Nat) : Dev :=
  let ws := (d.stack.writes ++ d.stack.held.map (·.1)).filter (fun r => r.target == m)
  let rs := d.stack.reads.filter (fun r => r.target == m)
  let d := d.stackUpd fun x => { x with writes := x.writes.filter (fun r => r.target != m), held := x.held.filter (fun y => y.1.target != m) }
  rs.foldl Dev.bridgeFail (ws.foldl (fun d r => d.bridgeLog r 4) d)

/-- Frames for a lost member that wait in the buffer are dropped (R360, R372). -/
def Dev.framesLost (d : Dev) (m : Nat) : Dev :=
  let hit (c : Copy) : Bool := !c.started && (match c.hdr with | some (x, _, _) => x == m | none => false)
  d.fab.frames.foldl (fun d f =>
    let n := (f.copies.filter hit).length
    if n = 0 then d else (d.inc 0x9400 0x0B 0 0 n).putFrame { f with copies := f.copies.filter (fun c => !hit c) }) d

/-- A member is lost (R372). -/
def Dev.memberLost (d : Dev) (m : Nat) : Dev :=
  if d.obj 0x9410 0x01 0 m = 0 then d
  else
    let d := ((((d.set 0x9410 0x01 0 0 m).inc 0x9410 0x04 0 m).inc 0x9400 0x08).set 0x9410 0x06 0 0 m).set 0x9410 0x07 0 0 m
    let d := d.set 0x9410 0x05 0 0 m
    ((((d.chartForget m).framesLost m).bridgeLost m).fabUpd fun x => { x with pathHold := tput (fun _ => none) x.pathHold m none }).stackEvent .pathLoss [BitVec.ofNat 8 m]

/-- The ports of this member other than K0 and K1 go DOWN while it is JOINING or HELD OUT (R355). -/
def Dev.joinStack (d : Dev) : Dev :=
  if d.stack.self ≠ 2 then d
  else
    let d := (List.range 20).foldl Dev.linkFall (d.stackUpd fun x => { x with self := 1 })
    if d.linkUp 22 then d.portLinkDown 22 else d

/-- One member in the new topology: reached, on a new path, or lost. -/
def Dev.memberPath (d : Dev) (m : Nat) : Dev :=
  if m = d.stackId then d
  else match d.pathTo m with
  | none => d.memberLost m
  | some (h, p) =>
    let was := d.obj 0x9410 0x07 0 m
    let d := (d.set 0x9410 0x06 h 0 m).set 0x9410 0x07 p 0 m
    let d := match d.memberInfo m with
      | some i =>
        let d := d.set 0x9410 0x02 i.firmware 0 m
        if d.obj 0x9410 0x01 0 m = 2 then d.set 0x9401 0x04 i.applied 0 m else d
      | none => d
    if d.obj 0x9410 0x01 0 m = 0 then d.set 0x9410 0x01 1 0 m
    else if was ≠ 0 ∧ was ≠ p then d.fabUpd fun x => { x with pathHold := tput (fun _ => none) x.pathHold m (some (d.now + 20 * perUs)) }
    else d

/-- What the hellos show of a member's standing: what a member that is held out, or whose stack this member joins, says of itself, and what its PRESENT neighbours say of the others (R355). -/
def Dev.shown (d : Dev) (m : Nat) : Option MemberInfo :=
  let own := (d.hellos.map (·.self)).filter (fun i => i.state == 3 || d.stack.self != 2)
  let seen := (d.hellos.filter (fun h => h.self.state == 2 && (d.stack.self != 2 || d.obj 0x9410 0x01 0 h.self.member == 2))).flatMap (·.others)
  (own ++ seen).find? (fun i => i.member == m && (i.state == 2 || i.state == 3))

/-- The standing of a member here follows the view that the hellos carry (R355). A member whose record overflowed leaves HELD OUT when the stack shows it as admitted (R373); one that joins is PRESENT once it follows the lead's time. (DEDUCED: log entry 107.) -/
def Dev.adoptOne (d : Dev) (m : Nat) : Dev :=
  match d.shown m with
  | none => d
  | some i =>
    if m = d.stackId then
      if d.stack.self = 1 ∧ i.state = 3 then d.holdOut m i.reason
      else if d.stack.self = 1 ∧ i.state = 2 ∧ d.obj 0x9430 0x01 = 2 then d.memberIn m
      else if d.stack.self = 3 ∧ d.obj 0x9410 0x05 0 m = 4 ∧ i.state = 2 then ((d.set 0x9410 0x05 0 0 m).memberIn m).stackEvent .memberAdmitted [BitVec.ofNat 8 m]
      else d
    else if d.obj 0x9410 0x01 0 m = 0 then d
    else if i.state = 2 then
      let d := (d.set 0x9410 0x05 0 0 m).memberIn m
      if d.stack.self = 2 then d else d.set 0x9400 0x05 i.clock
    else if d.obj 0x9410 0x01 0 m = 1 then d.holdOut m i.reason
    else d

/-- Every member's standing follows the view of the stack (R355). -/
def Dev.adopt (d : Dev) : Dev := (List.range 4).foldl Dev.adoptOne d

/-- Every member takes part in the view after a change of the links (R354, R355, R372). With no link up this member is stand-alone. (DEDUCED: log entry 107.) -/
def Dev.stackSettle (d : Dev) : Dev :=
  let d := (List.range 4).foldl Dev.memberPath d
  let d := if ¬ [0, 1].any (fun k => d.klinkState k == 2) ∧ d.stack.self ≠ 2 then (d.set 0x9410 0x05 0 0 d.stackId).unbar else d.adopt
  d.leadSelect.stackView

/-- The stack at the other end of a link goes before this one, so that this member joins it: it has formed and this one has not, or of two equals it has the lower lead. (DEDUCED: log entry 107.) -/
def Dev.goesFirst (d : Dev) (h : Hello) : Bool :=
  let theirs := h.self.state == 2 && h.others.any (fun i => i.state == 2)
  h.self.state == 2 && (if theirs == d.formed then decide (h.self.lead < d.obj 0x9400 0x04) else theirs)

/-- The stack at the other end of a link has a PRESENT member of this member's number (R357). -/
def Dev.numberTaken (d : Dev) (h : Hello) : Bool :=
  (h.self.member == d.stackId && h.self.state == 2) || (!d.formed && h.others.any (fun i => i.member == d.stackId && i.state == 2))

/-- The member at the other end of a link has the number of a member that is PRESENT here and is another one (R357). -/
def Dev.numberHeld (d : Dev) (h : Hello) : Bool :=
  h.self.member == d.stackId || (d.memberPresent h.self.member && !h.others.any (fun i => i.member == d.stackId && i.state == 2))

/-- A stack link comes up: its frames may flow, the objects of its port follow it (R173, R198), and one of the two sides joins the other (R352, R355). A joining member whose number is taken is held out, on both sides (R357). (DEDUCED: log entries 107, 114.) -/
def Dev.stackUp (d : Dev) (k : Nat) (h : Hello) : Dev :=
  let u := uK k
  let taken := d.numberTaken h
  let held := d.numberHeld h
  let first := d.goesFirst h
  let joins := first && (taken || d.mState h.self.member != 2)
  let d := (((d.set 0x9420 0x02 2 u).set 0x9420 0x03 h.self.member u).set 0x9420 0x04 h.port u).inc 0x9420 0x05 u
  let d := ((((d.set 0x4020 0x03 1 u).set 0x4020 0x04 25000 u).inc 0x4020 0x05 u).set 0x4000 0x03 (setBit (d.obj 0x4000 0x03) (20 + k) true)).portLinkUp (20 + k)
  if joins then (if taken then d.joinStack.holdOut d.stackId 1 else d.joinStack).stackSettle
  else if held then
    (((d.setKlink k { d.klink k with dup := true }).set 0x9410 0x05 1 0 h.self.member).stackEvent .memberHeld [BitVec.ofNat 8 h.self.member, 1]).stackSettle
  else d.stackSettle

/-- A stack link goes down: what crosses it ends, and the members behind it are lost (R352, R372). It keeps block lock or not. (DEDUCED: log entry 109.) -/
def Dev.stackFall (d : Dev) (k : Nat) (locked : Bool) : Dev :=
  let u := uK k
  let was := d.klinkState k
  let d := if (d.klink k).dup then d.set 0x9410 0x05 0 0 (d.obj 0x9420 0x03 u) else d
  let d := (d.setKlink k {}).set 0x9420 0x02 (b2n locked) u
  if was ≠ 2 then d
  else
    let d := ((d.set 0x9420 0x03 0xFF u).set 0x9420 0x04 0xFF u).inc 0x9420 0x06 u
    let d := (((d.set 0x4020 0x03 0 u).set 0x4020 0x04 0 u).inc 0x4020 0x06 u).set 0x4000 0x03 (setBit (d.obj 0x4000 0x03) (20 + k) false)
    let d := [0, 1].foldl (fun d j =>
      match tget (fun _ => none) d.fab.rx ((20 + k) * 2 + j) with
      | some r => (d.setRx (20 + k) j none).rxBad r true false
      | none => d) d
    (d.portLinkDown (20 + k)).stackSettle

/-- STACK_LINK_LOCK (R352): a powered, enabled lane pair reaches block lock. -/
def execStackLinkLock (t k : Nat) (s : State) : Host.Outcome State Fault Refusal :=
  s.cmd t (k < 2) fun d =>
    if d.klinkState k = 0 ∧ d.flag 0x9420 0x01 (uK k) ∧ d.unitPowered (uK k) then (d.setKlink k {}).set 0x9420 0x02 1 (uK k) else d

/-- A time that comes again after an interval is due. -/
def dueAgain (last : Option Nat) (interval now : Nat) : Bool := match last with | some a => decide (a + interval ≤ now) | none => true

/-- HELLO_SEND (R352): every 100 µs a hello leaves on every link that has lock. -/
def execHelloSend (t : Nat) (s : State) : Host.Outcome State Fault Refusal :=
  s.cmd t true fun d =>
    if dueAgain d.stack.helloAt (100 * perUs) d.now then
      [0, 1].foldl (fun d k => if d.klinkState k = 0 then d else d.sendLink k (.hello k (d.helloOut k))) (d.stackUpd fun x => { x with helloAt := some d.now })
    else d

/-! Time across the stack (R364 to R366). -/

/-- TIME_MESSAGE_SEND (R364): every 7.8125 ms the lead sends its zone time on every link that is up, to a member that joins as well (Table 14.6). -/
def execTimeMessageSend (t : Nat) (s : State) : Host.Outcome State Fault Refusal :=
  s.cmd t true fun d =>
    if ¬ d.isLead ∨ d.neighbours.isEmpty ∨ ¬ dueAgain d.stack.timeAt 9765625 d.now then d
    else
      let d := d.stackUpd fun x => { x with timeAt := some d.now }
      let m : TimeMsg := { zt := clk16 d.sex.zt.val, added := 0, state := d.obj 0x8000 0x03, clockClass := d.obj 0x8000 0x0B }
      [0, 1].foldl (fun d k => if (d.neighbour k).isSome then d.sendTime k m else d) d

/-- Zone time follows the lead's (R364): `lead` is the lead's zone time now, in 2^-48 ns. (DEDUCED: log entry 116.) -/
def Dev.followLead (d : Dev) (lead : Int) : Dev :=
  let e := d.sex.zt.val - lead
  let st := d.obj 0x9430 0x01
  let beyond : Bool := decide ((d.obj 0x8030 0x43 : Int) * 2 ^ 48 < (absN e : Int))
  let stepNow : Bool := beyond && st == 1 && d.obj 0x8000 0x03 == 0
  let d := (d.set 0x9430 0x02 (ofI32 (clkNs e))).inc 0x9430 0x03
  let d := if stepNow then (d.zoneStep e).inc 0x9430 0x04 else d
  let e' := if stepNow then 0 else e
  let d := if st = 1 then (d.sexUpd fun x => { x with blend := none, rzHist := [], tracked := true }) else d
  let d := d.set 0x9430 0x01 2
  let prev := if st = 1 then none else d.stack.lastMsg
  let d := match prev with
    | some (_, m0, l0) =>
      let dm := lead - m0
      let dl : Int := (4 * 2 ^ 48 * ((d.lt - l0 : Nat) : Int)) / 5
      if dm ≤ 0 ∨ dl ≤ 0 then d
      else
        let corr := clampI (- rdiv (e' * 2 ^ 48) (dm * 2 ^ d.obj 0x8030 0x41)) (ppb48 (d.obj 0x8030 0x02))
        let rz := rdiv ((dm - dl) * 2 ^ 48) dl + corr
        d.sexUpd fun x => { x with zt := { d.sex.zt with rate := rz }, rzHist := (rz :: d.sex.rzHist).take 64 }
    | none => d
  d.stackUpd fun x => { x with lastMsg := some (d.now, lead, d.lt) }

/-- TIME_MESSAGE_RECEIVED (R364): a member follows the lead by the messages that come on its path to the lead, and forwards them away from it; its residence time is a free value. (DESIGN CHOICE: log entry 50; DEDUCED: log entry 116.) -/
def execTimeMessageReceived (t k : Nat) (m : TimeMsg) (s : State) : Host.Outcome State Fault Refusal :=
  s.cmd t (k < 2) fun d =>
    let d := if d.klinkState k = 2 ∧ d.macsecOn (20 + k) then d.inc64 0xB100 0x0E (uK k) else d
    if d.isLead ∨ d.klinkState k ≠ 2 ∨ d.obj 0x9410 0x07 0 (d.obj 0x9400 0x04) ≠ k + 1 then d
    else
      let added := m.added + d.obj 0x9420 0x0A (uK k) * 65536 / 1000
      let d := d.followLead (((m.zt + added : Nat) : Int) * 2 ^ 32)
      let d := if d.obj 0x8000 0x03 = m.state then d else d.sexUpd fun x => { x with stateAt := d.now }
      let d := (d.set 0x8000 0x03 m.state).set 0x8000 0x0B m.clockClass
      let away := 1 - k
      if (d.neighbour away).isSome ∧ d.neighbour away ≠ some (d.obj 0x9400 0x04) then
        let (q, d) := d.free 41
        d.sendTime away { m with added := added + lt16 q }
      else d

/-- TIME_MESSAGE_LOSS (R366): no time message for 3 intervals. -/
def execTimeMessageLoss (t : Nat) (s : State) : Host.Outcome State Fault Refusal :=
  s.timer t true (fun d c => match c with | .timeMessageReceived _ k _ => d.obj 0x9410 0x07 0 (d.obj 0x9400 0x04) == k + 1 | _ => false) fun d =>
    match d.stack.lastMsg with
    | some (at_, _, _) =>
      if d.obj 0x9430 0x01 = 2 ∧ at_ + 3 * 9765625 ≤ d.now then
        let l := d.sex.rzHist.take 16
        let r := if l = [] then d.sex.zt.rate else rdiv l.sum l.length
        ((d.setZt { d.sex.zt with rate := r }).set 0x9430 0x01 3).inc 0x9430 0x05
      else d
    | none => d

/-- LINK_DELAY_ROUND_TRIP (R364): every 125 ms, a round trip in ps; the link delay is half of it. (PRESUMED: log entry 51.) -/
def execLinkDelayRoundTrip (t k trip : Nat) (s : State) : Host.Outcome State Fault Refusal :=
  s.cmd t (k < 2 && trip / 2 < 2 ^ 32) fun d =>
    if d.klinkState k = 2 ∧ dueAgain (d.klink k).tripAt 156250000 d.now then (d.setKlink k { d.klink k with tripAt := some d.now }).set 0x9420 0x0A (trip / 2) (uK k) else d

/-- PATH_CHANGE_HOLD_END (R360). (DEDUCED: log entry 67.) -/
def execPathChangeHoldEnd (t member : Nat) (s : State) : Host.Outcome State Fault Refusal :=
  s.cmd t (member < 4) fun d =>
    match tget (fun _ => none) d.fab.pathHold member with
    | some e => if e ≤ d.now then d.fabUpd fun x => { x with pathHold := tput (fun _ => none) x.pathHold member none } else d
    | none => d

/-- OWNERSHIP_STATE_MESSAGE (R356): the replica of a member that is not the lead. (DESIGN CHOICE: log entry 117.) -/
def execOwnershipStateMessage (t : Nat) (o : Ownership) (s : State) : Host.Outcome State Fault Refusal :=
  s.cmd t (o.owner.length == 8 && o.owner.all (fun x => 1 ≤ x.1 && x.1 ≤ 8) && o.wins.length == 16) fun d =>
    if d.isLead then d
    else
      let d := o.owner.foldl (fun d x => d.set 0x1011 x.1 x.2) d
      let d := (List.range 16).foldl (fun d r => d.set 0x1010 0x06 (o.wins.getD r 0) 0 r) d
      let d := (List.range 13).foldl (fun d k => d.set 0x1020 (k + 1) (b2n (bit o.gates k))) d
      d.stackUpd fun x => { x with lease := some o.lease, leaseFrom := some d.now }

/-- The ownership state that the lead sends at every change and every RENEW (R356). -/
def Dev.tellOwnership (d : Dev) : Dev :=
  if d.isLead ∧ d.obj 0x9400 0x01 = 2 then
    let wins := (List.range 16).map (fun r => d.obj 0x1010 0x06 0 r)
    let gates := ((List.range 13).map (fun k => 2 ^ k * d.obj 0x1020 (k + 1))).sum
    let o : Ownership := { owner := [1, 2, 3, 4, 5, 6, 7, 8].map (fun s => (s, d.obj 0x1011 s)), wins := wins, gates := gates, lease := d.replicaLease }
    d.otherMembers.foldl (fun d m => d.sendTo m (.ownership m o)) d
  else d

/-! Learning across the stack (R162 to R164, R367). -/

/-- The link on which a learn or removal message of a member is sent on: away from it, to a PRESENT neighbour whose shortest way to it leads through this member; of two equal ways that by the sender's port of `A:9400.09` (R358, R367). (DEDUCED: log entry 228.) -/
def Dev.onward (d : Dev) (sender : Nat) : Option Nat :=
  match d.linkTo sender with
  | none => none
  | some k =>
    let away := 1 - k
    let here := (d.hopsVia k sender).getD 4
    let nearer : Bool := match d.hopsVia away sender with
      | none => true
      | some b => decide (here + 2 < b) || (here + 2 == b && ((d.klink k).hello.map (·.port)) == some (d.obj 0x9400 0x09))
    if d.presentAt away ∧ d.neighbour away ≠ some sender ∧ nearer then some away else none

/-- A learn message of a member is sent on by a transit member (R367). -/
def Dev.learnOn (d : Dev) (sender key dest : Nat) (stamp : Int) : Dev :=
  match d.onward sender with
  | some k => d.sendLink k (.learn k sender key dest stamp)
  | none => d

/-- A removal message is sent on by a transit member: towards the member it is for, or away from its sender (R162, R367). -/
def Dev.removalOn (d : Dev) (r : Removal) : Dev :=
  let way := match r.target with
    | some m => if m = d.stackId then none else d.linkTo m
    | none => d.onward r.sender
  match way with
  | some k => d.sendLink k (.removal k r)
  | none => d

/-- LEARN_MESSAGE_RECEIVED (R162, R163, R367): key, destination and stamp from a member; a message that the recent-learn rule holds back is ignored. -/
def execLearnMessageReceived (t sender key dest : Nat) (stamp : Int) (s : State) : Host.Outcome State Fault Refusal :=
  s.cmd t (sender < 4 && key < 2 ^ 60 && dest < 128) fun d =>
    if d.obj 0x3008 0x00 ≠ 1 then d
    else
      let q : LearnReq := { key := key, dest := dest, stamp := stamp, msgFrom := some sender, remote := true }
      (if d.stale q then d.inc 0x3008 0x03 else d.chartRequest q).learnOn sender key dest stamp

/-- REMOVAL_MESSAGE_RECEIVED (R162, R367): a remote entry for the key leaves. -/
def execRemovalMessageReceived (t : Nat) (r : Removal) (s : State) : Host.Outcome State Fault Refusal :=
  s.cmd t (decide (r.key < 2 ^ 60) && decide (r.sender < 4) && r.target.all (· < 4)) fun d =>
    (match d.chartFind r.key with
    | some p => if entType (d.mac p) = 2 then d.chartRemove p else d
    | none => d).removalOn r

/-! The remote bridge (R368 to R371). -/

/-- The 16 bytes that begin a bridge message (Table 14.4). A completion or report keeps the route of its request. (DESIGN CHOICE: log entry 111.) -/
def bridgeHeader (type source target : Nat) (r : BridgeRef) (status : Nat) : Bytes :=
  [BitVec.ofNat 8 type, BitVec.ofNat 8 r.tag, BitVec.ofNat 8 (source + 4 * target + 16 * r.pair), BitVec.ofNat 8 r.len] ++
    beBytes 5 r.addr ++ [BitVec.ofNat 8 status] ++ List.replicate 6 0

/-- What the header of a request tells beside its route. -/
def BridgeReq.ref (r : BridgeReq) : BridgeRef := { tag := r.tag, pair := r.pair, len := r.len, addr := r.addr }

/-- Fields of a bridge header in their ranges (R368). -/
def BridgeRef.ok (r : BridgeRef) : Bool := decide (r.tag < 256) && decide (r.pair < 4) && decide (1 ≤ r.len) && decide (r.len ≤ 64) && decide (r.addr < 2 ^ 40)

/-- A posted write leaves (R369). -/
def Dev.bridgeSend (d : Dev) (r : BridgeReq) (data : Bytes) : Dev :=
  ((d.stackUpd fun x => { x with writes := x.writes ++ [r] }).inc64 0x9440 0x01).sendTo r.target (.bridge (bridgeHeader 1 d.stackId r.target r.ref 0) data)

/-- Writes that hold the bus leave while fewer than 16 are in flight (R369). (DEDUCED: log entry 110.) -/
def Dev.bridgePump : Nat → Dev → Dev
  | 0, d => d
  | n + 1, d =>
    match d.stack.held with
    | (r, b) :: rest =>
      if 16 ≤ d.stack.writes.length then d else ((d.stackUpd fun x => { x with held := rest }).bridgeSend r b).bridgePump n
    | [] => d

/-- Members have executed writes in flight, each the oldest of its target, since a target executes in arrival order (R369). -/
def Dev.bridgeDone (d : Dev) (targets : List Nat) : Dev :=
  (d.stackUpd fun x => { x with writes := targets.foldl (fun l m => l.eraseP (fun r => r.target == m)) x.writes }).bridgePump 16

/-- A pair's bus is held by its read or by a write that waits for room (R369, R370). -/
def Dev.busHeld (d : Dev) (pair : Nat) : Bool := d.stack.reads.any (fun x => x.pair == pair) || d.stack.held.any (fun x => x.1.pair == pair)

/-- BRIDGE_POSTED_WRITE_ISSUE (R369): `done` names the targets of writes in flight that have been executed since the last issue. A write to a member that is not PRESENT is logged with status 4; a pair whose bus is held issues nothing. (DEDUCED: log entry 110.) -/
def execBridgePostedWriteIssue (t pair target tag addr : Nat) (data : Bytes) (done : List Nat) (s : State) : Host.Outcome State Fault Refusal :=
  s.cmd t (pair < 4 && target < 4 && tag < 256 && addr < 2 ^ 40 && 1 ≤ data.length && data.length ≤ 64 && done.length ≤ 16 && done.all (· < 4)) fun d =>
    let d := d.bridgeDone done
    if target = d.stackId ∨ d.busHeld pair then d
    else
      let r : BridgeReq := { tag := tag, pair := pair, target := target, addr := addr, len := data.length, issued := d.now }
      if d.obj 0x9410 0x01 0 target ≠ 2 then d.bridgeLog r 4
      else (d.stackUpd fun x => { x with held := x.held ++ [(r, data)] }).bridgePump 16

/-- BRIDGE_READ_ISSUE (R370): a read holds the initiator's bus, which a read or a held write of the same pair holds already; to a member that is not PRESENT it ends at once. -/
def execBridgeReadIssue (t pair target tag addr len : Nat) (s : State) : Host.Outcome State Fault Refusal :=
  s.cmd t (pair < 4 && target < 4 && tag < 256 && addr < 2 ^ 40 && 1 ≤ len && len ≤ 64) fun d =>
    if target = d.stackId ∨ d.busHeld pair then d
    else
      let r : BridgeReq := { tag := tag, pair := pair, target := target, addr := addr, len := len, issued := d.now }
      if d.obj 0x9410 0x01 0 target ≠ 2 then d.bridgeFail r
      else ((d.stackUpd fun x => { x with reads := x.reads ++ [r] }).inc64 0x9440 0x03).sendTo target (.bridge (bridgeHeader 2 d.stackId target r.ref 0) [])

/-- BRIDGE_REQUEST_EXECUTE (R371): the target port executes an inbound request, whose credit goes back; `status` and, for a read, `data` are what the addressed unit answers. (DESIGN CHOICE: log entry 111.) -/
def execBridgeRequestExecute (t type source pair tag addr len status : Nat) (data : Bytes) (s : State) : Host.Outcome State Fault Refusal :=
  s.cmd t ((type == 1 || type == 2) && source < 4 && pair < 4 && tag < 256 && addr < 2 ^ 40 && 1 ≤ len && len ≤ 64 && status < 4 && data.length == len) fun d =>
    let r : BridgeRef := { tag := tag, pair := pair, len := len, addr := addr }
    let d := (d.inc64 0x9440 0x06).out (.credit source)
    if type = 2 then d.sendTo source (.bridge (bridgeHeader 0x81 source d.stackId r status) (if status = 0 then data else List.replicate len 0))
    else if status ≠ 0 then d.sendTo source (.bridge (bridgeHeader 0x82 source d.stackId r status) []) else d

/-- BRIDGE_READ_COMPLETION (R370): the completion that a held read waits for, or a late one; the writes to that target issued before the read have been executed. A completion with an error status gives the pair a read error. -/
def execBridgeReadCompletion (t source tag status : Nat) (data : Bytes) (s : State) : Host.Outcome State Fault Refusal :=
  s.cmd t (source < 4 && tag < 256 && status < 5) fun d =>
    match d.stack.reads.find? (fun r => r.target == source && r.tag == tag && decide (d.now ≤ r.issued + 100 * perUs)) with
    | some r =>
      let d := (d.stackUpd fun x => { x with writes := x.writes.filter (fun w => !(w.target == source && decide (w.issued < r.issued))) }).bridgePump 16
      if status = 0 then (d.stackUpd fun x => { x with reads := x.reads.filter (fun y => y != r) }).out (.bridgeRead r.pair data false) else d.bridgeFail r
    | none => d.inc 0x9440 0x05

/-- BRIDGE_WRITE_ERROR_REPORT (R369): the header of the report names the write that failed; the writes to that target before it have been executed. -/
def execBridgeWriteErrorReport (t source : Nat) (ref : BridgeRef) (status : Nat) (s : State) : Host.Outcome State Fault Refusal :=
  s.cmd t (source < 4 && BridgeRef.ok ref && 1 ≤ status && status < 5) fun d =>
    let r : BridgeReq := { tag := ref.tag, pair := ref.pair, target := source, addr := ref.addr, len := ref.len }
    let mine := d.stack.writes.filter (fun w => w.target == source)
    let n := match mine.findIdx? (fun w => w.ref == ref) with | some i => i + 1 | none => 0
    (d.bridgeLog r status).bridgeDone (List.replicate n source)

/-! Almanac writes of 9400–9FFF (R373, R374). -/

/-- Check 12 of 9400–9FFF: only a member held out for record overflow can be admitted. -/
def Dev.stackDeps (d : Dev) (idx sub r v : Nat) : Nat :=
  match idx, sub with
  | 0x9410, 0x08 => if v = 1 ∧ ¬ (d.obj 0x9410 0x01 0 r = 3 ∧ d.obj 0x9410 0x05 0 r = 4) then 0x307 else 0
  | _, _ => 0

/-- What an accepted write of 9400–9FFF does. -/
def Dev.stackApply (d : Dev) (idx sub u r v : Nat) : Dev :=
  match idx, sub with
  | 0x9400, 0x09 => (d.set idx sub v).stackSettle
  | 0x9410, 0x08 => if v = 1 then (((d.memberIn r).set 0x9401 0x03 1 0 r).set 0x9410 0x05 0 0 r).leadSelect.stackView else d
  | 0x9420, 0x01 => let d := (d.set idx sub v u).set 0x4020 0x01 v u; if v = 0 then d.stackFall (u - 63) false else d
  | 0x9440, 0x09 =>
    if v = 1 then (List.range 16).foldl (fun d r => [1, 2, 3, 4, 5].foldl (fun d s => d.set 0x9441 s 0 0 r) d) (d.set 0x9440 0x07 0) else d
  | _, _ => d.set idx sub v u r

end Sys2Proof.Machine
end

