-- ==== Sys2Proof/Machine/Watch.lean ====
section
/-! DEFINITION. The Watch: transceiver modes, selective-wake scripts, network management of the segments, WAKE_OUT, sleep request and fail-safe (R259 to R262, R375 to R396). -/
namespace Sys2Proof.Machine

/-- Replace the Watch's state. -/
def Dev.watchUpd (d : Dev) (f : WatchSt → WatchSt) : Dev := { d with watch := f d.watch }

/-- The 48 segments in path order: S0–S7, C00–C23, L00–L15. -/
def segments48 : List Nat := (List.range 48).map (· + 13)

/-- The unit is a segment. -/
def isSegment (u : Nat) : Bool := 13 ≤ u && u < 61

/-- The unit is a CAN channel. -/
def isCan (u : Nat) : Bool := 21 ≤ u && u < 45

/-- The unit is a LIN channel. -/
def isLin (u : Nat) : Bool := 45 ≤ u && u < 61

/-- W index of a segment, or 0x80 + S index (Table 15.3). -/
def segSource (u : Nat) : Nat := if u < 21 then 0x80 + (u - 13) else if u < 45 then u - 21 else 0x40 + (u - 45)

/-- A pair of masks, CAN then LIN and S, names a segment. -/
def maskNames (can other u : Nat) : Bool :=
  if u < 21 then bit other (16 + (u - 13)) else if u < 45 then bit can (u - 21) else bit other (u - 45)

/-! Transceivers (R259 to R262). -/

/-- Transceiver mode of a W unit (Table 10.3): 0 NORMAL, 1 LISTEN, 2 STANDBY, 3 SLEEP. -/
def Dev.xcvrMode (d : Dev) (u : Nat) : Nat :=
  if d.flag 0xA000 0x09 then 3
  else if isCan u then
    let st := d.canState u
    if st = 5 ∧ ¬ (d.chan u).waking then 3
    else if st = 0 ∧ ¬ d.flag 0x6010 0x01 u then 2
    else if d.flag 0x6010 0x03 u then 1 else 0
  else match d.linState u with | 2 => 3 | 0 => 2 | _ => 0

/-- The lines of a W unit carry the pattern of its mode; a LIN unit has no STB line (R259). -/
def Dev.linesOut (d : Dev) (u : Nat) : Dev :=
  let p := d.obj 0x6880 0x01 u / 4 ^ d.obj 0x6880 0x02 u % 4
  d.out (.lines u (if isLin u then p / 2 * 2 else p))

/-- Drive a W unit's lines in a mode (R259, R260). -/
def Dev.xcvrDrive (d : Dev) (u m : Nat) : Dev :=
  if m = d.obj 0x6880 0x02 u then d
  else
    let d := ((d.set 0x6880 0x02 m u).inc 0x6880 0x04 u).linesOut u
    let e : Option Nat := if m ≤ 1 then some (d.now + d.obj 0x6880 0x03 u * perUs) else none
    if isCan u then
      let d := d.setChan u { d.chan u with settle := e }
      if d.canState u = 4 then d.setChan u { d.chan u with offUntil := e.getD d.now + kernelTime (1408 * d.bitPeriods u) } else d
    else d.setLin u { d.lin u with settle := e }

/-- A W unit's transceiver follows its channel. -/
def Dev.xcvr (d : Dev) (u : Nat) : Dev := d.xcvrDrive u (d.xcvrMode u)

/-- Every W unit's transceiver follows its channel. -/
def Dev.xcvrAll (d : Dev) : Dev := ((List.range 40).map (· + 21)).foldl Dev.xcvr d

/-- Insert a script behind the running one in path order (R262). -/
def insertScript (s : Script) : List Script → List Script
  | [] => [s]
  | x :: l => if x.unit ≤ s.unit then x :: insertScript s l else s :: x :: l

/-- What a pass of a script sends, in record order: each word, and after a word with a check mask its read (R262). -/
def Script.sent (s : Script) : List Nat :=
  (s.words.map (fun x => if x.2 = 0 then [x.1] else [x.1, (x.1 ^^^ s.readMask) % 2 ^ s.spi.bits])).flatten

/-- A pass of a script verifies: each reply has the bits of its word that the check mask selects (R262). -/
def Script.verified (s : Script) (replies : List Nat) : Bool :=
  let checks := s.words.filter (fun x => x.2 != 0)
  checks.length == replies.length && (checks.zip replies).all (fun x => (x.2 ^^^ x.1.1) % 2 ^ s.spi.bits &&& x.1.2 == 0)

/-- The first script's words leave on the SPI. (DESIGN CHOICE: log entry 87.) -/
def Dev.scriptStart (d : Dev) : Dev :=
  match d.watch.scripts with
  | [] => d
  | s :: rest =>
    let bits := d.obj 0x6890 0x03
    let s := { s with
      spi := { cs := d.obj 0x6880 0x06 s.unit, clock := d.obj 0x6890 0x01, mode := d.obj 0x6890 0x02, bits := bits, deselect := d.obj 0x6890 0x05 },
      readMask := d.obj 0x6890 0x04,
      words := (List.range (d.obj 0x6880 0x0B s.unit)).map (fun r => (d.obj 0x68A0 0x01 s.unit r % 2 ^ bits, d.obj 0x68A0 0x02 s.unit r)) }
    ((d.watchUpd fun x => { x with scripts := s :: rest }).set 0x6880 0x08 1 s.unit).out (.script s.spi s.sent)

/-- Queue a script; it starts when no other runs. -/
def Dev.scriptRequest (d : Dev) (u : Nat) (forSleep : Bool) : Dev :=
  let s : Script := { unit := u, forSleep := forSleep }
  match d.watch.scripts with
  | [] => (d.watchUpd fun x => { x with scripts := [s] }).scriptStart
  | r :: rest => d.watchUpd fun x => { x with scripts := r :: insertScript s rest }

/-- The scripts for sleep of a segment stop (R385). -/
def Dev.scriptDrop (d : Dev) (u : Nat) : Dev :=
  let mine (s : Script) : Bool := s.unit == u && s.forSleep
  let running : Bool := match d.watch.scripts with | s :: _ => mine s | [] => false
  if ¬ d.watch.scripts.any mine then d
  else
    let d := d.watchUpd fun x => { x with scripts := x.scripts.filter (fun s => !mine s) }
    if running then (d.set 0x6880 0x08 0 u).scriptStart else d

/-! WAKE_OUT (R396). -/

/-- Set or clear one reason for WAKE_OUT: bit 0 until RUN_REQ rises, bit 1 until cause 3 and bit 2 until cause 2 is cleared. (DESIGN CHOICE: log entry 126.) -/
def Dev.wakeOutBit (d : Dev) (k : Nat) (v : Bool) : Dev :=
  let w := setBit d.watch.wakeOut k v
  let was := d.watch.wakeOut != 0
  let d := d.watchUpd fun x => { x with wakeOut := w }
  if was == (w != 0) then d else (d.set 0xA000 0x0D (b2n (w != 0))).out (.wakeOut (w != 0))

/-- The host has cleared causes (R396). (DESIGN CHOICE: log entry 126.) -/
def Dev.wakeOutCleared (d : Dev) (mask : BitVec 64) : Dev :=
  let d := if mask.getLsbD 3 then d.wakeOutBit 1 false else d
  if mask.getLsbD 2 then d.wakeOutBit 2 false else d

/-- A safety event raises WAKE_OUT while the host port is down (R30, R396). -/
def Dev.safetyOut (d : Dev) : Dev := if d.obj 0x9000 0x01 = 2 then d else d.wakeOutBit 2 true

/-- An event of the Watch on vector 3. -/
def Dev.watchEvent (d : Dev) (e : Ev) (u : Nat := 0) : Dev := d.event 1 (some 3) e.code u

/-- What a wake does beside its segment: a sleep request ends, a pending Watch entry is aborted, WAKE_OUT follows R396. -/
def Dev.wakeEvent (d : Dev) (host : Bool) : Dev :=
  let d := if d.obj 0xA000 0x08 = 1 then (d.set 0xA000 0x08 0).watchUpd fun x => { x with ackEnd := none } else d
  let d := if d.obj 0xA000 0x04 = 1 then (d.set 0xA000 0x04 0).watchEvent .wake else d
  if ¬ host then d
  else if d.watch.inWatch then d.wakeOutBit 0 true
  else if d.flag 0xA000 0x09 ∨ d.flag 0xA000 0x0C then d.wakeOutBit 1 true
  else d

/-! Need (R376, R377). -/

/-- State of a segment (Table 15.2). -/
def Dev.segState (d : Dev) (u : Nat) : Nat := d.obj 0xA020 0x0C u

/-- Remote need of a segment. -/
def Dev.segRemote (d : Dev) (u : Nat) : Bool := d.segState u != 0 && (d.seg u).tr.isSome && (d.seg u).trRemote

/-- A segment whose remote need comes from a node and whose masks name `u`, lowest path first (R377). (DEDUCED: log entry 229.) -/
def Dev.segProp (d : Dev) (u : Nat) : Option Nat :=
  segments48.find? (fun v => v != u && d.segRemote v && (d.seg v).spread && maskNames (d.obj 0xA020 0x0A v) (d.obj 0xA020 0x0B v) u)

/-- Host or propagated need, with its wake reason and source (Table 15.3). -/
def Dev.segNeed (d : Dev) (u : Nat) : Option (Nat × Nat) :=
  if d.flag 0xA020 0x09 u then some (2, 0xFF) else (d.segProp u).map (fun v => (3, segSource v))

/-- Need sources as `A:A020.0D` shows them. -/
def Dev.needBits (d : Dev) (u : Nat) : Nat :=
  if d.segState u = 0 then 0
  else b2n (d.flag 0xA020 0x09 u) + 2 * b2n (d.segProp u).isSome + 4 * b2n (d.segRemote u)

/-- The segment's domain is on and no fail-safe holds its transceiver (R380, R395). -/
def Dev.segCanWake (d : Dev) (u : Nat) : Bool := d.coreOn && d.unitPowered u && !d.flag 0xA000 0x09

/-! NM PDUs of this device (R379, R381, R382). -/

/-- The 8 bytes of an NM PDU (Table 15.1). -/
def Dev.nmBytes (d : Dev) (u : Nat) (need last : Bool) : Bytes :=
  [BitVec.ofNat 8 (d.obj 0xA020 0x02 u), BitVec.ofNat 8 (b2n need + 2 * b2n last + 4 * d.obj 0xA020 0x10 u), BitVec.ofNat 8 (d.obj 0xA020 0x0E u), 0, 0, 0, 0, 0]

/-- Send an NM PDU on a CAN or S segment; a last call over an ACTIVE buffer of its identifier is held (R239, R381). (PRESUMED: log entry 154.) -/
def Dev.nmSend (d : Dev) (u : Nat) (need last : Bool) : Dev :=
  if isCan u then
    let f : CanFrame := { ident := (d.obj 0xA020 0x03 u % 2 ^ 30) ||| d.obj 0xA020 0x02 u, data := d.nmBytes u need last }
    match d.canLoad u f 1 with
    | (d, .into b) =>
      if ¬ last then d
      else if d.bufState u b = 3 then d.setBuf u b { d.buf u b with heldCall := true }
      else d.setBuf u b { d.buf u b with lastCall := true }
    | (d, _) => d
  else if u < 21 then
    let b := beBytes 6 (2 ^ 48 - 1) ++ beBytes 6 (Config.portMac u) ++ beBytes 2 (d.obj 0xA010 0x01) ++ d.nmBytes u need last ++ List.replicate 38 0
    d.offerCp { d.fp11Frame (u - 1) b with asIs := true, lastCall := last }
  else d

/-- The last call is withdrawn: cancelled, or completed when it is on the line (R238, R381). -/
def Dev.callCancel (d : Dev) (u : Nat) : Dev :=
  let d := d.setSeg u { d.seg u with loadedAt := none, windowEnd := none }
  if isCan u then (List.range 32).foldl (fun d b => if d.bufState u b != 0 && ((d.buf u b).lastCall || (d.buf u b).heldCall) then d.bufCancel u b else d) d
  else if isLin u then d.linResume u
  else d.fab.frames.foldl (fun d f =>
    if f.lastCall && f.copies.any (fun c => c.port == u - 1 && !c.started) then d.putFrame { f with copies := f.copies.filter (fun c => c.port != u - 1 || c.started) }
    else d) (d.fabUpd fun x => { x with fromCp := x.fromCp.filter (fun f => !(f.lastCall && f.copies.any (fun c => c.port == u - 1))) })

/-! Segment states (R380 to R386). -/

/-- Tr starts again (R376). -/
def Dev.segTr (d : Dev) (u : Nat) (remote : Bool) : Dev :=
  d.setSeg u { d.seg u with tr := some (d.now + d.obj 0xA020 0x05 u * perMs), trRemote := remote, spread := true }

/-- Enter AWAKE: a keep-alive leaves at once (R379). -/
def Dev.segAwake (d : Dev) (u : Nat) : Dev :=
  let d := (d.set 0xA020 0x0C 3 u).setSeg u { d.seg u with nmNext := d.now + d.obj 0xA020 0x07 u * perMs }
  d.nmSend u true false

/-- Enter READY SLEEP with Tr restarted (R376, R383). -/
def Dev.segReady (d : Dev) (u : Nat) (remote : Bool) : Dev := (d.set 0xA020 0x0C 4 u).segTr u remote

/-- The remote need of a wake or restart by host or propagated need (Table 15.3) does not propagate (R377). (DEDUCED: log entry 229.) -/
def Dev.segBound (d : Dev) (u : Nat) : Dev :=
  let r := d.obj 0xA020 0x0E u
  if r = 2 ∨ r = 3 then d.setSeg u { d.seg u with spread := false } else d

/-- AWAKE under need, else READY SLEEP, with Tr restarted as remote need (R385, R386). -/
def Dev.segResume (d : Dev) (u : Nat) : Dev :=
  (if (d.segNeed u).isSome then (d.segAwake u).segTr u true else d.segReady u true).segBound u

/-- Enter LAST CALL (R381, R382). -/
def Dev.segLastCall (d : Dev) (u : Nat) : Dev :=
  let d := (d.set 0xA020 0x0C 5 u).inc 0xA020 0x13 u
  if isLin u then (d.setSeg u { d.seg u with loadedAt := none, windowEnd := none }).linGoToSleep u
  else (d.setSeg u { d.seg u with loadedAt := some d.now, windowEnd := none }).nmSend u false true

/-- A veto of a last call (R383). (DEDUCED: log entry 124.) -/
def Dev.segVeto (d : Dev) (u : Nat) (remote : Bool) : Dev :=
  let d := (d.inc 0xA020 0x14 u).callCancel u
  if (d.segNeed u).isSome then (let d := d.segAwake u; if remote then d.segTr u true else d) else d.segReady u remote

/-- Record a wake's reason and source (Table 15.3). -/
def Dev.wakeRecord (d : Dev) (u reason src : Nat) : Dev :=
  let d := ((d.set 0xA020 0x0E reason u).set 0xA020 0x0F src u).set 0xA000 0x05 reason
  (d.set 0xA000 0x06 (segSource u)).set 0xA000 0x07 ((d.now - d.watch.aonEpoch) * 32768 / perS)

/-- Show a segment as sleeping or not (`A:A010.02`, `A:A010.03`). -/
def Dev.sleepBit (d : Dev) (u : Nat) (v : Bool) : Dev :=
  if isCan u then d.set 0xA010 0x02 (setBit (d.obj 0xA010 0x02) (u - 21) v)
  else d.set 0xA010 0x03 (setBit (d.obj 0xA010 0x03) (if isLin u then u - 45 else u - 13 + 16) v)

/-- The count of awake time starts or stops (R388). -/
def Dev.awakeRun (d : Dev) (u : Nat) (v : Bool) : Dev :=
  d.setSeg u { d.seg u with awakeFrom := if v && !d.flag 0xA020 0x09 u then some d.now else none }

/-- SLEEP is driven and the segment is SLEEPING (R384 step 3). -/
def Dev.segAsleep (d : Dev) (u : Nat) : Dev :=
  let d := if isCan u then d.canSleep u else if isLin u then (if d.linState u = 1 then d.linRest u 2 else d) else d.linkFall (u - 1)
  let d := ((d.set 0xA020 0x0C 1 u).inc 0xA020 0x15 u).set 0xA020 0x10 0 u
  let d := (d.setSeg u { d.seg u with tr := none, trRemote := false, step := 0, windowEnd := none, loadedAt := none, awakeFrom := none }).sleepBit u true
  (if u < 21 then d else d.xcvr u).watchEvent .segmentSleep u

/-- The steps of GOING TO SLEEP after the frame in progress (R384). -/
def Dev.segScript (d : Dev) (u : Nat) : Dev :=
  if isCan u ∧ d.flag 0x6880 0x0A u then (d.setSeg u { d.seg u with step := 2 }).scriptRequest u true else d.segAsleep u

/-- The window closes without veto (R384). `busy` says that a frame is in progress that this device does not send. (DEDUCED: log entry 123.) -/
def Dev.segGoing (d : Dev) (u : Nat) (busy : Bool) : Dev :=
  let d := (d.set 0xA020 0x0C 6 u).setSeg u { d.seg u with loadedAt := none, windowEnd := none, step := 1 }
  let own : Bool := if isCan u then (d.canActive u).isSome else if isLin u then (d.lin u).frame.isSome else (d.onLine (u - 1) 0).isSome
  if own || busy then d else d.segScript u

/-- The frame in progress on a segment has ended (R384 step 1). (DEDUCED: log entries 123, 195.) -/
def Dev.segFrameEnd (d : Dev) (u : Nat) : Dev :=
  if d.segState u = 6 ∧ (d.seg u).step = 1 then d.segScript u else d

/-- A restart before sleep (R385). -/
def Dev.segRestart (d : Dev) (u reason src : Nat) : Dev :=
  let d := ((((d.scriptDrop u).setSeg u { (d.scriptDrop u).seg u with step := 0 }).wakeRecord u reason src).set 0xA020 0x10 1 u).inc 0xA020 0x17 u
  let d := if isLin u then d.linResume u else d
  d.segResume u

/-- A LIN channel sends a wake signal (R254), after the settling time where one runs (R260). -/
def Dev.wakeSignal (d : Dev) (u : Nat) : Dev :=
  if (d.lin u).settle.isSome then d.setLin u { d.lin u with wakeDue := true } else d.out (.linWake (u - 45) (d.obj 0x6810 0x0D u))

/-- The Watch wakes a segment's channel: NORMAL at once, the channel after its settling time (R386). -/
def Dev.segDrive (d : Dev) (u : Nat) (signal : Bool) : Dev :=
  if isCan u then (if d.canState u = 5 then (d.setChan u { d.chan u with waking := true }).xcvr u else d)
  else if isLin u then
    (if d.linState u = 2 then (let d := (d.linRun u).xcvr u; if signal then d.wakeSignal u else d) else d)
  else d

/-- A pending or sleeping segment whose domain is on takes part again. -/
def Dev.segUp (d : Dev) (u : Nat) : Dev := (((d.segDrive u (d.obj 0xA020 0x0E u != 7)).awakeRun u true).segResume u).segLink (u - 1)

/-- A sleeping segment wakes (R386). -/
def Dev.segWake (d : Dev) (u reason src : Nat) : Dev :=
  let d := ((d.wakeRecord u reason src).inc 0xA020 0x16 u).sleepBit u false
  let d := ((d.set 0xA020 0x0C 2 u).watchEvent .segmentWake u).wakeEvent true
  if d.segCanWake u then d.segUp u else d

/-- A keep-alive, wake signal, bus wake or mapped wake input meets a segment (R376, R383, R385, R386). While CP1 restarts it takes effect later (R390). -/
def Dev.segKick (d : Dev) (u reason src : Nat) : Dev :=
  if ¬ d.coreOn ∨ d.pairRuns 1 then
    match d.segState u with
    | 1 => d.segWake u reason src
    | 2 => d.wakeEvent true
    | 3 => d.segTr u true
    | 4 => d.segTr u true
    | 5 => d.segVeto u true
    | 6 => d.segRestart u reason src
    | _ => d
  else d.setSeg u { d.seg u with late := some (reason, src) }

/-- What need changes in a segment's state (Table 15.2), none when nothing. -/
def Dev.segChange (d : Dev) (u : Nat) : Option Dev :=
  match d.segState u, d.segNeed u with
  | 3, none => some (d.segReady u false)
  | 4, some _ => some (d.segAwake u)
  | 5, some _ => some (d.segVeto u false)
  | 1, some (r, s) => some (d.segWake u r s)
  | 6, some (r, s) => some (d.segRestart u r s)
  | _, _ => none

/-- Let need move segments until nothing changes, in path order. -/
def Dev.segSettle : Nat → Dev → Dev
  | 0, d => d
  | n + 1, d =>
    match segments48.findSome? d.segChange with
    | some d' => d'.segSettle n
    | none => d

/-! Sleep request and fail-safe (R394, R395). -/

/-- A wake input is active (R263). -/
def Dev.inputActive (d : Dev) : Bool := (List.range 4).any (fun i => d.obj 0x68B0 0x05 0 i == 2 || d.obj 0x68B0 0x05 0 i == 5)

/-- Every managed segment is SLEEPING, at least one is managed, no host need is set and no wake input is active (R394). -/
def Dev.sleepCondition (d : Dev) : Bool :=
  d.coreOn && !d.flag 0xA000 0x09 && segments48.any (fun u => d.segState u != 0) && segments48.all (fun u => d.segState u ≤ 1) &&
    !(segments48.any (fun u => d.flag 0xA020 0x09 u)) && !d.inputActive

/-- Raise the sleep request when its condition becomes true. -/
def Dev.sleepCheck (d : Dev) : Dev :=
  let c := d.sleepCondition
  if c ∧ ¬ d.watch.sleepSeen then
    ((d.set 0xA000 0x08 1).watchUpd fun x => { x with sleepSeen := true, ackEnd := some (d.now + d.obj 0xA000 0x41 * perMs) }).watchEvent .sleepRequest
  else if ¬ c ∧ d.watch.sleepSeen then
    (d.set 0xA000 0x08 (if d.obj 0xA000 0x08 = 3 then 3 else 0)).watchUpd fun x => { x with sleepSeen := false, ackEnd := none }
  else d

/-- After anything that may change need: segments follow it, then the sleep request. While CP1 restarts, network management decides nothing (R390). -/
def Dev.watchSettle (d : Dev) : Dev := if d.coreOn && !d.pairRuns 1 then d else (d.segSettle 200).sleepCheck

/-- The transceiver fail-safe acts (R395). -/
def Dev.failSafe (d : Dev) : Dev :=
  if d.flag 0xA000 0x09 then d
  else
    let d := ((d.set 0xA000 0x09 1).set 0xA000 0x08 3).inc 0xA000 0x0A
    let d := (((List.range 40).map (· + 21)).foldl (fun d u => d.inc 0x6880 0x05 u) d).xcvrAll
    (((List.range 8).foldl (fun d i => d.linkFall (12 + i)) d).watchUpd fun x => { x with ackEnd := none }).watchEvent .failSafe

/-- Segments that wait for their domain wake when it is on (R380). (DEDUCED: log entry 122.) -/
def Dev.pendingUp (d : Dev) : Dev := segments48.foldl (fun d u => if d.segState u = 2 ∧ d.segCanWake u then d.segUp u else d) d

/-- The fail-safe ends: transceivers follow their channels and pending segments wake (R395). -/
def Dev.failSafeEnd (d : Dev) : Dev :=
  if d.flag 0xA000 0x09 then ((((d.set 0xA000 0x09 0).set 0xA000 0x08 0).xcvrAll).pendingUp).segLinks.watchSettle else d

/-! Management (R375, R389). -/

/-- Clear the ignore list and ignoring-all (R389). -/
def Dev.ignoreClear (d : Dev) (u : Nat) : Dev :=
  ((List.range 8).foldl (fun d r => (d.set 0xA021 0x01 0xFF u r).set 0xA021 0x02 0 u r) d).set 0xA020 0x1D 0 u

/-- Network management of a segment is switched on or off (R375, R380); one that leaves SLEEPING so has woken. -/
def Dev.manage (d : Dev) (u : Nat) (on : Bool) : Dev :=
  let st := d.segState u
  if on ∧ st = 0 then
    let d := if d.obj 0xA020 0x0E u = 0 then d.wakeRecord u 1 0xFF else d
    let d := d.set 0xA020 0x01 1 u
    if ¬ d.segCanWake u then d.set 0xA020 0x0C 2 u
    else
      let d := d.awakeRun u true
      if (d.segNeed u).isSome then d.segAwake u else d.segReady u false
  else if ¬ on ∧ st ≠ 0 then
    let d := ((if st = 5 then d.callCancel u else d).scriptDrop u).set 0xA020 0x01 0 u
    let d := ((d.set 0xA020 0x0C 0 u).sleepBit u false).setSeg u {}
    let d := if st = 1 then (d.inc 0xA020 0x16 u).watchEvent .segmentWake u else d
    d.segDrive u true
  else d.set 0xA020 0x01 (b2n on) u

end Sys2Proof.Machine
end

