-- ==== Sys2Proof/Machine/FieldBus.lean ====
section
/-! DEFINITION. The commands of the CAN and LIN channels and their transceivers (R223 to R262). -/
namespace Sys2Proof.Machine

/-- The node is on the segment's ignore list, or the segment ignores every keep-alive (R378). -/
def Dev.nodeIgnored (d : Dev) (u node : Nat) : Bool :=
  d.flag 0xA020 0x1D u || (List.range 8).any (fun r => d.obj 0xA021 0x01 u r == node && node != 0xFF)

/-- A received frame is an NM PDU of a segment: on CAN a CC or FD data frame whose identifier matches under the mask, on S a frame of the NM Ethertype (R378). -/
def Dev.isNmPdu (d : Dev) (u ident : Nat) (data : Bytes) : Bool :=
  decide (2 ≤ data.length) &&
    (if isCan u then ident / 2 ^ 30 ≤ 1 && ((ident ^^^ d.obj 0xA020 0x03 u) &&& d.obj 0xA020 0x04 u) % 2 ^ 30 == 0 && ident / 2 ^ 30 == d.obj 0xA020 0x03 u / 2 ^ 30
     else u < 21 && ident == d.obj 0xA010 0x01)

/-- A received frame is a keep-alive: an NM PDU with KEEP-ALIVE 1 and LAST CALL 0 (R378). -/
def Dev.isKeepAlive (d : Dev) (u ident : Nat) (data : Bytes) : Bool :=
  d.isNmPdu u ident data && bit (byteAt data 1) 0 && !bit (byteAt data 1) 1

/-- A CAN channel that stops enters STOPPED (R233). -/
def Dev.canStopNow (d : Dev) (u : Nat) : Dev := (d.canStopped u).xcvr u

/-- After an attempt or a frame on a CAN channel. -/
def Dev.canAfter (d : Dev) (u : Nat) : Dev := (d.segFrameEnd u).watchSettle

/-- CAN_STOP_COMPLETE (R233): the frame in progress has ended; the reply follows. (DEDUCED: log entry 79.) -/
def execCanStopComplete (t ch : Nat) (s : State) : Host.Outcome State Fault Refusal :=
  s.cmd t (ch < 24) fun d =>
    let u := uC ch
    if (d.chan u).stopping ∧ (d.canActive u).isNone then (d.canStopNow u).finishIfReady else d

/-- CAN_INTEGRATION_COMPLETE (R229). -/
def execCanIntegrationComplete (t ch : Nat) (s : State) : Host.Outcome State Fault Refusal :=
  s.cmd t (ch < 24) fun d =>
    let u := uC ch
    if d.canState u = 1 ∧ (d.chan u).settle.isNone ∧ d.unitPowered u then (d.setCanState u 2).canErrState u else d

/-- A frame's operands are those of a frame of its format (Table 9.1). (DEDUCED: log entry 83.) -/
def canFrameOk (f : CanFrame) : Bool :=
  decide (f.ident < 2 ^ 32) && decide (f.dlc < 9) &&
    (match canFmt f with
     | 0 => f.data.length ≤ 8
     | 1 => f.data.length ≤ 8 || [12, 16, 20, 24, 32, 48, 64].contains f.data.length
     | 2 => 1 ≤ f.data.length && f.data.length ≤ 2048 && !canExt f
     | _ => f.data.isEmpty) &&
    (canExt f || decide (f.ident % 2 ^ 29 < 2 ^ 11)) && decide (f.sdt < 256) && decide (f.vcid < 256) && decide (f.af < 2 ^ 32)

/-- The protocol exception event of an FD channel that meets an XL frame: it waits for 11 recessive bits (R223). -/
def Dev.canException (d : Dev) (u : Nat) : Dev := (d.inc 0x6030 0x07 u).setChan u { d.chan u with idleFrom := d.now + kernelTime (11 * d.bitPeriods u) }

/-- CAN_FRAME_RECEIVED (R223, R232): a frame of another node ends; `age` is the time since the sample point of its start-of-frame bit. A format beyond the channel's mode is a form error in CC mode, and a protocol exception in FD mode. -/
def execCanFrameReceived (t ch : Nat) (frame : CanFrame) (age : Nat) (s : State) : Host.Outcome State Fault Refusal :=
  s.cmd t (ch < 24 && canFrameOk frame) fun d =>
    let u := uC ch
    if (d.canState u = 2 ∨ d.canState u = 3) ∧ d.unitPowered u ∧ (d.chan u).settle.isNone ∧ (d.canActive u).isNone then
      if modeHandles (d.obj 0x6010 0x02 u) (canFmt frame) then
        let d := d.canReceive u frame age
        -- a keep-alive that ends in GOING TO SLEEP restarts the segment when it is examined (R385)
        if d.isKeepAlive u frame.ident frame.data ∧ ¬ d.nodeIgnored u (byteAt frame.data 0) then d else d.canAfter u
      else (if d.obj 0x6010 0x02 u = 1 then d.canException u else d.canError u { kind := 2, transmitting := false, exempt := false, heavy := false, place := none }).canAfter u
    else d

/-- CAN_FRAME_START (R234, R237): the next selection; `bad` says that the payload copy meets an uncorrectable error, `delay` is the transmitter delay measured in the data phase. -/
def execCanFrameStart (t ch : Nat) (bad : Bool) (delay : Nat) (s : State) : Host.Outcome State Fault Refusal :=
  s.cmd t (ch < 24 && delay < 65536) fun d =>
    let u := uC ch
    if ¬ d.canMayStart u then d
    else match d.canSelect u with
      | none => d
      | some b =>
        if bad then (((d.bufEmpty u b 4).inc 0x6030 0x16 u).event 6 (some 17) Ev.other.code u).canPump
        else d.canStart u b delay

/-- CAN_ATTEMPT_END (R238, R239): the attempt in progress succeeds, or fails without an error of this channel. -/
def execCanAttemptEnd (t ch : Nat) (ok : Bool) (s : State) : Host.Outcome State Fault Refusal :=
  s.cmd t (ch < 24) fun d =>
    let u := uC ch
    match d.canActive u with
    | some b => (if ok then d.canSent u b else d.canFailed u b).canAfter u
    | none => d

/-- CAN_ARBITRATION_LOST (R237): the frame of another node goes on. -/
def execCanArbitrationLost (t ch : Nat) (s : State) : Host.Outcome State Fault Refusal :=
  s.cmd t (ch < 24) fun d =>
    let u := uC ch
    match d.canActive u with
    | some b => (d.inc 0x6030 0x05 u).canFailed u b
    | none => d

/-- CAN_BUS_ERROR (R229, R240, R242, R243). -/
def execCanBusError (t ch : Nat) (e : CanError) (s : State) : Host.Outcome State Fault Refusal :=
  s.cmd t (ch < 24 && 1 ≤ e.kind && e.kind ≤ 6 && (match e.place with | some (p, f) => p < 65536 && f < 3 | none => true)) fun d =>
    let u := uC ch
    if (d.canState u = 2 ∨ d.canState u = 3) ∧ d.unitPowered u ∧ (d.chan u).settle.isNone ∧ (e.transmitting → (d.canActive u).isSome) then
      (d.canError u e).canAfter u
    else d

/-- PROTOCOL_EXCEPTION (R223): an FD channel meets an XL frame and waits for 11 recessive bits. -/
def execProtocolException (t ch : Nat) (s : State) : Host.Outcome State Fault Refusal :=
  s.cmd t (ch < 24) fun d =>
    let u := uC ch
    if d.obj 0x6010 0x02 u = 1 ∧ (d.canState u = 2 ∨ d.canState u = 3) ∧ d.unitPowered u ∧ (d.canActive u).isNone then
      d.canException u
    else d

/-- BUS_OFF_RECOVERY (R230). -/
def execBusOffRecovery (t ch : Nat) (s : State) : Host.Outcome State Fault Refusal :=
  s.cmd t (ch < 24) fun d =>
    let u := uC ch
    if d.canState u = 4 ∧ (d.chan u).offUntil ≤ d.now ∧ d.unitPowered u then
      let d := (((d.setCanState u 2).set 0x6010 0x05 0 u).set 0x6010 0x06 0 u).inc 0x6030 0x0D u
      (d.set 0x6010 0x0A 0 u).set 0x6000 0x05 (setBit (d.obj 0x6000 0x05) ch false)
    else d

/-- TRANSCEIVER_SETTLING_END (R260). -/
def execTransceiverSettlingEnd (t unit : Nat) (s : State) : Host.Outcome State Fault Refusal :=
  s.cmd t (21 ≤ unit && unit < 61) fun d =>
    let e := if isCan unit then (d.chan unit).settle else (d.lin unit).settle
    match e with
    | none => d
    | some x =>
      if d.now < x ∨ ¬ d.unitPowered unit then d
      else if isCan unit then d.canJoin unit
      else
        let due := (d.lin unit).wakeDue
        let d := d.setLin unit { d.lin unit with settle := none, slotAt := d.now, wakeDue := false }
        if due then d.wakeSignal unit else d

/-! LIN. -/

/-- After a frame on a LIN channel: a stop or the way to sleep goes on. -/
def Dev.linAfter (d : Dev) (u : Nat) : Dev :=
  if (d.lin u).frame.isSome then d
  else
    let d := if (d.lin u).stopping then (((d.linRest u 0).xcvr u)).finishIfReady else d
    (d.segFrameEnd u).watchSettle

/-- LIN_SLOT_START (R257): the channel's own slot timer, while no leg drives its slots. -/
def execLinSlotStart (t ch : Nat) (s : State) : Host.Outcome State Fault Refusal :=
  s.cmd t (ch < 16) fun d =>
    let u := uL ch
    if d.slotsDriven u ∨ d.now < (d.lin u).slotAt then d else d.linSlot u 0

/-- LIN_HEADER_RECEIVED (R248, R249, R252): a slave's break, sync byte and protected identifier, with the measured bit rate. -/
def execLinHeaderReceived (t ch pid : Nat) (head : LinHead) (s : State) : Host.Outcome State Fault Refusal :=
  s.cmd t (ch < 16 && pid < 256 && head.rate < 65536) fun d =>
    let u := uL ch
    if d.linState u = 1 ∧ ¬ d.linMaster u ∧ d.unitPowered u ∧ (d.lin u).settle.isNone ∧ ¬ (d.lin u).stopping then d.linHeader u pid head else d

/-- LIN_RESPONSE_SEND (R250): `differs` is the byte in which the first bit read back differs. -/
def execLinResponseSend (t ch : Nat) (differs : Option Nat) (s : State) : Host.Outcome State Fault Refusal :=
  s.cmd t (ch < 16) fun d => d.linRespond (uL ch) differs

/-- LIN_FRAME_COMPLETE (R249, R251). -/
def execLinFrameComplete (t ch : Nat) (data : Bytes) (check : LinCheck) (s : State) : Host.Outcome State Fault Refusal :=
  s.cmd t (ch < 16 && data.length ≤ 9) fun d => (d.linComplete (uL ch) data check).linAfter (uL ch)

/-- LIN_FRAME_TIME_LIMIT (R249): TFrame_Max has passed. -/
def execLinFrameTimeLimit (t ch : Nat) (started : Bool) (s : State) : Host.Outcome State Fault Refusal :=
  s.timer t (ch < 16) (fun _ c => match c with | .linFrameComplete _ k .. => k == ch | _ => false) (n := 16) fun d =>
    let u := uL ch
    match (d.lin u).frame with
    | none => d
    | some f => if f.start + frameMaxTime f.len (d.obj 0x6810 0x03 u) ≤ d.now then (d.linLimit u started).linAfter u else d

/-- LIN_WAKE_SIGNAL_RECEIVED (R254, R382, R386): a dominant phase of 250 µs to 5 ms. -/
def execLinWakeSignalReceived (t ch : Nat) (s : State) : Host.Outcome State Fault Refusal :=
  s.aon t (ch < 16) fun d =>
    let u := uL ch
    if d.linState u = 2 ∨ 1 ≤ d.segState u ∧ (d.segState u ≤ 2 ∨ 5 ≤ d.segState u) then
      let d := d.inc 0x6840 0x0F u
      if d.flag 0xA020 0x1D u then d else (d.segKick u 7 0xFF).watchSettle
    else d

/-! Almanac writes of 6000–6FFF and 8060 that act (R229, R233, R254, R256, R260, R261, R262). -/

/-- Enable a CAN channel (R226, R229, R233, R260). -/
def Dev.canEnable (d : Dev) (u : Nat) : Dev :=
  if d.flag 0x6010 0x01 u then d
  else
    let d := (d.set 0x6010 0x01 1 u).set 0x6000 0x04 (setBit (d.obj 0x6000 0x04) (u - 21) true)
    if (d.chan u).stopping then d.setChan u { d.chan u with stopping := false }
    else
      let mark := d.flag 0x6010 0x0A u
      let d := if mark then d else (d.set 0x6010 0x05 0 u).set 0x6010 0x06 0 u
      if d.segState u = 1 ∨ d.segState u = 2 then (d.setCanState u 5).xcvr u
      else if mark then (d.busOffEntry u).xcvr u
      else d.xcvr u

/-- Stop a CAN channel: at once in BUS-OFF, SLEEPING or before its start, else after the frame in progress (R233). (DEDUCED: log entry 79.) -/
def Dev.canDisable (d : Dev) (u : Nat) : Dev :=
  let d := (d.set 0x6010 0x01 0 u).set 0x6000 0x04 (setBit (d.obj 0x6000 0x04) (u - 21) false)
  match d.canState u with
  | 0 => d.canStopNow u
  | 4 => d.canStopNow u
  | 5 => d.canStopNow u
  | _ => if d.unitPowered u then d.setChan u { d.chan u with stopping := true } else d.canStopNow u

/-- Enable a LIN channel (R254). -/
def Dev.linEnable (d : Dev) (u : Nat) : Dev :=
  if d.flag 0x6810 0x01 u then d
  else
    let d := (d.set 0x6810 0x01 1 u).set 0x6800 0x04 (setBit (d.obj 0x6800 0x04) (u - 45) true)
    if d.segState u = 1 ∨ d.segState u = 2 then (d.linRest u 2).xcvr u else (d.linRun u).xcvr u

/-- Stop a LIN channel at the end of the frame in progress (R254). -/
def Dev.linDisable (d : Dev) (u : Nat) : Dev :=
  let d := (d.set 0x6810 0x01 0 u).set 0x6800 0x04 (setBit (d.obj 0x6800 0x04) (u - 45) false)
  if (d.lin u).frame.isSome then d.setLin u { d.lin u with stopping := true } else (d.linRest u 0).xcvr u

/-- What an accepted write of 6000–6FFF or 8060 does. The cycle count of a time master starts from 0 at its enable; a reference message that is PENDING as it is disabled is still sent. (DESIGN CHOICE: log entries 203, 204.) -/
def Dev.busApply (d : Dev) (idx sub u r v : Nat) : Dev :=
  match idx, sub with
  | 0x6010, 0x01 => if v = 1 then d.canEnable u else d.canDisable u
  | 0x6020, 0x0A => if v = 1 then d.bufCancel u r else d
  | 0x6810, 0x01 => if v = 1 then d.linEnable u else d.linDisable u
  | 0x6810, 0x07 => (d.set idx sub v u).setLin u { d.lin u with request := if v = 0xFF then none else some v }
  | 0x6880, 0x01 => (d.set idx sub v u).linesOut u
  | 0x6880, 0x07 => if v = 1 then d.scriptRequest u false else d
  | 0x8060, 0x01 => if v = 1 ∧ ¬ d.flag 0x8060 0x01 u then (d.set idx sub v u).set 0x8060 0x03 0 u else d.set idx sub v u
  | _, _ => d.set idx sub v u r

/-- Checks 10 of the transceiver objects. -/
def Dev.xcvrValue (idx sub u v : Nat) : Nat :=
  if idx = 0x6880 ∧ isLin u ∧ ((sub = 0x06 ∧ v ≠ 0xFF) ∨ (sub = 0x0B ∧ v ≠ 0)) then 0x302 else 0

/-- Checks 13 of the transceiver objects (R261). -/
def Dev.xcvrDeps (d : Dev) (idx sub u v : Nat) : Nat :=
  if idx = 0x6880 ∧ sub = 0x06 ∧ v ≠ 0xFF ∧ (List.range 24).any (fun c => uC c != u && d.obj 0x6880 0x06 (uC c) == v) then 0x305 else 0

/-- Checks 11 of 6000–6FFF. -/
def Dev.busStopped (d : Dev) (idx u r : Nat) : Bool :=
  if idx < 0x6800 then d.canIsStopped u
  else if idx = 0x6880 ∨ idx = 0x68A0 then (if isCan u then d.canIsStopped u else d.linState u == 0 && !d.flag 0x6810 0x01 u)
  else d.linStopped idx u r

end Sys2Proof.Machine
end

