-- ==== Sys2Proof/Machine/Wake.lean ====
section
/-! DEFINITION. The wake inputs and the commands of network management (R263, R264, R375 to R390). -/
namespace Sys2Proof.Machine

/-- A wake input beside its record. -/
def Dev.input (d : Dev) (i : Nat) : WakeIn := tget (fun _ => {}) d.watch.inputs i

/-- Replace a wake input. -/
def Dev.setInput (d : Dev) (i : Nat) (x : WakeIn) : Dev := d.watchUpd fun w => { w with inputs := tput (fun _ => {}) w.inputs i x }

/-- Enter an input state; each entry into a fault state counts and raises an event (R264). -/
def Dev.inputState (d : Dev) (i v : Nat) : Dev :=
  let was := d.obj 0x68B0 0x05 0 i
  let d := d.set 0x68B0 0x05 v 0 i
  if was ≠ v ∧ 3 ≤ v then (d.inc 0x68B0 0x08 0 i).event 1 (some 17) Ev.inputFault.code 0 (beBytes 2 i ++ beBytes 2 v) else d

/-- A level of a wake input has lasted the filter time `A:68B0.03` (R263). -/
def Dev.inputHeld (d : Dev) (i held : Nat) : Bool := decide (d.obj 0x68B0 0x03 0 i * perMs ≤ held)

/-- An enabled input that is not STUCK ACTIVE has a new level that has lasted the filter time (R263, R264). -/
def Dev.inputEdge (d : Dev) (i : Nat) (l : WakeLevel) : Bool :=
  d.flag 0x68B0 0x01 0 i && d.obj 0x68B0 0x05 0 i != 5 && d.inputHeld i l.held && l.active != (d.input i).level

/-- `A:68B0.02` selects an edge (R263). -/
def Dev.inputEdgeWakes (d : Dev) (i : Nat) (active : Bool) : Bool := d.obj 0x68B0 0x02 0 i == 2 || d.obj 0x68B0 0x02 0 i == b2n (!active)

/-- WAKE_INPUT_WAKE (R263): an edge whose new level has lasted the filter time. The segments that `A:A030` maps wake. A level that has not lasted it only ends a test (R264). (DESIGN CHOICE: log entry 221.) -/
def execWakeInputWake (t input : Nat) (level : WakeLevel) (s : State) : Host.Outcome State Fault Refusal :=
  s.aon t (input < 4) fun d =>
    let st := d.obj 0x68B0 0x05 0 input
    let x := d.input input
    let x := { x with testing := x.testing && !level.active }
    if ¬ d.inputEdge input level then
      let back : Bool := level.active && x.level && d.inputHeld input level.held && st == 1
      (if back then d.inputState input 2 else d).setInput input (if back then { x with activeAt := d.now - level.held } else x)
    else
      let d := (d.inputState input (if level.active then 2 else if st = 2 then 1 else st)).setInput input
        { x with level := level.active, activeAt := if level.active then d.now - level.held else x.activeAt }
      if d.inputEdgeWakes input level.active then
        let d := (d.inc 0x68B0 0x07 0 input).watchEvent .wake
        let d := d.wakeEvent (d.flag 0xA030 0x03 0 input)
        let d := segments48.foldl (fun d u =>
          if maskNames (d.obj 0xA030 0x01 0 input) (d.obj 0xA030 0x02 0 input) u ∧ d.segState u ≠ 0 then d.segKick u 6 input else d) d
        d.watchSettle
      else d.watchSettle

/-- WAKE_INPUT_RELEASE (R264): the input is inactive, and has been for `held` periods; STUCK ACTIVE ends after the filter time. (DESIGN CHOICE: log entry 221.) -/
def execWakeInputRelease (t input held : Nat) (s : State) : Host.Outcome State Fault Refusal :=
  s.aon t (input < 4) fun d =>
    let st := d.obj 0x68B0 0x05 0 input
    if ¬ d.flag 0x68B0 0x01 0 input then d
    else if st = 2 then (d.inputState input 1).watchSettle
    else if st = 5 ∧ d.inputHeld input held then ((d.inputState input 1).setInput input { d.input input with level := false }).watchSettle
    else d

/-- WAKE_INPUT_TEST_START (R264): the diagnostic period has passed and the input is inactive. -/
def execWakeInputTestStart (t input : Nat) (s : State) : Host.Outcome State Fault Refusal :=
  s.aon t (input < 4) fun d =>
    let st := d.obj 0x68B0 0x05 0 input
    let p := d.obj 0x68B0 0x04 0 input
    let x := d.input input
    if d.flag 0x68B0 0x01 0 input ∧ (st = 1 ∨ st = 3 ∨ st = 4) ∧ p ≠ 0 ∧ x.testAt + p * perMs ≤ d.now then d.setInput input { x with testing := true, testAt := d.now }
    else d

/-- A command of this input that makes it active, or inactive. -/
def levelOf (input : Nat) (active : Bool) (c : Instr) : Bool :=
  match c with
  | .wakeInputWake _ i l => i == input && l.active == active
  | .wakeInputRelease _ i _ => i == input && !active
  | _ => false

/-- WAKE_INPUT_TEST_END (R264): the pin's voltage after 200 µs. An input that became active, or that is driven above the 2.6 V that the source can reach (R506), gives no result. (DESIGN CHOICE: log entry 221.) -/
def execWakeInputTestEnd (t input : Nat) (test : WakeTest) (s : State) : Host.Outcome State Fault Refusal :=
  s.aonTimer t (input < 4) (fun _ c => levelOf input true c) fun d =>
    let x := d.input input
    if x.testing ∧ x.testAt + 200 * perUs ≤ d.now then
      let d := d.setInput input { x with testing := false }
      if test.active ∨ 2600 < test.millivolts then d
      else d.inputState input (if test.millivolts < 800 then 4 else if test.millivolts ≤ 2400 then 1 else 3)
    else d

/-- WAKE_INPUT_STUCK (R264): a release in its tick wins (R11). -/
def execWakeInputStuck (t input : Nat) (s : State) : Host.Outcome State Fault Refusal :=
  s.aonTimer t (input < 4) (fun _ c => levelOf input false c) fun d =>
    if d.obj 0x68B0 0x05 0 input = 2 ∧ (d.input input).activeAt + d.obj 0x68B0 0x06 0 input * perS < d.now then d.inputState input 5 else d

/-! Network management (R378 to R390). -/

/-- The frame in progress on an S segment has ended: one on its way to sleep goes on (R384). -/
def Dev.segGoesOn (d : Dev) (port : Nat) : Dev :=
  if 12 ≤ port ∧ port < 20 ∧ d.segState (port + 1) = 6 then (d.segFrameEnd (port + 1)).watchSettle else d

/-- FRAME_TRANSMIT_END (R206, R207, R384): the last byte of the frame on the line leaves the MAC. -/
def execFrameTransmitEnd (t port : Nat) (preemptible : Bool) (s : State) : Host.Outcome State Fault Refusal :=
  s.portCmd t [1] (port < 22) fun d => (d.transmitEnd port (b2n preemptible)).segGoesOn port

/-- ETH_FRAME_END (R124, R157, R177, R182, R384). (DEDUCED: log entry 72.) -/
def execEthFrameEnd (t port : Nat) (preemptible : Bool) (fragments : Nat) (e : RxEnd) (s : State) : Host.Outcome State Fault Refusal :=
  s.portCmd t [0, 1] (port < 22) fun d => (d.frameReceived port preemptible fragments e).segGoesOn port

/-- PLCA_COLLISION (R192, R384). -/
def execPlcaCollision (t port : Nat) (s : State) : Host.Outcome State Fault Refusal :=
  s.cmd t (12 ≤ port && port < 20) fun d => (d.plcaCollide port).segGoesOn port

/-- CSMA_COLLISION (R193, R384). (DESIGN CHOICE: log entry 73.) -/
def execCsmaCollision (t port : Nat) (late : Bool) (s : State) : Host.Outcome State Fault Refusal :=
  s.cmd t (12 ≤ port && port < 20) fun d => (d.csmaCollide port late).segGoesOn port

/-- LINE_FAULT_DECLARE (R195, R196, R384): the fault ends what is on the line. (DESIGN CHOICE: log entry 76.) -/
def execLineFaultDeclare (t port : Nat) (f : LineFault) (s : State) : Host.Outcome State Fault Refusal :=
  s.cmd t (12 ≤ port && port < 20) fun d => (d.faultDeclare port f).segGoesOn port

/-- NM_PDU_RECEIVED (R378): `ident` has the layout of `A:6020.05` on CAN, and is the Ethertype on S; `data` is the PDU. -/
def execNmPduReceived (t unit ident : Nat) (data : Bytes) (s : State) : Host.Outcome State Fault Refusal :=
  s.cmd t (13 ≤ unit && unit < 45 && ident < 2 ^ 32) fun d =>
    let node := byteAt data 0
    if d.segState unit = 0 ∨ ¬ d.pairRuns 1 ∨ ¬ d.isKeepAlive unit ident data then d
    else if d.nodeIgnored unit node then d.inc 0xA020 0x12 unit
    else
      let d := d.inc 0xA020 0x11 unit
      let d := d.setSeg unit { d.seg unit with honoured := (node, d.now) :: (d.seg unit).honoured.filter (fun x => x.1 != node) }
      (if d.segState unit ≤ 2 then d else d.segKick unit 4 node).watchSettle

/-- NM_CYCLE (R379): a keep-alive every NM cycle from the entry into AWAKE. -/
def execNmCycle (t unit : Nat) (s : State) : Host.Outcome State Fault Refusal :=
  s.cmd t (13 ≤ unit && unit < 61) fun d =>
    if d.segState unit = 3 ∧ (d.seg unit).nmNext ≤ d.now ∧ d.pairRuns 1 then
      (d.setSeg unit { d.seg unit with nmNext := (d.seg unit).nmNext + d.obj 0xA020 0x07 unit * perMs }).nmSend unit true false
    else d

/-- BUS_WAKE (R386): bus activity that has lasted the bus wake filter, on a sleeping CAN or S segment. -/
def execBusWake (t unit : Nat) (s : State) : Host.Outcome State Fault Refusal :=
  s.aon t (13 ≤ unit && unit < 45) fun d => if d.segState unit = 1 ∨ d.segState unit = 2 then (d.segKick unit 5 0xFF).watchSettle else d

/-- The count `A:A020.19` (R388). -/
def Dev.awakeSeconds (d : Dev) (u : Nat) : Nat := match (d.seg u).awakeFrom with | some a => (d.now - a) / perS | none => 0

/-- Put a node on the ignore list; false when it is full (R388). -/
def Dev.ignoreNode (d : Dev) (u node : Nat) : Dev × Bool :=
  if d.nodeIgnored u node then (d, true)
  else match (List.range 8).find? (fun r => d.obj 0xA021 0x01 u r == 0xFF) with
    | some r => ((d.set 0xA021 0x01 node u r).set 0xA021 0x02 ((d.now - d.watch.aonEpoch) * 32768 / perS) u r, true)
    | none => (d, false)

/-- MAX_AWAKE_EXCEEDED (R388). -/
def execMaxAwakeExceeded (t unit : Nat) (s : State) : Host.Outcome State Fault Refusal :=
  s.cmd t (13 ≤ unit && unit < 61) fun d =>
    let lim := d.obj 0xA020 0x08 unit
    if lim = 0 ∨ d.awakeSeconds unit ≤ lim ∨ d.segState unit < 3 ∨ ¬ d.pairRuns 1 then d
    else
      let nodes := ((d.seg unit).honoured.filter (fun x => d.now ≤ x.2 + d.obj 0xA020 0x05 unit * perMs)).map (·.1)
      let (d, fit) := nodes.foldl (fun (a : Dev × Bool) n => let (d, ok) := a.1.ignoreNode unit n; (d, a.2 && ok)) (d, true)
      let d := if isLin unit ∨ ¬ fit then d.set 0xA020 0x1D 1 unit else d
      let d := d.setSeg unit { d.seg unit with trRemote := false, awakeFrom := some d.now }
      ((d.inc 0xA020 0x18 unit).event 1 (some 3) Ev.awakeExceeded.code unit (nodes.map (BitVec.ofNat 8 ·))).watchSettle

/-! Almanac writes of A000–AFFF and 68B0 (R375, R376, R379, R389, R398). -/

/-- The channel or port of a segment is enabled (R375). -/
def Dev.segEnabled (d : Dev) (u : Nat) : Bool := if u < 21 then d.flag 0x4020 0x01 u else if isCan u then d.flag 0x6010 0x01 u else d.flag 0x6810 0x01 u

/-- The node ID lies in the bits that the mask leaves uncompared, where the base is 0 (R379). -/
def nmIdOk (node base mask : Nat) : Bool := (node &&& mask) % 2 ^ 30 == 0 && base % 2 ^ 30 &&& (2 ^ 30 - 1 - mask % 2 ^ 30) == 0

/-- Checks 10 of A000–AFFF beyond type and range. -/
def Dev.watchValue (d : Dev) (idx sub u v : Nat) : Nat :=
  let ids (node base mask : Nat) : Nat := if isCan u && !nmIdOk node base mask then 0x302 else 0
  match idx, sub with
  | 0xA020, 0x01 => if v = 1 ∧ isLin u ∧ ¬ d.linMaster u then 0x302 else 0
  | 0xA020, 0x02 => ids v (d.obj 0xA020 0x03 u) (d.obj 0xA020 0x04 u)
  | 0xA020, 0x03 => if 1 < v / 2 ^ 30 then 0x302 else ids (d.obj 0xA020 0x02 u) v (d.obj 0xA020 0x04 u)
  | 0xA020, 0x04 => ids (d.obj 0xA020 0x02 u) (d.obj 0xA020 0x03 u) v
  | 0xA020, 0x05 => if v ≤ d.obj 0xA020 0x07 u then 0x301 else 0
  | 0xA020, 0x07 => if d.obj 0xA020 0x05 u ≤ v then 0x301 else 0
  | _, _ => 0

/-- Check 11 of A000–AFFF. -/
def Dev.watchStopped (d : Dev) (u : Nat) : Bool := !d.flag 0xA020 0x01 u

/-- Domains of a power state (Table 1.9), as bits QN, QE, QS, QW, K. -/
def Dev.stateDomains (d : Dev) (v : Nat) : Nat := match v with | 4 => 31 | 3 => d.obj 0xA000 0x03 % 32 | _ => 0

/-- A managed segment of a unit's domain is awake, or an unmanaged W channel is enabled (R392). -/
def Dev.holdsPower (d : Dev) (u : Nat) : Bool :=
  let st := d.segState u
  (3 ≤ st && st ≤ 6) || (st == 0 && 21 ≤ u && d.segEnabled u)

/-- Another member is PRESENT in the stack (Table 14.3). -/
def Dev.othersPresent (d : Dev) : Bool := (List.range 4).any (fun m => m != d.stackId && d.obj 0x9410 0x01 0 m == 2)

/-- Check 12 of a write of `A:A000.01` (R392). -/
def Dev.stateRefused (d : Dev) (v : Nat) : Bool :=
  let gone (k : Nat) : Bool := bit d.pow.domains k && !bit (d.stateDomains v) k
  if v = d.obj 0xA000 0x02 ∧ v ≠ 3 then false
  else
    (gone 3 && segments48.any (fun u => 21 ≤ u && d.holdsPower u)) || (gone 2 && segments48.any (fun u => u < 21 && d.holdsPower u)) ||
      (gone 4 && d.isLead && d.othersPresent) ||
      (v == 1 && (segments48.any (fun u => d.segState u == 2 || d.flag 0xA020 0x09 u) || d.inputActive))

/-- Checks 12 and 13 of A000–AFFF. -/
def Dev.watchDeps (d : Dev) (idx sub u v : Nat) : Nat :=
  match idx, sub with
  | 0xA020, 0x01 => if v = 1 ∧ ¬ d.segEnabled u then 0x304 else 0
  | 0xA000, 0x01 => if d.stateRefused v then 0x307 else 0
  | _, _ => 0

/-- What an accepted write of A010–AFFF or 68B0 does. -/
def Dev.watchApply (d : Dev) (idx sub u r v : Nat) : Dev :=
  match idx, sub with
  | 0xA020, 0x01 => (d.manage u (v == 1)).watchSettle
  | 0xA020, 0x09 =>
    let d := d.set idx sub v u
    (if v = 1 then (d.ignoreClear u).awakeRun u false
     else if 3 ≤ d.segState u ∧ (d.seg u).awakeFrom.isNone then d.awakeRun u true else d).watchSettle
  | 0xA020, 0x0A => (d.set idx sub v u).watchSettle
  | 0xA020, 0x0B => (d.set idx sub v u).watchSettle
  | 0xA020, 0x1C => if v = 1 then d.ignoreClear u else d
  | 0x68B0, 0x01 =>
    let d := d.set idx sub v 0 r
    if v = 1 then (if d.obj 0x68B0 0x05 0 r = 0 then d.set 0x68B0 0x05 1 0 r else d) else ((d.set 0x68B0 0x05 0 0 r).setInput r {}).watchSettle
  | _, _ => d.set idx sub v u r

end Sys2Proof.Machine
end

