-- ==== Sys2Proof/Machine/Power.lean ====
section
/-! DEFINITION. Power states, state changes, start-up, clocks, droop steps and resets (R36, R391 to R396, R475 to R491), and the control-processor pairs (R29, R30). -/
namespace Sys2Proof.Machine

/-! Domains (R36, R481): bits 0 QN, 1 QE, 2 QS, 3 QW, 4 the K links. -/

/-- Replace the power switching. -/
def Dev.powUpd (d : Dev) (f : PowSt → PowSt) : Dev := { d with pow := f d.pow }

/-- Port records of a domain. -/
def domainPorts (k : Nat) : List Nat :=
  match k with
  | 0 => [0, 1, 2, 3]
  | 1 => [4, 5, 6, 7, 8, 9, 10, 11]
  | 2 => [12, 13, 14, 15, 16, 17, 18, 19]
  | 4 => [20, 21]
  | _ => []

/-- A domain powers down: its ports stop and flush, its stack links fall, and it is off (R481). (DESIGN CHOICE: log entry 119.) -/
def Dev.domainOff (d : Dev) (k : Nat) : Dev :=
  if ¬ bit d.pow.domains k then d
  else
    let d := (domainPorts k).foldl (fun d p =>
      let d := if p < 12 then (d.set 0x4010 0x04 0 (unitOfPort p)).linkFall p else if p < 20 then d.linkFall p else d.stackFall (p - 20) false
      if d.obj 0x2040 0x01 0 p = 1 then ((d.flushPort p).set 0x2040 0x01 2 0 p).flowAll else d) d
    (d.powUpd fun x => { x with domains := setBit x.domains k false }).freshAll

/-- Domains of a set in the order in which they power up (R481): QW, QS, QE, QN, K links. -/
def rampOrder (m : Nat) : List Nat := [3, 2, 1, 0, 4].filter (fun k => bit m k)

/-- A state change ends: `A:A000.02` shows it, it counts and raises vector 3 (R391, R490). (DEDUCED: log entry 120.) -/
def Dev.stateReached (d : Dev) (v : Nat) : Dev :=
  let from_ := d.obj 0xA000 0x02
  let d := (d.set 0xA000 0x02 v).inc 0xA000 0x0E
  let d := d.event 1 (some 3) (.code 0x0192) 0 ([BitVec.ofNat 8 from_, BitVec.ofNat 8 v, BitVec.ofNat 8 (d.obj 0xA000 0x03 % 32)] ++ List.replicate 9 0)
  d.watchSettle

/-- Every domain that a state leaves out powers down in reverse order, and the ramps of the added ones start (R481). (DESIGN CHOICE: log entry 119.) -/
def Dev.switchTo (d : Dev) (v : Nat) : Dev :=
  let want := d.stateDomains v
  let d := ((rampOrder (d.pow.domains)).reverse.filter (fun k => !bit want k)).foldl Dev.domainOff d
  let add := (rampOrder want).filter (fun k => !bit d.pow.domains k)
  let d := d.powUpd fun x => { x with ramp := add, target := v }
  if add.isEmpty then d.stateReached v else d

/-- MAIN_EN level. -/
def Dev.driveMain (d : Dev) (v : Bool) : Dev := (d.watchUpd fun x => { x with mainEn := v }).out (.mainEn v)

/-- Awake segments wait for their domain after a reset that switches it off (Table 15.2). (DEDUCED: log entry 121.) -/
def Dev.segsDown (d : Dev) : Dev :=
  segments48.foldl (fun d u => if 3 ≤ d.segState u then (d.set 0xA020 0x0C 2 u).setSeg u {} else d) d

/-- Transceivers of channels that a CORE reset has stopped go to STANDBY; those of sleeping segments stay as they are (R259, R397). (DEDUCED: log entry 88.) -/
def Dev.resetLines (d : Dev) : Dev :=
  ((List.range 40).map (· + 21)).foldl (fun d u => if d.segState u = 1 ∨ d.segState u = 2 then d else d.xcvr u) d

/-- The CORE domain and the quadrants reset (Table 19.7). `stage` says what the start waits for. (DEDUCED: log entry 121.) -/
def Dev.coreDown (d : Dev) (cause stage : Nat) : Dev :=
  (((d.coreReset cause).segsDown).resetLines).watchUpd fun x => { x with stage := stage, scripts := [] }

/-- Enter Watch: transceivers follow their channels once more, MAIN_EN falls (R393). (DEDUCED: log entry 120.) -/
def Dev.enterWatch (d : Dev) : Dev :=
  let d := (d.set 0xA000 0x04 0).xcvrAll
  let d := ((d.driveMain false).set 0xA000 0x02 1).inc 0xA000 0x0E
  (d.coreReset 1).watchUpd fun x => { x with stage := 1, inWatch := true, scripts := [] }

/-- What an accepted write of `A:A000.01` does (R391, R393 to R395): it acknowledges a sleep request, ends the fail-safe, and starts the change. A write of the present state changes nothing. The entry into Watch follows the reply. (DEDUCED: log entry 118.) -/
def Dev.stateCommand (d : Dev) (v : Nat) : Dev :=
  let d := d.set 0xA000 0x01 v
  let d := if d.obj 0xA000 0x08 = 1 then (d.set 0xA000 0x08 2).watchUpd fun x => { x with ackEnd := none } else d
  let d := d.failSafeEnd
  let was := d.obj 0xA000 0x02
  if v = 1 then
    let d := d.set 0xA000 0x04 1
    if was = 2 then d else d.switchTo 2
  else if v = was ∧ d.pow.domains = d.stateDomains v then d
  else (d.set 0xA000 0x04 0).switchTo v

/-- Once the reply to a Watch write has left, Watch is entered as soon as RUN_REQ is low (R393). (DEDUCED: log entry 118.) -/
def Dev.watchIfReady (d : Dev) : Dev := if d.obj 0xA000 0x04 = 1 ∧ ¬ d.watch.runReq ∧ ¬ d.alm.waiting ∧ d.pow.ramp.isEmpty then d.enterWatch else d

/-- POWER_DOMAIN_RAMP_END (R481): the ramping domain is on and its clocks run, and segments that waited for it wake (R380); the next one starts, or the change is complete. (DEDUCED: log entry 122.) -/
def execPowerDomainRampEnd (t : Nat) (s : State) : Host.Outcome State Fault Refusal :=
  s.cmd t true fun d =>
    match d.pow.ramp with
    | [] => d
    | k :: rest =>
      let d := (((d.powUpd fun x => { x with domains := setBit x.domains k true, ramp := rest }).freshAll.plotterRepower d).pendingUp).segLinks.watchSettle
      if rest.isEmpty then (d.stateReached d.pow.target).finishIfReady else d

/-- RUN_REQ_RISE (R391, R393, R395, R396, R480): WAKE_OUT is released, the fail-safe and a pending entry into Watch end, and from Watch MAIN_EN rises. -/
def execRunReqRise (t : Nat) (s : State) : Host.Outcome State Fault Refusal :=
  s.aon t true fun d =>
    if d.watch.runReq then d
    else
      let d := ((d.watchUpd fun x => { x with runReq := true }).wakeOutBit 0 false).failSafeEnd
      let d := if d.obj 0xA000 0x04 = 1 then (d.set 0xA000 0x04 0).watchEvent .wake else d
      if d.watch.inWatch then
        let d := (d.driveMain true).watchUpd fun x => { x with inWatch := false, stage := if x.mainPg then 2 else 1 }
        d.flashUpd fun x => { x with cause := 1 }
      else d

/-- RUN_REQ_FALL (R393, R482): completes a pending entry into Watch; otherwise it is ignored with event 0x0193. -/
def execRunReqFall (t : Nat) (s : State) : Host.Outcome State Fault Refusal :=
  s.aon t true fun d =>
    if ¬ d.watch.runReq then d
    else
      let d := d.watchUpd fun x => { x with runReq := false }
      if d.obj 0xA000 0x04 = 1 then d.watchIfReady
      else d.event 1 (some 3) (.code 0x0193) 0 (List.replicate 12 0)

/-- VAON_POWER_ON (R396, Table 19.7): the whole device resets into Watch with WAKE_OUT asserted; flash and fuses keep their contents. (DEDUCED: log entry 127.) -/
def execVaonPowerOn (t : Nat) (s : State) : Host.Outcome State Fault Refusal :=
  let d := (s.dev.advance t).coreReset 0
  let w : WatchSt := { runReq := false, mainEn := false, mainPg := false, inWatch := true, stage := 1, aonEpoch := d.now }
  let d := { d with store := d.store.filter (fun x => [0xC04008, 0xC04009, 0xC0400A].contains (x.1 % 2 ^ 24)), integ := { d.integ with repairMode := 0 }, watch := w, flash := { d.flash with failedSlot := none } }
  let d := ((d.set 0x9400 0x04 d.stackId).set 0xA000 0x02 1).wakeOutBit 0 true
  -- until the image is applied the lines carry the default STANDBY pattern (R260)
  .next { s with dev := ((List.range 40).map (· + 21)).foldl Dev.linesOut d }

/-- VAON_REMOVAL (R391): the device is Off. -/
def execVaonRemoval (t : Nat) (s : State) : Host.Outcome State Fault Refusal :=
  let d := (s.dev.advance t).coreReset 0
  .next { s with dev := d.watchUpd fun x => { x with off := true, inWatch := false, mainEn := false, mainPg := false, runReq := false, stage := 1 } }

/-- MAIN_PG_RISE (R491, R395): the reference monitor starts; with RUN_REQ low after a brownout, Watch is entered instead. (DEDUCED: log entry 127.) -/
def execMainPgRise (t : Nat) (s : State) : Host.Outcome State Fault Refusal :=
  s.aon t true fun d =>
    let d := d.watchUpd fun x => { x with mainPg := true }
    if d.watch.stage ≠ 1 ∨ ¬ d.watch.mainEn then d
    else if d.watch.runReq then d.watchUpd fun x => { x with stage := 2 }
    else ((d.driveMain false).set 0xA000 0x02 1).watchUpd fun x => { x with inWatch := true }

/-- BROWNOUT (R395, R477): the fail-safe acts and the CORE reset is asserted at once. A change in progress gets no reply (R482). -/
def execBrownout (t : Nat) (s : State) : Host.Outcome State Fault Refusal :=
  s.aon t true fun d =>
    if ¬ d.watch.mainEn then d
    else
      let d := (d.inc 0xA000 0x0B).failSafe
      ((d.set 0xA000 0x04 0).coreDown 2 1).watchUpd fun x => { x with mainPg := false }

/-- REFERENCE_VALID (R483). -/
def execReferenceValid (t : Nat) (s : State) : Host.Outcome State Fault Refusal :=
  s.aon t true fun d => if d.watch.stage = 2 then d.watchUpd fun x => { x with stage := 3 } else d

/-- CORE_PLLS_LOCKED (R484): the CORE reset may be released. -/
def execCorePllsLocked (t : Nat) (s : State) : Host.Outcome State Fault Refusal :=
  s.aon t true fun d => if d.watch.stage = 3 then d.watchUpd fun x => { x with stage := 4 } else d

/-- REFERENCE_LOSS (R485). -/
def execReferenceLoss (t : Nat) (s : State) : Host.Outcome State Fault Refusal :=
  s.aon t true fun d => if ¬ d.watch.mainEn ∨ d.watch.stage = 1 ∨ d.watch.stage = 2 then d else (d.set 0xA000 0x04 0).coreDown 3 2

/-- RESET_N_ASSERT (R482, R488): ignored in Watch. A start that still waits for its supply, reference or PLLs goes on waiting. -/
def execResetNAssert (t : Nat) (s : State) : Host.Outcome State Fault Refusal :=
  s.aon t true fun d => if ¬ d.watch.mainEn then d else (d.set 0xA000 0x04 0).coreDown 4 (if d.watch.stage = 0 then 4 else d.watch.stage)

/-! Droop steps (R486, R487). -/

/-- Report an entry into a deeper step: event 0x0191 at most once per step and millisecond, with the entries since the last. (DESIGN CHOICE: log entry 128.) -/
def Dev.droopReport (d : Dev) (step : Nat) : Dev :=
  let (last, n) := tget (fun _ => (none, 0)) d.pow.droop step
  let due : Bool := match last with | some e => decide (e + perMs ≤ d.now) | none => true
  if due then
    (d.powUpd fun x => { x with droop := tput (fun _ => (none, 0)) x.droop step (some d.now, 0) }).event 1 (some 3) (.code 0x0191) 0
      ([BitVec.ofNat 8 step] ++ beBytes 4 (n + 1) ++ List.replicate 7 0)
  else d.powUpd fun x => { x with droop := tput (fun _ => (none, 0)) x.droop step (last, n + 1) }

/-- DROOP_THRESHOLD_CROSSING (R486): VCORE falls below the threshold of a step; a deeper step is taken at once. (DESIGN CHOICE: log entry 128.) -/
def execDroopThresholdCrossing (t step : Nat) (s : State) : Host.Outcome State Fault Refusal :=
  s.cmd t (1 ≤ step && step ≤ 3) fun d =>
    if step ≤ d.obj 0x2000 0x08 then d
    else ((d.set 0x2000 0x08 step).powUpd fun x => { x with droopAt := d.now }).droopReport step

/-- DROOP_STEP_RECOVERY (R487): VCORE has stayed above the present step's threshold plus 1 % for 1 µs; the step has to have lasted 1 µs. -/
def execDroopStepRecovery (t : Nat) (s : State) : Host.Outcome State Fault Refusal :=
  s.cmd t true fun d =>
    let step := d.obj 0x2000 0x08
    if 1 ≤ step ∧ d.pow.droopAt + perUs ≤ d.now then (d.set 0x2000 0x08 (step - 1)).powUpd fun x => { x with droopAt := d.now } else d

/-! Control-processor pairs (R29, R30). -/

/-- A pair. -/
def Dev.pair (d : Dev) (p : Nat) : PairSt := tget (fun _ => {}) d.pairs p

/-- Replace a pair. -/
def Dev.setPair (d : Dev) (p : Nat) (x : PairSt) : Dev := { d with pairs := tput (fun _ => {}) d.pairs p x }

/-- LOCKSTEP_MISMATCH (R30): the pair restarts; with CP2 a running blend holds its rate (R89); a second mismatch within 10 s holds it in reset with a safety event. A lead whose CP0 is held is replaced (R356). -/
def execLockstepMismatch (t pair : Nat) (s : State) : Host.Outcome State Fault Refusal :=
  s.cmd t (pair < 4) fun d =>
    let p := d.pair pair
    if p.state = 2 then d
    else
      let again : Bool := match p.lastMismatch with | some e => decide (d.now ≤ e + 10 * perS) | none => false
      let stopped := if p.state = 1 then p.stoppedAt else d.now
      let d := d.setPair pair { state := if again then 2 else 1, stoppedAt := stopped, lastMismatch := some d.now }
      let d := d.event 7 (some 2) Ev.lockstep.code 0 [BitVec.ofNat 8 pair]
      let d := d.flashUpd fun x => { x with healthy := none }
      let d := if pair = 2 ∧ p.state = 0 then d.sexUpd fun x => { x with blend := x.blend.map (fun b => { b with frozen := some d.now }) } else d
      if again then
        let d := (d.event 7 (some 2) Ev.pairHeld.code 0 [BitVec.ofNat 8 pair]).safetyOut
        if pair = 0 then d.leadSelect.stackView else d
      else d

/-- A time that ran while a pair was stopped moves by the length of the stop. (DEDUCED: log entry 125.) -/
def later (n : Nat) (e : Option Nat) : Option Nat := e.map (· + n)

/-- What was frozen while a pair restarted goes on (Table 1.5): CP0 the lease and the election window, CP1 the timers of network management, CP2 the receipt timeouts and the revert hold-off, CP3 the minutes and health time of a trial. (DEDUCED: log entry 125.) -/
def Dev.thaw (d : Dev) (p : Nat) (n : Nat) : Dev :=
  match p with
  | 0 => d.almUpd fun x => { x with leaseEnd := x.leaseEnd + n, windowEnd := x.windowEnd + n, stackWrite := x.stackWrite.map (fun w => { w with since := w.since + n }) }
  | 1 =>
    let d := segments48.foldl (fun d u =>
      let g := d.seg u
      d.setSeg u { g with tr := later n g.tr, windowEnd := later n g.windowEnd, loadedAt := later n g.loadedAt, nmNext := g.nmNext + n,
                          awakeFrom := later n g.awakeFrom }) d
    let d := d.roseUpd fun x => { x with exceptions := 0 }
    let d := segments48.foldl (fun d u =>
      match (d.seg u).late with
      | some (r, src) => (d.setSeg u { d.seg u with late := none }).segKick u r src
      | none => d) d
    d.watchSettle
  | 2 =>
    let d := d.sexUpd fun x => { x with blend := x.blend.map (fun b => { b with start := b.start + (d.now - b.frozen.getD d.now), frozen := none }) }
    let d := [0, 1].foldl (fun d k =>
      let x := d.sex.dom k
      (d.setDom k { x with syncAt := x.syncAt + n, annAt := x.annAt + n, lockedAt := x.lockedAt + n }).domainSet k (d.obj 0x8020 0x01 0 k)) d
    if d.isLead then d.zoneTakeOver else d
  | _ => d.flashUpd fun x => { x with since := d.flash.since + n }

end Sys2Proof.Machine
end

