-- ==== Sys2Proof/Machine/Update.lean ====
section
/-! DEFINITION. The flash, image checks, transfers, trials and confirmation (R429 to R452). -/
namespace Sys2Proof.Machine

/-! The flash (R430, R431). -/

/-- An erased sector. -/
def erased : Bytes := List.replicate 4096 0xFF

/-- What a sector reads before it is written: the release image in firmware slot 0, erased elsewhere. -/
def sectorDefault (k : Nat) : Bytes := if 0x500 ≤ k ∧ k < 0xD00 then (Config.releaseImage k ++ erased).take 4096 else erased

/-- Bytes of a sector. -/
def Dev.sector (d : Dev) (k : Nat) : Bytes := tget sectorDefault d.flash.sectors k

/-- Erase and program a sector. -/
def Dev.putSector (d : Dev) (k : Nat) (b : Bytes) : Dev := d.flashUpd fun x => { x with sectors := tput sectorDefault x.sectors k b }

/-- Bytes of the flash from the start of a sector on. -/
def Dev.flashRead (d : Dev) (k n : Nat) : Bytes := (((List.range (cdiv n 4096)).map (fun i => d.sector (k + i))).flatten).take n

/-- First sector of a firmware slot (Table 17.1). -/
def slotSector (k : Nat) : Nat := 0x500 + 0x800 * k

/-- First sector of an Almanac slot. -/
def almSector (k : Nat) : Nat := 0x100 + 0x200 * k

/-! The boot record (R434, R435). -/

/-- One update of the boot record. -/
def Dev.setBoot (d : Dev) (f : BootRec → BootRec) : Dev :=
  d.flashUpd fun x => let r := f d.bootRec; { x with boot := some { r with gen := d.bootRec.gen + 1 } }

/-- Role of a firmware slot (Table 17.5). -/
def Dev.role (d : Dev) (k : Nat) : Nat := d.bootRec.roles.getD k 0

/-- Slot of a role, the lowest first. -/
def Dev.slotWith (d : Dev) (role : Nat) : Option Nat := [0, 1, 2].find? (fun k => d.role k == role)

/-- A trial is pending or running (R435). -/
def Dev.trialOpen (d : Dev) : Bool := d.bootRec.fwPending || d.bootRec.almPending || d.bootRec.running

/-! Image checks (R433, R439, R441). -/

/-- All bytes of a range are 0. -/
def zeros (b : Bytes) (off n : Nat) : Bool := (slice b off n).all (· == 0)

/-- Checks 1 to 4 of Table 17.3 on a manifest: 0 passes; the second number is the check that fails. -/
def Dev.manifestCheck (d : Dev) (m : Bytes) : Nat × Nat :=
  let pk := slice m 128 1793
  let n := field m 1924 2
  let h := shake256 (ascii "VZN-GKEY" ++ pk) 32
  let len := field m 20 4
  if m.take 4 ≠ ascii "VZFW" ∨ field m 4 4 ≠ 0x7240 ∨ 2 ≤ byteAt m 13 ∨ ¬ zeros m 18 2 ∨ ¬ zeros m 24 40 ∨ ¬ zeros m 1921 3 ∨ ¬ zeros m 3206 62330 ∨ 64 < byteAt m 12 ∨
      len < 4096 ∨ 6291456 < len then (0x605, 1)
  else if h ≠ Config.keyHash 1 ∧ ¬ (h = Config.keyHash 0 ∧ ¬ d.flash.revoked) then (0x605, 2)
  else if n = 0 ∨ 1280 < n ∨ ¬ Config.falconVerify pk (m.take 1924) (slice m 1926 n) then (0x605, 3)
  else if byteAt m 12 < d.flash.secVersion then (0x605, 4)
  else (0, 0)

/-- The manifest area of a slot. -/
def Dev.manifest (d : Dev) (k : Nat) : Bytes := d.flashRead (slotSector k) 65536

/-- The image of a slot. -/
def Dev.image (d : Dev) (k : Nat) : Bytes := d.flashRead (slotSector k + 16) (field (d.manifest k) 20 4)

/-- FWD of a manifest. -/
def fwd (m : Bytes) : Bytes := slice m 64 64

/-- Table 17.3 on a slot: code and failing check. -/
def Dev.imageCheck (d : Dev) (k : Nat) : Nat × Nat :=
  let m := d.manifest k
  let r := d.manifestCheck m
  if r.1 ≠ 0 then r
  else if shake256 (d.image k) 64 ≠ fwd m then (0x605, 5)
  else (0, 0)

/-- Validity that a check gives a slot (`A:B801.02`). -/
def validityOf (r : Nat × Nat) : Nat := if r.1 = 0 then 3 else if r.2 = 4 then 5 else 4

/-- The manifest's fields show in `A:B801` (Table 17.8). -/
def Dev.showManifest (d : Dev) (k : Nat) : Dev :=
  let m := d.manifest k
  if m.take 4 ≠ ascii "VZFW" then [0x03, 0x04, 0x05, 0x06, 0x07].foldl (fun d s => d.set 0xB801 s 0 0 k) d
  else
    ((((d.set 0xB801 0x03 (field m 8 4) 0 k).set 0xB801 0x04 (byteAt m 12) 0 k).set 0xB801 0x05 (field m 14 2) 0 k).set 0xB801 0x06 (field m 20 4) 0 k).set 0xB801 0x07 (field m 64 16) 0 k

/-- A slot has been checked (R433). (DEDUCED: log entry 134.) -/
def Dev.slotChecked (d : Dev) (k : Nat) (r : Nat × Nat) : Dev := ((d.set 0xB801 0x08 r.1 0 k).set 0xB801 0x02 (validityOf r) 0 k).showManifest k

/-- Table 17.7 on an Almanac slot but for the schema. -/
def Dev.almHeaderCheck (d : Dev) (k : Nat) : Nat :=
  let h := d.flashRead (almSector k) 128
  let n := field h 16 4
  if h.take 4 ≠ ascii "VZAL" then 0x502
  else if field h 4 4 ≠ 0x7240 then 0x501
  else if field h 8 4 = 0 ∨ ¬ zeros h 14 2 ∨ ¬ zeros h 84 44 ∨ 2 * 2 ^ 20 - 128 < n then 0x502
  else if slice h 20 64 ≠ shake256 ((d.flashRead (almSector k) (128 + n)).drop 128) 64 then 0x502
  else 0

/-- Schema of an Almanac slot's image. -/
def Dev.almSchema (d : Dev) (k : Nat) : Nat := field (d.flashRead (almSector k) 128) 12 2

/-- Table 17.7 and the migratable range of the running firmware (R441, R445). -/
def Dev.almCheck (d : Dev) (k : Nat) : Nat :=
  let c := d.almHeaderCheck k
  let m := d.manifest (d.obj 0xB800 0x01)
  let s := d.almSchema k
  if c ≠ 0 then c else if s < field m 16 2 ∨ field m 14 2 < s then 0x503 else 0

/-! Conditions (R444). -/

/-- Vehicle speed in 10^-6 km/h; none while the designated signal is not VALID. -/
def Dev.speed6 (d : Dev) : Option Int :=
  let n := d.obj 0xB830 0x01
  if 65535 < n ∨ d.sig 0x08 n ≠ 1 then none
  else some ((d.sig 0x09 n * d.obj 0xB830 0x02 : Nat) + toI32 (d.obj 0xB830 0x03) * 1000)

/-- The conditions that refuse now: speed, battery, lock. -/
def Dev.conditions (d : Dev) : Bool × Bool × Bool :=
  let speed : Bool := d.obj 0xB830 0x01 != 0xFFFFFFFF && (match d.speed6 with | some v => decide (500000 < v) | none => true)
  (speed && !d.flash.recovery, decide (d.vbat < 11800), d.flag 0xB830 0x06 && !d.flash.recovery)

/-- R444: the code of the first condition that refuses. -/
def Dev.conditionCode (d : Dev) : Nat :=
  let (a, b, c) := d.conditions
  if a then 0x601 else if b then 0x602 else if c then 0x603 else 0

/-- VBATSENSE_SAMPLE (R444): the Watch takes a sample. (DESIGN CHOICE: log entry 136.) -/
def execVbatsenseSample (t mv : Nat) (s : State) : Host.Outcome State Fault Refusal :=
  s.aon t (mv < 65536) fun d => d.flashUpd fun x => { x with samples := (mv :: x.samples).take 16 }

/-! Transfers (R442, R443, R445, R446). -/

/-- Almanac slot that is not current. -/
def Dev.otherAlm (d : Dev) : Nat := if d.bootRec.current = 0 then 1 else 0

/-- First sector that a transfer writes. -/
def Dev.targetSector (d : Dev) (h : XferHdr) : Nat := if h.type = 1 then slotSector ((d.slotWith 0).getD 0) else almSector d.otherAlm

/-- Blocks of a transfer. -/
def XferHdr.blocks (h : XferHdr) : Nat := cdiv h.len 4096

/-- A block has been received. -/
def Dev.blockGot (d : Dev) (n : Nat) : Bool := tget (fun _ => false) d.flash.got n

/-- Blocks received. -/
def Dev.gotCount (d : Dev) : Nat := d.flash.got.length

/-- Every block of a transfer is stored. -/
def Dev.allGot (d : Dev) (h : XferHdr) : Bool := decide (h.blocks ≤ d.gotCount)

/-- A valid header is resumed, by a start (R442) or at a CORE start. -/
def Dev.resume (d : Dev) : Dev :=
  match d.flash.header with
  | none => d
  | some h =>
    let st := if d.allGot h then 2 else 1
    let d := ((((d.set 0xB810 0x02 st).set 0xB810 0x03 h.id).set 0xB810 0x04 h.type).set 0xB810 0x05 h.len).set 0xB810 0x06 h.blocks
    match d.slotWith 0 with
    | some k => if h.type = 1 then d.set 0xB801 0x02 st 0 k else d
    | none => d

/-- An accepted start (R442). (DEDUCED: log entry 137.) -/
def Dev.startTransfer (d : Dev) (b : Bytes) : Dev :=
  let h : XferHdr := { type := byteAt b 0, id := field b 4 4, len := field b 8 4 }
  if d.flash.header = some h then d.resume
  else
    (d.flashUpd fun x => { x with
      header := some h, got := [], quarters := [], block := 0,
      reverted := if h.type = 1 ∧ x.reverted = d.slotWith 0 then none else x.reverted }).resume |>.set 0xB810 0x0D 0

/-- Checks of a start: first of its value, then of the state (R442, R444). -/
def Dev.startCheck (_d : Dev) (v : Nat) : Nat :=
  let b := beBytes 12 v
  let type := byteAt b 0
  let len := field b 8 4
  if type ≠ 1 ∧ type ≠ 2 then 0x302
  else if field b 1 3 ≠ 0 then 0x303
  else if len = 0 ∨ (if type = 1 then 8 * 2 ^ 20 else 2 * 2 ^ 20) < len then 0x301
  else 0

/-- Check value of a block (R443). -/
def blockCheck (id n : Nat) (b : Bytes) : Bytes := shake256 (ascii "VZN-BLK" ++ beBytes 4 id ++ beBytes 2 n ++ b) 16

/-- The assembled block. -/
def Dev.assembled (d : Dev) : Bytes := ((List.range 4).map (fun q => tget (fun _ => []) d.flash.quarters q)).flatten

/-- Padding beyond the length in the last block is 0 (R443). -/
def paddingOk (h : XferHdr) (n : Nat) (b : Bytes) : Bool := if n + 1 = h.blocks then (b.drop (h.len - 4096 * n)).all (· == 0) else true

/-- Checks of a block's check value in the order of R443. -/
def Dev.checkValueCode (d : Dev) (n v : Nat) : Nat :=
  match d.flash.header with
  | none => 0x304
  | some h =>
    if h.blocks ≤ n then 0x301
    else if d.blockGot n then 0
    else if d.flash.block ≠ n ∨ d.flash.quarters.length < 4 then 0x304
    else if d.conditionCode ≠ 0 then d.conditionCode
    else if beBytes 16 v ≠ blockCheck h.id n d.assembled ∨ ¬ paddingOk h n d.assembled then 0x604
    else 0

/-- An accepted check value: a duplicate counts; a block is stored and its bitmap bit follows. -/
def Dev.storeBlock (d : Dev) (n : Nat) : Dev :=
  match d.flash.header with
  | none => d
  | some h =>
    if d.blockGot n then d.inc 0xB810 0x0F
    else
      let d := (d.putSector (d.targetSector h + n) d.assembled).flashUpd fun x => { x with got := tput (fun _ => false) x.got n true, quarters := [] }
      if d.allGot h then d.resume else d

/-- A quarter of a block (R443). (DEDUCED: log entry 137.) -/
def Dev.putQuarter (d : Dev) (n q v : Nat) : Dev :=
  d.flashUpd fun x =>
    let l := if x.block = n then x.quarters else []
    { x with block := n, quarters := tput (fun _ => []) l q (beBytes 1024 v) }

/-- TRANSFER_VERIFY_COMPLETE (R445): the target has been checked. -/
def execTransferVerifyComplete (t : Nat) (s : State) : Host.Outcome State Fault Refusal :=
  s.cmd t true fun d =>
    match d.flash.header with
    | none => d
    | some h =>
      if d.obj 0xB810 0x02 ≠ 2 ∨ ¬ d.pairRuns 3 then d
      else
        let (d, code) := match (if h.type = 1 then d.slotWith 0 else none) with
          | some k => let r := d.imageCheck k; (d.slotChecked k r, r.1)
          | none => (d, d.almCheck d.otherAlm)
        ((d.set 0xB810 0x02 (if code = 0 then 3 else 4)).set 0xB810 0x0D code).event 9 (some 21) Ev.transferDone.code

/-- An accepted activation (R446). -/
def Dev.activate (d : Dev) : Dev :=
  let fw : Bool := d.obj 0xB810 0x04 == 1
  (d.setBoot fun r => if fw then { r with fwPending := true } else { r with almPending := true, trial := d.otherAlm }).set 0xB810 0x02 5

/-- The device restarts the CORE domain by its firmware (Table 19.7). -/
def Dev.restartCore (d : Dev) : Dev := d.settle.coreDown 5 4

/-- An abandoned transfer (R445). -/
def Dev.abandon (d : Dev) : Dev :=
  (d.flashUpd fun x => { x with header := none, got := [], quarters := [], block := 0 }).set 0xB810 0x02 0

/-! Trials (R448 to R451). -/

/-- The trial confirms (R450). (DEDUCED: log entry 138.) -/
def Dev.confirm (d : Dev) : Dev :=
  let fw := d.slotWith 3
  let m := d.manifest (d.obj 0xB800 0x01)
  let roles (l : List Nat) : List Nat := match fw with | some _ => l.map (fun x => if x = 3 then 1 else if x = 1 then 2 else if x = 2 then 0 else x) | none => l
  let d := d.setBoot fun r => { r with
    roles := roles r.roles, current := if r.trial = 0xFF then r.current else r.trial, trial := 0xFF, fwPending := false, almPending := false, running := false, starts := 0, minutes := 0 }
  let d := d.flashUpd fun x => { x with secVersion := max x.secVersion (byteAt m 12), revoked := x.revoked || bit (byteAt m 13) 0, healthy := none }
  let d := [0, 1, 2].foldl (fun d k => if d.obj 0xB801 0x02 0 k = 3 ∧ d.obj 0xB801 0x04 0 k < d.flash.secVersion then d.set 0xB801 0x02 5 0 k else d) d
  (d.set 0xB840 0x01 0).event 9 (some 21) Ev.trialEnd.code

/-- The trial reverts (R451). (DEDUCED: log entry 139.) -/
def Dev.revert (d : Dev) : Dev :=
  let trial := d.slotWith 3
  let d := d.setBoot fun r => { r with
    roles := r.roles.map (fun x => if x = 3 then 0 else x), trial := 0xFF, fwPending := false, almPending := false, running := false, starts := 0, minutes := 0 }
  let d := match trial with | some k => (d.set 0xB801 0x02 4 0 k).flashUpd fun x => { x with reverted := some k } | none => d
  ((d.set 0xB840 0x01 0).inc 0xB800 0x07).event 9 (some 21) Ev.reverted.code

/-- A waiting command confirms the trial in this tick (R449). -/
def Dev.confirmsNow (d : Dev) : Instr → Bool
  | .confirmWrite _ => d.obj 0xB840 0x01 == 2
  | .healthConditionsHeld _ => (match d.flash.healthy with | some h => d.healthNow && !d.flag 0xB840 0x05 && decide (h + d.obj 0xB840 0x04 * perS ≤ d.now) | none => false)
  | _ => false

/-- TRIAL_MINUTE (R448, R451): a whole minute of this start's run time; at ten minutes the trial reverts and the CORE restarts. A confirmation of the same tick wins (R449). (DEDUCED: log entry 139.) -/
def execTrialMinute (t : Nat) (s : State) : Host.Outcome State Fault Refusal :=
  s.timer t true Dev.confirmsNow fun d =>
    if d.obj 0xB840 0x01 = 0 ∨ ¬ d.pairRuns 3 ∨ d.now < d.flash.since + (d.flash.added + 1) * 60 * perS then d
    else
      let d := (d.setBoot fun r => { r with minutes := r.minutes + 1 }).flashUpd fun x => { x with added := x.added + 1 }
      if 10 ≤ d.bootRec.minutes then d.revert.restartCore else d

/-- HEALTH_CONDITIONS_HELD (R449): the conditions have held for the confirmation delay; the trial confirms or awaits the owner. -/
def execHealthConditionsHeld (t : Nat) (s : State) : Host.Outcome State Fault Refusal :=
  s.cmd t true fun d =>
    match d.flash.healthy with
    | some h =>
      if ¬ d.healthNow ∨ d.now < h + d.obj 0xB840 0x04 * perS then d
      else if d.flag 0xB840 0x05 then d.set 0xB840 0x01 2
      else d.confirm
    | none => d

/-! Almanac writes and views of B800–BFFF. -/

/-- Checks 10 of B800–BFFF beyond type and range. -/
def Dev.updValue (d : Dev) (idx sub v : Nat) : Nat :=
  match idx, sub with
  | 0xB810, 0x01 => d.startCheck v
  | 0xB830, 0x01 => if v = 0xFFFFFFFF then 0 else if 65535 < v then 0x301 else if 32 < d.sig 0x04 v then 0x302 else 0
  | _, _ => 0

/-- Checks 12 and 13 of B800–BFFF. (DEDUCED: log entry 138.) -/
def Dev.updDeps (d : Dev) (idx sub r v : Nat) : Nat :=
  let transfer : Bool := (idx == 0xB810 && (sub == 0x01 || sub == 0x0B || sub == 0x0E)) || idx == 0xB820
  if transfer ∧ ¬ d.flash.recovery ∧ ¬ d.pairRuns 3 then 0x307
  else match idx, sub with
  | 0xB810, 0x01 =>
    if d.trialOpen ∨ (v / 2 ^ 88 = 1 ∧ (d.slotWith 0).isNone) then 0x307 else d.conditionCode
  | 0xB810, 0x0B => if v = 0 then 0 else if d.obj 0xB810 0x02 ≠ 3 then 0x304 else if d.trialOpen then 0x307 else d.conditionCode
  | 0xB820, 0x05 => d.checkValueCode r v
  | 0xB840, 0x06 => if v = 1 ∧ d.obj 0xB840 0x01 ≠ 2 then 0x307 else 0
  | _, _ => 0

/-- What an accepted write of B800–BFFF does. -/
def Dev.updApply (d : Dev) (idx sub r v : Nat) : Dev :=
  match idx, sub with
  | 0xB810, 0x01 => d.startTransfer (beBytes 12 v)
  | 0xB810, 0x0B => if v = 1 then d.activate else d
  | 0xB810, 0x0E => if v = 1 then d.abandon else d
  | 0xB820, 0x05 => d.storeBlock r
  | 0xB820, _ => d.putQuarter r (sub - 1) v
  | 0xB840, 0x05 => let d := d.set idx sub v; if v = 0 ∧ d.obj 0xB840 0x01 = 2 then d.confirm else d
  | 0xB840, 0x06 => if v = 1 then d.confirm else d
  | _, _ => d.set idx sub v 0 r

/-- What follows the reply to a write of B800–BFFF: the restart of R446. -/
def Dev.updAfter (d : Dev) (idx sub v : Nat) : Dev :=
  if idx = 0xB810 ∧ sub = 0x0B ∧ v = 1 ∧ d.flag 0xB810 0x0C ∧ d.obj 0xB810 0x02 = 5 then d.restartCore else d

/-- Objects of B800–BFFF that are computed when they are read. (DESIGN CHOICE: log entry 157.) -/
def Dev.updView (d : Dev) (idx sub r : Nat) : Option Nat :=
  let first := match d.flash.header with
    | some h => ((List.range h.blocks).find? (fun n => !d.blockGot n)).getD 0xFFFF
    | none => 0xFFFF
  match idx, sub with
  | 0xB800, 0x04 => some d.bootRec.count
  | 0xB800, 0x08 => some d.flash.secVersion
  | 0xB800, 0x0B => some d.bootRec.current
  | 0xB801, 0x01 => some (d.role r)
  | 0xB810, 0x07 => some d.gotCount
  | 0xB810, 0x08 => some first
  | 0xB811, 0x01 => some ((List.range 32).foldl (fun v i => v + b2n (d.blockGot (32 * r + i)) * 2 ^ i) 0)
  | 0xB830, 0x04 => some (match d.speed6 with | some v => ofI32 (v / 1000) | none => 0x7FFFFFFF)
  | 0xB830, 0x05 => some d.vbat
  | 0xB830, 0x07 => some (let (a, b, c) := d.conditions; b2n a + 2 * b2n b + 4 * b2n c)
  | 0xB840, 0x02 => some d.bootRec.starts
  | 0xB840, 0x03 => some d.bootRec.minutes
  | _, _ => none

end Sys2Proof.Machine
end

