-- ==== Sys2Proof/Machine/Almanac.lean ====
section
/-! DEFINITION. The Almanac's objects as requests see them: addressing, values, the checks of each area, and what an accepted write does (R7 to R9, R38 to R47, R51, R65, R497). -/
namespace Sys2Proof.Machine

/-! Types (R39, R40). -/

/-- Size in bytes of a type (Table 2.2). -/
def Ty.size : Ty → Nat
  | .u8 => 1
  | .u16 => 2
  | .u32 => 4
  | .u64 => 8
  | .i32 => 4
  | .bool => 1
  | .enum8 => 1
  | .bits32 => 4
  | .octet n => n
  | .time96 => 12
  | .bearing64 => 8

/-- A value lies in one of the intervals. -/
def inSegs (l : List (Int × Int)) (x : Int) : Bool := l.any (fun s => decide (s.1 ≤ x) && decide (x ≤ s.2))

/-- Check 10 as far as the type and the object's own range tell it. -/
def ObjRow.typeCheck (o : ObjRow) (v : Nat) : Nat :=
  let x : Int := if o.ty = .i32 then toI32 v else v
  if o.ty = .bool ∧ 1 < v then 0x302
  else if o.ty = .time96 ∧ 1000000000 ≤ v / 65536 % 2 ^ 32 then 0x301
  else match o.rng with
    | .any => 0
    | .seg l => if inSegs l x then 0 else 0x301
    | .oneOf l => if inSegs l x then 0 else 0x302
    | .bits reserved => if v &&& reserved ≠ 0 then 0x303 else 0

/-! Paths (R7 to R9, R46). -/

/-- Check 4: the path is well formed and names a present member. -/
def Dev.pathCheck (d : Dev) (b : Bytes) : Nat :=
  let m := byteAt b 8
  let g := byteAt b 9
  let i := byteAt b 10
  let formed : Bool := (decide (m < 4) || m == 0x0F) && (if g = 0 then i == 0xFF else (groupUnits g).isSome && (i == 0xFF || (unitOfGI g i).isSome))
  if ¬ formed then 0x103 else if m < 4 ∧ ¬ d.memberPresent m then 0x401 else 0

/-- Members that a path addresses, in path order. -/
def Dev.pathMembers (d : Dev) (b : Bytes) : List Nat := if byteAt b 8 = 0x0F then (List.range 4).filter d.memberPresent else [byteAt b 8]

/-- Units under the group and index of a path, in path order. -/
def pathUnits (b : Bytes) : List Nat :=
  let g := byteAt b 9
  if g = 0 then List.range unitCount
  else if byteAt b 10 = 0xFF then (match groupUnits g with | some (u, n) => (List.range n).map (· + u) | none => [])
  else (unitOfGI g (byteAt b 10)).toList

/-- Units under a path that have an object. -/
def addressedUnits (o : ObjRow) (b : Bytes) : List Nat := (pathUnits b).filter (scopeHas o.scope)

/-- The path names exactly one unit at the level of the object (R46). -/
def exactPath (o : ObjRow) (b : Bytes) : Bool := byteAt b 8 != 0x0F && (o.scope == .member || (byteAt b 9 != 0 && byteAt b 10 != 0xFF))

/-- The access class at a unit: on the K links the enable of a port follows the stack link (R198). (DEDUCED: log entry 30.) -/
def ObjRow.accAt (o : ObjRow) (u : Nat) : Acc := if o.idx = 0x4020 ∧ o.sub = 1 ∧ 63 ≤ u then .ro else o.acc

/-- A unit under the path has the index at all. -/
def indexUnder (idx : Nat) (b : Bytes) : Bool :=
  (areaRows idx).any (fun o => o.idx ≤ idx && idx < o.idx + o.n && !(addressedUnits o b).isEmpty)

/-- Checks 5 to 8 of a READ or WRITE: 0 passes (R38, R40, R41, R43). (DEDUCED: log entry 30.) -/
def Dev.objectCheck (d : Dev) (b : Bytes) (write : Bool) : Nat :=
  let idx := recIndex b
  if ¬ indexUnder idx b then 0x110
  else match findRow idx (recSub b) with
    | none => 0x111
    | some o =>
      let us := addressedUnits o b
      if us.isEmpty then 0x110
      else if (if o.recs = 0 then decide (recRecord b ≠ 0) else decide (o.recs ≤ recRecord b)) then 0x112
      else if write ∧ us.any (fun u => o.accAt u == .ro) then 0x206
      else if ¬ write ∧ o.acc = .wo then 0x207
      else if write ∧ 0x40 ≤ recSub b ∧ ¬ d.flag 0x1020 (idx / 0x1000) then 0x205
      else 0

/-- Check 9: the declared length against the one that the opcode carries (R511). -/
def lengthCheck (b : Bytes) (want : Nat) : Nat := if 1024 < recLen b then 0x121 else if recLen b ≠ want then 0x120 else 0

/-! Objects that are computed when they are read. -/

/-- Objects of 1000–2FFF. (DESIGN CHOICE: log entry 26.) -/
def Dev.ownView (d : Dev) (idx sub : Nat) : Option Nat :=
  match idx, sub with
  | 0x1000, 0x03 => some Config.siliconRevision
  | 0x1000, 0x04 => some Config.serialNumber
  | 0x1000, 0x08 => some d.stackId
  | 0x1000, 0x09 => some ((List.range 4).filter d.memberPresent).length
  | 0x1000, 0x0A => some (d.obj 0x9400 0x04)
  | 0x1011, 0x03 =>
    some (match d.obj 0x1011 0x02 with
      | 2 => d.replicaLease / perMs
      | 3 => Config.leadLease d.now
      | _ => 0)
  | _, _ => none

/-- Objects of 3000–3FFF. -/
def Dev.chartView (d : Dev) (idx sub r : Nat) : Option Nat :=
  match idx, sub with
  | 0x3000, 0x03 => some d.chart.mac.length
  | 0x3000, 0x04 => some (d.chart.mac.filter (fun x => entType x.2 == 3)).length
  | 0x3000, 0x05 => some d.stashUse
  | 0x3060, 0x01 => some (d.mac r)
  | 0x3061, 0x01 => some (d.mac (32768 + r))
  | 0x3062, 0x01 => some (d.mac (stashBase + r))
  | _, _ => none

/-- Objects of 5000–5FFF. -/
def Dev.shapeView (d : Dev) (idx sub r : Nat) : Option Nat :=
  match idx, sub with
  | 0x5010, 0x07 => some (d.creditObj r)
  | 0x5020, 0x05 => some (d.creditObj (subNode r))
  | 0x5030, 0x03 => some (d.creditObj (leafNode r))
  | 0x5030, 0x04 => some (d.leafDepth r)
  | _, _ => none

/-- Bit rate of a nominal or data phase of a channel. -/
def bitRate (brp tseg1 tseg2 : Nat) : Nat := 80000000 / (brp * (1 + tseg1 + tseg2))

/-- Objects of 6000–6FFF. -/
def Dev.busView (d : Dev) (idx sub u : Nat) : Option Nat :=
  match idx, sub with
  | 0x6011, 0x09 => some (bitRate (d.obj 0x6011 1 u) (d.obj 0x6011 2 u) (d.obj 0x6011 3 u))
  | 0x6011, 0x0A => some (bitRate (d.obj 0x6011 5 u) (d.obj 0x6011 6 u) (d.obj 0x6011 7 u))
  | 0x6810, 0x08 => if (d.lin u).newTable then some 0 else none
  | _, _ => none

/-- Objects of 8000–8FFF. (DESIGN CHOICE: log entries 54, 173.) -/
def Dev.timeView (d : Dev) (idx sub : Nat) : Option Nat :=
  match idx, sub with
  | 0x8000, 0x01 => some d.ltTime
  | 0x8000, 0x02 => some d.ztTime
  | 0x8000, 0x0A => some Config.clockIdentity
  | 0x8000, 0x0C => some (rate12 d.sex.zt.rate)
  | 0x8000, 0x0D => some ((d.now - d.sex.stateAt) / perMs % 2 ^ 32)
  | 0x8410, 0x09 => some d.phaseBearing
  | _, _ => none

/-- Entries of a member's configuration record (R362). -/
def Dev.recordOf (d : Dev) (m : Nat) : List RecEntry := d.stack.record.filter (fun e => e.member == m)

/-- Bytes of a list of record entries. (DESIGN CHOICE: log entry 34.) -/
def recordBytes (l : List RecEntry) : Nat := (l.map (fun e => Config.entryBytes e.value.length)).sum

/-- Objects of 9000–9FFF. -/
def Dev.hostView (d : Dev) (idx sub r : Nat) : Option Nat :=
  match idx, sub with
  | 0x9000, 0x0B => some Config.vendorId
  | 0x9010, 0x08 => some (d.fifo r).count
  | 0x9010, 0x09 => some (d.fifoFree r)
  | 0x9400, 0x03 => some (((List.range 4).filter d.memberPresent).map (2 ^ ·)).sum
  | 0x9410, 0x01 => if r = d.stackId then some 2 else none
  | 0x9401, 0x01 => some (d.recordOf r).length
  | 0x9401, 0x02 => some (recordBytes (d.recordOf r))
  | _, _ => none

/-- Objects of A000–AFFF. -/
def Dev.watchView (d : Dev) (idx sub u : Nat) : Option Nat :=
  match idx, sub with
  | 0xA020, 0x0D => some (d.needBits u)
  | 0xA020, 0x19 => some (d.awakeSeconds u)
  | _, _ => none

/-- Objects of B000–B7FF. -/
def Dev.binView (d : Dev) (idx sub r : Nat) : Option Nat :=
  match idx, sub with
  | 0xB000, 0x08 => some ((List.range 256).filter (fun k => d.obj 0xB040 0x01 0 k != 0)).length
  | 0xB040, 0x06 => some (d.slotRefs r)
  | _, _ => none

/-- Objects of D000–DFFF. -/
def Dev.logView (d : Dev) (idx sub r : Nat) : Option Nat :=
  match idx, sub with
  | 0xD010, 0x01 => some (match d.ev.log[r]? with | some e => beNat e.bytes | none => 0)
  | 0xD021, 0x03 => some d.recordData
  | _, _ => none

/-- What a READ gives for field `sub` of record `r` of an object at unit `u`. -/
def Dev.read (d : Dev) (idx sub u r : Nat) : Nat :=
  let v : Option Nat := match idx / 0x1000 with
    | 1 => d.ownView idx sub
    | 3 => d.chartView idx sub r
    | 5 => d.shapeView idx sub r
    | 6 => d.busView idx sub u
    | 7 => d.roseView idx sub u r
    | 8 => d.timeView idx sub
    | 9 => d.hostView idx sub r
    | 10 => d.watchView idx sub u
    | 11 => if idx < 0xB800 then d.binView idx sub r else d.updView idx sub r
    | 13 => d.logView idx sub r
    | _ => none
  v.getD (d.obj idx sub u r)

/-! The Almanac's own area (R44, R51, R65, R405). -/

/-- Another function of a CAN channel receives or sends an identifier (R65): a PDU definition, network management or the time master. -/
def Dev.canIdTaken (d : Dev) (u ident : Nat) : Bool :=
  let same (a mask : Nat) : Bool := ((a ^^^ ident) &&& mask) % 2 ^ 29 == 0
  (d.enabledRecs 0x7100).any (fun r =>
      d.pdef 0x02 r == 0 && unitOfW (d.pdef 0x04 r) == some u && bit (d.pdef 0x06 r) 29 && same (d.pdef 0x06 r) (if d.pdef 0x03 r = 0 then d.pdef 0x07 r else 2 ^ 29 - 1)) ||
    (d.flag 0xA020 0x01 u && bit (d.obj 0xA020 0x03 u) 29 && same (d.obj 0xA020 0x03 u) (d.obj 0xA020 0x04 u)) ||
    ((d.ownerBufs u 1).length == 1 && bit (d.obj 0x6050 0x01 u) 29 && same (d.obj 0x6050 0x01 u) (2 ^ 29 - 1))

/-- Checks 10 of 1000–1FFF beyond type and range. (DESIGN CHOICE: log entries 31, 32.) -/
def Dev.ownValue (d : Dev) (idx sub v : Nat) : Nat :=
  match idx, sub with
  | 0x1010, 0x05 => if v ≠ 0xFF ∧ d.slotFull v ∧ ¬ bit (d.obj 0xB040 0x03 0 v) 2 then 0x302 else 0
  | 0x1040, 0x04 => if v ≠ 0xFF ∧ (d.obj 0x6010 0x02 (uC v) = 0 ∨ d.flag 0x6010 0x03 (uC v)) then 0x302 else 0
  | 0x1040, 0x05 => if v = d.obj 0x1040 0x07 then 0x302 else 0
  | 0x1040, 0x07 => if v = d.obj 0x1040 0x05 then 0x302 else 0
  | _, _ => 0

/-- Checks 12 and 13 of 1000–1FFF. (DESIGN CHOICE: log entry 31.) -/
def Dev.ownDeps (d : Dev) (idx sub v : Nat) : Nat :=
  let ch := d.obj 0x1040 0x04
  match idx, sub with
  | 0x1040, 0x02 => if v = d.obj 0x7000 0x06 then 0x305 else 0
  | 0x1040, 0x04 =>
    if v = 0xFF then 0
    else if (d.ownerBufs (uC v) 2).length ≠ 1 then 0x304
    else if d.canIdTaken (uC v) (d.obj 0x1040 0x05) ∨ d.canIdTaken (uC v) (d.obj 0x1040 0x07) then 0x305
    else 0
  | 0x1040, 0x05 => if ch ≠ 0xFF ∧ d.canIdTaken (uC ch) v then 0x305 else 0
  | 0x1040, 0x07 => if ch ≠ 0xFF ∧ d.canIdTaken (uC ch) v then 0x305 else 0
  | _, _ => 0

/-- What an accepted write of 1000–1FFF does; a cleared gate of the integrity area closes the test window (R62, R464). -/
def Dev.ownApply (d : Dev) (idx sub r v : Nat) : Dev :=
  let d := d.set idx sub v 0 r
  if idx = 0x1020 ∧ sub = 0x0C ∧ v = 0 then d.closeWindow else d

/-- Every expert gate is cleared and the staged blobs leave when ownership changes (R44, R62, R415). -/
def Dev.clearGates (d : Dev) : Dev := ((List.range 13).foldl (fun d k => d.set 0x1020 (k + 1) 0) d).closeWindow.discardStaging

/-! The shared balls (R497). -/

/-- A claim of a ball that another function holds. -/
def Dev.ballDeps (d : Dev) (idx sub r v : Nat) : Nat :=
  let cs (n : Nat) : Bool := (List.range 24).any (fun c => d.obj 0x6880 0x06 (uC c) == n)
  match idx, sub with
  | 0x6880, 0x06 => if (v = 6 ∧ d.flag 0x8051 0x01) ∨ (v = 7 ∧ d.flag 0x8050 0x01 0 1) then 0x305 else 0
  | 0x8051, 0x01 => if v = 1 ∧ cs 6 then 0x305 else 0
  | 0x8050, 0x01 => if v = 1 ∧ r = 1 ∧ cs 7 then 0x305 else 0
  | _, _ => 0

/-! The checks of every area. -/

/-- Check 10 beyond type and range; `local_` says that the write came over PCIe or HS. -/
def Dev.valueCode (d : Dev) (idx sub u r v : Nat) (local_ : Bool) : Nat :=
  match idx / 0x1000 with
  | 1 => d.ownValue idx sub v
  | 2 => d.fabValue idx sub r v
  | 3 => d.chartValue idx sub r v
  | 4 => d.portValue idx sub u v
  | 5 => d.shapeValue idx sub r v
  | 6 => if idx < 0x6800 then d.canValue idx sub u r v else if idx = 0x6880 then xcvrValue idx sub u v else linValue idx sub r v
  | 7 => d.roseValue idx sub r v
  | 8 => if idx = 0x8060 then d.canValue idx sub u r v else if idx < 0x8400 then d.sexValue idx sub r v else d.plotValue idx sub r v
  | 9 => d.fifoValue idx sub r v
  | 10 => d.watchValue idx sub u v
  | 11 => if idx < 0xB800 then d.binValue idx sub u r v local_ else d.updValue idx sub v
  | 12 => d.integValue idx sub v
  | 13 => d.integValue idx sub v
  | _ => 0

/-- Check 11: the function that owns an RWS object is stopped. -/
def Dev.stopped (d : Dev) (idx sub u r : Nat) : Bool :=
  match idx / 0x1000 with
  | 3 => d.chartStopped idx r
  | 4 => d.portStopped idx sub u
  | 5 => d.shapeStopped idx r
  | 6 => d.busStopped idx u r
  | 7 => d.roseStopped idx r
  | 8 => if idx < 0x8400 then d.sexStopped idx u r else d.plotStopped idx sub r
  | 9 => !d.fifoOn r
  | 10 => d.watchStopped u
  | 11 => d.binStopped idx u r
  | _ => true

/-- Checks 12 and 13. -/
def Dev.depsCode (d : Dev) (idx sub u r v : Nat) : Nat :=
  match idx / 0x1000 with
  | 1 => d.ownDeps idx sub v
  | 2 => d.fabDeps idx sub r v
  | 3 => d.chartDeps idx sub r v
  | 4 => d.portDeps idx sub u v
  | 5 => d.shapeDeps idx sub r v
  | 6 =>
    if idx < 0x6800 then d.canDeps idx sub u r v
    else if idx = 0x6880 then (if d.xcvrDeps idx sub u v ≠ 0 then d.xcvrDeps idx sub u v else d.ballDeps idx sub r v)
    else d.linDeps idx sub u v
  | 7 => d.roseDeps idx sub u r v
  | 8 => if idx = 0x8060 then d.canDeps idx sub u r v else if idx < 0x8400 then d.ballDeps idx sub r v else d.plotDeps idx sub r v
  | 9 => if idx < 0x9400 then d.fifoDeps idx sub r v else d.stackDeps idx sub r v
  | 10 => d.watchDeps idx sub u v
  | 11 => if idx < 0xB800 then d.binDeps idx sub u r v else d.updDeps idx sub r v
  | 12 => d.integDeps idx sub v
  | 13 => d.integDeps idx sub v
  | _ => 0

/-- Checks 10 to 13 of a write of value `v` at one unit, in order (Table 2.5). -/
def Dev.unitCheck (d : Dev) (o : ObjRow) (idx sub u r v : Nat) (local_ : Bool) : Nat :=
  if o.typeCheck v ≠ 0 then o.typeCheck v
  else if d.valueCode idx sub u r v local_ ≠ 0 then d.valueCode idx sub u r v local_
  else if o.acc = .rws ∧ ¬ d.stopped idx sub u r then 0x208
  else d.depsCode idx sub u r v

/-! What an accepted write does. -/

/-- The effect of an accepted write at one unit. -/
def Dev.apply (d : Dev) (idx sub u r v : Nat) : Dev :=
  match idx / 0x1000 with
  | 1 => d.ownApply idx sub r v
  | 2 => d.fabApply idx sub r v
  | 3 => d.chartApply idx sub r v
  | 4 => d.portApply idx sub u r v
  | 5 => d.shapeApply idx sub u r v
  | 6 => if idx = 0x68B0 then d.watchApply idx sub u r v else d.busApply idx sub u r v
  | 7 => d.roseApply idx sub u r v
  | 8 => if idx = 0x8060 then d.busApply idx sub u r v else if idx < 0x8400 then d.sexApply idx sub u r v else d.plotApply idx sub r v
  | 9 => if idx < 0x9400 then d.fifoApply idx sub r v else d.stackApply idx sub u r v
  | 10 => if idx = 0xA000 ∧ sub = 0x01 then d.stateCommand v else d.watchApply idx sub u r v
  | 11 => if idx < 0xB800 then d.binApply idx sub u r v else d.updApply idx sub r v
  | 12 => d.integApply idx sub r v
  | 13 => d.integApply idx sub r v
  | _ => d

/-- What a refusal leaves behind: an insertion of a static entry that returned FULL (R152, R155), conflicts of the Plotter (R104), refusals under R444, and failed check values of blocks (R443). -/
def Dev.countRefusal (d : Dev) (idx r code : Nat) : Dev :=
  if idx = 0x3050 ∧ code = 0x306 then (d.chartInsert (d.staticEntry r)).1
  else if idx / 0x1000 = 8 ∧ 0x8400 ≤ idx ∧ code = 0x305 then d.inc 0x8400 0x06
  else if idx / 0x800 = 0x17 ∧ 0x601 ≤ code ∧ code ≤ 0x603 then d.inc 0xB830 0x08
  else if idx = 0xB820 ∧ code = 0x604 then d.inc 0xB810 0x09
  else d

end Sys2Proof.Machine
end

