-- ==== Sys2Proof/Machine/Boot.lean ====
section
/-! DEFINITION. The boot sequence (R400, R431, R436 to R441, R489, R490). -/
namespace Sys2Proof.Machine

/-! The Almanac image (R42, R439, R498). -/

/-- One object of the image takes its value; a refusal is recorded in the Logbook and the rest goes on. (DESIGN CHOICE: log entry 35.) -/
def Dev.imageWrite (d : Dev) (w : ImageWrite) : Dev :=
  let v := beNat w.value
  let refused (d : Dev) : Dev := d.event 9 none Ev.loadFailed.code w.unit (beBytes 2 w.idx ++ beBytes 1 w.sub ++ beBytes 2 w.record)
  match findRow w.idx w.sub with
  | none => refused d
  | some o =>
    let known : Bool := scopeHas o.scope w.unit && (if o.recs = 0 then w.record == 0 else decide (w.record < o.recs)) && w.value.length == o.ty.size
    let writable : Bool := o.accAt w.unit == .rw || o.acc == .rws
    if known ∧ writable ∧ d.unitCheck o w.idx w.sub w.unit w.record v false = 0 then d.apply w.idx w.sub w.unit w.record v else refused d

/-- Program an image into an Almanac slot. -/
def Dev.programAlm (d : Dev) (k : Nat) (img : Bytes) : Dev :=
  (List.range (cdiv img.length 4096)).foldl (fun d i => d.putSector (almSector k + i) ((slice img (4096 * i) 4096 ++ List.replicate 4096 0xFF).take 4096)) d

/-- Bytes of the image in an Almanac slot. -/
def Dev.almImage (d : Dev) (k : Nat) : Bytes := d.flashRead (almSector k) (128 + field (d.flashRead (almSector k) 128) 16 4)

/-- Almanac slot that a start applies (R440): the trial slot while a trial runs with it, else the current one. -/
def Dev.startAlm (d : Dev) : Option Nat :=
  let k := if d.obj 0xB840 0x01 ≠ 0 ∧ d.bootRec.trial ≠ 0xFF then d.bootRec.trial else d.bootRec.current
  if k = 0xFF then none else some k

/-- Step 10 and 11: the image is checked, migrated where its schema differs, measured and applied (R439 to R441). (DESIGN CHOICE: log entry 35.) -/
def Dev.loadAlmanac (d : Dev) (env : BootEnv) : Dev :=
  let none_ : Bytes := List.replicate 64 0
  match d.startAlm with
  | none => d.binStage2 none_
  | some k =>
    let code := d.almCheck k
    if code ≠ 0 then (d.set 0xB800 0x0D code).binStage2 none_
    else
      let version := field (d.flashRead (almSector k) 128) 8 4
      let migrate : Bool := d.almSchema k != d.obj 0x1000 0x07
      let target := if k = d.bootRec.trial then k else d.otherAlm
      let d := if migrate then ((d.programAlm target env.migrated).setBoot fun r => { r with trial := target }).set 0xB800 0x0C 1 else d
      let img := if migrate then env.migrated else d.almImage k
      let d := (d.binStage2 (shake256 img 64)).set 0x1000 0x06 version
      env.writes.foldl Dev.imageWrite d

/-! Candidates (R437). -/

/-- The trial has reached a limit (R437, R451). (DEDUCED: log entry 133.) -/
def Dev.trialSpent (d : Dev) : Bool := d.trialOpen && (decide (3 ≤ d.bootRec.starts) || decide (10 ≤ d.bootRec.minutes))

/-- Firmware slot of the trial: TRIAL, or with activation pending the lowest STAGING slot. -/
def Dev.trialSlot (d : Dev) : Option Nat := match d.slotWith 3 with | some k => some k | none => if d.bootRec.fwPending then d.slotWith 0 else none

/-- The first candidate that passes Table 17.3; every one tried is shown. -/
def Dev.pickSlot (d : Dev) : List (Nat × Nat) → Dev × Option (Nat × Nat)
  | [] => (d, none)
  | (k, src) :: l =>
    let r := d.imageCheck k
    let d := d.slotChecked k r
    if r.1 = 0 then (d, some (k, src)) else d.pickSlot l

/-- Step 4: the boot record is read, a spent trial reverts, and the record counts the start (R431, R434, R437, R448). (DEDUCED: log entry 133.) -/
def Dev.bootStep4 (d : Dev) : Dev :=
  let d := if d.trialSpent then d.revert else d
  let skip : Bool := d.trialSlot.isSome && d.trialSlot == d.flash.failedSlot
  let starts : Bool := d.trialOpen && !skip
  let slot := d.trialSlot
  d.setBoot fun r =>
    let r := { r with count := (r.count + 1) % 2 ^ 32 }
    if starts then
      { r with roles := (match slot with | some k => r.roles.set k 3 | none => r.roles), fwPending := false, almPending := false, running := true, starts := r.starts + 1 }
    else r

/-- Candidates of a start with their sources (`A:B800.03`), without the slot that failed pass 2 (R438). -/
def Dev.candidates (d : Dev) : List (Nat × Nat) :=
  let l := ((d.slotWith 3).map (·, 1)).toList ++ ((d.slotWith 1).map (·, 0)).toList ++ ((d.slotWith 2).map (·, 2)).toList
  l.filter (fun x => d.flash.failedSlot != some x.1)

/-- What a start shows of the running slot. -/
def Dev.showRunning (d : Dev) (k src : Nat) : Dev :=
  let m := d.manifest k
  let d := (((d.set 0xB800 0x01 k).set 0xB800 0x03 src).set 0x1000 0x05 (field m 8 4)).set 0x1000 0x07 (field m 14 2)
  if src = 2 then d.event 9 (some 21) Ev.fallbackStart.code else d

/-- The slots as a start finds them. (DEDUCED: log entry 134.) -/
def Dev.showSlots (d : Dev) : Dev :=
  let d := [0, 1, 2].foldl Dev.showManifest d
  match d.flash.reverted with | some k => d.set 0xB801 0x02 4 0 k | none => d

/-- The ROM goes to recovery (R437). -/
def Dev.enterRecovery (d : Dev) : Dev := (d.set 0xB800 0x03 3).flashUpd fun x => { x with recovery := true }

/-- Steps 4 to 11 of Table 17.6, after the root secret and stage 0. -/
def Dev.bootOn (d : Dev) (env : BootEnv) : Dev :=
  let d := (d.set 0xB800 0x09 env.flashSize).set 0xB800 0x0A env.flashState
  if env.flashState ≠ 0 then d.enterRecovery
  else
    let d := d.bootStep4.showSlots
    let (d, found) := d.pickSlot d.candidates
    let d := d.flashUpd fun x => { x with failedSlot := none }
    match found with
    | none => d.enterRecovery
    | some (k, src) =>
      let d := d.binStage1 (fwd (d.manifest k))
      if ¬ env.pass2 then ((d.inc 0xB800 0x06).flashUpd fun x => { x with failedSlot := some k }).restartCore
      else
        let trial : Bool := d.bootRec.running && (src == 1 || (d.slotWith 3).isNone)
        let d := (d.showRunning k src).resume
        let d := if trial then d.set 0xB840 0x01 1 else d
        let d := (d.loadAlmanac env).flashUpd fun x => { x with since := d.now, added := 0 }
        ((d.set 0xB800 0x05 env.ms).healthStart).watchSettle

/-- The release of the CORE reset (R489, R490): the start is the first record of the Logbook, and the device is in Standby. (DESIGN CHOICE: log entry 18; DEDUCED: log entry 132.) -/
def Dev.released (d : Dev) : Dev :=
  let was := d.obj 0xA000 0x02
  let d := if d.watch.stage = 4 then { d with ltEpoch := d.now, sex := {} } else d
  let d := (d.watchUpd fun x => { x with stage := 0 }).flashUpd fun x => { x with booted := true }
  let d := d.event 1 (some 3) (.code 0x0190) 0 ([BitVec.ofNat 8 d.flash.cause] ++ beBytes 4 (d.bootRec.count + 1) ++ List.replicate 7 0)
  let d := (d.set 0xA000 0x01 2).set 0xA000 0x02 2
  if was = 2 then d else (d.inc 0xA000 0x0E).event 1 (some 3) (.code 0x0192) 0 ([BitVec.ofNat 8 was, 2, BitVec.ofNat 8 (d.obj 0xA000 0x03 % 32)] ++ List.replicate 9 0)

/-- The values of a start lie in their objects' ranges. -/
def BootEnv.ok (env : BootEnv) : Bool :=
  decide (env.flashState < 4) && decide (env.flashSize < 2 ^ 32) && decide (env.ms < 2 ^ 32) && decide (env.migrated.length ≤ 2 * 2 ^ 20) &&
    env.writes.all (fun w => decide (w.unit < unitCount) && decide (w.idx < 65536) && decide (w.sub < 256) && decide (w.record < 65536))

/-- CORE_RESET_RELEASE (R436): once a start waits for it, the CORE reset is released and the boot sequence runs; `root` says whether the first attempt of R400 rebuilds the root secret. -/
def execCoreResetRelease (t : Nat) (root : Bool) (env : BootEnv) (s : State) : Host.Outcome State Fault Refusal :=
  s.aon t (BootEnv.ok env) fun d =>
    if ¬ (d.watch.stage = 4 ∨ (d.watch.stage = 0 ∧ ¬ d.watch.inWatch ∧ ¬ d.flash.booted)) then d
    else
      let d := d.released.rootRead root
      if root then d.bootOn env else d

/-- ROOT_READ_RETRY (R400): the second and third attempt. -/
def execRootReadRetry (t : Nat) (ok : Bool) (env : BootEnv) (s : State) : Host.Outcome State Fault Refusal :=
  s.cmd t (BootEnv.ok env) fun d =>
    if ¬ d.flash.booted ∨ d.obj 0xB000 0x01 ≠ 0 ∨ d.obj 0xB000 0x02 = 0 then d
    else
      let d := d.rootRead ok
      if ok then d.bootOn env else d

end Sys2Proof.Machine
end

