-- ==== Sys2Proof/Machine/Owner.lean ====
section
/-! DEFINITION. Ownership: candidates, elections, the lease, lapse, release and handover (R53, R55 to R63). -/
namespace Sys2Proof.Machine

/-! Candidates (R55). -/

/-- A source matches a candidate record. -/
def Dev.matchesRecord (d : Dev) (src : Source) (r : Nat) : Bool :=
  match src with
  | .host m => d.obj 0x1010 0x01 0 r == 1 && d.obj 0x1010 0x03 0 r == m
  | .udp a p => d.obj 0x1010 0x01 0 r == 2 && d.obj 0x1010 0x04 0 r == a * 65536 + p
  | .can _ _ => d.obj 0x1010 0x01 0 r == 3

/-- Record that a source acts as: the owner's when it matches, else the lowest it matches. -/
def Dev.candidate (d : Dev) (src : Source) : Option Nat :=
  let o := d.obj 0x1011 0x01
  if o < 16 ∧ d.matchesRecord src o then some o else (List.range 16).find? (d.matchesRecord src)

/-- Check 3: ownership. -/
def Dev.ownerCheck (d : Dev) (src : Source) : Nat :=
  if d.obj 0x1011 0x02 < 2 then 0x202 else if d.candidate src = some (d.obj 0x1011 0x01) then 0 else 0x201

/-! NOTIFY (R53). -/

/-- A NOTIFY record with the new value of `A:1011.01`; its sequence number is a free value. (DEDUCED: log entry 27.) -/
def notifyRecord (member seq owner : Nat) : Bytes :=
  [7, 0] ++ beBytes 2 seq ++ [0x10, 0x11, 1, 0] ++ unitPath member 0 ++ [0, 0, 0, 0] ++ beBytes 2 2 ++ [0, 0] ++ beBytes 2 owner

/-- Send NOTIFY to the master of a record, over the service by which it last reached the server when that is known. (DEDUCED: log entry 27; DESIGN CHOICE: log entries 28, 156.) -/
def Dev.notify (d : Dev) (r : Nat) (via : Option (Service × Option Nat)) : Dev :=
  let m := d.obj 0x1010 0x03 0 r
  let a := d.obj 0x1010 0x04 0 r
  let origin : Option Nat := match via with | some (_, o) => o | none => if d.obj 0x1010 0x01 0 r = 1 ∧ m ≠ d.stackId then some m else none
  let (seq, d) := (d.signal 1).free 47
  let rec_ := notifyRecord d.stackId seq (d.obj 0x1011 0x01)
  match d.obj 0x1010 0x01 0 r with
  | 1 => d.sendRecord origin ((via.map (·.1)).getD .pcie) (.host m) true rec_
  | 2 => d.sendRecord origin .udp (.udp (a / 65536) (a % 65536)) true rec_
  | 3 => d.sendRecord origin .can (.can (d.obj 0x1040 0x04) (d.obj 0x1040 0x05)) true rec_
  | _ => d

/-! Changes of owner. -/

/-- Ownership goes to a record with a lease from a time (R57, R60, R63). (DEDUCED: log entry 23.) -/
def Dev.grant (d : Dev) (r at_ : Nat) (via : Option (Service × Option Nat)) : Dev :=
  let d := (d.set 0x1011 0x01 r).set 0x1011 0x02 (if d.obj 0x1010 0x01 0 r = 4 then 3 else 2)
  let d := (d.clearGates.set 0x1011 0x08 d.ltTime).almUpd fun x => { x with leaseEnd := at_ + perS, via := via }
  d.stackUpd fun x => { x with lease := none }

/-- The device becomes unowned (R61, R63). -/
def Dev.unown (d : Dev) : Dev :=
  let d := (d.set 0x1011 0x01 0xFFFF).set 0x1011 0x02 0
  (d.clearGates.set 0x1011 0x08 d.ltTime).almUpd fun x => { x with via := none }

/-- The lapse of the lease (R61). -/
def Dev.lapse (d : Dev) : Dev :=
  let former := d.obj 0x1011 0x01
  let via := d.alm.via
  ((((d.unown.inc 0x1011 0x05).event 7 none Ev.leaseLapse.code).notify former via)).tellOwnership

/-- The owner's RENEW or CLAIM restarts the lease from its arrival (R58, R60). (DEDUCED: log entry 23.) -/
def Dev.renewLease (d : Dev) (q : Request) : Dev :=
  Dev.tellOwnership (d.almUpd fun x => { x with leaseEnd := q.arrived + perS, via := some (q.svc, q.origin) })

/-! The election (R57). -/

/-- Participant `a` comes before `b`: priority, then arrival, then record number. -/
def Dev.outranks (d : Dev) (a b : Participant) : Bool :=
  let pa := d.obj 0x1010 0x02 0 a.record
  let pb := d.obj 0x1010 0x02 0 b.record
  decide (pb < pa) || (pa == pb && (decide (a.arrived < b.arrived) || (a.arrived == b.arrived && decide (a.record < b.record))))

/-- The winner. -/
def Dev.winner (d : Dev) : List Participant → Option Participant
  | [] => none
  | a :: l => match d.winner l with | none => some a | some b => if d.outranks a b then some a else some b

/-- Answer every claim of a participant. (DEDUCED: log entry 158.) -/
def Dev.answerClaims (d : Dev) (win : Nat) (p : Participant) : Dev :=
  p.claims.foldl (fun d q => if p.record = win then d.reply q 0 else (d.inc 0x1011 0x07).reply q 0x203) d

/-- The election window closes. (DEDUCED: log entries 25, 158.) -/
def Dev.closeElection (d : Dev) : Dev :=
  let ps := d.alm.participants
  let d := (d.inc 0x1011 0x04).almUpd fun x => { x with participants := [] }
  match d.winner ps with
  | none => (d.set 0x1011 0x02 0).tellOwnership
  | some w =>
    let via := w.claims.getLast?.map (fun q => (q.svc, q.origin))
    let d := d.grant w.record d.alm.windowEnd via
    let d := ps.foldl (fun d p => d.answerClaims w.record p) d
    (d.notify w.record via).tellOwnership

/-- A window or a lease that ended before tick `a` is acted on before a request that arrived in `a` is served. (DEDUCED: log entry 24.) -/
def Dev.dueBefore (d : Dev) (a : Nat) : Dev :=
  let d := if d.obj 0x1011 0x02 = 1 ∧ d.alm.windowEnd < a then d.closeElection else d
  if d.obj 0x1011 0x02 = 2 ∧ d.alm.leaseEnd < a then d.lapse else d

/-- Every waiting request arrived after a tick. -/
def Dev.servedUpTo (d : Dev) (a : Nat) : Bool := d.alm.queue.all (fun q => decide (a < q.arrived))

/-- A command brings a request to this member. -/
def bringsRequest (c : Instr) : Bool :=
  match c with
  | .almDoorbell .. => true
  | .hsRequest .. => true
  | .udpRequest .. => true
  | .canServiceRequest .. => true
  | .canFrameReceived .. => true
  | .stackForwardedRequest .. => true
  | _ => false

/-- ELECTION_WINDOW_CLOSE (R57): after the requests that arrive in its tick. -/
def execElectionWindowClose (t : Nat) (s : State) : Host.Outcome State Fault Refusal :=
  s.timer t true (fun _ c => bringsRequest c) fun d =>
    if d.isLead ∧ d.pairRuns 0 ∧ d.obj 0x1011 0x02 = 1 ∧ d.alm.windowEnd ≤ d.now ∧ d.servedUpTo d.alm.windowEnd then d.closeElection else d

/-- LEASE_EXPIRY (R61): after the requests that arrive in its tick. (DEDUCED: log entry 24.) -/
def execLeaseExpiry (t : Nat) (s : State) : Host.Outcome State Fault Refusal :=
  s.timer t true (fun _ c => bringsRequest c) fun d =>
    if d.isLead ∧ d.pairRuns 0 ∧ d.stack.lease.isNone ∧ d.obj 0x1011 0x02 = 2 ∧ d.alm.leaseEnd ≤ d.now ∧ d.servedUpTo d.alm.leaseEnd then d.lapse else d

/-! Claims (R55 to R59). -/

/-- A CLAIM is refused, which counts in `A:1011.07` unless the record has no slot. -/
def Dev.refuseClaim (d : Dev) (code : Nat) : Dev := (d.inc 0x1011 0x07).finish code

/-- The claim's CMAC and counter (R56); the engine takes the key for each check (R406). (DEDUCED: log entries 22, 130.) -/
def Dev.claimGenuine (d : Dev) (q : Request) (r slot : Nat) : Bool :=
  d.slotFull slot && aesCmac (d.key slot) (q.bytes.take 28) == slice q.bytes 28 16 && decide (d.obj 0x1010 0x06 0 r < field q.bytes 20 8)

/-- A valid claim meets the state of ownership (R57 to R59). -/
def Dev.validClaim (d : Dev) (q : Request) (r : Nat) : Dev :=
  let part : Participant := { record := r, arrived := q.arrived, claims := [q] }
  let opening (d : Dev) : Dev :=
    ((d.set 0x1011 0x02 1).almUpd fun x => { x with windowEnd := q.arrived + d.obj 0x1011 0x41 * perMs, participants := [part] }).served.tellOwnership
  match d.obj 0x1011 0x02 with
  | 0 => opening d
  | 1 =>
    let l := d.alm.participants
    let l := if l.any (fun p => p.record == r) then l.map (fun p => if p.record = r then { p with claims := p.claims ++ [q] } else p) else l ++ [part]
    (d.almUpd fun x => { x with participants := l }).served
  | 3 => opening d.unown
  | _ => if d.obj 0x1011 0x01 = r then (d.renewLease q).finish 0 else d.refuseClaim 0x203

/-- A CLAIM that has passed checks 1, 2 and 4. (DEDUCED: log entry 22.) -/
def Dev.serveClaim (d : Dev) (q : Request) : Dev :=
  let host : Bool := match q.src with | .host _ => true | _ => false
  let c := lengthCheck q.bytes (if host then 0 else 24)
  if c ≠ 0 then d.finish c
  else match d.candidate q.src with
    | none => d.refuseClaim 0x209
    | some r =>
      if host then d.validClaim q r
      else
        let slot := d.obj 0x1010 0x05 0 r
        if slot = 0xFF then d.finish 0x304
        else
          let d := if d.slotFull slot then d.keyTransfer slot else d
          if d.claimGenuine q r slot then (d.set 0x1010 0x06 (field q.bytes 20 8) 0 r).validClaim q r else d.refuseClaim 0x204

/-! RENEW, RELEASE and HANDOVER (R60, R63). -/

/-- RENEW from the owner. -/
def Dev.serveRenew (d : Dev) (q : Request) : Dev :=
  let c := lengthCheck q.bytes 0
  if c ≠ 0 then d.finish c else (d.renewLease q).finish 0

/-- RELEASE from the owner. -/
def Dev.serveRelease (d : Dev) (q : Request) : Dev :=
  let c := lengthCheck q.bytes 0
  if c ≠ 0 then d.finish c else d.unown.tellOwnership.finish 0

/-- HANDOVER from the owner. -/
def Dev.serveHandover (d : Dev) (q : Request) : Dev :=
  let c := lengthCheck q.bytes 2
  let r := beNat (recData q.bytes)
  let cls := if r < 16 then d.obj 0x1010 0x01 0 r else 0
  if c ≠ 0 then d.finish c
  else if cls = 0 ∨ cls = 4 then d.finish 0x302
  else if r = d.obj 0x1011 0x01 then ((d.inc 0x1011 0x06).renewLease q).finish 0
  else ((((d.inc 0x1011 0x06).grant r d.now none).notify r none).tellOwnership).finish 0

end Sys2Proof.Machine
end

