-- ==== Sys2Proof/Machine/Server.lean ====
section
/-! DEFINITION. The Almanac server: the checks of a request in their order, READ, WRITE and the commit of a write on the members of a stack (R46 to R52, R361 to R363, R401, R437, R511). -/
namespace Sys2Proof.Machine

/-! The request in service (R47 to R49, R511). -/

/-- Check 1 (R511): the record is malformed. -/
def malformed (svc : Service) (b : Bytes) : Bool :=
  let n := recLen b
  decide (b.length < 20) || (decide (n ≤ 1024) && decide (b.length < 20 + n)) ||
    (svc != .can && decide (n ≤ 1024) && decide (20 + n < b.length)) ||
    byteAt b 1 != 0 || byteAt b 7 != 0 || byteAt b 11 != 0 || field b 14 2 != 0 || field b 18 2 != 0

/-- The ROM alone runs: in recovery, or after the root has failed. -/
def Dev.inRom (d : Dev) : Bool := d.flash.recovery || d.obj 0xB000 0x01 == 4

/-- The ROM serves a service (R401, R437). (DEDUCED: log entry 135.) -/
def Dev.romServes (d : Dev) (q : Request) : Bool := q.origin.isNone && (q.svc == .hs || (q.svc == .pcie && d.obj 0xB000 0x01 != 4))

/-- The ROM carries out a request (R401, R437): reads of identity, Binnacle and update objects, and in recovery firmware transfers. (DEDUCED: log entry 135.) -/
def Dev.romAllows (d : Dev) (b : Bytes) : Bool :=
  let idx := recIndex b
  let sub := recSub b
  match recOp b with
  | 1 => idx == 0x1000 || idx == 0xB000 || (d.obj 0xB000 0x01 != 4 && 0xB800 ≤ idx && idx < 0xB900)
  | 2 => d.obj 0xB000 0x01 != 4 && (idx == 0xB820 || (idx == 0xB810 && ((sub == 0x01 && byteAt b 20 == 1) || sub == 0x0B || sub == 0x0E)))
  | _ => false

/-- The opcode needs the owner as source (Table 2.5). -/
def ownerOp (op : Nat) : Bool := op == 2 || op == 4 || op == 5 || op == 6

/-- Checks 1 to 4 of a request, 0 when it passes them. -/
def Dev.frontCheck (d : Dev) (q : Request) : Nat :=
  let b := q.bytes
  if malformed q.svc b then 0x101
  else if recOp b < 1 ∨ 6 < recOp b then 0x102
  else if d.inRom ∧ ¬ d.romAllows b then 0x307
  else if ownerOp (recOp b) ∧ ¬ d.inRom ∧ d.ownerCheck q.src ≠ 0 then d.ownerCheck q.src
  else d.pathCheck b

/-- Counter of `A:1041` for a request (R49). -/
def serviceCounter (q : Request) : Nat :=
  if q.origin.isSome then 5 else match q.svc with | .pcie => 1 | .hs => 2 | .udp => 3 | .can => 4 | .stack => 5

/-- Count a request by the result of checks 1 and 2 (R49). -/
def Dev.countRequest (d : Dev) (q : Request) : Dev :=
  if malformed q.svc q.bytes ∨ recOp q.bytes < 1 ∨ 6 < recOp q.bytes then d.inc 0x1041 0x06 else d.inc 0x1041 (serviceCounter q)

/-- The request that the server may take now: CP0 runs and no request is in service. (DESIGN CHOICE: log entry 149.) -/
def Dev.nextRequest (d : Dev) : Option Request := if d.pairRuns 0 && !d.alm.waiting then d.alm.queue.head? else none

/-- A lease that a change of lead froze runs again when the new lead serves its first request (R356). (DEDUCED: log entry 113.) -/
def Dev.thawLease (d : Dev) : Dev :=
  match d.stack.lease with
  | some l => if d.isLead then (d.almUpd fun x => { x with leaseEnd := d.now + l }).stackUpd fun x => { x with lease := none } else d
  | none => d

/-- The server takes the next request when it is of the kind `test`, and answers it through `f` once it has passed checks 1 to 4. (DESIGN CHOICE: log entry 19; DEDUCED: log entry 20.) -/
def Dev.serve (d : Dev) (test : Bytes → Bool) (f : Dev → Request → Dev) : Dev :=
  match d.nextRequest with
  | none => d
  | some q =>
    if ¬ test q.bytes then d
    else
      let d := d.thawLease.dueBefore q.arrived
      if d.inRom ∧ ¬ d.romServes q then d.served
      else
        let c := d.frontCheck q
        let d := d.countRequest q
        if c ≠ 0 then d.finish c else f d q

/-! READ (R46). -/

/-- One entry of a prefix READ. -/
def readEntry (path : Bytes) (status : Nat) (value : Bytes) : Bytes := path ++ beBytes 2 status ++ beBytes 2 value.length ++ value

/-- What a member returned for a path; a member that did not answer in time returns S-0402 (R52). -/
def memberRead (l : List MemberRead) (path : Bytes) : MemberRead := (l.find? (fun e => e.path == path)).getD { path := path, status := 0x402, value := [] }

/-- A READ that has passed checks 1 to 4; `lost` says that a load of the server meets an uncorrectable error (Table 18.2). -/
def Dev.serveRead (d : Dev) (members : List MemberRead) (lost : Bool) (q : Request) : Dev :=
  let b := q.bytes
  let c := d.objectCheck b false
  if c ≠ 0 then d.finish c
  else if lengthCheck b 0 ≠ 0 then d.finish (lengthCheck b 0)
  else if lost then d.finish 0x504
  else match findRow (recIndex b) (recSub b) with
    | none => d.finish 0x111
    | some o =>
      let value (u : Nat) : Bytes := beBytes o.ty.size (d.read (recIndex b) (recSub b) u (recRecord b))
      let one (m u : Nat) : MemberRead := if m = d.stackId then { path := unitPath m u, status := 0, value := value u } else memberRead members (unitPath m u)
      let es := (d.pathMembers b).flatMap (fun m => (addressedUnits o b).map (one m))
      if exactPath o b then
        match es with
        | e :: _ =>
          if e.status ≠ 0 then d.finish e.status
          else if q.room < e.value.length then d.finish 0x404
          else d.finish 0 e.value
        | [] => d.finish 0x110
      else d.finish 0 (es.flatMap (fun e => readEntry e.path e.status e.value))

/-! WRITE (R8, R47, R49). -/

/-- The first unit of this member that refuses a write, with its code and path. -/
def Dev.firstRefusal (d : Dev) (o : ObjRow) (b : Bytes) (local_ : Bool) : Option (Nat × Bytes) :=
  let code (u : Nat) : Nat := d.unitCheck o (recIndex b) (recSub b) u (recRecord b) (beNat (recData b)) local_
  ((addressedUnits o b).find? (fun u => code u != 0)).map (fun u => (code u, unitPath d.stackId u))

/-- The write takes effect on every addressed unit of this member. -/
def Dev.applyUnits (d : Dev) (o : ObjRow) (b : Bytes) : Dev :=
  let d := (addressedUnits o b).foldl (fun d u => d.apply (recIndex b) (recSub b) u (recRecord b) (beNat (recData b))) d
  if recIndex b = 0x1020 then d.tellOwnership else d

/-- Add one entry to a member's configuration record; one that does not fit sets its overflow (R362, R373). (DESIGN CHOICE: log entry 34.) -/
def Dev.putRecord (d : Dev) (e : RecEntry) : Dev :=
  let rest := d.stack.record.filter (fun x => !(x.member == e.member && x.idx == e.idx && x.sub == e.sub && x.path == e.path && x.record == e.record))
  let all := rest ++ [e]
  if 2097152 < recordBytes (all.filter (fun x => x.member == e.member)) then
    d.stackUpd fun x => { x with record := rest, overflow := tput (fun _ => false) x.overflow e.member true }
  else d.stackUpd fun x => { x with record := all }

/-- Add a committed write to the records of the members that it addresses. (DEDUCED: log entry 115.) -/
def Dev.recordWrite (d : Dev) (o : ObjRow) (b : Bytes) (ms : List Nat) (seq : Nat) : Dev :=
  if o.acc = .wo then d
  else ms.foldl (fun d m => (addressedUnits o b).foldl (fun d u =>
    d.putRecord { member := m, idx := recIndex b, sub := recSub b, path := unitPath m u, record := recRecord b, value := recData b, seq := seq }) d) d

/-- What follows the reply to a write: the restart of an activation, and the entry into Watch (R393, R446). -/
def Dev.afterReply (d : Dev) (b : Bytes) : Dev :=
  match recIndex b, recSub b with
  | 0xB810, 0x0B => d.updAfter 0xB810 0x0B (beNat (recData b))
  | 0xA000, 0x01 => d.watchIfReady
  | _, _ => d

/-- Answer the write in service once every addressed unit has taken it. -/
def Dev.tryFinish (d : Dev) (q : Request) : Dev := if d.writeReady then (d.reply q 0).served.afterReply q.bytes else d

/-- Other members that are PRESENT. -/
def Dev.presentOthers (d : Dev) : List Nat := (List.range 4).filter (fun m => m != d.stackId && d.memberPresent m)

/-- Answer a refused write: a write to a prefix names the refusing unit (R8, R45). -/
def Dev.refuseWrite (d : Dev) (o : ObjRow) (b : Bytes) (code : Nat) (path : Bytes) : Dev := d.finish code (if exactPath o b then [] else path)

/-- Go on with a write that has been committed, once every addressed member has answered or is lost (R361, R363). -/
def Dev.commitProgress (d : Dev) : Dev :=
  match d.alm.stackWrite, d.alm.queue with
  | some w, q :: _ =>
    let w := { w with waitFor := w.waitFor.filter d.memberPresent }
    let d := d.almUpd fun x => { x with stackWrite := some w }
    if ¬ w.committed ∨ ¬ w.waitFor.isEmpty ∨ ¬ d.pairRuns 0 then d
    else match w.refusal, findRow (recIndex q.bytes) (recSub q.bytes) with
      | some (code, path), some o => d.refuseWrite o q.bytes code path
      | _, _ => if w.taken then d.tryFinish q else d.finish 0x401
  | _, _ => d

/-- Commit a checked write with the next stack write sequence number (R361). A write of the service objects is answered before it takes effect (R65). (DEDUCED: log entry 115.) -/
def Dev.commitWrite (d : Dev) (q : Request) (o : ObjRow) (ms : List Nat) : Dev :=
  let b := q.bytes
  let seq := (d.obj 0x9400 0x07 + 1) % 2 ^ 32
  let d := (d.set 0x9400 0x07 seq).recordWrite o b ms seq
  let d := d.presentOthers.foldl (fun d m => d.sendTo m (.commit m seq ms b)) (d.set 0x9401 0x04 seq 0 d.stackId)
  let mine := ms.contains d.stackId
  if recIndex b = 0x1040 then
    let d := d.finish 0
    if mine then d.applyUnits o b else d
  else
    let wait := ms.filter (fun m => m != d.stackId && d.memberPresent m)
    let d := d.almUpd fun x => { x with
      waiting := true
      stackWrite := if wait.isEmpty then none else some { waitFor := wait, committed := true, taken := mine, addressed := ms, since := d.now } }
    let d := if mine then d.applyUnits o b else d
    if wait.isEmpty then d.tryFinish q else d.commitProgress

/-- A WRITE that has passed checks 1 to 4: checks 5 to 9 as a whole, then each unit; other members check over VC3 before any changes. (DESIGN CHOICE: log entry 33.) -/
def Dev.serveWrite (d : Dev) (q : Request) : Dev :=
  let b := q.bytes
  let c := d.objectCheck b true
  if c ≠ 0 then d.finish c
  else match findRow (recIndex b) (recSub b) with
    | none => d.finish 0x111
    | some o =>
      if lengthCheck b o.ty.size ≠ 0 then d.finish (lengthCheck b o.ty.size)
      else
        let ms := d.pathMembers b
        let others := ms.filter (fun m => m != d.stackId)
        let own := if ms.contains d.stackId then d.firstRefusal o b (q.svc == .pcie || q.svc == .hs) else none
        let d := match own with | some (code, _) => d.countRefusal (recIndex b) (recRecord b) code | none => d
        match own with
        | some (code, path) =>
          if others.all (fun m => decide (d.stackId < m)) then d.refuseWrite o b code path
          else (others.foldl (fun d m => d.sendTo m (.check m q.svc b)) d).almUpd fun x => { x with waiting := true, stackWrite := some { waitFor := others, refusal := own, addressed := ms, since := d.now } }
        | none =>
          if others.isEmpty then d.commitWrite q o ms
          else (others.foldl (fun d m => d.sendTo m (.check m q.svc b)) d).almUpd fun x => { x with waiting := true, stackWrite := some { waitFor := others, addressed := ms, since := d.now } }

/-- Go on with a write once the members it waits for have answered or are lost (R361, R363). (DESIGN CHOICE: log entry 33.) -/
def Dev.stackProgress (d : Dev) : Dev :=
  match d.alm.stackWrite, d.alm.queue with
  | some w, q :: _ =>
    let w := { w with waitFor := w.waitFor.filter d.memberPresent }
    let d := d.almUpd fun x => { x with stackWrite := some w }
    if ¬ w.waitFor.isEmpty ∨ ¬ d.pairRuns 0 then d
    else match findRow (recIndex q.bytes) (recSub q.bytes) with
      | none => d.finish 0x111
      | some o =>
        if ¬ w.committed then
          match w.refusal with
          | some (code, path) => d.refuseWrite o q.bytes code path
          | none => if w.addressed.any d.memberPresent then d.commitWrite q o w.addressed else d.finish 0x401
        else d.commitProgress
  | _, _ => d

end Sys2Proof.Machine
end

