-- ==== Sys2Proof/Machine/Expiries.lean ====
section
/-! DEFINITION. The timers of network management, of selective wake and of the sleep request, with what each of them awaits in its tick (R11, R380 to R385, R394). -/
namespace Sys2Proof.Machine

/-- A waiting request is a write that this member accepts. -/
def Dev.accepts (d : Dev) (test : Bytes → Bool) : Bool :=
  d.alm.queue.any (fun q => test q.bytes && recOp q.bytes == 2 && d.frontCheck q == 0 && d.objectCheck q.bytes true == 0 &&
    (match findRow (recIndex q.bytes) (recSub q.bytes) with
     | some o => lengthCheck q.bytes o.ty.size == 0 && (d.firstRefusal o q.bytes (q.svc == .pcie || q.svc == .hs)).isNone
     | none => false))

/-- An edge of a wake input is a wake that `A:A030` maps to a segment (R263). -/
def Dev.inputWakes (d : Dev) (i : Nat) (l : WakeLevel) (u : Nat) : Bool :=
  d.inputEdge i l && d.inputEdgeWakes i l.active &&
    maskNames (d.obj 0xA030 0x01 0 i) (d.obj 0xA030 0x02 0 i) u

/-- A command is a wake request or a veto for a segment (R383, R385, R386): an honoured keep-alive of it or of a segment whose need propagates to it, a LIN wake signal, a mapped wake input, bus activity while it sleeps, or host need. -/
def Dev.keepsAwake (d : Dev) (u : Nat) (c : Instr) : Bool :=
  let heard (v : Nat) : Bool := v == u || (d.segState v != 0 && maskNames (d.obj 0xA020 0x0A v) (d.obj 0xA020 0x0B v) u)
  match c with
  | .nmPduReceived _ v ident data => heard v && d.isKeepAlive v ident data && !d.nodeIgnored v (byteAt data 0)
  | .linWakeSignalReceived _ ch => heard (uL ch) && !d.flag 0xA020 0x1D (uL ch)
  | .wakeInputWake _ i level => segments48.any (fun v => heard v && d.inputWakes i level v)
  | .busWake _ v => heard v && (d.segState v == 1 || d.segState v == 2)
  | .hostNeed _ => d.accepts fun b => recIndex b == 0xA020 && recSub b == 0x09 && recData b == [1] && (pathUnits b).contains u
  | _ => false

/-- A command may start the last call of a CAN or S segment on its line (R381). -/
def callLeaves (u : Nat) (c : Instr) : Bool :=
  match c with
  | .canFrameStart _ ch _ _ => uC ch == u
  | .transmitStart _ p _ => 12 ≤ p && p + 1 == u
  | _ => false

/-- READY_SLEEP_EXPIRY (R380): Tr expires; in READY SLEEP the segment enters LAST CALL. -/
def execReadySleepExpiry (t unit : Nat) (s : State) : Host.Outcome State Fault Refusal :=
  s.timer t (13 ≤ unit && unit < 61) (fun d c => d.keepsAwake unit c) (n := 1250) fun d =>
    match (d.seg unit).tr with
    | none => d
    | some e =>
      if d.now < e ∨ ¬ d.pairRuns 1 then d
      else
        let d := d.setSeg unit { d.seg unit with tr := none, trRemote := false }
        (if d.segState unit = 4 then d.segLastCall unit else d).watchSettle

/-- LAST_CALL_NOT_SENT (R381). `busy` says that another node's frame is in progress. (DEDUCED: log entry 124.) -/
def execLastCallNotSent (t unit : Nat) (busy : Bool) (s : State) : Host.Outcome State Fault Refusal :=
  s.timer t (13 ≤ unit && unit < 45) (fun d c => d.keepsAwake unit c || callLeaves unit c) (n := 1250) fun d =>
    match (d.seg unit).loadedAt with
    | none => d
    | some l =>
      if d.segState unit ≠ 5 ∨ d.now < l + d.obj 0xA020 0x06 unit * perMs ∨ ¬ d.pairRuns 1 then d
      else (((d.callCancel unit).inc 0xA020 0x1B unit).segGoing unit busy).watchSettle

/-- LAST_CALL_WINDOW_CLOSE (R384): `busy` says that another node's frame is in progress. -/
def execLastCallWindowClose (t unit : Nat) (busy : Bool) (s : State) : Host.Outcome State Fault Refusal :=
  s.timer t (13 ≤ unit && unit < 61) (fun d c => d.keepsAwake unit c) (n := 1250) fun d =>
    match (d.seg unit).windowEnd with
    | none => d
    | some e => if d.segState unit ≠ 5 ∨ d.now < e ∨ ¬ d.pairRuns 1 then d else (d.segGoing unit busy).watchSettle

/-- TRANSCEIVER_SCRIPT_COMPLETE (R262, R384): the running script ends verified, or failed after one repeat, by the replies of the transceiver. A wake request in its tick restarts the segment before SLEEP is driven (R385). (DESIGN CHOICE: log entry 87; DEDUCED: log entry 195.) -/
def execTransceiverScriptComplete (t : Nat) (reads : ScriptReads) (s : State) : Host.Outcome State Fault Refusal :=
  s.aonTimer t true (fun d c => match d.watch.scripts with | x :: _ => x.forSleep && d.keepsAwake x.unit c | [] => false) fun d =>
    match d.watch.scripts with
    | [] => d
    | x :: rest =>
      let u := x.unit
      let d := d.watchUpd fun w => { w with scripts := rest }
      let d := if x.verified reads.first then d else d.out (.script x.spi x.sent)
      let d := if x.verified reads.first || x.verified reads.again then d.set 0x6880 0x08 2 u else ((d.set 0x6880 0x08 3 u).inc 0x6880 0x09 u).event 6 (some 17) Ev.scriptFailed.code u
      let d := d.scriptStart
      if x.forSleep ∧ d.segState u = 6 ∧ (d.seg u).step = 2 then (d.segAsleep u).watchSettle else d

/-- ACKNOWLEDGE_TIME_EXPIRY (R394, R395): an acknowledgement or a wake of its tick wins. -/
def execAcknowledgeTimeExpiry (t : Nat) (s : State) : Host.Outcome State Fault Refusal :=
  s.timer t true (fun d c => segments48.any (fun u => d.keepsAwake u c) || (match c with
      | .wakeInputWake _ i level => level.active && d.inputEdge i level
      | .stateCommandWatch _ => d.accepts fun b => recIndex b == 0xA000 && recSub b == 0x01
      | .stateCommandStandby _ => d.accepts fun b => recIndex b == 0xA000 && recSub b == 0x01
      | .stateCommandPartial _ => d.accepts fun b => recIndex b == 0xA000 && recSub b == 0x01
      | .stateCommandRun _ => d.accepts fun b => recIndex b == 0xA000 && recSub b == 0x01
      | _ => false)) fun d =>
    match d.watch.ackEnd with
    | some e => if e ≤ d.now ∧ d.obj 0xA000 0x08 = 1 then d.failSafe else d
    | none => d

end Sys2Proof.Machine
end

