-- ==== Sys2Proof/Machine/HostPort.lean ====
section
/-! DEFINITION. The PCIe endpoint, the HS target, the event registers, and the frames between the FIFOs and the fabric (R331 to R336, R345 to R349). -/
namespace Sys2Proof.Machine

/-- The PCIe link is up, so that the host reaches the BARs. (DESIGN CHOICE: log entry 39.) -/
def Dev.pcieUp (d : Dev) : Bool := d.obj 0x9000 0x01 == 2

/-- What the configuration space of the endpoint holds (R331). -/
structure EndpointConfig where
  vendor : Nat
  device : Nat
  classCode : Nat
  /-- Bytes of each base address register, none where there is none; both are 64-bit and non-prefetchable. -/
  bars : List (Option Nat)
  expansionRom : Bool
  /-- Capabilities: PCI Express, power management with D0 and D3hot, AER, MSI-X; neither INTx nor MSI, SR-IOV or ATS. -/
  pciExpress : Bool
  d3hot : Bool
  aer : Bool
  msixVectors : Nat
  msi : Bool
  intx : Bool
  sriov : Bool
  ats : Bool
  functionLevelReset : Bool
  maxPayload : Nat
  deriving DecidableEq, Repr

/-- The configuration space (R331): BAR0 takes the places of registers 0 and 1, BAR2 those of 2 and 3. -/
def endpointConfig : EndpointConfig :=
  { vendor := Config.vendorId, device := 0x7240, classCode := 0x0280, bars := [some 65536, none, some 262144, none, none, none], expansionRom := false,
    pciExpress := true, d3hot := true, aer := true, msixVectors := 64, msi := false, intx := false, sriov := false, ats := false,
    functionLevelReset := true, maxPayload := 256 }

/-- What the host reads in 8 bytes of a BAR (Tables 13.1, 13.5); a reserved offset and a WO register read as 0 (R332). The windows ALM_REPLY and POP are read by ALM_ACK's host and by FIFO_POP_READ. -/
def Dev.barRead (d : Dev) (bar offset : Nat) : Nat :=
  if bar = 0 then
    let status := match d.alm.reply with | some r => 2 + r.length * 65536 | none => 0
    let entry := tget (fun _ => (0, 0)) d.ev.targets ((offset - 0x2000) / 16)
    match offset with
    | 0x0000 => d.obj 0x1000 0x00 + d.obj 0x1000 0x03 % 65536 * 2 ^ 32
    | 0x0008 => d.stackId % 4 + d.obj 0x9400 0x04 % 4 * 4 + ((List.range 4).filter (bit (d.obj 0x9400 0x03))).length * 16
    | 0x0108 => b2n (d.alm.busyAt == some d.now) + status
    | 0x0200 => d.ev.cause.toNat
    | 0x0208 => d.ev.hsMask.toNat
    | 0x2800 => d.ev.pba.toNat
    | _ =>
      if 0x1800 ≤ offset ∧ offset < 0x2000 then beNat ((slice (d.alm.reply.getD []) (offset - 0x1800) 8 ++ List.replicate 8 0).take 8)
      else if 0x2000 ≤ offset ∧ offset < 0x2400 then
        (if offset % 16 = 0 then entry.1 else entry.2 + b2n (d.ev.msixMask.getLsbD ((offset - 0x2000) / 16)) * 2 ^ 32)
      else if 0x3000 ≤ offset ∧ offset < 0x3200 ∧ offset % 8 = 0 then (d.fifo ((offset - 0x3000) / 8)).count + d.fifoFree ((offset - 0x3000) / 8) * 65536
      else 0
  else
    let f := offset / 4096
    let x := d.fifo f
    if bar = 2 ∧ offset % 4096 = 0x18 then
      x.count + d.fifoFree f * 2 ^ 16 + b2n x.poisoned * 2 ^ 32 + b2n x.opened.isSome * 2 ^ 33 + b2n (d.flag 0x9010 0x13 0 f) * 2 ^ 34 + b2n x.part.isSome * 2 ^ 35
    else 0

/-! Requests (R50, R51, R52, R333, R334). -/

/-- ALM_DOORBELL (R48, R333): the host has written `len`; `req` is what ALM_REQ holds from its first byte on. (DESIGN CHOICE: log entries 37, 150.) -/
def execAlmDoorbell (t len : Nat) (req : Bytes) (s : State) : Host.Outcome State Fault Refusal :=
  s.cmd t (len < 2048 && decide (min len 1044 ≤ req.length) && decide (req.length ≤ 2048)) fun d =>
    if ¬ d.pcieUp then d
    else if d.alm.busyAt = some d.now then d.inD0.inc 0x9000 0x0C
    else
      let d := d.inD0.almUpd fun x => { x with busyAt := some d.now }
      if len < 20 ∨ 1044 < len then
        if ¬ d.pairRuns 0 then d else (d.inc 0x1041 0x06).reply { svc := .pcie, src := .host d.stackId, arrived := d.now, bytes := req.take len } 0x101
      else d.arrive .pcie (.host d.stackId) (req.take len)

/-- ALM_ACK (R334): the next record takes its place in ALM_REPLY. -/
def execAlmAck (t : Nat) (s : State) : Host.Outcome State Fault Refusal :=
  s.cmd t true fun d =>
    if ¬ d.pcieUp then d
    else match d.alm.replyQueue with
      | (r, n) :: l => (d.inD0.almUpd fun x => { x with reply := none, replyQueue := l }).replyPcie r n
      | [] => d.inD0.almUpd fun x => { x with reply := none }

/-- HS_REQUEST (R50): command 0x5A and the record. (DEDUCED: log entry 151.) -/
def execHsRequest (t : Nat) (req : Bytes) (s : State) : Host.Outcome State Fault Refusal :=
  s.cmd t true fun d => if d.flag 0x1040 0x06 then d.arrive .hs (.host d.stackId) req else d

/-- HS_REPLY_FETCH (R50): command 0xA5. -/
def execHsReplyFetch (t : Nat) (s : State) : Host.Outcome State Fault Refusal :=
  s.cmd t true fun d =>
    match d.alm.hsReplies with
    | r :: l => (d.almUpd fun x => { x with hsReplies := l }).out (.hs (0x01 :: r))
    | [] => d.out (.hs [0x00])

/-- HS_EVENT_CAUSE_READ (Table 13.2): command 0x3C. (DEDUCED: log entry 151.) -/
def execHsEventCauseRead (t : Nat) (s : State) : Host.Outcome State Fault Refusal :=
  s.cmd t true fun d => d.out (.hs (beBytes 8 d.ev.cause.toNat))

/-- Bits of the vectors whose sources have arrived in this cycle and are set at its end. -/
def Dev.arrivingBits (d : Dev) : BitVec 64 :=
  (d.ev.arrivals ++ d.ev.bus.filterMap (·.vector)).foldl (fun m v => m ||| BitVec.ofNat 64 (2 ^ v)) 0

/-- Clear causes (R335, R336, R396). What arrives in the same cycle is set after it, so it wins, and WAKE_OUT stays for it. -/
def Dev.clearCause (d : Dev) (mask : BitVec 64) : Dev :=
  (d.evUpd fun x => { x with cause := d.ev.cause &&& ~~~ mask }).wakeOutCleared (mask &&& ~~~ d.arrivingBits)

/-- HS_EVENT_CAUSE_CLEAR (Table 13.2): command 0xC3. -/
def execHsEventCauseClear (t : Nat) (mask : BitVec 64) (s : State) : Host.Outcome State Fault Refusal :=
  s.cmd t true fun d => d.clearCause mask

/-- HS_MASK_WRITE (Table 13.2): command 0x69. -/
def execHsMaskWrite (t : Nat) (mask : BitVec 64) (s : State) : Host.Outcome State Fault Refusal :=
  s.cmd t true fun d => d.evUpd fun x => { x with hsMask := mask }

/-- HS_MASK_READ (Table 13.2): command 0x96. -/
def execHsMaskRead (t : Nat) (s : State) : Host.Outcome State Fault Refusal :=
  s.cmd t true fun d => d.out (.hs (beBytes 8 d.ev.hsMask.toNat))

/-- HS_UNKNOWN_COMMAND (R335): answered with 0xFF for the rest of the assertion, and counted. -/
def execHsUnknownCommand (t : Nat) (cmd : HsUnknown) (s : State) : Host.Outcome State Fault Refusal :=
  s.cmd t (!(List.contains [0x5A, 0xA5, 0x3C, 0xC3, 0x69, 0x96] cmd.cmd.toNat)) fun d => (d.inc 0x9002 0x02).out (.hs (List.replicate cmd.rest 0xFF))

/-- UDP_REQUEST (R48, R51): a datagram to the configured port and VLAN. (DEDUCED: log entry 152.) -/
def execUdpRequest (t : Nat) (src : UdpEnd) (req : Bytes) (s : State) : Host.Outcome State Fault Refusal :=
  s.cmd t true fun d =>
    if d.flag 0x1040 0x01 ∧ src.dport = d.obj 0x1040 0x02 ∧ src.vid = d.obj 0x1040 0x03 then d.arrive .udp (.udp src.addr src.port) req else d

/-- CAN_SERVICE_REQUEST (R51): a frame with the request identifier on the channel of the CAN service. (DEDUCED: log entry 152.) -/
def execCanServiceRequest (t ch ident : Nat) (req : Bytes) (s : State) : Host.Outcome State Fault Refusal :=
  s.cmd t (ch < 24) fun d =>
    let st := d.obj 0x6010 0x04 (uC ch)
    if d.obj 0x1040 0x04 = ch ∧ d.obj 0x1040 0x05 = ident ∧ st ≠ 0 ∧ st ≠ 5 then d.arrive .can (.can ch ident) req else d

/-- STACK_FORWARDED_REQUEST (R52): another member forwards a request; after a change of lead it may be one that this member forwarded (R356). -/
def execStackForwardedRequest (t : Nat) (origin : Forwarded) (svc : Service) (src : Source) (req : Bytes) (s : State) : Host.Outcome State Fault Refusal :=
  s.cmd t (origin.member < 4) fun d => d.arrive svc src req (some origin)

/-! Events (R28, R335, R336). -/

/-- EVENT_BUS_EVENT (R28, R336, R471). -/
def execEventBusEvent (t : Nat) (ev : ExtEvent) (s : State) : Host.Outcome State Fault Refusal :=
  s.cmd t (ev.source < 256 && ev.code < 65536 && ev.path.length == 4 && ev.data.length ≤ 12 && (match ev.vector with | some v => v < 22 | none => true)) fun d =>
    d.onBus { lt := d.lt, source := ev.source, vector := ev.vector, code := .code ev.code, path := ev.path, data := ev.data }

/-- EVENT_CAUSE_CLEAR (R336): bits that arrive in the same cycle win. -/
def execEventCauseClear (t : Nat) (mask arriving : BitVec 64) (s : State) : Host.Outcome State Fault Refusal :=
  s.cmd t (decide (arriving.toNat < 2 ^ 22)) fun d =>
    if ¬ d.pcieUp then d
    else
      ((List.range 22).foldl (fun d v => if arriving.getLsbD v then d.signal v else d) d.inD0).clearCause mask

/-- HS_MASK_BAR_WRITE (Table 13.1). -/
def execHsMaskBarWrite (t : Nat) (mask : BitVec 64) (s : State) : Host.Outcome State Fault Refusal :=
  s.cmd t true fun d => if d.pcieUp then (d.inD0.evUpd fun x => { x with hsMask := mask }) else d

/-- MSIX_UNMASK (R332, R336): the host writes an entry of the MSI-X table; once it is unmasked, a pending message follows. (DESIGN CHOICE: log entry 224.) -/
def execMsixUnmask (t : Nat) (entry : MsixEntry) (s : State) : Host.Outcome State Fault Refusal :=
  s.cmd t (entry.vector < 64) fun d =>
    if ¬ d.pcieUp then d
    else
      let one := BitVec.ofNat 64 (2 ^ entry.vector)
      let pending := d.ev.pba.getLsbD entry.vector
      let d := d.inD0.evUpd fun x => { x with targets := tput (fun _ => (0, 0)) x.targets entry.vector (entry.address, entry.data) }
      if entry.masked then d.evUpd fun x => { x with msixMask := x.msixMask ||| one }
      else
        let d := d.evUpd fun x => { x with msixMask := x.msixMask &&& ~~~ one, pba := x.pba &&& ~~~ one }
        if pending then d.msix entry.vector else d

/-- The offset names a register that a write reaches (Tables 13.1, 13.5). -/
def barWritable (bar offset : Nat) : Bool :=
  if bar = 0 then [0x0100, 0x0110, 0x0200, 0x0208].contains offset || (0x1000 ≤ offset && offset < 0x1800) || (0x2000 ≤ offset && offset < 0x2400)
  else let o := offset % 4096; o == 0 || o == 8 || o == 0x10 || (0x400 ≤ o && o < 0x800)

/-- BAR_IGNORED_WRITE (R332): a write to a reserved offset or to an RO register. -/
def execBarIgnoredWrite (t bar offset : Nat) (s : State) : Host.Outcome State Fault Refusal :=
  s.cmd t (((bar == 0 && offset < 65536) || (bar == 2 && offset < 262144)) && !barWritable bar offset) fun d => if d.pcieUp then d.inD0.inc 0x9000 0x09 else d

/-! The link (R331, R345). -/

/-- PCIE_LINK_UP (R331): record 22 follows (R135). With neither speed nor width the link is still training. (DEDUCED: log entry 41; DESIGN CHOICE: log entry 223.) -/
def execPcieLinkUp (t speed width : Nat) (s : State) : Host.Outcome State Fault Refusal :=
  s.cmd t ((1 ≤ speed && speed ≤ 4 && (width == 1 || width == 2)) || (speed == 0 && width == 0)) fun d =>
    if d.pcieUp then d
    else if speed = 0 then d.set 0x9000 0x01 1
    else
      let d := d.inD0
      let d := ((((d.set 0x9000 0x01 2).set 0x9000 0x02 (min speed (d.obj 0x9000 0x41))).set 0x9000 0x03 width).inc 0x9000 0x04)
      let d := if d.portsBarred then d else d.portLinkUp 22
      if d.obj 0xB000 0x01 = 4 then d.signal 2 else if d.flash.recovery then d.signal 21 else d

/-- PCIE_LINK_DOWN (R345): every FIFO is flushed at once. -/
def execPcieLinkDown (t : Nat) (s : State) : Host.Outcome State Fault Refusal :=
  s.cmd t true fun d =>
    if ¬ d.pcieUp then d.set 0x9000 0x01 0
    else ((((d.inD0.set 0x9000 0x01 0).set 0x9000 0x02 0).set 0x9000 0x03 0).inc 0x9000 0x05).flushAllFifos.portLinkDown 22

/-- The endpoint function resets: every FIFO is flushed and the MSI-X table returns to its reset value (R345, R488). (PRESUMED: log entry 38; DEDUCED: log entry 40.) -/
def Dev.functionReset (d : Dev) : Dev :=
  let d := d.flushAllFifos
  d.evUpd fun x => { x with msixMask := BitVec.allOnes 64, pba := 0, targets := [] }

/-- FUNCTION_LEVEL_RESET (R331, R345). -/
def execFunctionLevelReset (t : Nat) (s : State) : Host.Outcome State Fault Refusal :=
  s.cmd t true fun d =>
    if d.pcieUp then (d.inD0.inc 0x9000 0x06).functionReset else d

/-- D3HOT_ENTRY (R345, R488). (DEDUCED: log entry 40.) -/
def execD3hotEntry (t : Nat) (s : State) : Host.Outcome State Fault Refusal :=
  s.cmd t true fun d => if d.pcieUp then d.functionReset.evUpd fun x => { x with d3hot := true } else d

/-! Frames (R346 to R349). -/

/-- One bit of the reflected Ethernet CRC-32. -/
def fcsStep (c : Nat) : Nat := if bit c 0 then (c / 2) ^^^ 0xEDB88320 else c / 2

/-- The FCS of a frame's bytes, in line order. -/
def fcsOf (b : Bytes) : Bytes :=
  let c := b.foldl (fun c x => (List.range 8).foldl (fun c _ => fcsStep c) (c ^^^ x.toNat)) 0xFFFFFFFF ^^^ 0xFFFFFFFF
  (beBytes 4 c).reverse

/-- Inverted bytes. -/
def invertBytes (b : Bytes) : Bytes := b.map (fun x => ~~~ x)

/-- Data items of a packet (R338). -/
def dataItems : Nat → Bytes → List (BitVec 64)
  | 0, _ => []
  | n + 1, b => if b = [] then [] else BitVec.ofNat 64 (beNat ((b ++ List.replicate 8 0).take 8)) :: dataItems n (b.drop 8)

/-- Bytes of data items. -/
def itemBytes (l : List (BitVec 64)) : Bytes := (l.map (fun x => beBytes 8 x.toNat)).flatten

/-- Header item of a to-host packet (Table 13.4). (DEDUCED: log entry 45.) -/
def headerItem (member port seq prio len : Nat) (trunc beyond : Bool) : BitVec 64 :=
  BitVec.ofNat 64 (0xA * 2 ^ 60 + member % 4 * 2 ^ 53 + port % 32 * 2 ^ 48 + seq % 65536 * 2 ^ 32 + b2n trunc * 2 ^ 26 + b2n beyond * 2 ^ 24 + prio % 8 * 2 ^ 16 + len % 65536)

/-- FIFO_PACKET_TO_HOST (R338, R345, R346, R349): the oldest frame at FP8 whose FIFO holds the whole packet; the write sides stand still while the PCIe link is down. -/
def execFifoPacketToHost (t : Nat) (s : State) : Host.Outcome State Fault Refusal :=
  s.cmd t true fun d =>
    match d.fab.toHost with
    | [] => d
    | f :: l =>
      let n := d.hostFifoOf f
      let box := f.hostFifo.isSome
      let fcs := if f.oversize ∨ f.badFcs then invertBytes (fcsOf f.data) else fcsOf f.data
      let bytes := if box then f.data else f.data ++ fcs
      let items := dataItems bytes.length bytes
      if ¬ d.dataOn ∨ ¬ d.pcieUp ∨ ¬ d.fifoOn n ∨ ¬ d.fifoToHost n ∨ d.fifoFree n < 1 + items.length then d
      else
        let x := d.fifo n
        let head := headerItem f.smem f.sport x.seq f.cls bytes.length (f.oversize && f.smem != d.stackId) f.oversize
        let p : Packet := { prio := f.cls, items := head :: items }
        ((((d.fabUpd fun y => { y with toHost := l }).setFifo n { x with visible := x.visible ++ [p], seq := (x.seq + 1) % 65536 }).inc64 0x9010 0x0B 0 n).fifoSettle d n)

/-- FIFO_COALESCING_EXPIRY (R344): a packet of its tick that crosses the level, or a read that takes the last item, wins. -/
def execFifoCoalescingExpiry (t f : Nat) (s : State) : Host.Outcome State Fault Refusal :=
  s.timer t (f < 64) (fun d c => match c with
    | .fifoPacketToHost _ => d.fab.toHost.any (fun fr => d.hostFifoOf fr == f && decide (d.obj 0x9010 0x05 0 f ≤ (d.fifo f).count + 1 + cdiv (fr.data.length + 4 * b2n fr.hostFifo.isNone) 8))
    | .fifoPopRead _ g r _ => g == f && popServed r && decide ((d.fifo f).count ≤ r.bytes / 8)
    | _ => false) fun d =>
    match (d.fifo f).timer with
    | some t0 =>
      let ct := d.obj 0x9010 0x06 0 f
      if ct ≠ 0 ∧ t0 + ct * perUs ≤ d.now ∧ 0 < (d.fifo f).count ∧ (d.fifo f).count < d.obj 0x9010 0x05 0 f then
        (d.setFifo f { d.fifo f with timer := none }).fifoCause f
      else d
    | none => d

/-- From-host FIFOs in the order of their turn (R347). -/
def Dev.fromHostOrder (d : Dev) : List Nat := ((List.range 64).map (fun k => (d.fifoTurn + 1 + k) % 64)).filter (fun f => d.fifoOn f && !d.fifoToHost f && !(d.fifo f).visible.isEmpty)

/-- The from-host packet that is read next: highest PRIO, ties in turn (R347). -/
def Dev.nextFromHost (d : Dev) : Option (Nat × Packet × List Packet) :=
  d.fromHostOrder.foldl (fun best f =>
    match nextPacket (d.fifo f).visible with
    | none => best
    | some (p, rest) => match best with
      | some (_, q, _) => if q.prio < p.prio then some (f, p, rest) else best
      | none => some (f, p, rest)) none

/-- A host container's record goes from FP8 to FP10 (R299, R348). -/
def Dev.offerRose (d : Dev) (f prio : Nat) (b : Bytes) : Dev :=
  d.offer {
    id := 0, port := 22, data := b, len := b.length, cls := prio, vid := 0, pcp := prio, dei := false, tagged := false, oversize := false,
    multi := false, ptpEvent := false, stamp := d.lt, rule := none, smem := d.stackId, sport := 22, whole := true,
    hostFifo := some f, copies := [{ port := 23 }] }

/-- An Ethernet packet of the host (R347): length, padding and FCS. (PRESUMED: log entry 44; DEDUCED: log entry 45.) -/
def Dev.offerFromHost (d : Dev) (b : Bytes) (beyond : Bool) : Dev :=
  if d.obj 0x9020 0x02 < b.length then d.inc 0x9021 0x03
  else
    let data := b.take (b.length - 4)
    let d := if b.length < 64 then d.inc 0x9021 0x04 else d
    let full := data ++ List.replicate (60 - data.length) 0
    let badFcs : Bool := !d.flag 0x9021 0x01 && b.drop (b.length - 4) != fcsOf full
    d.offer (d.rawFrame 22 full beyond badFcs)

/-- FIFO_PACKET_FROM_HOST (R117, R341, R347, R349): FP8 takes the next packet once it has brought the cells of the one before; `bad` of the packet's items fail their parity. (DESIGN CHOICE: log entry 43.) -/
def execFifoPacketFromHost (t bad : Nat) (s : State) : Host.Outcome State Fault Refusal :=
  s.cmd t true fun d =>
    match (if d.dataOn ∧ d.hostFree then d.nextFromHost else none) with
    | none => d
    | some (f, p, rest) =>
      let old := d
      let d := (((d.setFifo f { d.fifo f with visible := rest }).inc64 0x9010 0x0C 0 f).fifoSettle old f)
      let d := { d with fifoTurn := f }
      let h := p.items.getD 0 0
      let b := (itemBytes (p.items.drop 1)).take (headerLength h)
      if bad ≠ 0 then d.inc 0x9010 0x10 0 f (min bad p.items.length)
      else if d.obj 0x9010 0x03 0 f = 2 then d.offerRose f p.prio b
      else d.offerFromHost b (h.getLsbD 24)

end Sys2Proof.Machine
end

