-- ==== Sys2Proof/Machine/Requests.lean ====
section
/-! DEFINITION. The commands by which the Almanac server takes a request: one for each kind of request of the table. A command for another kind than the next request's leaves the device as it is. -/
namespace Sys2Proof.Machine

/-- Kinds of WRITE: one for each row of the table that names the object it writes, and every other write. -/
inductive WriteKind where
  | plain
  | domainEnable
  | snapshot
  | legEnable
  | swapRequest
  | phaseEnable
  | portEnable
  | peakReset
  | thresholdReset
  | cableTestStart
  | chartFlushByPort
  | chartFlushByFid
  | unlockAll
  | staticEntryEnable
  | seedWrite
  | ruleEnable
  | learningEnable
  | portNodeEnable
  | policerMode
  | histogramClear
  | canEnable
  | canStop
  | canBufferCancel
  | timeMasterEnable
  | linStop
  | linTableRequest
  | transceiverScriptRequest
  | definitionEnable
  | signalEnable
  | routeEnable
  | containerEnable
  | memberAdmit
  | bridgeLogClear
  | hostNeed
  | managementSwitch
  | clearIgnoreList
  | stateCommandWatch
  | stateCommandStandby
  | stateCommandPartial
  | stateCommandRun
  | importBlobSet
  | importBlobErase
  | importBlobSetInClear
  | discardStaging
  | keyStoreCommit
  | attestationChallenge
  | identitySignRequest
  | slotDerive
  | macsecSaEnable
  | activeAnWrite
  | macsecEnable
  | transferStartFirmware
  | transferStartAlmanac
  | blockQuarterWrite
  | blockCheckValue
  | transferActivate
  | transferAbandon
  | confirmWrite
  | clearCorrectionTable
  | softwareScrubStart
  | testWindowOpen
  | rawWrite
  | rawRead
  | decodeRead
  | replayStart
  deriving DecidableEq, Repr

/-- Kind of a WRITE record, by its object and, where the table tells them apart, by its data. -/
def writeKind (b : Bytes) : WriteKind :=
  let v := beNat (recData b)
  match recIndex b, recSub b with
  | 0x2000, 0x0C => .peakReset
  | 0x3001, _ => .seedWrite
  | 0x3004, 0x01 => .learningEnable
  | 0x3005, 0x07 => .unlockAll
  | 0x3040, 0x01 => .ruleEnable
  | 0x3050, 0x01 => .staticEntryEnable
  | 0x3070, 0x01 => .chartFlushByPort
  | 0x3070, 0x02 => .chartFlushByFid
  | 0x4020, 0x01 => .portEnable
  | 0x4030, 0x42 => .thresholdReset
  | 0x4060, 0x11 => .cableTestStart
  | 0x5010, 0x01 => .portNodeEnable
  | 0x5040, 0x01 => .policerMode
  | 0x5070, 0x03 => .histogramClear
  | 0x6010, 0x01 => if v = 1 then .canEnable else if v = 0 then .canStop else .plain
  | 0x6020, 0x0A => .canBufferCancel
  | 0x6810, 0x01 => if v = 0 then .linStop else .plain
  | 0x6810, 0x07 => .linTableRequest
  | 0x6880, 0x07 => .transceiverScriptRequest
  | 0x7100, 0x01 => .definitionEnable
  | 0x7200, 0x01 => .signalEnable
  | 0x7201, 0x01 => .signalEnable
  | 0x7300, 0x01 => .routeEnable
  | 0x7400, 0x01 => .containerEnable
  | 0x8000, 0x05 => .snapshot
  | 0x8020, 0x01 => .domainEnable
  | 0x8060, 0x01 => .timeMasterEnable
  | 0x8410, 0x01 => .phaseEnable
  | 0x8420, 0x01 => .legEnable
  | 0x8420, 0x0B => .swapRequest
  | 0x9410, 0x08 => .memberAdmit
  | 0x9440, 0x09 => .bridgeLogClear
  | 0xA000, 0x01 => if v = 1 then .stateCommandWatch else if v = 2 then .stateCommandStandby else if v = 3 then .stateCommandPartial else if v = 4 then .stateCommandRun else .plain
  | 0xA020, 0x01 => .managementSwitch
  | 0xA020, 0x09 => .hostNeed
  | 0xA020, 0x1C => .clearIgnoreList
  | 0xB020, 0x01 => if byteAt b 21 = 1 then .importBlobSet else if byteAt b 21 = 2 then .importBlobErase else if byteAt b 21 = 3 then .importBlobSetInClear else .plain
  | 0xB020, 0x03 => .keyStoreCommit
  | 0xB020, 0x04 => .discardStaging
  | 0xB030, 0x01 => .attestationChallenge
  | 0xB040, 0x10 => .slotDerive
  | 0xB050, 0x02 => .identitySignRequest
  | 0xB100, 0x01 => .macsecEnable
  | 0xB100, 0x04 => .activeAnWrite
  | 0xB110, 0x01 => .macsecSaEnable
  | 0xB810, 0x01 => if byteAt b 20 = 1 then .transferStartFirmware else if byteAt b 20 = 2 then .transferStartAlmanac else .plain
  | 0xB810, 0x0B => .transferActivate
  | 0xB810, 0x0E => .transferAbandon
  | 0xB820, 0x01 => .blockQuarterWrite
  | 0xB820, 0x02 => .blockQuarterWrite
  | 0xB820, 0x03 => .blockQuarterWrite
  | 0xB820, 0x04 => .blockQuarterWrite
  | 0xB820, 0x05 => .blockCheckValue
  | 0xB840, 0x06 => .confirmWrite
  | 0xC020, 0x04 => .softwareScrubStart
  | 0xC030, 0x41 => .testWindowOpen
  | 0xC030, 0x47 => .rawWrite
  | 0xC030, 0x48 => .rawRead
  | 0xC030, 0x49 => .decodeRead
  | 0xC051, 0x02 => .clearCorrectionTable
  | 0xD021, 0x04 => .replayStart
  | _, _ => .plain

/-- The frame of the commands that serve a WRITE of one kind. (DESIGN CHOICE: log entry 19.) -/
def State.write (s : State) (t : Nat) (k : WriteKind) : Host.Outcome State Fault Refusal :=
  s.cmd t true fun d => d.serve (fun b => recOp b == 2 && writeKind b == k) Dev.serveWrite

/-- READ (R46): also the answer to a record that checks 1 and 2 refuse. (DEDUCED: log entry 20; DESIGN CHOICE: log entry 147.) -/
def execRead (t : Nat) (members : List MemberRead) (lost : Bool) (s : State) : Host.Outcome State Fault Refusal :=
  s.cmd t (members.all (fun e => e.path.length == 4 && decide (e.status < 65536) && decide (e.value.length ≤ 1024))) fun d =>
    d.serve (fun b => decide (recOp b < 2) || decide (6 < recOp b)) (fun d q => d.serveRead members lost q)

/-- WRITE (R47) to an object with no row of its own; `lost` says that a load of the server meets an uncorrectable error (Table 18.2). (DESIGN CHOICE: log entry 147.) -/
def execWrite (t : Nat) (lost : Bool) (s : State) : Host.Outcome State Fault Refusal :=
  s.cmd t true fun d => d.serve (fun b => recOp b == 2 && writeKind b == .plain) (fun d q => if lost then d.finish 0x504 else d.serveWrite q)

/-- CLAIM (R57). -/
def execClaim (t : Nat) (s : State) : Host.Outcome State Fault Refusal := s.cmd t true fun d => d.serve (fun b => recOp b == 3) Dev.serveClaim

/-- RENEW (R60). -/
def execRenew (t : Nat) (s : State) : Host.Outcome State Fault Refusal := s.cmd t true fun d => d.serve (fun b => recOp b == 4) Dev.serveRenew

/-- RELEASE (R63). -/
def execRelease (t : Nat) (s : State) : Host.Outcome State Fault Refusal := s.cmd t true fun d => d.serve (fun b => recOp b == 5) Dev.serveRelease

/-- HANDOVER (R63). -/
def execHandover (t : Nat) (s : State) : Host.Outcome State Fault Refusal := s.cmd t true fun d => d.serve (fun b => recOp b == 6) Dev.serveHandover

/-- DOMAIN_ENABLE (R76): a write of `A:8020.01`. -/
def execDomainEnable (t : Nat) (s : State) : Host.Outcome State Fault Refusal := s.write t .domainEnable

/-- SNAPSHOT (R68): a write of `A:8000.05`. -/
def execSnapshot (t : Nat) (s : State) : Host.Outcome State Fault Refusal := s.write t .snapshot

/-- LEG_ENABLE (R106): a write of `A:8420.01`. -/
def execLegEnable (t : Nat) (s : State) : Host.Outcome State Fault Refusal := s.write t .legEnable

/-- SWAP_REQUEST (R107): a write of `A:8420.0B`. -/
def execSwapRequest (t : Nat) (s : State) : Host.Outcome State Fault Refusal := s.write t .swapRequest

/-- PHASE_ENABLE (R99): a write of `A:8410.01`. -/
def execPhaseEnable (t : Nat) (s : State) : Host.Outcome State Fault Refusal := s.write t .phaseEnable

/-- PORT_ENABLE (R176): a write of `A:4020.01`. -/
def execPortEnable (t : Nat) (s : State) : Host.Outcome State Fault Refusal := s.write t .portEnable

/-- PEAK_RESET (R142): a write of `A:2000.0C`. -/
def execPeakReset (t : Nat) (s : State) : Host.Outcome State Fault Refusal := s.write t .peakReset

/-- THRESHOLD_RESET (R186): a write of `A:4030.42`. -/
def execThresholdReset (t : Nat) (s : State) : Host.Outcome State Fault Refusal := s.write t .thresholdReset

/-- CABLE_TEST_START (R197): a write of `A:4060.11`. -/
def execCableTestStart (t : Nat) (s : State) : Host.Outcome State Fault Refusal := s.write t .cableTestStart

/-- CHART_FLUSH_BY_PORT (R161): a write of `A:3070.01`. -/
def execChartFlushByPort (t : Nat) (s : State) : Host.Outcome State Fault Refusal := s.write t .chartFlushByPort

/-- CHART_FLUSH_BY_FID (R161): a write of `A:3070.02`. -/
def execChartFlushByFid (t : Nat) (s : State) : Host.Outcome State Fault Refusal := s.write t .chartFlushByFid

/-- UNLOCK_ALL (R159): a write of `A:3005.07`. -/
def execUnlockAll (t : Nat) (s : State) : Host.Outcome State Fault Refusal := s.write t .unlockAll

/-- STATIC_ENTRY_ENABLE (R155): a write of `A:3050.01`. -/
def execStaticEntryEnable (t : Nat) (s : State) : Host.Outcome State Fault Refusal := s.write t .staticEntryEnable

/-- SEED_WRITE (R171): a write of `A:3001`. -/
def execSeedWrite (t : Nat) (s : State) : Host.Outcome State Fault Refusal := s.write t .seedWrite

/-- RULE_ENABLE (R167): a write of `A:3040.01`. -/
def execRuleEnable (t : Nat) (s : State) : Host.Outcome State Fault Refusal := s.write t .ruleEnable

/-- LEARNING_ENABLE (R156): a write of `A:3004.01`. -/
def execLearningEnable (t : Nat) (s : State) : Host.Outcome State Fault Refusal := s.write t .learningEnable

/-- PORT_NODE_ENABLE (R201): a write of `A:5010.01`. -/
def execPortNodeEnable (t : Nat) (s : State) : Host.Outcome State Fault Refusal := s.write t .portNodeEnable

/-- POLICER_MODE (R218): a write of `A:5040.01`. -/
def execPolicerMode (t : Nat) (s : State) : Host.Outcome State Fault Refusal := s.write t .policerMode

/-- HISTOGRAM_CLEAR (R221): a write of `A:5070.03`. -/
def execHistogramClear (t : Nat) (s : State) : Host.Outcome State Fault Refusal := s.write t .histogramClear

/-- CAN_ENABLE (R226): a write of `A:6010.01`. -/
def execCanEnable (t : Nat) (s : State) : Host.Outcome State Fault Refusal := s.write t .canEnable

/-- CAN_STOP (R233): a write of `A:6010.01`. -/
def execCanStop (t : Nat) (s : State) : Host.Outcome State Fault Refusal := s.write t .canStop

/-- The channels whose start of frame waits in the kernel period of now (R238). -/
def State.startsNow (s : State) (d : Dev) : Dev :=
  (s.pending.takeWhile (fun c => decide (kernelIndex (Instr.time c) ≤ kernelIndex d.now))).foldl (fun d c => match c with
    | .canFrameStart _ ch false _ => d.setChan (uC ch) { d.chan (uC ch) with startsIn := some (kernelIndex d.now) }
    | _ => d) d

/-- CAN_BUFFER_CANCEL (R238): a write of `A:6020.0A`; a start of frame in its kernel period goes ahead, and the cancel is held. -/
def execCanBufferCancel (t : Nat) (s : State) : Host.Outcome State Fault Refusal :=
  s.cmd t true fun d => (s.startsNow d).serve (fun b => recOp b == 2 && writeKind b == .canBufferCancel) Dev.serveWrite

/-- TIME_MASTER_ENABLE (R235): a write of `A:8060.01`. -/
def execTimeMasterEnable (t : Nat) (s : State) : Host.Outcome State Fault Refusal := s.write t .timeMasterEnable

/-- LIN_STOP (R254): a write of `A:6810.01`. -/
def execLinStop (t : Nat) (s : State) : Host.Outcome State Fault Refusal := s.write t .linStop

/-- LIN_TABLE_REQUEST (R256): a write of `A:6810.07`. -/
def execLinTableRequest (t : Nat) (s : State) : Host.Outcome State Fault Refusal := s.write t .linTableRequest

/-- TRANSCEIVER_SCRIPT_REQUEST (R262): a write of `A:6880.07`. -/
def execTransceiverScriptRequest (t : Nat) (s : State) : Host.Outcome State Fault Refusal := s.write t .transceiverScriptRequest

/-- DEFINITION_ENABLE (R288): a write of `A:7100.01`. -/
def execDefinitionEnable (t : Nat) (s : State) : Host.Outcome State Fault Refusal := s.write t .definitionEnable

/-- SIGNAL_ENABLE (R288): a write of `A:7200.01` or `A:7201.01`. -/
def execSignalEnable (t : Nat) (s : State) : Host.Outcome State Fault Refusal := s.write t .signalEnable

/-- ROUTE_ENABLE (R288): a write of `A:7300.01`. -/
def execRouteEnable (t : Nat) (s : State) : Host.Outcome State Fault Refusal := s.write t .routeEnable

/-- CONTAINER_ENABLE (R293): a write of `A:7400.01`. -/
def execContainerEnable (t : Nat) (s : State) : Host.Outcome State Fault Refusal := s.write t .containerEnable

/-- MEMBER_ADMIT (R373): a write of `A:9410.08`. -/
def execMemberAdmit (t : Nat) (s : State) : Host.Outcome State Fault Refusal := s.write t .memberAdmit

/-- BRIDGE_LOG_CLEAR (R374): a write of `A:9440.09`. -/
def execBridgeLogClear (t : Nat) (s : State) : Host.Outcome State Fault Refusal := s.write t .bridgeLogClear

/-- HOST_NEED (R376): a write of `A:A020.09`. -/
def execHostNeed (t : Nat) (s : State) : Host.Outcome State Fault Refusal := s.write t .hostNeed

/-- MANAGEMENT_SWITCH (R375): a write of `A:A020.01`. -/
def execManagementSwitch (t : Nat) (s : State) : Host.Outcome State Fault Refusal := s.write t .managementSwitch

/-- CLEAR_IGNORE_LIST (R389): a write of `A:A020.1C`. -/
def execClearIgnoreList (t : Nat) (s : State) : Host.Outcome State Fault Refusal := s.write t .clearIgnoreList

/-- STATE_COMMAND_WATCH (R393): a write of `A:A000.01`. -/
def execStateCommandWatch (t : Nat) (s : State) : Host.Outcome State Fault Refusal := s.write t .stateCommandWatch

/-- STATE_COMMAND_STANDBY (R391): a write of `A:A000.01`. -/
def execStateCommandStandby (t : Nat) (s : State) : Host.Outcome State Fault Refusal := s.write t .stateCommandStandby

/-- STATE_COMMAND_PARTIAL (R391): a write of `A:A000.01`. -/
def execStateCommandPartial (t : Nat) (s : State) : Host.Outcome State Fault Refusal := s.write t .stateCommandPartial

/-- STATE_COMMAND_RUN (R391): a write of `A:A000.01`. -/
def execStateCommandRun (t : Nat) (s : State) : Host.Outcome State Fault Refusal := s.write t .stateCommandRun

/-- IMPORT_BLOB_SET (R415): a write of `A:B020.01`. -/
def execImportBlobSet (t : Nat) (s : State) : Host.Outcome State Fault Refusal := s.write t .importBlobSet

/-- IMPORT_BLOB_ERASE (R415): a write of `A:B020.01`. -/
def execImportBlobErase (t : Nat) (s : State) : Host.Outcome State Fault Refusal := s.write t .importBlobErase

/-- IMPORT_BLOB_SET_IN_CLEAR (R419): a write of `A:B020.01`. -/
def execImportBlobSetInClear (t : Nat) (s : State) : Host.Outcome State Fault Refusal := s.write t .importBlobSetInClear

/-- DISCARD_STAGING (R415): a write of `A:B020.04`. -/
def execDiscardStaging (t : Nat) (s : State) : Host.Outcome State Fault Refusal := s.write t .discardStaging

/-- KEY_STORE_COMMIT (R416): a write of `A:B020.03`. -/
def execKeyStoreCommit (t : Nat) (s : State) : Host.Outcome State Fault Refusal := s.write t .keyStoreCommit

/-- ATTESTATION_CHALLENGE (R409): a write of `A:B030.01`. -/
def execAttestationChallenge (t : Nat) (s : State) : Host.Outcome State Fault Refusal := s.write t .attestationChallenge

/-- IDENTITY_SIGN_REQUEST (R410): a write of `A:B050.02`. -/
def execIdentitySignRequest (t : Nat) (s : State) : Host.Outcome State Fault Refusal := s.write t .identitySignRequest

/-- SLOT_DERIVE (R408): a write of `A:B040.10`. -/
def execSlotDerive (t : Nat) (s : State) : Host.Outcome State Fault Refusal := s.write t .slotDerive

/-- MACSEC_SA_ENABLE (R422): a write of `A:B110.01`. -/
def execMacsecSaEnable (t : Nat) (s : State) : Host.Outcome State Fault Refusal := s.write t .macsecSaEnable

/-- ACTIVE_AN_WRITE (R422): a write of `A:B100.04`. -/
def execActiveAnWrite (t : Nat) (s : State) : Host.Outcome State Fault Refusal := s.write t .activeAnWrite

/-- MACSEC_ENABLE (R422): a write of `A:B100.01`. -/
def execMacsecEnable (t : Nat) (s : State) : Host.Outcome State Fault Refusal := s.write t .macsecEnable

/-- TRANSFER_START_FIRMWARE (R442): a write of `A:B810.01`. -/
def execTransferStartFirmware (t : Nat) (s : State) : Host.Outcome State Fault Refusal := s.write t .transferStartFirmware

/-- TRANSFER_START_ALMANAC (R442): a write of `A:B810.01`. -/
def execTransferStartAlmanac (t : Nat) (s : State) : Host.Outcome State Fault Refusal := s.write t .transferStartAlmanac

/-- BLOCK_QUARTER_WRITE (R443): a write of `A:B820.01`. -/
def execBlockQuarterWrite (t : Nat) (s : State) : Host.Outcome State Fault Refusal := s.write t .blockQuarterWrite

/-- BLOCK_CHECK_VALUE (R443): a write of `A:B820.05`. -/
def execBlockCheckValue (t : Nat) (s : State) : Host.Outcome State Fault Refusal := s.write t .blockCheckValue

/-- TRANSFER_ACTIVATE (R446): a write of `A:B810.0B`. -/
def execTransferActivate (t : Nat) (s : State) : Host.Outcome State Fault Refusal := s.write t .transferActivate

/-- TRANSFER_ABANDON (R445): a write of `A:B810.0E`. -/
def execTransferAbandon (t : Nat) (s : State) : Host.Outcome State Fault Refusal := s.write t .transferAbandon

/-- CONFIRM_WRITE (R449): a write of `A:B840.06`. -/
def execConfirmWrite (t : Nat) (s : State) : Host.Outcome State Fault Refusal := s.write t .confirmWrite

/-- CLEAR_CORRECTION_TABLE (R457): a write of `A:C051.02`. -/
def execClearCorrectionTable (t : Nat) (s : State) : Host.Outcome State Fault Refusal := s.write t .clearCorrectionTable

/-- SOFTWARE_SCRUB_START (R463): a write of `A:C020.04`. -/
def execSoftwareScrubStart (t : Nat) (s : State) : Host.Outcome State Fault Refusal := s.write t .softwareScrubStart

/-- TEST_WINDOW_OPEN (R464): a write of `A:C030.41`. (DESIGN CHOICE: log entry 144.) -/
def execTestWindowOpen (t : Nat) (s : State) : Host.Outcome State Fault Refusal := s.write t .testWindowOpen

/-- RAW_WRITE (R464): a write of `A:C030.47`. -/
def execRawWrite (t : Nat) (s : State) : Host.Outcome State Fault Refusal := s.write t .rawWrite

/-- RAW_READ (R464): a write of `A:C030.48`. -/
def execRawRead (t : Nat) (s : State) : Host.Outcome State Fault Refusal := s.write t .rawRead

/-- DECODE_READ (R464): a write of `A:C030.49`. -/
def execDecodeRead (t : Nat) (s : State) : Host.Outcome State Fault Refusal := s.write t .decodeRead

/-- REPLAY_START (R473): a write of `A:D021.04`. -/
def execReplayStart (t : Nat) (s : State) : Host.Outcome State Fault Refusal := s.write t .replayStart

end Sys2Proof.Machine
end

