-- ==== Sys2Proof/Machine/StackPeer.lean ====
section
/-! DEFINITION. The commands of the stack that change membership, and the configuration checks and commits between members (R352 to R363, R373). -/
namespace Sys2Proof.Machine

/-! Links and hellos (R352). -/

/-- STACK_LINK_LOCK_LOSS (R352, R374): invalid blocks of a lane pair that has lock are counted, and the link goes down when it loses it. -/
def execStackLinkLockLoss (t : Nat) (loss : LockLoss) (s : State) : Host.Outcome State Fault Refusal :=
  s.cmd t (loss.k < 2) fun d =>
    if d.klinkState loss.k = 0 then d
    else
      let d := d.inc 0x9420 0x08 (uK loss.k) 0 loss.errors
      if loss.lost then (d.stackFall loss.k false).stackProgress else d

/-- A hello names members of the stack. -/
def Hello.ok (h : Hello) : Bool := decide (h.port < 2) && h.sec.all (fun g => decide (g.an < 4) && decide (g.pn < 2 ^ 64)) && (h.self :: h.others).all (fun i => decide (i.member < 4) && decide (i.lead < 4) && decide (i.state < 4) && i.links.all (· < 4) && decide (i.reason < 5))

/-- Hello timeout in time-clock periods. -/
def Dev.helloLimit (d : Dev) : Nat := d.obj 0x9400 0x41 * perUs

/-- HELLO_RECEIVED (R352): three in a row bring the link up; later ones carry the view of the stack (R355). With MACsec on, one that the controlled port does not accept is discarded (R421). -/
def execHelloReceived (t k : Nat) (h : Hello) (s : State) : Host.Outcome State Fault Refusal :=
  s.cmd t (decide (k < 2) && Hello.ok h) fun d =>
    if d.klinkState k = 0 then d
    else
      let (d, accepted) := d.macsecAccept (20 + k) h.sec false
      if ¬ accepted then d
      else
      let d := d.macsecEnd (20 + k) h.sec true
      let x := d.klink k
      let run := if x.run = 0 ∨ x.heard + d.helloLimit < d.now then 1 else x.run + 1
      let d := d.setKlink k { x with run := run, heard := d.now, hello := some h }
      if d.klinkState k = 2 then d.stackSettle.stackProgress
      else if 3 ≤ run then (d.stackUp k h).stackProgress
      else d

/-- A waiting command brings the link of a port up, were it to run now. -/
def State.linkComes (s : State) (port : Nat) (d : Dev) (c : Instr) : Bool :=
  let s' : State := { s with dev := d }
  let up (o : Host.Outcome State Fault Refusal) : Bool := match o with | .next x => x.dev.linkUp port | _ => false
  match c with
  | .linkUp t p rate half word => up (execLinkUp t p rate half word s')
  | .lineFaultClear t p f => up (execLineFaultClear t p f s')
  | .helloReceived t k h => up (execHelloReceived t k h s')
  | .pcieLinkUp t speed width => up (execPcieLinkUp t speed width s')
  | _ => false

/-- HOLD_DOWN_EXPIRY (R137): a link that comes up in the tick suppresses it (R11); else the Chart removes the addresses learned on the port (R161). -/
def execHoldDownExpiry (t port : Nat) (s : State) : Host.Outcome State Fault Refusal :=
  s.timer t (port < 23) (s.linkComes port) fun d =>
    if d.obj 0x2040 0x01 0 port = 2 ∧ tget (fun _ => 0) d.fab.downAt port + d.obj 0x2040 0x02 0 port * perMs ≤ d.now then
      ((d.set 0x2040 0x01 0 0 port).inc 0x2040 0x06 0 port).chartFlush false port true
    else d

/-- HELLO_TIMEOUT (R352): no hello for the timeout; the link goes down and keeps its block lock. (DEDUCED: log entry 109.) -/
def execHelloTimeout (t k : Nat) (s : State) : Host.Outcome State Fault Refusal :=
  s.timer t (k < 2) (fun _ c => match c with | .helloReceived _ k' _ => k' == k | _ => false) fun d =>
    if d.klinkState k ≠ 2 ∨ d.now < (d.klink k).heard + d.helloLimit then d
    else ((d.inc 0x9420 0x07 (uK k)).stackFall k true).stackProgress

/-! Forwarded replies (R52, R65). -/

/-- A reply answers a write of `A:1040` that this member has forwarded. (DEDUCED: log entry 212.) -/
def answersSetting (rec : Bytes) (x : Bytes × Bool) : Bool := byteAt rec 0 == 2 && slice rec 2 5 == slice x.1 2 5 && slice rec 8 6 == slice x.1 8 6

/-- The reply to a forwarded write of `A:1040` has been sent: a committed write takes effect now (R65). (DEDUCED: log entry 212.) -/
def Dev.settingDue (d : Dev) (rec : Bytes) : Dev :=
  match d.alm.settings.find? (answersSetting rec) with
  | none => d
  | some x =>
    let d := d.almUpd fun a => { a with settings := a.settings.erase x }
    match findRow (recIndex x.1) (recSub x.1) with
    | some o => if x.2 then d.applyUnits o x.1 else d
    | none => d

/-- FORWARDED_REPLY_RECEIVED (R52): the lead's reply goes out on the service that carried the request. -/
def execForwardedReplyReceived (t : Nat) (svc : Service) (src : Source) (rec : Bytes) (s : State) : Host.Outcome State Fault Refusal :=
  s.cmd t true fun d => (d.sendRecord none svc src (recOp rec == 7) rec).settingDue rec

/-- PAIR_RESTART_COMPLETE (R30): what the restart of CP0 held back of an answer leaves now (Table 1.5). -/
def execPairRestartComplete (t pair : Nat) (s : State) : Host.Outcome State Fault Refusal :=
  s.cmd t (pair < 4) fun d =>
    let p := d.pair pair
    if p.state ≠ 1 then d
    else
      let d := ((d.setPair pair { p with state := 0 }).thaw pair (d.now - p.stoppedAt)).healthStart
      if pair = 0 then d.stackProgress.finishIfReady else d

/-! Rejoin (R357, R373). -/

/-- What a member says of itself. -/
def Dev.infoOf (d : Dev) (m : Nat) : Option MemberInfo := if m = d.stackId then some d.selfInfo else d.memberInfo m

/-- Reason to hold a joining member out for its versions (R357), 0 for none. (DEDUCED: log entry 114.) -/
def Dev.holdReason (d : Dev) (m : Nat) : Nat :=
  match d.infoOf m, d.infoOf (d.obj 0x9400 0x04) with
  | some i, some l =>
    if i.firmware / 65536 ≠ l.firmware / 65536 then 2
    else if i.image ≠ l.image then 3
    else 0
  | _, _ => 0

/-- Entries that the lead replays to a member, in sequence order (R373). -/
def Dev.replayList (d : Dev) (m applied : Nat) : List RecEntry :=
  let l := (d.recordOf m).filter (fun e => decide (applied < e.seq))
  l.foldl (fun acc e => acc.filter (fun x => decide (x.seq ≤ e.seq)) ++ [e] ++ acc.filter (fun x => decide (e.seq < x.seq))) []

/-- The replay of a member's record by the lead, with the refusals it counts. -/
def Dev.replayTo (d : Dev) (m refusals : Nat) (i : MemberInfo) : Dev :=
  let before := tget (fun _ => none) d.stack.boots m
  let applied := if before.isSome ∧ before ≠ some i.boots then 0 else i.applied
  let l := d.replayList m applied
  let bad := min refusals l.length
  let d := d.stackUpd fun x => { x with boots := tput (fun _ => none) x.boots m (some i.boots) }
  let d := if d.isLead ∧ m ≠ d.stackId then l.foldl (fun d e => d.sendTo m (.replayEntry m e)) d else d
  let d := (d.inc 0x9401 0x05 0 m bad).set 0x9401 0x04 (d.obj 0x9400 0x07) 0 m
  if 0 < bad then d.set 0x9401 0x03 1 0 m else d

/-- REJOIN_COMPLETE (R373): the steps of Table 14.6 for a joining member, which refused `refusals` of the replayed writes; this member itself has to follow the lead's zone time first. (DEDUCED: log entry 114.) -/
def execRejoinComplete (t member refusals : Nat) (s : State) : Host.Outcome State Fault Refusal :=
  s.cmd t (member < 4) fun d =>
    match d.infoOf member with
    | none => d
    | some i =>
      if d.mState member ≠ 1 then d
      else
        let r := d.holdReason member
        if r ≠ 0 then (d.holdOut member r).stackView
        else if tget (fun _ => false) d.stack.overflow member then (d.holdOut member 4).stackView
        else if member = d.stackId ∧ ¬ d.isLead ∧ d.obj 0x9430 0x01 ≠ 2 then d
        else (((d.replayTo member refusals i).memberIn member).leadSelect.stackView).stackProgress

/-! Checks and commits (R361 to R363). -/

/-- STACK_WRITE_CHECK (R361): checks 10 to 13 of the lead's write on this member, and the answer. -/
def execStackWriteCheck (t : Nat) (svc : Service) (req : Bytes) (s : State) : Host.Outcome State Fault Refusal :=
  s.cmd t (decide (20 ≤ req.length)) fun d =>
    match findRow (recIndex req) (recSub req) with
    | none => d
    | some o =>
      if d.isLead ∨ ¬ (d.pathMembers req).contains d.stackId then d
      else match d.firstRefusal o req (svc == .pcie || svc == .hs) with
        | some (code, path) => (d.countRefusal (recIndex req) (recRecord req) code).answerLead code path
        | none => d.answerLead 0 []

/-- STACK_WRITE_COMMIT (R361, R363): the write enters the records of the members that the lead addressed, and an addressed member applies it, a write of `A:1040` that came this way after its reply (R65); a joining member refuses what it cannot take (R373). -/
def execStackWriteCommit (t : Nat) (c : StackCommit) (req : Bytes) (s : State) : Host.Outcome State Fault Refusal :=
  s.cmd t (decide (20 ≤ req.length) && decide (c.seq < 2 ^ 32) && c.members.all (fun m => decide (m < 4))) fun d =>
    match findRow (recIndex req) (recSub req) with
    | none => d
    | some o =>
      if d.isLead then d
      else
        let d := ((d.set 0x9400 0x07 c.seq).set 0x9401 0x04 c.seq 0 d.stackId).recordWrite o req c.members c.seq
        if ¬ c.members.contains d.stackId then d
        else match (if d.stack.self = 2 then none else d.firstRefusal o req true) with
          | some (code, path) => d.answerLead code path
          | none =>
            if d.alm.settings.any (fun x => x.1 == req) then
              (d.almUpd fun x => { x with settings := x.settings.map (fun y => if y.1 = req then (req, true) else y) }).answerLead 0 []
            else
            let d := (d.applyUnits o req).almUpd fun x => { x with answerDue := true }
            if d.writeReady then ((d.answerLead 0 []).almUpd fun x => { x with answerDue := false }).afterReply req else d

/-- An order of paths: the refusal of a check that comes first (R8). -/
def firstPath (a : Option (Nat × Bytes)) (c : Nat) (p : Bytes) : Nat × Bytes :=
  match a with
  | some (c', p') => if beNat p' ≤ beNat p then (c', p') else (c, p)
  | none => (c, p)

/-- MEMBER_ANSWER_RECEIVED (R361, R363): an answer to a check or a commit. -/
def execMemberAnswerReceived (t member : Nat) (commit : Bool) (status : Nat) (path : Bytes) (s : State) : Host.Outcome State Fault Refusal :=
  s.cmd t (decide (member < 4) && decide (status < 65536) && (status == 0 || path.length == 4)) fun d =>
    match d.alm.stackWrite with
    | none => d
    | some w =>
      if w.committed ≠ commit ∨ ¬ w.waitFor.contains member then d
      else
        let w' : StackWrite := { w with
          waitFor := w.waitFor.filter (fun m => m != member)
          refusal := if commit = false ∧ status ≠ 0 then some (firstPath w.refusal status path) else w.refusal
          taken := w.taken || (commit && status == 0) }
        let d := if commit then d.set 0x9401 0x04 (d.obj 0x9400 0x07) 0 member else d
        (d.almUpd fun x => { x with stackWrite := some w' }).stackProgress

/-- The Almanac server has waited 100 µs for the answer of a member to a check or a commit: S-0402 for that member (R52, R370). (DESIGN CHOICE: log entry 178.) -/
def Dev.checkTimeout (d : Dev) : Dev :=
  match d.alm.stackWrite with
  | none => d
  | some w =>
    if d.now < w.since + 100 * perUs ∨ ¬ d.pairRuns 0 then d
    else match w.waitFor with
      | [] => d
      | m :: _ => (d.almUpd fun x => { x with stackWrite := some { w with waitFor := [], refusal := some (firstPath w.refusal 0x402 (unitPath m 0)) } }).stackProgress

/-- BRIDGE_READ_TIMEOUT (R370): the read of a pair has waited 100 µs; of CP0 also the answers to a check (R52). (DESIGN CHOICE: log entry 178.) -/
def execBridgeReadTimeout (t pair : Nat) (s : State) : Host.Outcome State Fault Refusal :=
  s.timer t (pair < 4) (fun d c => match c with
    | .bridgeReadCompletion _ source tag _ _ => d.stack.reads.any (fun r => r.pair == pair && r.target == source && r.tag == tag)
    | .memberAnswerReceived _ m commit _ _ => pair == 0 && (match d.alm.stackWrite with | some w => w.committed == commit && w.waitFor == [m] | none => false)
    | _ => false) fun d =>
    match d.stack.reads.find? (fun r => r.pair == pair) with
    | some r => if r.issued + 100 * perUs ≤ d.now then (d.bridgeFail r).inc 0x9440 0x04 else d
    | none => if pair = 0 then d.checkTimeout else d

end Sys2Proof.Machine
end

