-- ==== Sys2Proof/Machine/Dispatch.lean ====
section
/-! DEFINITION. What each command of the table does: one arm per constructor, each a direct call of its meaning. -/
namespace Sys2Proof.Machine

/-- The effect of a command on everything but the queue of waiting commands. -/
def exec (i : Instr) (s : State) : Host.Outcome State Fault Refusal :=
  match i with
  | .almDoorbell t len req => Sys2Proof.Machine.execAlmDoorbell t len req s
  | .almAck t => Sys2Proof.Machine.execAlmAck t s
  | .hsRequest t req => Sys2Proof.Machine.execHsRequest t req s
  | .hsReplyFetch t => Sys2Proof.Machine.execHsReplyFetch t s
  | .hsEventCauseRead t => Sys2Proof.Machine.execHsEventCauseRead t s
  | .hsEventCauseClear t mask => Sys2Proof.Machine.execHsEventCauseClear t mask s
  | .hsMaskWrite t mask => Sys2Proof.Machine.execHsMaskWrite t mask s
  | .hsMaskRead t => Sys2Proof.Machine.execHsMaskRead t s
  | .hsUnknownCommand t cmd => Sys2Proof.Machine.execHsUnknownCommand t cmd s
  | .udpRequest t src req => Sys2Proof.Machine.execUdpRequest t src req s
  | .canServiceRequest t ch ident req => Sys2Proof.Machine.execCanServiceRequest t ch ident req s
  | .stackForwardedRequest t origin svc src req => Sys2Proof.Machine.execStackForwardedRequest t origin svc src req s
  | .read t members lost => Sys2Proof.Machine.execRead t members lost s
  | .write t lost => Sys2Proof.Machine.execWrite t lost s
  | .claim t => Sys2Proof.Machine.execClaim t s
  | .electionWindowClose t => Sys2Proof.Machine.execElectionWindowClose t s
  | .renew t => Sys2Proof.Machine.execRenew t s
  | .release t => Sys2Proof.Machine.execRelease t s
  | .handover t => Sys2Proof.Machine.execHandover t s
  | .leaseExpiry t => Sys2Proof.Machine.execLeaseExpiry t s
  | .eventBusEvent t ev => Sys2Proof.Machine.execEventBusEvent t ev s
  | .eventCauseClear t mask arriving => Sys2Proof.Machine.execEventCauseClear t mask arriving s
  | .hsMaskBarWrite t mask => Sys2Proof.Machine.execHsMaskBarWrite t mask s
  | .msixUnmask t entry => Sys2Proof.Machine.execMsixUnmask t entry s
  | .barIgnoredWrite t bar offset => Sys2Proof.Machine.execBarIgnoredWrite t bar offset s
  | .pcieLinkUp t speed width => Sys2Proof.Machine.execPcieLinkUp t speed width s
  | .pcieLinkDown t => Sys2Proof.Machine.execPcieLinkDown t s
  | .functionLevelReset t => Sys2Proof.Machine.execFunctionLevelReset t s
  | .d3hotEntry t => Sys2Proof.Machine.execD3hotEntry t s
  | .fifoHeadWrite t f item => Sys2Proof.Machine.execFifoHeadWrite t f item s
  | .fifoDataWrite t f items => Sys2Proof.Machine.execFifoDataWrite t f items s
  | .fifoEndWrite t f item => Sys2Proof.Machine.execFifoEndWrite t f item s
  | .fifoPopRead t f read bad => Sys2Proof.Machine.execFifoPopRead t f read bad s
  | .fifoFlushWrite t f => Sys2Proof.Machine.execFifoFlushWrite t f s
  | .fifoFlushTakesEffect t f => Sys2Proof.Machine.execFifoFlushTakesEffect t f s
  | .fifoPacketToHost t => Sys2Proof.Machine.execFifoPacketToHost t s
  | .fifoCoalescingExpiry t f => Sys2Proof.Machine.execFifoCoalescingExpiry t f s
  | .fifoPacketFromHost t bad => Sys2Proof.Machine.execFifoPacketFromHost t bad s
  | .syncReceived t m => Sys2Proof.Machine.execSyncReceived t m s
  | .followUpReceived t m => Sys2Proof.Machine.execFollowUpReceived t m s
  | .announceReceived t m => Sys2Proof.Machine.execAnnounceReceived t m s
  | .syncReceiptTimeout t dom => Sys2Proof.Machine.execSyncReceiptTimeout t dom s
  | .announceReceiptTimeout t dom => Sys2Proof.Machine.execAnnounceReceiptTimeout t dom s
  | .blendEnd t => Sys2Proof.Machine.execBlendEnd t s
  | .revertHoldOffExpiry t => Sys2Proof.Machine.execRevertHoldOffExpiry t s
  | .holdoverLimitExpiry t => Sys2Proof.Machine.execHoldoverLimitExpiry t s
  | .domainEnable t => Sys2Proof.Machine.execDomainEnable t s
  | .zoneSyncInterval t => Sys2Proof.Machine.execZoneSyncInterval t s
  | .announceInterval t => Sys2Proof.Machine.execAnnounceInterval t s
  | .pdelayInterval t port => Sys2Proof.Machine.execPdelayInterval t port s
  | .pdelayReqReceived t port seq => Sys2Proof.Machine.execPdelayReqReceived t port seq s
  | .pdelayRespReceived t port seq t2 t3 => Sys2Proof.Machine.execPdelayRespReceived t port seq t2 t3 s
  | .snapshot t => Sys2Proof.Machine.execSnapshot t s
  | .ppsOutEdge t pin => Sys2Proof.Machine.execPpsOutEdge t pin s
  | .ppsOutPulseEnd t pin => Sys2Proof.Machine.execPpsOutPulseEnd t pin s
  | .ppsInEdge t rising => Sys2Proof.Machine.execPpsInEdge t rising s
  | .plotterEntryFire t leg => Sys2Proof.Machine.execPlotterEntryFire t leg s
  | .legEnable t => Sys2Proof.Machine.execLegEnable t s
  | .legStart t leg => Sys2Proof.Machine.execLegStart t leg s
  | .swapRequest t => Sys2Proof.Machine.execSwapRequest t s
  | .swapTakesEffect t leg => Sys2Proof.Machine.execSwapTakesEffect t leg s
  | .phaseEnable t => Sys2Proof.Machine.execPhaseEnable t s
  | .toothEdge t rising lasted => Sys2Proof.Machine.execToothEdge t rising lasted s
  | .phaseStopTimeout t => Sys2Proof.Machine.execPhaseStopTimeout t s
  | .ethFrameFirstCell t port fr => Sys2Proof.Machine.execEthFrameFirstCell t port fr s
  | .ethFrameEnd t port preemptible fragments e => Sys2Proof.Machine.execEthFrameEnd t port preemptible fragments e s
  | .macControlReceived t port data => Sys2Proof.Machine.execMacControlReceived t port data s
  | .pauseExpiry t port queue => Sys2Proof.Machine.execPauseExpiry t port queue s
  | .xoffResendTimer t port => Sys2Proof.Machine.execXoffResendTimer t port s
  | .fabricMatch t c => Sys2Proof.Machine.execFabricMatch t c s
  | .mirrorRecord t behind => Sys2Proof.Machine.execMirrorRecord t behind s
  | .transmitStart t port preemptible => Sys2Proof.Machine.execTransmitStart t port preemptible s
  | .transmitUnderrun t port preemptible => Sys2Proof.Machine.execTransmitUnderrun t port preemptible s
  | .frameTransmitEnd t port preemptible => Sys2Proof.Machine.execFrameTransmitEnd t port preemptible s
  | .linkUp t port rate half word => Sys2Proof.Machine.execLinkUp t port rate half word s
  | .linkDown t port loss => Sys2Proof.Machine.execLinkDown t port loss s
  | .flushComplete t port => Sys2Proof.Machine.execFlushComplete t port s
  | .holdDownExpiry t port => Sys2Proof.Machine.execHoldDownExpiry t port s
  | .portEnable t => Sys2Proof.Machine.execPortEnable t s
  | .peakReset t => Sys2Proof.Machine.execPeakReset t s
  | .verifyMpacketTimer t port => Sys2Proof.Machine.execVerifyMpacketTimer t port s
  | .respondMpacketReceived t port => Sys2Proof.Machine.execRespondMpacketReceived t port s
  | .verifyMpacketReceived t port => Sys2Proof.Machine.execVerifyMpacketReceived t port s
  | .thresholdDecay t port => Sys2Proof.Machine.execThresholdDecay t port s
  | .thresholdReset t => Sys2Proof.Machine.execThresholdReset t s
  | .plcaCycleStart t port => Sys2Proof.Machine.execPlcaCycleStart t port s
  | .beaconReceived t port reversed => Sys2Proof.Machine.execBeaconReceived t port reversed s
  | .beaconTimeout t port => Sys2Proof.Machine.execBeaconTimeout t port s
  | .plcaCollision t port => Sys2Proof.Machine.execPlcaCollision t port s
  | .csmaCollision t port late => Sys2Proof.Machine.execCsmaCollision t port late s
  | .backoffExpiry t port => Sys2Proof.Machine.execBackoffExpiry t port s
  | .lineFaultDeclare t port f => Sys2Proof.Machine.execLineFaultDeclare t port f s
  | .lineFaultClear t port f => Sys2Proof.Machine.execLineFaultClear t port f s
  | .cableTestStart t => Sys2Proof.Machine.execCableTestStart t s
  | .cableTestComplete t port result distance => Sys2Proof.Machine.execCableTestComplete t port result distance s
  | .learnEngineInsert t => Sys2Proof.Machine.execLearnEngineInsert t s
  | .ageingScan t n => Sys2Proof.Machine.execAgeingScan t n s
  | .stashDrain t => Sys2Proof.Machine.execStashDrain t s
  | .chartFlushByPort t => Sys2Proof.Machine.execChartFlushByPort t s
  | .chartFlushByFid t => Sys2Proof.Machine.execChartFlushByFid t s
  | .chartFlushComplete t byFid => Sys2Proof.Machine.execChartFlushComplete t byFid s
  | .learnMessageReceived t sender key dest stamp => Sys2Proof.Machine.execLearnMessageReceived t sender key dest stamp s
  | .removalMessageReceived t key => Sys2Proof.Machine.execRemovalMessageReceived t key s
  | .unlockAll t => Sys2Proof.Machine.execUnlockAll t s
  | .staticEntryEnable t => Sys2Proof.Machine.execStaticEntryEnable t s
  | .seedWrite t => Sys2Proof.Machine.execSeedWrite t s
  | .ruleEnable t => Sys2Proof.Machine.execRuleEnable t s
  | .learningEnable t => Sys2Proof.Machine.execLearningEnable t s
  | .portNodeEnable t => Sys2Proof.Machine.execPortNodeEnable t s
  | .policerMode t => Sys2Proof.Machine.execPolicerMode t s
  | .samplerVisit t subscriber queue => Sys2Proof.Machine.execSamplerVisit t subscriber queue s
  | .histogramClear t => Sys2Proof.Machine.execHistogramClear t s
  | .canEnable t => Sys2Proof.Machine.execCanEnable t s
  | .canStop t => Sys2Proof.Machine.execCanStop t s
  | .canStopComplete t ch => Sys2Proof.Machine.execCanStopComplete t ch s
  | .canIntegrationComplete t ch => Sys2Proof.Machine.execCanIntegrationComplete t ch s
  | .canFrameReceived t ch frame age => Sys2Proof.Machine.execCanFrameReceived t ch frame age s
  | .canFrameStart t ch bad delay => Sys2Proof.Machine.execCanFrameStart t ch bad delay s
  | .canAttemptEnd t ch ok => Sys2Proof.Machine.execCanAttemptEnd t ch ok s
  | .canArbitrationLost t ch => Sys2Proof.Machine.execCanArbitrationLost t ch s
  | .canBusError t ch e => Sys2Proof.Machine.execCanBusError t ch e s
  | .protocolException t ch => Sys2Proof.Machine.execProtocolException t ch s
  | .busOffRecovery t ch => Sys2Proof.Machine.execBusOffRecovery t ch s
  | .canBufferCancel t => Sys2Proof.Machine.execCanBufferCancel t s
  | .timeMasterEnable t => Sys2Proof.Machine.execTimeMasterEnable t s
  | .transceiverSettlingEnd t unit => Sys2Proof.Machine.execTransceiverSettlingEnd t unit s
  | .linStop t => Sys2Proof.Machine.execLinStop t s
  | .linTableRequest t => Sys2Proof.Machine.execLinTableRequest t s
  | .linSlotStart t ch => Sys2Proof.Machine.execLinSlotStart t ch s
  | .linHeaderReceived t ch pid head => Sys2Proof.Machine.execLinHeaderReceived t ch pid head s
  | .linResponseSend t ch differs => Sys2Proof.Machine.execLinResponseSend t ch differs s
  | .linFrameComplete t ch data check => Sys2Proof.Machine.execLinFrameComplete t ch data check s
  | .linFrameTimeLimit t ch started => Sys2Proof.Machine.execLinFrameTimeLimit t ch started s
  | .linWakeSignalReceived t ch => Sys2Proof.Machine.execLinWakeSignalReceived t ch s
  | .transceiverScriptRequest t => Sys2Proof.Machine.execTransceiverScriptRequest t s
  | .transceiverScriptComplete t reads => Sys2Proof.Machine.execTransceiverScriptComplete t reads s
  | .wakeInputWake t input level => Sys2Proof.Machine.execWakeInputWake t input level s
  | .wakeInputTestStart t input => Sys2Proof.Machine.execWakeInputTestStart t input s
  | .wakeInputTestEnd t input test => Sys2Proof.Machine.execWakeInputTestEnd t input test s
  | .wakeInputStuck t input => Sys2Proof.Machine.execWakeInputStuck t input s
  | .rosePduJob job => Sys2Proof.Machine.execRosePduJob job s
  | .roseUnpackJob t => Sys2Proof.Machine.execRoseUnpackJob t s
  | .roseEmissionJob t => Sys2Proof.Machine.execRoseEmissionJob t s
  | .containerCollectionExpiry t => Sys2Proof.Machine.execContainerCollectionExpiry t s
  | .deferredChangeRelease t => Sys2Proof.Machine.execDeferredChangeRelease t s
  | .freshnessExpiry t signal => Sys2Proof.Machine.execFreshnessExpiry t signal s
  | .definitionEnable t => Sys2Proof.Machine.execDefinitionEnable t s
  | .signalEnable t => Sys2Proof.Machine.execSignalEnable t s
  | .routeEnable t => Sys2Proof.Machine.execRouteEnable t s
  | .containerEnable t => Sys2Proof.Machine.execContainerEnable t s
  | .stackLinkLock t k => Sys2Proof.Machine.execStackLinkLock t k s
  | .stackLinkLockLoss t k => Sys2Proof.Machine.execStackLinkLockLoss t k s
  | .helloSend t => Sys2Proof.Machine.execHelloSend t s
  | .helloReceived t k h => Sys2Proof.Machine.execHelloReceived t k h s
  | .helloTimeout t k => Sys2Proof.Machine.execHelloTimeout t k s
  | .rejoinComplete t member refusals => Sys2Proof.Machine.execRejoinComplete t member refusals s
  | .memberAdmit t => Sys2Proof.Machine.execMemberAdmit t s
  | .stackWriteCheck t svc req => Sys2Proof.Machine.execStackWriteCheck t svc req s
  | .stackWriteCommit t c req => Sys2Proof.Machine.execStackWriteCommit t c req s
  | .ownershipStateMessage t o => Sys2Proof.Machine.execOwnershipStateMessage t o s
  | .timeMessageSend t => Sys2Proof.Machine.execTimeMessageSend t s
  | .timeMessageReceived t k m => Sys2Proof.Machine.execTimeMessageReceived t k m s
  | .timeMessageLoss t => Sys2Proof.Machine.execTimeMessageLoss t s
  | .linkDelayRoundTrip t k trip => Sys2Proof.Machine.execLinkDelayRoundTrip t k trip s
  | .pathChangeHoldEnd t member => Sys2Proof.Machine.execPathChangeHoldEnd t member s
  | .bridgePostedWriteIssue t pair target tag addr data done => Sys2Proof.Machine.execBridgePostedWriteIssue t pair target tag addr data done s
  | .bridgeReadIssue t pair target tag addr len => Sys2Proof.Machine.execBridgeReadIssue t pair target tag addr len s
  | .bridgeRequestExecute t type source pair tag addr len status data => Sys2Proof.Machine.execBridgeRequestExecute t type source pair tag addr len status data s
  | .bridgeReadCompletion t source tag status data => Sys2Proof.Machine.execBridgeReadCompletion t source tag status data s
  | .bridgeWriteErrorReport t source tag status => Sys2Proof.Machine.execBridgeWriteErrorReport t source tag status s
  | .bridgeReadTimeout t pair => Sys2Proof.Machine.execBridgeReadTimeout t pair s
  | .bridgeLogClear t => Sys2Proof.Machine.execBridgeLogClear t s
  | .nmPduReceived t unit ident data => Sys2Proof.Machine.execNmPduReceived t unit ident data s
  | .readySleepExpiry t unit => Sys2Proof.Machine.execReadySleepExpiry t unit s
  | .nmCycle t unit => Sys2Proof.Machine.execNmCycle t unit s
  | .lastCallNotSent t unit busy => Sys2Proof.Machine.execLastCallNotSent t unit busy s
  | .lastCallWindowClose t unit busy => Sys2Proof.Machine.execLastCallWindowClose t unit busy s
  | .busWake t unit => Sys2Proof.Machine.execBusWake t unit s
  | .maxAwakeExceeded t unit => Sys2Proof.Machine.execMaxAwakeExceeded t unit s
  | .hostNeed t => Sys2Proof.Machine.execHostNeed t s
  | .managementSwitch t => Sys2Proof.Machine.execManagementSwitch t s
  | .clearIgnoreList t => Sys2Proof.Machine.execClearIgnoreList t s
  | .stateCommandWatch t => Sys2Proof.Machine.execStateCommandWatch t s
  | .stateCommandStandby t => Sys2Proof.Machine.execStateCommandStandby t s
  | .stateCommandPartial t => Sys2Proof.Machine.execStateCommandPartial t s
  | .stateCommandRun t => Sys2Proof.Machine.execStateCommandRun t s
  | .powerDomainRampEnd t => Sys2Proof.Machine.execPowerDomainRampEnd t s
  | .acknowledgeTimeExpiry t => Sys2Proof.Machine.execAcknowledgeTimeExpiry t s
  | .runReqRise t => Sys2Proof.Machine.execRunReqRise t s
  | .runReqFall t => Sys2Proof.Machine.execRunReqFall t s
  | .vaonPowerOn t => Sys2Proof.Machine.execVaonPowerOn t s
  | .vaonRemoval t => Sys2Proof.Machine.execVaonRemoval t s
  | .mainPgRise t => Sys2Proof.Machine.execMainPgRise t s
  | .brownout t => Sys2Proof.Machine.execBrownout t s
  | .referenceValid t => Sys2Proof.Machine.execReferenceValid t s
  | .corePllsLocked t => Sys2Proof.Machine.execCorePllsLocked t s
  | .referenceLoss t => Sys2Proof.Machine.execReferenceLoss t s
  | .resetNAssert t => Sys2Proof.Machine.execResetNAssert t s
  | .coreResetRelease t root env => Sys2Proof.Machine.execCoreResetRelease t root env s
  | .rootReadRetry t ok env => Sys2Proof.Machine.execRootReadRetry t ok env s
  | .identityKeyReady t => Sys2Proof.Machine.execIdentityKeyReady t s
  | .droopThresholdCrossing t step => Sys2Proof.Machine.execDroopThresholdCrossing t step s
  | .droopStepRecovery t => Sys2Proof.Machine.execDroopStepRecovery t s
  | .lockstepMismatch t pair => Sys2Proof.Machine.execLockstepMismatch t pair s
  | .pairRestartComplete t pair => Sys2Proof.Machine.execPairRestartComplete t pair s
  | .importBlobSet t => Sys2Proof.Machine.execImportBlobSet t s
  | .importBlobErase t => Sys2Proof.Machine.execImportBlobErase t s
  | .importBlobSetInClear t => Sys2Proof.Machine.execImportBlobSetInClear t s
  | .discardStaging t => Sys2Proof.Machine.execDiscardStaging t s
  | .keyStoreCommit t => Sys2Proof.Machine.execKeyStoreCommit t s
  | .keyStoreCommitEnd t ok => Sys2Proof.Machine.execKeyStoreCommitEnd t ok s
  | .attestationChallenge t => Sys2Proof.Machine.execAttestationChallenge t s
  | .identitySignRequest t => Sys2Proof.Machine.execIdentitySignRequest t s
  | .slotDerive t => Sys2Proof.Machine.execSlotDerive t s
  | .randomHealthFailure t => Sys2Proof.Machine.execRandomHealthFailure t s
  | .macsecSaEnable t => Sys2Proof.Machine.execMacsecSaEnable t s
  | .activeAnWrite t => Sys2Proof.Machine.execActiveAnWrite t s
  | .macsecEnable t => Sys2Proof.Machine.execMacsecEnable t s
  | .transferStartFirmware t => Sys2Proof.Machine.execTransferStartFirmware t s
  | .transferStartAlmanac t => Sys2Proof.Machine.execTransferStartAlmanac t s
  | .blockQuarterWrite t => Sys2Proof.Machine.execBlockQuarterWrite t s
  | .blockCheckValue t => Sys2Proof.Machine.execBlockCheckValue t s
  | .transferVerifyComplete t => Sys2Proof.Machine.execTransferVerifyComplete t s
  | .transferActivate t => Sys2Proof.Machine.execTransferActivate t s
  | .transferAbandon t => Sys2Proof.Machine.execTransferAbandon t s
  | .trialMinute t => Sys2Proof.Machine.execTrialMinute t s
  | .healthConditionsHeld t => Sys2Proof.Machine.execHealthConditionsHeld t s
  | .confirmWrite t => Sys2Proof.Machine.execConfirmWrite t s
  | .correctedWriteback t mem line superseded => Sys2Proof.Machine.execCorrectedWriteback t mem line superseded s
  | .mergeEntryRetire t mem line full r => Sys2Proof.Machine.execMergeEntryRetire t mem line full r s
  | .patrolRead t mem r => Sys2Proof.Machine.execPatrolRead t mem r s
  | .clearCorrectionTable t => Sys2Proof.Machine.execClearCorrectionTable t s
  | .softwareScrubStart t => Sys2Proof.Machine.execSoftwareScrubStart t s
  | .softwareScrubComplete t reads => Sys2Proof.Machine.execSoftwareScrubComplete t reads s
  | .testWindowOpen t => Sys2Proof.Machine.execTestWindowOpen t s
  | .rawWrite t => Sys2Proof.Machine.execRawWrite t s
  | .rawRead t => Sys2Proof.Machine.execRawRead t s
  | .decodeRead t => Sys2Proof.Machine.execDecodeRead t s
  | .soundingStart t mem => Sys2Proof.Machine.execSoundingStart t mem s
  | .soundingBlockEnd t mem block test => Sys2Proof.Machine.execSoundingBlockEnd t mem block test s
  | .saveBufferRelease t mem => Sys2Proof.Machine.execSaveBufferRelease t mem s
  | .startupSoundingComplete t tests => Sys2Proof.Machine.execStartupSoundingComplete t tests s
  | .replayStart t => Sys2Proof.Machine.execReplayStart t s
  | .replayFrameSend t => Sys2Proof.Machine.execReplayFrameSend t s
  | .wakeInputRelease t input held => Sys2Proof.Machine.execWakeInputRelease t input held s
  | .vbatsenseSample t mv => Sys2Proof.Machine.execVbatsenseSample t mv s
  | .forwardedReplyReceived t svc src rec => Sys2Proof.Machine.execForwardedReplyReceived t svc src rec s
  | .memberAnswerReceived t member commit status path => Sys2Proof.Machine.execMemberAnswerReceived t member commit status path s

end Sys2Proof.Machine
end

