-- ==== Sys2Proof/WellFormed.lean ====
section
/-! DEFINITION. Well-formed commands: operands that name something the manual has. -/
namespace Sys2Proof
open Machine

/-- The operands of a command lie in the ranges of the manual; a command outside them is no command of the hardware. (DESIGN CHOICE: log entry 6.) -/
def Instr.wf : Instr → Bool
  | .almDoorbell _ len req => len < 2048 && decide (min len 1044 ≤ req.length) && decide (req.length ≤ 2048)
  | .almAck _ => true
  | .hsRequest _ _ => true
  | .hsReplyFetch _ => true
  | .hsEventCauseRead _ => true
  | .hsEventCauseClear _ _ => true
  | .hsMaskWrite _ _ => true
  | .hsMaskRead _ => true
  | .hsUnknownCommand _ c => !(List.contains [0x5A, 0xA5, 0x3C, 0xC3, 0x69, 0x96] c.cmd.toNat)
  | .udpRequest _ _ _ => true
  | .canServiceRequest _ ch _ _ => ch < 24
  | .stackForwardedRequest _ origin _ _ _ => origin.member < 4
  | .read _ members _ => members.all (fun e => e.path.length == 4 && decide (e.status < 65536) && decide (e.value.length ≤ 1024))
  | .write _ _ => true
  | .claim _ => true
  | .electionWindowClose _ => true
  | .renew _ => true
  | .release _ => true
  | .handover _ => true
  | .leaseExpiry _ => true
  | .eventBusEvent _ ev => ev.source < 256 && ev.code < 65536 && ev.path.length == 4 && ev.data.length ≤ 12 && (match ev.vector with | some v => v < 22 | none => true)
  | .eventCauseClear _ _ arriving => decide (arriving.toNat < 2 ^ 22)
  | .hsMaskBarWrite _ _ => true
  | .msixUnmask _ entry => entry.vector < 64
  | .barIgnoredWrite _ bar offset => ((bar == 0 && offset < 65536) || (bar == 2 && offset < 262144)) && !barWritable bar offset
  | .pcieLinkUp _ speed width => (1 ≤ speed && speed ≤ 4 && (width == 1 || width == 2)) || (speed == 0 && width == 0)
  | .pcieLinkDown _ => true
  | .functionLevelReset _ => true
  | .d3hotEntry _ => true
  | .fifoHeadWrite _ f _ => f < 64
  | .fifoDataWrite _ f items => f < 64 && 1 ≤ items.length && items.length ≤ 32
  | .fifoEndWrite _ f _ => f < 64
  | .fifoPopRead _ f _ _ => f < 64
  | .fifoFlushWrite _ f => f < 64
  | .fifoFlushTakesEffect _ f => f < 64
  | .fifoPacketToHost _ => true
  | .fifoCoalescingExpiry _ f => f < 64
  | .fifoPacketFromHost _ _ => true
  | .syncReceived _ m => m.port < unitCount
  | .followUpReceived _ m => m.port < unitCount
  | .announceReceived _ m => m.port < unitCount
  | .syncReceiptTimeout _ dom => dom < 2
  | .announceReceiptTimeout _ dom => dom < 2
  | .blendEnd _ => true
  | .revertHoldOffExpiry _ => true
  | .holdoverLimitExpiry _ => true
  | .domainEnable _ => true
  | .zoneSyncInterval _ => true
  | .announceInterval _ => true
  | .pdelayInterval _ port => scopeHas .nesk port
  | .pdelayReqReceived _ port _ => scopeHas .nesk port
  | .pdelayRespReceived _ port _ _ _ => scopeHas .nesk port
  | .snapshot _ => true
  | .ppsOutEdge _ pin => pin < 2
  | .ppsOutPulseEnd _ pin => pin < 2
  | .ppsInEdge _ _ => true
  | .plotterEntryFire _ leg => leg < 16
  | .legEnable _ => true
  | .legStart _ leg => leg < 16
  | .swapRequest _ => true
  | .swapTakesEffect _ leg => leg < 16
  | .phaseEnable _ => true
  | .toothEdge _ _ _ => true
  | .phaseStopTimeout _ => true
  | .ethFrameFirstCell _ port fr => port < 22 && (fr.hdr.isSome == (20 ≤ port)) && (match fr.hdr with | some h => h.dmem < 4 && h.dport < 32 && h.smem < 4 && h.sport < 25 && h.cls < 8 && h.vid < 4096 && h.hops < 4 | none => true)
  | .ethFrameEnd _ port _ _ _ => port < 22
  | .macControlReceived _ port data => port < 22 && field data 12 2 == macControl
  | .pauseExpiry _ port queue => port < 22 && queue < 8
  | .xoffResendTimer _ port => port < 12 || port == 20 || port == 21
  | .fabricMatch _ c => c.written.all (fun w => w.1 < 25 && w.2.1 < 2)
  | .mirrorRecord _ _ => true
  | .transmitStart _ port _ => port < 22
  | .transmitUnderrun _ port _ => port < 22
  | .frameTransmitEnd _ port _ => port < 22
  | .linkUp _ port rate _ word => port < 20 && rate < 65536 && word < 65536
  | .linkDown _ port loss => port < 20 && (match loss with | .word _ rate value => rate < 65536 && value < 65536 | _ => true)
  | .flushComplete _ port => port < 23
  | .holdDownExpiry _ port => port < 23
  | .portEnable _ => true
  | .peakReset _ => true
  | .verifyMpacketTimer _ port => port < 12
  | .respondMpacketReceived _ port => port < 12
  | .verifyMpacketReceived _ port => port < 12
  | .thresholdDecay _ port => port < 22
  | .thresholdReset _ => true
  | .plcaCycleStart _ port => 12 ≤ port && port < 20
  | .beaconReceived _ port _ => 12 ≤ port && port < 20
  | .beaconTimeout _ port => 12 ≤ port && port < 20
  | .plcaCollision _ port => 12 ≤ port && port < 20
  | .csmaCollision _ port _ => 12 ≤ port && port < 20
  | .backoffExpiry _ port => 12 ≤ port && port < 20
  | .lineFaultDeclare _ port _ => 12 ≤ port && port < 20
  | .lineFaultClear _ port _ => 12 ≤ port && port < 20
  | .cableTestStart _ => true
  | .cableTestComplete _ port result distance => 12 ≤ port && port < 20 && 2 ≤ result && result ≤ 4 && distance < 65536
  | .learnEngineInsert _ => true
  | .ageingScan _ n => n ≤ 16385
  | .stashDrain _ => true
  | .chartFlushByPort _ => true
  | .chartFlushByFid _ => true
  | .chartFlushComplete _ _ => true
  | .learnMessageReceived _ sender key dest _ => sender < 4 && key < 2 ^ 60 && dest < 128
  | .removalMessageReceived _ r => decide (r.key < 2 ^ 60) && decide (r.sender < 4) && r.target.all (· < 4)
  | .unlockAll _ => true
  | .staticEntryEnable _ => true
  | .seedWrite _ => true
  | .ruleEnable _ => true
  | .learningEnable _ => true
  | .portNodeEnable _ => true
  | .policerMode _ => true
  | .samplerVisit _ subscriber queue => subscriber < 512 && queue < 8
  | .histogramClear _ => true
  | .canEnable _ => true
  | .canStop _ => true
  | .canStopComplete _ ch => ch < 24
  | .canIntegrationComplete _ ch => ch < 24
  | .canFrameReceived _ ch frame _ => ch < 24 && canFrameOk frame
  | .canFrameStart _ ch _ delay => ch < 24 && delay < 65536
  | .canAttemptEnd _ ch _ => ch < 24
  | .canArbitrationLost _ ch => ch < 24
  | .canBusError _ ch e => ch < 24 && 1 ≤ e.kind && e.kind ≤ 6 && (match e.place with | some (p, f) => p < 65536 && f < 3 | none => true)
  | .protocolException _ ch => ch < 24
  | .busOffRecovery _ ch => ch < 24
  | .canBufferCancel _ => true
  | .timeMasterEnable _ => true
  | .transceiverSettlingEnd _ unit => 21 ≤ unit && unit < 61
  | .linStop _ => true
  | .linTableRequest _ => true
  | .linSlotStart _ ch => ch < 16
  | .linHeaderReceived _ ch pid head => ch < 16 && pid < 256 && head.rate < 65536
  | .linResponseSend _ ch _ => ch < 16
  | .linFrameComplete _ ch data _ => ch < 16 && data.length ≤ 9
  | .linFrameTimeLimit _ ch _ => ch < 16
  | .linWakeSignalReceived _ ch => ch < 16
  | .transceiverScriptRequest _ => true
  | .transceiverScriptComplete _ _ => true
  | .wakeInputWake _ input _ => input < 4
  | .wakeInputTestStart _ input => input < 4
  | .wakeInputTestEnd _ input _ => input < 4
  | .wakeInputStuck _ input => input < 4
  | .rosePduJob job => job.lostSlots.all (· < 256)
  | .roseUnpackJob _ => true
  | .roseEmissionJob _ => true
  | .containerCollectionExpiry _ => true
  | .deferredChangeRelease _ => true
  | .freshnessExpiry _ signal => signal < 65536
  | .definitionEnable _ => true
  | .signalEnable _ => true
  | .routeEnable _ => true
  | .containerEnable _ => true
  | .stackLinkLock _ k => k < 2
  | .stackLinkLockLoss _ loss => loss.k < 2
  | .helloSend _ => true
  | .helloReceived _ k h => decide (k < 2) && Hello.ok h
  | .helloTimeout _ k => k < 2
  | .rejoinComplete _ member _ => member < 4
  | .memberAdmit _ => true
  | .stackWriteCheck _ _ req => decide (20 ≤ req.length)
  | .stackWriteCommit _ c req => decide (20 ≤ req.length) && decide (c.seq < 2 ^ 32) && c.members.all (fun m => decide (m < 4))
  | .ownershipStateMessage _ o => o.owner.length == 8 && o.owner.all (fun x => 1 ≤ x.1 && x.1 ≤ 8) && o.wins.length == 16
  | .timeMessageSend _ => true
  | .timeMessageReceived _ k _ => k < 2
  | .timeMessageLoss _ => true
  | .linkDelayRoundTrip _ k trip => k < 2 && trip / 2 < 2 ^ 32
  | .pathChangeHoldEnd _ member => member < 4
  | .bridgePostedWriteIssue _ pair target tag addr data done => pair < 4 && target < 4 && tag < 256 && addr < 2 ^ 40 && 1 ≤ data.length && data.length ≤ 64 && done.length ≤ 16 && done.all (· < 4)
  | .bridgeReadIssue _ pair target tag addr len => pair < 4 && target < 4 && tag < 256 && addr < 2 ^ 40 && 1 ≤ len && len ≤ 64
  | .bridgeRequestExecute _ type source pair tag addr len status data => (type == 1 || type == 2) && source < 4 && pair < 4 && tag < 256 && addr < 2 ^ 40 && 1 ≤ len && len ≤ 64 && status < 4 && data.length == len
  | .bridgeReadCompletion _ source tag status _ => source < 4 && tag < 256 && status < 5
  | .bridgeWriteErrorReport _ source ref status => source < 4 && BridgeRef.ok ref && 1 ≤ status && status < 5
  | .bridgeReadTimeout _ pair => pair < 4
  | .bridgeLogClear _ => true
  | .nmPduReceived _ unit ident _ => 13 ≤ unit && unit < 45 && ident < 2 ^ 32
  | .readySleepExpiry _ unit => 13 ≤ unit && unit < 61
  | .nmCycle _ unit => 13 ≤ unit && unit < 61
  | .lastCallNotSent _ unit _ => 13 ≤ unit && unit < 45
  | .lastCallWindowClose _ unit _ => 13 ≤ unit && unit < 61
  | .busWake _ unit => 13 ≤ unit && unit < 45
  | .maxAwakeExceeded _ unit => 13 ≤ unit && unit < 61
  | .hostNeed _ => true
  | .managementSwitch _ => true
  | .clearIgnoreList _ => true
  | .stateCommandWatch _ => true
  | .stateCommandStandby _ => true
  | .stateCommandPartial _ => true
  | .stateCommandRun _ => true
  | .powerDomainRampEnd _ => true
  | .acknowledgeTimeExpiry _ => true
  | .runReqRise _ => true
  | .runReqFall _ => true
  | .vaonPowerOn _ => true
  | .vaonRemoval _ => true
  | .mainPgRise _ => true
  | .brownout _ => true
  | .referenceValid _ => true
  | .corePllsLocked _ => true
  | .referenceLoss _ => true
  | .resetNAssert _ => true
  | .coreResetRelease _ _ env => BootEnv.ok env
  | .rootReadRetry _ _ env => BootEnv.ok env
  | .identityKeyReady _ => true
  | .droopThresholdCrossing _ step => 1 ≤ step && step ≤ 3
  | .droopStepRecovery _ => true
  | .lockstepMismatch _ pair => pair < 4
  | .pairRestartComplete _ pair => pair < 4
  | .importBlobSet _ => true
  | .importBlobErase _ => true
  | .importBlobSetInClear _ => true
  | .discardStaging _ => true
  | .keyStoreCommit _ => true
  | .keyStoreCommitEnd _ _ => true
  | .attestationChallenge _ => true
  | .identitySignRequest _ => true
  | .slotDerive _ => true
  | .randomHealthFailure _ => true
  | .macsecSaEnable _ => true
  | .activeAnWrite _ => true
  | .macsecEnable _ => true
  | .transferStartFirmware _ => true
  | .transferStartAlmanac _ => true
  | .blockQuarterWrite _ => true
  | .blockCheckValue _ => true
  | .transferVerifyComplete _ => true
  | .transferActivate _ => true
  | .transferAbandon _ => true
  | .trialMinute _ => true
  | .healthConditionsHeld _ => true
  | .confirmWrite _ => true
  | .correctedWriteback _ mem line _ => mem ≤ 8 && line < memoryLines mem
  | .mergeEntryRetire _ mem line _ _ => hasMerge mem && line < memoryLines mem
  | .patrolRead _ mem _ => mem < 8
  | .clearCorrectionTable _ => true
  | .softwareScrubStart _ => true
  | .softwareScrubComplete _ _ => true
  | .testWindowOpen _ => true
  | .rawWrite _ => true
  | .rawRead _ => true
  | .decodeRead _ => true
  | .soundingStart _ mem => mem < 8
  | .soundingBlockEnd _ mem block _ => mem < 8 && block < memoryBlocks mem
  | .saveBufferRelease _ mem => mem < 8
  | .startupSoundingComplete _ tests => tests.all (fun x => x.1 ≤ 8 && x.2.1 < memoryBlocks x.1)
  | .replayStart _ => true
  | .replayFrameSend _ => true
  | .wakeInputRelease _ input _ => input < 4
  | .vbatsenseSample _ mv => mv < 65536
  | .forwardedReplyReceived _ _ _ _ => true
  | .memberAnswerReceived _ member _ status path => decide (member < 4) && decide (status < 65536) && (status == 0 || path.length == 4)

end Sys2Proof
end

