-- ==== Sys2Proof/Safety.lean ====
section
/-! DEFINITION. What a safe run is, and the words in which the statements about the block are written. -/
namespace Sys2Proof.Machine

/-- The device as a command of time `t` finds it: what time alone brings about by then has happened. -/
def State.at (s : State) (t : Nat) : Dev := (s.dev.advance t).catchUp

/-- A command completes: it answers a next state, the waiting commands stay as they are, and the device that its effect leaves, whose events of the cycle are then delivered once no waiting command is of that cycle (R28), has a property. -/
def Completes (c : Instr) (s : State) (p : Dev → Prop) : Prop := ∃ x : Dev, exec c s = .next { s with dev := s.close x } ∧ p x

/-- A command makes the device become `x`, whose events of the cycle are then delivered once no waiting command is of that cycle (R28); the waiting commands stay as they are. -/
def Becomes (c : Instr) (s : State) (x : Dev) : Prop := exec c s = .next { s with dev := s.close x }

/-- In the tick `t` the device is `d`: time has passed up to `t`, and the CORE domain runs. -/
def State.Tick (s : State) (t : Nat) (d : Dev) : Prop := s.at t = d ∧ d.coreOn = true

/-- No waiting command shares the tick of the present one (R11): the next comes at least 1 µs later, the longest tick in which this model looks for an event that suppresses an expiry. -/
def State.Alone (s : State) (d : Dev) : Prop := ∀ c ∈ s.pending.head?, d.lt + 1250 ≤ Instr.time c - d.ltEpoch

/-- Every event that a command has raised has reached the Logbook and the MSI-X logic, unless a waiting command is of its cycle (R28). -/
def State.Delivered (s : State) : Prop := (s.dev.ev.bus = [] ∧ s.dev.ev.arrivals = []) ∨ s.follows s.dev = true

/-- A run of `n` steps ends in a state. -/
def Runs : Nat → State → State → Prop
  | 0, s, e => s = e
  | n + 1, s, e => ∃ m, step s = .next m ∧ Runs n m e

/-- The server serves `q` now: CP0 runs, `q` is the request at the head of the queue, no window and no lease ends before it, and it passes checks 1 to 4. -/
def Dev.serves (d : Dev) (q : Request) : Bool :=
  d.coreOn && d.nextRequest == some q && d.thawLease.dueBefore q.arrived == d && !d.inRom && d.frontCheck q == 0

/-- Objects that the packet number of a message on a stack link with MACsec may change: frames protected and dropped, and the association's next number and exhaustion (R423). -/
def sentField (i s : Nat) : Bool := (i == 0xB100 && (s == 7 || s == 0x0D)) || (i == 0xB110 && (s == 6 || s == 7))

/-- The answer to a request leaves on PCIe, on HS or to the member that forwarded it, not as a frame of a bus or a port. -/
def Request.direct (q : Request) : Bool := q.origin.isSome || (q.svc != .can && q.svc != .udp)

/-- Objects that the answer to a request may change: those of a packet number when another member has forwarded the request, those of the transmit buffers when the answer leaves on CAN or as a frame. -/
def Request.answerField (q : Request) (i s : Nat) : Bool :=
  if q.origin.isSome then sentField i s else (q.svc == .can || q.svc == .udp) && (i == 0x6020 || i == 0x6030)

/-- The server's next request is a WRITE of kind `k` to one unit `u` of this member alone that passes every check of Table 2.5; `o` is the row of the object. -/
def Dev.takesWrite (d : Dev) (q : Request) (o : ObjRow) (k : WriteKind) (u : Nat) : Bool :=
  d.serves q && recOp q.bytes == 2 && writeKind q.bytes == k &&
    d.objectCheck q.bytes true == 0 && findRow (recIndex q.bytes) (recSub q.bytes) == some o && lengthCheck q.bytes o.ty.size == 0 &&
    d.pathMembers q.bytes == [d.stackId] && addressedUnits o q.bytes == [u] &&
    (d.countRequest q).unitCheck o (recIndex q.bytes) (recSub q.bytes) u (recRecord q.bytes) (beNat (recData q.bytes)) (q.svc == .pcie || q.svc == .hs) == 0

/-- Objects that the delivery of an event may change: the Logbook's counts, the recorder's state, and the MSI-X counts (R336, R471, R472). -/
def deliveryField (i s : Nat) : Bool :=
  (i == 0xD000 && (s == 2 || s == 3)) || (i == 0xD020 && s == 5) || (i == 0x9001 && s == 1) || (i == 0x9000 && s == 0x0A)

/-- The device on which an accepted write acts: the request is counted, the stack write sequence number rises, the write is recorded and committed to the other members, and the request waits for its answer. -/
def Dev.writeBase (d : Dev) (q : Request) (o : ObjRow) : Dev :=
  let ms := [d.stackId]
  let d := d.countRequest q
  let seq := (d.obj 0x9400 0x07 + 1) % 2 ^ 32
  let d := (d.set 0x9400 0x07 seq).recordWrite o q.bytes ms seq
  (d.presentOthers.foldl (fun d m => d.sendTo m (.commit m seq ms q.bytes)) (d.set 0x9401 0x04 seq 0 d.stackId)).almUpd fun x => { x with waiting := true, stackWrite := none }

/-- After the answer to a write the device reads as `y` in every object, and equals it in every part but the service's and the record of events. An answer that leaves as a frame also loads a buffer of its CAN channel, or waits among the frames of the fabric; one that goes to the member which forwarded the request may take a packet number. -/
def Dev.LeftBy (x : Dev) (q : Request) (y : Dev) : Prop :=
  (∀ i s u r, i < 65536 → s < 256 → q.answerField i s = false → x.obj i s u r = y.obj i s u r) ∧
    { x with store := [], ev := {}, outbox := [], alm := {}, chans := [], fab := {}, bin := {} } =
      { y with store := [], ev := {}, outbox := [], alm := {}, chans := [], fab := {}, bin := {} } ∧
    (q.direct = true → x.chans = y.chans ∧ x.fab = y.fab) ∧ (q.origin = none → x.bin = y.bin)

/-- After an accepted write the device is what its effect `f` leaves, and the answer beside it. -/
def Dev.Wrote (d : Dev) (q : Request) (o : ObjRow) (f : Dev → Dev) (x : Dev) : Prop := x.LeftBy q (f (d.writeBase q o))

/-- The value of a write. -/
def Request.value (q : Request) : Nat := beNat (recData q.bytes)

/-- The record of a write. -/
def Request.record (q : Request) : Nat := recRecord q.bytes

end Sys2Proof.Machine
end

