-- ==== Sys2Proof/Certificates/Slice0/Obligations.lean ====
section
/-! DEFINITION. The statements about the block, one for each group of commands and one kind of state. -/
open Sys2Proof Sys2Proof.Machine

/-- One step of the block: the command at the front of the queue runs on the state with the queue's rest; with no command waiting the block idles. The model's choices in it: log entry 3. -/
def Obligations.StepRunsTheFront : Prop :=
  ∀ (s : State) (c : Instr) (l : List Instr), step { s with pending := c :: l } = exec c { s with pending := l } ∧ step { s with pending := [] } = .next { s with pending := [] }

/-- Every command whose operands name something that there is gives a next state with the waiting commands as they were, whatever the state; one whose operands name nothing faults, the one stop of this block; nothing is refused. The model's choices in it: log entries 2, 6. -/
def Obligations.EveryCommandCompletes : Prop :=
  ∀ (s : State) (c : Instr),
    (c.wf = true → Completes c s fun _ => True) ∧
    (c.wf = false → exec c s = .fault .illFormed) ∧
    (∀ r : Refusal, exec c s ≠ .refused r) ∧
    (∀ x : State, exec c s = .next x → x.pending = s.pending ∧ c.wf = true)

/-- After CORE reset no event waits for its delivery. The model's choices in it: log entry 7. -/
def Obligations.ResetDelivered : Prop := State.reset.Delivered ∧ State.reset.pending = [] ∧ State.reset.dev.coreOn = true ∧ State.reset.dev.now = 0

/-- The events of a cycle are delivered with the last waiting command of it (R28): from every state in which an event waits only for commands of its cycle, a step that gives a next state gives one of that kind. The model's choices in it: log entry 16. -/
def Obligations.DeliveredIsKept : Prop := ∀ s x : State, s.Delivered → step s = .next x → x.Delivered

/-- A queue of commands whose operands are in order runs to its end: a run of as many steps as commands wait ends with an empty queue. The model's choices in it: log entries 2, 6. -/
def Obligations.QueueRunsOut : Prop := ∀ s : State, s.pending.all Instr.wf = true → ∃ e : State, Runs s.pending.length s e ∧ e.pending = []

/-- A request over PCIe, HS, UDP, CAN or from another member joins the server's queue with its service, its source and its arrival (R48, R50, R51, R52, R333), as long as this member is the lead and the queue has room; a request of the queue of a lead that has changed goes ahead of the requests of this member (R356). Nothing else changes, but that an access of the host shows the function to be in D0. HS commands (Table 13.2): the next waiting record with its code, or the code of none; EVENT_CAUSE and HS_MASK as 8 bytes, most significant first; a new mask; and 0xFF for the rest of the assertion, counted, for any other command. Nothing else changes. The model's choices in it: log entries 19, 29, 37, 150, 151, 152, 212, 213. -/
def Obligations.ServerInputs : Prop :=
  (∀ (s : State) (t : Nat) (d : Dev), s.Tick t d → d.isLead = true → d.alm.queue.length < 64 →
    (∀ (len : Nat) (req : Bytes), 20 ≤ len → len ≤ 1044 → len ≤ req.length → req.length ≤ 2048 → d.obj 0x9000 0x01 = 2 → d.alm.busyAt ≠ some d.now →
      Becomes (.almDoorbell t len req) s (d.inD0.almUpd fun x => { x with busyAt := some d.now, queue := x.queue ++
        [{ svc := .pcie, src := .host d.stackId, arrived := d.now, bytes := req.take len, origin := none, xl := d.obj 0x6010 0x02 (uC (d.obj 0x1040 0x04)) == 2 }] })) ∧
    (∀ req : Bytes, d.flag 0x1040 0x06 = true →
      Becomes (.hsRequest t req) s (d.almUpd fun x => { x with queue := x.queue ++
        [{ svc := .hs, src := .host d.stackId, arrived := d.now, bytes := req, origin := none, xl := d.obj 0x6010 0x02 (uC (d.obj 0x1040 0x04)) == 2 }] })) ∧
    (∀ (src : UdpEnd) (req : Bytes), d.flag 0x1040 0x01 = true → src.dport = d.obj 0x1040 0x02 → src.vid = d.obj 0x1040 0x03 →
      Becomes (.udpRequest t src req) s (d.almUpd fun x => { x with queue := x.queue ++
        [{ svc := .udp, src := .udp src.addr src.port, arrived := d.now, bytes := req, origin := none, xl := d.obj 0x6010 0x02 (uC (d.obj 0x1040 0x04)) == 2 }] })) ∧
    (∀ (ch ident : Nat) (req : Bytes), ch < 24 → d.obj 0x1040 0x04 = ch → d.obj 0x1040 0x05 = ident →
      d.obj 0x6010 0x04 (uC ch) ≠ 0 → d.obj 0x6010 0x04 (uC ch) ≠ 5 →
      Becomes (.canServiceRequest t ch ident req) s (d.almUpd fun x => { x with queue := x.queue ++
        [{ svc := .can, src := .can ch ident, arrived := d.now, bytes := req, origin := none, xl := d.obj 0x6010 0x02 (uC (d.obj 0x1040 0x04)) == 2 }] })) ∧
    (∀ (origin : Forwarded) (svc : Service) (src : Source) (req : Bytes), origin.member < 4 →
      let q : Request := { svc := svc, src := src, arrived := d.now, bytes := req, origin := if origin.member = d.stackId then none else some origin.member, xl := origin.xl, old := origin.old }
      Becomes (.stackForwardedRequest t origin svc src req) s (d.almUpd fun x => { x with queue := d.enqueue q }) ∧
      (origin.old = false → d.enqueue q = d.alm.queue ++ [q]) ∧
      (origin.old = true → d.alm.waiting = false → (∀ x ∈ d.alm.queue, x.old = false) → d.enqueue q = q :: d.alm.queue))) ∧
  (∀ (s : State) (t : Nat) (d : Dev), s.Tick t d →
    (∀ (r : Bytes) (l : List Bytes), d.alm.hsReplies = r :: l →
      Becomes (.hsReplyFetch t) s ((d.almUpd fun x => { x with hsReplies := l }).out (.hs (0x01 :: r)))) ∧
    (d.alm.hsReplies = [] → Becomes (.hsReplyFetch t) s (d.out (.hs [0x00]))) ∧
    Becomes (.hsEventCauseRead t) s (d.out (.hs (beBytes 8 d.ev.cause.toNat))) ∧
    Becomes (.hsMaskRead t) s (d.out (.hs (beBytes 8 d.ev.hsMask.toNat))) ∧
    (∀ m : BitVec 64, Becomes (.hsMaskWrite t m) s (d.evUpd fun x => { x with hsMask := m })) ∧
    (∀ c : HsUnknown, c.cmd.toNat ∉ [0x5A, 0xA5, 0x3C, 0xC3, 0x69, 0x96] →
      Becomes (.hsUnknownCommand t c) s ((d.inc 0x9002 0x02).out (.hs (List.replicate c.rest 0xFF)))))

/-- A host's acknowledgement of a reply, a forwarded reply, which raises the cause of an event where it carries one, and after which a write of the services that this member forwarded takes effect here (R334, R52, R53, R65). A cause is set, and its message sent, held back by the mask, or merged into a cause already set (R336). The model's choices in it: log entries 28, 37, 38, 81, 186, 187. -/
def Obligations.RepliesCausesAndMessages : Prop :=
  (∀ (s : State) (t : Nat) (d : Dev), s.Tick t d →
    (d.obj 0x9000 0x01 = 2 → d.alm.replyQueue = [] → Becomes (.almAck t) s (d.inD0.almUpd fun x => { x with reply := none })) ∧
    (∀ (r : Bytes) (l : List (Bytes × Bool)), d.obj 0x9000 0x01 = 2 → d.alm.replyQueue = (r, false) :: l →
      Becomes (.almAck t) s ((d.inD0.almUpd fun x => { x with reply := some r, replyQueue := l }).signal 0)) ∧
    (∀ (r : Bytes) (l : List (Bytes × Bool)), d.obj 0x9000 0x01 = 2 → d.alm.replyQueue = (r, true) :: l →
      Becomes (.almAck t) s (((d.inD0.almUpd fun x => { x with reply := some r, replyQueue := l }).signal 0).signal 1)) ∧
    (∀ (src : Source) (r : Bytes), recOp r ≠ 7 → Becomes (.forwardedReplyReceived t .hs src r) s ((d.almUpd fun x => { x with hsReplies := x.hsReplies ++ [r] }).settingDue r)) ∧
    (∀ (src : Source) (r : Bytes), recOp r = 7 → Becomes (.forwardedReplyReceived t .hs src r) s (((d.almUpd fun x => { x with hsReplies := x.hsReplies ++ [r] }).signal 1).settingDue r)) ∧
    (∀ (a p : Nat) (r : Bytes), Becomes (.forwardedReplyReceived t .udp (.udp a p) r) s (((d.out (.record .udp (.udp a p) r)).offerChart (d.udpFrame a p r)).settingDue r)) ∧
    (∀ (src : Source) (r : Bytes), Becomes (.forwardedReplyReceived t .can src r) s
      ((d.almUpd fun x => { x with canOut := x.canOut ++ [(d.obj 0x1040 0x04, d.obj 0x1040 0x07, r)] }).canPump.settingDue r)) ∧
    (∀ (src : Source) (r : Bytes), recOp r ≠ 7 → d.alm.reply = none →
      Becomes (.forwardedReplyReceived t .pcie src r) s (((d.almUpd fun x => { x with reply := some r }).signal 0).settingDue r)) ∧
    (∀ (src : Source) (r : Bytes) (a : Bytes), d.alm.reply = some a →
      Becomes (.forwardedReplyReceived t .pcie src r) s ((d.almUpd fun x => { x with replyQueue := x.replyQueue ++ [(r, recOp r == 7)] }).settingDue r)) ∧
    (∀ r : Bytes, (∀ x ∈ d.alm.settings, answersSetting r x = false) → d.settingDue r = d) ∧
    (∀ (r b : Bytes) (c : Bool) (l : List (Bytes × Bool)) (o : ObjRow), d.alm.settings = (b, c) :: l → answersSetting r (b, c) = true → findRow (recIndex b) (recSub b) = some o →
      let e := d.almUpd fun a => { a with settings := l }
      d.settingDue r = if c then e.applyUnits o b else e)) ∧
  (∀ (d : Dev) (v : Nat), v < 64 →
    (d.raise v).ev.cause = d.ev.cause ||| BitVec.ofNat 64 (2 ^ v) ∧
    (d.ev.cause.getLsbD v = true → d.raise v = (d.evUpd fun x => { x with cause := d.ev.cause ||| BitVec.ofNat 64 (2 ^ v) })) ∧
    (d.ev.cause.getLsbD v = false → d.ev.msixMask.getLsbD v = true → (d.raise v).outbox = d.outbox ∧ (d.raise v).ev.pba = d.ev.pba ||| BitVec.ofNat 64 (2 ^ v)) ∧
    (d.ev.cause.getLsbD v = false → d.ev.msixMask.getLsbD v = false → (d.raise v).outbox = .msix v (tget (fun _ => (0, 0)) d.ev.targets v).1 (tget (fun _ => (0, 0)) d.ev.targets v).2 :: d.outbox ∧ (d.raise v).ev.pba = d.ev.pba ∧
      (d.raise v).obj 0x9001 0x01 0 v = (d.obj 0x9001 0x01 0 v + 1) % 2 ^ 32))

/-- Commands on the event registers (R28, R335, R336, R332): an event of another source enters the event bus; clears, and writes of the mask and of an entry of the MSI-X table; a bit that arrives in the cycle of a clear is set after it; a write that nothing takes is counted. No object changes but the counts of R336 and R471, and A:9000.09 where it counts. The PCIe link and the endpoint's resets (R331, R345, R488). The model's choices in it: log entries 38, 39, 40, 41, 223, 224, 225. -/
def Obligations.EndpointCommands : Prop :=
  (∀ (s : State) (t : Nat) (d : Dev), s.Tick t d →
    (∀ e : ExtEvent, e.source < 256 → e.code < 65536 → e.path.length = 4 → e.data.length ≤ 12 → (∀ v, e.vector = some v → v < 22) →
      Becomes (.eventBusEvent t e) s (d.onBus { lt := d.lt, source := e.source, vector := e.vector, code := .code e.code, path := e.path, data := e.data })) ∧
    (∀ m : BitVec 64, m.getLsbD 2 = false → m.getLsbD 3 = false →
      Becomes (.hsEventCauseClear t m) s (d.evUpd fun x => { x with cause := d.ev.cause &&& ~~~m })) ∧
    (∀ m : BitVec 64, Completes (.hsEventCauseClear t m) s fun x => x.ev = { d.ev with cause := d.ev.cause &&& ~~~m }) ∧
    (∀ m : BitVec 64, d.obj 0x9000 0x01 = 2 → m.getLsbD 2 = false → m.getLsbD 3 = false →
      Becomes (.eventCauseClear t m 0) s (d.inD0.evUpd fun x => { x with cause := d.ev.cause &&& ~~~m })) ∧
    (∀ (m : BitVec 64) (v : Nat), v < 22 → d.obj 0x9000 0x01 = 2 →
      Completes (.eventCauseClear t m (BitVec.ofNat 64 (2 ^ v))) s fun x => x.ev.cause = d.ev.cause &&& ~~~m ∧ x.ev.arrivals = d.ev.arrivals ++ [v]) ∧
    (∀ m : BitVec 64, d.obj 0x9000 0x01 = 2 → Becomes (.hsMaskBarWrite t m) s (d.inD0.evUpd fun x => { x with hsMask := m })) ∧
    (∀ v a w : Nat, v < 64 → d.obj 0x9000 0x01 = 2 →
      Becomes (.msixUnmask t { vector := v, masked := true, address := a, data := w }) s (d.inD0.evUpd fun x =>
        { x with targets := tput (fun _ => (0, 0)) d.ev.targets v (a, w), msixMask := d.ev.msixMask ||| BitVec.ofNat 64 (2 ^ v) })) ∧
    (∀ v a w : Nat, v < 64 → d.obj 0x9000 0x01 = 2 → d.ev.pba.getLsbD v = false →
      Becomes (.msixUnmask t { vector := v, masked := false, address := a, data := w }) s (d.inD0.evUpd fun x => { x with targets := tput (fun _ => (0, 0)) d.ev.targets v (a, w), msixMask := d.ev.msixMask &&& ~~~ BitVec.ofNat 64 (2 ^ v), pba := d.ev.pba &&& ~~~ BitVec.ofNat 64 (2 ^ v) })) ∧
    (∀ v a w : Nat, v < 64 → d.obj 0x9000 0x01 = 2 → d.ev.pba.getLsbD v = true →
      Completes (.msixUnmask t { vector := v, masked := false, address := a, data := w }) s fun x => x.outbox = .msix v a w :: d.outbox ∧
        x.ev.pba.getLsbD v = false ∧ x.ev.msixMask.getLsbD v = false ∧ x.ev.cause = d.ev.cause) ∧
    (∀ bar offset : Nat, (bar = 0 ∧ offset < 65536) ∨ (bar = 2 ∧ offset < 262144) → barWritable bar offset = false → d.obj 0x9000 0x01 = 2 →
      Becomes (.barIgnoredWrite t bar offset) s (d.inD0.inc 0x9000 0x09)) ∧
    (d.obj 0x9000 0x01 ≠ 2 → ∀ (m : BitVec 64) (v : MsixEntry) (len : Nat) (req : Bytes), v.vector < 64 → len < 2048 → min len 1044 ≤ req.length → req.length ≤ 2048 →
      Becomes (.hsMaskBarWrite t m) s d ∧ Becomes (.eventCauseClear t m 0) s d ∧ Becomes (.msixUnmask t v) s d ∧ Becomes (.almAck t) s d ∧ Becomes (.almDoorbell t len req) s d)) ∧
  (∀ (s : State) (t : Nat) (d : Dev), s.Tick t d →
    (∀ speed width : Nat, 1 ≤ speed → speed ≤ 4 → width = 1 ∨ width = 2 → d.obj 0x9000 0x01 ≠ 2 →
      Completes (.pcieLinkUp t speed width) s fun x =>
        x.obj 0x9000 0x01 = 2 ∧ x.obj 0x9000 0x02 = min speed (d.obj 0x9000 0x41) ∧ x.obj 0x9000 0x03 = width ∧ x.obj 0x9000 0x04 = (d.obj 0x9000 0x04 + 1) % 2 ^ 32) ∧
    (d.obj 0x9000 0x01 = 2 → Completes (.pcieLinkDown t) s fun x =>
        x.obj 0x9000 0x01 = 0 ∧ x.obj 0x9000 0x02 = 0 ∧ x.obj 0x9000 0x03 = 0 ∧ x.obj 0x9000 0x05 = (d.obj 0x9000 0x05 + 1) % 2 ^ 32 ∧
        ∀ f, f < 64 → (x.fifo f).visible = [] ∧ (x.fifo f).part = none ∧ (x.fifo f).opened = none ∧ x.obj 0x9010 0x13 0 f = 0) ∧
    (d.obj 0x9000 0x01 ≠ 2 → Becomes (.pcieLinkUp t 0 0) s (d.set 0x9000 0x01 1) ∧ Becomes (.pcieLinkDown t) s (d.set 0x9000 0x01 0)) ∧
    (d.obj 0x9000 0x01 = 2 → Becomes (.functionLevelReset t) s (d.inD0.inc 0x9000 0x06).functionReset) ∧
    (d.obj 0x9000 0x01 = 2 → Becomes (.d3hotEntry t) s (d.functionReset.evUpd fun x => { x with d3hot := true })) ∧
    (d.functionReset.ev.msixMask = BitVec.allOnes 64 ∧ d.functionReset.ev.pba = 0 ∧ d.functionReset.ev.targets = [] ∧ d.functionReset.ev.cause = d.ev.cause ∧
      d.functionReset.ev.hsMask = d.ev.hsMask ∧ d.functionReset.ev.log = d.ev.log) ∧
    (∀ f, f < 64 → (d.functionReset.fifo f).visible = [] ∧ (d.functionReset.fifo f).part = none ∧ (d.functionReset.fifo f).opened = none ∧
      d.functionReset.obj 0x9010 0x13 0 f = 0 ∧
      d.functionReset.obj 0x9010 0x0D 0 f = (d.obj 0x9010 0x0D 0 f + (d.fifo f).visible.length + b2n (d.fifo f).part.isSome + b2n (d.fifo f).opened.isSome) % 2 ^ 32))

/-- Items that the host writes to a FIFO (R342, R343): discarded and counted on a to-host or disabled FIFO; a header opens a packet, data items join it, an end item closes it, and the packet is checked as it closes. Packets between the FIFOs and the fabric (R338, R341, R346, R347, R349): the oldest frame at FP8 becomes a packet of its FIFO; the host's next packet is read as frames of record 22, as a container of the Rose, or is discarded when an item fails its parity; nothing moves while the fabric is off, to the host while the PCIe link is down, or from the host while the cells of the packet before have not all entered (R117). The model's choices in it: log entries 43, 44, 45, 47, 223. -/
def Obligations.FifoPackets : Prop :=
  (∀ (s : State) (t : Nat) (d : Dev) (f : Nat) (i : BitVec 64) (l : List (BitVec 64)), s.Tick t d → f < 64 → 1 ≤ l.length → l.length ≤ 32 →
    let e := d.inD0
    (d.fifoOn f = false ∨ d.fifoToHost f = true →
      Becomes (.fifoHeadWrite t f i) s (e.inc 0x9010 0x0F 0 f) ∧ Becomes (.fifoDataWrite t f l) s (e.inc 0x9010 0x0F 0 f l.length) ∧
      Becomes (.fifoEndWrite t f i) s (e.inc 0x9010 0x0F 0 f)) ∧
    (d.fifoOn f = true → d.fifoToHost f = false →
      ((d.fifo f).opened = none →
        Becomes (.fifoDataWrite t f l) s (e.inc 0x9010 0x0E 0 f) ∧ Becomes (.fifoEndWrite t f i) s (e.inc 0x9010 0x0E 0 f) ∧
        (d.fifoFree f = 0 → Becomes (.fifoHeadWrite t f i) s (((e.inc 0x9010 0x0F 0 f).setFifo f { d.fifo f with opened := some ([], true) }).fifoSettle e f)) ∧
        ((d.fifo f).count < d.obj 0x9010 0x04 0 f → Becomes (.fifoHeadWrite t f i) s ((e.setFifo f { d.fifo f with opened := some ([i], false) }).fifoSettle e f))) ∧
      (∀ (its : List (BitVec 64)) (lost : Bool), (d.fifo f).opened = some (its, lost) →
        ((d.fifo f).count < d.obj 0x9010 0x04 0 f →
          Becomes (.fifoHeadWrite t f i) s (((e.inc 0x9010 0x0E 0 f).setFifo f { d.fifo f with opened := some ([i], false) }).fifoSettle e f)) ∧
        (l.length ≤ d.fifoFree f → Becomes (.fifoDataWrite t f l) s ((e.setFifo f { d.fifo f with opened := some (its ++ l, lost) }).fifoSettle e f)) ∧
        (d.fifoFree f = 0 → Becomes (.fifoDataWrite t f [i]) s (((e.inc 0x9010 0x0F 0 f).setFifo f { d.fifo f with opened := some (its, true) }).fifoSettle e f)) ∧
        (0 < d.fifoFree f → lost = false → packetGood (its ++ [i]) = true →
          Becomes (.fifoEndWrite t f i) s (((e.setFifo f { d.fifo f with opened := none, visible := (d.fifo f).visible ++
            [{ prio := headerPrio ((its ++ [i]).getD 0 0), items := its ++ [i] }] }).inc64 0x9010 0x0B 0 f).fifoSettle e f)) ∧
        (0 < d.fifoFree f → lost = true ∨ packetGood (its ++ [i]) = false →
          Becomes (.fifoEndWrite t f i) s (((e.setFifo f { d.fifo f with opened := none }).inc 0x9010 0x0E 0 f).fifoSettle e f))))) ∧
  (∀ (s : State) (t : Nat) (d : Dev), s.Tick t d →
    (∀ (fr : Frame) (l : List Frame), d.fab.toHost = fr :: l → d.dataOn = true → d.obj 0x9000 0x01 = 2 → fr.hostFifo = none → fr.oversize = false → fr.badFcs = false →
      d.fifoOn (d.hostFifoOf fr) = true → d.fifoToHost (d.hostFifoOf fr) = true →
      let n := d.hostFifoOf fr
      let bytes := fr.data ++ fcsOf fr.data
      let items := dataItems bytes.length bytes
      items.length + 1 ≤ d.fifoFree n →
      Becomes (.fifoPacketToHost t) s ((((d.fabUpd fun y => { y with toHost := l }).setFifo n { d.fifo n with
        visible := (d.fifo n).visible ++ [{ prio := fr.cls, items := headerItem fr.smem fr.sport (d.fifo n).seq fr.cls bytes.length false false :: items }],
        seq := ((d.fifo n).seq + 1) % 65536 }).inc64 0x9010 0x0B 0 n).fifoSettle d n)) ∧
    (d.dataOn = false ∨ d.obj 0x9000 0x01 ≠ 2 ∨ d.fab.toHost = [] → Becomes (.fifoPacketToHost t) s d) ∧
    (d.dataOn = false ∨ d.hostFree = false ∨ d.nextFromHost = none → ∀ bad : Nat, Becomes (.fifoPacketFromHost t bad) s d) ∧
    (∀ (f bad : Nat) (p : Packet) (rest : List Packet), d.dataOn = true → d.hostFree = true → d.nextFromHost = some (f, p, rest) →
      let y := { ((d.setFifo f { d.fifo f with visible := rest }).inc64 0x9010 0x0C 0 f).fifoSettle d f with fifoTurn := f }
      let b := (itemBytes (p.items.drop 1)).take (headerLength (p.items.getD 0 0))
      (0 < bad → Becomes (.fifoPacketFromHost t bad) s (y.inc 0x9010 0x10 0 f (min bad p.items.length))) ∧
      (y.obj 0x9010 0x03 0 f = 2 → Becomes (.fifoPacketFromHost t 0) s (y.offerRose f p.prio b)) ∧
      (y.obj 0x9010 0x03 0 f ≠ 2 → Becomes (.fifoPacketFromHost t 0) s (y.offerFromHost b ((p.items.getD 0 0).getLsbD 24)))))

/-- A read of a FIFO at a packet boundary when COUNT is 0 gives idle items, is counted and takes nothing; a read inside a packet, where no header would stand, gives the packet's next item (R340). -/
def Obligations.IdleItems : Prop :=
  idleItem = 0x7F00000000000000 ∧
  ∀ (s : State) (t : Nat) (d : Dev) (f n : Nat), s.Tick t d → f < 64 → 0 < n →
    ((d.fifo f).part = none → (d.fifo f).visible = [] → Completes (.fifoPopRead t f { bytes := 8 * n } []) s fun x =>
      x.outbox = .popped f (List.replicate n idleItem) :: d.outbox ∧ x.obj 0x9010 0x11 0 f = (d.obj 0x9010 0x11 0 f + 1) % 2 ^ 32 ∧
      (x.fifo f).visible = [] ∧ (x.fifo f).part = none ∧ (x.fifo f).opened = (d.fifo f).opened) ∧
    (∀ p : Packet, d.fifoOn f = true → d.fifoToHost f = true → (d.fifo f).part = some p → 0 < p.read → p.read < p.items.length →
      Completes (.fifoPopRead t f { bytes := 8 } []) s fun x => x.outbox = .popped f [p.items.getD p.read idleItem] :: d.outbox ∧ x.obj 0x9010 0x11 0 f = d.obj 0x9010 0x11 0 f)

/-- Reads that give no item of the FIFO (an Unsupported Request, a Completer Abort, an idle or absent FIFO), and the read of one item in read order (R332, R339, R342). Flush and coalescing of a FIFO (R344, R345). The model's choices in it: log entries 42, 43, 46, 223, 225. -/
def Obligations.FifoReadsAndFlush : Prop :=
  (∀ (s : State) (t : Nat) (d : Dev) (f : Nat), s.Tick t d → f < 64 →
    let e := d.inD0
    (∀ r : PopRead, popWhole r = false → Becomes (.fifoPopRead t f r []) s (e.inc 0x9000 0x08)) ∧
    (∀ r : PopRead, popWhole r = true → r.abort = true → Becomes (.fifoPopRead t f r []) s (e.inc 0x9000 0x07)) ∧
    (∀ n : Nat, 0 < n → d.fifoOn f = false ∨ d.fifoToHost f = false →
      Becomes (.fifoPopRead t f { bytes := 8 * n } []) s ((e.inc 0x9010 0x11 0 f).out (.popped f (List.replicate n idleItem)))) ∧
    (∀ (p : Packet) (r : List Packet), d.fifoOn f = true → d.fifoToHost f = true → (d.fifo f).part = none → nextPacket (d.fifo f).visible = some (p, r) → p.read = 0 →
      2 ≤ p.items.length → 0 < (d.fifo f).count →
      Becomes (.fifoPopRead t f { bytes := 8 } []) s (((e.setFifo f { d.fifo f with visible := r, part := some { p with read := 1 }, poisoned := false }).out (.popped f [p.items.getD 0 idleItem])).fifoSettle e f)) ∧
    (∀ p : Packet, d.fifoOn f = true → d.fifoToHost f = true → (d.fifo f).part = some p → p.read + 1 = p.items.length → 0 < p.read →
      Becomes (.fifoPopRead t f { bytes := 8 } []) s ((((e.setFifo f { d.fifo f with part := none }).inc64 0x9010 0x0C 0 f).out (.popped f [p.items.getD p.read idleItem])).fifoSettle e f))) ∧
  (∀ (s : State) (t : Nat) (d : Dev) (f : Nat), s.Tick t d → f < 64 →
    Becomes (.fifoFlushWrite t f) s (d.inD0.set 0x9010 0x13 1 0 f) ∧
    (d.flag 0x9010 0x13 0 f = true → (d.fifo f).part = none → (d.fifo f).opened = none →
      Completes (.fifoFlushTakesEffect t f) s fun x => (x.fifo f).visible = [] ∧ (x.fifo f).part = none ∧ (x.fifo f).opened = none ∧ x.obj 0x9010 0x13 0 f = 0 ∧
        x.obj 0x9010 0x0D 0 f = (d.obj 0x9010 0x0D 0 f + (d.fifo f).visible.length) % 2 ^ 32) ∧
    (d.flag 0x9010 0x13 0 f = false ∨ (d.fifo f).part.isSome = true ∨ (d.fifo f).opened.isSome = true → Becomes (.fifoFlushTakesEffect t f) s d) ∧
    (∀ t0 : Nat, (d.fifo f).timer = some t0 → d.obj 0x9010 0x06 0 f ≠ 0 → t0 + d.obj 0x9010 0x06 0 f * perUs ≤ d.now → 0 < (d.fifo f).count →
      (d.fifo f).count < d.obj 0x9010 0x05 0 f → s.Alone d →
      Becomes (.fifoCoalescingExpiry t f) s (((d.setFifo f { d.fifo f with timer := none }).signal (8 + f)).inc 0x9010 0x12 0 f)) ∧
    ((d.fifo f).timer = none → s.Alone d → Becomes (.fifoCoalescingExpiry t f) s d))

/-- A request that fails one of checks 1 to 4 is counted and answered with the code of the first that fails; nothing else changes (R47, R49, R511). What a READ of one unit of this member returns and what it leaves (R46): the value as the type's bytes; a READ to a WO object, an absent object or an absent record is answered with its code, and a value that no reply of the service can carry with S-0404. No object changes but the request's count, those of the CAN service's buffer where the answer leaves as a frame, and those of a packet number where it goes to the member that forwarded the request over a link with MACsec. The model's choices in it: log entries 19, 20, 21, 54. -/
def Obligations.RefusalsAndReads : Prop :=
  (∀ (s : State) (t : Nat) (d : Dev) (q : Request), s.Tick t d → d.nextRequest = some q → d.thawLease.dueBefore q.arrived = d → d.inRom = false → d.frontCheck q ≠ 0 →
    let x := (d.countRequest q).finish (d.frontCheck q)
    (recOp q.bytes < 2 ∨ 6 < recOp q.bytes → Becomes (.read t [] false) s x) ∧
    (recOp q.bytes = 2 → writeKind q.bytes = .plain → Becomes (.write t false) s x) ∧
    (recOp q.bytes = 3 → Becomes (.claim t) s x) ∧ (recOp q.bytes = 4 → Becomes (.renew t) s x) ∧
    (recOp q.bytes = 5 → Becomes (.release t) s x) ∧ (recOp q.bytes = 6 → Becomes (.handover t) s x)) ∧
  (∀ (s : State) (t : Nat) (d : Dev) (q : Request), s.Tick t d → d.serves q = true → recOp q.bytes = 1 →
    (∀ (o : ObjRow) (u : Nat), d.objectCheck q.bytes false = 0 → lengthCheck q.bytes 0 = 0 → findRow (recIndex q.bytes) (recSub q.bytes) = some o → exactPath o q.bytes = true →
      d.pathMembers q.bytes = [d.stackId] → addressedUnits o q.bytes = [u] → o.ty.size ≤ q.room →
      Becomes (.read t [] false) s ((d.countRequest q).finish 0 (beBytes o.ty.size ((d.countRequest q).read (recIndex q.bytes) (recSub q.bytes) u (recRecord q.bytes))))) ∧
    (∀ (o : ObjRow) (u : Nat), d.objectCheck q.bytes false = 0 → lengthCheck q.bytes 0 = 0 → findRow (recIndex q.bytes) (recSub q.bytes) = some o → exactPath o q.bytes = true →
      d.pathMembers q.bytes = [d.stackId] → addressedUnits o q.bytes = [u] → q.room < o.ty.size → Becomes (.read t [] false) s ((d.countRequest q).finish 0x404)) ∧
    (d.objectCheck q.bytes false ≠ 0 → Becomes (.read t [] false) s ((d.countRequest q).finish (d.objectCheck q.bytes false))) ∧
    Becomes (.read t [] true) s ((d.countRequest q).finish (if d.objectCheck q.bytes false ≠ 0 then d.objectCheck q.bytes false else if lengthCheck q.bytes 0 ≠ 0 then lengthCheck q.bytes 0 else 0x504)) ∧
    (∀ x : Dev, (∃ c b, x = (d.countRequest q).finish c b) → x.alm.queue = d.alm.queue.drop 1 ∧
      (∀ i s u r, i < 65536 → s < 256 → q.answerField i s = false → i ≠ 0x1041 → x.obj i s u r = d.obj i s u r)))

/-- An accepted write of an object without a row of its own (R47): the write takes the effect of its object, which in a store-only area is that the object holds the value, and leaves the rest as that effect leaves it; before it the request is counted, the stack write sequence number rises and the write is recorded. The model's choices in it: log entries 19, 33, 115. -/
def Obligations.PlainWrites : Prop :=
  ∀ (s : State) (t : Nat) (d : Dev) (q : Request) (o : ObjRow) (u : Nat), s.Tick t d → d.takesWrite q o .plain u = true →
    Becomes (.write t true) s ((d.countRequest q).finish 0x504) ∧
    (recIndex q.bytes ≠ 0x1040 → recIndex q.bytes ≠ 0x1020 → ¬ (recIndex q.bytes = 0xA000 ∧ recSub q.bytes = 0x01) → Completes (.write t false) s (d.Wrote q o fun y => y.apply (recIndex q.bytes) (recSub q.bytes) u q.record q.value)) ∧
    (recIndex q.bytes = 0x1011 → Completes (.write t false) s (d.Wrote q o fun y => y.set 0x1011 (recSub q.bytes) q.value 0 q.record)) ∧
    (recIndex q.bytes = 0x9020 → Completes (.write t false) s (d.Wrote q o fun y => y.set 0x9020 (recSub q.bytes) q.value 0 q.record)) ∧
    (recIndex q.bytes = 0x2010 → recSub q.bytes = 0x01 → Completes (.write t false) s (d.Wrote q o fun y => y.set 0x2010 0x01 q.value 0 q.record)) ∧
    (∀ i s u r, i < 65536 → s < 256 → i ≠ 0x1041 → ¬ (i = 0x9400 ∧ s = 0x07) → ¬ (i = 0x9401 ∧ s = 0x04) → sentField i s = false → (d.writeBase q o).obj i s u r = d.obj i s u r) ∧
    (d.writeBase q o).obj 0x9400 0x07 = (d.obj 0x9400 0x07 + 1) % 2 ^ 32 ∧ (d.writeBase q o).obj 0x9401 0x04 0 d.stackId = (d.obj 0x9400 0x07 + 1) % 2 ^ 32

/-- The owner's RENEW restarts its lease at one second from the arrival; its RELEASE leaves the device unowned with every gate clear; its HANDOVER passes ownership with a new lease (R60, R63, R44). CLAIM of a host (R55 to R58): the first opens the election window, a later one of the window takes part, the owner's renews its lease, another's is refused with S-0203; a source that matches no record gets S-0209. The model's choices in it: log entries 19, 22, 23, 24. -/
def Obligations.OwnerAndClaims : Prop :=
  (∀ (s : State) (t : Nat) (d : Dev) (q : Request), s.Tick t d → d.serves q = true →
    (recOp q.bytes = 4 → lengthCheck q.bytes 0 = 0 → Completes (.renew t) s fun x =>
      x.alm.leaseEnd = q.arrived + perS ∧ x.alm.queue = d.alm.queue.drop 1 ∧ (∀ k, k < 256 → x.obj 0x1020 k = d.obj 0x1020 k) ∧ x.obj 0x1011 0x01 = d.obj 0x1011 0x01) ∧
    (recOp q.bytes = 5 → lengthCheck q.bytes 0 = 0 → Completes (.release t) s fun x =>
      x.obj 0x1011 0x01 = 0xFFFF ∧ x.obj 0x1011 0x02 = 0 ∧ x.alm.queue = d.alm.queue.drop 1 ∧ ∀ k, k < 13 → x.obj 0x1020 (k + 1) = 0) ∧
    (recOp q.bytes = 6 → lengthCheck q.bytes 2 = 0 → beNat (recData q.bytes) < 16 → d.obj 0x1010 0x01 0 (beNat (recData q.bytes)) ≠ 0 →
      d.obj 0x1010 0x01 0 (beNat (recData q.bytes)) ≠ 4 → beNat (recData q.bytes) ≠ d.obj 0x1011 0x01 →
      Completes (.handover t) s fun x => x.obj 0x1011 0x01 = beNat (recData q.bytes) ∧ x.obj 0x1011 0x02 = 2 ∧ x.alm.leaseEnd = d.now + perS ∧
        x.obj 0x1011 0x06 = (d.obj 0x1011 0x06 + 1) % 2 ^ 32 ∧ ∀ k, k < 13 → x.obj 0x1020 (k + 1) = 0) ∧
    (recOp q.bytes = 6 → lengthCheck q.bytes 2 = 0 → 16 ≤ beNat (recData q.bytes) → Becomes (.handover t) s ((d.countRequest q).finish 0x302))) ∧
  (∀ (s : State) (t : Nat) (d : Dev) (q : Request) (m : Nat), s.Tick t d → d.serves q = true → recOp q.bytes = 3 → lengthCheck q.bytes 0 = 0 → q.src = .host m →
    (d.candidate (.host m) = none → Becomes (.claim t) s (((d.countRequest q).inc 0x1011 0x07).finish 0x209)) ∧
    (∀ r : Nat, d.candidate (.host m) = some r →
      (d.obj 0x1011 0x02 = 0 → Completes (.claim t) s fun x => x.obj 0x1011 0x02 = 1 ∧ x.alm.windowEnd = q.arrived + d.obj 0x1011 0x41 * perMs ∧
        x.alm.participants = [{ record := r, arrived := q.arrived, claims := [q] }] ∧ x.alm.queue = d.alm.queue.drop 1) ∧
      (d.obj 0x1011 0x02 = 1 → (∀ p ∈ d.alm.participants, p.record ≠ r) → Becomes (.claim t) s ((d.countRequest q).almUpd fun x =>
        { x with participants := x.participants ++ [{ record := r, arrived := q.arrived, claims := [q] }], queue := x.queue.drop 1, waiting := false, stackWrite := none })) ∧
      (d.obj 0x1011 0x02 = 2 → d.obj 0x1011 0x01 = r → Becomes (.claim t) s (((d.countRequest q).renewLease q).finish 0)) ∧
      (d.obj 0x1011 0x02 = 2 → d.obj 0x1011 0x01 ≠ r → Becomes (.claim t) s (((d.countRequest q).inc 0x1011 0x07).finish 0x203))))

/-- The end of an election window and the lapse of a lease (R57, R61): the best participant owns the device with a lease from the window's end; a lapse leaves it unowned, is counted, and clears every gate. The winner of an election is a participant, and no other has a higher priority, nor the same priority and an earlier arrival, nor both alike and a lower record (R57). The model's choices in it: log entries 23, 24, 25, 28, 159. -/
def Obligations.WindowLeaseAndElection : Prop :=
  (∀ (s : State) (t : Nat) (d : Dev), s.Tick t d → s.Alone d → d.isLead = true → d.pairRuns 0 = true →
    (∀ w : Participant, d.obj 0x1011 0x02 = 1 → d.alm.windowEnd ≤ d.now → d.servedUpTo d.alm.windowEnd = true → d.winner d.alm.participants = some w →
      Completes (.electionWindowClose t) s fun x => x.obj 0x1011 0x01 = w.record ∧ x.obj 0x1011 0x02 = (if d.obj 0x1010 0x01 0 w.record = 4 then 3 else 2) ∧
        x.alm.leaseEnd = d.alm.windowEnd + perS ∧ x.alm.participants = [] ∧ x.obj 0x1011 0x04 = (d.obj 0x1011 0x04 + 1) % 2 ^ 32 ∧ ∀ k, k < 13 → x.obj 0x1020 (k + 1) = 0) ∧
    (d.obj 0x1011 0x02 ≠ 1 ∨ d.now < d.alm.windowEnd → Becomes (.electionWindowClose t) s d) ∧
    (d.stack.lease = none → d.obj 0x1011 0x02 = 2 → d.alm.leaseEnd ≤ d.now → d.servedUpTo d.alm.leaseEnd = true →
      Completes (.leaseExpiry t) s fun x => x.obj 0x1011 0x01 = 0xFFFF ∧ x.obj 0x1011 0x02 = 0 ∧ x.obj 0x1011 0x05 = (d.obj 0x1011 0x05 + 1) % 2 ^ 32 ∧
        ∀ k, k < 13 → x.obj 0x1020 (k + 1) = 0) ∧
    (d.obj 0x1011 0x02 ≠ 2 ∨ d.now < d.alm.leaseEnd → Becomes (.leaseExpiry t) s d)) ∧
  (∀ (d : Dev) (l : List Participant) (w : Participant), d.winner l = some w → w ∈ l ∧ ∀ p ∈ l,
    d.obj 0x1010 0x02 0 p.record < d.obj 0x1010 0x02 0 w.record ∨
      (d.obj 0x1010 0x02 0 p.record = d.obj 0x1010 0x02 0 w.record ∧ (w.arrived < p.arrived ∨ (w.arrived = p.arrived ∧ w.record ≤ p.record))))

/-- GPTP messages at a slave port (R75, R76, R77, R79, R81): a two-step Sync waits with its stamps for its Follow_Up, which feeds the servo of its domain; a one-step Sync feeds it at once; an Announce restarts its timeout, gives the grandmaster, and is relayed on the relay ports of its domain; D1 is preferred when both domains lock in one tick; a message of no domain on its port changes nothing. The model's choices in it: log entries 49, 50, 51, 52, 174, 175, 176, 201. -/
def Obligations.TimeMessagesAtASlavePort : Prop :=
  ∀ (s : State) (t : Nat) (d : Dev) (m : PtpMsg) (k : Nat), s.Tick t d → m.port < unitCount →
    (d.syncPort m.port = false → Becomes (.syncReceived t m) s d ∧ Becomes (.followUpReceived t m) s d) ∧
    (d.slaveDomains m = [] → Becomes (.syncReceived t m) s d ∧ Becomes (.followUpReceived t m) s d) ∧
    (d.syncPort m.port = true → d.slaveDomains m = [k] → d.cpUp 2 = true →
      (m.twoStep = true → Becomes (.syncReceived t m) s (d.setDom k { d.sex.dom k with syncAt := d.now, syncLog := m.log, held := some { seq := m.seq, port := m.port, dom := d.rxStamp m.port (d.sex.dom k).clk.val, zt := d.rxStamp m.port d.sex.zt.val, lt := d.lt, corr := m.corr, log := m.log } })) ∧
      (m.twoStep = false → Becomes (.syncReceived t m) s (((d.setDom k { d.sex.dom k with syncAt := d.now, syncLog := m.log, held := none }).servo (s.d1Locks d) k
        (d.rxStamp m.port (d.sex.dom k).clk.val) (d.rxStamp m.port d.sex.zt.val) (d.masterTime m.port m.origin m.corr)).relaySync k m (d.cameAt m.port d.lt) m.origin m.corr)) ∧
      (∀ h : HeldSync, (d.sex.dom k).held = some h → h.seq = m.seq → h.port = m.port →
        Becomes (.followUpReceived t m) s (((d.setDom k { d.sex.dom k with held := none }).servo (s.d1Locks d) k h.dom h.zt (d.masterTime m.port m.origin (h.corr + m.corr))).relaySync k m
          (d.cameAt m.port h.lt) m.origin (h.corr + m.corr))) ∧
      ((d.sex.dom k).held = none → Becomes (.followUpReceived t m) s d)) ∧
    (d.slaveDomains m = [k] → k < 2 → d.cpUp 2 = true → (maskUnits (d.obj 0x8010 0x03)).contains m.port = false → d.obj 0x8020 0x08 0 k = m.gm → d.domState k = 3 →
      Becomes (.announceReceived t m) s (((d.setDom k { d.sex.dom k with annAt := d.now, annLog := m.log, gotAnn := true }).set 0x8020 0x14 (ofI32 m.utc) 0 k).set 0x8020 0x08 m.gm 0 k |>.relayAnnounce k m)) ∧
    (d.cpUp 2 = false → Becomes (.announceReceived t m) s d)

/-- The rate that the servo sets stays within the limit of the domain (R81, R82). Timeouts of a tracked domain and of zone time (R75, R76, R85, Table 3.7): a receipt timeout returns the domain to LISTENING and is counted; a blend ends in TRACKING of its target; a domain that has been LOCKED for the hold-off starts a blend back; after the holdover limit the clock class is 248. The model's choices in it: log entries 48, 49, 53, 159, 202, 205, 215. -/
def Obligations.ServoAndTimeouts : Prop :=
  (∀ (kp ki : Nat) (rmax integ term rate err : Int), 0 ≤ rmax →
    (-rmax ≤ (servoRun kp ki rmax integ term).1 ∧ (servoRun kp ki rmax integ term).1 ≤ rmax) ∧
    (-rmax ≤ (servoSeed rmax rate err).1 ∧ (servoSeed rmax rate err).1 ≤ rmax)) ∧
  (∀ (s : State) (t : Nat) (d : Dev) (k : Nat), s.Tick t d → s.Alone d → k < 2 →
    (d.receiptDue k (d.sex.dom k).syncAt (d.obj 0x8020 0x09 0 k) (d.sex.dom k).syncLog = true →
      Becomes (.syncReceiptTimeout t k) s (d.receiptTimeout k)) ∧
    (d.receiptDue k (d.sex.dom k).syncAt (d.obj 0x8020 0x09 0 k) (d.sex.dom k).syncLog = false → Becomes (.syncReceiptTimeout t k) s d) ∧
    (d.receiptDue k (d.sex.dom k).annAt (d.obj 0x8020 0x0A 0 k) (d.sex.dom k).annLog = true →
      Becomes (.announceReceiptTimeout t k) s (d.receiptTimeout k)) ∧
    (d.receiptDue k (d.sex.dom k).annAt (d.obj 0x8020 0x0A 0 k) (d.sex.dom k).annLog = false → Becomes (.announceReceiptTimeout t k) s d) ∧
    ((d.receiptTimeout k).obj 0x8020 0x05 0 k = 1 ∧ (d.receiptTimeout k).obj 0x8020 0x10 0 k = (d.obj 0x8020 0x10 0 k + 1) % 2 ^ 32) ∧
    (∀ b : Blend, d.sex.blend = some b → b.frozen = none → b.start + b.tb ≤ d.now → Completes (.blendEnd t) s fun x =>
      x.sex.blend = none ∧ x.obj 0x8000 0x03 = b.target + 1 ∧ x.obj 0x8000 0x04 = b.target + 1 ∧ x.sex.zt = d.sex.zt ∧ x.sex.stateAt = d.now) ∧
    (∀ b : Blend, d.sex.blend = some b → b.frozen ≠ none ∨ d.now < b.start + b.tb → Becomes (.blendEnd t) s d) ∧
    (d.ownZone = true → d.obj 0x8000 0x03 = 2 → d.flag 0x8030 0x03 = true → d.domState 0 = 3 → d.cpUp 2 = true → d.sex.d1.lockedAt + d.obj 0x8030 0x04 * perS ≤ d.now →
      Completes (.revertHoldOffExpiry t) s fun x => x.obj 0x8000 0x03 = 3 ∧ x.obj 0x8030 0x05 = (d.obj 0x8030 0x05 + 1) % 2 ^ 32 ∧ x.obj 0x8000 0x04 = d.obj 0x8000 0x04 ∧
        x.sex.blend = some { start := d.now, r0 := d.sex.zt.rate, tb := d.obj 0x8030 0x01 * perMs, target := 0, shown := d.obj 0x8030 0x07, again := d.sex.blend.isSome }) ∧
    (d.ownZone = true → d.obj 0x8000 0x03 = 4 → d.sex.stateAt + d.obj 0x8010 0x08 * perS < d.now → Becomes (.holdoverLimitExpiry t) s (d.set 0x8000 0x0B 248)) ∧
    (d.obj 0x8000 0x03 ≠ 4 → Becomes (.holdoverLimitExpiry t) s d))

/-- Messages that this device sends (R75, R78, R79, R89): at each interval of its length one zone Sync and one Announce for each master port, with rising sequence numbers, wait at FP11 for the port; nothing before the interval has passed. What a one-step Sync said is counted as it has left. Peer delay requests, responses and the delay they give; a response that comes in the tick of the next request is received and not lost (R11). The model's choices in it: log entries 50, 51, 163, 176, 201, 214. -/
def Obligations.MessagesOfThisDevice : Prop :=
  ∀ (s : State) (t : Nat) (d : Dev) (u : Nat), s.Tick t d →
    let sync := intervalDue d.sex.syncFrom (intervalsOf 1 (toI32 (d.obj 0x8010 0x06))) d.now
    let ann := intervalDue d.sex.annFrom (intervalsOf 1 (toI32 (d.obj 0x8010 0x07))) d.now
    let pdel := intervalDue (d.pd u).at_ (intervalsOf 1 (toI32 (d.obj 0x8040 0x06 u))) d.now
    (∀ e : Nat, sync = some e → d.flag 0x8010 0x01 = true → maskUnits (d.obj 0x8010 0x03) = [u] → d.syncPort u = true → d.flag 0x8040 0x02 u = true →
      Becomes (.zoneSyncInterval t) s ((d.sexUpd fun x => { x with syncSeq := (d.sex.syncSeq + 1) % 65536, syncFrom := e }).sendPtp u
        { d.zoneMessage 0 d.sex.syncSeq with oneStep := true } none)) ∧
    (sync = none ∨ d.flag 0x8010 0x01 = false → Becomes (.zoneSyncInterval t) s d) ∧
    (∀ e : Nat, ann = some e → d.flag 0x8010 0x01 = true → d.cpUp 2 = true → maskUnits (d.obj 0x8010 0x03) = [u] → d.flag 0x8040 0x01 u = true →
      Becomes (.announceInterval t) s ((d.sexUpd fun x => { x with annSeq := (d.sex.annSeq + 1) % 65536, annFrom := e }).sendPtp u (d.zoneMessage 2 d.sex.annSeq) none)) ∧
    (ann = none ∨ d.flag 0x8010 0x01 = false ∨ d.cpUp 2 = false → Becomes (.announceInterval t) s d) ∧
    (∀ (m : PtpOut) (l : Nat), m.kind = 0 → m.oneStep = true → d.ptpSent u { msg := m, relay := none, stamp := l } = (d.out (.ptp m)).inc 0x8010 0x09) ∧
    (∀ e : Nat, pdel = some e → s.pdelayComes d u = false → scopeHas .nesk u = true → d.flag 0x8040 0x01 u = true → d.cpUp 2 = true →
      Becomes (.pdelayInterval t u) s (((if (d.pd u).waiting then d.inc 0x8040 0x0A u else d).setPd u
        { d.pd u with seq := ((d.pd u).seq + 1) % 65536, sentAt := none, last := none, waiting := true, at_ := e }).sendPtp u (d.pdMessage 3 (((d.pd u).seq + 1) % 65536) 0) none)) ∧
    (∀ e : Nat, pdel = some e → s.pdelayComes d u = true → scopeHas .nesk u = true → d.flag 0x8040 0x01 u = true → d.cpUp 2 = true →
      Becomes (.pdelayInterval t u) s ((d.setPd u { d.pd u with seq := ((d.pd u).seq + 1) % 65536, sentAt := none, last := (d.pd u).sentAt.map (fun x => ((d.pd u).seq, x, d.now)), waiting := true, at_ := e }).sendPtp u
        (d.pdMessage 3 (((d.pd u).seq + 1) % 65536) 0) none)) ∧
    (s.Alone d → s.pdelayComes d u = false) ∧
    (scopeHas .nesk u = true → pdel = none ∨ d.flag 0x8040 0x01 u = false ∨ d.cpUp 2 = false → Becomes (.pdelayInterval t u) s d) ∧
    (∀ q : Nat, scopeHas .nesk u = true → d.flag 0x8040 0x01 u = true → d.cpUp 2 = true →
      Becomes (.pdelayReqReceived t u q) s (d.sendPtp u (d.pdMessage 4 q (d.cameAt u d.lt).toNat) none)) ∧
    (∀ (q t1 t2 t3 : Nat), scopeHas .nesk u = true → d.flag 0x8040 0x01 u = true → d.cpUp 2 = true → (d.pd u).seq = q → (d.pd u).sentAt = some t1 → (d.pd u).prev = none → (d.pd u).last = none →
      let trip : Int := (d.lt - t1 : Nat) * 800 - ((d.obj 0x8040 0x03 u : Int) + d.obj 0x8040 0x04 u)
      let delay := ((trip - ((t3 : Int) - t2)) / 2).toNat
      Completes (.pdelayRespReceived t u q t2 t3) s fun x => x.obj 0x8040 0x07 u = delay % 2 ^ 32 ∧ (x.pd u).sentAt = none ∧ (x.pd u).waiting = false ∧
        (x.pd u).prev = some (t3, d.lt) ∧ (x.pd u).good = (if delay < d.obj 0x8040 0x0E u then (d.pd u).good + 1 else 0)) ∧
    (∀ q t1 t2 t3 : Nat, scopeHas .nesk u = true → d.flag 0x8040 0x01 u = true → d.cpUp 2 = true → (d.pd u).seq ≠ q → (d.pd u).last = some (q, t1, d.now) →
      Completes (.pdelayRespReceived t u q t2 t3) s fun x => (x.pd u).sentAt = (d.pd u).sentAt ∧ (x.pd u).waiting = (d.pd u).waiting ∧ (x.pd u).last = none ∧ (x.pd u).prev = some (t3, d.lt)) ∧
    (∀ q t2 t3 : Nat, scopeHas .nesk u = true → (d.pd u).sentAt = none → (d.pd u).last = none → Becomes (.pdelayRespReceived t u q t2 t3) s d)

/-- The PPS input measures and never steers (R91): an active edge captures the four counters, corrected by the input latency, and is counted; one within a microsecond of the edge before is not captured and is counted as too close; an edge of the other direction, or of a disabled input, does nothing. The model's choices in it: log entry 55. -/
def Obligations.PpsInput : Prop :=
  ∀ (s : State) (t : Nat) (d : Dev) (r : Bool), s.Tick t d →
    (d.flag 0x8051 0x01 = true → (d.obj 0x8051 0x02 = 0 ↔ r = true) →
      ((∀ e : Nat, d.sex.ppsIn = some e → perUs ≤ d.now - e) → Completes (.ppsInEdge t r) s fun x =>
        x.sex = { d.sex with ppsIn := some d.now } ∧ x.ltEpoch = d.ltEpoch ∧ x.now = d.now ∧
        x.obj 0x8051 0x04 = time96 (clk16 ((lt16 d.lt : Int) * 2 ^ 32 - ps48 (d.obj 0x8051 0x03))) ∧ x.obj 0x8051 0x05 = time96 (clk16 (d.sex.zt.val - ps48 (d.obj 0x8051 0x03))) ∧
        x.obj 0x8051 0x06 = time96 (clk16 (d.sex.d1.clk.val - ps48 (d.obj 0x8051 0x03))) ∧ x.obj 0x8051 0x07 = time96 (clk16 (d.sex.d2.clk.val - ps48 (d.obj 0x8051 0x03))) ∧
        x.obj 0x8051 0x08 = (d.obj 0x8051 0x08 + 1) % 2 ^ 32 ∧ x.obj 0x8051 0x09 = d.obj 0x8051 0x09) ∧
      (∀ e : Nat, d.sex.ppsIn = some e → d.now - e < perUs → Becomes (.ppsInEdge t r) s ((d.sexUpd fun x => { x with ppsIn := some d.now }).inc 0x8051 0x09))) ∧
    (d.flag 0x8051 0x01 = false ∨ ¬ (d.obj 0x8051 0x02 = 0 ↔ r = true) → Becomes (.ppsInEdge t r) s d)

/-- The PPS outputs (R90): a pulse at each integer second of the selected counter, and its end. Writes of the Sextant that have a command of their own (R68, R76): the snapshot holds the four counters of one moment; an enabled domain goes to LISTENING, a disabled one to DISABLED; while CP2 restarts no domain changes its state (R89). The model's choices in it: log entry 56. -/
def Obligations.PpsOutputsAndSextantWrites : Prop :=
  (∀ (s : State) (t : Nat) (d : Dev) (p : Nat), s.Tick t d → p < 2 →
    (d.flag 0x8050 0x01 0 p = true → d.sex.ppsSecond.getD p 0 < d.ppsSec p →
      Becomes (.ppsOutEdge t p) s ((((d.sexUpd fun x => { x with ppsSecond := x.ppsSecond.set p (d.ppsSec p), ppsEnd := x.ppsEnd.set p (d.now + d.obj 0x8050 0x03 0 p * perUs), ppsActive := x.ppsActive.set p true }).out (.pps p (d.obj 0x8050 0x04 0 p == 0))).inc 0x8050 0x06 0 p))) ∧
    (d.flag 0x8050 0x01 0 p = false → Becomes (.ppsOutEdge t p) s d) ∧
    (d.sex.ppsActive.getD p false = true → d.sex.ppsEnd.getD p 0 ≤ d.now →
      Becomes (.ppsOutPulseEnd t p) s ((d.sexUpd fun x => { x with ppsActive := x.ppsActive.set p false }).out (.pps p (d.obj 0x8050 0x04 0 p != 0)))) ∧
    (d.now < d.sex.ppsEnd.getD p 0 → Becomes (.ppsOutPulseEnd t p) s d)) ∧
  (∀ (s : State) (t : Nat) (d : Dev) (q : Request) (o : ObjRow), s.Tick t d →
    (d.takesWrite q o .snapshot 0 = true → recIndex q.bytes = 0x8000 → recSub q.bytes = 0x05 → q.value = 1 →
      Completes (.snapshot t) s (d.Wrote q o fun y => (((y.set 0x8000 0x06 d.ltTime).set 0x8000 0x07 d.ztTime).set 0x8000 0x08 (time96 (clk16 d.sex.d1.clk.val))).set 0x8000 0x09 (time96 (clk16 d.sex.d2.clk.val)))) ∧
    (d.takesWrite q o .domainEnable 0 = true → recIndex q.bytes = 0x8020 → recSub q.bytes = 0x01 → q.value = 1 → d.domState q.record = 0 → d.cpUp 2 = true →
      Completes (.domainEnable t) s (d.Wrote q o fun y => (((y.set 0x8020 0x01 1 0 q.record).set 0x8020 0x08 0 0 q.record).set 0x8020 0x05 1 0 q.record).setDom q.record
        { y.sex.dom q.record with gotSync := false, gotAnn := false, held := none, seed := 0 })) ∧
    (d.takesWrite q o .domainEnable 0 = true → recIndex q.bytes = 0x8020 → recSub q.bytes = 0x01 → q.value = 0 → d.domState q.record ≠ 0 → d.cpUp 2 = true →
      Completes (.domainEnable t) s (d.Wrote q o fun y => ((y.set 0x8020 0x01 0 0 q.record).setDomState q.record 0).domainLost q.record)) ∧
    (d.takesWrite q o .domainEnable 0 = true → recIndex q.bytes = 0x8020 → recSub q.bytes = 0x01 → d.cpUp 2 = false →
      Completes (.domainEnable t) s (d.Wrote q o fun y => y.set 0x8020 0x01 q.value 0 q.record)))

/-- A leg fires its next entry when the value on which the tick acts has reached it, that of its stamp or, after a step or a tooth in the tick, the value that this leaves (R95, R96, R101, R108, R112), at most one in a tick: the leg moves on and the event reaches its consumer; an entry that the stamp of the tick before had reached counts as late; an event for a domain that is off is discarded and counted; a leg whose entry is not due fires nothing. A leg starts at its first cycle boundary, the advance early, and the banks exchange roles at the end of the cycle that reaches the change Bearing (R106, R107, R111). The model's choices in it: log entries 57, 58, 59, 167, 169, 206, 207, 208, 209. -/
def Obligations.PlotterLegs : Prop :=
  (∀ (s : State) (t : Nat) (d : Dev) (n : Nat), s.Tick t d → n < 16 →
    let l := d.leg n
    let pos := l.cyc + d.legOff n (d.legBank n) l.next
    let y := d.setLeg n { l with next := l.next + 1, lastTick := some d.tick }
    let late : Prop := l.since + 1 < d.tick ∧ pos ≤ d.legAt n (d.tickStart - 10) + l.adv
    ((d.legState n = 2 ∨ d.legState n = 4) → l.next < d.legCount n (d.legBank n) → l.lastTick ≠ some d.tick → pos ≤ d.legTick n + l.adv →
      (¬ late → Becomes (.plotterEntryFire t n) s (y.legEvent n l.next)) ∧
      (late → Becomes (.plotterEntryFire t n) s ((y.inc 0x8420 0x10 0 n).legEvent n l.next))) ∧
    (d.legState n ≠ 2 → d.legState n ≠ 4 → Becomes (.plotterEntryFire t n) s d) ∧
    (l.next < d.legCount n (d.legBank n) → d.legTick n + l.adv < pos ∨ l.lastTick = some d.tick → Becomes (.plotterEntryFire t n) s d) ∧
    (∀ i : Nat, d.legUnit n = none → d.legEvent n i = d.inc 0x8420 0x0F 0 n) ∧
    (∀ (i u : Nat), d.legUnit n = some u → d.unitPowered u = false → d.legEvent n i = d.inc 0x8420 0x11 0 n) ∧
    (∀ (i u : Nat), d.legUnit n = some u → d.unitPowered u = true →
      d.legEvent n i = (d.consume (d.obj 0x8420 0x03 0 n) u (d.legData n (d.legBank n) i)).inc 0x8420 0x0F 0 n)) ∧
  (∀ (s : State) (t : Nat) (d : Dev) (n : Nat), s.Tick t d → n < 16 →
    let adv := if d.legSource n = 4 then 0 else d.obj 0x8420 0x41 0 n
    (d.legState n = 1 → (d.leg n).startAt ≤ d.sourceTick (d.legSource n) + adv → d.legSource n ≠ 4 ∨ d.phaseSynced = true → (d.leg n).armed = none →
      Becomes (.legStart t n) s ((d.setLegState n 2).setLeg n { d.leg n with cyc := (d.leg n).startAt, next := 0, adv := adv, advs := [] })) ∧
    (d.legState n ≠ 1 ∨ d.sourceTick (d.legSource n) + adv < (d.leg n).startAt → Becomes (.legStart t n) s d) ∧
    ((d.legState n = 2 ∨ d.legState n = 4) → d.swapDue n = true → d.legCycleEnded n = true →
      Completes (.swapTakesEffect t n) s fun x => x.obj 0x8420 0x0A 0 n = 1 - d.legBank n ∧ x.obj 0x8420 0x12 0 n = (d.obj 0x8420 0x12 0 n + 1) % 2 ^ 32 ∧
        (x.leg n).armed = none ∧ (x.leg n).next = 0 ∧ (x.leg n).cyc = (d.leg n).cyc + d.legCycle n (d.legBank n) ∧ x.obj 0x8420 0x0E 0 n = d.obj 0x8420 0x0E 0 n) ∧
    (d.swapDue n = false ∨ d.legCycleEnded n = false → Becomes (.swapTakesEffect t n) s d))

/-- The phase input (R99 to R102): the first tooth after standstill, a tooth within a revolution, the reference of an input without missing teeth, and no tooth for the stop timeout. An edge of the other polarity, or one that the glitch filter stops, changes nothing. Writes of the Plotter that have a command of their own (R99, R106, R107): an enabled leg waits for its first boundary; a disabled one is stopped; a swap of an enabled leg is armed, of a disabled one exchanges the banks at once; the phase input is enabled. The model's choices in it: log entries 60, 168, 170, 171, 172, 208, 209, 210. -/
def Obligations.PhaseAndPlotterWrites : Prop :=
  (∀ (s : State) (t : Nat) (d : Dev) (r : Bool) (ns : Nat), s.Tick t d → s.Alone d →
    ((d.obj 0x8410 0x04 = 0 ↔ r = true) → d.obj 0x8410 0x41 < ns →
      (d.obj 0x8410 0x08 = 1 → d.plot.phase.edge = none → d.obj 0x8410 0x03 ≠ 0 → Completes (.toothEdge t r ns) s fun x =>
        x.obj 0x8410 0x08 = 2 ∧ x.obj 0x8410 0x0C = (d.obj 0x8410 0x0C + 1) % 2 ^ 32 ∧ x.plot.phase.edge = some d.now ∧ x.plot.phase.pos = 0 ∧ x.plot.phase.rev = d.plot.phase.rev) ∧
      (d.obj 0x8410 0x08 = 1 → d.plot.phase.edge = none → d.obj 0x8410 0x03 = 0 → (∀ n : Nat, d.legSource n = 4 → d.legState n = 0 ∨ d.legState n = 2) → Completes (.toothEdge t r ns) s fun x =>
        x.obj 0x8410 0x08 = 4 ∧ x.obj 0x8410 0x0C = (d.obj 0x8410 0x0C + 1) % 2 ^ 32 ∧ x.plot.phase.edge = some d.now ∧ x.plot.phase.pos = 0) ∧
      (∀ e : Nat, d.obj 0x8410 0x08 = 4 → d.obj 0x8410 0x03 = 0 → d.plot.phase.edge = some e → 20 * perUs ≤ d.now - e → d.plot.phase.pos + 1 ≠ d.obj 0x8410 0x02 → Completes (.toothEdge t r ns) s fun x =>
        x.obj 0x8410 0x08 = 4 ∧ x.plot.phase.pos = d.plot.phase.pos + 1 ∧ x.plot.phase.rev = d.plot.phase.rev ∧ x.plot.phase.edge = some d.now ∧ x.plot.phase.base = d.now - e) ∧
      (∀ e : Nat, d.obj 0x8410 0x08 = 4 → d.obj 0x8410 0x03 = 0 → d.plot.phase.edge = some e → 20 * perUs ≤ d.now - e → d.plot.phase.pos + 1 = d.obj 0x8410 0x02 → Completes (.toothEdge t r ns) s fun x =>
        x.obj 0x8410 0x08 = 4 ∧ x.plot.phase.pos = 0 ∧ x.plot.phase.rev = d.plot.phase.rev + 1)) ∧
    (d.obj 0x8410 0x08 = 0 ∨ ¬ (d.obj 0x8410 0x04 = 0 ↔ r = true) ∨ ns ≤ d.obj 0x8410 0x41 → Becomes (.toothEdge t r ns) s d) ∧
    (∀ e : Nat, d.plot.phase.edge = some e → d.obj 0x8410 0x08 = 2 → e + d.obj 0x8410 0x06 * perMs ≤ d.now → Completes (.phaseStopTimeout t) s fun x =>
      x.obj 0x8410 0x08 = 1 ∧ x.obj 0x8410 0x0B = 0 ∧ x.obj 0x8410 0x0F = (d.obj 0x8410 0x0F + 1) % 2 ^ 32 ∧ x.plot.phase.edge = none ∧ ((∀ n, (d.leg n).virt = none) → x.plot.legs = d.plot.legs)) ∧
    (d.plot.phase.edge = none ∨ d.obj 0x8410 0x08 < 2 → Becomes (.phaseStopTimeout t) s d)) ∧
  (∀ (s : State) (t : Nat) (d : Dev) (q : Request) (o : ObjRow), s.Tick t d →
    (d.takesWrite q o .legEnable 0 = true → recIndex q.bytes = 0x8420 → recSub q.bytes = 0x01 → q.value = 1 → d.flag 0x8420 0x01 0 q.record = false →
      Completes (.legEnable t) s (d.Wrote q o fun y => ((y.set 0x8420 0x01 1 0 q.record).setLegState q.record 1).setLeg q.record
        { startAt := let x := d.sourceTick (d.legSource q.record)
                     firstBoundary x (x + d.ahead (d.legSource q.record) (d.obj 0x8420 0x05 0 q.record) x) (d.legCycle q.record (d.legBank q.record)) })) ∧
    (d.takesWrite q o .legEnable 0 = true → recIndex q.bytes = 0x8420 → recSub q.bytes = 0x01 → q.value = 0 → d.flag 0x8420 0x01 0 q.record = true →
      Completes (.legEnable t) s (d.Wrote q o fun y => (((y.set 0x8420 0x01 0 0 q.record).setLegState q.record 0).setLeg q.record {}).unschedule q.record)) ∧
    (d.takesWrite q o .swapRequest 0 = true → recIndex q.bytes = 0x8420 → recSub q.bytes = 0x0B → q.value = 1 →
      (d.flag 0x8420 0x01 0 q.record = true → Completes (.swapRequest t) s (d.Wrote q o fun y => y.setLeg q.record { y.leg q.record with armed := some (d.obj 0x8420 0x0C 0 q.record, d.sourceTick (d.legSource q.record)) })) ∧
      (d.flag 0x8420 0x01 0 q.record = false → Completes (.swapRequest t) s (d.Wrote q o fun y => y.exchangeBanks q.record))) ∧
    (d.takesWrite q o .phaseEnable 0 = true → recIndex q.bytes = 0x8410 → recSub q.bytes = 0x01 → q.value = 1 → d.obj 0x8410 0x08 = 0 →
      Completes (.phaseEnable t) s (d.Wrote q o fun y => (y.set 0x8410 0x01 1).set 0x8410 0x08 1)))

/-- A port's flush and its hold-down (R136, R137, R161, Table 5.6), and the link of a port (R174, R176, R194): the flush empties the port and leaves it UP or in HOLD-DOWN; the hold-down ends in DOWN, counts, and flushes the addresses learned there; a link that comes up gives the port its rate, counts and enters UP unless a flush runs; a word of half duplex or of no speed of the mode counts and gives no link; a disabled port takes no link; a lost condition counts, takes the link down and starts the flush of a port that was UP; errors that lose no lock are only counted; the link of an S port goes down only with its own conditions. Writes of the ports and the buffer with a command of their own (R142, R173, R175, R186, R197): a port that is enabled takes its lane settings, an S port its link where its line state allows, one that is disabled loses its link; a peak reset; the reset of a threshold to its lowest value; the start of a cable test; each does nothing more when the value is false. The model's choices in it: log entries 71, 177. -/
def Obligations.PortLinkAndWrites : Prop :=
  (∀ (s : State) (t : Nat) (d : Dev) (p : Nat), s.Tick t d →
    (p < 23 →
      (d.obj 0x2040 0x01 0 p = 1 → Becomes (.flushComplete t p) s ((d.flushPort p).set 0x2040 0x01 (if d.linkUp p then 3 else 2) 0 p).flowAll.finishIfReady) ∧
      (d.obj 0x2040 0x01 0 p ≠ 1 → Becomes (.flushComplete t p) s d) ∧
      (∀ g ∈ (d.flushPort p).fab.frames, ∀ c ∈ g.copies, c.port = p → c.mirror = true) ∧
      (s.Alone d →
        (d.obj 0x2040 0x01 0 p = 2 → tget (fun _ => 0) d.fab.downAt p + d.obj 0x2040 0x02 0 p * perMs ≤ d.now →
          Becomes (.holdDownExpiry t p) s (((d.set 0x2040 0x01 0 0 p).inc 0x2040 0x06 0 p).chartFlush false p true)) ∧
        (d.obj 0x2040 0x01 0 p ≠ 2 ∨ d.now < tget (fun _ => 0) d.fab.downAt p + d.obj 0x2040 0x02 0 p * perMs → Becomes (.holdDownExpiry t p) s d))) ∧
    (p < 20 → ∀ (r w : Nat) (h : Bool), r < 65536 → w < 65536 →
      let mode := d.obj 0x4010 0x01 (p + 1)
      (d.flag 0x4020 0x01 (p + 1) = false → Becomes (.linkUp t p r h w) s d) ∧
      (d.flag 0x4020 0x01 (p + 1) = true → d.unitPowered (p + 1) = true → d.flag 0xC040 0x07 = true → d.stack.self = 2 → d.segmentOff (p + 1) = false → d.linkUp p = false →
        ((p < 12 ∧ (modeRates p mode).contains r = true ∧ ¬ (h = true ∧ modeWord p mode = true)) ∨ (12 ≤ p ∧ (d.obj 0x4060 0x0E (p + 1) = 0 ∨ d.obj 0x4060 0x0E (p + 1) = 5)) →
          Completes (.linkUp t p r h w) s fun x => x.linkUp p = true ∧ x.obj 0x4020 0x03 (p + 1) = 1 ∧ x.obj 0x4020 0x04 (p + 1) = (if p < 12 then r else 10) ∧
            x.obj 0x4020 0x05 (p + 1) = (d.obj 0x4020 0x05 (p + 1) + 1) % 2 ^ 32 ∧ x.obj 0x2040 0x01 0 p = (if d.obj 0x2040 0x01 0 p = 1 then 1 else 3) ∧
            x.obj 0x4000 0x03 = setBit (d.obj 0x4000 0x03) p true ∧ (p < 12 → x.obj 0x4010 0x04 (p + 1) = 1 ∧ x.obj 0x4010 0x05 (p + 1) = (if modeWord p mode then w else 0))) ∧
        (p < 12 → modeWord p mode = true → h = true ∨ (modeRates p mode).contains r = false →
          Completes (.linkUp t p r h w) s fun x => x.linkUp p = false ∧ x.obj 0x4010 0x08 (p + 1) = (d.obj 0x4010 0x08 (p + 1) + 1) % 2 ^ 32 ∧ x.obj 0x4020 0x05 (p + 1) = d.obj 0x4020 0x05 (p + 1)) ∧
        (12 ≤ p → d.obj 0x4060 0x0E (p + 1) ≠ 0 → d.obj 0x4060 0x0E (p + 1) ≠ 5 → Becomes (.linkUp t p r h w) s d))) ∧
    (p < 20 → ∀ loss : LinkLoss, (∀ h r v, loss = .word h r v → r < 65536 ∧ v < 65536) →
      let mode := d.obj 0x4010 0x01 (p + 1)
      let odd : Prop := ∃ h r v, loss = .word h r v ∧ modeWord p mode = true ∧ (h = true ∨ (r ≠ 0 ∧ (modeRates p mode).contains r = false))
      let holds : Prop := d.portReady p = true ∧ (d.obj 0x4060 0x0E (p + 1) = 0 ∨ d.obj 0x4060 0x0E (p + 1) = 5)
      let lost : Prop := if 12 ≤ p then ¬ holds else (∃ n, loss = .lock n) ∨ loss = .localFault ∨ loss = .remoteFault ∨ odd ∨ ∃ v, loss = .word false 0 v ∧ modeWord p mode = true
      (lost → d.linkUp p = true → Completes (.linkDown t p loss) s fun x => x.linkUp p = false ∧ x.obj 0x4020 0x03 (p + 1) = 0 ∧ x.obj 0x4020 0x04 (p + 1) = 0 ∧
        x.obj 0x4020 0x06 (p + 1) = (d.obj 0x4020 0x06 (p + 1) + 1) % 2 ^ 32 ∧ x.obj 0x4000 0x03 = setBit (d.obj 0x4000 0x03) p false ∧
        x.obj 0x2040 0x01 0 p = (if d.obj 0x2040 0x01 0 p = 3 then 1 else d.obj 0x2040 0x01 0 p) ∧ tget (fun _ => 0) x.fab.downAt p = d.now ∧ (d.fab.rx = [] → x.fab.frames = d.fab.frames)) ∧
      (p < 12 → d.linkUp p = false →
        (∀ n, loss = .lock n → Becomes (.linkDown t p loss) s ((d.inc 0x4010 0x09 (p + 1) 0 n).set 0x4010 0x04 0 (p + 1))) ∧
        (loss = .localFault → Becomes (.linkDown t p loss) s (d.inc 0x4010 0x06 (p + 1))) ∧
        (loss = .remoteFault → Becomes (.linkDown t p loss) s (d.inc 0x4010 0x07 (p + 1))) ∧
        (∀ h r v, loss = .word h r v → odd → Becomes (.linkDown t p loss) s ((d.set 0x4010 0x05 v (p + 1)).inc 0x4010 0x08 (p + 1)))) ∧
      (p < 12 → ∀ n, loss = .errors n → Becomes (.linkDown t p loss) s (d.inc 0x4010 0x09 (p + 1) 0 n)) ∧
      (12 ≤ p → (d.linkUp p = true ↔ holds) → Becomes (.linkDown t p loss) s d))) ∧
  (∀ (s : State) (t : Nat) (d : Dev) (q : Request) (o : ObjRow) (u : Nat), s.Tick t d → u < unitCount →
    (d.takesWrite q o .portEnable u = true → recIndex q.bytes = 0x4020 → recSub q.bytes = 0x01 →
      (q.value = 1 → Completes (.portEnable t) s (d.Wrote q o fun y => if d.flag 0x4020 0x01 u then y.set 0x4020 0x01 1 u else ((y.set 0x4020 0x01 1 u).laneSetup u).segLink (portOfUnit u))) ∧
      (q.value = 0 → Completes (.portEnable t) s (d.Wrote q o fun y =>
        let z := (y.set 0x4020 0x01 0 u).linkFall (portOfUnit u)
        if 13 ≤ u ∧ u < 21 then z.set 0x4060 0x07 0 u else if u < 13 then z.set 0x4010 0x04 0 u else z))) ∧
    (d.takesWrite q o .peakReset u = true → recIndex q.bytes = 0x2000 → recSub q.bytes = 0x0C →
      (q.value = 1 → Completes (.peakReset t) s fun x =>
        (∀ r : Nat, r < 25 → x.obj 0x2010 0x05 0 r = d.obj 0x2010 0x04 0 r ∧ x.obj 0x2020 0x05 0 r = d.obj 0x2020 0x04 0 r) ∧
        (∀ r : Nat, r < 8 → x.obj 0x2030 0x05 0 r = d.obj 0x2030 0x04 0 r) ∧ x.fab.frames = d.fab.frames) ∧
      (q.value = 0 → Completes (.peakReset t) s (d.Wrote q o id))) ∧
    (d.takesWrite q o .thresholdReset u = true → recIndex q.bytes = 0x4030 → recSub q.bytes = 0x42 →
      (q.value = 1 → Completes (.thresholdReset t) s (d.Wrote q o fun y => (y.set 0x4030 0x02 (d.obj 0x4030 0x01 u) u).set 0x4030 0x04 0 u)) ∧
      (q.value = 0 → Completes (.thresholdReset t) s (d.Wrote q o id))) ∧
    (d.takesWrite q o .cableTestStart u = true → recIndex q.bytes = 0x4060 → recSub q.bytes = 0x11 →
      (q.value = 1 → Completes (.cableTestStart t) s (d.Wrote q o fun y => y.set 0x4060 0x12 1 u)) ∧
      (q.value = 0 → Completes (.cableTestStart t) s (d.Wrote q o id))))

/-- A frame whose first cell comes alone in its fabric clock is classified, looked up and admitted or refused whole at that cell (R128, R132, R177, R178); one already taken in the order of its clock changes nothing more; one that comes as the fabric matches waits for it; one below 64 bytes and one of MAC control go no further and are counted, and of them only a bad FCS at the end counts besides; a frame for another member passes on with its hop counted (R358). Its end counts it and, once its last cell is in the buffer, gives the rest of its commitment back (R19, R129, R177); a reassembly or SMD error counts without a frame as well (R182). The model's choices in it: log entries 62, 64, 72, 160, 181. -/
def Obligations.Reception : Prop :=
  ∀ (s : State) (t : Nat) (d : Dev) (p : Nat) (fr : EthFrame), s.Tick t d → p < 22 → (fr.hdr.isSome = true ↔ 20 ≤ p) → (∀ h ∈ fr.hdr, h.dmem < 4 ∧ h.dport < 32 ∧ h.smem < 4 ∧ h.sport < 25 ∧ h.cls < 8 ∧ h.vid < 4096 ∧ h.hops < 4) →
    let y := d.plcaHear p
    let u := unitOfPort p
    (d.fab.early.contains (p, fr) = true → Becomes (.ethFrameFirstCell t p fr) s ((d.fabUpd fun x => { x with early := d.fab.early.erase (p, fr) }).usePorts [0, 1])) ∧
    (d.fab.early.contains (p, fr) = false → s.matchWaits d = true → Becomes (.ethFrameFirstCell t p fr) s ((d.fabUpd fun x => { x with firsts := d.fab.firsts ++ [(d.now, p, fr)] }).usePorts [0, 1])) ∧
    (d.fab.early.contains (p, fr) = false → s.matchWaits d = false → s.firstCells d = [] →
      (fr.hdr = none → d.linkUp p = true → 60 ≤ fr.data.length → fr.data.length + 4 ≤ d.obj 0x4020 0x02 u → isMacControl fr.data = false →
        y.macsecAccept p fr.sec ((parseFrame fr.data).ethertype == 0x88F7) = (y, true) →
        ∀ (e : Dev) (g : Received), y.receiveLocal p fr.data fr.badBuckets (fr.data.length + 4) false = (e, some g) →
          (g.copies = [] → Completes (.ethFrameFirstCell t p fr) s fun x => x.fab.frames = e.fab.frames ∧
            (tget (fun _ => none) x.fab.rx (p * 2 + b2n fr.preemptible)).map (fun r => (r.frame, r.len, r.learn)) = some (none, fr.data.length + 4, g.learn)) ∧
          (∀ c : Copy, g.copies = [c] → c.mirror = false → Completes (.ethFrameFirstCell t p fr) s fun x => ∃ (f : Frame) (z : Dev) (i : Option Nat),
            f.port = p ∧ f.data = fr.data ∧ f.len = fr.data.length + 4 ∧ f.cls = g.cls ∧ f.vid = g.vid ∧ f.copies = [{ c with cut := e.mayCut p (ptpEventFrame fr.data) c }] ∧
            e.admission f (cellsOf (d.obj 0x4020 0x02 u)) = (z, i) ∧
            (tget (fun _ => none) x.fab.rx (p * 2 + b2n fr.preemptible)).map (·.frame) = some i ∧ x.fab.frames = z.fab.frames)) ∧
      (∀ (h : StackHdr) (e : Dev), fr.hdr = some h → h.dmem ≠ d.stackId → d.linkUp p = true → 60 ≤ fr.data.length → fr.data.length + 4 ≤ d.obj 0x4020 0x02 u → isMacControl fr.data = false →
        (d.inc64 0x9420 0x0C u).macsecAccept p fr.sec ((parseFrame fr.data).ethertype == 0x88F7) = (e, true) →
        (h.hops = 3 → Completes (.ethFrameFirstCell t p fr) s fun x => x.obj 0x9420 0x09 u = (e.obj 0x9420 0x09 u + 1) % 2 ^ 32 ∧ x.fab.frames = e.fab.frames) ∧
        (h.hops < 3 → Completes (.ethFrameFirstCell t p fr) s fun x => ∃ (f : Frame) (z : Dev) (i : Option Nat),
          f.data = fr.data ∧ f.cls = h.cls ∧ f.smem = h.smem ∧ f.sport = h.sport ∧ f.copies.map (fun c => (c.port, c.hdr)) = [(if p = 20 then 21 else 20, some (h.dmem, h.dport, h.hops + 1))] ∧
          e.admission f (cellsOf (d.obj 0x4020 0x02 u)) = (z, i) ∧ x.fab.frames = z.fab.frames)) ∧
      (d.linkUp p = true → fr.data.length < 60 → Completes (.ethFrameFirstCell t p fr) s fun x =>
        x.obj 0x4070 0x06 u = (d.obj 0x4070 0x06 u + 1) % 2 ^ 32 ∧ (tget (fun _ => none) x.fab.rx (p * 2 + b2n fr.preemptible)).map (fun r => (r.frame, r.silent)) = some (none, true) ∧
        x.fab.frames = d.fab.frames) ∧
      (d.linkUp p = true → 60 ≤ fr.data.length → isMacControl fr.data = true → Completes (.ethFrameFirstCell t p fr) s fun x =>
        x.obj 0x4070 0x08 u = (d.obj 0x4070 0x08 u + 1) % 2 ^ 32 ∧ (tget (fun _ => none) x.fab.rx (p * 2 + b2n fr.preemptible)).map (fun r => (r.frame, r.silent)) = some (none, true) ∧
        x.fab.frames = d.fab.frames) ∧
      (d.linkUp p = false → Completes (.ethFrameFirstCell t p fr) s fun x => x.store = d.store ∧ x.fab.frames = d.fab.frames ∧ x.fab.rx = d.fab.rx)) ∧
    (∀ (k : Bool) (r : RxSt), tget (fun _ => none) d.fab.rx (p * 2 + b2n k) = some r → r.dead = true → r.silent = false → r.oversize = false → r.kind = 0 → p < 12 ∨ 20 ≤ p ∨ d.segState (p + 1) ≠ 6 →
      Completes (.ethFrameEnd t p k 1 .good) s fun x => tget (fun _ => none) x.fab.rx (p * 2 + b2n k) = none ∧
        x.obj 0x4070 0x01 u = (d.obj 0x4070 0x01 u + 1) % 2 ^ 64 ∧ x.obj 0x4070 0x02 u = (d.obj 0x4070 0x02 u + r.len) % 2 ^ 64 ∧ x.fab.frames = d.fab.frames) ∧
    (∀ (k : Bool) (r : RxSt), tget (fun _ => none) d.fab.rx (p * 2 + b2n k) = some r → r.silent = true → r.frame = none → p < 12 ∨ 20 ≤ p ∨ d.segState (p + 1) ≠ 6 →
      Completes (.ethFrameEnd t p k 1 .good) s (fun x => tget (fun _ => none) x.fab.rx (p * 2 + b2n k) = none ∧ x.store = d.store ∧ x.fab.frames = d.fab.frames) ∧
      Completes (.ethFrameEnd t p k 1 .badFcs) s (fun x => tget (fun _ => none) x.fab.rx (p * 2 + b2n k) = none ∧ x.obj 0x4070 0x05 u = (d.obj 0x4070 0x05 u + 1) % 2 ^ 32 ∧ x.fab.frames = d.fab.frames)) ∧
    (∀ (k : Bool) (r : RxSt) (i : Nat) (f : Frame), tget (fun _ => none) d.fab.rx (p * 2 + b2n k) = some r → r.frame = some i → r.oversize = false → r.kind = 0 → r.dead = false → r.silent = false → r.sec = none → p < 12 ∨ 20 ≤ p ∨ d.segState (p + 1) ≠ 6 →
      r.learn = none → f.port = p → d.fab.frames = [f] → f.id = i → f.copies ≠ [] → f.freed = 0 → cellsOf r.len ≤ f.held →
      Completes (.ethFrameEnd t p k 1 .good) s fun x => ∃ g : Frame, x.fab.frames = [g] ∧ g.len = r.len ∧ g.copies = f.copies ∧ g.data = f.data ∧
        (if sharesSlots p = true then g.ended = true ∧ g.whole = f.whole ∧ g.held = f.held else g.whole = true ∧ g.held = cellsOf r.len ∧ g.avail = cellsOf r.len)) ∧
    (∀ (k : Bool), tget (fun _ => none) d.fab.rx (p * 2 + b2n k) = none → ∀ n : Nat,
      (p < 12 → Becomes (.ethFrameEnd t p k n .assemblyError) s ((d.inc 0x4040 0x0B u).usePorts [0, 1]) ∧ Becomes (.ethFrameEnd t p k n .smdError) s ((d.inc 0x4040 0x0C u).usePorts [0, 1])) ∧
      (∀ e : RxEnd, 12 ≤ p ∨ (e ≠ .assemblyError ∧ e ≠ .smdError) → Becomes (.ethFrameEnd t p k n e) s (((if 12 ≤ p ∧ p < 20 then d.plcaDone p false else d).segGoesOn p).usePorts [0, 1])))

/-- Flow control: a PAUSE frame stops every transmit queue of a port for its pause time, a PFC frame the queues of its mask, and the stop ends with the time (R189); a control frame below 64 bytes is undersize, and on a port without flow control it is only counted (R177); a port sends XOFF above its high watermark and the release below its low one, and an XOFF that still holds is sent again; each waits for the frame boundary of its port (R187). The model's choices in it: log entries 65, 66. -/
def Obligations.FlowControl : Prop :=
  ∀ (s : State) (t : Nat) (d : Dev) (p : Nat) (b : Bytes), s.Tick t d → p < 22 →
    let u := unitOfPort p
    let len (time : Nat) : Option Nat := if time = 0 then none else some (d.now + cdiv (time * 640000) (max 1 (d.obj 0x4020 0x04 u)))
    (isMacControl b = true →
      (d.linkUp p = false → Becomes (.macControlReceived t p b) s d) ∧
      (d.linkUp p = true → b.length < 60 → Becomes (.macControlReceived t p b) s (d.inc 0x4070 0x06 u)) ∧
      (d.linkUp p = true → 60 ≤ b.length → (12 ≤ p ∧ p < 20) ∨ (field b 14 2 ≠ 1 ∧ field b 14 2 ≠ 0x0101) → Becomes (.macControlReceived t p b) s (d.inc 0x4070 0x08 u)) ∧
      (d.linkUp p = true → 60 ≤ b.length → p < 12 ∨ 20 ≤ p → field b 14 2 = 1 ∨ field b 14 2 = 0x0101 → d.flag 0x4050 0x06 u = false →
        Becomes (.macControlReceived t p b) s ((d.inc 0x4070 0x08 u).inc 0x4050 0x0A u)) ∧
      (d.linkUp p = true → 60 ≤ b.length → p < 12 ∨ 20 ≤ p → d.flag 0x4050 0x06 u = true →
        (field b 14 2 = 1 → Completes (.macControlReceived t p b) s fun x =>
          x.obj 0x4070 0x08 u = (d.obj 0x4070 0x08 u + 1) % 2 ^ 32 ∧ x.obj 0x4050 0x0A u = (d.obj 0x4050 0x0A u + 1) % 2 ^ 32 ∧
          ∀ q : Nat, q < 8 → tget (fun _ => none) x.ports.stopped (p * 8 + q) = len (field b 16 2)) ∧
        (field b 14 2 = 0x0101 → Completes (.macControlReceived t p b) s fun x =>
          x.obj 0x4070 0x08 u = (d.obj 0x4070 0x08 u + 1) % 2 ^ 32 ∧ x.obj 0x4050 0x0A u = (d.obj 0x4050 0x0A u + 1) % 2 ^ 32 ∧
          ∀ q : Nat, q < 8 → tget (fun _ => none) x.ports.stopped (p * 8 + q) =
            (if bit (field b 16 2) q then len (field b (18 + 2 * q) 2) else tget (fun _ => none) d.ports.stopped (p * 8 + q))))) ∧
    (∀ q e : Nat, q < 8 → tget (fun _ => none) d.ports.stopped (p * 8 + q) = some e →
      (e ≤ d.now → Completes (.pauseExpiry t p q) s fun x => ∀ k : Nat, tget (fun _ => none) x.ports.stopped k = (if k = p * 8 + q then none else tget (fun _ => none) d.ports.stopped k)) ∧
      (d.now < e → Becomes (.pauseExpiry t p q) s d)) ∧
    (d.obj 0x4050 0x01 u ≠ 0 →
      (d.obj 0x4050 0x07 u = 0 → d.flowPort p = if d.obj 0x4050 0x02 u < d.obj 0x2010 0x04 0 p then d.sendPause p (d.obj 0x4050 0x04 u) else d) ∧
      (d.obj 0x4050 0x07 u = 1 → d.obj 0x4050 0x03 u ≤ d.obj 0x2010 0x04 0 p → d.flowPort p = d) ∧
      (d.obj 0x4050 0x07 u = 1 → d.obj 0x2010 0x04 0 p < d.obj 0x4050 0x03 u → tget (fun _ => none) d.ports.resentAt p = none → d.flowPort p = d.sendPause p 0)) ∧
    (∀ n : Nat, d.pauses p = [] →
      (d.lineFree p = false → (d.sendPause p n).outbox = d.outbox ∧ (d.sendPause p n).pauses p = [n]) ∧
      (d.lineFree p = true → (d.sendPause p n).outbox = .pause p (d.obj 0x4050 0x01 u == 2) (d.obj 0x4050 0x05 u) n :: d.outbox ∧ (d.sendPause p n).pauses p = [])) ∧
    (p < 12 ∨ 20 ≤ p →
      (d.obj 0x4050 0x01 u ≠ 0 → d.obj 0x4050 0x07 u = 1 → d.obj 0x4050 0x03 u ≤ d.obj 0x2010 0x04 0 p →
        d.obj 0x4050 0x04 u * 640000 ≤ (d.now - tget (fun _ => 0) d.ports.xoffAt p) * 2 * d.obj 0x4020 0x04 u →
        Becomes (.xoffResendTimer t p) s ((d.sendPause p (d.obj 0x4050 0x04 u)).portUpd fun x => { x with resentAt := tput (fun _ => none) d.ports.resentAt p (some d.now) })) ∧
      (d.obj 0x4050 0x01 u = 0 ∨ d.obj 0x4050 0x07 u ≠ 1 ∨ d.obj 0x2010 0x04 0 p < d.obj 0x4050 0x03 u → Becomes (.xoffResendTimer t p) s d))

/-- One cell time of the fabric (R115, R119, R120): with nothing to send no cell crosses; when one whole frame waits, its next cell crosses to its egress with its control word, and the pointers move. Verification of preemption (R182): a verify mPacket is answered; while VERIFYING a respond mPacket turns preemption on, and three verify mPackets without one, each waited for, end in FAILED with an event. The model's choices in it: log entries 61, 161, 162, 164. -/
def Obligations.CellTimeAndPreemption : Prop :=
  (∀ (s : State) (t : Nat) (d : Dev) (c : CellTime), s.Tick t d → c.written = [] →
    let quiet : Prop := d.fab.fromCp = [] ∧ d.fab.fromLog = [] ∧ d.fab.offers = [] ∧ d.fab.slots = [] ∧ d.fab.firsts = [] ∧ s.firstCells d = [] ∧ (∀ u : Nat, d.obj 0x4050 0x01 u = 0) ∧ d.ports.pauses = []
    (d.dataOn = false → Becomes (.fabricMatch t c) s (d.usePorts [0])) ∧
    (d.dataOn = true → d.fab.frames = [] → quiet → Completes (.fabricMatch t c) s fun x =>
      x.fab.frames = [] ∧ x.fab.words = [] ∧ x.outbox = d.outbox ∧ x.obj 0x2000 0x09 = (d.obj 0x2000 0x09 + c.corrected) % 2 ^ 32) ∧
    (∀ (f : Frame) (k : Copy), d.dataOn = true → d.fab.frames = [f] → f.copies = [k] → f.whole = true → 1 ≤ d.obj 0x2000 0x41 → f.cls < 8 → f.port < 25 → k.port < 22 → f.broken = none →
      k.sent + 1 < f.avail → k.crossed = false → k.bad = false → k.aborted = false → k.mirror = false → d.eligible c.full f k = true → c.poisoned = [] → c.lost = [] → quiet →
      Completes (.fabricMatch t c) s fun x => x.fab.frames = [{ f with copies := [{ k with sent := k.sent + 1, order := if k.sent = 0 then d.fab.nextOrder else k.order }] }] ∧
        x.fab.words = [controlWord f k k.sent false false false] ∧
        x.obj 0x2050 0x01 0 (fpOf f.port) = (d.obj 0x2050 0x01 0 (fpOf f.port) + 1) % 2 ^ 64 ∧ x.obj 0x2050 0x03 0 (fpOf f.port) = (d.obj 0x2050 0x03 0 (fpOf f.port) + 1) % 2 ^ 64 ∧
        tget (fun _ => 0) x.fab.gptr (fpOf k.port) = (fpOf f.port + 1) % 12 ∧ tget (fun _ => 0) x.fab.aptr (fpOf f.port) = (fpOf k.port + 1) % 12)) ∧
  (∀ (s : State) (t : Nat) (d : Dev) (p : Nat), s.Tick t d → s.Alone d → p < 12 →
    (d.obj 0x4040 0x05 (p + 1) = 2 → Becomes (.respondMpacketReceived t p) s ((d.set 0x4040 0x05 3 (p + 1)).set 0x4040 0x06 1 (p + 1))) ∧
    (d.obj 0x4040 0x05 (p + 1) ≠ 2 → Becomes (.respondMpacketReceived t p) s d ∧ Becomes (.verifyMpacketTimer t p) s d) ∧
    (d.obj 0x4040 0x05 (p + 1) ≠ 0 → Becomes (.verifyMpacketReceived t p) s (d.out (.mpacket p 1))) ∧
    (d.obj 0x4040 0x05 (p + 1) = 0 → Becomes (.verifyMpacketReceived t p) s d) ∧
    (∀ n a : Nat, d.obj 0x4040 0x05 (p + 1) = 2 → tget (fun _ => (0, 0)) d.ports.verify p = (n, a) → a + d.obj 0x4040 0x03 (p + 1) * perMs ≤ d.now →
      (n < 3 → Becomes (.verifyMpacketTimer t p) s ((d.out (.mpacket p 0)).portUpd fun x => { x with verify := tput (fun _ => (0, 0)) x.verify p (n + 1, d.now) })) ∧
      (3 ≤ n → Completes (.verifyMpacketTimer t p) s fun x => x.obj 0x4040 0x05 (p + 1) = 4 ∧ x.obj 0x4040 0x0D (p + 1) = (d.obj 0x4040 0x0D (p + 1) + 1) % 2 ^ 32 ∧ ∃ e ∈ x.ev.bus, e.vector = some 16 ∧ e.lt = d.lt)))

/-- The MAC sends: a frame that may start begins, unless the guard holds it (R180, R210); one beyond the maximum SDU of its queue is discarded (R213); outside its PLCA opportunity a segment starts nothing (R191); its last byte counts it and hands it to the line (R206, R207); an underrun ends it bad and raises the threshold, unless an ABORT of its cell time ends it (R184, R185), and the threshold falls again (R186). The model's choices in it: log entries 63, 164, 193. -/
def Obligations.Transmission : Prop :=
  ∀ (s : State) (t : Nat) (d : Dev) (p : Nat), s.Tick t d → p < 22 →
    let u := unitOfPort p
    (∀ (f : Frame) (c : Copy), d.fab.frames = [f] → f.copies = [c] → c.port = p → c.mirror = false → c.sent ≠ 0 → c.started = false → c.suspended = false → c.retry = false → c.aborted = false → d.kindOf f c = 0 → f.cls < 8 → d.pauses p = [] →
      (d.obj 0x5061 0x01 u f.cls = 0 → d.portUp p = true → tget (fun _ => none) d.ports.backoff p = none → d.plcaMay p = true → d.mayStart p f c = true →
        (d.guardOk p f.cls (d.guardLen f c) = true → d.macsecOn p = false → f.lastCall = false → f.ptp = none →
          Becomes (.transmitStart t p false) s { d.plcaTake p with fab := { d.fab with frames := [{ f with copies := [d.begun f c] }] } }) ∧
        (d.guardOk p f.cls (d.guardLen f c) = false → c.guardHeld = false →
          Becomes (.transmitStart t p false) s ({ d with fab := { d.fab with frames := [{ f with copies := [{ c with guardHeld := true }] }] } }.inc 0x5060 0x04 u))) ∧
      (f.whole = true → f.broken = none → f.ri + f.re + f.rc + f.sh ≤ d.obj 0x2000 0x04 → d.obj 0x5061 0x01 u f.cls ≠ 0 → d.obj 0x5061 0x01 u f.cls < d.egressLen f c →
        Completes (.transmitStart t p false) s fun x => x.fab.frames = [] ∧ x.obj 0x5060 0x06 u = (d.obj 0x5060 0x06 u + 1) % 2 ^ 32 ∧ x.obj 0x2000 0x04 = d.obj 0x2000 0x04 - f.held ∧ x.outbox = d.outbox)) ∧
    ((∀ q : Nat, d.obj 0x5061 0x01 u q = 0) → d.pauses p = [] → d.portUp p = false ∨ d.plcaMay p = false → Becomes (.transmitStart t p false) s d) ∧
    (∀ (f : Frame) (c : Copy), d.fab.frames = [f] → f.copies = [c] → c.port = p → c.mirror = false → c.sent ≠ 0 → c.started = true → c.suspended = false → c.crossed = true → c.bad = false → c.hdr = none →
      c.leaf = none → d.kindOf f c = 0 → f.oversize = false → f.badFcs = false → d.egressLen f c ≤ (d.editOf f c).lim → (d.editOf f c).sdu = 0 → f.whole = true → f.broken = none → f.ptp = none →
      d.ports.pauses = [] → d.alm.waiting = false → d.alm.answerDue = false → (∀ v : Nat, d.obj 0x4050 0x01 v = 0) → p < 12 ∨ 20 ≤ p ∨ d.segState (p + 1) ≠ 6 →
      Completes (.frameTransmitEnd t p false) s fun x => x.fab.frames = [] ∧ x.outbox = .frame p (d.egressEdit f c).1 true c.sec [] :: d.outbox ∧
        x.obj 0x4070 0x09 u = (d.obj 0x4070 0x09 u + 1) % 2 ^ 64 ∧ x.obj 0x4070 0x0A u = (d.obj 0x4070 0x0A u + d.egressLen f c) % 2 ^ 64 ∧
        x.obj 0x2000 0x04 = d.obj 0x2000 0x04 - f.held) ∧
    (∀ (f : Frame) (c : Copy), d.fab.frames = [f] → f.copies = [c] → c.port = p → c.mirror = false → c.sent ≠ 0 → c.started = true → c.suspended = false → c.cut = true → c.crossed = false → c.bad = false → c.aborted = false →
      c.leaf = none → d.kindOf f c = 0 → f.whole = false → (∀ v : Nat, d.obj 0x4050 0x01 v = 0) → d.ports.pauses = [] → d.alm.waiting = false → d.alm.answerDue = false →
      (s.abortComes d f c = false → d.obj 0x4030 0x02 u < 144 →
        Completes (.transmitUnderrun t p false) s fun x => x.obj 0x4030 0x02 u = d.obj 0x4030 0x02 u + 1 ∧ x.obj 0x4030 0x03 u = (d.obj 0x4030 0x03 u + 1) % 2 ^ 32 ∧
          x.obj 0x4030 0x05 u = (d.obj 0x4030 0x05 u + 1) % 2 ^ 32 ∧ x.ev = d.ev ∧ tget (fun _ => 0) x.ports.lastUnder p = d.now ∧ (∀ g ∈ x.fab.frames, g.copies = [])) ∧
      (s.abortComes d f c = true → f.ptp = none → f.ptpEvent = false →
        Completes (.transmitUnderrun t p false) s fun x => x.obj 0x4030 0x02 u = d.obj 0x4030 0x02 u ∧ x.obj 0x4030 0x03 u = d.obj 0x4030 0x03 u ∧
          x.obj 0x4030 0x05 u = (d.obj 0x4030 0x05 u + 1) % 2 ^ 32 ∧ x.obj 0x2040 0x0A 0 p = (d.obj 0x2040 0x0A 0 p + 1) % 2 ^ 32 ∧ (∀ g ∈ x.fab.frames, g.copies = []))) ∧
    (s.Alone d →
      (d.obj 0x4030 0x41 u ≠ 0 → tget (fun _ => 0) d.ports.lastUnder p + d.obj 0x4030 0x41 u * perS ≤ d.now →
        Becomes (.thresholdDecay t p) s ((d.portUpd fun y => { y with lastUnder := tput (fun _ => 0) y.lastUnder p d.now }).set 0x4030 0x02 (max (d.obj 0x4030 0x01 u) (d.obj 0x4030 0x02 u - 1)) u)) ∧
      (d.obj 0x4030 0x41 u = 0 ∨ d.now < tget (fun _ => 0) d.ports.lastUnder p + d.obj 0x4030 0x41 u * perS → Becomes (.thresholdDecay t p) s d))

/-- The 10BASE-T1S PHY (R191 to R197): BEACONs of the coordinator and of a follower, their loss, collisions with and without PLCA, the end of a back-off, line faults, a reversed line and the result of a cable test; the link follows the line state and the enable. The model's choices in it: log entries 73, 76, 177. -/
def Obligations.SharedLine : Prop :=
  ∀ (s : State) (t : Nat) (d : Dev) (p : Nat), s.Tick t d → 12 ≤ p → p < 20 →
    let a := d.plcaAt p d.now
    let due : Prop := d.obj 0x4060 0x01 (p + 1) = 0 ∧ d.obj 0x4060 0x07 (p + 1) = 1 ∧ d.linkUp p = true ∧ (a.running = false ∨ (a.busy = false ∧ a.burst = 0 ∧ d.obj 0x4060 0x03 (p + 1) ≤ a.idx))
    let on : Prop := d.flag 0x4020 0x01 (p + 1) = true ∧ d.unitPowered (p + 1) = true ∧ d.segmentOff (p + 1) = false
    (due → Becomes (.plcaCycleStart t p) s (((d.setPlca p { running := true, from_ := d.now + 20 * bitTime }).out (.beacon p)).inc 0x4060 0x08 (p + 1))) ∧
    (¬ due → Becomes (.plcaCycleStart t p) s d) ∧
    (d.obj 0x4060 0x07 (p + 1) ≠ 1 → Becomes (.plcaCollision t p) s (d.segGoesOn p)) ∧
    (d.segState (p + 1) ≠ 6 → d.segGoesOn p = d) ∧
    (¬ on → ∀ r : Bool, Becomes (.beaconReceived t p r) s d) ∧
    (on → d.obj 0x4060 0x01 (p + 1) = 1 →
      let y := (d.portUpd fun x => { x with beaconAt := tput (fun _ => 0) x.beaconAt p d.now }).setPlca p { running := true, from_ := d.now }
      Becomes (.beaconReceived t p false) s (if d.obj 0x4060 0x07 (p + 1) = 2 then y.set 0x4060 0x07 1 (p + 1) else y)) ∧
    (on → d.obj 0x4060 0x01 (p + 1) = 0 → Completes (.beaconReceived t p false) s fun x => x.obj 0x4060 0x07 (p + 1) = 3 ∧
      x.obj 0x4060 0x09 (p + 1) = (d.obj 0x4060 0x09 (p + 1) + 1) % 2 ^ 32 ∧ ∃ e ∈ x.ev.bus, e.vector = some 16 ∧ e.lt = d.lt) ∧
    (s.Alone d →
      (d.obj 0x4060 0x01 (p + 1) = 1 → d.obj 0x4060 0x07 (p + 1) = 1 → tget (fun _ => 0) d.ports.beaconAt p + d.obj 0x4060 0x42 (p + 1) * 125 ≤ d.now →
        Becomes (.beaconTimeout t p) s ((d.set 0x4060 0x07 2 (p + 1)).inc 0x4060 0x0A (p + 1))) ∧
      (d.obj 0x4060 0x01 (p + 1) ≠ 1 ∨ d.obj 0x4060 0x07 (p + 1) ≠ 1 ∨ d.now < tget (fun _ => 0) d.ports.beaconAt p + d.obj 0x4060 0x42 (p + 1) * 125 → Becomes (.beaconTimeout t p) s d)) ∧
    (∀ (f : Frame) (c : Copy), d.fab.frames = [f] → f.copies = [c] → c.port = p → c.mirror = false → c.sent ≠ 0 → c.started = true → c.suspended = false → d.kindOf f c = 0 →
      (d.obj 0x4060 0x07 (p + 1) = 1 → Becomes (.plcaCollision t p) s
        (({ d.inc 0x4060 0x0B (p + 1) with fab := { d.fab with frames := [{ f with copies := [{ c with started := false, retry := true, attempts := 0, edit := none }] }] } }.setPlca p
          { a with busy := false, burst := 0, idx := a.idx + 1, from_ := d.now }).finishIfReady.segGoesOn p)) ∧
      (d.alm.waiting = false → d.alm.answerDue = false → d.segState (p + 1) ≠ 6 → d.obj 0x4060 0x07 (p + 1) ≠ 1 → c.attempts + 1 < 16 → Completes (.csmaCollision t p false) s fun x =>
        x.store = d.store ∧ x.fab.frames = [{ f with copies := [{ c with started := false, retry := true, attempts := c.attempts + 1, edit := none }] }] ∧
        ∃ k : Nat, k < 2 ^ min (c.attempts + 1) 10 ∧ tget (fun _ => none) x.ports.backoff p = some (d.now + k * 64000)) ∧
      (d.alm.waiting = false → d.alm.answerDue = false → d.segState (p + 1) ≠ 6 → d.obj 0x4060 0x07 (p + 1) ≠ 1 → 16 ≤ c.attempts + 1 → f.whole = true → Completes (.csmaCollision t p false) s fun x =>
        x.obj 0x4060 0x0D (p + 1) = (d.obj 0x4060 0x0D (p + 1) + 1) % 2 ^ 32 ∧ x.fab.frames = []) ∧
      (d.alm.waiting = false → d.alm.answerDue = false → d.segState (p + 1) ≠ 6 → d.obj 0x4060 0x07 (p + 1) ≠ 1 → f.whole = true → Completes (.csmaCollision t p true) s fun x =>
        x.obj 0x4060 0x0C (p + 1) = (d.obj 0x4060 0x0C (p + 1) + 1) % 2 ^ 32 ∧ x.fab.frames = [])) ∧
    (∀ e : Nat, tget (fun _ => none) d.ports.backoff p = some e →
      (e ≤ d.now → Becomes (.backoffExpiry t p) s (d.portUpd fun y => { y with backoff := tput (fun _ => none) y.backoff p none })) ∧
      (d.now < e → Becomes (.backoffExpiry t p) s d)) ∧
    (∀ f : LineFault, f ≠ .reversed →
      (bit (tget (fun _ => 0) d.ports.faults p) (faultValue f) = false → d.linkUp p = false → Becomes (.lineFaultDeclare t p f) s
        ((((d.portUpd fun x => { x with faults := tput (fun _ => 0) x.faults p (setBit (tget (fun _ => 0) d.ports.faults p) (faultValue f) true) }).set 0x4060 0x0E
          (lowestFault (setBit (tget (fun _ => 0) d.ports.faults p) (faultValue f) true)) (p + 1)).inc 0x4060 0x0F (p + 1)).segGoesOn p)) ∧
      (bit (tget (fun _ => 0) d.ports.faults p) (faultValue f) = true → Becomes (.lineFaultDeclare t p f) s (d.segGoesOn p) ∧ Becomes (.lineFaultClear t p f) s
        (((d.portUpd fun x => { x with faults := tput (fun _ => 0) x.faults p (setBit (tget (fun _ => 0) d.ports.faults p) (faultValue f) false) }).set 0x4060 0x0E
          (lowestFault (setBit (tget (fun _ => 0) d.ports.faults p) (faultValue f) false)) (p + 1)).segLink p))) ∧
    (d.obj 0x4060 0x0E (p + 1) = 0 ∨ d.obj 0x4060 0x0E (p + 1) = 6 → d.flag 0x4060 0x41 (p + 1) = true → Becomes (.lineFaultDeclare t p .reversed) s ((((d.set 0x4060 0x0E 5 (p + 1)).inc 0x4060 0x10 (p + 1)).segLink p).segGoesOn p)) ∧
    (d.obj 0x4060 0x0E (p + 1) = 0 → d.flag 0x4060 0x41 (p + 1) = false → Becomes (.lineFaultDeclare t p .reversed) s (((d.set 0x4060 0x0E 6 (p + 1)).segLink p).segGoesOn p)) ∧
    (d.obj 0x4060 0x0E (p + 1) = 6 → Becomes (.lineFaultClear t p .reversed) s ((d.set 0x4060 0x0E 0 (p + 1)).segLink p)) ∧
    (d.portReady p = true → d.obj 0x4060 0x0E (p + 1) = 0 ∨ d.obj 0x4060 0x0E (p + 1) = 5 → d.segLink p = d.linkRise p 10) ∧
    (d.portReady p = false ∨ (d.obj 0x4060 0x0E (p + 1) ≠ 0 ∧ d.obj 0x4060 0x0E (p + 1) ≠ 5) → d.segLink p = d.linkFall p) ∧
    (∀ r n : Nat, 2 ≤ r → r ≤ 4 → n < 65536 →
      (d.obj 0x4060 0x12 (p + 1) = 1 → Becomes (.cableTestComplete t p r n) s ((d.set 0x4060 0x12 r (p + 1)).set 0x4060 0x13 n (p + 1))) ∧
      (d.obj 0x4060 0x12 (p + 1) ≠ 1 → Becomes (.cableTestComplete t p r n) s d))

/-- The learning engine serves its queue (R152, R156, R158, R159): a new key is inserted; a move within the limit moves the entry; a move above it locks the entry and raises an event; a locked or static entry stays. A message of another member joins the queue, one that the recent-learn rule holds back is counted, and a removal message removes the remote entry alone; both go on across a transit member (R162, R163, R367). The model's choices in it: log entries 68, 70, 159, 228. -/
def Obligations.ChartLearning : Prop :=
  ∀ (s : State) (t : Nat) (d : Dev), s.Tick t d →
    (d.chart.queue = [] → Becomes (.learnEngineInsert t) s (d.usePorts [1])) ∧
    (∀ (q : LearnReq) (l : List LearnReq), d.chart.queue = q :: l → q.key < 2 ^ 60 → q.dest < 2048 → d.obj 0x3008 0x00 = 0 → q.msgFrom = none → q.remote = false → d.chart.flushes = [] →
      (d.chartFind q.key = none → d.fillWay 0 (mkEntry q.key d.ltSec 0 q.dest 0 1) ≠ none → Completes (.learnEngineInsert t) s fun x => x.chart.queue = l ∧
        (∃ p : Nat, x.chartFind q.key = some p ∧ x.mac p = mkEntry q.key d.ltSec 0 q.dest 0 1 ∧ d.mac p = 0 ∧ ∀ k : Nat, k ≠ p → x.mac k = d.mac k) ∧
        x.obj 0x3004 0x02 = (d.obj 0x3004 0x02 + 1) % 2 ^ 64) ∧
      (∀ p : Nat, d.chartFind q.key = some p → entType (d.mac p) ≠ 3 → entDest (d.mac p) ≠ q.dest → entLock (d.mac p) = false →
        (entAge (d.mac p) ≠ d.ltSec % 2 ^ 17 → 1 ≤ d.obj 0x3005 0x01 → Completes (.learnEngineInsert t) s fun x => x.chart.queue = l ∧ entDest (x.mac p) = q.dest ∧ entMoves (x.mac p) = 1 ∧ entType (x.mac p) = 1 ∧
          entAge (x.mac p) = d.ltSec % 2 ^ 17 ∧ entKey (x.mac p) = q.key ∧ x.obj 0x3005 0x04 = (d.obj 0x3005 0x04 + 1) % 2 ^ 64) ∧
        (entAge (d.mac p) = d.ltSec % 2 ^ 17 → d.obj 0x3005 0x01 ≤ entMoves (d.mac p) → Completes (.learnEngineInsert t) s fun x => entLock (x.mac p) = true ∧ entDest (x.mac p) = entDest (d.mac p) ∧
          x.obj 0x3005 0x05 = (d.obj 0x3005 0x05 + 1) % 2 ^ 32 ∧ ∃ e ∈ x.ev.bus, e.vector = some 6 ∧ e.lt = d.lt)) ∧
      (∀ p : Nat, d.chartFind q.key = some p → entType (d.mac p) = 3 ∨ entLock (d.mac p) = true → entDest (d.mac p) ≠ q.dest →
        Becomes (.learnEngineInsert t) s (((d.chartUpd fun x => { x with queue := l, learnAt := d.now }).inc 0x3005 0x06).usePorts [1]))) ∧
    (∀ (m k n : Nat) (a : Int), m < 4 → k < 2 ^ 60 → n < 128 →
      (d.obj 0x3008 0x00 ≠ 1 → Becomes (.learnMessageReceived t m k n a) s d) ∧
      (d.obj 0x3008 0x00 = 1 → d.stale { key := k, dest := n, stamp := a, msgFrom := some m, remote := true } = true → Becomes (.learnMessageReceived t m k n a) s ((d.inc 0x3008 0x03).learnOn m k n a)) ∧
      (d.obj 0x3008 0x00 = 1 → d.stale { key := k, dest := n, stamp := a, msgFrom := some m, remote := true } = false → d.flag 0x3004 0x01 = true → d.chart.queue.length < 256 →
        Completes (.learnMessageReceived t m k n a) s fun x => x.chart.queue = d.chart.queue ++ [{ key := k, dest := n, stamp := a, msgFrom := some m, remote := true }] ∧
          x.chart.mac = d.chart.mac ∧ x.chart.recent = d.chart.recent ∧ x.chart.flushes = d.chart.flushes) ∧
      (d.onward m = none → d.learnOn m k n a = d) ∧
      (∀ l : Nat, d.onward m = some l → d.macsecOn (20 + l) = false → d.learnOn m k n a = d.out (.learn l m k n a))) ∧
    (∀ r : Removal, r.key < 2 ^ 60 → r.sender < 4 → (∀ m ∈ r.target, m < 4) →
      (∀ p : Nat, d.chartFind r.key = some p →
        (entType (d.mac p) = 2 → Becomes (.removalMessageReceived t r) s ((d.setMac p 0).removalOn r)) ∧ (entType (d.mac p) ≠ 2 → Becomes (.removalMessageReceived t r) s (d.removalOn r))) ∧
      (d.chartFind r.key = none → Becomes (.removalMessageReceived t r) s (d.removalOn r)) ∧
      (r.target = some d.stackId → d.removalOn r = d) ∧
      (∀ k : Nat, r.target = none → d.onward r.sender = some k → d.macsecOn (20 + k) = false → d.removalOn r = d.out (.removal k r)))

/-- Entries that leave the Chart: by age (R160), while requests wait or a flush runs at one step of each round (R156); by a flush, whose sweep removes what it takes as its pointer passes and ends with its count (R161); and from the stash back into their tables while the engine is idle (R154). Writes of the Chart with a command of their own (R155, R156, R157, R159, R161, R167, R171): flushes begin, locks end, a static entry and a seed are taken by the engine or wait while a flush runs. The model's choices in it: log entries 69, 71, 159, 180, 196, 211. -/
def Obligations.ChartFlushesAndWrites : Prop :=
  (∀ (s : State) (t : Nat) (d : Dev), s.Tick t d →
    (∀ (p e n : Nat), s.Alone d → d.chart.flushes = [] → d.chart.queue = [] → d.chart.mac = [(p, e)] → e ≠ 0 → n ≤ 16385 → d.chart.scan ≤ scanBucket p → scanBucket p < d.chart.scan + n → entLock e = false → d.obj 0x3008 0x00 = 0 →
      ((entType e = 1 ∨ entType e = 2) → d.obj 0x3006 0x01 < (d.ltSec + 2 ^ 17 - entAge e) % 2 ^ 17 → Completes (.ageingScan t n) s fun x => x.mac p = 0 ∧
        x.obj 0x3006 0x02 = (d.obj 0x3006 0x02 + 1) % 2 ^ 64 ∧ x.chart.scan = (d.chart.scan + n) % 16385) ∧
      (entType e = 3 ∨ (d.ltSec + 2 ^ 17 - entAge e) % 2 ^ 17 ≤ d.obj 0x3006 0x01 → Becomes (.ageingScan t n) s ((d.chartUpd fun x => { x with scan := (d.chart.scan + n) % 16385, scanAt := d.now }).usePorts [1]))) ∧
    (∀ n : Nat, n ≤ 16385 → d.chart.queue ≠ [] ∨ d.chart.flushes ≠ [] → d.chart.mac = [] → Completes (.ageingScan t n) s fun x =>
      x.chart.scan = (d.chart.scan + min n (d.rounds d.chart.scanAt)) % 16385 ∧ x.chart.mac = [] ∧ x.chart.queue = d.chart.queue) ∧
    (∀ (p e : Nat), d.chart.queue = [] → d.chart.flushes = [] → d.chart.mac = [(stashBase + p, e)] → e ≠ 0 → d.bucketGone 0 (d.bucket 0 (entKey e)) = false →
      Completes (.stashDrain t) s fun x => x.mac (stashBase + p) = 0 ∧ x.mac (wayPos 0 (d.bucket 0 (entKey e)) 0) = e ∧ x.store = d.store) ∧
    (d.chart.queue ≠ [] ∨ d.chart.flushes ≠ [] → Becomes (.stashDrain t) s (d.usePorts [1])) ∧
    (∀ f : ChartFlush, d.chart.flushes = [f] →
      (f.pos < 16385 → Becomes (.chartFlushComplete t f.byFid) s d) ∧
      (16385 ≤ f.pos → d.chart.held = [] → d.alm.waiting = false → d.alm.answerDue = false → Completes (.chartFlushComplete t f.byFid) s fun x =>
        x.chart.flushes = [] ∧ x.chart.mac = d.chart.mac ∧ (f.holdDown = false → x.obj 0x3070 0x03 = f.gone) ∧ (f.holdDown = true → x.obj 0x3070 0x03 = d.obj 0x3070 0x03)) ∧
      ((d.chart.mac.map (·.1)).Pairwise (· < ·) → ∀ hi : Nat,
        (∀ p : Nat, (d.sweepTo hi).mac p = if f.takes d.stackId (d.mac p) = true ∧ f.pos ≤ scanBucket p ∧ scanBucket p < hi then 0 else d.mac p) ∧
        (d.sweepTo hi).chart.flushes = [{ f with pos := max f.pos hi, gone := f.gone + (d.chart.mac.filter (fun e => f.takes d.stackId e.2 && decide (f.pos ≤ scanBucket e.1) && decide (scanBucket e.1 < hi))).length }])) ∧
    (∀ b : Bool, d.chart.flushes = [] → Becomes (.chartFlushComplete t b) s d) ∧
    (∀ (f : ChartFlush) (l : List ChartFlush) (b : Bool), d.chart.flushes = f :: l → f.byFid ≠ b → Becomes (.chartFlushComplete t b) s d)) ∧
  (∀ (s : State) (t : Nat) (d : Dev) (q : Request) (o : ObjRow), s.Tick t d →
    (d.takesWrite q o .chartFlushByPort 0 = true → recIndex q.bytes = 0x3070 → recSub q.bytes = 0x01 →
      Completes (.chartFlushByPort t) s (d.Wrote q o fun y => y.chartFlush false q.value false)) ∧
    (d.takesWrite q o .chartFlushByFid 0 = true → recIndex q.bytes = 0x3070 → recSub q.bytes = 0x02 →
      Completes (.chartFlushByFid t) s (d.Wrote q o fun y => y.chartFlush true q.value false)) ∧
    (d.takesWrite q o .unlockAll 0 = true → recIndex q.bytes = 0x3005 → recSub q.bytes = 0x07 → q.value = 1 →
      Completes (.unlockAll t) s fun x => (∀ p : Nat, x.mac p = if entLock (d.mac p) then setField (setField (d.mac p) 100 100 0) 84 77 0 else d.mac p) ∧ x.chart.queue = d.chart.queue) ∧
    (d.chart.flushes = [] →
      (d.takesWrite q o .staticEntryEnable 0 = true → recIndex q.bytes = 0x3050 → recSub q.bytes = 0x01 → q.value = 1 → d.flag 0x3050 0x01 0 q.record = false →
        Completes (.staticEntryEnable t) s (d.Wrote q o fun y => (y.chartInsert (d.staticEntry q.record)).1.set 0x3050 0x01 1 0 q.record)) ∧
      (d.takesWrite q o .seedWrite 0 = true → recIndex q.bytes = 0x3001 →
        Completes (.seedWrite t) s (d.Wrote q o fun y => ((y.set 0x3001 (recSub q.bytes) q.value).chartUpd fun x => { x with mac := [] }).reinsertStatics))) ∧
    (d.chart.flushes ≠ [] →
      (d.takesWrite q o .staticEntryEnable 0 = true → recIndex q.bytes = 0x3050 → recSub q.bytes = 0x01 →
        Completes (.staticEntryEnable t) s (d.Wrote q o fun y => y.chartUpd fun x => { x with held := x.held ++ [{ idx := 0x3050, sub := 0x01, record := q.record, value := q.value }] })) ∧
      (d.takesWrite q o .seedWrite 0 = true → recIndex q.bytes = 0x3001 →
        Completes (.seedWrite t) s (d.Wrote q o fun y => y.chartUpd fun x => { x with held := x.held ++ [{ idx := 0x3001, sub := recSub q.bytes, record := q.record, value := q.value }] }))) ∧
    (d.takesWrite q o .ruleEnable 0 = true → recIndex q.bytes = 0x3040 → recSub q.bytes = 0x01 →
      Completes (.ruleEnable t) s (d.Wrote q o fun y => y.set 0x3040 0x01 q.value 0 q.record)) ∧
    (d.takesWrite q o .learningEnable 0 = true → recIndex q.bytes = 0x3004 → recSub q.bytes = 0x01 →
      (q.value = 0 → Completes (.learningEnable t) s (d.Wrote q o fun y => (y.chartUpd fun x => { x with queue := [] }).set 0x3004 0x01 0)) ∧
      (q.value = 1 → Completes (.learningEnable t) s (d.Wrote q o fun y => y.set 0x3004 0x01 1))))

/-- Shaping and observation (R199, R205, R215, R219 to R221): the writes with a command of their own, and a visit of the sampler, which happens once in each period and counts the depth of a leaf of an enabled subscriber. The model's choices in it: log entries 75, 194. -/
def Obligations.ShapingAndObservation : Prop :=
  ∀ (s : State) (t : Nat) (d : Dev) (q : Request) (o : ObjRow), s.Tick t d →
    (d.takesWrite q o .portNodeEnable 0 = true → recIndex q.bytes = 0x5010 → recSub q.bytes = 0x01 →
      Completes (.portNodeEnable t) s (d.Wrote q o fun y => y.set 0x5010 0x01 q.value 0 q.record)) ∧
    (d.takesWrite q o .policerMode 0 = true → recIndex q.bytes = 0x5040 → recSub q.bytes = 0x01 →
      (q.value = 0 → Completes (.policerMode t) s fun x => x.obj 0x5040 0x01 0 q.record = 0 ∧ tget (fun _ => none) x.shape.buckets q.record = none) ∧
      (q.value ≠ 0 → Completes (.policerMode t) s fun x => x.obj 0x5040 0x01 0 q.record = q.value ∧
        tget (fun _ => none) x.shape.buckets q.record = some { tc := d.polParam q.record 0x04 * bytePart, te := d.polParam q.record 0x06 * bytePart, at_ := d.now })) ∧
    (d.takesWrite q o .histogramClear 0 = true → recIndex q.bytes = 0x5070 → recSub q.bytes = 0x03 → q.value = 1 →
      Completes (.histogramClear t) s fun x => ∀ l k : Nat, l < 4096 → 1 ≤ k → k ≤ 6 → objDefault (objKey 0x5080 k 0 l) = 0 → x.obj 0x5080 k 0 l = 0) ∧
    (∀ leaf : Nat, leaf < 4096 →
      (d.flag 0x5070 0x01 = false ∨ d.visitDue leaf = none → Becomes (.samplerVisit t (leaf / 8) (leaf % 8)) s d) ∧
      (∀ (k : Nat) (late : Bool), d.flag 0x5070 0x01 = true → d.visitDue leaf = some (k, late) →
        let y : Dev := { d with shape := { d.shape with visited := tput (fun _ => 0) d.shape.visited leaf (d.lt + 1) } }
        (d.flag 0x5020 0x01 0 (leaf / 8) = false → Becomes (.samplerVisit t (leaf / 8) (leaf % 8)) s (if leaf = 4095 then y.inc64 0x5070 0x04 else y)) ∧
        (d.flag 0x5020 0x01 0 (leaf / 8) = true → leaf ≠ 4095 → d.leafWaiting leaf = [] →
          Becomes (.samplerVisit t (leaf / 8) (leaf % 8)) s ((if late then y.inc 0x5070 0x05 else y).set 0x5080 0x01 (binUp (d.obj 0x5080 0x01 0 leaf) 0) 0 leaf)) ∧
        (∀ f : Frame, ∀ l : List Frame, d.flag 0x5020 0x01 0 (leaf / 8) = true → d.leafWaiting leaf = f :: l → d.leafDepth leaf ≠ 0 →
          Completes (.samplerVisit t (leaf / 8) (leaf % 8)) s fun x => x.obj 0x5070 0x05 = (if late then (d.obj 0x5070 0x05 + 1) % 2 ^ 32 else d.obj 0x5070 0x05) ∧
            x.obj 0x5080 0x01 0 leaf = binUp (d.obj 0x5080 0x01 0 leaf) (depthBin (d.leafDepth leaf)) ∧
            x.obj 0x5080 0x02 0 leaf = binUp (d.obj 0x5080 0x02 0 leaf) (delayBin (d.obj 0x5070 0x41) ((d.lt - f.stamp) * 4 / 5)) ∧
            x.obj 0x5080 0x03 0 leaf = max (d.obj 0x5080 0x03 0 leaf) (d.leafDepth leaf) ∧ x.fab = d.fab)))

/-- A CAN channel joins its bus, stops, and comes back from bus-off (R229, R230, R233, R260), and an FD channel waits out a protocol exception (R223). The model's choices in it: log entry 79. -/
def Obligations.CanChannelStates : Prop :=
  ∀ (s : State) (t : Nat) (d : Dev) (ch : Nat), s.Tick t d → ch < 24 →
    let u := uC ch
    (d.canState u = 1 → (d.chan u).settle = none → d.unitPowered u = true → d.obj 0x6010 0x05 u ≤ 127 → d.obj 0x6010 0x06 u ≤ 127 →
      Becomes (.canIntegrationComplete t ch) s (d.setCanState u 2)) ∧
    (d.canState u ≠ 1 → Becomes (.canIntegrationComplete t ch) s d) ∧
    ((d.chan u).stopping = true → d.canActive u = none → Completes (.canStopComplete t ch) s fun x =>
      x.canState u = 0 ∧ (x.chan u).stopping = false ∧ ∀ b : Nat, b < 32 → x.bufState u b = 0 ∧ (d.bufState u b ≠ 0 → x.obj 0x6020 0x06 u b = 5)) ∧
    ((d.chan u).stopping = false → Becomes (.canStopComplete t ch) s d) ∧
    (d.canState u = 4 → d.unitPowered u = true → (d.chan u).offUntil ≤ d.now → Completes (.busOffRecovery t ch) s fun x =>
      x.canState u = 2 ∧ x.obj 0x6010 0x05 u = 0 ∧ x.obj 0x6010 0x06 u = 0 ∧ x.obj 0x6030 0x0D u = (d.obj 0x6030 0x0D u + 1) % 2 ^ 32 ∧ x.obj 0x6010 0x0A u = 0 ∧ x.chans = d.chans) ∧
    (d.canState u = 4 → d.now < (d.chan u).offUntil → Becomes (.busOffRecovery t ch) s d) ∧
    (d.obj 0x6010 0x02 u = 1 → d.canState u = 2 ∨ d.canState u = 3 → d.unitPowered u = true → d.canActive u = none →
      Becomes (.protocolException t ch) s ((d.inc 0x6030 0x07 u).setChan u { d.chan u with idleFrom := d.now + kernelTime (11 * d.bitPeriods u) })) ∧
    (d.obj 0x6010 0x02 u ≠ 1 → Becomes (.protocolException t ch) s d) ∧
    (∀ e : Nat, (d.chan u).settle = some e → e ≤ d.now → d.unitPowered u = true → d.flag 0x6010 0x01 u = true → d.canState u = 0 → d.flag 0x6010 0x0A u = false →
      Completes (.transceiverSettlingEnd t u) s fun x => x.canState u = 1 ∧ (x.chan u).settle = none ∧ (x.chan u).bufs = (d.chan u).bufs) ∧
    (∀ l e : Nat, l < 16 → (d.lin (uL l)).settle = some e → e ≤ d.now → d.unitPowered (uL l) = true →
      Becomes (.transceiverSettlingEnd t (uL l)) s (d.setLin (uL l) { d.lin (uL l) with settle := none, slotAt := d.now, wakeDue := false } |> fun x => if (d.lin (uL l)).wakeDue then x.wakeSignal (uL l) else x))

/-- Frames of a CAN channel (R232, R234, R236 to R240): reception counts the frame by its format and puts it in the Rose's ingress queue, and a format beyond the mode is a form error or a protocol exception (R223); a start makes the selected buffer IN PROGRESS, or empties it when its payload cannot be read; an attempt that succeeds empties the buffer, one that fails or loses arbitration leaves it PENDING; errors raise the error counters, to bus-off above 255, but one in the data phase of an XL frame on a channel that does not signal it is only counted (R228). The model's choices in it: log entries 77, 78, 188, 189, 191, 217, 219. -/
def Obligations.CanFrames : Prop :=
  ∀ (s : State) (t : Nat) (d : Dev) (ch : Nat), s.Tick t d → ch < 24 →
    let u := uC ch
    (∀ (f : CanFrame) (age : Nat), canFrameOk f = true → d.canState u = 2 ∨ d.canState u = 3 → d.unitPowered u = true → (d.chan u).settle = none → d.canActive u = none →
      (modeHandles (d.obj 0x6010 0x02 u) (canFmt f) = true → (d.canReceive u f age).isKeepAlive u f.ident f.data = false ∨ (d.canReceive u f age).nodeIgnored u (byteAt f.data 0) = true →
        Becomes (.canFrameReceived t ch f age) s ((d.canReceive u f age).canAfter u)) ∧
      (modeHandles (d.obj 0x6010 0x02 u) (canFmt f) = true → (d.canReceive u f age).isKeepAlive u f.ident f.data = true → (d.canReceive u f age).nodeIgnored u (byteAt f.data 0) = false →
        Becomes (.canFrameReceived t ch f age) s (d.canReceive u f age)) ∧
      (modeHandles (d.obj 0x6010 0x02 u) (canFmt f) = false → d.obj 0x6010 0x02 u = 0 →
        Becomes (.canFrameReceived t ch f age) s ((d.canError u { kind := 2, transmitting := false, exempt := false, heavy := false, place := none }).canAfter u)) ∧
      (modeHandles (d.obj 0x6010 0x02 u) (canFmt f) = false → d.obj 0x6010 0x02 u = 1 → Becomes (.canFrameReceived t ch f age) s ((d.canException u).canAfter u))) ∧
    (∀ (f : CanFrame) (age : Nat), d.canServiceFrame u f = false → d.obj 0x6010 0x06 u = 0 → (d.ingress ch).length < 16 → (d.chan u).staging = [] →
      (d.canReceive u f age).ingress ch = d.ingress ch ++ [d.inPdu f age] ∧
      (d.canReceive u f age).obj 0x6030 (if canFmt f = 1 then 0x02 else if canFmt f = 2 then 0x03 else 0x01) u =
        (d.obj 0x6030 (if canFmt f = 1 then 0x02 else if canFmt f = 2 then 0x03 else 0x01) u + 1) % 2 ^ 64) ∧
    (∀ (f : CanFrame) (age : Nat), canFrameOk f = true → d.canState u ≠ 2 → d.canState u ≠ 3 → Becomes (.canFrameReceived t ch f age) s d) ∧
    (∀ b dl : Nat, d.canMayStart u = true → d.canSelect u = some b → b < 32 → dl < 65536 →
      Becomes (.canFrameStart t ch false dl) s (d.canStart u b dl) ∧
      (d.canStart u b dl).bufState u b = 3 ∧ (d.canStart u b dl).obj 0x6020 0x07 u b = time96 (clk16 (d.sex.zt.val + stepOf d.sex.zt.rate * (d.sofSample u : Int))) ∧
      (d.alm.canOut = [] → Completes (.canFrameStart t ch true dl) s fun x => x.bufState u b = 0 ∧ x.obj 0x6020 0x06 u b = 4 ∧ x.obj 0x6030 0x16 u = (d.obj 0x6030 0x16 u + 1) % 2 ^ 32 ∧
        ∃ e ∈ x.ev.bus, e.vector = some 17 ∧ e.lt = d.lt)) ∧
    (∀ (dl : Nat) (bad : Bool), dl < 65536 → d.canMayStart u = false ∨ d.canSelect u = none → Becomes (.canFrameStart t ch bad dl) s d) ∧
    (∀ b : Nat, d.canActive u = some b →
      Becomes (.canAttemptEnd t ch true) s ((d.canSent u b).canAfter u) ∧ Becomes (.canAttemptEnd t ch false) s ((d.canFailed u b).canAfter u) ∧
      Becomes (.canArbitrationLost t ch) s ((d.inc 0x6030 0x05 u).canFailed u b) ∧
      ((d.buf u b).held = none → d.alm.canOut = [] → d.obj 0x6010 0x05 u = 0 → d.obj 0x6020 0x01 u b = 0 →
        (d.canSent u b).bufState u b = 0 ∧ (d.canSent u b).obj 0x6020 0x06 u b = 1 ∧ (d.canSent u b).obj 0x6030 0x04 u = (d.obj 0x6030 0x04 u + 1) % 2 ^ 64) ∧
      ((d.buf u b).held = none → d.alm.canOut = [] → d.bufShut u b = false → (d.canFailed u b).bufState u b = 1 ∧ ((d.canFailed u b).buf u b).frame = (d.buf u b).frame) ∧
      ((d.buf u b).held = none → d.alm.canOut = [] → d.bufShut u b = true → d.obj 0x6020 0x03 u b = 1 → (d.canFailed u b).bufState u b = 0 ∧ (d.canFailed u b).obj 0x6020 0x06 u b = 3)) ∧
    (d.canActive u = none → Becomes (.canArbitrationLost t ch) s d ∧ (∀ g : Bool, Becomes (.canAttemptEnd t ch g) s d)) ∧
    (∀ e : CanError, 1 ≤ e.kind → e.kind ≤ 6 → (∀ x y : Nat, e.place = some (x, y) → x < 65536 ∧ y < 3) →
      (d.canState u = 2 ∨ d.canState u = 3 → d.unitPowered u = true → (d.chan u).settle = none → (e.transmitting = true → d.canActive u ≠ none) → Becomes (.canBusError t ch e) s ((d.canError u e).canAfter u)) ∧
      (d.canState u = 0 → Becomes (.canBusError t ch e) s d) ∧
      (d.canState u = 2 → d.flag 0x6010 0x03 u = false → e.transmitting = false → d.obj 0x6010 0x02 u ≠ 2 → d.obj 0x6010 0x05 u ≤ 127 → d.obj 0x6010 0x06 u < 120 →
        (d.canError u e).obj 0x6010 0x06 u = d.obj 0x6010 0x06 u + (if e.heavy then 8 else 1) ∧ (d.canError u e).obj 0x6010 0x09 u = e.kind ∧ (d.canError u e).canState u = 2) ∧
      (d.canState u = 3 → d.flag 0x6010 0x03 u = false → e.transmitting = true → e.exempt = false → 248 ≤ d.obj 0x6010 0x05 u → (∃ b : Nat, d.canActive u = some b) → d.obj 0x6010 0x02 u ≠ 2 →
        (d.canError u e).canState u = 4 ∧ (d.canError u e).obj 0x6030 0x0C u = (d.obj 0x6030 0x0C u + 1) % 2 ^ 32) ∧
      (d.unsignalled u (if e.transmitting then d.canActive u else none) e = true → e.kind ≠ 4 → e.transmitting = false → d.flag 0x6010 0x03 u = false →
        d.canError u e = (d.inc 0x6030 (errorCounter e.kind) u).set 0x6010 0x09 e.kind u))

/-- The LIN frames of a channel (R249 to R252, R257): a slot sends the header of the active table's entry and moves the pointer on; a slave takes a header of its identifiers behind a break of at least 11 bits; the response leaves once, with its checksum, after the response space, and stops at the byte that differs; a complete frame with the checksum of its data is counted and delivered; the time limit ends a frame. The model's choices in it: log entries 84, 85, 86, 190, 220. -/
def Obligations.LinFrames : Prop :=
  ∀ (s : State) (t : Nat) (d : Dev) (ch : Nat), s.Tick t d → s.Alone d → ch < 16 →
    let u := uL ch
    (d.slotsDriven u = false → (d.lin u).slotAt ≤ d.now → d.linState u = 1 → d.linMaster u = true → d.unitPowered u = true → (d.lin u).settle = none → (d.lin u).stopping = false → d.obj 0xA020 0x0C u = 0 →
      (∀ f : LinFrame, (d.lin u).frame = some f → Becomes (.linSlotStart t ch) s (d.inc 0x6840 0x0B u)) ∧
      (∀ tb : Nat, (d.lin u).frame = none → (d.lin u).collide = none → (d.lin u).request = none → (d.lin u).resume = none → d.obj 0x6810 0x06 u = tb → tb < 64 →
        d.obj 0x6810 0x08 u + 1 < d.tableCount tb → d.obj 0x6830 0x01 0 (tb * 64 + d.obj 0x6810 0x08 u) = 0 → d.obj 0x6820 0x01 u (d.obj 0x6830 0x02 0 (tb * 64 + d.obj 0x6810 0x08 u)) = 2 →
        Completes (.linSlotStart t ch) s fun x => x.obj 0x6810 0x08 u = d.obj 0x6810 0x08 u + 1 ∧ x.obj 0x6840 0x01 u = (d.obj 0x6840 0x01 u + 1) % 2 ^ 32 ∧
          ((x.lin u).frame.map (fun f => (f.id, f.start, f.own))) = some (d.obj 0x6830 0x02 0 (tb * 64 + d.obj 0x6810 0x08 u), d.now, false) ∧
          (x.lin u).slotAt = d.now + d.obj 0x6830 0x03 0 (tb * 64 + d.obj 0x6810 0x08 u) * 125000)) ∧
    (d.slotsDriven u = true ∨ d.now < (d.lin u).slotAt → Becomes (.linSlotStart t ch) s d) ∧
    (d.linState u = 1 → d.linMaster u = false → d.unitPowered u = true → (d.lin u).settle = none → (d.lin u).stopping = false → (d.lin u).frame = none → ∀ h : LinHead, h.rate = d.obj 0x6810 0x03 u → h.rate < 65536 →
      (h.brk * h.rate < 11 * 1250000000 → Becomes (.linHeaderReceived t ch 0x50 h) s d) ∧
      (11 * 1250000000 ≤ h.brk * h.rate → d.obj 0x6820 0x01 u 0x10 = 2 → Completes (.linHeaderReceived t ch 0x50 h) s fun x =>
        (x.lin u).frame = some { id := 0x10, len := d.linLen u 0x10, start := d.now - linBits 42 h.rate - h.brk, mark := d.now - linBits 41 h.rate, own := false, respAt := d.now + linBits (2 * d.obj 0x6810 0x09 u) h.rate } ∧
        x.obj 0x6810 0x0C u = h.rate) ∧
      (11 * 1250000000 ≤ h.brk * h.rate → Becomes (.linHeaderReceived t ch 0x10 h) s ((d.set 0x6810 0x0C h.rate u).inc 0x6840 0x09 u))) ∧
    (∀ f : LinFrame, (d.lin u).frame = some f → f.own = true → f.failed = false → f.resp = none →
      let b := d.linData u f
      let whole := b ++ [d.linCheckByte u f.id b]
      (f.sleepCmd = false → d.linMaster u = true → b = tget (fun _ => []) (d.lin u).data f.id) ∧
      (d.now < f.respAt → ∀ k : Option Nat, Becomes (.linResponseSend t ch k) s d) ∧
      (f.respAt ≤ d.now → Becomes (.linResponseSend t ch none) s ((d.out (.linResponse (u - 45) whole)).setLin u { d.lin u with frame := some { f with resp := some b } })) ∧
      (∀ k : Nat, f.respAt ≤ d.now → k < whole.length → Completes (.linResponseSend t ch (some k)) s fun x => (x.lin u).frame.map (·.failed) = some true ∧ (x.lin u).error = true ∧
        x.obj 0x6840 0x04 u = (d.obj 0x6840 0x04 u + 1) % 2 ^ 32 ∧ x.outbox = .linResponse (u - 45) (whole.take (k + 1)) :: d.outbox)) ∧
    (∀ (b : Bytes) (e : LinCheck), b.length ≤ 9 → Becomes (.linFrameComplete t ch b e) s ((d.linComplete u b e).linAfter u)) ∧
    (∀ (f : LinFrame) (b : Bytes) (c : Byte), (d.lin u).frame = some f → b.length ≤ 8 → f.failed = false → f.own = false → b.length = f.len → f.sleepCmd = false →
      (c = d.linCheckByte u f.id b → d.obj 0x6820 0x01 u f.id = 2 → (d.ingress (24 + ch)).length < 16 → (d.lin u).staging = [] → (d.lin u).sleepDue = false →
        (d.linComplete u (b ++ [c]) .good).ingress (24 + ch) = d.ingress (24 + ch) ++ [d.inPdu { ident := f.id, data := b } (d.now - f.mark)] ∧
        (d.linComplete u (b ++ [c]) .good).obj 0x6840 0x02 u = (d.obj 0x6840 0x02 u + 1) % 2 ^ 64 ∧ ((d.linComplete u (b ++ [c]) .good).lin u).frame = none) ∧
      (c ≠ d.linCheckByte u f.id b → f.type = 0 → (d.lin u).sleepDue = false → (d.linComplete u (b ++ [c]) .good).obj 0x6840 0x05 u = (d.obj 0x6840 0x05 u + 1) % 2 ^ 32 ∧
        ((d.linComplete u (b ++ [c]) .good).lin u).frame = none ∧ (d.linComplete u (b ++ [c]) .good).ingress (24 + ch) = d.ingress (24 + ch)) ∧
      (f.type = 0 → (d.lin u).sleepDue = false → (d.linComplete u (b ++ [c]) .framing).obj 0x6840 0x08 u = (d.obj 0x6840 0x08 u + 1) % 2 ^ 32 ∧ ((d.linComplete u (b ++ [c]) .framing).lin u).frame = none)) ∧
    (∀ f : LinFrame, (d.lin u).frame = some f →
      (f.start + frameMaxTime f.len (d.obj 0x6810 0x03 u) ≤ d.now → ∀ b : Bool, Becomes (.linFrameTimeLimit t ch b) s ((d.linLimit u b).linAfter u)) ∧
      (d.now < f.start + frameMaxTime f.len (d.obj 0x6810 0x03 u) → ∀ b : Bool, Becomes (.linFrameTimeLimit t ch b) s d) ∧
      (f.failed = false → f.sleepCmd = false → f.resp = none → f.type = 0 → f.id ≠ 61 → (d.lin u).sleepDue = false → ((d.linLimit u false).lin u).frame = none ∧
        (d.linLimit u false).obj 0x6840 0x06 u = (d.obj 0x6840 0x06 u + 1) % 2 ^ 32)) ∧
    ((d.lin u).frame = none → (∀ b : Bool, Becomes (.linFrameTimeLimit t ch b) s d) ∧ (∀ k : Option Nat, Becomes (.linResponseSend t ch k) s d))

/-- Writes of the CAN and LIN channels and their transceivers with a command of their own (R229, R233, R238, R254, R256, R262, R92). The model's choices in it: log entries 79, 203, 204, 218. -/
def Obligations.BusWrites : Prop :=
  ∀ (s : State) (t : Nat) (d : Dev) (q : Request) (o : ObjRow) (u : Nat), s.Tick t d → u < 61 →
    (d.takesWrite q o .canEnable u = true → recIndex q.bytes = 0x6010 → recSub q.bytes = 0x01 → q.value = 1 → d.flag 0x6010 0x01 u = false → (d.chan u).stopping = false → d.segState u = 0 →
      d.flag 0x6010 0x0A u = false → Completes (.canEnable t) s (d.Wrote q o fun y =>
        ((((y.set 0x6010 0x01 1 u).set 0x6000 0x04 (setBit (d.obj 0x6000 0x04) (u - 21) true)).set 0x6010 0x05 0 u).set 0x6010 0x06 0 u).xcvr u)) ∧
    (d.takesWrite q o .canStop u = true → recIndex q.bytes = 0x6010 → recSub q.bytes = 0x01 → q.value = 0 → 1 ≤ d.canState u → d.canState u ≤ 3 → d.unitPowered u = true →
      Completes (.canStop t) s (d.Wrote q o fun y => ((y.set 0x6010 0x01 0 u).set 0x6000 0x04 (setBit (d.obj 0x6000 0x04) (u - 21) false)).setChan u { d.chan u with stopping := true })) ∧
    (d.takesWrite q o .canBufferCancel u = true → recIndex q.bytes = 0x6020 → recSub q.bytes = 0x0A → q.value = 1 → s.startsNow d = d →
      (d.bufState u q.record = 0 → Completes (.canBufferCancel t) s (d.Wrote q o fun y => y)) ∧
      (d.bufState u q.record = 1 → (d.chan u).startsIn ≠ some (kernelIndex d.now) → Completes (.canBufferCancel t) s (d.Wrote q o fun y => ((y.bufEmpty u q.record 2).inc 0x6030 0x10 u).canPump)) ∧
      (d.bufState u q.record = 1 → (d.chan u).startsIn = some (kernelIndex d.now) → d.canMayStart u = true → d.canSelect u = some q.record →
        Completes (.canBufferCancel t) s (d.Wrote q o fun y => y.setBuf u q.record { d.buf u q.record with held := some none, heldCall := false })) ∧
      (d.bufState u q.record = 3 → Completes (.canBufferCancel t) s (d.Wrote q o fun y => y.setBuf u q.record { d.buf u q.record with held := some none, heldCall := false }))) ∧
    (d.takesWrite q o .timeMasterEnable u = true → recIndex q.bytes = 0x8060 → recSub q.bytes = 0x01 →
      (q.value = 1 → d.flag 0x8060 0x01 u = false → Completes (.timeMasterEnable t) s (d.Wrote q o fun y => (y.set 0x8060 0x01 1 u).set 0x8060 0x03 0 u)) ∧
      (q.value = 0 → Completes (.timeMasterEnable t) s (d.Wrote q o fun y => y.set 0x8060 0x01 0 u))) ∧
    (d.takesWrite q o .linStop u = true → recIndex q.bytes = 0x6810 → recSub q.bytes = 0x01 → q.value = 0 →
      (∀ f : LinFrame, (d.lin u).frame = some f → Completes (.linStop t) s (d.Wrote q o fun y =>
        ((y.set 0x6810 0x01 0 u).set 0x6800 0x04 (setBit (d.obj 0x6800 0x04) (u - 45) false)).setLin u { d.lin u with stopping := true })) ∧
      ((d.lin u).frame = none → Completes (.linStop t) s (d.Wrote q o fun y =>
        (((y.set 0x6810 0x01 0 u).set 0x6800 0x04 (setBit (d.obj 0x6800 0x04) (u - 45) false)).linRest u 0).xcvr u))) ∧
    (d.takesWrite q o .linTableRequest u = true → recIndex q.bytes = 0x6810 → recSub q.bytes = 0x07 →
      Completes (.linTableRequest t) s (d.Wrote q o fun y => (y.set 0x6810 0x07 q.value u).setLin u { d.lin u with request := if q.value = 0xFF then none else some q.value })) ∧
    (d.takesWrite q o .transceiverScriptRequest u = true → recIndex q.bytes = 0x6880 → recSub q.bytes = 0x07 → q.value = 1 →
      Completes (.transceiverScriptRequest t) s (d.Wrote q o fun y => y.scriptRequest u false))

/-- PDU jobs of the Rose (R24, R266 to R273, R282): the expiries that are due come first (R316, `j`); with a PDU job next, the Rose takes the head PDU of the queue and runs the job; a PDU without definition on a channel is counted or goes to the channel's container; a matched PDU is counted, with a wrong length counted as such; a destination's data has the destination's length, filled with the fill byte; a key slot of the CMAC engine whose line is found uncorrectable is lost to it (R407); a job of another kind, or none, does nothing more. The model's choices in it: log entries 93, 97, 103. -/
def Obligations.PduJobs : Prop :=
  ∀ (s : State) (t : Nat) (d j : Dev), s.Tick t d → d.jobStart = j →
    (j.roseNext = none → Becomes (.rosePduJob ⟨t, []⟩) s (j.usePorts [2]) ∧ Becomes (.roseUnpackJob t) s (j.usePorts [2]) ∧ Becomes (.roseEmissionJob t) s (j.usePorts [2])) ∧
    (d.dataOn = false → j = d ∧ d.roseNext = none) ∧
    (d.rose.fresh = [] → j = d) ∧
    (∀ (q : Nat) (x : InPdu) (l : List InPdu) (lost : List Nat), j.roseNext = some q → q < 24 → (j.cmacLinesLost lost).ingress q = x :: l → (∀ k ∈ lost, k < 256) →
      let w := j.cmacLinesLost lost
      let y := ((w.setIngress q l).inc64 0x7010 0x05 (q + 21)).refill q
      let p : RxPdu := { kind := 0, ident := x.frame.ident, busIdent := x.frame.ident, source := (unitGI (q + 21)).2, place := (unitGI (q + 21)).2, busId := 0, frame := x.frame, fix := clk16 x.zt, at_ := tget (fun _ => 0) w.rose.headAt q }
      Becomes (.rosePduJob ⟨t, lost⟩) s (((y.pduJob p (some (q + 21))).1.jobDone q (y.pduJob p (some (q + 21))).2).usePorts [2])) ∧
    (∀ (q : Nat) (x : InPdu) (l : List InPdu), j.roseNext = some q → 24 ≤ q → q < 40 → j.ingress q = x :: l →
      let y := ((j.setIngress q l).inc64 0x7010 0x05 (q + 21)).refill q
      let i := x.frame.ident % 64
      let p : RxPdu := { kind := 1, ident := i, busIdent := i, source := (unitGI (q + 21)).2, place := (unitGI (q + 21)).2, busId := 0, frame := { x.frame with ident := i }, fix := clk16 x.zt, at_ := tget (fun _ => 0) j.rose.headAt q }
      Becomes (.rosePduJob ⟨t, []⟩) s (((y.pduJob p (some (q + 21))).1.jobDone q (y.pduJob p (some (q + 21))).2).usePorts [2])) ∧
    (j.cmacLinesLost [] = j ∧ ∀ k : Nat, k < 256 → j.cmacLinesLost [k] = if j.cmacRefs k = 0 then j else j.slotLineLost k) ∧
    (∀ (e : EPdu) (l : List EPdu), j.roseNext = some 40 → j.rose.eq = e :: l →
      let y := j.roseUpd fun x => { x with eq := l, eqAt := d.now }
      let p : RxPdu := { kind := e.kind, ident := e.ident, busIdent := e.srcId, source := 0xE0, place := e.cont, busId := e.busId, frame := e.frame, fix := e.fix, at_ := j.rose.eqAt }
      Becomes (.rosePduJob ⟨t, []⟩) s (((y.pduJob p none).1.jobDone 40 (y.pduJob p none).2).usePorts [2]) ∧ Becomes (.roseUnpackJob t) s (j.usePorts [2])) ∧
    (∀ (f : Frame) (l : List Frame), j.roseNext = some 40 → j.rose.eq = [] → j.fab.toRose = f :: l →
      Becomes (.roseUnpackJob t) s ((((j.fabUpd fun x => { x with toRose := l }).unpack f).jobDone 40 (50 + 8 * cellsOf f.len)).usePorts [2]) ∧ Becomes (.rosePduJob ⟨t, []⟩) s (j.usePorts [2])) ∧
    (j.roseNext = some 41 → Becomes (.rosePduJob ⟨t, []⟩) s (j.usePorts [2]) ∧ Becomes (.roseUnpackJob t) s (j.usePorts [2])) ∧
    (∀ (p : RxPdu) (u : Nat), d.matchPdu p = none →
      d.pduJob p none = (d.inc 0x7400 0x1C 0 p.place, 50) ∧
      (d.flag 0x7010 0x01 u = false → d.pduJob p (some u) = ((d.inc 0x7010 0x06 u).inc64 0x7000 0x0C, 50)) ∧
      (d.flag 0x7010 0x01 u = true → d.flag 0x7400 0x01 0 (d.obj 0x7010 0x02 u) = true → d.cont 0x02 (d.obj 0x7010 0x02 u) = 0 →
        (d.pduJob p (some u)).1 = (d.addEntry (d.obj 0x7010 0x02 u) { pduId := 0xFFFF, busIdent := some p.busIdent, source := p.source, fix := p.fix, kind := 2, busId := 0, frame := { data := p.frame.data } } false).1)) ∧
    (∀ (p : RxPdu) (u : Option Nat) (r : Nat), d.matchPdu p = some r → d.flag 0x7810 0x20 0 r = false → d.pex 0x10 r = 0 → d.signalsOf r = [] → d.frameRoutes r = [] →
      d.pduJob p u = (if frameLen p.frame = d.pdef 0x08 r then d.inc64 0x7100 0x0C 0 r else (d.inc64 0x7100 0x0C 0 r).inc 0x7100 0x0E 0 r, 50)) ∧
    (∀ (r : Nat) (b : Bytes), (d.fitData r b).length = d.destLen r b.length ∧ (d.pdef 0x08 r ≠ 0xFFFF → d.destLen r b.length = d.pdef 0x08 r) ∧
      ∀ k : Nat, k < d.destLen r b.length → byteAt (d.fitData r b) k = if k < b.length then byteAt b k else d.pdef 0x09 r % 256)

/-- The queue P and emission jobs (R266, R287, R293, R307 to R310): a job enters P, merges into one that is there, or waits with a full P; a change trigger starts an emission at once or is deferred to the end of the minimum interval, whose release queues it; an emission job of an enabled destination puts out one PDU; a container whose collection time has run out is queued and sent as one frame. The model's choices in it: log entries 92, 103, 104, 105. -/
def Obligations.EmissionJobs : Prop :=
  ∀ (s : State) (t : Nat) (d x : Dev) (j : Nat) (l : List Nat), s.Tick t d → d.jobStart = x →
    (x.roseNext = some 41 → x.rose.pq = j :: l → j < 8192 → Becomes (.roseEmissionJob t) s (((x.popP.emission j).1.jobDone 41 (x.popP.emission j).2).usePorts [2])) ∧
    (x.roseNext = some 41 → x.rose.pq = j :: l → 8192 ≤ j → Becomes (.roseEmissionJob t) s (((x.popP.sendCont (j - 8192)).1.jobDone 41 (50 + (x.popP.sendCont (j - 8192)).2)).usePorts [2])) ∧
    (∀ q : Nat, x.roseNext = some q → q ≠ 41 → Becomes (.roseEmissionJob t) s (x.usePorts [2])) ∧
    (d.rose.pend = [] → d.rose.pq = j :: l → d.popP.rose.pq = l) ∧
    (∀ r : Nat, r < 8192 → d.flag 0x7100 0x01 0 r = false → d.emission r = (d, 50)) ∧
    (∀ r : Nat, r < 8192 → d.flag 0x7100 0x01 0 r = true → d.routesTo r = [] → d.withheldSec r = false → ∀ b : Bytes, b = List.replicate (d.pdef 0x08 r) (BitVec.ofNat 8 (d.pdef 0x09 r)) →
      let y := ((d.inc64 0x7810 0x03 0 r).set 0x7810 0x06 d.ztTime 0 r).roseUpd fun x => { x with lastStart := tput (fun _ => none) x.lastStart r (some d.lt) }
      let z := y.placePdu r (d.secure r (d.protect r b)) none { busIdent := none, source := 0xF0, fix := clk16 d.sex.zt.val } false false
      (d.emission r).1 = ((z.1.countPlaced r [] z.2.1).protectNext r).secureNext r) ∧
    (d.rose.pq.contains j = false → d.rose.pend.contains j = false → d.rose.pq.length < 1024 → (d.pushP j).rose.pq = d.rose.pq ++ [j]) ∧
    (d.rose.pq.contains j = true → 8192 ≤ j → d.pushP j = d.inc64 0x7800 0x03) ∧
    (∀ r : Nat, r < 8192 → (d.pex 0x01 r < 2 → d.changeTrigger r = d) ∧
      (2 ≤ d.pex 0x01 r → tget (fun _ => none) d.rose.lastStart r = none → d.changeTrigger r = d.pushP r) ∧
      (∀ a : Nat, 2 ≤ d.pex 0x01 r → tget (fun _ => none) d.rose.lastStart r = some a → d.lt < a + d.pex 0x02 r * perUs → d.flag 0x7810 0x07 0 r = false → d.rose.pq.contains r = false → d.rose.pend.contains r = false →
        d.changeTrigger r = (d.set 0x7810 0x07 1 0 r).roseUpd fun x => { x with release := tput (fun _ => 0) x.release r (a + d.pex 0x02 r * perUs) })) ∧
    (∀ r e : Nat, d.rose.release = [(r, e)] → (d.flag 0x7810 0x07 0 r = true → e ≤ d.lt →
        Becomes (.deferredChangeRelease t) s (((d.set 0x7810 0x07 0 0 r).roseUpd fun x => { x with release := tput (fun _ => 0) x.release r 0 }).pushP r)) ∧
      (d.lt < e → Becomes (.deferredChangeRelease t) s d)) ∧
    (∀ (c : Nat) (e : ContEntry), d.rose.staged = [(c, [e])] → d.rose.pq.contains (8192 + c) = false → d.rose.pend.contains (8192 + c) = false →
      (tget (fun _ => 0) d.rose.stagedAt c + d.cont 0x0E c * perUs ≤ d.lt → Becomes (.containerCollectionExpiry t) s (d.pushP (8192 + c))) ∧
      (d.lt < tget (fun _ => 0) d.rose.stagedAt c + d.cont 0x0E c * perUs → Becomes (.containerCollectionExpiry t) s d)) ∧
    (∀ c : Nat, tget (fun _ => []) d.rose.staged c = [] → d.sendCont c = (d, 0))

/-- Little-endian signals (R276): signal bit k, the least significant being 0, lies at position start + k, so that the signal runs upward through each byte and on into the next; the value at the positions is the one that the PDU's bits spell. -/
def Obligations.LittleEndianSignal : Prop :=
  ∀ start len : Nat,
    (sigPositions 0 start len).length = len ∧ (∀ k : Nat, k < len → (sigPositions 0 start len).getD k 0 = start + k) ∧
    ∀ (b : Bytes) (p : Nat) (l : List Nat), pduBit b p = (byteAt b (p / 8)).testBit (p % 8) ∧ bitsAt b (p :: l) = 2 * bitsAt b l + (if pduBit b p then 1 else 0)

/-- Big-endian signals (R277): the most significant bit lies at start, and from a position p the next lower bit lies at p − 1 when p mod 8 is not 0 and otherwise at p + 15, which is bit 7 of the next higher byte. -/
def Obligations.BigEndianSignal : Prop :=
  ∀ start len : Nat,
    (sigPositions 1 start len).length = len ∧ (0 < len → (sigPositions 1 start len).getD (len - 1) 0 = start) ∧
    (∀ k p : Nat, k + 1 < len → (sigPositions 1 start len).getD (k + 1) 0 = p →
      (sigPositions 1 start len).getD k 0 = (if p % 8 ≠ 0 then p - 1 else p + 15) ∧ (p % 8 = 0 → (sigPositions 1 start len).getD k 0 = 8 * (p / 8 + 1) + 7))

/-- Signals (R275 to R281, R313, R315 to R318): a mailbox takes a value with the next sequence number and the state VALID, the deadline starts again; when it runs out the signal is STALE or takes its substitute state, once, and the expiry is counted with its time; a deadline that has not come, or is held with its channel, changes nothing. The model's choices in it: log entry 141. -/
def Obligations.SignalMailboxes : Prop :=
  ∀ (s : State) (t : Nat) (d : Dev) (n : Nat), s.Tick t d → n < 65536 →
    (∀ v fix a : Nat, v < 2 ^ 64 → d.isLarge n = false → d.rose.pausedAt = [] → let x := d.mailbox n v [] fix a
      x.sig 0x08 n = 1 ∧ x.sig 0x09 n = v ∧ x.sig 0x0B n = nextSeq (d.sig 0x0B n) ∧ x.sig 0x0C n = (d.sig 0x0C n + 1) % 2 ^ 32 ∧ x.sig 0x0A n = time96 fix ∧
        tget (fun _ => none) x.rose.fresh n = if d.sfr 0x01 n / 10 = 0 then none else some (d.tick10 + d.sfr 0x01 n / 10 + 1)) ∧
    (∀ start len : Nat, sigPositions 0 start len = (List.range len).map (· + start) ∧ (sigPositions 1 start len).length = len) ∧
    (∀ (b : Bytes) (l : List Nat), bitsAt b l < 2 ^ l.length) ∧
    (tget (fun _ => none) d.rose.fresh n = none → Becomes (.freshnessExpiry t n) s d) ∧
    (∀ e : Nat, tget (fun _ => none) d.rose.fresh n = some e →
      (d.tick10 < e ∨ d.sig 0x08 n ≠ 1 → Becomes (.freshnessExpiry t n) s d) ∧
      (d.flag 0x7800 0x41 = true → (∃ u : Nat, d.defUnit (d.sig 0x02 n) = some u ∧ d.wRuns u = false) → Becomes (.freshnessExpiry t n) s d) ∧
      (e ≤ d.tick10 → d.flag 0x7800 0x41 = false → d.sig 0x08 n = 1 → d.sfr 0x02 n = 2 →
        let y := d.roseUpd fun x => { x with fresh := tput (fun _ => none) x.fresh n none }
        Becomes (.freshnessExpiry t n) s ((((y.setSig 0x08 n 2).setSfr 0x04 n ((d.sfr 0x04 n + 1) % 2 ^ 32)).inc64 0x7800 0x06).setSfr 0x06 n d.ztTime)) ∧
      (e ≤ d.tick10 → d.flag 0x7800 0x41 = false → d.sig 0x08 n = 1 → Completes (.freshnessExpiry t n) s fun x =>
        x.sig 0x08 n = (if d.sfr 0x02 n = 1 then 3 else 2) ∧ x.sig 0x09 n = d.sig 0x09 n ∧ x.sig 0x0B n = d.sig 0x0B n ∧ x.sfr 0x04 n = (d.sfr 0x04 n + 1) % 2 ^ 32 ∧ x.sfr 0x06 n = d.ztTime ∧
          x.obj 0x7800 0x06 = (d.obj 0x7800 0x06 + 1) % 2 ^ 64))

/-- Writes of the Rose's enables (R280, R281, R287 to R289, R293, R312, R322, R325): a definition that starts begins its protection and freshness anew, one that stops gives up its waiting job; a mailbox begins at NEVER RECEIVED with its initial value; a route marks its destination; a container begins with empty staging. The model's choices in it: log entry 100. -/
def Obligations.RoseWrites : Prop :=
  ∀ (s : State) (t : Nat) (d : Dev) (q : Request) (o : ObjRow), s.Tick t d →
    (d.takesWrite q o .definitionEnable 0 = true → recIndex q.bytes = 0x7100 → recSub q.bytes = 0x01 →
      (q.value = b2n (d.flag 0x7100 0x01 0 q.record) → Completes (.definitionEnable t) s (d.Wrote q o fun y => y)) ∧
      (q.value = 1 → d.flag 0x7100 0x01 0 q.record = false → Completes (.definitionEnable t) s (d.Wrote q o fun y =>
        (((y.set 0x7100 0x01 1 0 q.record).set 0x7810 0x15 0 0 q.record).set 0x7810 0x16 0 0 q.record).roseUpd fun x => { x with
          protSet := tput (fun _ => false) x.protSet q.record false, fvSet := tput (fun _ => false) x.fvSet q.record false })) ∧
      (q.value = 0 → d.flag 0x7100 0x01 0 q.record = true → Completes (.definitionEnable t) s (d.Wrote q o fun y =>
        (((y.set 0x7100 0x01 0 0 q.record).set 0x7810 0x07 0 0 q.record).dropP q.record).roseUpd fun x => { x with release := tput (fun _ => 0) x.release q.record 0 }))) ∧
    (∀ i k : Nat, i < 2 → k = q.record + 32768 * i → d.takesWrite q o .signalEnable 0 = true → recIndex q.bytes = 0x7200 + i → recSub q.bytes = 0x01 → q.record < 32768 →
      (q.value = d.sig 0x01 k → Completes (.signalEnable t) s (d.Wrote q o fun y => y)) ∧
      (q.value ≠ d.sig 0x01 k → d.isLarge k = false → Completes (.signalEnable t) s (d.Wrote q o fun y =>
        (y.setSig 0x01 k q.value).mailboxNew k (if q.value = 1 then d.sig 0x07 k else 0)))) ∧
    (∀ (n v : Nat), n < 65536 → v < 2 ^ 64 → let x := d.mailboxNew n v
      x.sig 0x08 n = 0 ∧ x.sig 0x09 n = v ∧ x.sig 0x0A n = 0 ∧ x.sig 0x0B n = 0 ∧ tget (fun _ => none) x.rose.fresh n = none) ∧
    (d.takesWrite q o .routeEnable 0 = true → recIndex q.bytes = 0x7300 → recSub q.bytes = 0x01 →
      (q.value = b2n (d.flag 0x7300 0x01 0 q.record) → Completes (.routeEnable t) s (d.Wrote q o fun y => y)) ∧
      (q.value = 1 → d.flag 0x7300 0x01 0 q.record = false → Completes (.routeEnable t) s (d.Wrote q o fun y =>
        ((((y.set 0x7300 0x01 1 0 q.record).set 0x7830 0x04 0 0 q.record).set 0x7830 0x06 0 0 q.record).roseUpd fun x => { x with carried := tput (fun _ => false) x.carried q.record false }).set 0x7100 0x10 (d.rt 0x02 q.record) 0 (d.rt 0x04 q.record))) ∧
      (q.value = 0 → d.flag 0x7300 0x01 0 q.record = true → Completes (.routeEnable t) s (d.Wrote q o fun y =>
        let z := y.set 0x7300 0x01 0 0 q.record
        if (z.enabledRecs 0x7300).any (fun k => z.rt 0x04 k == d.rt 0x04 q.record) then z else z.set 0x7100 0x10 0 0 (d.rt 0x04 q.record)))) ∧
    (d.takesWrite q o .containerEnable 0 = true → recIndex q.bytes = 0x7400 → recSub q.bytes = 0x01 →
      (q.value = b2n (d.flag 0x7400 0x01 0 q.record) → Completes (.containerEnable t) s (d.Wrote q o fun y => y)) ∧
      (q.value ≠ b2n (d.flag 0x7400 0x01 0 q.record) → Completes (.containerEnable t) s (d.Wrote q o fun y =>
        ((y.set 0x7400 0x01 q.value 0 q.record).dropP (8192 + q.record)).roseUpd fun x => { x with
          staged := tput (fun _ => []) x.staged q.record [], stagedAt := tput (fun _ => 0) x.stagedAt q.record 0, seqSet := tput (fun _ => false) x.seqSet q.record false })))

/-- A stack link (R352): it has lock when its lane pair does, every 100 µs a hello leaves on every link with lock, the third hello in a row brings it up, and a loss of lock or a hello timeout takes it down; half of a round trip measured every 125 ms is its delay (R364). Time across the stack (R364, R366): the lead sends its zone time to its neighbours, joining ones too; a member that gets it from its lead follows it and adds what the link takes; without messages for three intervals it holds the mean of its last rates. The model's choices in it: log entries 50, 51, 107, 109, 116, 226. -/
def Obligations.StackLinksAndTime : Prop :=
  (∀ (s : State) (t : Nat) (d : Dev) (k : Nat), s.Tick t d → k < 2 →
    (d.klinkState k = 0 → d.flag 0x9420 0x01 (uK k) = true → d.unitPowered (uK k) = true → Becomes (.stackLinkLock t k) s ((d.setKlink k {}).set 0x9420 0x02 1 (uK k))) ∧
    (d.klinkState k ≠ 0 → Becomes (.stackLinkLock t k) s d) ∧
    (dueAgain d.stack.helloAt (100 * perUs) d.now = true → let y := d.stackUpd fun x => { x with helloAt := some d.now }
      (d.klinkState 0 ≠ 0 → d.klinkState 1 ≠ 0 → d.macsecOn 20 = false → Becomes (.helloSend t) s ((y.out (.hello 0 (d.helloOut 0))).sendLink 1 (.hello 1 (d.helloOut 1)))) ∧
      (d.klinkState 0 ≠ 0 → d.klinkState 1 = 0 → Becomes (.helloSend t) s (y.sendLink 0 (.hello 0 (d.helloOut 0)))) ∧
      (d.klinkState 0 = 0 → d.klinkState 1 ≠ 0 → Becomes (.helloSend t) s (y.sendLink 1 (.hello 1 (d.helloOut 1)))) ∧
      (d.klinkState 0 = 0 → d.klinkState 1 = 0 → Becomes (.helloSend t) s y)) ∧
    (dueAgain d.stack.helloAt (100 * perUs) d.now = false → Becomes (.helloSend t) s d) ∧
    ((d.helloOut k).self = d.selfInfo ∧ d.selfInfo.member = d.stackId ∧ d.selfInfo.applied = d.obj 0x9400 0x07 ∧ d.selfInfo.lead = d.obj 0x9400 0x04) ∧
    (d.macsecOn (20 + k) = false → (∀ m : Out, d.sendLink k m = d.out m) ∧ ∀ h : Hello, Hello.ok h = true →
      (d.klinkState k = 0 → Becomes (.helloReceived t k h) s d) ∧
      (d.klinkState k = 1 → (d.klink k).run < 2 → Becomes (.helloReceived t k h) s
        (d.setKlink k { d.klink k with run := if (d.klink k).run = 0 ∨ (d.klink k).heard + d.helloLimit < d.now then 1 else (d.klink k).run + 1, heard := d.now, hello := some h })) ∧
      (d.klinkState k = 1 → 2 ≤ (d.klink k).run → d.now ≤ (d.klink k).heard + d.helloLimit → Becomes (.helloReceived t k h) s
        (((d.setKlink k { d.klink k with run := (d.klink k).run + 1, heard := d.now, hello := some h }).stackUp k h).stackProgress))) ∧
    (d.macsecOn (20 + k) = true → d.klinkState k ≠ 0 → ∀ h : Hello, Hello.ok h = true → h.sec = none → Becomes (.helloReceived t k h) s (d.inc 0xB100 0x0C (uK k))) ∧
    (d.macsecOn (20 + k) = false → ∀ h : Hello, Hello.ok h = true → d.klinkState k = 2 → Becomes (.helloReceived t k h) s
      ((d.setKlink k { d.klink k with run := if (d.klink k).run = 0 ∨ (d.klink k).heard + d.helloLimit < d.now then 1 else (d.klink k).run + 1, heard := d.now, hello := some h }).stackSettle.stackProgress)) ∧
    (∀ n : Nat, d.klinkState k ≠ 0 →
      Becomes (.stackLinkLockLoss t { k := k, errors := n }) s ((d.inc 0x9420 0x08 (uK k) 0 n).stackFall k false).stackProgress ∧
      Becomes (.stackLinkLockLoss t { k := k, errors := n, lost := false }) s (d.inc 0x9420 0x08 (uK k) 0 n)) ∧
    (d.klinkState k = 1 → (d.klink k).dup = false → d.stackFall k false = (d.setKlink k {}).set 0x9420 0x02 0 (uK k)) ∧
    (∀ l : LockLoss, l.k = k → d.klinkState k = 0 → Becomes (.stackLinkLockLoss t l) s d) ∧
    (s.Alone d → d.klinkState k = 2 → (d.klink k).heard + d.helloLimit ≤ d.now → Becomes (.helloTimeout t k) s ((d.inc 0x9420 0x07 (uK k)).stackFall k true).stackProgress) ∧
    (d.now < (d.klink k).heard + d.helloLimit → Becomes (.helloTimeout t k) s d) ∧
    (∀ n : Nat, n / 2 < 2 ^ 32 → (d.klinkState k = 2 → dueAgain (d.klink k).tripAt 156250000 d.now = true →
        Becomes (.linkDelayRoundTrip t k n) s ((d.setKlink k { d.klink k with tripAt := some d.now }).set 0x9420 0x0A (n / 2) (uK k))) ∧
      (d.klinkState k ≠ 2 ∨ dueAgain (d.klink k).tripAt 156250000 d.now = false → Becomes (.linkDelayRoundTrip t k n) s d))) ∧
  (∀ (s : State) (t : Nat) (d : Dev) (k : Nat) (m : TimeMsg), s.Tick t d → k < 2 →
    (∀ i : Nat, d.isLead = true → d.neighbour 0 = some i → i ≠ d.stackId → d.neighbour 1 = none → dueAgain d.stack.timeAt 9765625 d.now = true → Becomes (.timeMessageSend t) s
      ((d.stackUpd fun x => { x with timeAt := some d.now }).sendTime 0 { zt := clk16 d.sex.zt.val, added := 0, state := d.obj 0x8000 0x03, clockClass := d.obj 0x8000 0x0B })) ∧
    (d.macsecOn (20 + k) = false → d.sendTime k m = d.out (.timeMsg k m)) ∧
    (d.isLead = false ∨ d.neighbours = [] ∨ dueAgain d.stack.timeAt 9765625 d.now = false → Becomes (.timeMessageSend t) s d) ∧
    (d.macsecOn (20 + k) = false → d.isLead = true ∨ d.klinkState k ≠ 2 ∨ d.obj 0x9410 0x07 0 (d.obj 0x9400 0x04) ≠ k + 1 → Becomes (.timeMessageReceived t k m) s d) ∧
    (d.macsecOn (20 + k) = false → d.isLead = false → d.klinkState k = 2 → d.klinkState (1 - k) ≠ 2 → d.obj 0x9410 0x07 0 (d.obj 0x9400 0x04) = k + 1 →
      let y := d.followLead (((m.zt + (m.added + d.obj 0x9420 0x0A (uK k) * 65536 / 1000) : Nat) : Int) * 2 ^ 32)
      let z := if y.obj 0x8000 0x03 = m.state then y else y.sexUpd fun x => { x with stateAt := d.now }
      Becomes (.timeMessageReceived t k m) s ((z.set 0x8000 0x03 m.state).set 0x8000 0x0B m.clockClass)) ∧
    (∀ l : Int, (d.followLead l).obj 0x9430 0x01 = 2 ∧ (d.followLead l).obj 0x9430 0x03 = (d.obj 0x9430 0x03 + 1) % 2 ^ 32 ∧ (d.followLead l).stack.lastMsg = some (d.now, l, d.lt)) ∧
    (∀ (a l : Nat) (z : Int), d.stack.lastMsg = some (a, z, l) →
      (s.Alone d → d.obj 0x9430 0x01 = 2 → a + 3 * 9765625 ≤ d.now → Completes (.timeMessageLoss t) s fun x => x.obj 0x9430 0x01 = 3 ∧ x.obj 0x9430 0x05 = (d.obj 0x9430 0x05 + 1) % 2 ^ 32 ∧
        x.sex.zt.val = d.sex.zt.val ∧ x.sex.zt.rate = (if d.sex.rzHist.take 16 = [] then d.sex.zt.rate else rdiv (d.sex.rzHist.take 16).sum (d.sex.rzHist.take 16).length)) ∧
      (d.now < a + 3 * 9765625 → Becomes (.timeMessageLoss t) s d)))

/-- Membership (R355, R357, R373): a joining member that passes the checks is replayed its record and PRESENT, one that fails a check is held out with the reason, and one that joins under a number already PRESENT is held out as its link comes up; this member itself follows the time of its lead first; the admission of a member held out; the hold after a path change ends with its time (R360). The model's choices in it: log entries 107, 114, 226. -/
def Obligations.Membership : Prop :=
  ∀ (s : State) (t : Nat) (d : Dev) (m n : Nat), s.Tick t d → m < 4 →
    (d.infoOf m = none → Becomes (.rejoinComplete t m n) s d) ∧
    (m = d.stackId → d.stack.self = 1 → d.holdReason m = 0 → tget (fun _ => false) d.stack.overflow m = false →
      (d.isLead = false → d.obj 0x9430 0x01 ≠ 2 → Becomes (.rejoinComplete t m n) s d) ∧
      (d.obj 0x9430 0x01 = 2 → Becomes (.rejoinComplete t m n) s ((((d.replayTo m n d.selfInfo).memberIn m).leadSelect.stackView).stackProgress))) ∧
    (∀ (k : Nat) (h : Hello), k < 2 → h.self.member = d.stackId → h.self.state = 2 → d.stack.self = 1 → d.goesFirst h = true → d.stackId < 4 → (d.stackUp k h).stack.self = 3) ∧
    (∀ i : MemberInfo, d.infoOf m = some i → m ≠ d.stackId →
      (d.mState m ≠ 1 → Becomes (.rejoinComplete t m n) s d) ∧
      (d.mState m = 1 → d.holdReason m ≠ 0 → Becomes (.rejoinComplete t m n) s ((d.holdOut m (d.holdReason m)).stackView) ∧
        (d.holdOut m (d.holdReason m)).obj 0x9410 0x01 0 m = 3 ∧ (d.holdOut m (d.holdReason m)).obj 0x9410 0x05 0 m = d.holdReason m) ∧
      (d.mState m = 1 → d.holdReason m = 0 → tget (fun _ => false) d.stack.overflow m = true → Becomes (.rejoinComplete t m n) s ((d.holdOut m 4).stackView)) ∧
      (d.mState m = 1 → d.holdReason m = 0 → tget (fun _ => false) d.stack.overflow m = false →
        Becomes (.rejoinComplete t m n) s ((((d.replayTo m n i).memberIn m).leadSelect.stackView).stackProgress)) ∧
      (d.obj 0x9410 0x01 0 m ≠ 2 → (d.memberIn m).obj 0x9410 0x01 0 m = 2 ∧ (d.memberIn m).obj 0x9410 0x03 0 m = (d.obj 0x9410 0x03 0 m + 1) % 2 ^ 32)) ∧
    (∀ (q : Request) (o : ObjRow), d.takesWrite q o .memberAdmit 0 = true → recIndex q.bytes = 0x9410 → recSub q.bytes = 0x08 → q.value = 1 →
      Completes (.memberAdmit t) s (d.Wrote q o fun y => (((y.memberIn q.record).set 0x9401 0x03 1 0 q.record).set 0x9410 0x05 0 0 q.record).leadSelect.stackView)) ∧
    (∀ e : Nat, tget (fun _ => none) d.fab.pathHold m = some e →
      (e ≤ d.now → Becomes (.pathChangeHoldEnd t m) s (d.fabUpd fun x => { x with pathHold := tput (fun _ => none) x.pathHold m none })) ∧
      (d.now < e → Becomes (.pathChangeHoldEnd t m) s d))

/-- Writes across the stack (R356, R361, R362): a member checks a write of the lead and answers; a commit enters its record, and an addressed member applies it before it answers; the lead goes on when the answers are in; the lead ignores the messages that it sends itself. The model's choices in it: log entries 33, 115, 197, 212, 226. -/
def Obligations.StackWrites : Prop :=
  ∀ (s : State) (t : Nat) (d : Dev) (o : ObjRow) (b : Bytes), s.Tick t d → 20 ≤ b.length → findRow (recIndex b) (recSub b) = some o →
    (d.isLead = true → (∀ v : Service, Becomes (.stackWriteCheck t v b) s d) ∧ ∀ c : StackCommit, c.seq < 2 ^ 32 → c.members.all (fun m => decide (m < 4)) = true → Becomes (.stackWriteCommit t c b) s d) ∧
    (d.isLead = false → d.stackId ∈ d.pathMembers b → ∀ v : Service,
      (d.firstRefusal o b (v == .pcie || v == .hs) = none → Becomes (.stackWriteCheck t v b) s (d.answerLead 0 [])) ∧
      (∀ (c : Nat) (p : Bytes), d.firstRefusal o b (v == .pcie || v == .hs) = some (c, p) →
        Becomes (.stackWriteCheck t v b) s ((d.countRefusal (recIndex b) (recRecord b) c).answerLead c p))) ∧
    (d.isLead = false → ∀ c : StackCommit, c.seq < 2 ^ 32 → c.members.all (fun m => decide (m < 4)) = true →
      let x := ((d.set 0x9400 0x07 c.seq).set 0x9401 0x04 c.seq 0 d.stackId).recordWrite o b c.members c.seq
      (d.stackId ∉ c.members → Becomes (.stackWriteCommit t c b) s x) ∧
      (d.stackId ∈ c.members → d.stack.self = 2 → d.alm.settings = [] →
        let y := (x.applyUnits o b).almUpd fun z => { z with answerDue := true }
        (y.writeReady = true → Becomes (.stackWriteCommit t c b) s (((y.answerLead 0 []).almUpd fun z => { z with answerDue := false }).afterReply b)) ∧
        (y.writeReady = false → Becomes (.stackWriteCommit t c b) s y))) ∧
    (∀ (m : Nat) (w : StackWrite), m < 4 → d.alm.stackWrite = some w → m ∈ w.waitFor → w.refusal = none →
      Becomes (.memberAnswerReceived t m w.committed 0 []) s (((if w.committed = true then d.set 0x9401 0x04 (d.obj 0x9400 0x07) 0 m else d).almUpd fun x => { x with stackWrite := some { w with
        waitFor := w.waitFor.filter (fun k => k != m), taken := w.taken || w.committed } }).stackProgress)) ∧
    (∀ (m : Nat) (g : Bool), m < 4 → d.alm.stackWrite = none → Becomes (.memberAnswerReceived t m g 0 []) s d) ∧
    (∀ w : Ownership, w.owner.length = 8 → (∀ x ∈ w.owner, 1 ≤ x.1 ∧ x.1 ≤ 8) → w.wins.length = 16 →
      (d.isLead = true → Becomes (.ownershipStateMessage t w) s d) ∧
      (d.isLead = false → Completes (.ownershipStateMessage t w) s fun x => x.stack.lease = some w.lease ∧ x.stack.leaseFrom = some d.now ∧ (∀ r : Nat, r < 16 → x.obj 0x1010 0x06 0 r = w.wins.getD r 0) ∧
        ∀ k : Nat, k < 13 → x.obj 0x1020 (k + 1) = b2n (bit w.gates k)))

/-- The remote bridge (R369 to R371, R374): a posted write and a read leave for a PRESENT member, one to another member is logged or fails with all-ones; an inbound request is executed and answered; a completion ends the read that waits for it, a late one is counted; a write error is logged; a read without completion times out, and so does a check or a commit that a member leaves unanswered, S-0402 (R52; the time of 100 µs for it is the model's, DESIGN CHOICE: log entry 178); the log is cleared by its write. The model's choices in it: log entries 110, 111, 178, 226. -/
def Obligations.RemoteBridge : Prop :=
  ∀ (s : State) (t : Nat) (d : Dev) (pair target tag addr : Nat), s.Tick t d → pair < 4 → target < 4 → tag < 256 → addr < 2 ^ 40 →
    (∀ b : Bytes, 1 ≤ b.length → b.length ≤ 64 → target ≠ d.stackId → d.stack.held = [] → (∀ r ∈ d.stack.reads, r.pair ≠ pair) → d.stack.writes.length < 16 →
      (d.obj 0x9410 0x01 0 target = 2 → Becomes (.bridgePostedWriteIssue t pair target tag addr b []) s
        (d.bridgeSend { tag := tag, pair := pair, target := target, addr := addr, len := b.length, issued := d.now } b)) ∧
      (d.obj 0x9410 0x01 0 target ≠ 2 → Becomes (.bridgePostedWriteIssue t pair target tag addr b []) s
        (d.bridgeLog { tag := tag, pair := pair, target := target, addr := addr, len := b.length, issued := d.now } 4))) ∧
    (∀ b : Bytes, 1 ≤ b.length → b.length ≤ 64 → d.busHeld pair = true → d.stack.held = [] → Becomes (.bridgePostedWriteIssue t pair target tag addr b []) s d) ∧
    (∀ n : Nat, 1 ≤ n → n ≤ 64 → target ≠ d.stackId → d.stack.reads = [] → d.stack.held = [] → let r : BridgeReq := { tag := tag, pair := pair, target := target, addr := addr, len := n, issued := d.now }
      (d.obj 0x9410 0x01 0 target = 2 → Becomes (.bridgeReadIssue t pair target tag addr n) s (((d.stackUpd fun x => { x with reads := [r] }).inc64 0x9440 0x03).sendTo target (.bridge (bridgeHeader 2 d.stackId target r.ref 0) []))) ∧
      (d.obj 0x9410 0x01 0 target ≠ 2 → Becomes (.bridgeReadIssue t pair target tag addr n) s (d.out (.bridgeRead pair (List.replicate n 0xFF) true)))) ∧
    (∀ (st : Nat) (b : Bytes), 1 ≤ b.length → b.length ≤ 64 → st < 4 → let r : BridgeRef := { tag := tag, pair := pair, len := b.length, addr := addr }
      let y := (d.inc64 0x9440 0x06).out (.credit target)
      Becomes (.bridgeRequestExecute t 2 target pair tag addr b.length st b) s (y.sendTo target (.bridge (bridgeHeader 0x81 target d.stackId r st) (if st = 0 then b else List.replicate b.length 0))) ∧
      (st ≠ 0 → Becomes (.bridgeRequestExecute t 1 target pair tag addr b.length st b) s (y.sendTo target (.bridge (bridgeHeader 0x82 target d.stackId r st) []))) ∧
      Becomes (.bridgeRequestExecute t 1 target pair tag addr b.length 0 b) s y) ∧
    (∀ (r : BridgeReq) (b : Bytes), d.stack.reads = [r] → r.target = target → r.tag = tag → d.now ≤ r.issued + 100 * perUs → d.stack.held = [] →
      let y := d.stackUpd fun x => { x with reads := [], writes := x.writes.filter (fun w => !(w.target == target && decide (w.issued < r.issued))) }
      Becomes (.bridgeReadCompletion t target tag 0 b) s (y.out (.bridgeRead r.pair b false)) ∧
      Becomes (.bridgeReadCompletion t target tag 1 b) s (y.out (.bridgeRead r.pair (List.replicate r.len 0xFF) true))) ∧
    (∀ b : Bytes, d.stack.reads = [] → Becomes (.bridgeReadCompletion t target tag 0 b) s (d.inc 0x9440 0x05) ∧ (1 ≤ pair ∨ d.alm.stackWrite = none → Becomes (.bridgeReadTimeout t pair) s d)) ∧
    (∀ (w : StackWrite) (m : Nat) (l : List Nat), s.Alone d → d.stack.reads = [] → d.pairRuns 0 = true → d.alm.stackWrite = some w → w.since + 100 * perUs ≤ d.now → w.waitFor = m :: l →
      Becomes (.bridgeReadTimeout t 0) s ((d.almUpd fun x => { x with stackWrite := some { w with waitFor := [], refusal := some (firstPath w.refusal 0x402 (unitPath m 0)) } }).stackProgress)) ∧
    (∀ r : BridgeReq, d.stack.writes = [r] → d.stack.held = [] → r.target = target → BridgeRef.ok r.ref = true →
      Becomes (.bridgeWriteErrorReport t target r.ref 1) s ((d.bridgeLog r 1).stackUpd fun x => { x with writes := [] })) ∧
    (∀ r : BridgeReq, d.stack.writes = [] → d.stack.held = [] → r.target = target → BridgeRef.ok r.ref = true → Becomes (.bridgeWriteErrorReport t target r.ref 1) s (d.bridgeLog r 1)) ∧
    (∀ (r : BridgeReq) (n : Nat), d.obj 0x9440 0x07 < 16 → n = d.obj 0x9440 0x07 → (d.bridgeLog r 1).obj 0x9440 0x07 = n + 1 ∧ (d.bridgeLog r 1).obj 0x9441 1 = r.target ∧ (d.bridgeLog r 1).obj 0x9441 2 = r.addr ∧
      (d.bridgeLog r 1).obj 0x9441 1 0 1 = d.obj 0x9441 1) ∧
    (∀ r : BridgeReq, d.stack.reads = [r] → r.pair = pair →
      (s.Alone d → r.issued + 100 * perUs ≤ d.now → Becomes (.bridgeReadTimeout t pair) s (((d.stackUpd fun x => { x with reads := [] }).out (.bridgeRead pair (List.replicate r.len 0xFF) true)).inc 0x9440 0x04)) ∧
      (d.now < r.issued + 100 * perUs → Becomes (.bridgeReadTimeout t pair) s d)) ∧
    (∀ (q : Request) (o : ObjRow), d.takesWrite q o .bridgeLogClear 0 = true → recIndex q.bytes = 0x9440 → recSub q.bytes = 0x09 → q.value = 1 →
      Completes (.bridgeLogClear t) s fun x => x.obj 0x9440 0x07 = 0 ∧ ∀ r k : Nat, r < 16 → 1 ≤ k → k ≤ 5 → x.obj 0x9441 k 0 r = 0)

/-- The wake inputs (R263, R264): an edge whose level has lasted the filter time is counted and wakes, a shorter one only ends a test, a release and a stuck input change the state, and the periodic test reports its voltage. They work in every device state but Off. The model's choices in it: log entry 221. -/
def Obligations.WakeInputs : Prop :=
  ∀ (s : State) (t : Nat) (d : Dev) (i : Nat), s.at t = d → d.watch.off = false → i < 4 →
    (d.flag 0x68B0 0x01 0 i = true → d.obj 0x68B0 0x05 0 i = 1 → d.obj 0x68B0 0x02 0 i = 2 → d.obj 0xA030 0x01 0 i = 0 → d.obj 0xA030 0x02 0 i = 0 → (∀ u ∈ segments48, d.segState u = 0) → d.watch.sleepSeen = false → (d.input i).level = false →
      ∀ h : Nat, d.obj 0x68B0 0x03 0 i * perMs ≤ h →
      Becomes (.wakeInputWake t i { active := true, held := h }) s (((((d.set 0x68B0 0x05 2 0 i).setInput i { d.input i with level := true, testing := false, activeAt := d.now - h }).inc 0x68B0 0x07 0 i).watchEvent .wake).wakeEvent (d.flag 0xA030 0x03 0 i))) ∧
    (∀ l : WakeLevel, (d.flag 0x68B0 0x01 0 i = false ∧ (d.input i).level = false) ∨ l.held < d.obj 0x68B0 0x03 0 i * perMs →
      Becomes (.wakeInputWake t i l) s (d.setInput i { d.input i with testing := (d.input i).testing && !l.active })) ∧
    (d.flag 0x68B0 0x01 0 i = true → d.obj 0x68B0 0x05 0 i = 2 → ∀ h : Nat, Becomes (.wakeInputRelease t i h) s ((d.set 0x68B0 0x05 1 0 i).watchSettle)) ∧
    (d.flag 0x68B0 0x01 0 i = true → d.obj 0x68B0 0x05 0 i = 5 → ∀ h : Nat,
      (d.obj 0x68B0 0x03 0 i * perMs ≤ h → Becomes (.wakeInputRelease t i h) s (((d.set 0x68B0 0x05 1 0 i).setInput i { d.input i with level := false }).watchSettle)) ∧
      (h < d.obj 0x68B0 0x03 0 i * perMs → Becomes (.wakeInputRelease t i h) s d)) ∧
    (d.obj 0x68B0 0x05 0 i = 1 → ∀ h : Nat, Becomes (.wakeInputRelease t i h) s d) ∧
    (d.flag 0x68B0 0x01 0 i = true → d.obj 0x68B0 0x05 0 i = 1 → d.obj 0x68B0 0x04 0 i ≠ 0 → (d.input i).testAt + d.obj 0x68B0 0x04 0 i * perMs ≤ d.now →
      Becomes (.wakeInputTestStart t i) s (d.setInput i { d.input i with testing := true, testAt := d.now })) ∧
    (d.obj 0x68B0 0x04 0 i = 0 → Becomes (.wakeInputTestStart t i) s d) ∧
    ((d.input i).testing = true → (d.input i).testAt + 200 * perUs ≤ d.now → s.Alone d → ∀ mv : Nat,
      (mv ≤ 2600 → Becomes (.wakeInputTestEnd t i { millivolts := mv }) s ((d.setInput i { d.input i with testing := false }).inputState i (if mv < 800 then 4 else if mv ≤ 2400 then 1 else 3))) ∧
      Becomes (.wakeInputTestEnd t i { millivolts := mv, active := true }) s (d.setInput i { d.input i with testing := false })) ∧
    ((d.input i).testing = false → ∀ e : WakeTest, Becomes (.wakeInputTestEnd t i e) s d) ∧
    (d.obj 0x68B0 0x05 0 i = 2 → (d.input i).activeAt + d.obj 0x68B0 0x06 0 i * perS < d.now → s.Alone d →
      Becomes (.wakeInputStuck t i) s (d.inputState i 5) ∧ (d.inputState i 5).obj 0x68B0 0x05 0 i = 5 ∧ (d.inputState i 5).obj 0x68B0 0x08 0 i = (d.obj 0x68B0 0x08 0 i + 1) % 2 ^ 32) ∧
    (d.obj 0x68B0 0x05 0 i ≠ 2 → Becomes (.wakeInputStuck t i) s d)

/-- A sleeping segment wakes on bus activity or on a LIN wake signal, waiting for its domain while that is off (R380, R386); a selective-wake script ends verified, at its repeat too, or failed, and the segment that it puts to sleep is then SLEEPING (R262, R384). The model's choices in it: log entries 87, 122, 195. -/
def Obligations.SegmentsWakeAndScripts : Prop :=
  ∀ (s : State) (t : Nat) (d : Dev) (u : Nat), s.at t = d → d.watch.off = false →
    (13 ≤ u → u < 45 →
      (d.segState u = 1 ∨ d.segState u = 2 → Becomes (.busWake t u) s ((d.segKick u 5 0xFF).watchSettle)) ∧
      (3 ≤ d.segState u → Becomes (.busWake t u) s d) ∧
      (d.segState u = 1 → d.coreOn = false → (d.segKick u 5 0xFF).segState u = 2 ∧ (d.segKick u 5 0xFF).obj 0xA020 0x0E u = 5 ∧ (d.segKick u 5 0xFF).obj 0xA020 0x0F u = 0xFF ∧
        (d.segKick u 5 0xFF).obj 0xA020 0x16 u = (d.obj 0xA020 0x16 u + 1) % 2 ^ 32 ∧ (d.segKick u 5 0xFF).obj 0xA000 0x05 = 5)) ∧
    (∀ ch : Nat, ch < 16 →
      (d.linState (uL ch) = 2 → d.flag 0xA020 0x1D (uL ch) = false → Becomes (.linWakeSignalReceived t ch) s (((d.inc 0x6840 0x0F (uL ch)).segKick (uL ch) 7 0xFF).watchSettle)) ∧
      (d.linState (uL ch) = 2 → d.flag 0xA020 0x1D (uL ch) = true → Becomes (.linWakeSignalReceived t ch) s (d.inc 0x6840 0x0F (uL ch))) ∧
      (d.linState (uL ch) ≠ 2 → d.segState (uL ch) = 0 → Becomes (.linWakeSignalReceived t ch) s d)) ∧
    (s.Alone d → ∀ x : Script, d.watch.scripts = [x] →
      (x.forSleep = false → ∀ r : ScriptReads,
        (x.verified r.first = true → Becomes (.transceiverScriptComplete t r) s ((d.watchUpd fun w => { w with scripts := [] }).set 0x6880 0x08 2 x.unit)) ∧
        (x.verified r.first = false → x.verified r.again = true → Becomes (.transceiverScriptComplete t r) s (((d.watchUpd fun w => { w with scripts := [] }).out (.script x.spi x.sent)).set 0x6880 0x08 2 x.unit)) ∧
        (x.verified r.first = false → x.verified r.again = false → Becomes (.transceiverScriptComplete t r) s
          (((((d.watchUpd fun w => { w with scripts := [] }).out (.script x.spi x.sent)).set 0x6880 0x08 3 x.unit).inc 0x6880 0x09 x.unit).event 6 (some 17) Ev.scriptFailed.code x.unit))) ∧
      (x.forSleep = true → d.segState x.unit = 6 → (d.seg x.unit).step = 2 → ∀ r : ScriptReads, x.verified r.first = true →
        Becomes (.transceiverScriptComplete t r) s ((((d.watchUpd fun w => { w with scripts := [] }).set 0x6880 0x08 2 x.unit).segAsleep x.unit).watchSettle) ∧
        (13 ≤ x.unit → x.unit < 61 → (d.segAsleep x.unit).segState x.unit = 1 ∧ (d.segAsleep x.unit).obj 0xA020 0x15 x.unit = (d.obj 0xA020 0x15 x.unit + 1) % 2 ^ 32))) ∧
    (s.Alone d → d.watch.scripts = [] → ∀ r : ScriptReads, Becomes (.transceiverScriptComplete t r) s d)

/-- Network management of a segment (R376, R378 to R384, R388): a keep-alive that is honoured restarts Tr and one of an ignored node is only counted; Tr ends READY SLEEP with a last call; the NM cycle sends a keep-alive; a last call that cannot be sent, and a window without veto, lead to GOING TO SLEEP; a segment kept awake too long is counted and ignores its keepers. The model's choices in it: log entries 124, 159, 195, 229. -/
def Obligations.NetworkManagement : Prop :=
  ∀ (s : State) (t : Nat) (d : Dev) (u : Nat), s.Tick t d → d.pairRuns 1 = true → 13 ≤ u → u < 61 →
    (∀ (m : Nat) (b : Bytes), u < 45 → m < 2 ^ 32 → d.isKeepAlive u m b = true →
      (d.segState u ≠ 0 → d.nodeIgnored u (byteAt b 0) = true → Becomes (.nmPduReceived t u m b) s (d.inc 0xA020 0x12 u)) ∧
      (d.segState u = 3 ∨ d.segState u = 4 → d.nodeIgnored u (byteAt b 0) = false → Becomes (.nmPduReceived t u m b) s
        ((((d.inc 0xA020 0x11 u).setSeg u { d.seg u with honoured := (byteAt b 0, d.now) :: (d.seg u).honoured.filter (fun x => x.1 != byteAt b 0) }).segTr u true).watchSettle))) ∧
    (∀ (m : Nat) (b : Bytes), u < 45 → m < 2 ^ 32 → d.isKeepAlive u m b = false → Becomes (.nmPduReceived t u m b) s d) ∧
    (s.Alone d → ∀ e : Nat, (d.seg u).tr = some e →
      (e ≤ d.now → d.segState u = 4 → Becomes (.readySleepExpiry t u) s (((d.setSeg u { d.seg u with tr := none, trRemote := false }).segLastCall u).watchSettle)) ∧
      (e ≤ d.now → d.segState u = 3 → Becomes (.readySleepExpiry t u) s ((d.setSeg u { d.seg u with tr := none, trRemote := false }).watchSettle)) ∧
      (d.now < e → Becomes (.readySleepExpiry t u) s d)) ∧
    ((d.segLastCall u).segState u = 5 ∧ (d.segLastCall u).obj 0xA020 0x13 u = (d.obj 0xA020 0x13 u + 1) % 2 ^ 32) ∧
    (d.segState u = 3 → (d.seg u).nmNext ≤ d.now → Becomes (.nmCycle t u) s ((d.setSeg u { d.seg u with nmNext := (d.seg u).nmNext + d.obj 0xA020 0x07 u * perMs }).nmSend u true false)) ∧
    (d.segState u ≠ 3 ∨ d.now < (d.seg u).nmNext → Becomes (.nmCycle t u) s d) ∧
    (s.Alone d → ∀ (l : Nat) (b : Bool), u < 45 → (d.seg u).loadedAt = some l → d.segState u = 5 →
      (l + d.obj 0xA020 0x06 u * perMs ≤ d.now → Becomes (.lastCallNotSent t u b) s ((((d.callCancel u).inc 0xA020 0x1B u).segGoing u b).watchSettle)) ∧
      (d.now < l + d.obj 0xA020 0x06 u * perMs → Becomes (.lastCallNotSent t u b) s d)) ∧
    (s.Alone d → ∀ (e : Nat) (b : Bool), (d.seg u).windowEnd = some e → d.segState u = 5 →
      (e ≤ d.now → Becomes (.lastCallWindowClose t u b) s ((d.segGoing u b).watchSettle)) ∧ (d.now < e → Becomes (.lastCallWindowClose t u b) s d)) ∧
    ((d.segGoing u true).segState u = 6 ∧ ((d.segGoing u true).seg u).step = 1) ∧
    (d.obj 0xA020 0x08 u ≠ 0 → d.obj 0xA020 0x08 u < d.awakeSeconds u → 3 ≤ d.segState u → (d.seg u).honoured = [] → isLin u = false →
      Becomes (.maxAwakeExceeded t u) s (((((d.setSeg u { d.seg u with trRemote := false, awakeFrom := some d.now }).inc 0xA020 0x18 u).event 1 (some 3) Ev.awakeExceeded.code u []).watchSettle))) ∧
    (d.awakeSeconds u ≤ d.obj 0xA020 0x08 u → Becomes (.maxAwakeExceeded t u) s d)

/-- Writes of the Watch with a command of their own (R375, R376, R389). The state commands (R391, R393, R481): Partial and Run start the ramps of the domains they add, in order; Standby powers every domain down and is reached at once; a Watch write waits for RUN_REQ low, and with it low the device enters Watch behind the reply. The model's choices in it: log entries 118, 119, 120. -/
def Obligations.WatchAndStateWrites : Prop :=
  (∀ (s : State) (t : Nat) (d : Dev) (q : Request) (o : ObjRow) (u : Nat), s.Tick t d → u < 61 →
    (d.takesWrite q o .hostNeed u = true → recIndex q.bytes = 0xA020 → recSub q.bytes = 0x09 →
      (q.value = 1 → Completes (.hostNeed t) s (d.Wrote q o fun y => (((y.set 0xA020 0x09 1 u).ignoreClear u).awakeRun u false).watchSettle)) ∧
      (q.value = 0 → d.segState u < 3 → Completes (.hostNeed t) s (d.Wrote q o fun y => (y.set 0xA020 0x09 0 u).watchSettle))) ∧
    (d.takesWrite q o .managementSwitch u = true → recIndex q.bytes = 0xA020 → recSub q.bytes = 0x01 →
      (q.value = 0 → d.segState u = 0 → Completes (.managementSwitch t) s (d.Wrote q o fun y => (y.set 0xA020 0x01 0 u).watchSettle)) ∧
      (q.value = 1 → d.segState u = 0 → d.segCanWake u = false → d.obj 0xA020 0x0E u ≠ 0 →
        Completes (.managementSwitch t) s (d.Wrote q o fun y => ((y.set 0xA020 0x01 1 u).set 0xA020 0x0C 2 u).watchSettle))) ∧
    (d.takesWrite q o .clearIgnoreList u = true → recIndex q.bytes = 0xA020 → recSub q.bytes = 0x1C → q.value = 1 →
      Completes (.clearIgnoreList t) s (d.Wrote q o fun y => y.ignoreClear u))) ∧
  (∀ (s : State) (t : Nat) (d : Dev) (q : Request) (o : ObjRow), s.Tick t d → recIndex q.bytes = 0xA000 → recSub q.bytes = 0x01 → d.obj 0xA000 0x08 = 0 → d.flag 0xA000 0x09 = false → d.pow.ramp = [] →
    (d.takesWrite q o .stateCommandPartial 0 = true → q.value = 3 → d.obj 0xA000 0x02 = 2 → d.pow.domains = 0 → d.obj 0xA000 0x03 % 32 ≠ 0 → Completes (.stateCommandPartial t) s fun x =>
      x.obj 0xA000 0x01 = 3 ∧ x.obj 0xA000 0x04 = 0 ∧ x.obj 0xA000 0x02 = 2 ∧ x.pow.target = 3 ∧ x.pow.domains = 0 ∧ x.pow.ramp = rampOrder (d.obj 0xA000 0x03 % 32) ∧ x.alm.waiting = true) ∧
    (d.takesWrite q o .stateCommandRun 0 = true → q.value = 4 → d.obj 0xA000 0x02 = 2 → d.pow.domains = 0 → Completes (.stateCommandRun t) s fun x =>
      x.obj 0xA000 0x01 = 4 ∧ x.obj 0xA000 0x04 = 0 ∧ x.obj 0xA000 0x02 = 2 ∧ x.pow.target = 4 ∧ x.pow.domains = 0 ∧ x.pow.ramp = [3, 2, 1, 0, 4] ∧ x.alm.waiting = true) ∧
    (d.takesWrite q o .stateCommandStandby 0 = true → q.value = 2 → d.obj 0xA000 0x02 = 3 → d.pow.domains = 8 → (∀ u ∈ segments48, d.segState u = 0) → d.watch.sleepSeen = false → Completes (.stateCommandStandby t) s fun x =>
      x.obj 0xA000 0x01 = 2 ∧ x.obj 0xA000 0x02 = 2 ∧ x.pow.domains = 0 ∧ x.obj 0xA000 0x0E = (d.obj 0xA000 0x0E + 1) % 2 ^ 32) ∧
    (d.takesWrite q o .stateCommandWatch 0 = true → q.value = 1 → d.obj 0xA000 0x02 = 2 →
      (d.watch.runReq = true → Completes (.stateCommandWatch t) s fun x => x.obj 0xA000 0x01 = 1 ∧ x.obj 0xA000 0x04 = 1 ∧ x.obj 0xA000 0x02 = 2 ∧ x.watch = d.watch) ∧
      (d.watch.runReq = false → d.chans = [] → d.lins = [] → d.chart.flushes = [] → Completes (.stateCommandWatch t) s fun x =>
        x.watch.inWatch = true ∧ x.watch.mainEn = false ∧ x.obj 0xA000 0x02 = 1 ∧ x.obj 0xA000 0x04 = 0 ∧ x.obj 0xA000 0x0E = (d.obj 0xA000 0x0E + 1) % 2 ^ 32)))

/-- Power switching (R481, R391): the ramping domain is on at the end of its ramp and the next one starts; with the last the state is reached. A sleep request that nobody acknowledges in time makes the fail-safe act (R394, R395). Droop steps (R486, R487) and the lockstep pairs (R29, R30): a deeper step is taken at once and one is left at a time; a pair that disagrees restarts, and is held in reset when it disagrees again within 10 s; a running blend holds its rate while CP2 restarts (R89); a restart that is complete lets the frozen services go on. The model's choices in it: log entries 119, 125, 128, 159. -/
def Obligations.RampsDroopAndPairs : Prop :=
  (∀ (s : State) (t : Nat) (d : Dev), s.Tick t d →
    (d.pow.ramp = [] → Becomes (.powerDomainRampEnd t) s d) ∧
    (∀ (k : Nat) (l : List Nat), d.pow.ramp = k :: l → let y := (((d.powUpd fun x => { x with domains := setBit x.domains k true, ramp := l }).freshAll.plotterRepower d).pendingUp).segLinks.watchSettle
      (l ≠ [] → Becomes (.powerDomainRampEnd t) s y) ∧ (l = [] → Becomes (.powerDomainRampEnd t) s ((y.stateReached y.pow.target).finishIfReady))) ∧
    (∀ v : Nat, (∀ u ∈ segments48, d.segState u = 0) → d.watch.sleepSeen = false → (d.stateReached v).obj 0xA000 0x02 = v ∧ (d.stateReached v).obj 0xA000 0x0E = (d.obj 0xA000 0x0E + 1) % 2 ^ 32) ∧
    (∀ e : Nat, d.watch.ackEnd = some e →
      (s.Alone d → e ≤ d.now → d.obj 0xA000 0x08 = 1 → Becomes (.acknowledgeTimeExpiry t) s d.failSafe) ∧ (d.now < e → Becomes (.acknowledgeTimeExpiry t) s d)) ∧
    (d.flag 0xA000 0x09 = false → d.failSafe.obj 0xA000 0x09 = 1 ∧ d.failSafe.obj 0xA000 0x08 = 3 ∧ d.failSafe.obj 0xA000 0x0A = (d.obj 0xA000 0x0A + 1) % 2 ^ 32 ∧ d.failSafe.watch.ackEnd = none)) ∧
  (∀ (s : State) (t : Nat) (d : Dev), s.Tick t d →
    (∀ n : Nat, 1 ≤ n → n ≤ 3 →
      (d.obj 0x2000 0x08 < n → Completes (.droopThresholdCrossing t n) s fun x => x.obj 0x2000 0x08 = n ∧ x.pow.droopAt = d.now ∧ x.fab = d.fab) ∧
      (n ≤ d.obj 0x2000 0x08 → Becomes (.droopThresholdCrossing t n) s d)) ∧
    (1 ≤ d.obj 0x2000 0x08 → d.pow.droopAt + perUs ≤ d.now → Becomes (.droopStepRecovery t) s ((d.set 0x2000 0x08 (d.obj 0x2000 0x08 - 1)).powUpd fun x => { x with droopAt := d.now })) ∧
    (d.obj 0x2000 0x08 = 0 ∨ d.now < d.pow.droopAt + perUs → Becomes (.droopStepRecovery t) s d) ∧
    (∀ p : Nat, p < 4 →
      (d.pair p = { state := 0 } → Completes (.lockstepMismatch t p) s fun x => x.pair p = { state := 1, stoppedAt := d.now, lastMismatch := some d.now } ∧ ∃ e ∈ x.ev.bus, e.vector = some 2 ∧ e.lt = d.lt) ∧
      (∀ e : Nat, (d.pair p).state = 0 → (d.pair p).lastMismatch = some e → d.now ≤ e + 10 * perS → 1 ≤ p →
        Completes (.lockstepMismatch t p) s fun x => (x.pair p).state = 2 ∧ x.flash.healthy = none) ∧
      ((d.pair p).state = 2 → Becomes (.lockstepMismatch t p) s d) ∧
      ((d.pair p).state = 1 → let y := ((d.setPair p { d.pair p with state := 0 }).thaw p (d.now - (d.pair p).stoppedAt)).healthStart
        Becomes (.pairRestartComplete t p) s (if p = 0 then y.stackProgress.finishIfReady else y)) ∧
      ((d.pair p).state ≠ 1 → Becomes (.pairRestartComplete t p) s d)) ∧
    (∀ b : Blend, d.pair 2 = { state := 0 } → d.sex.blend = some b → Completes (.lockstepMismatch t 2) s fun x => x.sex.blend = some { b with frozen := some d.now }) ∧
    (∀ n : Nat, (d.thaw 0 n).alm.leaseEnd = d.alm.leaseEnd + n ∧ (d.thaw 0 n).alm.windowEnd = d.alm.windowEnd + n))

/-- The pins and the supplies (R391, R393, R395, R396, R477, R480 to R485, R488, R491), in every device state but Off: from Watch a rise of RUN_REQ raises MAIN_EN and starts the CORE domain, which waits for its supply, its reference and its PLLs in turn; a fall completes a pending entry into Watch or only raises an event; a loss of the reference, a brownout and RESET_N reset the CORE domain, each with its cause and the stage that the start goes back to. The always-on supply (R391, R396, Table 19.7): at power-on the whole device is in Watch with WAKE_OUT asserted, whatever it was before, and its flash keeps its contents; without the supply the device is Off. The model's choices in it: log entries 17, 121, 127, 198. -/
def Obligations.SuppliesAndResets : Prop :=
  (∀ (s : State) (t : Nat) (d : Dev), s.at t = d → d.watch.off = false →
    (d.watch.runReq = false → d.watch.inWatch = true → d.flag 0xA000 0x09 = false → d.obj 0xA000 0x04 = 0 → Completes (.runReqRise t) s fun x =>
      x.watch.runReq = true ∧ x.watch.mainEn = true ∧ x.watch.inWatch = false ∧ x.watch.stage = (if d.watch.mainPg then 2 else 1) ∧ x.flash.cause = 1 ∧ x.watch.wakeOut = setBit d.watch.wakeOut 0 false) ∧
    (d.watch.runReq = true → Becomes (.runReqRise t) s d) ∧
    (d.watch.runReq = true → d.obj 0xA000 0x04 ≠ 1 → Becomes (.runReqFall t) s ((d.watchUpd fun x => { x with runReq := false }).event 1 (some 3) (.code 0x0193) 0 (List.replicate 12 0))) ∧
    (d.watch.runReq = true → d.obj 0xA000 0x04 = 1 → d.alm.waiting = false → d.pow.ramp = [] → Completes (.runReqFall t) s fun x =>
      x.watch.runReq = false ∧ x.watch.inWatch = true ∧ x.watch.mainEn = false ∧ x.coreOn = false ∧ x.obj 0xA000 0x02 = 1 ∧ x.obj 0xA000 0x04 = 0) ∧
    (d.watch.runReq = false → Becomes (.runReqFall t) s d) ∧
    (d.watch.stage = 1 → d.watch.mainEn = true →
      (d.watch.runReq = true → Becomes (.mainPgRise t) s (d.watchUpd fun x => { x with mainPg := true, stage := 2 })) ∧
      (d.watch.runReq = false → Completes (.mainPgRise t) s fun x => x.watch.inWatch = true ∧ x.watch.mainEn = false ∧ x.watch.mainPg = true ∧ x.obj 0xA000 0x02 = 1)) ∧
    (d.watch.stage = 2 → Becomes (.referenceValid t) s (d.watchUpd fun x => { x with stage := 3 })) ∧
    (d.watch.stage ≠ 2 → Becomes (.referenceValid t) s d) ∧
    (d.watch.stage = 3 → Becomes (.corePllsLocked t) s (d.watchUpd fun x => { x with stage := 4 })) ∧
    (d.watch.stage ≠ 3 → Becomes (.corePllsLocked t) s d) ∧
    (d.watch.mainEn = true →
      (d.watch.stage = 0 → Completes (.referenceLoss t) s fun x => x.watch.stage = 2 ∧ x.coreOn = false ∧ x.flash.cause = 3 ∧ x.flash.sectors = d.flash.sectors ∧ x.obj 0xA000 0x04 = 0 ∧ x.alm = {}) ∧
      (d.watch.stage = 0 → Completes (.resetNAssert t) s fun x => x.watch.stage = 4 ∧ x.coreOn = false ∧ x.flash.cause = 4 ∧ x.flash.sectors = d.flash.sectors ∧ x.obj 0xA000 0x04 = 0 ∧ x.fab = {} ∧ x.rose = {}) ∧
      (d.flag 0xA000 0x09 = false → Completes (.brownout t) s fun x => x.watch.stage = 1 ∧ x.watch.mainPg = false ∧ x.coreOn = false ∧ x.flash.cause = 2 ∧
        x.obj 0xA000 0x0B = (d.obj 0xA000 0x0B + 1) % 2 ^ 32 ∧ x.obj 0xA000 0x09 = 1)) ∧
    (d.watch.mainEn = false → Becomes (.referenceLoss t) s d ∧ Becomes (.resetNAssert t) s d ∧ Becomes (.brownout t) s d)) ∧
  (∀ (s : State) (t : Nat),
    (Completes (.vaonPowerOn t) s fun x => x.watch.inWatch = true ∧ x.watch.off = false ∧ x.watch.runReq = false ∧ x.watch.mainEn = false ∧ x.coreOn = false ∧
      x.obj 0xA000 0x02 = 1 ∧ x.obj 0xA000 0x0D = 1 ∧ x.flash.sectors = s.dev.flash.sectors ∧ x.flash.boot = s.dev.flash.boot ∧ x.alm = {} ∧ x.fab = {} ∧ x.rose = {} ∧ x.chans = [] ∧ x.lins = []) ∧
    (Completes (.vaonRemoval t) s fun x => x.watch.off = true ∧ x.coreOn = false ∧ x.watch.mainEn = false ∧ x.flash.sectors = s.dev.flash.sectors))

/-- The start of the CORE domain (R400, R436, R437, R489, R490): once every stage is passed the reset is released and the device is in Standby with the event of its start; with the root secret rebuilt the boot sequence runs, without it another attempt follows; a device that is not waiting for its release ignores it. The model's choices in it: log entries 18, 36, 132, 133. -/
def Obligations.StartOfTheCore : Prop :=
  ∀ (s : State) (t : Nat) (d : Dev) (env : BootEnv), s.at t = d → d.watch.off = false → BootEnv.ok env = true →
    (d.watch.stage = 4 → ∀ root : Bool, Becomes (.coreResetRelease t root env) s (if root then ((d.released.rootRead true).bootOn env) else (d.released.rootRead false))) ∧
    (d.watch.stage ≠ 4 → d.flash.booted = true → ∀ root : Bool, Becomes (.coreResetRelease t root env) s d) ∧
    (d.watch.stage = 4 → d.released.watch.stage = 0 ∧ d.released.flash.booted = true ∧ d.released.obj 0xA000 0x01 = 2 ∧ d.released.obj 0xA000 0x02 = 2 ∧ d.released.ltEpoch = d.now) ∧
    (env.flashState = 0 → d.candidates = [] → d.trialOpen = false → d.bootRec.trial = 0xFF →
      (d.bootOn env).flash.recovery = true ∧ (d.bootOn env).obj 0xB800 0x03 = 3 ∧ (d.bootOn env).bootRec.count = (d.bootRec.count + 1) % 2 ^ 32) ∧
    (s.Tick t d → d.flash.booted = true → d.obj 0xB000 0x01 = 0 → d.obj 0xB000 0x02 ≠ 0 →
      Becomes (.rootReadRetry t true env) s ((d.rootRead true).bootOn env) ∧ Becomes (.rootReadRetry t false env) s (d.rootRead false)) ∧
    (s.Tick t d → d.obj 0xB000 0x01 ≠ 0 → ∀ g : Bool, Becomes (.rootReadRetry t g env) s d)

/-- Keys of the device (R404, R408 to R410, R415 to R417, R427): the identity key becomes ready while the root stands; a health failure of the random source is flagged, counted and raised; a key-store commit that succeeds writes the copy that is not in force with the next generation and empties the staging, one that fails keeps the staging and raises its event; a blob is checked in the order of R415; the attestation answer is a KMAC under slot 0, a signature a free value's; a slot whose line is lost is empty for its users, while a GCM engine keeps its copy, and is rebuilt within 1 ms, or stays empty with vector 20 (R407; the time is a free value, DESIGN CHOICE: log entry 179). The model's choices in it: log entries 11, 129, 130, 131, 179, 222. -/
def Obligations.KeysAndKeyStore : Prop :=
  ∀ (s : State) (t : Nat) (d : Dev), s.Tick t d →
    (d.bin.kroot = none → Becomes (.identityKeyReady t) s d) ∧
    (∀ k : Bytes, d.bin.kroot = some k → Completes (.identityKeyReady t) s fun x =>
      x.bin.identityReady = true ∧ x.obj 0xB050 0x01 = beNat (shake256 (ascii "VZN-IDFP" ++ Config.falconPublic d.bin.seed) 32) ∧ ∀ a r : Nat, a < 256 → x.obj 0xB040 a 0 r = d.obj 0xB040 a 0 r) ∧
    Becomes (.randomHealthFailure t) s (((d.set 0xB000 0x06 1).inc 0xB000 0x07).event 8 (some 20) Ev.healthFailure.code) ∧
    (∀ g : Bool, d.obj 0xB020 0x05 ≠ 2 → Becomes (.keyStoreCommitEnd t g) s d) ∧
    (d.obj 0xB020 0x05 = 2 → Becomes (.keyStoreCommitEnd t false) s
      (((d.set 0xB020 0x07 2).set 0xB020 0x05 (if d.bin.staged.isEmpty then 0 else 1)).event 8 (some 20) Ev.commitFailed.code)) ∧
    (d.obj 0xB020 0x05 = 2 → Completes (.keyStoreCommitEnd t true) s fun x =>
      let gen := ((d.bin.inForce.map (·.2.gen)).getD 0 + 1)
      let copy : KsCopy := { gen := gen, recs := applyStaged gen ((d.bin.inForce.map (·.2.recs)).getD []) d.bin.staged }
      let first : Bool := !d.bin.provisioned || (match d.bin.inForce with | some (0, _) => false | _ => true)
      x.obj 0xB020 0x05 = 0 ∧ x.obj 0xB020 0x07 = 1 ∧ x.obj 0xB020 0x02 = 0 ∧ x.obj 0xB020 0x08 = (d.obj 0xB020 0x08 + 1) % 2 ^ 32 ∧ x.obj 0xB000 0x05 = 1 ∧ x.obj 0xB000 0x03 = gen ∧
        x.obj 0xB000 0x04 = (if first then 0 else 1) ∧ x.bin.staged = [] ∧ x.bin.provisioned = true ∧ x.bin.counter = (d.bin.staged.map (·.counter)).foldl max d.bin.counter ∧ x.obj 0xB020 0x06 = x.bin.counter ∧
        x.bin.copyA = (if d.bin.provisioned = false ∨ first = true then some copy else d.bin.copyA) ∧ x.bin.copyB = (if d.bin.provisioned = false ∨ first = false then some copy else d.bin.copyB)) ∧
    (∀ (b : Bytes) (l : Bool), (d.obj 0xB020 0x05 = 2 → d.blobCheck b l = 0x613) ∧
      (d.obj 0xB020 0x05 ≠ 2 → byteAt b 0 ≠ 1 → d.blobCheck b l = 0x302) ∧
      (d.blobCheck b l = 0 → byteAt b 0 = 1 ∧ d.lastCounter < field b 8 8 ∧ ¬ (1 ≤ byteAt b 2 ∧ byteAt b 2 ≤ 15) ∧ d.bin.staged.length < 32 ∧ d.gcmRefs (byteAt b 2) = 0 ∧
        (byteAt b 1 = 1 ∨ byteAt b 1 = 2 → kmac256 d.bin.kimp (b.take 112) (ascii "VZN-IMPORT-TAG") 16 = slice b 112 16) ∧
        (byteAt b 1 = 3 → l = true ∧ d.obj 0xB000 0x05 = 0))) ∧
    (∀ (m : Nat), (d.attest m).obj 0xB030 0x02 = beNat (kmac256 (d.key 0) (beBytes 32 m ++ d.measure 0 ++ d.measure 1 ++ d.measure 2 ++ serialBytes ++ beBytes 32 (d.obj 0xB050 0x01)) (ascii "VZN-ATTEST") 32) ∧
      (d.attest m).obj 0xB030 0x03 = (d.obj 0xB030 0x03 + 1) % 2 ^ 32 ∧ (d.sign m).obj 0xB050 0x03 = 1280 ∧ (d.sign m).obj 0xB050 0x04 = (d.obj 0xB050 0x04 + 1) % 2 ^ 32 ∧ (d.sign m).bin = d.bin) ∧
    (∀ (k : Bytes) (r : Nat), d.bin.kroot = some k → let type := d.obj 0xB040 0x11 0 r; let usage := d.obj 0xB040 0x12 0 r
      (d.deriveSlot r).key r = kdf k (ascii "SLOT") 2 (d.measure 2) (beBytes 1 r ++ beBytes 1 type ++ beBytes 4 usage ++ beBytes 32 (d.obj 0xB040 0x13 0 r)) (keyBytes type) ∧
        (d.deriveSlot r).obj 0xB040 0x01 0 r = 2 ∧ (d.deriveSlot r).obj 0xB040 0x02 0 r = type ∧ (d.deriveSlot r).obj 0xB040 0x03 0 r = usage) ∧
    (∀ k : Nat, k < 256 → d.obj 0xB040 0x01 0 k ≠ 0 → d.bin.lost = [] → (d.slotLineLost k).slotFull k = false ∧ (d.slotLineLost k).key k = [] ∧ (d.slotLineLost k).bin.gcm = d.bin.gcm ∧
      ∃ e : Nat, (d.slotLineLost k).bin.lost = [(k, e)] ∧ d.now ≤ e ∧ e ≤ d.now + perMs) ∧
    (∀ (x : Dev) (k e : Nat), k < 256 → x.bin.lost = [(k, e)] →
      (e ≤ x.now → (∀ b : Bytes, x.rebuiltKey k = some b → x.slotsDue.key k = b ∧ x.slotsDue.bin.lost = [] ∧ x.slotsDue.obj 0xB000 0x09 = (x.obj 0xB000 0x09 + 1) % 2 ^ 32) ∧
        (x.rebuiltKey k = none → x.slotsDue = (x.clearSlot k).event 8 (some 20) Ev.slotLost.code 0 (beBytes 1 k))) ∧
      (x.now < e → x.slotsDue = x)) ∧
    (∀ g : Bytes, d.bin.kroot = some g → ∀ k : Nat, (d.obj 0xB040 0x01 0 k = 2 → d.rebuiltKey k = some (d.derivedKey g k)) ∧
      ∀ (c : KsCopy) (l : Nat) (r : KsRecord), d.obj 0xB040 0x01 0 k = 3 → d.bin.inForce = some (l, c) → c.recs.find? (fun y => y.slot == k) = some r → d.rebuiltKey k = some r.key) ∧
    (∀ r : Nat, (d.clearSlot r).obj 0xB040 0x01 0 r = 0 ∧ (d.clearSlot r).obj 0xB040 0x05 0 r = 0 ∧ (d.clearSlot r).key r = [])

/-- Writes of the Binnacle (R406, R408 to R410, R415, R416, R419): a blob in each of its three operations is staged, with the key of a set recovered from its field, an erase without key; the staging is discarded; a commit begins; a challenge and a sign request are answered; a slot is derived, or emptied when its derivation ends. The model's choices in it: log entries 11, 222. -/
def Obligations.BinnacleWrites : Prop :=
  ∀ (s : State) (t : Nat) (d : Dev) (q : Request) (o : ObjRow), s.Tick t d →
    let b := beBytes 128 q.value
    let stage (key : Bytes) (y : Dev) : Dev :=
      ((y.binUpd fun x => { x with staged := x.staged ++ [{ op := byteAt b 1, slot := byteAt b 2, type := byteAt b 3, usage := field b 4 4, counter := field b 8 8, key := key.take (keyBytes (byteAt b 3)) }] }).set
        0xB020 0x02 (d.bin.staged.length + 1)).set 0xB020 0x05 1
    (d.takesWrite q o .importBlobSet 0 = true → recIndex q.bytes = 0xB020 → recSub q.bytes = 0x01 → byteAt b 1 = 1 →
      Completes (.importBlobSet t) s (d.Wrote q o (stage (xorBytes (slice b 16 64) (kmac256 d.bin.kimp (b.take 16) (ascii "VZN-IMPORT-ENC") 64))))) ∧
    (d.takesWrite q o .importBlobErase 0 = true → recIndex q.bytes = 0xB020 → recSub q.bytes = 0x01 → byteAt b 1 = 2 → Completes (.importBlobErase t) s (d.Wrote q o (stage (slice b 16 64)))) ∧
    (d.takesWrite q o .importBlobSetInClear 0 = true → recIndex q.bytes = 0xB020 → recSub q.bytes = 0x01 → byteAt b 1 = 3 → Completes (.importBlobSetInClear t) s (d.Wrote q o (stage (slice b 16 64)))) ∧
    (d.takesWrite q o .discardStaging 0 = true → recIndex q.bytes = 0xB020 → recSub q.bytes = 0x04 →
      (q.value = 0 → Completes (.discardStaging t) s (d.Wrote q o fun y => y)) ∧
      (q.value = 1 → d.obj 0xB020 0x05 ≠ 2 → Completes (.discardStaging t) s (d.Wrote q o fun y => ((y.binUpd fun x => { x with staged := [] }).set 0xB020 0x02 0).set 0xB020 0x05 0))) ∧
    (d.takesWrite q o .keyStoreCommit 0 = true → recIndex q.bytes = 0xB020 → recSub q.bytes = 0x03 →
      (q.value = 0 → Completes (.keyStoreCommit t) s (d.Wrote q o fun y => y)) ∧ (q.value = 1 → Completes (.keyStoreCommit t) s (d.Wrote q o fun y => y.set 0xB020 0x05 2))) ∧
    (d.takesWrite q o .attestationChallenge 0 = true → recIndex q.bytes = 0xB030 → recSub q.bytes = 0x01 → Completes (.attestationChallenge t) s (d.Wrote q o fun y => y.attest q.value)) ∧
    (d.takesWrite q o .identitySignRequest 0 = true → recIndex q.bytes = 0xB050 → recSub q.bytes = 0x02 → Completes (.identitySignRequest t) s (d.Wrote q o fun y => y.sign q.value)) ∧
    (d.takesWrite q o .slotDerive 0 = true → recIndex q.bytes = 0xB040 → recSub q.bytes = 0x10 →
      (q.value = b2n (d.flag 0xB040 0x10 0 q.record) → Completes (.slotDerive t) s (d.Wrote q o fun y => y)) ∧
      (q.value = 1 → d.flag 0xB040 0x10 0 q.record = false → Completes (.slotDerive t) s (d.Wrote q o fun y => (y.set 0xB040 0x10 1 0 q.record).deriveSlot q.record)) ∧
      (q.value = 0 → d.flag 0xB040 0x10 0 q.record = true → Completes (.slotDerive t) s (d.Wrote q o fun y => (y.set 0xB040 0x10 0 0 q.record).clearSlot q.record)))

/-- MACsec (R421 to R423): an association that is enabled gets its slot's key over the key bus and starts at its first packet number; the active association and MACsec itself are switched; a received frame without SecTAG, of an unknown association or with a packet number too low is discarded and counted; a frame that is sent takes the next packet number, and an association at the largest one is exhausted. The model's choices in it: log entry 74. -/
def Obligations.Macsec : Prop :=
  ∀ (s : State) (t : Nat) (d : Dev) (q : Request) (o : ObjRow) (u : Nat), s.Tick t d → u < 65 →
    (d.takesWrite q o .macsecSaEnable u = true → recIndex q.bytes = 0xB110 → recSub q.bytes = 0x01 →
      (q.value = 1 → d.flag 0xB110 0x01 u q.record = true → Completes (.macsecSaEnable t) s (d.Wrote q o fun y => y)) ∧
      (q.value = 1 → d.flag 0xB110 0x01 u q.record = false → Completes (.macsecSaEnable t) s (d.Wrote q o fun y =>
        let slot := d.obj 0xB110 0x02 u q.record
        ((((((y.inc 0xB040 0x07 0 slot).inc64 0xB060 0x06).binUpd fun x => { x with
          gcm := tput (fun _ => []) x.gcm (saKey u q.record) (tget (fun _ => []) x.keys slot)
          highPn := tput (fun _ => none) x.highPn (saKey u q.record) none
          pnRaised := tput (fun _ => false) x.pnRaised (saKey u q.record) false }).set 0xB110 0x01 1 u q.record).set 0xB110 0x06 (d.obj 0xB110 0x05 u q.record) u q.record).set 0xB110 0x07 0 u q.record))) ∧
      (q.value = 0 → Completes (.macsecSaEnable t) s (d.Wrote q o fun y =>
        (y.set 0xB110 0x01 0 u q.record).binUpd fun x => { x with gcm := tput (fun _ => []) x.gcm (saKey u q.record) [] }))) ∧
    (d.takesWrite q o .activeAnWrite u = true → recIndex q.bytes = 0xB100 → recSub q.bytes = 0x04 → Completes (.activeAnWrite t) s (d.Wrote q o fun y => y.set 0xB100 0x04 q.value u q.record)) ∧
    (d.takesWrite q o .macsecEnable u = true → recIndex q.bytes = 0xB100 → recSub q.bytes = 0x01 → Completes (.macsecEnable t) s (d.Wrote q o fun y => y.set 0xB100 0x01 q.value u q.record)) ∧
    (∀ p : Nat, p < 4 → let v := unitOfPort p
      (d.flag 0xB100 0x01 v = false → ∀ (c : Option SecTag) (e : Bool), d.macsecAccept p c e = (d, true)) ∧
      (d.flag 0xB100 0x01 v = true → d.macsecAccept p none false = (d.inc 0xB100 0x0C v, false) ∧ d.macsecAccept p none true = (d.inc64 0xB100 0x0E v, true) ∧
        ∀ g : SecTag, g.an < 4 →
          (d.flag 0xB110 0x01 v (4 + g.an) = false → d.macsecAccept p (some g) false = (d.inc 0xB100 0x0B v, false)) ∧
          (d.flag 0xB110 0x01 v (4 + g.an) = true → tget (fun _ => none) d.bin.highPn (saKey v (4 + g.an)) = none → g.pn < d.obj 0xB110 0x05 v (4 + g.an) → d.macsecAccept p (some g) false = (d.inc 0xB100 0x09 v, false)) ∧
          (d.flag 0xB110 0x01 v (4 + g.an) = true → g.pn ≠ 0 → (∀ h : Nat, tget (fun _ => none) d.bin.highPn (saKey v (4 + g.an)) = some h → h ≤ g.pn + d.obj 0xB100 0x05 v) →
            (tget (fun _ => none) d.bin.highPn (saKey v (4 + g.an)) = none → d.obj 0xB110 0x05 v (4 + g.an) ≤ g.pn) → d.macsecAccept p (some g) false = (d, true)) ∧
          d.macsecEnd p (some g) false = d.inc 0xB100 0x0A v) ∧
      (let r := d.obj 0xB100 0x04 v
       (d.flag 0xB110 0x07 v r = true → d.macsecTake p = (d.inc 0xB100 0x0D v, none)) ∧
       (d.flag 0xB110 0x07 v r = false → (d.macsecTake p).2 = some { an := r, pn := d.obj 0xB110 0x06 v r } ∧ (d.macsecTake p).1.obj 0xB100 0x07 v = (d.obj 0xB100 0x07 v + 1) % 2 ^ 64 ∧
         (d.obj 0xB110 0x06 v r < 2 ^ 64 - 1 → (d.macsecTake p).1.obj 0xB110 0x06 v r = d.obj 0xB110 0x06 v r + 1) ∧
         (d.obj 0xB110 0x06 v r = 2 ^ 64 - 1 → (d.macsecTake p).1.obj 0xB110 0x07 v r = 1))))

/-- Writes of a transfer (R442, R443, R445, R446): a start with a new header erases what was received and takes the header, one with the header in flash resumes; a quarter joins the block; a check value that is right stores the block in its sector and sets its bitmap bit, a duplicate is counted; an abandoned transfer is IDLE; an activation makes the trial pending, and restarts the CORE where it is told to. The model's choices in it: log entries 137, 222. -/
def Obligations.TransferWrites : Prop :=
  ∀ (s : State) (t : Nat) (d : Dev) (q : Request) (o : ObjRow), s.Tick t d →
    (let b := beBytes 12 q.value
     let h : XferHdr := { type := byteAt b 0, id := field b 4 4, len := field b 8 4 }
     let fresh (y : Dev) : Dev := ((y.flashUpd fun x => { x with header := some h, got := [], quarters := [], block := 0, reverted := if h.type = 1 ∧ x.reverted = d.slotWith 0 then none else x.reverted }).resume).set 0xB810 0x0D 0
     recIndex q.bytes = 0xB810 → recSub q.bytes = 0x01 →
      (d.takesWrite q o .transferStartFirmware 0 = true → (d.flash.header = some h → Completes (.transferStartFirmware t) s (d.Wrote q o Dev.resume)) ∧ (d.flash.header ≠ some h → Completes (.transferStartFirmware t) s (d.Wrote q o fresh))) ∧
      (d.takesWrite q o .transferStartAlmanac 0 = true → (d.flash.header = some h → Completes (.transferStartAlmanac t) s (d.Wrote q o Dev.resume)) ∧ (d.flash.header ≠ some h → Completes (.transferStartAlmanac t) s (d.Wrote q o fresh)))) ∧
    (∀ h : XferHdr, d.flash.header = some h → d.resume.obj 0xB810 0x02 = (if (h.len + 4095) / 4096 ≤ d.flash.got.length then 2 else 1) ∧ d.resume.obj 0xB810 0x03 = h.id ∧ d.resume.obj 0xB810 0x04 = h.type ∧
      d.resume.obj 0xB810 0x05 = h.len ∧ d.resume.obj 0xB810 0x06 = (h.len + 4095) / 4096 ∧ d.resume.flash = d.flash) ∧
    (∀ k : Nat, 1 ≤ k → k ≤ 4 → d.takesWrite q o .blockQuarterWrite 0 = true → recIndex q.bytes = 0xB820 → recSub q.bytes = k → Completes (.blockQuarterWrite t) s (d.Wrote q o fun y =>
      y.flashUpd fun x => { x with block := q.record, quarters := tput (fun _ => []) (if x.block = q.record then x.quarters else []) (k - 1) (beBytes 1024 q.value) })) ∧
    (∀ h : XferHdr, d.flash.header = some h → d.takesWrite q o .blockCheckValue 0 = true → recIndex q.bytes = 0xB820 → recSub q.bytes = 0x05 →
      (d.blockGot q.record = true → Completes (.blockCheckValue t) s (d.Wrote q o fun y => y.inc 0xB810 0x0F)) ∧
      (d.blockGot q.record = false →
        let put (y : Dev) : Dev := (y.putSector (d.targetSector h + q.record) d.assembled).flashUpd fun x => { x with got := tput (fun _ => false) x.got q.record true, quarters := [] }
        ((put d).allGot h = false → Completes (.blockCheckValue t) s (d.Wrote q o put)) ∧ ((put d).allGot h = true → Completes (.blockCheckValue t) s (d.Wrote q o fun y => (put y).resume)))) ∧
    (d.takesWrite q o .transferAbandon 0 = true → recIndex q.bytes = 0xB810 → recSub q.bytes = 0x0E →
      (q.value = 0 → Completes (.transferAbandon t) s (d.Wrote q o fun y => y)) ∧
      (q.value = 1 → Completes (.transferAbandon t) s (d.Wrote q o fun y => (y.flashUpd fun x => { x with header := none, got := [], quarters := [], block := 0 }).set 0xB810 0x02 0))) ∧
    (d.takesWrite q o .transferActivate 0 = true → recIndex q.bytes = 0xB810 → recSub q.bytes = 0x0B → d.chans = [] → d.lins = [] → d.chart.flushes = [] → d.pow.ramp = [] →
      let boot : BootRec := if d.obj 0xB810 0x04 = 1 then { d.bootRec with fwPending := true, gen := d.bootRec.gen + 1 } else { d.bootRec with almPending := true, trial := d.otherAlm, gen := d.bootRec.gen + 1 }
      (q.value = 0 → Completes (.transferActivate t) s fun x => x.flash = d.flash ∧ x.obj 0xB810 0x02 = d.obj 0xB810 0x02) ∧
      (q.value = 1 → d.flag 0xB810 0x0C = false → Completes (.transferActivate t) s fun x => x.flash = { d.flash with boot := some boot } ∧ x.obj 0xB810 0x02 = 5 ∧ x.coreOn = true) ∧
      (q.value = 1 → d.flag 0xB810 0x0C = true → Completes (.transferActivate t) s fun x => x.flash.boot = some boot ∧ x.flash.sectors = d.flash.sectors ∧ x.flash.cause = 5 ∧ x.coreOn = false ∧ x.watch.stage = 4)) ∧
    (∀ (n v : Nat) (h : XferHdr), d.flash.header = some h →
      (h.blocks ≤ n → d.checkValueCode n v = 0x301) ∧
      (n < h.blocks → d.blockGot n = false → d.flash.block = n → d.flash.quarters.length = 4 → d.conditionCode = 0 → beBytes 16 v ≠ shake256 (ascii "VZN-BLK" ++ beBytes 4 h.id ++ beBytes 2 n ++ d.assembled) 16 → d.checkValueCode n v = 0x604) ∧
      (n < h.blocks → d.blockGot n = false → d.flash.block ≠ n ∨ d.flash.quarters.length < 4 → d.checkValueCode n v = 0x304))

/-- Verification, trials and confirmation (R433, R444, R445, R448 to R451): a verification ends VERIFIED or FAILED with the code of the check; each whole minute of a trial is counted, and at the tenth the trial reverts and the CORE restarts; health conditions that have held for the confirmation delay confirm the trial, or await the owner; the confirmation makes the trial slot active and burns its security version; the supply is sampled. The model's choices in it: log entries 136, 138, 139, 159. -/
def Obligations.TrialsAndConfirmation : Prop :=
  ∀ (s : State) (t : Nat) (d : Dev), s.Tick t d →
    (d.flash.header = none → Becomes (.transferVerifyComplete t) s d) ∧
    (d.obj 0xB810 0x02 ≠ 2 → Becomes (.transferVerifyComplete t) s d) ∧
    (∀ h : XferHdr, d.flash.header = some h → d.obj 0xB810 0x02 = 2 → d.pairRuns 3 = true →
      (h.type = 2 → Becomes (.transferVerifyComplete t) s (((d.set 0xB810 0x02 (if d.almCheck d.otherAlm = 0 then 3 else 4)).set 0xB810 0x0D (d.almCheck d.otherAlm)).event 9 (some 21) Ev.transferDone.code)) ∧
      (∀ k : Nat, h.type = 1 → d.slotWith 0 = some k → Becomes (.transferVerifyComplete t) s
        ((((d.slotChecked k (d.imageCheck k)).set 0xB810 0x02 (if (d.imageCheck k).1 = 0 then 3 else 4)).set 0xB810 0x0D (d.imageCheck k).1).event 9 (some 21) Ev.transferDone.code))) ∧
    (∀ (k : Nat) (r : Nat × Nat), r.1 < 65536 → (d.slotChecked k r).obj 0xB801 0x08 0 k = r.1 ∧ (d.slotChecked k r).obj 0xB801 0x02 0 k = (if r.1 = 0 then 3 else if r.2 = 4 then 5 else 4)) ∧
    (∀ k : Nat, (d.imageCheck k).1 = 0 ∨ (d.imageCheck k).1 = 0x605) ∧
    (d.obj 0xB840 0x01 = 0 ∨ d.pairRuns 3 = false ∨ d.now < d.flash.since + (d.flash.added + 1) * 60 * perS → Becomes (.trialMinute t) s d) ∧
    (s.Alone d → d.obj 0xB840 0x01 ≠ 0 → d.pairRuns 3 = true → d.flash.since + (d.flash.added + 1) * 60 * perS ≤ d.now →
      let y := d.flashUpd fun x => { x with boot := some { d.bootRec with minutes := d.bootRec.minutes + 1, gen := d.bootRec.gen + 1 }, added := x.added + 1 }
      (d.bootRec.minutes + 1 < 10 → Becomes (.trialMinute t) s y) ∧ (10 ≤ d.bootRec.minutes + 1 → Becomes (.trialMinute t) s (y.revert.restartCore))) ∧
    (d.flash.healthy = none ∨ d.healthNow = false → Becomes (.healthConditionsHeld t) s d) ∧
    (∀ a : Nat, d.flash.healthy = some a → d.healthNow = true →
      (d.now < a + d.obj 0xB840 0x04 * perS → Becomes (.healthConditionsHeld t) s d) ∧
      (a + d.obj 0xB840 0x04 * perS ≤ d.now → (d.flag 0xB840 0x05 = true → Becomes (.healthConditionsHeld t) s (d.set 0xB840 0x01 2)) ∧
        (d.flag 0xB840 0x05 = false → Becomes (.healthConditionsHeld t) s d.confirm))) ∧
    (∀ (q : Request) (o : ObjRow), d.takesWrite q o .confirmWrite 0 = true → recIndex q.bytes = 0xB840 → recSub q.bytes = 0x06 →
      (q.value = 0 → Completes (.confirmWrite t) s (d.Wrote q o fun y => y)) ∧ (q.value = 1 → Completes (.confirmWrite t) s (d.Wrote q o Dev.confirm))) ∧
    (let x := d.confirm
     x.obj 0xB840 0x01 = 0 ∧ x.bootRec.fwPending = false ∧ x.bootRec.almPending = false ∧ x.bootRec.running = false ∧ x.bootRec.trial = 0xFF ∧ x.bootRec.minutes = 0 ∧
      x.bootRec.current = (if d.bootRec.trial = 0xFF then d.bootRec.current else d.bootRec.trial) ∧ x.flash.secVersion = max d.flash.secVersion (byteAt (d.manifest (d.obj 0xB800 0x01)) 12) ∧
      (∀ k : Nat, d.slotWith 3 = some k → x.role k = 1) ∧ x.slotWith 3 = none) ∧
    (let x := d.revert
     x.obj 0xB840 0x01 = 0 ∧ x.obj 0xB800 0x07 = (d.obj 0xB800 0x07 + 1) % 2 ^ 32 ∧ x.bootRec.running = false ∧ x.bootRec.trial = 0xFF ∧ x.slotWith 3 = none ∧ ∀ k : Nat, d.slotWith 3 = some k → x.flash.reverted = some k ∧ x.obj 0xB801 0x02 0 k = 4) ∧
    (∀ mv : Nat, mv < 65536 → Becomes (.vbatsenseSample t mv) s (d.flashUpd fun x => { x with samples := (mv :: x.samples).take 16 }))

/-- Lines of the memories (R455 to R464): what a read finds is counted; a correction is written back unless a write came first; a merge entry that retires supersedes a write-back of its line and writes it whole, or reads the rest first and poisons the line when that read fails; the patrol goes line by line and wraps with a count, and waits for a functional request of its cycle (R33); the scrubber rewrites an upset rule and disables one whose shadow is lost (R170); the free-list audit returns the cells beyond a lost link (R116); a software scrub reports its range; the correction table is cleared; the test line's raw bytes are written, read and decoded. The model's choices in it: log entries 140, 142, 143, 146, 165, 182, 183. -/
def Obligations.MemoryLines : Prop :=
  ∀ (s : State) (t : Nat) (d : Dev) (mem line : Nat), s.Tick t d → mem < 8 → line < memoryLines mem →
    ((d.poisoned mem line = false → d.lineRead mem line .clean = d) ∧ (d.poisoned mem line = true → d.lineRead mem line .clean = d.inc 0xC000 0x06 0 mem) ∧ d.lineRead mem line .poisoned = d.inc 0xC000 0x06 0 mem ∧
      d.lineRead mem line .uncorrectable = ((d.inc 0xC000 0x05 0 mem).set 0xC000 0x0D line 0 mem).event 0 (some 18) Ev.uncorrectable.code 0 (beBytes 4 mem ++ beBytes 8 line) ∧
      ∀ n : Nat, (d.lineRead mem line (.corrected n)).obj 0xC000 0x04 0 mem = (d.obj 0xC000 0x04 0 mem + 1) % 2 ^ 64 ∧ (d.lineRead mem line (.corrected n)).integ.writebacks = d.integ.writebacks ++ [(mem, line)] ∧
        (d.corrEntry mem line = none → (d.lineRead mem line (.corrected n)).obj 0xC051 0x01 = (d.obj 0xC051 0x01 + 1) % 2 ^ 32) ∧
        ∀ r : Nat, d.corrEntry mem line = some r → d.obj 0xC050 0x01 0 r = mem → (d.lineRead mem line (.corrected n)).obj 0xC050 0x03 0 r = (d.obj 0xC050 0x03 0 r + 1) % 2 ^ 32 ∧
          (d.lineRead mem line (.corrected n)).obj 0xC050 0x04 0 r = n) ∧
    (∀ v : Bool, d.integ.writebacks.contains (mem, line) = false ∨ d.memoryOn mem = false → Becomes (.correctedWriteback t mem line v) s d) ∧
    (s.Alone d → d.memoryOn mem = true → d.integ.served = [] → d.integ.writebacks.contains (mem, line) = true →
      Becomes (.correctedWriteback t mem line false) s ((d.integUpd fun x => { x with writebacks := x.writebacks.erase (mem, line) }).usePorts [mem]) ∧
      Becomes (.correctedWriteback t mem line true) s ((d.integUpd fun x => { x with writebacks := x.writebacks.erase (mem, line) }).setPoison mem line false)) ∧
    (d.memoryOn mem = false → hasMerge mem = true → ∀ (g : Bool) (r : LineRead), Becomes (.mergeEntryRetire t mem line g r) s (d.usePorts [mem])) ∧
    (1 ≤ mem → d.memoryOn mem = true → ∀ r : LineRead, let y := (d.setMerges mem ((d.merges mem).filter (fun e => e.line ≠ line))).integUpd fun x => { x with writebacks := x.writebacks.filter (fun w => w != (mem, line)) }
      Becomes (.mergeEntryRetire t mem line true r) s ((y.setPoison mem line false).usePorts [mem]) ∧
      ((d.merges mem).any (fun e => e.line = line && e.full) = false →
        (lineGood r = true → Becomes (.mergeEntryRetire t mem line false r) s (((y.inc64 0xC000 0x08 0 mem).lineRead mem line r).usePorts [mem])) ∧
        (lineGood r = false → Becomes (.mergeEntryRetire t mem line false r) s ((((y.inc64 0xC000 0x08 0 mem).lineRead mem line r).setPoison mem line true).usePorts [mem])))) ∧
    (∀ (c : Instr) (k : Nat), s.pending = [c] → (Instr.time c - d.ltEpoch) / 2 ≤ d.lt / 2 → d.portRequests c = [(mem, k)] → ∀ (r : LineRead) (v : Bool) (up : List Nat),
      k = 0 → Becomes (.patrolRead t mem ⟨r, up⟩) s d ∧ Becomes (.correctedWriteback t mem line v) s d) ∧
    (d.memoryOn mem = false → ∀ (r : LineRead) (up : List Nat), Becomes (.patrolRead t mem ⟨r, up⟩) s d) ∧
    (s.Alone d → d.memoryOn mem = true → d.integ.served = [] → ∀ (a z : Nat) (r : LineRead) (up : List Nat), tget (fun _ => (0, 0)) d.integ.patrol mem = (a, z) →
      ((d.retiredBlocks mem).contains (a / 64) = false → d.saved mem = none → d.merges mem = [] → let e := (d.lineRead mem a r).shadowScrub mem a r up
        (a + 1 < memoryLines mem → Becomes (.patrolRead t mem ⟨r, up⟩) s ((e.integUpd fun x => { x with patrol := tput (fun _ => (0, 0)) x.patrol mem (a + 1, z) }).usePorts [mem])) ∧
        (memoryLines mem ≤ a + 1 → let w := (e.integUpd fun x => { x with patrol := tput (fun _ => (0, 0)) x.patrol mem (0, d.now) }).usePorts [mem]
          let y := (if mem = 0 then w.auditCells else w).inc 0xC000 0x0A 0 mem
          Becomes (.patrolRead t mem ⟨r, up⟩) s (if z + y.obj 0xC000 0x09 0 mem * perS < d.now then y.inc 0xC000 0x0B 0 mem else y))) ∧
      ((d.retiredBlocks mem).contains (a / 64) = true → a + 1 < memoryLines mem →
        Becomes (.patrolRead t mem ⟨r, up⟩) s ((d.integUpd fun x => { x with patrol := tput (fun _ => (0, 0)) x.patrol mem (a + 1, z) }).usePorts [mem]))) ∧
    (∀ (r : LineRead) (k : Nat), k < 1024 → Config.ruleLine k % memoryLines 1 = line → (mem ≠ 1 → d.shadowScrub mem line r [k] = d) ∧
      (mem = 1 → lineGood r = true → d.shadowScrub mem line r [k] = d.inc 0x3000 0x0C) ∧
      (mem = 1 → lineGood r = false → d.rulesOn = [k] → d.shadowScrub mem line r [k] = (d.set 0x3040 0x01 0 0 k).event 4 (some 6) Ev.ruleDisabled.code 0 (beBytes 4 k))) ∧
    (∀ f : Frame, d.fab.orphans = [f] → f.held < 2 ^ 32 → d.auditCells.fab.orphans = [] ∧ d.auditCells.obj 0x2000 0x0B = (d.obj 0x2000 0x0B + f.held) % 2 ^ 32) ∧
    (∀ l : List (Nat × LineRead), d.obj 0xC020 0x05 ≠ 1 → Becomes (.softwareScrubComplete t l) s d) ∧
    (s.Alone d → d.integ.served = [] → d.obj 0xC020 0x05 = 1 → d.memoryOn (d.obj 0xC020 0x01) = true → d.retiredBlocks (d.obj 0xC020 0x01) = [] → Becomes (.softwareScrubComplete t []) s
      (((((((d.usePorts [d.obj 0xC020 0x01]).set 0xC020 0x06 (d.obj 0xC020 0x03 + 1 - d.obj 0xC020 0x02)).set 0xC020 0x07 0).set 0xC020 0x08 0).set 0xC020 0x09 0xFFFFFFFF).set 0xC020 0x05 2).event 0 (some 18) Ev.scrubDone.code)) ∧
    (∀ (q : Request) (o : ObjRow), d.takesWrite q o .softwareScrubStart 0 = true → recIndex q.bytes = 0xC020 → recSub q.bytes = 0x04 → q.value = 1 → Completes (.softwareScrubStart t) s (d.Wrote q o fun y => y.set 0xC020 0x05 1)) ∧
    (∀ (q : Request) (o : ObjRow), d.takesWrite q o .clearCorrectionTable 0 = true → recIndex q.bytes = 0xC051 → recSub q.bytes = 0x02 → q.value = 1 →
      Completes (.clearCorrectionTable t) s fun x => ∀ r : Nat, r < 32 → x.obj 0xC050 0x01 0 r = 0xFF ∧ ∀ k : Nat, 2 ≤ k → k ≤ 6 → x.obj 0xC050 k 0 r = 0)

/-- The test window (R464): a window over a block that is not saved opens and saves it; a raw write stores the given line, a raw read shows what the line holds, a decode read shows what the decoder makes of it; closing restores the block. The Sounding (R465 to R470): the next block of the rotation that is not retired is saved; it fails when a read of its march differs from the bits expected; a block that passes is restored, one that fails is repaired with spares, or is retired and keeps the save buffer, which its last line's end releases; retirement is counted and named, and takes 64 lines from the memory's count; the start-up sounding repairs or retires the blocks that fail and declares itself complete. The order of the operations within the march is presumed (PRESUMED: log entry 184). The model's choices in it: log entries 140, 144, 182, 184, 198, 199, 216. -/
def Obligations.TestWindowAndSounding : Prop :=
  (∀ (s : State) (t : Nat) (d : Dev) (q : Request) (o : ObjRow), s.Tick t d →
    (d.takesWrite q o .testWindowOpen 0 = true → recIndex q.bytes = 0xC030 → recSub q.bytes = 0x41 →
      (q.value = 1 → let m := d.obj 0xC030 0x42; let b := d.obj 0xC030 0x43 / 64
        Completes (.testWindowOpen t) s fun x => x.obj 0xC030 0x41 = 1 ∧ x.integ.window = some (m, b) ∧ x.saved m = some (b, false) ∧ x.integ.raw = [] ∧ (q.direct = true → x.fab = d.fab)) ∧
      (∀ m b : Nat, d.integ.window = some (m, b) → q.value = 0 →
        Completes (.testWindowOpen t) s fun x => x.obj 0xC030 0x41 = 0 ∧ x.integ.window = none ∧ x.saved m = none ∧ x.integ.raw = [] ∧ (q.direct = true → x.fab = d.fab))) ∧
    (d.takesWrite q o .rawWrite 0 = true → recIndex q.bytes = 0xC030 → recSub q.bytes = 0x47 → q.value = 1 → Completes (.rawWrite t) s fun x =>
      tget (fun _ => []) x.integ.raw (d.obj 0xC030 0x43) = beBytes 64 (d.obj 0xC030 0x44) ++ beBytes 5 (d.obj 0xC030 0x45) ++ beBytes 1 (d.obj 0xC030 0x46)) ∧
    (d.takesWrite q o .rawRead 0 = true → recIndex q.bytes = 0xC030 → recSub q.bytes = 0x48 → q.value = 1 → Completes (.rawRead t) s fun x =>
      x.obj 0xC030 0x4A = field d.testImage 0 64 ∧ x.obj 0xC030 0x4B = field d.testImage 64 5 ∧ x.obj 0xC030 0x4C = byteAt d.testImage 69) ∧
    (d.takesWrite q o .decodeRead 0 = true → recIndex q.bytes = 0xC030 → recSub q.bytes = 0x49 → q.value = 1 → Completes (.decodeRead t) s fun x =>
      let r := lineDecode d.testImage (lineDomain (d.obj 0xC030 0x42) (d.obj 0xC030 0x43))
      x.obj 0xC030 0x4D = r.1 ∧ x.obj 0xC030 0x4A = beNat (r.2.take 64))) ∧
  (∀ (s : State) (t : Nat) (d : Dev) (mem : Nat), s.Tick t d → mem < 8 →
    (d.flag 0xC040 0x02 = false ∨ d.flag 0xC040 0x07 = false ∨ d.pairRuns 3 = false ∨ d.saved mem ≠ none ∨ d.soundingGoesOn = false ∨ 2 ≤ d.soundingsRunning → Becomes (.soundingStart t mem) s d) ∧
    (d.soundingGoesOn = true ↔ d.obj 0x2000 0x08 = 0 ∧ d.obj 0xA000 0x02 ≠ 2) ∧
    (s.Alone d → d.flag 0xC040 0x02 = true → d.flag 0xC040 0x07 = true → d.pairRuns 3 = true → d.saved mem = none → d.integ.save = [] → d.soundingGoesOn = true → d.integ.served = [] → d.escalatedBlocks mem = [] → d.retiredBlocks mem = [] → d.merges mem = [] →
      Completes (.soundingStart t mem) s fun x => x.saved mem = some (d.obj 0xC000 0x0C 0 mem % memoryBlocks mem, false) ∧ x.fab = d.fab ∧ x.integ.retired = d.integ.retired) ∧
    (d.saved mem = none → Becomes (.saveBufferRelease t mem) s d) ∧
    (∀ (b : Nat) (v : BlockTest), b < memoryBlocks mem → d.saved mem ≠ some (b, false) → Becomes (.soundingBlockEnd t mem b v) s d) ∧
    (∀ (b : Nat) (v : BlockTest), b < memoryBlocks mem → d.saved mem = some (b, false) → d.integ.window ≠ some (mem, b) → let y := d.inc64 0xC040 0x04
      (d.soundingGoesOn = false → Becomes (.soundingBlockEnd t mem b v) s d) ∧
      (d.soundingGoesOn = true → marchFails b v.reads = false → Becomes (.soundingBlockEnd t mem b v) s ((y.setSaved mem none).rotate mem b)) ∧
      (d.soundingGoesOn = true → marchFails b v.reads = true →
        (∀ z : Dev, y.repairBlock mem b v (marchFails b v.retest) = some z → Becomes (.soundingBlockEnd t mem b v) s ((z.setSaved mem none).rotate mem b)) ∧
        (y.repairBlock mem b v (marchFails b v.retest) = none → Becomes (.soundingBlockEnd t mem b v) s (((y.setSaved mem (some (b, true))).retireBlock mem b).rotate mem b)))) ∧
    (∀ (b k : Nat) (x : Bytes), k < 2560 → b * 64 ≤ (marchOp b k).1 ∧ (marchOp b k).1 < b * 64 + 64 ∧ marchFails b [] = false ∧
      (∀ e : Bytes, (marchOp b k).2 = some e → e.length = 72 ∧ (x ≠ e → marchFails b [(k, x)] = true) ∧ marchFails b [(k, e)] = false)) ∧
    (∀ (b : Nat) (v : BlockTest) (g : Bool), let u := d.sparesUsed mem b; let n := (v.spares.filter (· == .row)).length; let m := (v.spares.filter (· == .column)).length
      (d.integ.repairMode = 0 ∨ n + m = 0 ∨ 4 < u.1 + n ∨ 2 < u.2 + m ∨ g = true → d.repairBlock mem b v g = none) ∧
      (d.integ.repairMode ≠ 0 → n + m ≠ 0 → u.1 + n ≤ 4 → u.2 + m ≤ 2 → ∃ z : Dev, d.repairBlock mem b v false = some z ∧ z.sparesUsed mem b = (u.1 + n, u.2 + m) ∧ z.integ.retired = d.integ.retired ∧
        z.obj 0xC040 0x08 = (d.obj 0xC040 0x08 + n) % 2 ^ 32 ∧ z.obj 0xC040 0x09 = (d.obj 0xC040 0x09 + m) % 2 ^ 32)) ∧
    (∀ b : Nat, (d.retiredBlocks mem).contains b = true → d.retireBlock mem b = d) ∧
    (∀ b : Nat, (d.retiredBlocks mem).contains b = false → mem = 2 → let y := d.retireBlock mem b
      y.retiredBlocks mem = d.retiredBlocks mem ++ [b] ∧ y.obj 0xC000 0x03 0 mem = (d.obj 0xC000 0x03 0 mem + 1) % 2 ^ 32 ∧ y.obj 0xC040 0x05 = (d.obj 0xC040 0x05 + 1) % 2 ^ 32 ∧ y.obj 0xC040 0x06 = mem * 2 ^ 32 + b ∧
        y.obj 0xC000 0x02 0 mem = d.obj 0xC000 0x02 0 mem - 64) ∧
    (∀ b : Nat, d.saved mem = some (b, true) → Becomes (.saveBufferRelease t mem) s (d.setSaved mem none)) ∧
    (∀ b : Nat, d.saved mem = some (b, false) → Becomes (.saveBufferRelease t mem) s d) ∧
    Becomes (.startupSoundingComplete t []) s (d.set 0xC040 0x07 1).healthStart.segLinks ∧
    (∀ (b : Nat) (v : BlockTest), b < memoryBlocks mem → Becomes (.startupSoundingComplete t [(mem, b, v)]) s (((d.startupBlock mem b v).set 0xC040 0x07 1).healthStart.segLinks)) ∧
    (∀ (b : Nat) (v : BlockTest), mem ≠ 7 → (marchFails b v.reads = false → d.startupBlock mem b v = d) ∧
      (marchFails b v.reads = true → d.startupBlock mem b v = (d.repairBlock mem b v (marchFails b v.retest)).getD (d.retireBlock mem b))))

/-- The frame recorder and the replay (R472, R473): a mirror copy becomes a record with the next sequence number, the oldest records give way; one that comes too late is counted as dropped; a replay sends its records from the first named on at their original spacing, and ends after the number asked for. The model's choices in it: log entries 145, 230. -/
def Obligations.RecorderAndReplay : Prop :=
  ∀ (s : State) (t : Nat) (d : Dev), s.Tick t d →
    (d.memoryOn 7 = false → ∀ v : Bool, Becomes (.mirrorRecord t v) s (d.usePorts [7]) ∧ Becomes (.replayFrameSend t) s (d.usePorts [7])) ∧
    (d.fab.mirrors = [] → ∀ v : Bool, Becomes (.mirrorRecord t v) s (d.usePorts [7])) ∧
    (d.memoryOn 7 = true → ∀ (f : Frame) (l : List Frame), d.fab.mirrors = f :: l →
      Becomes (.mirrorRecord t true) s (((d.fabUpd fun x => { x with mirrors := l }).inc64 0xD000 0x05).usePorts [7]) ∧
      (d.flag 0xD000 0x01 = false → Becomes (.mirrorRecord t false) s ((d.fabUpd fun x => { x with mirrors := l }).usePorts [7])) ∧
      (d.flag 0xD000 0x01 = true → d.obj 0xD020 0x05 = 1 → Completes (.mirrorRecord t false) s fun x => x.fab.mirrors = l ∧ x.obj 0xD020 0x07 = d.integ.nextRec ∧ x.integ.nextRec = d.integ.nextRec + 1 ∧
        x.obj 0xD000 0x04 = (d.obj 0xD000 0x04 + 1) % 2 ^ 64 ∧
        (32 + 2048 ≤ d.obj 0xD000 0x06 * 1024 - 64 → f.data.length ≤ 2048 → (x.integ.ring.head?).map (fun r => (r.lt, r.member, r.port, r.rule, r.length, r.seq, r.bytes)) =
          some (f.stamp, f.smem, f.sport, f.rule.getD 0xFFFF, f.len, d.integ.nextRec, f.data.take (d.obj 0xD020 0x02))))) ∧
    (∀ (c : Nat) (l : List RecFrame), ((ringFit c l).map RecFrame.size).sum ≤ c ∧ ∃ m : List RecFrame, l = ringFit c l ++ m) ∧
    (∀ (q : Request) (o : ObjRow), d.takesWrite q o .replayStart 0 = true → recIndex q.bytes = 0xD021 → recSub q.bytes = 0x04 → Completes (.replayStart t) s fun x =>
      x.integ.replay = some { next := d.obj 0xD021 0x01, port := q.value, left := d.obj 0xD021 0x05 } ∧ x.pairs = d.pairs ∧ (q.direct = true → x.fab = d.fab)) ∧
    (d.integ.replay = none → Becomes (.replayFrameSend t) s (d.usePorts [7])) ∧
    (∀ (p : Nat) (b : Bytes), (d.offerReplay p b).fab = { d.fab with fromLog := d.fab.fromLog ++ [d.fp11Frame p b] }) ∧
    (d.memoryOn 7 = true → ∀ (p : Replay) (r : RecFrame) (l : List RecFrame), d.integ.replay = some p → d.integ.ring = l ++ [r] → p.next ≤ r.seq → r.lineError = false →
      (p.lastOut = none → Becomes (.replayFrameSend t) s (((d.integUpd fun x => { x with
        replay := if p.left ≤ 1 then none else some { p with next := r.seq + 1, left := p.left - 1, lastOut := some (d.now, r.lt) } }).offerReplay p.port r.bytes).usePorts [7])) ∧
      (∀ a b : Nat, p.lastOut = some (a, b) → (d.now < a + (r.lt - b) → Becomes (.replayFrameSend t) s (d.usePorts [7])) ∧
        (a + (r.lt - b) ≤ d.now → Becomes (.replayFrameSend t) s (((d.integUpd fun x => { x with
          replay := if p.left ≤ 1 then none else some { p with next := r.seq + 1, left := p.left - 1, lastOut := some (d.now, r.lt) } }).offerReplay p.port r.bytes).usePorts [7])))) ∧
    (d.memoryOn 7 = true → ∀ p : Replay, d.integ.replay = some p → d.integ.ring = [] → Becomes (.replayFrameSend t) s ((d.integUpd fun x => { x with replay := none }).usePorts [7]))
end

