-- ==== Sys2Proof/Laws/Bits.lean ====
section
/-! SUPPORT. Sizes of the values that bytes spell, and the bytes of such a value. -/
namespace Sys2Proof.Machine

theorem foldl_bytes_lt (b : Bytes) (n : Nat) : b.foldl (fun n x => n * 256 + x.toNat) n < (n + 1) * 256 ^ b.length := by
  induction b generalizing n with
  | nil => simp
  | cons a l ih =>
    have h := ih (n * 256 + a.toNat)
    have ha : a.toNat < 256 := a.isLt
    have h2 : (n * 256 + a.toNat + 1) * 256 ^ l.length ≤ (n + 1) * 256 * 256 ^ l.length := Nat.mul_le_mul_right _ (by omega)
    simp only [List.foldl_cons, List.length_cons, pow_succ]
    calc _ < (n * 256 + a.toNat + 1) * 256 ^ l.length := h
      _ ≤ (n + 1) * 256 * 256 ^ l.length := h2
      _ = (n + 1) * (256 ^ l.length * 256) := by rw [Nat.mul_assoc, Nat.mul_comm 256]

/-- A value of `n` bytes is below 256^n. -/
theorem beNat_lt (b : Bytes) : beNat b < 256 ^ b.length := by simpa [beNat] using foldl_bytes_lt b 0

/-- A field of `n` bytes is below 256^n. -/
theorem field_lt (b : Bytes) (off n : Nat) : field b off n < 256 ^ n := by
  refine Nat.lt_of_lt_of_le (beNat_lt _) (Nat.pow_le_pow_right (by omega) ?_)
  simp [slice]

/-- A byte is below 256. -/
theorem byteAt_lt (b : Bytes) (off : Nat) : byteAt b off < 256 := (b.getD off 0).isLt

theorem foldl_byte_add (b : Bytes) (n : Nat) : b.foldl (fun n x => n * 256 + x.toNat) n = n * 256 ^ b.length + beNat b := by
  induction b generalizing n with
  | nil => simp [beNat]
  | cons x b ih =>
    simp only [List.foldl_cons, List.length_cons, beNat]
    rw [ih, ih (0 * 256 + x.toNat)]
    ring

theorem beNat_cons (x : Byte) (b : Bytes) : beNat (x :: b) = x.toNat * 256 ^ b.length + beNat b := by
  simp only [beNat, List.foldl_cons]
  rw [foldl_byte_add]
  simp [beNat]

theorem beBytes_add (n k v : Nat) : beBytes n (k * 256 ^ n + v) = beBytes n v := by
  induction n generalizing k with
  | zero => rfl
  | succ n ih =>
    have h : k * 256 ^ (n + 1) + v = (k * 256) * 256 ^ n + v := by ring
    simp only [beBytes]
    rw [h, ih, Nat.mul_comm (k * 256), Nat.mul_add_div (by positivity)]
    congr 1
    apply BitVec.eq_of_toNat_eq
    simp [BitVec.toNat_ofNat]

/-- The bytes of the value that bytes spell. -/
theorem beBytes_beNat (b : Bytes) : beBytes b.length (beNat b) = b := by
  induction b with
  | nil => rfl
  | cons x b ih =>
    have hb := beNat_lt b
    rw [beNat_cons]
    simp only [List.length_cons, beBytes]
    rw [beBytes_add, ih, Nat.mul_comm, Nat.mul_add_div (by positivity), Nat.div_eq_of_lt hb]
    simp

end Sys2Proof.Machine
end

