-- ==== Sys2Proof/Laws/Cipher.lean ====
section
/-! SUPPORT. Lengths of what the algorithms of the standards answer. -/
namespace Sys2Proof.Machine

@[simp] theorem beBytes_len (n v : Nat) : (beBytes n v).length = n := by
  induction n generalizing v with
  | zero => rfl
  | succ n ih => simp [beBytes, ih]

theorem aesCmac_length (key msg : Bytes) : (aesCmac key msg).length = 16 := beBytes_len _ _

theorem aesXts_length (key : Bytes) (unit block : Nat) (plain : Bytes) : (aesXts key unit block plain).length = 16 := beBytes_len _ _

theorem keccakRound_length (a : List Nat) (rc : Nat) : (keccakRound a rc).length = 25 := by
  simp [keccakRound]

theorem keccakF_length (a : List Nat) : (keccakF a).length = 25 := by
  have h : ∀ (l : List Nat) (a : List Nat), l ≠ [] → (l.foldl keccakRound a).length = 25 := by
    intro l
    induction l with
    | nil => exact fun _ h => absurd rfl h
    | cons rc l ih =>
      intro a _
      cases l with
      | nil => exact keccakRound_length a rc
      | cons x l => exact ih _ (by simp)
  exact h _ _ (by simp [keccakConst])

theorem keccakSqueeze_length (n : Nat) (a : List Nat) (h : a.length = 25) : (keccakSqueeze n a).length = 136 * n := by
  induction n generalizing a with
  | zero => rfl
  | succ n ih =>
    have hl : ((a.take 17).map fun x => ((beBytes 8 x).reverse).length) = List.replicate 17 8 := by simp [h]
    simp only [keccakSqueeze, List.length_append, ih _ (keccakF_length a), List.length_flatten, List.map_map, Function.comp_def, hl, List.sum_replicate]
    simp; omega

/-- The sponge gives as many bytes as are asked. -/
theorem keccak_length (msg : Bytes) (dom : Byte) (n : Nat) : (keccak msg dom n).length = n := by
  simp only [keccak, List.length_take]
  rw [keccakSqueeze_length]
  · omega
  · exact keccakF_length _

theorem shake256_length (msg : Bytes) (n : Nat) : (shake256 msg n).length = n := keccak_length _ _ n

theorem kmac256_length (key msg label : Bytes) (n : Nat) : (kmac256 key msg label n).length = n := keccak_length _ _ n

end Sys2Proof.Machine
end

