-- ==== Sys2Proof/Laws/State.lean ====
section
/-! SUPPORT. What each named update leaves of each field of the device: one lemma per field per update. -/
namespace Sys2Proof.Machine

variable (d : Dev)

@[simp] theorem Dev.set_now (idx sub v u r : Nat) : (d.set idx sub v u r).now = d.now := (rfl)
@[simp] theorem Dev.set_ltEpoch (idx sub v u r : Nat) : (d.set idx sub v u r).ltEpoch = d.ltEpoch := (rfl)
@[simp] theorem Dev.set_stackId (idx sub v u r : Nat) : (d.set idx sub v u r).stackId = d.stackId := (rfl)
@[simp] theorem Dev.set_store (idx sub v u r : Nat) : (d.set idx sub v u r).store = tput objDefault d.store (objKey idx sub u r) v := (rfl)
@[simp] theorem Dev.set_alm (idx sub v u r : Nat) : (d.set idx sub v u r).alm = d.alm := (rfl)
@[simp] theorem Dev.set_ev (idx sub v u r : Nat) : (d.set idx sub v u r).ev = d.ev := (rfl)
@[simp] theorem Dev.set_fifos (idx sub v u r : Nat) : (d.set idx sub v u r).fifos = d.fifos := (rfl)
@[simp] theorem Dev.set_fifoTurn (idx sub v u r : Nat) : (d.set idx sub v u r).fifoTurn = d.fifoTurn := (rfl)
@[simp] theorem Dev.set_sex (idx sub v u r : Nat) : (d.set idx sub v u r).sex = d.sex := (rfl)
@[simp] theorem Dev.set_plot (idx sub v u r : Nat) : (d.set idx sub v u r).plot = d.plot := (rfl)
@[simp] theorem Dev.set_integ (idx sub v u r : Nat) : (d.set idx sub v u r).integ = d.integ := (rfl)
@[simp] theorem Dev.set_chart (idx sub v u r : Nat) : (d.set idx sub v u r).chart = d.chart := (rfl)
@[simp] theorem Dev.set_shape (idx sub v u r : Nat) : (d.set idx sub v u r).shape = d.shape := (rfl)
@[simp] theorem Dev.set_fab (idx sub v u r : Nat) : (d.set idx sub v u r).fab = d.fab := (rfl)
@[simp] theorem Dev.set_ports (idx sub v u r : Nat) : (d.set idx sub v u r).ports = d.ports := (rfl)
@[simp] theorem Dev.set_pow (idx sub v u r : Nat) : (d.set idx sub v u r).pow = d.pow := (rfl)
@[simp] theorem Dev.set_bin (idx sub v u r : Nat) : (d.set idx sub v u r).bin = d.bin := (rfl)
@[simp] theorem Dev.set_chans (idx sub v u r : Nat) : (d.set idx sub v u r).chans = d.chans := (rfl)
@[simp] theorem Dev.set_lins (idx sub v u r : Nat) : (d.set idx sub v u r).lins = d.lins := (rfl)
@[simp] theorem Dev.set_watch (idx sub v u r : Nat) : (d.set idx sub v u r).watch = d.watch := (rfl)
@[simp] theorem Dev.set_rose (idx sub v u r : Nat) : (d.set idx sub v u r).rose = d.rose := (rfl)
@[simp] theorem Dev.set_flash (idx sub v u r : Nat) : (d.set idx sub v u r).flash = d.flash := (rfl)
@[simp] theorem Dev.set_pairs (idx sub v u r : Nat) : (d.set idx sub v u r).pairs = d.pairs := (rfl)
@[simp] theorem Dev.set_stack (idx sub v u r : Nat) : (d.set idx sub v u r).stack = d.stack := (rfl)
@[simp] theorem Dev.set_freeCount (idx sub v u r : Nat) : (d.set idx sub v u r).freeCount = d.freeCount := (rfl)
@[simp] theorem Dev.set_outbox (idx sub v u r : Nat) : (d.set idx sub v u r).outbox = d.outbox := (rfl)

@[simp] theorem Dev.inc_now (idx sub u r n : Nat) : (d.inc idx sub u r n).now = d.now := (rfl)
@[simp] theorem Dev.inc_ltEpoch (idx sub u r n : Nat) : (d.inc idx sub u r n).ltEpoch = d.ltEpoch := (rfl)
@[simp] theorem Dev.inc_stackId (idx sub u r n : Nat) : (d.inc idx sub u r n).stackId = d.stackId := (rfl)
@[simp] theorem Dev.inc_store (idx sub u r n : Nat) : (d.inc idx sub u r n).store = tput objDefault d.store (objKey idx sub u r) ((d.obj idx sub u r + n) % 2 ^ 32) := (rfl)
@[simp] theorem Dev.inc_alm (idx sub u r n : Nat) : (d.inc idx sub u r n).alm = d.alm := (rfl)
@[simp] theorem Dev.inc_ev (idx sub u r n : Nat) : (d.inc idx sub u r n).ev = d.ev := (rfl)
@[simp] theorem Dev.inc_fifos (idx sub u r n : Nat) : (d.inc idx sub u r n).fifos = d.fifos := (rfl)
@[simp] theorem Dev.inc_fifoTurn (idx sub u r n : Nat) : (d.inc idx sub u r n).fifoTurn = d.fifoTurn := (rfl)
@[simp] theorem Dev.inc_sex (idx sub u r n : Nat) : (d.inc idx sub u r n).sex = d.sex := (rfl)
@[simp] theorem Dev.inc_plot (idx sub u r n : Nat) : (d.inc idx sub u r n).plot = d.plot := (rfl)
@[simp] theorem Dev.inc_integ (idx sub u r n : Nat) : (d.inc idx sub u r n).integ = d.integ := (rfl)
@[simp] theorem Dev.inc_chart (idx sub u r n : Nat) : (d.inc idx sub u r n).chart = d.chart := (rfl)
@[simp] theorem Dev.inc_shape (idx sub u r n : Nat) : (d.inc idx sub u r n).shape = d.shape := (rfl)
@[simp] theorem Dev.inc_fab (idx sub u r n : Nat) : (d.inc idx sub u r n).fab = d.fab := (rfl)
@[simp] theorem Dev.inc_ports (idx sub u r n : Nat) : (d.inc idx sub u r n).ports = d.ports := (rfl)
@[simp] theorem Dev.inc_pow (idx sub u r n : Nat) : (d.inc idx sub u r n).pow = d.pow := (rfl)
@[simp] theorem Dev.inc_bin (idx sub u r n : Nat) : (d.inc idx sub u r n).bin = d.bin := (rfl)
@[simp] theorem Dev.inc_chans (idx sub u r n : Nat) : (d.inc idx sub u r n).chans = d.chans := (rfl)
@[simp] theorem Dev.inc_lins (idx sub u r n : Nat) : (d.inc idx sub u r n).lins = d.lins := (rfl)
@[simp] theorem Dev.inc_watch (idx sub u r n : Nat) : (d.inc idx sub u r n).watch = d.watch := (rfl)
@[simp] theorem Dev.inc_rose (idx sub u r n : Nat) : (d.inc idx sub u r n).rose = d.rose := (rfl)
@[simp] theorem Dev.inc_flash (idx sub u r n : Nat) : (d.inc idx sub u r n).flash = d.flash := (rfl)
@[simp] theorem Dev.inc_pairs (idx sub u r n : Nat) : (d.inc idx sub u r n).pairs = d.pairs := (rfl)
@[simp] theorem Dev.inc_stack (idx sub u r n : Nat) : (d.inc idx sub u r n).stack = d.stack := (rfl)
@[simp] theorem Dev.inc_freeCount (idx sub u r n : Nat) : (d.inc idx sub u r n).freeCount = d.freeCount := (rfl)
@[simp] theorem Dev.inc_outbox (idx sub u r n : Nat) : (d.inc idx sub u r n).outbox = d.outbox := (rfl)

@[simp] theorem Dev.inc64_now (idx sub u r n : Nat) : (d.inc64 idx sub u r n).now = d.now := (rfl)
@[simp] theorem Dev.inc64_ltEpoch (idx sub u r n : Nat) : (d.inc64 idx sub u r n).ltEpoch = d.ltEpoch := (rfl)
@[simp] theorem Dev.inc64_stackId (idx sub u r n : Nat) : (d.inc64 idx sub u r n).stackId = d.stackId := (rfl)
@[simp] theorem Dev.inc64_store (idx sub u r n : Nat) : (d.inc64 idx sub u r n).store = tput objDefault d.store (objKey idx sub u r) ((d.obj idx sub u r + n) % 2 ^ 64) := (rfl)
@[simp] theorem Dev.inc64_alm (idx sub u r n : Nat) : (d.inc64 idx sub u r n).alm = d.alm := (rfl)
@[simp] theorem Dev.inc64_ev (idx sub u r n : Nat) : (d.inc64 idx sub u r n).ev = d.ev := (rfl)
@[simp] theorem Dev.inc64_fifos (idx sub u r n : Nat) : (d.inc64 idx sub u r n).fifos = d.fifos := (rfl)
@[simp] theorem Dev.inc64_fifoTurn (idx sub u r n : Nat) : (d.inc64 idx sub u r n).fifoTurn = d.fifoTurn := (rfl)
@[simp] theorem Dev.inc64_sex (idx sub u r n : Nat) : (d.inc64 idx sub u r n).sex = d.sex := (rfl)
@[simp] theorem Dev.inc64_plot (idx sub u r n : Nat) : (d.inc64 idx sub u r n).plot = d.plot := (rfl)
@[simp] theorem Dev.inc64_integ (idx sub u r n : Nat) : (d.inc64 idx sub u r n).integ = d.integ := (rfl)
@[simp] theorem Dev.inc64_chart (idx sub u r n : Nat) : (d.inc64 idx sub u r n).chart = d.chart := (rfl)
@[simp] theorem Dev.inc64_shape (idx sub u r n : Nat) : (d.inc64 idx sub u r n).shape = d.shape := (rfl)
@[simp] theorem Dev.inc64_fab (idx sub u r n : Nat) : (d.inc64 idx sub u r n).fab = d.fab := (rfl)
@[simp] theorem Dev.inc64_ports (idx sub u r n : Nat) : (d.inc64 idx sub u r n).ports = d.ports := (rfl)
@[simp] theorem Dev.inc64_pow (idx sub u r n : Nat) : (d.inc64 idx sub u r n).pow = d.pow := (rfl)
@[simp] theorem Dev.inc64_bin (idx sub u r n : Nat) : (d.inc64 idx sub u r n).bin = d.bin := (rfl)
@[simp] theorem Dev.inc64_chans (idx sub u r n : Nat) : (d.inc64 idx sub u r n).chans = d.chans := (rfl)
@[simp] theorem Dev.inc64_lins (idx sub u r n : Nat) : (d.inc64 idx sub u r n).lins = d.lins := (rfl)
@[simp] theorem Dev.inc64_watch (idx sub u r n : Nat) : (d.inc64 idx sub u r n).watch = d.watch := (rfl)
@[simp] theorem Dev.inc64_rose (idx sub u r n : Nat) : (d.inc64 idx sub u r n).rose = d.rose := (rfl)
@[simp] theorem Dev.inc64_flash (idx sub u r n : Nat) : (d.inc64 idx sub u r n).flash = d.flash := (rfl)
@[simp] theorem Dev.inc64_pairs (idx sub u r n : Nat) : (d.inc64 idx sub u r n).pairs = d.pairs := (rfl)
@[simp] theorem Dev.inc64_stack (idx sub u r n : Nat) : (d.inc64 idx sub u r n).stack = d.stack := (rfl)
@[simp] theorem Dev.inc64_freeCount (idx sub u r n : Nat) : (d.inc64 idx sub u r n).freeCount = d.freeCount := (rfl)
@[simp] theorem Dev.inc64_outbox (idx sub u r n : Nat) : (d.inc64 idx sub u r n).outbox = d.outbox := (rfl)

@[simp] theorem Dev.out_now (o : Out) : (d.out o).now = d.now := (rfl)
@[simp] theorem Dev.out_ltEpoch (o : Out) : (d.out o).ltEpoch = d.ltEpoch := (rfl)
@[simp] theorem Dev.out_stackId (o : Out) : (d.out o).stackId = d.stackId := (rfl)
@[simp] theorem Dev.out_store (o : Out) : (d.out o).store = d.store := (rfl)
@[simp] theorem Dev.out_alm (o : Out) : (d.out o).alm = d.alm := (rfl)
@[simp] theorem Dev.out_ev (o : Out) : (d.out o).ev = d.ev := (rfl)
@[simp] theorem Dev.out_fifos (o : Out) : (d.out o).fifos = d.fifos := (rfl)
@[simp] theorem Dev.out_fifoTurn (o : Out) : (d.out o).fifoTurn = d.fifoTurn := (rfl)
@[simp] theorem Dev.out_sex (o : Out) : (d.out o).sex = d.sex := (rfl)
@[simp] theorem Dev.out_plot (o : Out) : (d.out o).plot = d.plot := (rfl)
@[simp] theorem Dev.out_integ (o : Out) : (d.out o).integ = d.integ := (rfl)
@[simp] theorem Dev.out_chart (o : Out) : (d.out o).chart = d.chart := (rfl)
@[simp] theorem Dev.out_shape (o : Out) : (d.out o).shape = d.shape := (rfl)
@[simp] theorem Dev.out_fab (o : Out) : (d.out o).fab = d.fab := (rfl)
@[simp] theorem Dev.out_ports (o : Out) : (d.out o).ports = d.ports := (rfl)
@[simp] theorem Dev.out_pow (o : Out) : (d.out o).pow = d.pow := (rfl)
@[simp] theorem Dev.out_bin (o : Out) : (d.out o).bin = d.bin := (rfl)
@[simp] theorem Dev.out_chans (o : Out) : (d.out o).chans = d.chans := (rfl)
@[simp] theorem Dev.out_lins (o : Out) : (d.out o).lins = d.lins := (rfl)
@[simp] theorem Dev.out_watch (o : Out) : (d.out o).watch = d.watch := (rfl)
@[simp] theorem Dev.out_rose (o : Out) : (d.out o).rose = d.rose := (rfl)
@[simp] theorem Dev.out_flash (o : Out) : (d.out o).flash = d.flash := (rfl)
@[simp] theorem Dev.out_pairs (o : Out) : (d.out o).pairs = d.pairs := (rfl)
@[simp] theorem Dev.out_stack (o : Out) : (d.out o).stack = d.stack := (rfl)
@[simp] theorem Dev.out_freeCount (o : Out) : (d.out o).freeCount = d.freeCount := (rfl)
@[simp] theorem Dev.out_outbox (o : Out) : (d.out o).outbox = o :: d.outbox := (rfl)
@[simp] theorem Dev.out_obj (o : Out) (i s2 w q : Nat) : (d.out o).obj i s2 w q = d.obj i s2 w q := (rfl)
@[simp] theorem Dev.out_flag (o : Out) (i s2 w q : Nat) : (d.out o).flag i s2 w q = d.flag i s2 w q := (rfl)

@[simp] theorem Dev.event_now (src : Nat) (v : Option Nat) (c : EvCode) (u : Nat) (b : Bytes) : (d.event src v c u b).now = d.now := (rfl)
@[simp] theorem Dev.event_ltEpoch (src : Nat) (v : Option Nat) (c : EvCode) (u : Nat) (b : Bytes) : (d.event src v c u b).ltEpoch = d.ltEpoch := (rfl)
@[simp] theorem Dev.event_stackId (src : Nat) (v : Option Nat) (c : EvCode) (u : Nat) (b : Bytes) : (d.event src v c u b).stackId = d.stackId := (rfl)
@[simp] theorem Dev.event_store (src : Nat) (v : Option Nat) (c : EvCode) (u : Nat) (b : Bytes) : (d.event src v c u b).store = d.store := (rfl)
@[simp] theorem Dev.event_alm (src : Nat) (v : Option Nat) (c : EvCode) (u : Nat) (b : Bytes) : (d.event src v c u b).alm = d.alm := (rfl)
@[simp] theorem Dev.event_fifos (src : Nat) (v : Option Nat) (c : EvCode) (u : Nat) (b : Bytes) : (d.event src v c u b).fifos = d.fifos := (rfl)
@[simp] theorem Dev.event_fifoTurn (src : Nat) (v : Option Nat) (c : EvCode) (u : Nat) (b : Bytes) : (d.event src v c u b).fifoTurn = d.fifoTurn := (rfl)
@[simp] theorem Dev.event_sex (src : Nat) (v : Option Nat) (c : EvCode) (u : Nat) (b : Bytes) : (d.event src v c u b).sex = d.sex := (rfl)
@[simp] theorem Dev.event_plot (src : Nat) (v : Option Nat) (c : EvCode) (u : Nat) (b : Bytes) : (d.event src v c u b).plot = d.plot := (rfl)
@[simp] theorem Dev.event_integ (src : Nat) (v : Option Nat) (c : EvCode) (u : Nat) (b : Bytes) : (d.event src v c u b).integ = d.integ := (rfl)
@[simp] theorem Dev.event_chart (src : Nat) (v : Option Nat) (c : EvCode) (u : Nat) (b : Bytes) : (d.event src v c u b).chart = d.chart := (rfl)
@[simp] theorem Dev.event_shape (src : Nat) (v : Option Nat) (c : EvCode) (u : Nat) (b : Bytes) : (d.event src v c u b).shape = d.shape := (rfl)
@[simp] theorem Dev.event_fab (src : Nat) (v : Option Nat) (c : EvCode) (u : Nat) (b : Bytes) : (d.event src v c u b).fab = d.fab := (rfl)
@[simp] theorem Dev.event_ports (src : Nat) (v : Option Nat) (c : EvCode) (u : Nat) (b : Bytes) : (d.event src v c u b).ports = d.ports := (rfl)
@[simp] theorem Dev.event_pow (src : Nat) (v : Option Nat) (c : EvCode) (u : Nat) (b : Bytes) : (d.event src v c u b).pow = d.pow := (rfl)
@[simp] theorem Dev.event_bin (src : Nat) (v : Option Nat) (c : EvCode) (u : Nat) (b : Bytes) : (d.event src v c u b).bin = d.bin := (rfl)
@[simp] theorem Dev.event_chans (src : Nat) (v : Option Nat) (c : EvCode) (u : Nat) (b : Bytes) : (d.event src v c u b).chans = d.chans := (rfl)
@[simp] theorem Dev.event_lins (src : Nat) (v : Option Nat) (c : EvCode) (u : Nat) (b : Bytes) : (d.event src v c u b).lins = d.lins := (rfl)
@[simp] theorem Dev.event_watch (src : Nat) (v : Option Nat) (c : EvCode) (u : Nat) (b : Bytes) : (d.event src v c u b).watch = d.watch := (rfl)
@[simp] theorem Dev.event_rose (src : Nat) (v : Option Nat) (c : EvCode) (u : Nat) (b : Bytes) : (d.event src v c u b).rose = d.rose := (rfl)
@[simp] theorem Dev.event_flash (src : Nat) (v : Option Nat) (c : EvCode) (u : Nat) (b : Bytes) : (d.event src v c u b).flash = d.flash := (rfl)
@[simp] theorem Dev.event_pairs (src : Nat) (v : Option Nat) (c : EvCode) (u : Nat) (b : Bytes) : (d.event src v c u b).pairs = d.pairs := (rfl)
@[simp] theorem Dev.event_stack (src : Nat) (v : Option Nat) (c : EvCode) (u : Nat) (b : Bytes) : (d.event src v c u b).stack = d.stack := (rfl)
@[simp] theorem Dev.event_freeCount (src : Nat) (v : Option Nat) (c : EvCode) (u : Nat) (b : Bytes) : (d.event src v c u b).freeCount = d.freeCount := (rfl)
@[simp] theorem Dev.event_outbox (src : Nat) (v : Option Nat) (c : EvCode) (u : Nat) (b : Bytes) : (d.event src v c u b).outbox = d.outbox := (rfl)
@[simp] theorem Dev.event_obj (src : Nat) (v : Option Nat) (c : EvCode) (u : Nat) (b : Bytes) (i s2 w q : Nat) : (d.event src v c u b).obj i s2 w q = d.obj i s2 w q := (rfl)
@[simp] theorem Dev.event_flag (src : Nat) (v : Option Nat) (c : EvCode) (u : Nat) (b : Bytes) (i s2 w q : Nat) : (d.event src v c u b).flag i s2 w q = d.flag i s2 w q := (rfl)

@[simp] theorem Dev.almUpd_now (f : AlmSt → AlmSt) : (d.almUpd f).now = d.now := (rfl)
@[simp] theorem Dev.almUpd_ltEpoch (f : AlmSt → AlmSt) : (d.almUpd f).ltEpoch = d.ltEpoch := (rfl)
@[simp] theorem Dev.almUpd_stackId (f : AlmSt → AlmSt) : (d.almUpd f).stackId = d.stackId := (rfl)
@[simp] theorem Dev.almUpd_store (f : AlmSt → AlmSt) : (d.almUpd f).store = d.store := (rfl)
@[simp] theorem Dev.almUpd_alm (f : AlmSt → AlmSt) : (d.almUpd f).alm = f d.alm := (rfl)
@[simp] theorem Dev.almUpd_ev (f : AlmSt → AlmSt) : (d.almUpd f).ev = d.ev := (rfl)
@[simp] theorem Dev.almUpd_fifos (f : AlmSt → AlmSt) : (d.almUpd f).fifos = d.fifos := (rfl)
@[simp] theorem Dev.almUpd_fifoTurn (f : AlmSt → AlmSt) : (d.almUpd f).fifoTurn = d.fifoTurn := (rfl)
@[simp] theorem Dev.almUpd_sex (f : AlmSt → AlmSt) : (d.almUpd f).sex = d.sex := (rfl)
@[simp] theorem Dev.almUpd_plot (f : AlmSt → AlmSt) : (d.almUpd f).plot = d.plot := (rfl)
@[simp] theorem Dev.almUpd_integ (f : AlmSt → AlmSt) : (d.almUpd f).integ = d.integ := (rfl)
@[simp] theorem Dev.almUpd_chart (f : AlmSt → AlmSt) : (d.almUpd f).chart = d.chart := (rfl)
@[simp] theorem Dev.almUpd_shape (f : AlmSt → AlmSt) : (d.almUpd f).shape = d.shape := (rfl)
@[simp] theorem Dev.almUpd_fab (f : AlmSt → AlmSt) : (d.almUpd f).fab = d.fab := (rfl)
@[simp] theorem Dev.almUpd_ports (f : AlmSt → AlmSt) : (d.almUpd f).ports = d.ports := (rfl)
@[simp] theorem Dev.almUpd_pow (f : AlmSt → AlmSt) : (d.almUpd f).pow = d.pow := (rfl)
@[simp] theorem Dev.almUpd_bin (f : AlmSt → AlmSt) : (d.almUpd f).bin = d.bin := (rfl)
@[simp] theorem Dev.almUpd_chans (f : AlmSt → AlmSt) : (d.almUpd f).chans = d.chans := (rfl)
@[simp] theorem Dev.almUpd_lins (f : AlmSt → AlmSt) : (d.almUpd f).lins = d.lins := (rfl)
@[simp] theorem Dev.almUpd_watch (f : AlmSt → AlmSt) : (d.almUpd f).watch = d.watch := (rfl)
@[simp] theorem Dev.almUpd_rose (f : AlmSt → AlmSt) : (d.almUpd f).rose = d.rose := (rfl)
@[simp] theorem Dev.almUpd_flash (f : AlmSt → AlmSt) : (d.almUpd f).flash = d.flash := (rfl)
@[simp] theorem Dev.almUpd_pairs (f : AlmSt → AlmSt) : (d.almUpd f).pairs = d.pairs := (rfl)
@[simp] theorem Dev.almUpd_stack (f : AlmSt → AlmSt) : (d.almUpd f).stack = d.stack := (rfl)
@[simp] theorem Dev.almUpd_freeCount (f : AlmSt → AlmSt) : (d.almUpd f).freeCount = d.freeCount := (rfl)
@[simp] theorem Dev.almUpd_outbox (f : AlmSt → AlmSt) : (d.almUpd f).outbox = d.outbox := (rfl)
@[simp] theorem Dev.almUpd_obj (f : AlmSt → AlmSt) (i s2 w q : Nat) : (d.almUpd f).obj i s2 w q = d.obj i s2 w q := (rfl)
@[simp] theorem Dev.almUpd_flag (f : AlmSt → AlmSt) (i s2 w q : Nat) : (d.almUpd f).flag i s2 w q = d.flag i s2 w q := (rfl)
@[simp] theorem Dev.almUpd_almUpd (f g : AlmSt → AlmSt) : (d.almUpd f).almUpd g = d.almUpd (fun x => g (f x)) := (rfl)

@[simp] theorem Dev.fabUpd_now (f : FabSt → FabSt) : (d.fabUpd f).now = d.now := (rfl)
@[simp] theorem Dev.fabUpd_ltEpoch (f : FabSt → FabSt) : (d.fabUpd f).ltEpoch = d.ltEpoch := (rfl)
@[simp] theorem Dev.fabUpd_stackId (f : FabSt → FabSt) : (d.fabUpd f).stackId = d.stackId := (rfl)
@[simp] theorem Dev.fabUpd_store (f : FabSt → FabSt) : (d.fabUpd f).store = d.store := (rfl)
@[simp] theorem Dev.fabUpd_alm (f : FabSt → FabSt) : (d.fabUpd f).alm = d.alm := (rfl)
@[simp] theorem Dev.fabUpd_ev (f : FabSt → FabSt) : (d.fabUpd f).ev = d.ev := (rfl)
@[simp] theorem Dev.fabUpd_fifos (f : FabSt → FabSt) : (d.fabUpd f).fifos = d.fifos := (rfl)
@[simp] theorem Dev.fabUpd_fifoTurn (f : FabSt → FabSt) : (d.fabUpd f).fifoTurn = d.fifoTurn := (rfl)
@[simp] theorem Dev.fabUpd_sex (f : FabSt → FabSt) : (d.fabUpd f).sex = d.sex := (rfl)
@[simp] theorem Dev.fabUpd_plot (f : FabSt → FabSt) : (d.fabUpd f).plot = d.plot := (rfl)
@[simp] theorem Dev.fabUpd_integ (f : FabSt → FabSt) : (d.fabUpd f).integ = d.integ := (rfl)
@[simp] theorem Dev.fabUpd_chart (f : FabSt → FabSt) : (d.fabUpd f).chart = d.chart := (rfl)
@[simp] theorem Dev.fabUpd_shape (f : FabSt → FabSt) : (d.fabUpd f).shape = d.shape := (rfl)
@[simp] theorem Dev.fabUpd_fab (f : FabSt → FabSt) : (d.fabUpd f).fab = f d.fab := (rfl)
@[simp] theorem Dev.fabUpd_ports (f : FabSt → FabSt) : (d.fabUpd f).ports = d.ports := (rfl)
@[simp] theorem Dev.fabUpd_pow (f : FabSt → FabSt) : (d.fabUpd f).pow = d.pow := (rfl)
@[simp] theorem Dev.fabUpd_bin (f : FabSt → FabSt) : (d.fabUpd f).bin = d.bin := (rfl)
@[simp] theorem Dev.fabUpd_chans (f : FabSt → FabSt) : (d.fabUpd f).chans = d.chans := (rfl)
@[simp] theorem Dev.fabUpd_lins (f : FabSt → FabSt) : (d.fabUpd f).lins = d.lins := (rfl)
@[simp] theorem Dev.fabUpd_watch (f : FabSt → FabSt) : (d.fabUpd f).watch = d.watch := (rfl)
@[simp] theorem Dev.fabUpd_rose (f : FabSt → FabSt) : (d.fabUpd f).rose = d.rose := (rfl)
@[simp] theorem Dev.fabUpd_flash (f : FabSt → FabSt) : (d.fabUpd f).flash = d.flash := (rfl)
@[simp] theorem Dev.fabUpd_pairs (f : FabSt → FabSt) : (d.fabUpd f).pairs = d.pairs := (rfl)
@[simp] theorem Dev.fabUpd_stack (f : FabSt → FabSt) : (d.fabUpd f).stack = d.stack := (rfl)
@[simp] theorem Dev.fabUpd_freeCount (f : FabSt → FabSt) : (d.fabUpd f).freeCount = d.freeCount := (rfl)
@[simp] theorem Dev.fabUpd_outbox (f : FabSt → FabSt) : (d.fabUpd f).outbox = d.outbox := (rfl)
@[simp] theorem Dev.fabUpd_obj (f : FabSt → FabSt) (i s2 w q : Nat) : (d.fabUpd f).obj i s2 w q = d.obj i s2 w q := (rfl)
@[simp] theorem Dev.fabUpd_flag (f : FabSt → FabSt) (i s2 w q : Nat) : (d.fabUpd f).flag i s2 w q = d.flag i s2 w q := (rfl)
@[simp] theorem Dev.fabUpd_fabUpd (f g : FabSt → FabSt) : (d.fabUpd f).fabUpd g = d.fabUpd (fun x => g (f x)) := (rfl)

@[simp] theorem Dev.powUpd_now (f : PowSt → PowSt) : (d.powUpd f).now = d.now := (rfl)
@[simp] theorem Dev.powUpd_ltEpoch (f : PowSt → PowSt) : (d.powUpd f).ltEpoch = d.ltEpoch := (rfl)
@[simp] theorem Dev.powUpd_stackId (f : PowSt → PowSt) : (d.powUpd f).stackId = d.stackId := (rfl)
@[simp] theorem Dev.powUpd_store (f : PowSt → PowSt) : (d.powUpd f).store = d.store := (rfl)
@[simp] theorem Dev.powUpd_alm (f : PowSt → PowSt) : (d.powUpd f).alm = d.alm := (rfl)
@[simp] theorem Dev.powUpd_ev (f : PowSt → PowSt) : (d.powUpd f).ev = d.ev := (rfl)
@[simp] theorem Dev.powUpd_fifos (f : PowSt → PowSt) : (d.powUpd f).fifos = d.fifos := (rfl)
@[simp] theorem Dev.powUpd_fifoTurn (f : PowSt → PowSt) : (d.powUpd f).fifoTurn = d.fifoTurn := (rfl)
@[simp] theorem Dev.powUpd_sex (f : PowSt → PowSt) : (d.powUpd f).sex = d.sex := (rfl)
@[simp] theorem Dev.powUpd_plot (f : PowSt → PowSt) : (d.powUpd f).plot = d.plot := (rfl)
@[simp] theorem Dev.powUpd_integ (f : PowSt → PowSt) : (d.powUpd f).integ = d.integ := (rfl)
@[simp] theorem Dev.powUpd_chart (f : PowSt → PowSt) : (d.powUpd f).chart = d.chart := (rfl)
@[simp] theorem Dev.powUpd_shape (f : PowSt → PowSt) : (d.powUpd f).shape = d.shape := (rfl)
@[simp] theorem Dev.powUpd_fab (f : PowSt → PowSt) : (d.powUpd f).fab = d.fab := (rfl)
@[simp] theorem Dev.powUpd_ports (f : PowSt → PowSt) : (d.powUpd f).ports = d.ports := (rfl)
@[simp] theorem Dev.powUpd_pow (f : PowSt → PowSt) : (d.powUpd f).pow = f d.pow := (rfl)
@[simp] theorem Dev.powUpd_bin (f : PowSt → PowSt) : (d.powUpd f).bin = d.bin := (rfl)
@[simp] theorem Dev.powUpd_chans (f : PowSt → PowSt) : (d.powUpd f).chans = d.chans := (rfl)
@[simp] theorem Dev.powUpd_lins (f : PowSt → PowSt) : (d.powUpd f).lins = d.lins := (rfl)
@[simp] theorem Dev.powUpd_watch (f : PowSt → PowSt) : (d.powUpd f).watch = d.watch := (rfl)
@[simp] theorem Dev.powUpd_rose (f : PowSt → PowSt) : (d.powUpd f).rose = d.rose := (rfl)
@[simp] theorem Dev.powUpd_flash (f : PowSt → PowSt) : (d.powUpd f).flash = d.flash := (rfl)
@[simp] theorem Dev.powUpd_pairs (f : PowSt → PowSt) : (d.powUpd f).pairs = d.pairs := (rfl)
@[simp] theorem Dev.powUpd_stack (f : PowSt → PowSt) : (d.powUpd f).stack = d.stack := (rfl)
@[simp] theorem Dev.powUpd_freeCount (f : PowSt → PowSt) : (d.powUpd f).freeCount = d.freeCount := (rfl)
@[simp] theorem Dev.powUpd_outbox (f : PowSt → PowSt) : (d.powUpd f).outbox = d.outbox := (rfl)
@[simp] theorem Dev.powUpd_obj (f : PowSt → PowSt) (i s2 w q : Nat) : (d.powUpd f).obj i s2 w q = d.obj i s2 w q := (rfl)
@[simp] theorem Dev.powUpd_flag (f : PowSt → PowSt) (i s2 w q : Nat) : (d.powUpd f).flag i s2 w q = d.flag i s2 w q := (rfl)
@[simp] theorem Dev.powUpd_powUpd (f g : PowSt → PowSt) : (d.powUpd f).powUpd g = d.powUpd (fun x => g (f x)) := (rfl)

@[simp] theorem Dev.watchUpd_now (f : WatchSt → WatchSt) : (d.watchUpd f).now = d.now := (rfl)
@[simp] theorem Dev.watchUpd_ltEpoch (f : WatchSt → WatchSt) : (d.watchUpd f).ltEpoch = d.ltEpoch := (rfl)
@[simp] theorem Dev.watchUpd_stackId (f : WatchSt → WatchSt) : (d.watchUpd f).stackId = d.stackId := (rfl)
@[simp] theorem Dev.watchUpd_store (f : WatchSt → WatchSt) : (d.watchUpd f).store = d.store := (rfl)
@[simp] theorem Dev.watchUpd_alm (f : WatchSt → WatchSt) : (d.watchUpd f).alm = d.alm := (rfl)
@[simp] theorem Dev.watchUpd_ev (f : WatchSt → WatchSt) : (d.watchUpd f).ev = d.ev := (rfl)
@[simp] theorem Dev.watchUpd_fifos (f : WatchSt → WatchSt) : (d.watchUpd f).fifos = d.fifos := (rfl)
@[simp] theorem Dev.watchUpd_fifoTurn (f : WatchSt → WatchSt) : (d.watchUpd f).fifoTurn = d.fifoTurn := (rfl)
@[simp] theorem Dev.watchUpd_sex (f : WatchSt → WatchSt) : (d.watchUpd f).sex = d.sex := (rfl)
@[simp] theorem Dev.watchUpd_plot (f : WatchSt → WatchSt) : (d.watchUpd f).plot = d.plot := (rfl)
@[simp] theorem Dev.watchUpd_integ (f : WatchSt → WatchSt) : (d.watchUpd f).integ = d.integ := (rfl)
@[simp] theorem Dev.watchUpd_chart (f : WatchSt → WatchSt) : (d.watchUpd f).chart = d.chart := (rfl)
@[simp] theorem Dev.watchUpd_shape (f : WatchSt → WatchSt) : (d.watchUpd f).shape = d.shape := (rfl)
@[simp] theorem Dev.watchUpd_fab (f : WatchSt → WatchSt) : (d.watchUpd f).fab = d.fab := (rfl)
@[simp] theorem Dev.watchUpd_ports (f : WatchSt → WatchSt) : (d.watchUpd f).ports = d.ports := (rfl)
@[simp] theorem Dev.watchUpd_pow (f : WatchSt → WatchSt) : (d.watchUpd f).pow = d.pow := (rfl)
@[simp] theorem Dev.watchUpd_bin (f : WatchSt → WatchSt) : (d.watchUpd f).bin = d.bin := (rfl)
@[simp] theorem Dev.watchUpd_chans (f : WatchSt → WatchSt) : (d.watchUpd f).chans = d.chans := (rfl)
@[simp] theorem Dev.watchUpd_lins (f : WatchSt → WatchSt) : (d.watchUpd f).lins = d.lins := (rfl)
@[simp] theorem Dev.watchUpd_watch (f : WatchSt → WatchSt) : (d.watchUpd f).watch = f d.watch := (rfl)
@[simp] theorem Dev.watchUpd_rose (f : WatchSt → WatchSt) : (d.watchUpd f).rose = d.rose := (rfl)
@[simp] theorem Dev.watchUpd_flash (f : WatchSt → WatchSt) : (d.watchUpd f).flash = d.flash := (rfl)
@[simp] theorem Dev.watchUpd_pairs (f : WatchSt → WatchSt) : (d.watchUpd f).pairs = d.pairs := (rfl)
@[simp] theorem Dev.watchUpd_stack (f : WatchSt → WatchSt) : (d.watchUpd f).stack = d.stack := (rfl)
@[simp] theorem Dev.watchUpd_freeCount (f : WatchSt → WatchSt) : (d.watchUpd f).freeCount = d.freeCount := (rfl)
@[simp] theorem Dev.watchUpd_outbox (f : WatchSt → WatchSt) : (d.watchUpd f).outbox = d.outbox := (rfl)
@[simp] theorem Dev.watchUpd_obj (f : WatchSt → WatchSt) (i s2 w q : Nat) : (d.watchUpd f).obj i s2 w q = d.obj i s2 w q := (rfl)
@[simp] theorem Dev.watchUpd_flag (f : WatchSt → WatchSt) (i s2 w q : Nat) : (d.watchUpd f).flag i s2 w q = d.flag i s2 w q := (rfl)
@[simp] theorem Dev.watchUpd_watchUpd (f g : WatchSt → WatchSt) : (d.watchUpd f).watchUpd g = d.watchUpd (fun x => g (f x)) := (rfl)

@[simp] theorem Dev.roseUpd_now (f : RoseSt → RoseSt) : (d.roseUpd f).now = d.now := (rfl)
@[simp] theorem Dev.roseUpd_ltEpoch (f : RoseSt → RoseSt) : (d.roseUpd f).ltEpoch = d.ltEpoch := (rfl)
@[simp] theorem Dev.roseUpd_stackId (f : RoseSt → RoseSt) : (d.roseUpd f).stackId = d.stackId := (rfl)
@[simp] theorem Dev.roseUpd_store (f : RoseSt → RoseSt) : (d.roseUpd f).store = d.store := (rfl)
@[simp] theorem Dev.roseUpd_alm (f : RoseSt → RoseSt) : (d.roseUpd f).alm = d.alm := (rfl)
@[simp] theorem Dev.roseUpd_ev (f : RoseSt → RoseSt) : (d.roseUpd f).ev = d.ev := (rfl)
@[simp] theorem Dev.roseUpd_fifos (f : RoseSt → RoseSt) : (d.roseUpd f).fifos = d.fifos := (rfl)
@[simp] theorem Dev.roseUpd_fifoTurn (f : RoseSt → RoseSt) : (d.roseUpd f).fifoTurn = d.fifoTurn := (rfl)
@[simp] theorem Dev.roseUpd_sex (f : RoseSt → RoseSt) : (d.roseUpd f).sex = d.sex := (rfl)
@[simp] theorem Dev.roseUpd_plot (f : RoseSt → RoseSt) : (d.roseUpd f).plot = d.plot := (rfl)
@[simp] theorem Dev.roseUpd_integ (f : RoseSt → RoseSt) : (d.roseUpd f).integ = d.integ := (rfl)
@[simp] theorem Dev.roseUpd_chart (f : RoseSt → RoseSt) : (d.roseUpd f).chart = d.chart := (rfl)
@[simp] theorem Dev.roseUpd_shape (f : RoseSt → RoseSt) : (d.roseUpd f).shape = d.shape := (rfl)
@[simp] theorem Dev.roseUpd_fab (f : RoseSt → RoseSt) : (d.roseUpd f).fab = d.fab := (rfl)
@[simp] theorem Dev.roseUpd_ports (f : RoseSt → RoseSt) : (d.roseUpd f).ports = d.ports := (rfl)
@[simp] theorem Dev.roseUpd_pow (f : RoseSt → RoseSt) : (d.roseUpd f).pow = d.pow := (rfl)
@[simp] theorem Dev.roseUpd_bin (f : RoseSt → RoseSt) : (d.roseUpd f).bin = d.bin := (rfl)
@[simp] theorem Dev.roseUpd_chans (f : RoseSt → RoseSt) : (d.roseUpd f).chans = d.chans := (rfl)
@[simp] theorem Dev.roseUpd_lins (f : RoseSt → RoseSt) : (d.roseUpd f).lins = d.lins := (rfl)
@[simp] theorem Dev.roseUpd_watch (f : RoseSt → RoseSt) : (d.roseUpd f).watch = d.watch := (rfl)
@[simp] theorem Dev.roseUpd_rose (f : RoseSt → RoseSt) : (d.roseUpd f).rose = f d.rose := (rfl)
@[simp] theorem Dev.roseUpd_flash (f : RoseSt → RoseSt) : (d.roseUpd f).flash = d.flash := (rfl)
@[simp] theorem Dev.roseUpd_pairs (f : RoseSt → RoseSt) : (d.roseUpd f).pairs = d.pairs := (rfl)
@[simp] theorem Dev.roseUpd_stack (f : RoseSt → RoseSt) : (d.roseUpd f).stack = d.stack := (rfl)
@[simp] theorem Dev.roseUpd_freeCount (f : RoseSt → RoseSt) : (d.roseUpd f).freeCount = d.freeCount := (rfl)
@[simp] theorem Dev.roseUpd_outbox (f : RoseSt → RoseSt) : (d.roseUpd f).outbox = d.outbox := (rfl)
@[simp] theorem Dev.roseUpd_obj (f : RoseSt → RoseSt) (i s2 w q : Nat) : (d.roseUpd f).obj i s2 w q = d.obj i s2 w q := (rfl)
@[simp] theorem Dev.roseUpd_flag (f : RoseSt → RoseSt) (i s2 w q : Nat) : (d.roseUpd f).flag i s2 w q = d.flag i s2 w q := (rfl)
@[simp] theorem Dev.roseUpd_roseUpd (f g : RoseSt → RoseSt) : (d.roseUpd f).roseUpd g = d.roseUpd (fun x => g (f x)) := (rfl)

@[simp] theorem Dev.flashUpd_now (f : FlashSt → FlashSt) : (d.flashUpd f).now = d.now := (rfl)
@[simp] theorem Dev.flashUpd_ltEpoch (f : FlashSt → FlashSt) : (d.flashUpd f).ltEpoch = d.ltEpoch := (rfl)
@[simp] theorem Dev.flashUpd_stackId (f : FlashSt → FlashSt) : (d.flashUpd f).stackId = d.stackId := (rfl)
@[simp] theorem Dev.flashUpd_store (f : FlashSt → FlashSt) : (d.flashUpd f).store = d.store := (rfl)
@[simp] theorem Dev.flashUpd_alm (f : FlashSt → FlashSt) : (d.flashUpd f).alm = d.alm := (rfl)
@[simp] theorem Dev.flashUpd_ev (f : FlashSt → FlashSt) : (d.flashUpd f).ev = d.ev := (rfl)
@[simp] theorem Dev.flashUpd_fifos (f : FlashSt → FlashSt) : (d.flashUpd f).fifos = d.fifos := (rfl)
@[simp] theorem Dev.flashUpd_fifoTurn (f : FlashSt → FlashSt) : (d.flashUpd f).fifoTurn = d.fifoTurn := (rfl)
@[simp] theorem Dev.flashUpd_sex (f : FlashSt → FlashSt) : (d.flashUpd f).sex = d.sex := (rfl)
@[simp] theorem Dev.flashUpd_plot (f : FlashSt → FlashSt) : (d.flashUpd f).plot = d.plot := (rfl)
@[simp] theorem Dev.flashUpd_integ (f : FlashSt → FlashSt) : (d.flashUpd f).integ = d.integ := (rfl)
@[simp] theorem Dev.flashUpd_chart (f : FlashSt → FlashSt) : (d.flashUpd f).chart = d.chart := (rfl)
@[simp] theorem Dev.flashUpd_shape (f : FlashSt → FlashSt) : (d.flashUpd f).shape = d.shape := (rfl)
@[simp] theorem Dev.flashUpd_fab (f : FlashSt → FlashSt) : (d.flashUpd f).fab = d.fab := (rfl)
@[simp] theorem Dev.flashUpd_ports (f : FlashSt → FlashSt) : (d.flashUpd f).ports = d.ports := (rfl)
@[simp] theorem Dev.flashUpd_pow (f : FlashSt → FlashSt) : (d.flashUpd f).pow = d.pow := (rfl)
@[simp] theorem Dev.flashUpd_bin (f : FlashSt → FlashSt) : (d.flashUpd f).bin = d.bin := (rfl)
@[simp] theorem Dev.flashUpd_chans (f : FlashSt → FlashSt) : (d.flashUpd f).chans = d.chans := (rfl)
@[simp] theorem Dev.flashUpd_lins (f : FlashSt → FlashSt) : (d.flashUpd f).lins = d.lins := (rfl)
@[simp] theorem Dev.flashUpd_watch (f : FlashSt → FlashSt) : (d.flashUpd f).watch = d.watch := (rfl)
@[simp] theorem Dev.flashUpd_rose (f : FlashSt → FlashSt) : (d.flashUpd f).rose = d.rose := (rfl)
@[simp] theorem Dev.flashUpd_flash (f : FlashSt → FlashSt) : (d.flashUpd f).flash = f d.flash := (rfl)
@[simp] theorem Dev.flashUpd_pairs (f : FlashSt → FlashSt) : (d.flashUpd f).pairs = d.pairs := (rfl)
@[simp] theorem Dev.flashUpd_stack (f : FlashSt → FlashSt) : (d.flashUpd f).stack = d.stack := (rfl)
@[simp] theorem Dev.flashUpd_freeCount (f : FlashSt → FlashSt) : (d.flashUpd f).freeCount = d.freeCount := (rfl)
@[simp] theorem Dev.flashUpd_outbox (f : FlashSt → FlashSt) : (d.flashUpd f).outbox = d.outbox := (rfl)
@[simp] theorem Dev.flashUpd_obj (f : FlashSt → FlashSt) (i s2 w q : Nat) : (d.flashUpd f).obj i s2 w q = d.obj i s2 w q := (rfl)
@[simp] theorem Dev.flashUpd_flag (f : FlashSt → FlashSt) (i s2 w q : Nat) : (d.flashUpd f).flag i s2 w q = d.flag i s2 w q := (rfl)
@[simp] theorem Dev.flashUpd_flashUpd (f g : FlashSt → FlashSt) : (d.flashUpd f).flashUpd g = d.flashUpd (fun x => g (f x)) := (rfl)

@[simp] theorem Dev.stackUpd_now (f : StackSt → StackSt) : (d.stackUpd f).now = d.now := (rfl)
@[simp] theorem Dev.stackUpd_ltEpoch (f : StackSt → StackSt) : (d.stackUpd f).ltEpoch = d.ltEpoch := (rfl)
@[simp] theorem Dev.stackUpd_stackId (f : StackSt → StackSt) : (d.stackUpd f).stackId = d.stackId := (rfl)
@[simp] theorem Dev.stackUpd_store (f : StackSt → StackSt) : (d.stackUpd f).store = d.store := (rfl)
@[simp] theorem Dev.stackUpd_alm (f : StackSt → StackSt) : (d.stackUpd f).alm = d.alm := (rfl)
@[simp] theorem Dev.stackUpd_ev (f : StackSt → StackSt) : (d.stackUpd f).ev = d.ev := (rfl)
@[simp] theorem Dev.stackUpd_fifos (f : StackSt → StackSt) : (d.stackUpd f).fifos = d.fifos := (rfl)
@[simp] theorem Dev.stackUpd_fifoTurn (f : StackSt → StackSt) : (d.stackUpd f).fifoTurn = d.fifoTurn := (rfl)
@[simp] theorem Dev.stackUpd_sex (f : StackSt → StackSt) : (d.stackUpd f).sex = d.sex := (rfl)
@[simp] theorem Dev.stackUpd_plot (f : StackSt → StackSt) : (d.stackUpd f).plot = d.plot := (rfl)
@[simp] theorem Dev.stackUpd_integ (f : StackSt → StackSt) : (d.stackUpd f).integ = d.integ := (rfl)
@[simp] theorem Dev.stackUpd_chart (f : StackSt → StackSt) : (d.stackUpd f).chart = d.chart := (rfl)
@[simp] theorem Dev.stackUpd_shape (f : StackSt → StackSt) : (d.stackUpd f).shape = d.shape := (rfl)
@[simp] theorem Dev.stackUpd_fab (f : StackSt → StackSt) : (d.stackUpd f).fab = d.fab := (rfl)
@[simp] theorem Dev.stackUpd_ports (f : StackSt → StackSt) : (d.stackUpd f).ports = d.ports := (rfl)
@[simp] theorem Dev.stackUpd_pow (f : StackSt → StackSt) : (d.stackUpd f).pow = d.pow := (rfl)
@[simp] theorem Dev.stackUpd_bin (f : StackSt → StackSt) : (d.stackUpd f).bin = d.bin := (rfl)
@[simp] theorem Dev.stackUpd_chans (f : StackSt → StackSt) : (d.stackUpd f).chans = d.chans := (rfl)
@[simp] theorem Dev.stackUpd_lins (f : StackSt → StackSt) : (d.stackUpd f).lins = d.lins := (rfl)
@[simp] theorem Dev.stackUpd_watch (f : StackSt → StackSt) : (d.stackUpd f).watch = d.watch := (rfl)
@[simp] theorem Dev.stackUpd_rose (f : StackSt → StackSt) : (d.stackUpd f).rose = d.rose := (rfl)
@[simp] theorem Dev.stackUpd_flash (f : StackSt → StackSt) : (d.stackUpd f).flash = d.flash := (rfl)
@[simp] theorem Dev.stackUpd_pairs (f : StackSt → StackSt) : (d.stackUpd f).pairs = d.pairs := (rfl)
@[simp] theorem Dev.stackUpd_stack (f : StackSt → StackSt) : (d.stackUpd f).stack = f d.stack := (rfl)
@[simp] theorem Dev.stackUpd_freeCount (f : StackSt → StackSt) : (d.stackUpd f).freeCount = d.freeCount := (rfl)
@[simp] theorem Dev.stackUpd_outbox (f : StackSt → StackSt) : (d.stackUpd f).outbox = d.outbox := (rfl)
@[simp] theorem Dev.stackUpd_obj (f : StackSt → StackSt) (i s2 w q : Nat) : (d.stackUpd f).obj i s2 w q = d.obj i s2 w q := (rfl)
@[simp] theorem Dev.stackUpd_flag (f : StackSt → StackSt) (i s2 w q : Nat) : (d.stackUpd f).flag i s2 w q = d.flag i s2 w q := (rfl)
@[simp] theorem Dev.stackUpd_stackUpd (f g : StackSt → StackSt) : (d.stackUpd f).stackUpd g = d.stackUpd (fun x => g (f x)) := (rfl)

@[simp] theorem Dev.binUpd_now (f : BinSt → BinSt) : (d.binUpd f).now = d.now := (rfl)
@[simp] theorem Dev.binUpd_ltEpoch (f : BinSt → BinSt) : (d.binUpd f).ltEpoch = d.ltEpoch := (rfl)
@[simp] theorem Dev.binUpd_stackId (f : BinSt → BinSt) : (d.binUpd f).stackId = d.stackId := (rfl)
@[simp] theorem Dev.binUpd_store (f : BinSt → BinSt) : (d.binUpd f).store = d.store := (rfl)
@[simp] theorem Dev.binUpd_alm (f : BinSt → BinSt) : (d.binUpd f).alm = d.alm := (rfl)
@[simp] theorem Dev.binUpd_ev (f : BinSt → BinSt) : (d.binUpd f).ev = d.ev := (rfl)
@[simp] theorem Dev.binUpd_fifos (f : BinSt → BinSt) : (d.binUpd f).fifos = d.fifos := (rfl)
@[simp] theorem Dev.binUpd_fifoTurn (f : BinSt → BinSt) : (d.binUpd f).fifoTurn = d.fifoTurn := (rfl)
@[simp] theorem Dev.binUpd_sex (f : BinSt → BinSt) : (d.binUpd f).sex = d.sex := (rfl)
@[simp] theorem Dev.binUpd_plot (f : BinSt → BinSt) : (d.binUpd f).plot = d.plot := (rfl)
@[simp] theorem Dev.binUpd_integ (f : BinSt → BinSt) : (d.binUpd f).integ = d.integ := (rfl)
@[simp] theorem Dev.binUpd_chart (f : BinSt → BinSt) : (d.binUpd f).chart = d.chart := (rfl)
@[simp] theorem Dev.binUpd_shape (f : BinSt → BinSt) : (d.binUpd f).shape = d.shape := (rfl)
@[simp] theorem Dev.binUpd_fab (f : BinSt → BinSt) : (d.binUpd f).fab = d.fab := (rfl)
@[simp] theorem Dev.binUpd_ports (f : BinSt → BinSt) : (d.binUpd f).ports = d.ports := (rfl)
@[simp] theorem Dev.binUpd_pow (f : BinSt → BinSt) : (d.binUpd f).pow = d.pow := (rfl)
@[simp] theorem Dev.binUpd_bin (f : BinSt → BinSt) : (d.binUpd f).bin = f d.bin := (rfl)
@[simp] theorem Dev.binUpd_chans (f : BinSt → BinSt) : (d.binUpd f).chans = d.chans := (rfl)
@[simp] theorem Dev.binUpd_lins (f : BinSt → BinSt) : (d.binUpd f).lins = d.lins := (rfl)
@[simp] theorem Dev.binUpd_watch (f : BinSt → BinSt) : (d.binUpd f).watch = d.watch := (rfl)
@[simp] theorem Dev.binUpd_rose (f : BinSt → BinSt) : (d.binUpd f).rose = d.rose := (rfl)
@[simp] theorem Dev.binUpd_flash (f : BinSt → BinSt) : (d.binUpd f).flash = d.flash := (rfl)
@[simp] theorem Dev.binUpd_pairs (f : BinSt → BinSt) : (d.binUpd f).pairs = d.pairs := (rfl)
@[simp] theorem Dev.binUpd_stack (f : BinSt → BinSt) : (d.binUpd f).stack = d.stack := (rfl)
@[simp] theorem Dev.binUpd_freeCount (f : BinSt → BinSt) : (d.binUpd f).freeCount = d.freeCount := (rfl)
@[simp] theorem Dev.binUpd_outbox (f : BinSt → BinSt) : (d.binUpd f).outbox = d.outbox := (rfl)
@[simp] theorem Dev.binUpd_obj (f : BinSt → BinSt) (i s2 w q : Nat) : (d.binUpd f).obj i s2 w q = d.obj i s2 w q := (rfl)
@[simp] theorem Dev.binUpd_flag (f : BinSt → BinSt) (i s2 w q : Nat) : (d.binUpd f).flag i s2 w q = d.flag i s2 w q := (rfl)
@[simp] theorem Dev.binUpd_binUpd (f g : BinSt → BinSt) : (d.binUpd f).binUpd g = d.binUpd (fun x => g (f x)) := (rfl)

@[simp] theorem Dev.integUpd_now (f : IntSt → IntSt) : (d.integUpd f).now = d.now := (rfl)
@[simp] theorem Dev.integUpd_ltEpoch (f : IntSt → IntSt) : (d.integUpd f).ltEpoch = d.ltEpoch := (rfl)
@[simp] theorem Dev.integUpd_stackId (f : IntSt → IntSt) : (d.integUpd f).stackId = d.stackId := (rfl)
@[simp] theorem Dev.integUpd_store (f : IntSt → IntSt) : (d.integUpd f).store = d.store := (rfl)
@[simp] theorem Dev.integUpd_alm (f : IntSt → IntSt) : (d.integUpd f).alm = d.alm := (rfl)
@[simp] theorem Dev.integUpd_ev (f : IntSt → IntSt) : (d.integUpd f).ev = d.ev := (rfl)
@[simp] theorem Dev.integUpd_fifos (f : IntSt → IntSt) : (d.integUpd f).fifos = d.fifos := (rfl)
@[simp] theorem Dev.integUpd_fifoTurn (f : IntSt → IntSt) : (d.integUpd f).fifoTurn = d.fifoTurn := (rfl)
@[simp] theorem Dev.integUpd_sex (f : IntSt → IntSt) : (d.integUpd f).sex = d.sex := (rfl)
@[simp] theorem Dev.integUpd_plot (f : IntSt → IntSt) : (d.integUpd f).plot = d.plot := (rfl)
@[simp] theorem Dev.integUpd_integ (f : IntSt → IntSt) : (d.integUpd f).integ = f d.integ := (rfl)
@[simp] theorem Dev.integUpd_chart (f : IntSt → IntSt) : (d.integUpd f).chart = d.chart := (rfl)
@[simp] theorem Dev.integUpd_shape (f : IntSt → IntSt) : (d.integUpd f).shape = d.shape := (rfl)
@[simp] theorem Dev.integUpd_fab (f : IntSt → IntSt) : (d.integUpd f).fab = d.fab := (rfl)
@[simp] theorem Dev.integUpd_ports (f : IntSt → IntSt) : (d.integUpd f).ports = d.ports := (rfl)
@[simp] theorem Dev.integUpd_pow (f : IntSt → IntSt) : (d.integUpd f).pow = d.pow := (rfl)
@[simp] theorem Dev.integUpd_bin (f : IntSt → IntSt) : (d.integUpd f).bin = d.bin := (rfl)
@[simp] theorem Dev.integUpd_chans (f : IntSt → IntSt) : (d.integUpd f).chans = d.chans := (rfl)
@[simp] theorem Dev.integUpd_lins (f : IntSt → IntSt) : (d.integUpd f).lins = d.lins := (rfl)
@[simp] theorem Dev.integUpd_watch (f : IntSt → IntSt) : (d.integUpd f).watch = d.watch := (rfl)
@[simp] theorem Dev.integUpd_rose (f : IntSt → IntSt) : (d.integUpd f).rose = d.rose := (rfl)
@[simp] theorem Dev.integUpd_flash (f : IntSt → IntSt) : (d.integUpd f).flash = d.flash := (rfl)
@[simp] theorem Dev.integUpd_pairs (f : IntSt → IntSt) : (d.integUpd f).pairs = d.pairs := (rfl)
@[simp] theorem Dev.integUpd_stack (f : IntSt → IntSt) : (d.integUpd f).stack = d.stack := (rfl)
@[simp] theorem Dev.integUpd_freeCount (f : IntSt → IntSt) : (d.integUpd f).freeCount = d.freeCount := (rfl)
@[simp] theorem Dev.integUpd_outbox (f : IntSt → IntSt) : (d.integUpd f).outbox = d.outbox := (rfl)
@[simp] theorem Dev.integUpd_obj (f : IntSt → IntSt) (i s2 w q : Nat) : (d.integUpd f).obj i s2 w q = d.obj i s2 w q := (rfl)
@[simp] theorem Dev.integUpd_flag (f : IntSt → IntSt) (i s2 w q : Nat) : (d.integUpd f).flag i s2 w q = d.flag i s2 w q := (rfl)
@[simp] theorem Dev.integUpd_integUpd (f g : IntSt → IntSt) : (d.integUpd f).integUpd g = d.integUpd (fun x => g (f x)) := (rfl)

@[simp] theorem Dev.portUpd_now (f : PortSt → PortSt) : (d.portUpd f).now = d.now := (rfl)
@[simp] theorem Dev.portUpd_ltEpoch (f : PortSt → PortSt) : (d.portUpd f).ltEpoch = d.ltEpoch := (rfl)
@[simp] theorem Dev.portUpd_stackId (f : PortSt → PortSt) : (d.portUpd f).stackId = d.stackId := (rfl)
@[simp] theorem Dev.portUpd_store (f : PortSt → PortSt) : (d.portUpd f).store = d.store := (rfl)
@[simp] theorem Dev.portUpd_alm (f : PortSt → PortSt) : (d.portUpd f).alm = d.alm := (rfl)
@[simp] theorem Dev.portUpd_ev (f : PortSt → PortSt) : (d.portUpd f).ev = d.ev := (rfl)
@[simp] theorem Dev.portUpd_fifos (f : PortSt → PortSt) : (d.portUpd f).fifos = d.fifos := (rfl)
@[simp] theorem Dev.portUpd_fifoTurn (f : PortSt → PortSt) : (d.portUpd f).fifoTurn = d.fifoTurn := (rfl)
@[simp] theorem Dev.portUpd_sex (f : PortSt → PortSt) : (d.portUpd f).sex = d.sex := (rfl)
@[simp] theorem Dev.portUpd_plot (f : PortSt → PortSt) : (d.portUpd f).plot = d.plot := (rfl)
@[simp] theorem Dev.portUpd_integ (f : PortSt → PortSt) : (d.portUpd f).integ = d.integ := (rfl)
@[simp] theorem Dev.portUpd_chart (f : PortSt → PortSt) : (d.portUpd f).chart = d.chart := (rfl)
@[simp] theorem Dev.portUpd_shape (f : PortSt → PortSt) : (d.portUpd f).shape = d.shape := (rfl)
@[simp] theorem Dev.portUpd_fab (f : PortSt → PortSt) : (d.portUpd f).fab = d.fab := (rfl)
@[simp] theorem Dev.portUpd_ports (f : PortSt → PortSt) : (d.portUpd f).ports = f d.ports := (rfl)
@[simp] theorem Dev.portUpd_pow (f : PortSt → PortSt) : (d.portUpd f).pow = d.pow := (rfl)
@[simp] theorem Dev.portUpd_bin (f : PortSt → PortSt) : (d.portUpd f).bin = d.bin := (rfl)
@[simp] theorem Dev.portUpd_chans (f : PortSt → PortSt) : (d.portUpd f).chans = d.chans := (rfl)
@[simp] theorem Dev.portUpd_lins (f : PortSt → PortSt) : (d.portUpd f).lins = d.lins := (rfl)
@[simp] theorem Dev.portUpd_watch (f : PortSt → PortSt) : (d.portUpd f).watch = d.watch := (rfl)
@[simp] theorem Dev.portUpd_rose (f : PortSt → PortSt) : (d.portUpd f).rose = d.rose := (rfl)
@[simp] theorem Dev.portUpd_flash (f : PortSt → PortSt) : (d.portUpd f).flash = d.flash := (rfl)
@[simp] theorem Dev.portUpd_pairs (f : PortSt → PortSt) : (d.portUpd f).pairs = d.pairs := (rfl)
@[simp] theorem Dev.portUpd_stack (f : PortSt → PortSt) : (d.portUpd f).stack = d.stack := (rfl)
@[simp] theorem Dev.portUpd_freeCount (f : PortSt → PortSt) : (d.portUpd f).freeCount = d.freeCount := (rfl)
@[simp] theorem Dev.portUpd_outbox (f : PortSt → PortSt) : (d.portUpd f).outbox = d.outbox := (rfl)
@[simp] theorem Dev.portUpd_obj (f : PortSt → PortSt) (i s2 w q : Nat) : (d.portUpd f).obj i s2 w q = d.obj i s2 w q := (rfl)
@[simp] theorem Dev.portUpd_flag (f : PortSt → PortSt) (i s2 w q : Nat) : (d.portUpd f).flag i s2 w q = d.flag i s2 w q := (rfl)
@[simp] theorem Dev.portUpd_portUpd (f g : PortSt → PortSt) : (d.portUpd f).portUpd g = d.portUpd (fun x => g (f x)) := (rfl)

@[simp] theorem Dev.evUpd_now (f : EvSt → EvSt) : (d.evUpd f).now = d.now := (rfl)
@[simp] theorem Dev.evUpd_ltEpoch (f : EvSt → EvSt) : (d.evUpd f).ltEpoch = d.ltEpoch := (rfl)
@[simp] theorem Dev.evUpd_stackId (f : EvSt → EvSt) : (d.evUpd f).stackId = d.stackId := (rfl)
@[simp] theorem Dev.evUpd_store (f : EvSt → EvSt) : (d.evUpd f).store = d.store := (rfl)
@[simp] theorem Dev.evUpd_alm (f : EvSt → EvSt) : (d.evUpd f).alm = d.alm := (rfl)
@[simp] theorem Dev.evUpd_ev (f : EvSt → EvSt) : (d.evUpd f).ev = f d.ev := (rfl)
@[simp] theorem Dev.evUpd_fifos (f : EvSt → EvSt) : (d.evUpd f).fifos = d.fifos := (rfl)
@[simp] theorem Dev.evUpd_fifoTurn (f : EvSt → EvSt) : (d.evUpd f).fifoTurn = d.fifoTurn := (rfl)
@[simp] theorem Dev.evUpd_sex (f : EvSt → EvSt) : (d.evUpd f).sex = d.sex := (rfl)
@[simp] theorem Dev.evUpd_plot (f : EvSt → EvSt) : (d.evUpd f).plot = d.plot := (rfl)
@[simp] theorem Dev.evUpd_integ (f : EvSt → EvSt) : (d.evUpd f).integ = d.integ := (rfl)
@[simp] theorem Dev.evUpd_chart (f : EvSt → EvSt) : (d.evUpd f).chart = d.chart := (rfl)
@[simp] theorem Dev.evUpd_shape (f : EvSt → EvSt) : (d.evUpd f).shape = d.shape := (rfl)
@[simp] theorem Dev.evUpd_fab (f : EvSt → EvSt) : (d.evUpd f).fab = d.fab := (rfl)
@[simp] theorem Dev.evUpd_ports (f : EvSt → EvSt) : (d.evUpd f).ports = d.ports := (rfl)
@[simp] theorem Dev.evUpd_pow (f : EvSt → EvSt) : (d.evUpd f).pow = d.pow := (rfl)
@[simp] theorem Dev.evUpd_bin (f : EvSt → EvSt) : (d.evUpd f).bin = d.bin := (rfl)
@[simp] theorem Dev.evUpd_chans (f : EvSt → EvSt) : (d.evUpd f).chans = d.chans := (rfl)
@[simp] theorem Dev.evUpd_lins (f : EvSt → EvSt) : (d.evUpd f).lins = d.lins := (rfl)
@[simp] theorem Dev.evUpd_watch (f : EvSt → EvSt) : (d.evUpd f).watch = d.watch := (rfl)
@[simp] theorem Dev.evUpd_rose (f : EvSt → EvSt) : (d.evUpd f).rose = d.rose := (rfl)
@[simp] theorem Dev.evUpd_flash (f : EvSt → EvSt) : (d.evUpd f).flash = d.flash := (rfl)
@[simp] theorem Dev.evUpd_pairs (f : EvSt → EvSt) : (d.evUpd f).pairs = d.pairs := (rfl)
@[simp] theorem Dev.evUpd_stack (f : EvSt → EvSt) : (d.evUpd f).stack = d.stack := (rfl)
@[simp] theorem Dev.evUpd_freeCount (f : EvSt → EvSt) : (d.evUpd f).freeCount = d.freeCount := (rfl)
@[simp] theorem Dev.evUpd_outbox (f : EvSt → EvSt) : (d.evUpd f).outbox = d.outbox := (rfl)
@[simp] theorem Dev.evUpd_obj (f : EvSt → EvSt) (i s2 w q : Nat) : (d.evUpd f).obj i s2 w q = d.obj i s2 w q := (rfl)
@[simp] theorem Dev.evUpd_flag (f : EvSt → EvSt) (i s2 w q : Nat) : (d.evUpd f).flag i s2 w q = d.flag i s2 w q := (rfl)
@[simp] theorem Dev.evUpd_evUpd (f g : EvSt → EvSt) : (d.evUpd f).evUpd g = d.evUpd (fun x => g (f x)) := (rfl)

@[simp] theorem Dev.sexUpd_now (f : SexSt → SexSt) : (d.sexUpd f).now = d.now := (rfl)
@[simp] theorem Dev.sexUpd_ltEpoch (f : SexSt → SexSt) : (d.sexUpd f).ltEpoch = d.ltEpoch := (rfl)
@[simp] theorem Dev.sexUpd_stackId (f : SexSt → SexSt) : (d.sexUpd f).stackId = d.stackId := (rfl)
@[simp] theorem Dev.sexUpd_store (f : SexSt → SexSt) : (d.sexUpd f).store = d.store := (rfl)
@[simp] theorem Dev.sexUpd_alm (f : SexSt → SexSt) : (d.sexUpd f).alm = d.alm := (rfl)
@[simp] theorem Dev.sexUpd_ev (f : SexSt → SexSt) : (d.sexUpd f).ev = d.ev := (rfl)
@[simp] theorem Dev.sexUpd_fifos (f : SexSt → SexSt) : (d.sexUpd f).fifos = d.fifos := (rfl)
@[simp] theorem Dev.sexUpd_fifoTurn (f : SexSt → SexSt) : (d.sexUpd f).fifoTurn = d.fifoTurn := (rfl)
@[simp] theorem Dev.sexUpd_sex (f : SexSt → SexSt) : (d.sexUpd f).sex = f d.sex := (rfl)
@[simp] theorem Dev.sexUpd_plot (f : SexSt → SexSt) : (d.sexUpd f).plot = d.plot := (rfl)
@[simp] theorem Dev.sexUpd_integ (f : SexSt → SexSt) : (d.sexUpd f).integ = d.integ := (rfl)
@[simp] theorem Dev.sexUpd_chart (f : SexSt → SexSt) : (d.sexUpd f).chart = d.chart := (rfl)
@[simp] theorem Dev.sexUpd_shape (f : SexSt → SexSt) : (d.sexUpd f).shape = d.shape := (rfl)
@[simp] theorem Dev.sexUpd_fab (f : SexSt → SexSt) : (d.sexUpd f).fab = d.fab := (rfl)
@[simp] theorem Dev.sexUpd_ports (f : SexSt → SexSt) : (d.sexUpd f).ports = d.ports := (rfl)
@[simp] theorem Dev.sexUpd_pow (f : SexSt → SexSt) : (d.sexUpd f).pow = d.pow := (rfl)
@[simp] theorem Dev.sexUpd_bin (f : SexSt → SexSt) : (d.sexUpd f).bin = d.bin := (rfl)
@[simp] theorem Dev.sexUpd_chans (f : SexSt → SexSt) : (d.sexUpd f).chans = d.chans := (rfl)
@[simp] theorem Dev.sexUpd_lins (f : SexSt → SexSt) : (d.sexUpd f).lins = d.lins := (rfl)
@[simp] theorem Dev.sexUpd_watch (f : SexSt → SexSt) : (d.sexUpd f).watch = d.watch := (rfl)
@[simp] theorem Dev.sexUpd_rose (f : SexSt → SexSt) : (d.sexUpd f).rose = d.rose := (rfl)
@[simp] theorem Dev.sexUpd_flash (f : SexSt → SexSt) : (d.sexUpd f).flash = d.flash := (rfl)
@[simp] theorem Dev.sexUpd_pairs (f : SexSt → SexSt) : (d.sexUpd f).pairs = d.pairs := (rfl)
@[simp] theorem Dev.sexUpd_stack (f : SexSt → SexSt) : (d.sexUpd f).stack = d.stack := (rfl)
@[simp] theorem Dev.sexUpd_freeCount (f : SexSt → SexSt) : (d.sexUpd f).freeCount = d.freeCount := (rfl)
@[simp] theorem Dev.sexUpd_outbox (f : SexSt → SexSt) : (d.sexUpd f).outbox = d.outbox := (rfl)
@[simp] theorem Dev.sexUpd_obj (f : SexSt → SexSt) (i s2 w q : Nat) : (d.sexUpd f).obj i s2 w q = d.obj i s2 w q := (rfl)
@[simp] theorem Dev.sexUpd_flag (f : SexSt → SexSt) (i s2 w q : Nat) : (d.sexUpd f).flag i s2 w q = d.flag i s2 w q := (rfl)
@[simp] theorem Dev.sexUpd_sexUpd (f g : SexSt → SexSt) : (d.sexUpd f).sexUpd g = d.sexUpd (fun x => g (f x)) := (rfl)

@[simp] theorem Dev.chartUpd_now (f : ChartSt → ChartSt) : (d.chartUpd f).now = d.now := (rfl)
@[simp] theorem Dev.chartUpd_ltEpoch (f : ChartSt → ChartSt) : (d.chartUpd f).ltEpoch = d.ltEpoch := (rfl)
@[simp] theorem Dev.chartUpd_stackId (f : ChartSt → ChartSt) : (d.chartUpd f).stackId = d.stackId := (rfl)
@[simp] theorem Dev.chartUpd_store (f : ChartSt → ChartSt) : (d.chartUpd f).store = d.store := (rfl)
@[simp] theorem Dev.chartUpd_alm (f : ChartSt → ChartSt) : (d.chartUpd f).alm = d.alm := (rfl)
@[simp] theorem Dev.chartUpd_ev (f : ChartSt → ChartSt) : (d.chartUpd f).ev = d.ev := (rfl)
@[simp] theorem Dev.chartUpd_fifos (f : ChartSt → ChartSt) : (d.chartUpd f).fifos = d.fifos := (rfl)
@[simp] theorem Dev.chartUpd_fifoTurn (f : ChartSt → ChartSt) : (d.chartUpd f).fifoTurn = d.fifoTurn := (rfl)
@[simp] theorem Dev.chartUpd_sex (f : ChartSt → ChartSt) : (d.chartUpd f).sex = d.sex := (rfl)
@[simp] theorem Dev.chartUpd_plot (f : ChartSt → ChartSt) : (d.chartUpd f).plot = d.plot := (rfl)
@[simp] theorem Dev.chartUpd_integ (f : ChartSt → ChartSt) : (d.chartUpd f).integ = d.integ := (rfl)
@[simp] theorem Dev.chartUpd_chart (f : ChartSt → ChartSt) : (d.chartUpd f).chart = f d.chart := (rfl)
@[simp] theorem Dev.chartUpd_shape (f : ChartSt → ChartSt) : (d.chartUpd f).shape = d.shape := (rfl)
@[simp] theorem Dev.chartUpd_fab (f : ChartSt → ChartSt) : (d.chartUpd f).fab = d.fab := (rfl)
@[simp] theorem Dev.chartUpd_ports (f : ChartSt → ChartSt) : (d.chartUpd f).ports = d.ports := (rfl)
@[simp] theorem Dev.chartUpd_pow (f : ChartSt → ChartSt) : (d.chartUpd f).pow = d.pow := (rfl)
@[simp] theorem Dev.chartUpd_bin (f : ChartSt → ChartSt) : (d.chartUpd f).bin = d.bin := (rfl)
@[simp] theorem Dev.chartUpd_chans (f : ChartSt → ChartSt) : (d.chartUpd f).chans = d.chans := (rfl)
@[simp] theorem Dev.chartUpd_lins (f : ChartSt → ChartSt) : (d.chartUpd f).lins = d.lins := (rfl)
@[simp] theorem Dev.chartUpd_watch (f : ChartSt → ChartSt) : (d.chartUpd f).watch = d.watch := (rfl)
@[simp] theorem Dev.chartUpd_rose (f : ChartSt → ChartSt) : (d.chartUpd f).rose = d.rose := (rfl)
@[simp] theorem Dev.chartUpd_flash (f : ChartSt → ChartSt) : (d.chartUpd f).flash = d.flash := (rfl)
@[simp] theorem Dev.chartUpd_pairs (f : ChartSt → ChartSt) : (d.chartUpd f).pairs = d.pairs := (rfl)
@[simp] theorem Dev.chartUpd_stack (f : ChartSt → ChartSt) : (d.chartUpd f).stack = d.stack := (rfl)
@[simp] theorem Dev.chartUpd_freeCount (f : ChartSt → ChartSt) : (d.chartUpd f).freeCount = d.freeCount := (rfl)
@[simp] theorem Dev.chartUpd_outbox (f : ChartSt → ChartSt) : (d.chartUpd f).outbox = d.outbox := (rfl)
@[simp] theorem Dev.chartUpd_obj (f : ChartSt → ChartSt) (i s2 w q : Nat) : (d.chartUpd f).obj i s2 w q = d.obj i s2 w q := (rfl)
@[simp] theorem Dev.chartUpd_flag (f : ChartSt → ChartSt) (i s2 w q : Nat) : (d.chartUpd f).flag i s2 w q = d.flag i s2 w q := (rfl)
@[simp] theorem Dev.chartUpd_chartUpd (f g : ChartSt → ChartSt) : (d.chartUpd f).chartUpd g = d.chartUpd (fun x => g (f x)) := (rfl)

@[simp] theorem Dev.plotUpd_now (f : PlotSt → PlotSt) : (d.plotUpd f).now = d.now := (rfl)
@[simp] theorem Dev.plotUpd_ltEpoch (f : PlotSt → PlotSt) : (d.plotUpd f).ltEpoch = d.ltEpoch := (rfl)
@[simp] theorem Dev.plotUpd_stackId (f : PlotSt → PlotSt) : (d.plotUpd f).stackId = d.stackId := (rfl)
@[simp] theorem Dev.plotUpd_store (f : PlotSt → PlotSt) : (d.plotUpd f).store = d.store := (rfl)
@[simp] theorem Dev.plotUpd_alm (f : PlotSt → PlotSt) : (d.plotUpd f).alm = d.alm := (rfl)
@[simp] theorem Dev.plotUpd_ev (f : PlotSt → PlotSt) : (d.plotUpd f).ev = d.ev := (rfl)
@[simp] theorem Dev.plotUpd_fifos (f : PlotSt → PlotSt) : (d.plotUpd f).fifos = d.fifos := (rfl)
@[simp] theorem Dev.plotUpd_fifoTurn (f : PlotSt → PlotSt) : (d.plotUpd f).fifoTurn = d.fifoTurn := (rfl)
@[simp] theorem Dev.plotUpd_sex (f : PlotSt → PlotSt) : (d.plotUpd f).sex = d.sex := (rfl)
@[simp] theorem Dev.plotUpd_plot (f : PlotSt → PlotSt) : (d.plotUpd f).plot = f d.plot := (rfl)
@[simp] theorem Dev.plotUpd_integ (f : PlotSt → PlotSt) : (d.plotUpd f).integ = d.integ := (rfl)
@[simp] theorem Dev.plotUpd_chart (f : PlotSt → PlotSt) : (d.plotUpd f).chart = d.chart := (rfl)
@[simp] theorem Dev.plotUpd_shape (f : PlotSt → PlotSt) : (d.plotUpd f).shape = d.shape := (rfl)
@[simp] theorem Dev.plotUpd_fab (f : PlotSt → PlotSt) : (d.plotUpd f).fab = d.fab := (rfl)
@[simp] theorem Dev.plotUpd_ports (f : PlotSt → PlotSt) : (d.plotUpd f).ports = d.ports := (rfl)
@[simp] theorem Dev.plotUpd_pow (f : PlotSt → PlotSt) : (d.plotUpd f).pow = d.pow := (rfl)
@[simp] theorem Dev.plotUpd_bin (f : PlotSt → PlotSt) : (d.plotUpd f).bin = d.bin := (rfl)
@[simp] theorem Dev.plotUpd_chans (f : PlotSt → PlotSt) : (d.plotUpd f).chans = d.chans := (rfl)
@[simp] theorem Dev.plotUpd_lins (f : PlotSt → PlotSt) : (d.plotUpd f).lins = d.lins := (rfl)
@[simp] theorem Dev.plotUpd_watch (f : PlotSt → PlotSt) : (d.plotUpd f).watch = d.watch := (rfl)
@[simp] theorem Dev.plotUpd_rose (f : PlotSt → PlotSt) : (d.plotUpd f).rose = d.rose := (rfl)
@[simp] theorem Dev.plotUpd_flash (f : PlotSt → PlotSt) : (d.plotUpd f).flash = d.flash := (rfl)
@[simp] theorem Dev.plotUpd_pairs (f : PlotSt → PlotSt) : (d.plotUpd f).pairs = d.pairs := (rfl)
@[simp] theorem Dev.plotUpd_stack (f : PlotSt → PlotSt) : (d.plotUpd f).stack = d.stack := (rfl)
@[simp] theorem Dev.plotUpd_freeCount (f : PlotSt → PlotSt) : (d.plotUpd f).freeCount = d.freeCount := (rfl)
@[simp] theorem Dev.plotUpd_outbox (f : PlotSt → PlotSt) : (d.plotUpd f).outbox = d.outbox := (rfl)
@[simp] theorem Dev.plotUpd_obj (f : PlotSt → PlotSt) (i s2 w q : Nat) : (d.plotUpd f).obj i s2 w q = d.obj i s2 w q := (rfl)
@[simp] theorem Dev.plotUpd_flag (f : PlotSt → PlotSt) (i s2 w q : Nat) : (d.plotUpd f).flag i s2 w q = d.flag i s2 w q := (rfl)
@[simp] theorem Dev.plotUpd_plotUpd (f g : PlotSt → PlotSt) : (d.plotUpd f).plotUpd g = d.plotUpd (fun x => g (f x)) := (rfl)

@[simp] theorem Dev.setChan_now (u : Nat) (x : ChanSt) : (d.setChan u x).now = d.now := (rfl)
@[simp] theorem Dev.setChan_ltEpoch (u : Nat) (x : ChanSt) : (d.setChan u x).ltEpoch = d.ltEpoch := (rfl)
@[simp] theorem Dev.setChan_stackId (u : Nat) (x : ChanSt) : (d.setChan u x).stackId = d.stackId := (rfl)
@[simp] theorem Dev.setChan_store (u : Nat) (x : ChanSt) : (d.setChan u x).store = d.store := (rfl)
@[simp] theorem Dev.setChan_alm (u : Nat) (x : ChanSt) : (d.setChan u x).alm = d.alm := (rfl)
@[simp] theorem Dev.setChan_ev (u : Nat) (x : ChanSt) : (d.setChan u x).ev = d.ev := (rfl)
@[simp] theorem Dev.setChan_fifos (u : Nat) (x : ChanSt) : (d.setChan u x).fifos = d.fifos := (rfl)
@[simp] theorem Dev.setChan_fifoTurn (u : Nat) (x : ChanSt) : (d.setChan u x).fifoTurn = d.fifoTurn := (rfl)
@[simp] theorem Dev.setChan_sex (u : Nat) (x : ChanSt) : (d.setChan u x).sex = d.sex := (rfl)
@[simp] theorem Dev.setChan_plot (u : Nat) (x : ChanSt) : (d.setChan u x).plot = d.plot := (rfl)
@[simp] theorem Dev.setChan_integ (u : Nat) (x : ChanSt) : (d.setChan u x).integ = d.integ := (rfl)
@[simp] theorem Dev.setChan_chart (u : Nat) (x : ChanSt) : (d.setChan u x).chart = d.chart := (rfl)
@[simp] theorem Dev.setChan_shape (u : Nat) (x : ChanSt) : (d.setChan u x).shape = d.shape := (rfl)
@[simp] theorem Dev.setChan_fab (u : Nat) (x : ChanSt) : (d.setChan u x).fab = d.fab := (rfl)
@[simp] theorem Dev.setChan_ports (u : Nat) (x : ChanSt) : (d.setChan u x).ports = d.ports := (rfl)
@[simp] theorem Dev.setChan_pow (u : Nat) (x : ChanSt) : (d.setChan u x).pow = d.pow := (rfl)
@[simp] theorem Dev.setChan_bin (u : Nat) (x : ChanSt) : (d.setChan u x).bin = d.bin := (rfl)
@[simp] theorem Dev.setChan_chans (u : Nat) (x : ChanSt) : (d.setChan u x).chans = tput (fun _ => {}) d.chans u x := (rfl)
@[simp] theorem Dev.setChan_lins (u : Nat) (x : ChanSt) : (d.setChan u x).lins = d.lins := (rfl)
@[simp] theorem Dev.setChan_watch (u : Nat) (x : ChanSt) : (d.setChan u x).watch = d.watch := (rfl)
@[simp] theorem Dev.setChan_rose (u : Nat) (x : ChanSt) : (d.setChan u x).rose = d.rose := (rfl)
@[simp] theorem Dev.setChan_flash (u : Nat) (x : ChanSt) : (d.setChan u x).flash = d.flash := (rfl)
@[simp] theorem Dev.setChan_pairs (u : Nat) (x : ChanSt) : (d.setChan u x).pairs = d.pairs := (rfl)
@[simp] theorem Dev.setChan_stack (u : Nat) (x : ChanSt) : (d.setChan u x).stack = d.stack := (rfl)
@[simp] theorem Dev.setChan_freeCount (u : Nat) (x : ChanSt) : (d.setChan u x).freeCount = d.freeCount := (rfl)
@[simp] theorem Dev.setChan_outbox (u : Nat) (x : ChanSt) : (d.setChan u x).outbox = d.outbox := (rfl)
@[simp] theorem Dev.setChan_obj (u : Nat) (x : ChanSt) (i s2 w q : Nat) : (d.setChan u x).obj i s2 w q = d.obj i s2 w q := (rfl)
@[simp] theorem Dev.setChan_flag (u : Nat) (x : ChanSt) (i s2 w q : Nat) : (d.setChan u x).flag i s2 w q = d.flag i s2 w q := (rfl)

@[simp] theorem Dev.setLin_now (u : Nat) (x : LinSt) : (d.setLin u x).now = d.now := (rfl)
@[simp] theorem Dev.setLin_ltEpoch (u : Nat) (x : LinSt) : (d.setLin u x).ltEpoch = d.ltEpoch := (rfl)
@[simp] theorem Dev.setLin_stackId (u : Nat) (x : LinSt) : (d.setLin u x).stackId = d.stackId := (rfl)
@[simp] theorem Dev.setLin_store (u : Nat) (x : LinSt) : (d.setLin u x).store = d.store := (rfl)
@[simp] theorem Dev.setLin_alm (u : Nat) (x : LinSt) : (d.setLin u x).alm = d.alm := (rfl)
@[simp] theorem Dev.setLin_ev (u : Nat) (x : LinSt) : (d.setLin u x).ev = d.ev := (rfl)
@[simp] theorem Dev.setLin_fifos (u : Nat) (x : LinSt) : (d.setLin u x).fifos = d.fifos := (rfl)
@[simp] theorem Dev.setLin_fifoTurn (u : Nat) (x : LinSt) : (d.setLin u x).fifoTurn = d.fifoTurn := (rfl)
@[simp] theorem Dev.setLin_sex (u : Nat) (x : LinSt) : (d.setLin u x).sex = d.sex := (rfl)
@[simp] theorem Dev.setLin_plot (u : Nat) (x : LinSt) : (d.setLin u x).plot = d.plot := (rfl)
@[simp] theorem Dev.setLin_integ (u : Nat) (x : LinSt) : (d.setLin u x).integ = d.integ := (rfl)
@[simp] theorem Dev.setLin_chart (u : Nat) (x : LinSt) : (d.setLin u x).chart = d.chart := (rfl)
@[simp] theorem Dev.setLin_shape (u : Nat) (x : LinSt) : (d.setLin u x).shape = d.shape := (rfl)
@[simp] theorem Dev.setLin_fab (u : Nat) (x : LinSt) : (d.setLin u x).fab = d.fab := (rfl)
@[simp] theorem Dev.setLin_ports (u : Nat) (x : LinSt) : (d.setLin u x).ports = d.ports := (rfl)
@[simp] theorem Dev.setLin_pow (u : Nat) (x : LinSt) : (d.setLin u x).pow = d.pow := (rfl)
@[simp] theorem Dev.setLin_bin (u : Nat) (x : LinSt) : (d.setLin u x).bin = d.bin := (rfl)
@[simp] theorem Dev.setLin_chans (u : Nat) (x : LinSt) : (d.setLin u x).chans = d.chans := (rfl)
@[simp] theorem Dev.setLin_lins (u : Nat) (x : LinSt) : (d.setLin u x).lins = tput (fun _ => {}) d.lins u x := (rfl)
@[simp] theorem Dev.setLin_watch (u : Nat) (x : LinSt) : (d.setLin u x).watch = d.watch := (rfl)
@[simp] theorem Dev.setLin_rose (u : Nat) (x : LinSt) : (d.setLin u x).rose = d.rose := (rfl)
@[simp] theorem Dev.setLin_flash (u : Nat) (x : LinSt) : (d.setLin u x).flash = d.flash := (rfl)
@[simp] theorem Dev.setLin_pairs (u : Nat) (x : LinSt) : (d.setLin u x).pairs = d.pairs := (rfl)
@[simp] theorem Dev.setLin_stack (u : Nat) (x : LinSt) : (d.setLin u x).stack = d.stack := (rfl)
@[simp] theorem Dev.setLin_freeCount (u : Nat) (x : LinSt) : (d.setLin u x).freeCount = d.freeCount := (rfl)
@[simp] theorem Dev.setLin_outbox (u : Nat) (x : LinSt) : (d.setLin u x).outbox = d.outbox := (rfl)
@[simp] theorem Dev.setLin_obj (u : Nat) (x : LinSt) (i s2 w q : Nat) : (d.setLin u x).obj i s2 w q = d.obj i s2 w q := (rfl)
@[simp] theorem Dev.setLin_flag (u : Nat) (x : LinSt) (i s2 w q : Nat) : (d.setLin u x).flag i s2 w q = d.flag i s2 w q := (rfl)

@[simp] theorem Dev.setFifo_now (f : Nat) (x : Fifo) : (d.setFifo f x).now = d.now := (rfl)
@[simp] theorem Dev.setFifo_ltEpoch (f : Nat) (x : Fifo) : (d.setFifo f x).ltEpoch = d.ltEpoch := (rfl)
@[simp] theorem Dev.setFifo_stackId (f : Nat) (x : Fifo) : (d.setFifo f x).stackId = d.stackId := (rfl)
@[simp] theorem Dev.setFifo_store (f : Nat) (x : Fifo) : (d.setFifo f x).store = d.store := (rfl)
@[simp] theorem Dev.setFifo_alm (f : Nat) (x : Fifo) : (d.setFifo f x).alm = d.alm := (rfl)
@[simp] theorem Dev.setFifo_ev (f : Nat) (x : Fifo) : (d.setFifo f x).ev = d.ev := (rfl)
@[simp] theorem Dev.setFifo_fifos (f : Nat) (x : Fifo) : (d.setFifo f x).fifos = tput (fun _ => {}) d.fifos f x := (rfl)
@[simp] theorem Dev.setFifo_fifoTurn (f : Nat) (x : Fifo) : (d.setFifo f x).fifoTurn = d.fifoTurn := (rfl)
@[simp] theorem Dev.setFifo_sex (f : Nat) (x : Fifo) : (d.setFifo f x).sex = d.sex := (rfl)
@[simp] theorem Dev.setFifo_plot (f : Nat) (x : Fifo) : (d.setFifo f x).plot = d.plot := (rfl)
@[simp] theorem Dev.setFifo_integ (f : Nat) (x : Fifo) : (d.setFifo f x).integ = d.integ := (rfl)
@[simp] theorem Dev.setFifo_chart (f : Nat) (x : Fifo) : (d.setFifo f x).chart = d.chart := (rfl)
@[simp] theorem Dev.setFifo_shape (f : Nat) (x : Fifo) : (d.setFifo f x).shape = d.shape := (rfl)
@[simp] theorem Dev.setFifo_fab (f : Nat) (x : Fifo) : (d.setFifo f x).fab = d.fab := (rfl)
@[simp] theorem Dev.setFifo_ports (f : Nat) (x : Fifo) : (d.setFifo f x).ports = d.ports := (rfl)
@[simp] theorem Dev.setFifo_pow (f : Nat) (x : Fifo) : (d.setFifo f x).pow = d.pow := (rfl)
@[simp] theorem Dev.setFifo_bin (f : Nat) (x : Fifo) : (d.setFifo f x).bin = d.bin := (rfl)
@[simp] theorem Dev.setFifo_chans (f : Nat) (x : Fifo) : (d.setFifo f x).chans = d.chans := (rfl)
@[simp] theorem Dev.setFifo_lins (f : Nat) (x : Fifo) : (d.setFifo f x).lins = d.lins := (rfl)
@[simp] theorem Dev.setFifo_watch (f : Nat) (x : Fifo) : (d.setFifo f x).watch = d.watch := (rfl)
@[simp] theorem Dev.setFifo_rose (f : Nat) (x : Fifo) : (d.setFifo f x).rose = d.rose := (rfl)
@[simp] theorem Dev.setFifo_flash (f : Nat) (x : Fifo) : (d.setFifo f x).flash = d.flash := (rfl)
@[simp] theorem Dev.setFifo_pairs (f : Nat) (x : Fifo) : (d.setFifo f x).pairs = d.pairs := (rfl)
@[simp] theorem Dev.setFifo_stack (f : Nat) (x : Fifo) : (d.setFifo f x).stack = d.stack := (rfl)
@[simp] theorem Dev.setFifo_freeCount (f : Nat) (x : Fifo) : (d.setFifo f x).freeCount = d.freeCount := (rfl)
@[simp] theorem Dev.setFifo_outbox (f : Nat) (x : Fifo) : (d.setFifo f x).outbox = d.outbox := (rfl)
@[simp] theorem Dev.setFifo_obj (f : Nat) (x : Fifo) (i s2 w q : Nat) : (d.setFifo f x).obj i s2 w q = d.obj i s2 w q := (rfl)
@[simp] theorem Dev.setFifo_flag (f : Nat) (x : Fifo) (i s2 w q : Nat) : (d.setFifo f x).flag i s2 w q = d.flag i s2 w q := (rfl)

@[simp] theorem Dev.setPair_now (p : Nat) (x : PairSt) : (d.setPair p x).now = d.now := (rfl)
@[simp] theorem Dev.setPair_ltEpoch (p : Nat) (x : PairSt) : (d.setPair p x).ltEpoch = d.ltEpoch := (rfl)
@[simp] theorem Dev.setPair_stackId (p : Nat) (x : PairSt) : (d.setPair p x).stackId = d.stackId := (rfl)
@[simp] theorem Dev.setPair_store (p : Nat) (x : PairSt) : (d.setPair p x).store = d.store := (rfl)
@[simp] theorem Dev.setPair_alm (p : Nat) (x : PairSt) : (d.setPair p x).alm = d.alm := (rfl)
@[simp] theorem Dev.setPair_ev (p : Nat) (x : PairSt) : (d.setPair p x).ev = d.ev := (rfl)
@[simp] theorem Dev.setPair_fifos (p : Nat) (x : PairSt) : (d.setPair p x).fifos = d.fifos := (rfl)
@[simp] theorem Dev.setPair_fifoTurn (p : Nat) (x : PairSt) : (d.setPair p x).fifoTurn = d.fifoTurn := (rfl)
@[simp] theorem Dev.setPair_sex (p : Nat) (x : PairSt) : (d.setPair p x).sex = d.sex := (rfl)
@[simp] theorem Dev.setPair_plot (p : Nat) (x : PairSt) : (d.setPair p x).plot = d.plot := (rfl)
@[simp] theorem Dev.setPair_integ (p : Nat) (x : PairSt) : (d.setPair p x).integ = d.integ := (rfl)
@[simp] theorem Dev.setPair_chart (p : Nat) (x : PairSt) : (d.setPair p x).chart = d.chart := (rfl)
@[simp] theorem Dev.setPair_shape (p : Nat) (x : PairSt) : (d.setPair p x).shape = d.shape := (rfl)
@[simp] theorem Dev.setPair_fab (p : Nat) (x : PairSt) : (d.setPair p x).fab = d.fab := (rfl)
@[simp] theorem Dev.setPair_ports (p : Nat) (x : PairSt) : (d.setPair p x).ports = d.ports := (rfl)
@[simp] theorem Dev.setPair_pow (p : Nat) (x : PairSt) : (d.setPair p x).pow = d.pow := (rfl)
@[simp] theorem Dev.setPair_bin (p : Nat) (x : PairSt) : (d.setPair p x).bin = d.bin := (rfl)
@[simp] theorem Dev.setPair_chans (p : Nat) (x : PairSt) : (d.setPair p x).chans = d.chans := (rfl)
@[simp] theorem Dev.setPair_lins (p : Nat) (x : PairSt) : (d.setPair p x).lins = d.lins := (rfl)
@[simp] theorem Dev.setPair_watch (p : Nat) (x : PairSt) : (d.setPair p x).watch = d.watch := (rfl)
@[simp] theorem Dev.setPair_rose (p : Nat) (x : PairSt) : (d.setPair p x).rose = d.rose := (rfl)
@[simp] theorem Dev.setPair_flash (p : Nat) (x : PairSt) : (d.setPair p x).flash = d.flash := (rfl)
@[simp] theorem Dev.setPair_pairs (p : Nat) (x : PairSt) : (d.setPair p x).pairs = tput (fun _ => {}) d.pairs p x := (rfl)
@[simp] theorem Dev.setPair_stack (p : Nat) (x : PairSt) : (d.setPair p x).stack = d.stack := (rfl)
@[simp] theorem Dev.setPair_freeCount (p : Nat) (x : PairSt) : (d.setPair p x).freeCount = d.freeCount := (rfl)
@[simp] theorem Dev.setPair_outbox (p : Nat) (x : PairSt) : (d.setPair p x).outbox = d.outbox := (rfl)
@[simp] theorem Dev.setPair_obj (p : Nat) (x : PairSt) (i s2 w q : Nat) : (d.setPair p x).obj i s2 w q = d.obj i s2 w q := (rfl)
@[simp] theorem Dev.setPair_flag (p : Nat) (x : PairSt) (i s2 w q : Nat) : (d.setPair p x).flag i s2 w q = d.flag i s2 w q := (rfl)

@[simp] theorem Dev.setLeg_now (n : Nat) (l : LegSt) : (d.setLeg n l).now = d.now := (rfl)
@[simp] theorem Dev.setLeg_ltEpoch (n : Nat) (l : LegSt) : (d.setLeg n l).ltEpoch = d.ltEpoch := (rfl)
@[simp] theorem Dev.setLeg_stackId (n : Nat) (l : LegSt) : (d.setLeg n l).stackId = d.stackId := (rfl)
@[simp] theorem Dev.setLeg_store (n : Nat) (l : LegSt) : (d.setLeg n l).store = d.store := (rfl)
@[simp] theorem Dev.setLeg_alm (n : Nat) (l : LegSt) : (d.setLeg n l).alm = d.alm := (rfl)
@[simp] theorem Dev.setLeg_ev (n : Nat) (l : LegSt) : (d.setLeg n l).ev = d.ev := (rfl)
@[simp] theorem Dev.setLeg_fifos (n : Nat) (l : LegSt) : (d.setLeg n l).fifos = d.fifos := (rfl)
@[simp] theorem Dev.setLeg_fifoTurn (n : Nat) (l : LegSt) : (d.setLeg n l).fifoTurn = d.fifoTurn := (rfl)
@[simp] theorem Dev.setLeg_sex (n : Nat) (l : LegSt) : (d.setLeg n l).sex = d.sex := (rfl)
@[simp] theorem Dev.setLeg_plot (n : Nat) (l : LegSt) : (d.setLeg n l).plot = { d.plot with legs := tput (fun _ => {}) d.plot.legs n l } := (rfl)
@[simp] theorem Dev.setLeg_integ (n : Nat) (l : LegSt) : (d.setLeg n l).integ = d.integ := (rfl)
@[simp] theorem Dev.setLeg_chart (n : Nat) (l : LegSt) : (d.setLeg n l).chart = d.chart := (rfl)
@[simp] theorem Dev.setLeg_shape (n : Nat) (l : LegSt) : (d.setLeg n l).shape = d.shape := (rfl)
@[simp] theorem Dev.setLeg_fab (n : Nat) (l : LegSt) : (d.setLeg n l).fab = d.fab := (rfl)
@[simp] theorem Dev.setLeg_ports (n : Nat) (l : LegSt) : (d.setLeg n l).ports = d.ports := (rfl)
@[simp] theorem Dev.setLeg_pow (n : Nat) (l : LegSt) : (d.setLeg n l).pow = d.pow := (rfl)
@[simp] theorem Dev.setLeg_bin (n : Nat) (l : LegSt) : (d.setLeg n l).bin = d.bin := (rfl)
@[simp] theorem Dev.setLeg_chans (n : Nat) (l : LegSt) : (d.setLeg n l).chans = d.chans := (rfl)
@[simp] theorem Dev.setLeg_lins (n : Nat) (l : LegSt) : (d.setLeg n l).lins = d.lins := (rfl)
@[simp] theorem Dev.setLeg_watch (n : Nat) (l : LegSt) : (d.setLeg n l).watch = d.watch := (rfl)
@[simp] theorem Dev.setLeg_rose (n : Nat) (l : LegSt) : (d.setLeg n l).rose = d.rose := (rfl)
@[simp] theorem Dev.setLeg_flash (n : Nat) (l : LegSt) : (d.setLeg n l).flash = d.flash := (rfl)
@[simp] theorem Dev.setLeg_pairs (n : Nat) (l : LegSt) : (d.setLeg n l).pairs = d.pairs := (rfl)
@[simp] theorem Dev.setLeg_stack (n : Nat) (l : LegSt) : (d.setLeg n l).stack = d.stack := (rfl)
@[simp] theorem Dev.setLeg_freeCount (n : Nat) (l : LegSt) : (d.setLeg n l).freeCount = d.freeCount := (rfl)
@[simp] theorem Dev.setLeg_outbox (n : Nat) (l : LegSt) : (d.setLeg n l).outbox = d.outbox := (rfl)
@[simp] theorem Dev.setLeg_obj (n : Nat) (l : LegSt) (i s2 w q : Nat) : (d.setLeg n l).obj i s2 w q = d.obj i s2 w q := (rfl)
@[simp] theorem Dev.setLeg_flag (n : Nat) (l : LegSt) (i s2 w q : Nat) : (d.setLeg n l).flag i s2 w q = d.flag i s2 w q := (rfl)

@[simp] theorem Dev.setSeg_now (u : Nat) (x : SegSt) : (d.setSeg u x).now = d.now := (rfl)
@[simp] theorem Dev.setSeg_ltEpoch (u : Nat) (x : SegSt) : (d.setSeg u x).ltEpoch = d.ltEpoch := (rfl)
@[simp] theorem Dev.setSeg_stackId (u : Nat) (x : SegSt) : (d.setSeg u x).stackId = d.stackId := (rfl)
@[simp] theorem Dev.setSeg_store (u : Nat) (x : SegSt) : (d.setSeg u x).store = d.store := (rfl)
@[simp] theorem Dev.setSeg_alm (u : Nat) (x : SegSt) : (d.setSeg u x).alm = d.alm := (rfl)
@[simp] theorem Dev.setSeg_ev (u : Nat) (x : SegSt) : (d.setSeg u x).ev = d.ev := (rfl)
@[simp] theorem Dev.setSeg_fifos (u : Nat) (x : SegSt) : (d.setSeg u x).fifos = d.fifos := (rfl)
@[simp] theorem Dev.setSeg_fifoTurn (u : Nat) (x : SegSt) : (d.setSeg u x).fifoTurn = d.fifoTurn := (rfl)
@[simp] theorem Dev.setSeg_sex (u : Nat) (x : SegSt) : (d.setSeg u x).sex = d.sex := (rfl)
@[simp] theorem Dev.setSeg_plot (u : Nat) (x : SegSt) : (d.setSeg u x).plot = d.plot := (rfl)
@[simp] theorem Dev.setSeg_integ (u : Nat) (x : SegSt) : (d.setSeg u x).integ = d.integ := (rfl)
@[simp] theorem Dev.setSeg_chart (u : Nat) (x : SegSt) : (d.setSeg u x).chart = d.chart := (rfl)
@[simp] theorem Dev.setSeg_shape (u : Nat) (x : SegSt) : (d.setSeg u x).shape = d.shape := (rfl)
@[simp] theorem Dev.setSeg_fab (u : Nat) (x : SegSt) : (d.setSeg u x).fab = d.fab := (rfl)
@[simp] theorem Dev.setSeg_ports (u : Nat) (x : SegSt) : (d.setSeg u x).ports = d.ports := (rfl)
@[simp] theorem Dev.setSeg_pow (u : Nat) (x : SegSt) : (d.setSeg u x).pow = d.pow := (rfl)
@[simp] theorem Dev.setSeg_bin (u : Nat) (x : SegSt) : (d.setSeg u x).bin = d.bin := (rfl)
@[simp] theorem Dev.setSeg_chans (u : Nat) (x : SegSt) : (d.setSeg u x).chans = d.chans := (rfl)
@[simp] theorem Dev.setSeg_lins (u : Nat) (x : SegSt) : (d.setSeg u x).lins = d.lins := (rfl)
@[simp] theorem Dev.setSeg_watch (u : Nat) (x : SegSt) : (d.setSeg u x).watch = { d.watch with segs := tput (fun _ => {}) d.watch.segs u x } := (rfl)
@[simp] theorem Dev.setSeg_rose (u : Nat) (x : SegSt) : (d.setSeg u x).rose = d.rose := (rfl)
@[simp] theorem Dev.setSeg_flash (u : Nat) (x : SegSt) : (d.setSeg u x).flash = d.flash := (rfl)
@[simp] theorem Dev.setSeg_pairs (u : Nat) (x : SegSt) : (d.setSeg u x).pairs = d.pairs := (rfl)
@[simp] theorem Dev.setSeg_stack (u : Nat) (x : SegSt) : (d.setSeg u x).stack = d.stack := (rfl)
@[simp] theorem Dev.setSeg_freeCount (u : Nat) (x : SegSt) : (d.setSeg u x).freeCount = d.freeCount := (rfl)
@[simp] theorem Dev.setSeg_outbox (u : Nat) (x : SegSt) : (d.setSeg u x).outbox = d.outbox := (rfl)
@[simp] theorem Dev.setSeg_obj (u : Nat) (x : SegSt) (i s2 w q : Nat) : (d.setSeg u x).obj i s2 w q = d.obj i s2 w q := (rfl)
@[simp] theorem Dev.setSeg_flag (u : Nat) (x : SegSt) (i s2 w q : Nat) : (d.setSeg u x).flag i s2 w q = d.flag i s2 w q := (rfl)

@[simp] theorem Dev.setZt_now (c : Clock) : (d.setZt c).now = d.now := (rfl)
@[simp] theorem Dev.setZt_ltEpoch (c : Clock) : (d.setZt c).ltEpoch = d.ltEpoch := (rfl)
@[simp] theorem Dev.setZt_stackId (c : Clock) : (d.setZt c).stackId = d.stackId := (rfl)
@[simp] theorem Dev.setZt_store (c : Clock) : (d.setZt c).store = d.store := (rfl)
@[simp] theorem Dev.setZt_alm (c : Clock) : (d.setZt c).alm = d.alm := (rfl)
@[simp] theorem Dev.setZt_ev (c : Clock) : (d.setZt c).ev = d.ev := (rfl)
@[simp] theorem Dev.setZt_fifos (c : Clock) : (d.setZt c).fifos = d.fifos := (rfl)
@[simp] theorem Dev.setZt_fifoTurn (c : Clock) : (d.setZt c).fifoTurn = d.fifoTurn := (rfl)
@[simp] theorem Dev.setZt_sex (c : Clock) : (d.setZt c).sex = { d.sex with zt := c } := (rfl)
@[simp] theorem Dev.setZt_plot (c : Clock) : (d.setZt c).plot = d.plot := (rfl)
@[simp] theorem Dev.setZt_integ (c : Clock) : (d.setZt c).integ = d.integ := (rfl)
@[simp] theorem Dev.setZt_chart (c : Clock) : (d.setZt c).chart = d.chart := (rfl)
@[simp] theorem Dev.setZt_shape (c : Clock) : (d.setZt c).shape = d.shape := (rfl)
@[simp] theorem Dev.setZt_fab (c : Clock) : (d.setZt c).fab = d.fab := (rfl)
@[simp] theorem Dev.setZt_ports (c : Clock) : (d.setZt c).ports = d.ports := (rfl)
@[simp] theorem Dev.setZt_pow (c : Clock) : (d.setZt c).pow = d.pow := (rfl)
@[simp] theorem Dev.setZt_bin (c : Clock) : (d.setZt c).bin = d.bin := (rfl)
@[simp] theorem Dev.setZt_chans (c : Clock) : (d.setZt c).chans = d.chans := (rfl)
@[simp] theorem Dev.setZt_lins (c : Clock) : (d.setZt c).lins = d.lins := (rfl)
@[simp] theorem Dev.setZt_watch (c : Clock) : (d.setZt c).watch = d.watch := (rfl)
@[simp] theorem Dev.setZt_rose (c : Clock) : (d.setZt c).rose = d.rose := (rfl)
@[simp] theorem Dev.setZt_flash (c : Clock) : (d.setZt c).flash = d.flash := (rfl)
@[simp] theorem Dev.setZt_pairs (c : Clock) : (d.setZt c).pairs = d.pairs := (rfl)
@[simp] theorem Dev.setZt_stack (c : Clock) : (d.setZt c).stack = d.stack := (rfl)
@[simp] theorem Dev.setZt_freeCount (c : Clock) : (d.setZt c).freeCount = d.freeCount := (rfl)
@[simp] theorem Dev.setZt_outbox (c : Clock) : (d.setZt c).outbox = d.outbox := (rfl)
@[simp] theorem Dev.setZt_obj (c : Clock) (i s2 w q : Nat) : (d.setZt c).obj i s2 w q = d.obj i s2 w q := (rfl)
@[simp] theorem Dev.setZt_flag (c : Clock) (i s2 w q : Nat) : (d.setZt c).flag i s2 w q = d.flag i s2 w q := (rfl)

@[simp] theorem Dev.setDom_now (k : Nat) (x : DomSt) : (d.setDom k x).now = d.now := (rfl)
@[simp] theorem Dev.setDom_ltEpoch (k : Nat) (x : DomSt) : (d.setDom k x).ltEpoch = d.ltEpoch := (rfl)
@[simp] theorem Dev.setDom_stackId (k : Nat) (x : DomSt) : (d.setDom k x).stackId = d.stackId := (rfl)
@[simp] theorem Dev.setDom_store (k : Nat) (x : DomSt) : (d.setDom k x).store = d.store := (rfl)
@[simp] theorem Dev.setDom_alm (k : Nat) (x : DomSt) : (d.setDom k x).alm = d.alm := (rfl)
@[simp] theorem Dev.setDom_ev (k : Nat) (x : DomSt) : (d.setDom k x).ev = d.ev := (rfl)
@[simp] theorem Dev.setDom_fifos (k : Nat) (x : DomSt) : (d.setDom k x).fifos = d.fifos := (rfl)
@[simp] theorem Dev.setDom_fifoTurn (k : Nat) (x : DomSt) : (d.setDom k x).fifoTurn = d.fifoTurn := (rfl)
@[simp] theorem Dev.setDom_sex (k : Nat) (x : DomSt) : (d.setDom k x).sex = d.sex.setDom k x := (rfl)
@[simp] theorem Dev.setDom_plot (k : Nat) (x : DomSt) : (d.setDom k x).plot = d.plot := (rfl)
@[simp] theorem Dev.setDom_integ (k : Nat) (x : DomSt) : (d.setDom k x).integ = d.integ := (rfl)
@[simp] theorem Dev.setDom_chart (k : Nat) (x : DomSt) : (d.setDom k x).chart = d.chart := (rfl)
@[simp] theorem Dev.setDom_shape (k : Nat) (x : DomSt) : (d.setDom k x).shape = d.shape := (rfl)
@[simp] theorem Dev.setDom_fab (k : Nat) (x : DomSt) : (d.setDom k x).fab = d.fab := (rfl)
@[simp] theorem Dev.setDom_ports (k : Nat) (x : DomSt) : (d.setDom k x).ports = d.ports := (rfl)
@[simp] theorem Dev.setDom_pow (k : Nat) (x : DomSt) : (d.setDom k x).pow = d.pow := (rfl)
@[simp] theorem Dev.setDom_bin (k : Nat) (x : DomSt) : (d.setDom k x).bin = d.bin := (rfl)
@[simp] theorem Dev.setDom_chans (k : Nat) (x : DomSt) : (d.setDom k x).chans = d.chans := (rfl)
@[simp] theorem Dev.setDom_lins (k : Nat) (x : DomSt) : (d.setDom k x).lins = d.lins := (rfl)
@[simp] theorem Dev.setDom_watch (k : Nat) (x : DomSt) : (d.setDom k x).watch = d.watch := (rfl)
@[simp] theorem Dev.setDom_rose (k : Nat) (x : DomSt) : (d.setDom k x).rose = d.rose := (rfl)
@[simp] theorem Dev.setDom_flash (k : Nat) (x : DomSt) : (d.setDom k x).flash = d.flash := (rfl)
@[simp] theorem Dev.setDom_pairs (k : Nat) (x : DomSt) : (d.setDom k x).pairs = d.pairs := (rfl)
@[simp] theorem Dev.setDom_stack (k : Nat) (x : DomSt) : (d.setDom k x).stack = d.stack := (rfl)
@[simp] theorem Dev.setDom_freeCount (k : Nat) (x : DomSt) : (d.setDom k x).freeCount = d.freeCount := (rfl)
@[simp] theorem Dev.setDom_outbox (k : Nat) (x : DomSt) : (d.setDom k x).outbox = d.outbox := (rfl)
@[simp] theorem Dev.setDom_obj (k : Nat) (x : DomSt) (i s2 w q : Nat) : (d.setDom k x).obj i s2 w q = d.obj i s2 w q := (rfl)
@[simp] theorem Dev.setDom_flag (k : Nat) (x : DomSt) (i s2 w q : Nat) : (d.setDom k x).flag i s2 w q = d.flag i s2 w q := (rfl)

end Sys2Proof.Machine
end

