-- ==== Sys2Proof/Laws/Table.lean ====
section
/-! SUPPORT. Sparse tables: what a read gives after a write, and that a write keeps the canonical form. -/
namespace Sys2Proof.Machine

variable {β : Type}

/-- An entry put before the first larger key of a table that does not list its key. -/
def tinsert {β : Type} : Tbl β → Nat → β → Tbl β
  | [], k, v => [(k, v)]
  | (k', v') :: m, k, v => if k < k' then (k, v) :: (k', v') :: m else (k', v') :: tinsert m k v

/-- A key that has been taken out reads as its default. -/
theorem tget_terase_same (d : Nat → β) (m : Tbl β) (k : Nat) : tget d (terase m k) k = d k := by
  induction m with
  | nil => rfl
  | cons p m ih =>
    obtain ⟨a, w⟩ := p
    by_cases h : a = k
    · simpa [terase, h] using ih
    · simpa [terase, h, tget] using ih

/-- Taking a key out leaves every other key alone. -/
theorem tget_terase_ne (d : Nat → β) (m : Tbl β) (k j : Nat) (hj : j ≠ k) : tget d (terase m k) j = tget d m j := by
  induction m with
  | nil => rfl
  | cons p m ih =>
    obtain ⟨a, w⟩ := p
    by_cases h : a = k
    · subst h
      simpa [terase, tget, Ne.symm hj] using ih
    · by_cases h2 : a = j
      · subst h2
        simp [terase, h, tget]
      · simpa [terase, h, tget, h2] using ih

/-- An inserted entry is what its key reads as. -/
theorem tget_tinsert_same (d : Nat → β) (m : Tbl β) (k : Nat) (v : β) (hm : ∀ p ∈ m, p.1 ≠ k) : tget d (tinsert m k v) k = v := by
  induction m with
  | nil => simp [tinsert, tget]
  | cons p m ih =>
    obtain ⟨a, w⟩ := p
    have ha : a ≠ k := hm (a, w) (by simp)
    by_cases h : k < a
    · simp [tinsert, h, tget]
    · simpa [tinsert, h, tget, ha] using ih (fun q hq => hm q (by simp [hq]))

/-- An inserted entry leaves every other key alone. -/
theorem tget_tinsert_ne (d : Nat → β) (m : Tbl β) (k j : Nat) (v : β) (hj : j ≠ k) : tget d (tinsert m k v) j = tget d m j := by
  induction m with
  | nil => simp [tinsert, tget, Ne.symm hj]
  | cons p m ih =>
    obtain ⟨a, w⟩ := p
    by_cases h : k < a
    · simp [tinsert, h, tget, Ne.symm hj]
    · simp [tinsert, h, tget, ih]

/-- The erased table does not list the key. -/
theorem terase_ne (m : Tbl β) (k : Nat) : ∀ p ∈ terase m k, p.1 ≠ k := by
  intro p hp
  simpa [terase] using (List.mem_filter.mp hp).2

variable [DecidableEq β] (d : Nat → β)

/-- A write lists its value, or takes out a key that reads as the value anyway. -/
theorem tput_eq (m : Tbl β) (k : Nat) (v : β) : tput d m k v = if v = d k then terase m k else tinsert (terase m k) k v := by
  unfold tput
  generalize terase m k = l
  induction l with
  | nil => rfl
  | cons p l ih =>
    obtain ⟨a, w⟩ := p
    simp only [tplace, tinsert, ih]
    split <;> split <;> rfl

/-- The key just written reads as the value written. -/
@[simp] theorem tget_tput_same (m : Tbl β) (k : Nat) (v : β) : tget d (tput d m k v) k = v := by
  rw [tput_eq]
  split
  · next h => rw [tget_terase_same, h]
  · exact tget_tinsert_same d _ k v (terase_ne m k)

/-- A write leaves every other key alone. -/
theorem tget_tput_ne (m : Tbl β) (k j : Nat) (v : β) (hj : j ≠ k) : tget d (tput d m k v) j = tget d m j := by
  rw [tput_eq]
  split
  · exact tget_terase_ne d m k j hj
  · rw [tget_tinsert_ne d _ k j v hj, tget_terase_ne d m k j hj]

/-- A read after a write. -/
theorem tget_tput (m : Tbl β) (k j : Nat) (v : β) : tget d (tput d m k v) j = if j = k then v else tget d m j := by
  by_cases hj : j = k
  · subst hj; simp
  · simp [hj, tget_tput_ne d m k j v hj]

omit [DecidableEq β] in
/-- Taking out a key that has just been placed. -/
theorem terase_tinsert (m : Tbl β) (k : Nat) (v : β) (hm : ∀ p ∈ m, p.1 ≠ k) : terase (tinsert m k v) k = m := by
  induction m with
  | nil => simp [tinsert, terase]
  | cons p m ih =>
    obtain ⟨a, w⟩ := p
    have ha : a ≠ k := hm (a, w) (by simp)
    have hf : m.filter (fun p => p.1 != k) = m := List.filter_eq_self.mpr (fun q hq => by simpa using hm q (by simp [hq]))
    by_cases h : k < a
    · simpa [tinsert, h, terase, ha] using hf
    · simpa [tinsert, h, terase, ha] using ih (fun q hq => hm q (by simp [hq]))

/-- The last of two writes of a key counts. -/
@[simp] theorem tput_tput (m : Tbl β) (k : Nat) (v w : β) : tput d (tput d m k v) k w = tput d m k w := by
  have h : terase (tput d m k v) k = terase m k := by
    rw [tput_eq]
    split
    · exact List.filter_filter .. |>.trans (by simp [terase])
    · exact terase_tinsert _ k v (terase_ne m k)
  unfold tput at h ⊢
  rw [h]

/-- Taking a key out keeps the canonical form above any bound. -/
theorem twfFrom_terase (m : Tbl β) (lo : Option Nat) (h : twfFrom d lo m = true) (k : Nat) : twfFrom d lo (terase m k) = true := by
  induction m generalizing lo with
  | nil => rfl
  | cons p m ih =>
    obtain ⟨a, w⟩ := p
    simp only [twfFrom, Bool.and_eq_true, decide_eq_true_eq] at h
    by_cases hk : a = k
    · have hd : terase ((a, w) :: m) k = terase m k := by simp [terase, hk]
      rw [hd]
      cases lo with
      | none =>
        have := ih (some a) h.2
        cases ht : terase m k with
        | nil => rfl
        | cons q l =>
          obtain ⟨b, x⟩ := q
          rw [ht] at this
          simp only [twfFrom, Bool.and_eq_true, decide_eq_true_eq] at this
          simp [twfFrom, this.1.2, this.2]
      | some l =>
        have hl : l < a := by simpa using h.1.1
        have := ih (some a) h.2
        cases ht : terase m k with
        | nil => rfl
        | cons q l' =>
          obtain ⟨b, x⟩ := q
          rw [ht] at this
          simp only [twfFrom, Bool.and_eq_true, decide_eq_true_eq] at this
          have hb : l < b := by omega
          simp [twfFrom, this.1.2, this.2, hb]
    · have hd : terase ((a, w) :: m) k = (a, w) :: terase m k := by simp [terase, hk]
      rw [hd]
      simp only [twfFrom, Bool.and_eq_true, decide_eq_true_eq]
      exact ⟨h.1, ih (some a) h.2⟩

/-- Inserting an entry that is not a default keeps the canonical form above any bound below its key. -/
theorem twfFrom_tinsert (m : Tbl β) (lo : Option Nat) (h : twfFrom d lo m = true) (k : Nat) (v : β) (hv : v ≠ d k)
    (hk : ∀ l, lo = some l → l < k) (hm : ∀ p ∈ m, p.1 ≠ k) : twfFrom d lo (tinsert m k v) = true := by
  induction m generalizing lo with
  | nil => cases lo with
    | none => simp [tinsert, hv, twfFrom]
    | some l => simp [tinsert, hv, twfFrom, hk l rfl]
  | cons p m ih =>
    obtain ⟨a, w⟩ := p
    have ha : a ≠ k := hm (a, w) (by simp)
    simp only [twfFrom, Bool.and_eq_true, decide_eq_true_eq] at h
    by_cases h1 : k < a
    · cases lo with
      | none => simp [tinsert, h1, hv, twfFrom, h.1.2, h.2]
      | some l => simp [tinsert, h1, hv, twfFrom, h.1.2, h.2, hk l rfl]
    · simp only [tinsert, h1, if_false, twfFrom, Bool.and_eq_true, decide_eq_true_eq]
      refine ⟨h.1, ih (some a) h.2 ?_ (fun q hq => hm q (by simp [hq]))⟩
      intro l hl
      cases hl
      omega

/-- A write keeps the canonical form. -/
theorem twf_tput (m : Tbl β) (h : twf d m = true) (k : Nat) (v : β) : twf d (tput d m k v) = true := by
  rw [tput_eq]
  split
  · exact twfFrom_terase d m none h k
  · next hv => exact twfFrom_tinsert d _ none (twfFrom_terase d m none h k) k v hv (by simp) (terase_ne m k)

/-- The empty table is canonical. -/
theorem twf_nil : twf d [] = true := rfl

end Sys2Proof.Machine
end

