-- ==== Sys2Proof/Laws/Objects.lean ====
section
/-! SUPPORT. Reads of the object store after its updates, after the passing of time, and after the delivery of events. -/
namespace Sys2Proof.Machine

/-- Keys of different fields differ. -/
theorem objKey_ne_field {i s u r i' s' u' r' : Nat} (hs : s < 256) (hi : i < 65536) (hs' : s' < 256) (hi' : i' < 65536)
    (h : ¬ (i' = i ∧ s' = s)) : objKey i' s' u' r' ≠ objKey i s u r := by
  unfold objKey
  omega

/-- Keys of one field at different units or records differ. -/
theorem objKey_ne_place {i s u r u' r' : Nat} (hu : u < 256) (hu' : u' < 256) (h : ¬ (u' = u ∧ r' = r)) :
    objKey i s u' r' ≠ objKey i s u r := by
  unfold objKey
  omega

/-- What an object reads as before anything is stored in it: the value its record has, else the default of its row. -/
theorem objDefault_of (k i s : Nat) (hi : k / 256 % 65536 = i) (hs : k % 256 = s) :
    objDefault k = (dfltByRecord i s (k / 2 ^ 24 % 256) (k / 2 ^ 32)).getD (((findRow i s).map (·.dflt)).getD 0) := by
  subst hi hs
  unfold objDefault
  simp only
  generalize dfltByRecord (k / 256 % 65536) (k % 256) (k / 2 ^ 24 % 256) (k / 2 ^ 32) = x
  generalize findRow (k / 256 % 65536) (k % 256) = y
  cases x <;> cases y <;> rfl

variable (d : Dev)

/-- The object just set holds the value. -/
@[simp] theorem obj_set_same (i s v u r : Nat) : (d.set i s v u r).obj i s u r = v := by simp [Dev.obj]

/-- Setting an object leaves every other field alone. -/
theorem obj_set_field {i s v u r i' s' u' r' : Nat} (hs : s < 256) (hi : i < 65536) (hs' : s' < 256) (hi' : i' < 65536)
    (h : ¬ (i' = i ∧ s' = s)) : (d.set i s v u r).obj i' s' u' r' = d.obj i' s' u' r' := by
  simp only [Dev.obj, Dev.set_store]
  exact tget_tput_ne _ _ _ _ _ (objKey_ne_field hs hi hs' hi' h)

/-- Setting an object leaves the same field of every other unit and record alone. -/
theorem obj_set_place {i s v u r u' r' : Nat} (hu : u < 256) (hu' : u' < 256) (h : ¬ (u' = u ∧ r' = r)) :
    (d.set i s v u r).obj i s u' r' = d.obj i s u' r' := by
  simp only [Dev.obj, Dev.set_store]
  exact tget_tput_ne _ _ _ _ _ (objKey_ne_place hu hu' h)

/-- A counter after it has counted. -/
@[simp] theorem obj_inc_same (i s u r n : Nat) : (d.inc i s u r n).obj i s u r = (d.obj i s u r + n) % 2 ^ 32 := by simp [Dev.inc]

/-- Counting leaves every other field alone. -/
theorem obj_inc_field {i s u r n i' s' u' r' : Nat} (hs : s < 256) (hi : i < 65536) (hs' : s' < 256) (hi' : i' < 65536)
    (h : ¬ (i' = i ∧ s' = s)) : (d.inc i s u r n).obj i' s' u' r' = d.obj i' s' u' r' := obj_set_field d hs hi hs' hi' h

/-- Counting leaves the same field of every other unit and record alone. -/
theorem obj_inc_place {i s u r n u' r' : Nat} (hu : u < 256) (hu' : u' < 256) (h : ¬ (u' = u ∧ r' = r)) :
    (d.inc i s u r n).obj i s u' r' = d.obj i s u' r' := obj_set_place d hu hu' h

/-- A 64-bit counter after it has counted. -/
@[simp] theorem obj_inc64_same (i s u r n : Nat) : (d.inc64 i s u r n).obj i s u r = (d.obj i s u r + n) % 2 ^ 64 := by simp [Dev.inc64]

/-- Counting in 64 bits leaves every other field alone. -/
theorem obj_inc64_field {i s u r n i' s' u' r' : Nat} (hs : s < 256) (hi : i < 65536) (hs' : s' < 256) (hi' : i' < 65536)
    (h : ¬ (i' = i ∧ s' = s)) : (d.inc64 i s u r n).obj i' s' u' r' = d.obj i' s' u' r' := obj_set_field d hs hi hs' hi' h

/-- A flag after its object has been set. -/
@[simp] theorem flag_set_same (i s v u r : Nat) : (d.set i s v u r).flag i s u r = (v != 0) := by simp [Dev.flag]

/-! Time. -/

/-- The passing of time changes the clocks alone. -/
@[simp] theorem advance_store (t : Nat) : (d.advance t).store = d.store := by unfold Dev.advance; split <;> rfl
/-- The passing of time changes no object. -/
@[simp] theorem advance_obj (t i s u r : Nat) : (d.advance t).obj i s u r = d.obj i s u r := by simp [Dev.obj]
/-- The passing of time changes no flag. -/
@[simp] theorem advance_flag (t i s u r : Nat) : (d.advance t).flag i s u r = d.flag i s u r := by simp [Dev.flag]
/-- A later time is reached, a time already passed changes nothing. -/
theorem advance_now (t : Nat) : (d.advance t).now = max d.now t := by
  unfold Dev.advance
  split
  · next h => show t = max d.now t; omega
  · omega

/-! The delivery of events. -/

/-- The parts of a device that the delivery of events leaves alone. -/
def Dev.quiet (d : Dev) : Dev := { d with store := [], ev := {}, outbox := [], integ := {} }

/-- What one operation of a delivery keeps. -/
structure Dev.Kept (d e : Dev) : Prop where
  /-- Every field but the store, the events, the outbox and the recorder. -/
  quiet : e.quiet = d.quiet
  /-- Every object but those of the delivery. -/
  obj : ∀ i s u r, i < 65536 → s < 256 → deliveryField i s = false → e.obj i s u r = d.obj i s u r
  /-- The events of the cycle that are not yet delivered. -/
  bus : e.ev.bus = d.ev.bus ∧ e.ev.arrivals = d.ev.arrivals

theorem Dev.Kept.refl (d : Dev) : d.Kept d := ⟨rfl, fun _ _ _ _ _ _ _ => rfl, rfl, rfl⟩

theorem Dev.Kept.trans {d e f : Dev} (h : d.Kept e) (g : e.Kept f) : d.Kept f :=
  ⟨g.quiet.trans h.quiet, fun i s u r hi hs hd => (g.obj i s u r hi hs hd).trans (h.obj i s u r hi hs hd), g.bus.1.trans h.bus.1, g.bus.2.trans h.bus.2⟩

theorem kept_set (i s v u r : Nat) (hi : i < 65536) (hs : s < 256) (h : deliveryField i s = true) : d.Kept (d.set i s v u r) :=
  ⟨rfl, fun i' s' u' r' hi' hs' h' => obj_set_field d hs hi hs' hi' (by rintro ⟨rfl, rfl⟩; simp [h] at h'), rfl, rfl⟩

theorem kept_out (o : Out) : d.Kept (d.out o) := ⟨rfl, fun _ _ _ _ _ _ _ => rfl, rfl, rfl⟩

theorem kept_msix (v : Nat) : d.Kept (d.msix v) := by
  unfold Dev.msix
  split
  · exact ⟨rfl, fun _ _ _ _ _ _ _ => rfl, rfl, rfl⟩
  · exact ((kept_out d _).trans (kept_set _ _ _ _ _ _ (by decide) (by decide) rfl)).trans (kept_set _ _ _ _ _ _ (by decide) (by decide) rfl)

theorem kept_raise (v : Nat) : d.Kept (d.raise v) := by
  unfold Dev.raise
  have h : d.Kept { d with ev := { d.ev with cause := d.ev.cause ||| BitVec.ofNat 64 (2 ^ v) } } := ⟨rfl, fun _ _ _ _ _ _ _ => rfl, rfl, rfl⟩
  simp only
  split
  · exact h
  · exact h.trans (kept_msix _ v)

theorem kept_trigger (c : Nat) : d.Kept (d.trigger c) := by
  unfold Dev.trigger
  split
  · exact Dev.Kept.trans (e := { d with integ := { d.integ with postTrigger := d.obj 0xD020 0x04 } })
      ⟨rfl, fun _ _ _ _ _ _ _ => rfl, rfl, rfl⟩ (kept_set _ _ _ _ _ _ (by decide) (by decide) rfl)
  · exact Dev.Kept.refl d

theorem kept_logEvent (e : EvRec) : d.Kept (d.logEvent e) := by
  unfold Dev.logEvent
  have h : d.Kept (d.inc64 0xD000 0x02) := kept_set _ _ _ _ _ _ (by decide) (by decide) rfl
  have h2 : ∀ x : Dev, x.Kept (if x.ev.log.length ≥ 2048 then x.inc64 0xD000 0x03 else x) := by
    intro x; split
    · exact kept_set _ _ _ _ _ _ (by decide) (by decide) rfl
    · exact Dev.Kept.refl x
  simp only
  split
  · refine (h.trans (h2 _)).trans ⟨rfl, fun _ _ _ _ _ _ _ => rfl, rfl, rfl⟩
  · exact h

theorem kept_deliver (e : EvRec) : d.Kept (d.deliver e) := by
  unfold Dev.deliver
  simp only
  have h1 := kept_logEvent d e
  have h2 : d.Kept (if (d.logEvent e).obj 0xD020 0x01 = 2 then (d.logEvent e).trigger e.code.value else d.logEvent e) := by
    split
    · exact h1.trans (kept_trigger _ _)
    · exact h1
  split
  · exact h2.trans (kept_raise _ _)
  · exact h2

theorem kept_deliverAll (l : List EvRec) : d.Kept (l.foldl Dev.deliver d) := by
  induction l generalizing d with
  | nil => exact Dev.Kept.refl d
  | cons e l ih => exact (kept_deliver d e).trans (ih _)

theorem kept_raiseAll (l : List Nat) : d.Kept (l.foldl Dev.raise d) := by
  induction l generalizing d with
  | nil => exact Dev.Kept.refl d
  | cons e l ih => exact (kept_raise d e).trans (ih _)

/-- What the delivery of a list of events and arrivals keeps. -/
theorem kept_settle : (d.evUpd fun x => { x with bus := [], arrivals := [] }).Kept d.settle := (kept_deliverAll _ _).trans (kept_raiseAll _ _)

/-- After the delivery no event of the cycle is left. -/
@[simp] theorem settle_bus : d.settle.ev.bus = [] := (kept_settle d).bus.1

/-- After the delivery no arrival of the cycle is left. -/
@[simp] theorem settle_arrivals : d.settle.ev.arrivals = [] := (kept_settle d).bus.2

/-- The delivery of events changes no object but its own. -/
theorem settle_obj {i s : Nat} (u r : Nat) (hi : i < 65536) (hs : s < 256) (h : deliveryField i s = false) :
    d.settle.obj i s u r = d.obj i s u r := (kept_settle d).obj i s u r hi hs h

/-- The delivery of events keeps every field but the store, the events, the outbox and the recorder. -/
theorem settle_quiet : d.settle.quiet = d.quiet := (kept_settle d).quiet

/-- A device with no event of the cycle has nothing to deliver. -/
theorem settle_of_nil (h : d.ev.bus = []) (h2 : d.ev.arrivals = []) : d.settle = d := by
  obtain ⟨a1, a2, a3, a4, a5, ⟨b1, b2, b3, b4, b5, b6, b7⟩, a7⟩ := d
  simp only at h h2
  subst h h2
  rfl

/-- Whatever the end of a command delivers, no object but those of a delivery changes. -/
theorem close_obj (s : State) {i j : Nat} (u r : Nat) (hi : i < 65536) (hj : j < 256) (h : deliveryField i j = false) :
    (s.close d).obj i j u r = d.obj i j u r := by
  unfold State.close
  split
  · rfl
  · split
    · rfl
    · exact settle_obj d u r hi hj h

/-- The end of a command keeps every field but the store, the events, the outbox and the recorder. -/
theorem close_quiet (s : State) : (s.close d).quiet = d.quiet := by
  unfold State.close
  split
  · rfl
  · split
    · rfl
    · exact settle_quiet d

@[simp] theorem settle_now : d.settle.now = d.now := congrArg (fun x => x.now) (settle_quiet d)
@[simp] theorem settle_ltEpoch : d.settle.ltEpoch = d.ltEpoch := congrArg (fun x => x.ltEpoch) (settle_quiet d)
@[simp] theorem settle_stackId : d.settle.stackId = d.stackId := congrArg (fun x => x.stackId) (settle_quiet d)
@[simp] theorem settle_alm : d.settle.alm = d.alm := congrArg (fun x => x.alm) (settle_quiet d)
@[simp] theorem settle_fifos : d.settle.fifos = d.fifos := congrArg (fun x => x.fifos) (settle_quiet d)
@[simp] theorem settle_fifoTurn : d.settle.fifoTurn = d.fifoTurn := congrArg (fun x => x.fifoTurn) (settle_quiet d)
@[simp] theorem settle_sex : d.settle.sex = d.sex := congrArg (fun x => x.sex) (settle_quiet d)
@[simp] theorem settle_plot : d.settle.plot = d.plot := congrArg (fun x => x.plot) (settle_quiet d)
@[simp] theorem settle_chart : d.settle.chart = d.chart := congrArg (fun x => x.chart) (settle_quiet d)
@[simp] theorem settle_shape : d.settle.shape = d.shape := congrArg (fun x => x.shape) (settle_quiet d)
@[simp] theorem settle_fab : d.settle.fab = d.fab := congrArg (fun x => x.fab) (settle_quiet d)
@[simp] theorem settle_ports : d.settle.ports = d.ports := congrArg (fun x => x.ports) (settle_quiet d)
@[simp] theorem settle_pow : d.settle.pow = d.pow := congrArg (fun x => x.pow) (settle_quiet d)
@[simp] theorem settle_bin : d.settle.bin = d.bin := congrArg (fun x => x.bin) (settle_quiet d)
@[simp] theorem settle_chans : d.settle.chans = d.chans := congrArg (fun x => x.chans) (settle_quiet d)
@[simp] theorem settle_lins : d.settle.lins = d.lins := congrArg (fun x => x.lins) (settle_quiet d)
@[simp] theorem settle_watch : d.settle.watch = d.watch := congrArg (fun x => x.watch) (settle_quiet d)
@[simp] theorem settle_rose : d.settle.rose = d.rose := congrArg (fun x => x.rose) (settle_quiet d)
@[simp] theorem settle_flash : d.settle.flash = d.flash := congrArg (fun x => x.flash) (settle_quiet d)
@[simp] theorem settle_pairs : d.settle.pairs = d.pairs := congrArg (fun x => x.pairs) (settle_quiet d)
@[simp] theorem settle_stack : d.settle.stack = d.stack := congrArg (fun x => x.stack) (settle_quiet d)
@[simp] theorem settle_freeCount : d.settle.freeCount = d.freeCount := congrArg (fun x => x.freeCount) (settle_quiet d)
@[simp] theorem advance_ltEpoch (t : Nat) : (d.advance t).ltEpoch = d.ltEpoch := by unfold Dev.advance; split <;> rfl
@[simp] theorem advance_stackId (t : Nat) : (d.advance t).stackId = d.stackId := by unfold Dev.advance; split <;> rfl
@[simp] theorem advance_alm (t : Nat) : (d.advance t).alm = d.alm := by unfold Dev.advance; split <;> rfl
@[simp] theorem advance_ev (t : Nat) : (d.advance t).ev = d.ev := by unfold Dev.advance; split <;> rfl
@[simp] theorem advance_fifos (t : Nat) : (d.advance t).fifos = d.fifos := by unfold Dev.advance; split <;> rfl
@[simp] theorem advance_fifoTurn (t : Nat) : (d.advance t).fifoTurn = d.fifoTurn := by unfold Dev.advance; split <;> rfl
@[simp] theorem advance_plot (t : Nat) : (d.advance t).plot = d.plot := by unfold Dev.advance; split <;> rfl
@[simp] theorem advance_integ (t : Nat) : (d.advance t).integ = d.integ := by unfold Dev.advance; split <;> rfl
@[simp] theorem advance_chart (t : Nat) : (d.advance t).chart = d.chart := by unfold Dev.advance; split <;> rfl
@[simp] theorem advance_shape (t : Nat) : (d.advance t).shape = d.shape := by unfold Dev.advance; split <;> rfl
@[simp] theorem advance_fab (t : Nat) : (d.advance t).fab = d.fab := by unfold Dev.advance; split <;> rfl
@[simp] theorem advance_ports (t : Nat) : (d.advance t).ports = d.ports := by unfold Dev.advance; split <;> rfl
@[simp] theorem advance_pow (t : Nat) : (d.advance t).pow = d.pow := by unfold Dev.advance; split <;> rfl
@[simp] theorem advance_bin (t : Nat) : (d.advance t).bin = d.bin := by unfold Dev.advance; split <;> rfl
@[simp] theorem advance_chans (t : Nat) : (d.advance t).chans = d.chans := by unfold Dev.advance; split <;> rfl
@[simp] theorem advance_lins (t : Nat) : (d.advance t).lins = d.lins := by unfold Dev.advance; split <;> rfl
@[simp] theorem advance_watch (t : Nat) : (d.advance t).watch = d.watch := by unfold Dev.advance; split <;> rfl
@[simp] theorem advance_rose (t : Nat) : (d.advance t).rose = d.rose := by unfold Dev.advance; split <;> rfl
@[simp] theorem advance_flash (t : Nat) : (d.advance t).flash = d.flash := by unfold Dev.advance; split <;> rfl
@[simp] theorem advance_pairs (t : Nat) : (d.advance t).pairs = d.pairs := by unfold Dev.advance; split <;> rfl
@[simp] theorem advance_stack (t : Nat) : (d.advance t).stack = d.stack := by unfold Dev.advance; split <;> rfl
@[simp] theorem advance_freeCount (t : Nat) : (d.advance t).freeCount = d.freeCount := by unfold Dev.advance; split <;> rfl
@[simp] theorem advance_outbox (t : Nat) : (d.advance t).outbox = d.outbox := by unfold Dev.advance; split <;> rfl

/-- The delivery of events does not switch the CORE domain. -/
@[simp] theorem settle_coreOn : d.settle.coreOn = d.coreOn := by simp [Dev.coreOn]

/-- The passing of time does not switch the CORE domain. -/
@[simp] theorem advance_coreOn (t : Nat) : (d.advance t).coreOn = d.coreOn := by simp [Dev.coreOn]

end Sys2Proof.Machine
end

