-- ==== Sys2Proof/Laws/Link.lean ====
section
/-! SUPPORT. What a message on a stack link changes of the device that sends it. -/
namespace Sys2Proof.Machine

variable (d : Dev)

/-- What the sending of messages on the stack links keeps: every object but those of a packet number, and every part of the device but the Binnacle's, the events and what has left. -/
structure Dev.Sent (d e : Dev) : Prop where
  obj : ∀ i s u r, i < 65536 → s < 256 → sentField i s = false → e.obj i s u r = d.obj i s u r
  rest : { e with store := [], ev := {}, outbox := [], bin := {} } = { d with store := [], ev := {}, outbox := [], bin := {} }

theorem Dev.Sent.refl (d : Dev) : d.Sent d := ⟨fun _ _ _ _ _ _ _ => rfl, rfl⟩

theorem Dev.Sent.trans {d e f : Dev} (h : d.Sent e) (g : e.Sent f) : d.Sent f :=
  ⟨fun i s u r hi hs hf => (g.obj i s u r hi hs hf).trans (h.obj i s u r hi hs hf), g.rest.trans h.rest⟩

theorem sent_out (o : Out) : d.Sent (d.out o) := ⟨fun _ _ _ _ _ _ _ => rfl, rfl⟩

theorem sent_set (i s v u r : Nat) (hi : i < 65536) (hs : s < 256) (h : sentField i s = true) : d.Sent (d.set i s v u r) :=
  ⟨fun i' s' u' r' hi' hs' h' => obj_set_field d hs hi hs' hi' (by rintro ⟨rfl, rfl⟩; simp [h] at h'), rfl⟩

theorem sent_threshold (p : Prop) [Decidable p] (f : BinSt → BinSt) (n : Nat) (v : Option Nat) (c : EvCode) (u : Nat) (b : Bytes) :
    d.Sent (if p then (d.binUpd f).event n v c u b else d) := by
  split
  · exact ⟨fun _ _ _ _ _ _ _ => rfl, rfl⟩
  · exact Dev.Sent.refl d

/-- Taking a packet number. -/
theorem sent_macsecTake (p : Nat) : d.Sent (d.macsecTake p).1 := by
  unfold Dev.macsecTake
  simp only
  split
  · exact sent_set d _ _ _ _ _ (by decide) (by decide) rfl
  · have h1 : ∀ x : Dev, ∀ u, x.Sent (x.inc64 0xB100 0x07 u) := fun x u => sent_set x _ _ _ _ _ (by decide) (by decide) rfl
    have h2 : ∀ (x : Dev) (u r pn : Nat), x.Sent (if pn = 2 ^ 64 - 1 then x.set 0xB110 0x07 1 u r else x.set 0xB110 0x06 (pn + 1) u r) := by
      intro x u r pn
      split
      · exact sent_set x _ _ _ _ _ (by decide) (by decide) rfl
      · exact sent_set x _ _ _ _ _ (by decide) (by decide) rfl
    exact ((h1 d _).trans (h2 _ _ _ _)).trans (sent_threshold _ _ _ _ _ _ _ _)

/-- A message on a stack link. -/
theorem sent_sendLink (k : Nat) (o : Out) : d.Sent (d.sendLink k o) := by
  unfold Dev.sendLink
  split
  · exact sent_out d o
  · have h := sent_macsecTake d (20 + k)
    split
    · next e g he => rw [he] at h; exact (h.trans (sent_out _ _)).trans (sent_out _ _)
    · next e he => rw [he] at h; exact h

/-- A message to a member. -/
theorem sent_sendTo (m : Nat) (o : Out) : d.Sent (d.sendTo m o) := by
  unfold Dev.sendTo
  split
  · exact sent_sendLink d _ _
  · exact Dev.Sent.refl d

theorem sent_foldl {α : Type} (f : Dev → α → Dev) (h : ∀ (d : Dev) a, d.Sent (f d a)) (l : List α) : d.Sent (l.foldl f d) := by
  induction l generalizing d with
  | nil => exact Dev.Sent.refl d
  | cons a l ih => exact (h d a).trans (ih _)

/-- A message on a link without MACsec leaves as it is. -/
theorem sendLink_plain (k : Nat) (o : Out) (h : d.macsecOn (20 + k) = false) : d.sendLink k o = d.out o := by simp [Dev.sendLink, h]

end Sys2Proof.Machine
end

