-- ==== Sys2Proof/Laws/Server.lean ====
section
/-! SUPPORT. What the server does with a write that passes its checks. -/
namespace Sys2Proof.Machine

variable (d : Dev)

/-- What a service operation keeps: every object, the events of the cycle, and every part of the device but the service's. -/
structure Dev.Served (d e : Dev) : Prop where
  store : e.store = d.store
  bus : e.ev.bus = d.ev.bus
  rest : { e with store := [], ev := {}, outbox := [], alm := {} } = { d with store := [], ev := {}, outbox := [], alm := {} }

theorem Dev.Served.refl (d : Dev) : d.Served d := ⟨rfl, rfl, rfl⟩

theorem Dev.Served.trans {d e f : Dev} (h : d.Served e) (g : e.Served f) : d.Served f :=
  ⟨g.store.trans h.store, g.bus.trans h.bus, g.rest.trans h.rest⟩

theorem Dev.Served.obj {d e : Dev} (h : d.Served e) (i s u r : Nat) : e.obj i s u r = d.obj i s u r := by simp [Dev.obj, h.store]

theorem served_out (o : Out) : d.Served (d.out o) := ⟨rfl, rfl, rfl⟩
theorem served_alm (f : AlmSt → AlmSt) : d.Served (d.almUpd f) := ⟨rfl, rfl, rfl⟩
theorem served_signal (v : Nat) : d.Served (d.signal v) := ⟨rfl, rfl, rfl⟩

theorem served_replyPcie (b : Bytes) (n : Bool) : d.Served (d.replyPcie b n) := by
  unfold Dev.replyPcie
  split
  · exact served_alm d _
  · have h := (served_alm d (fun x => { x with reply := some b })).trans (served_signal _ 0)
    simp only
    split
    · exact h.trans (served_signal _ 1)
    · exact h

/-- A record that leaves neither as a frame of a bus or a port nor on a stack link changes the service's buffers alone. -/
theorem served_sendRecord (o : Option Nat) (v : Service) (a : Source) (n : Bool) (b : Bytes) (h : (o.isNone && (v != .can && v != .udp)) = true) :
    d.Served (d.sendRecord o v a n b) := by
  unfold Dev.sendRecord
  split
  · simp at h
  · split
    · exact served_replyPcie d b n
    · simp only
      split
      · exact (served_alm d _).trans (served_signal _ 1)
      · exact served_alm d _
    · exact absurd h (by decide)
    · exact absurd h (by decide)
    · exact served_out d _

theorem served_foldl {α : Type} (f : Dev → α → Dev) (h : ∀ (d : Dev) a, d.Served (f d a)) (l : List α) : d.Served (l.foldl f d) := by
  induction l generalizing d with
  | nil => exact Dev.Served.refl d
  | cons a l ih => exact (h d a).trans (ih _)

/-- A reply on PCIe or HS changes the service's buffers alone. -/
theorem served_reply (q : Request) (c : Nat) (b : Bytes) (h : (q.origin.isNone && (q.svc != .can && q.svc != .udp)) = true) : d.Served (d.reply q c b) :=
  served_foldl d _ (fun d _ => served_sendRecord d _ _ _ _ _ h) _

/-- A reply to the member that forwarded the request changes what a message on a stack link changes. -/
theorem sent_reply (q : Request) (c : Nat) (b : Bytes) (h : q.origin.isSome = true) : d.Sent (d.reply q c b) := by
  refine sent_foldl d _ (fun d a => ?_) _
  unfold Dev.sendRecord
  split
  · exact sent_sendTo d _ _
  · next e => rw [e] at h; simp at h

/-- The copies of an ended original change among the channels alone. -/
@[simp] theorem unlink_store (u b : Nat) : (d.unlink u b).store = d.store := by unfold Dev.unlink; split <;> rfl
@[simp] theorem unlink_ev (u b : Nat) : (d.unlink u b).ev = d.ev := by unfold Dev.unlink; split <;> rfl
@[simp] theorem unlink_alm (u b : Nat) : (d.unlink u b).alm = d.alm := by unfold Dev.unlink; split <;> rfl
theorem unlink_rest (u b : Nat) : { d.unlink u b with chans := [] } = { d with chans := [] } := by unfold Dev.unlink; split <;> rfl
@[simp] theorem unlink_obj (u b i s w r : Nat) : (d.unlink u b).obj i s w r = d.obj i s w r := by simp [Dev.obj]

/-- Arming a buffer changes objects of the transmit buffers and their count of expired windows alone. -/
theorem bufArm_obj (u b : Nat) (x : Bool) {i s : Nat} (w r : Nat) (hi : i < 65536) (hs : s < 256) (h1 : i ≠ 0x6020) (h2 : i ≠ 0x6030) :
    (d.bufArm u b x).obj i s w r = d.obj i s w r := by
  unfold Dev.bufArm Dev.bufEmpty Dev.setBuf
  split
  · split
    · rw [obj_inc_field _ (by omega) (by omega) hs hi (by omega), Dev.setChan_obj, obj_set_field _ (by omega) (by omega) hs hi (by omega),
        obj_set_field _ (by omega) (by omega) hs hi (by omega), obj_set_field _ (by omega) (by omega) hs hi (by omega), unlink_obj]
    · exact obj_set_field _ (by omega) (by omega) hs hi (by omega)
  · exact obj_set_field _ (by omega) (by omega) hs hi (by omega)

/-- Offering a reply of the CAN service to its buffer changes objects of that buffer alone. -/
theorem canPut_obj (x : Nat × Nat × Bytes) {i s : Nat} (w r : Nat) (hi : i < 65536) (hs : s < 256) (h1 : i ≠ 0x6020) (h2 : i ≠ 0x6030) :
    (d.canPut x).obj i s w r = d.obj i s w r := by
  unfold Dev.canPut
  simp only
  split
  · rfl
  · split
    · rfl
    · split
      · rfl
      · rw [bufArm_obj _ _ _ _ _ _ hi hs h1 h2, Dev.bufFill, Dev.setBuf, Dev.setChan_obj, obj_set_field _ (by omega) (by omega) hs hi (by omega),
          obj_set_field _ (by omega) (by omega) hs hi (by omega), obj_set_field _ (by omega) (by omega) hs hi (by omega)]

/-- Arming a buffer raises no event. -/
@[simp] theorem bufArm_ev (u b : Nat) (x : Bool) : (d.bufArm u b x).ev = d.ev := by
  unfold Dev.bufArm
  split
  · split
    · simp [Dev.bufEmpty, Dev.setBuf]
    · rfl
  · rfl

/-- Offering a reply of the CAN service to its buffer raises no event. -/
@[simp] theorem canPut_ev (x : Nat × Nat × Bytes) : (d.canPut x).ev = d.ev := by
  unfold Dev.canPut
  simp only
  split
  · rfl
  · split
    · rfl
    · split
      · rfl
      · rw [bufArm_ev]; rfl

/-- What an answer on a service of this member keeps: every object but those of the CAN service's buffer, the events of the cycle, and every part of the device but the service's, the channels and the frames. -/
structure Dev.Answered (d e : Dev) : Prop where
  obj : ∀ i s u r, i < 65536 → s < 256 → i ≠ 0x6020 → i ≠ 0x6030 → e.obj i s u r = d.obj i s u r
  bus : e.ev.bus = d.ev.bus
  rest : { e with store := [], ev := {}, outbox := [], alm := {}, chans := [], fab := {} } = { d with store := [], ev := {}, outbox := [], alm := {}, chans := [], fab := {} }

theorem Dev.Answered.refl (d : Dev) : d.Answered d := ⟨fun _ _ _ _ _ _ _ _ => rfl, rfl, rfl⟩

theorem Dev.Answered.trans {d e f : Dev} (h : d.Answered e) (g : e.Answered f) : d.Answered f :=
  ⟨fun i s u r hi hs h1 h2 => (g.obj i s u r hi hs h1 h2).trans (h.obj i s u r hi hs h1 h2), g.bus.trans h.bus, g.rest.trans h.rest⟩

theorem Dev.Served.answered {d e : Dev} (h : d.Served e) : d.Answered e :=
  ⟨fun i s u r _ _ _ _ => h.obj i s u r, h.bus, congrArg (fun x : Dev => { x with chans := [], fab := {} }) h.rest⟩

/-- Arming a buffer changes the store alone beside the channels. -/
theorem bufArm_rest (u b : Nat) (x : Bool) : { d.bufArm u b x with store := [], chans := [] } = { d with store := [], chans := [] } := by
  unfold Dev.bufArm
  split
  · split
    · exact congrArg (fun x : Dev => { x with store := [] }) (unlink_rest d u b)
    · rfl
  · rfl

/-- Offering a reply of the CAN service to its buffer changes the service's buffers, that buffer and the channels alone. -/
theorem answered_canPut (x : Nat × Nat × Bytes) : d.Answered (d.canPut x) := by
  refine ⟨fun i s u r hi hs h1 h2 => canPut_obj d x u r hi hs h1 h2, by simp, ?_⟩
  unfold Dev.canPut
  simp only
  split
  · rfl
  · split
    · rfl
    · split
      · rfl
      · exact congrArg (fun x : Dev => { x with ev := {}, outbox := [], alm := {}, fab := {} }) (bufArm_rest _ _ _ _)

theorem answered_foldl {α : Type} (f : Dev → α → Dev) (h : ∀ (d : Dev) a, d.Answered (f d a)) (l : List α) : d.Answered (l.foldl f d) := by
  induction l generalizing d with
  | nil => exact Dev.Answered.refl d
  | cons a l ih => exact (h d a).trans (ih _)

/-- Loading replies of the CAN service changes the service's buffers, its transmit buffer and the channels alone. -/
theorem answered_canPump : d.Answered d.canPump := (served_alm d _).answered.trans (answered_foldl _ _ (fun d x => answered_canPut d x) _)

/-- A record that is sent on a service of this member changes the service's buffers, the channels and the frames alone. -/
theorem answered_sendRecord (o : Option Nat) (v : Service) (a : Source) (n : Bool) (b : Bytes) (h : o = none) : d.Answered (d.sendRecord o v a n b) := by
  subst h
  unfold Dev.sendRecord
  split
  · next e => simp at e
  · split
    · exact (served_replyPcie d b n).answered
    · simp only
      split
      · exact (served_alm d _).answered.trans (served_signal _ 1).answered
      · exact (served_alm d _).answered
    · exact (served_alm d _).answered.trans (answered_canPump _)
    · split
      · next ad po => exact (served_out d (.record .udp (.udp ad po) b)).answered.trans ⟨fun _ _ _ _ _ _ _ _ => rfl, rfl, rfl⟩
      · exact (served_out d _).answered
    · exact (served_out d _).answered

/-- An answer changes the service's buffers, the channels and the frames alone. -/
theorem answered_reply (q : Request) (c : Nat) (b : Bytes) (h : q.origin = none) : d.Answered (d.reply q c b) :=
  answered_foldl d _ (fun d _ => answered_sendRecord d _ _ _ _ _ h) _

/-- Answering the request in service changes the service's buffers, the channels and the frames alone, when it came to this member itself. -/
theorem answered_finish (c : Nat) (b : Bytes) (h : ∀ q ∈ d.alm.queue.head?, q.origin = none) : d.Answered (d.finish c b) := by
  unfold Dev.finish
  split
  · next q l e => exact (answered_reply d q c b (h q (by simp [e]))).trans (served_alm _ _).answered
  · exact Dev.Answered.refl d

/-- What leaves the store alone. -/
theorem foldl_store {α : Type} (f : Dev → α → Dev) (h : ∀ (d : Dev) a, (f d a).store = d.store) (l : List α) : (l.foldl f d).store = d.store := by
  induction l generalizing d with
  | nil => rfl
  | cons a l ih => exact (ih _).trans (h d a)

theorem putRecord_store (e : RecEntry) : (d.putRecord e).store = d.store := by
  unfold Dev.putRecord
  simp only
  split <;> rfl

theorem recordWrite_store (o : ObjRow) (b : Bytes) (ms : List Nat) (n : Nat) : (d.recordWrite o b ms n).store = d.store := by
  unfold Dev.recordWrite
  split
  · rfl
  · exact foldl_store d _ (fun d m => foldl_store d _ (fun d u => putRecord_store d _) _) _

/-- Counting a request changes its counter alone. -/
theorem countRequest_obj (q : Request) (i s u r : Nat) (hi : i < 65536) (hs : s < 256) (h : i ≠ 0x1041) :
    (d.countRequest q).obj i s u r = d.obj i s u r := by
  unfold Dev.countRequest
  have hc : serviceCounter q < 256 := by unfold serviceCounter; split <;> (try split) <;> omega
  split
  · exact obj_inc_field d (by omega) (by omega) hs hi (by omega)
  · exact obj_inc_field d hc (by omega) hs hi (by omega)

theorem countRequest_eq (q : Request) : ∃ i s, d.countRequest q = d.inc i s := by
  unfold Dev.countRequest
  split
  · exact ⟨_, _, rfl⟩
  · exact ⟨_, _, rfl⟩

/-- The object a write acts on reads as before the request was counted. -/
theorem writeBase_obj (q : Request) (o : ObjRow) (i s u r : Nat) (hi : i < 65536) (hs : s < 256) (h : i ≠ 0x1041) (h2 : ¬ (i = 0x9400 ∧ s = 7) ∧ ¬ (i = 0x9401 ∧ s = 4))
    (h4 : sentField i s = false := by rfl) : (d.writeBase q o).obj i s u r = d.obj i s u r := by
  unfold Dev.writeBase
  simp only [Dev.almUpd_obj]
  rw [(sent_foldl _ _ (fun d m => sent_sendTo d m _) _).obj i s u r hi hs h4, obj_set_field _ (by omega) (by omega) hs hi h2.2]
  simp only [Dev.obj, recordWrite_store]
  have h3 := obj_set_field (d.countRequest q) (i := 0x9400) (s := 7) (v := ((d.countRequest q).obj 0x9400 0x07 + 1) % 2 ^ 32) (u := 0) (r := 0)
    (i' := i) (s' := s) (u' := u) (r' := r) (by omega) (by omega) hs hi (by omega)
  simp only [Dev.obj] at h3
  rw [h3]
  exact countRequest_obj d q i s u r hi hs h

/-- An index is 16 bits. -/
theorem recIndex_lt (b : Bytes) : recIndex b < 65536 := field_lt b 4 2
/-- A subindex is 8 bits. -/
theorem recSub_lt (b : Bytes) : recSub b < 256 := byteAt_lt b 6

/-- Counting a request changes no check of the object. -/
theorem countRequest_objectCheck (q : Request) (b : Bytes) (w : Bool) : (d.countRequest q).objectCheck b w = d.objectCheck b w := by
  have h : (d.countRequest q).obj 0x1020 (recIndex b / 0x1000) = d.obj 0x1020 (recIndex b / 0x1000) :=
    countRequest_obj d q 0x1020 _ 0 0 (by omega) (by have := recIndex_lt b; omega) (by omega)
  simp only [Dev.objectCheck, Dev.flag, h]
  rfl

/-- Counting a request changes no member's presence. -/
theorem countRequest_pathMembers (q : Request) (b : Bytes) : (d.countRequest q).pathMembers b = d.pathMembers b := by
  have h1 : (d.countRequest q).stackId = d.stackId := by obtain ⟨i, s, h⟩ := countRequest_eq d q; simp [h]
  have h : ∀ m, (d.countRequest q).memberPresent m = d.memberPresent m := by
    intro m
    simp only [Dev.memberPresent, h1, countRequest_obj d q 0x9410 1 0 m (by omega) (by omega) (by omega)]
  unfold Dev.pathMembers
  split
  · exact congrArg (fun p => List.filter p (List.range 4)) (funext h)
  · rfl

theorem foldl_stackId {α : Type} (f : Dev → α → Dev) (h : ∀ (d : Dev) a, (f d a).stackId = d.stackId) (l : List α) : (l.foldl f d).stackId = d.stackId := by
  induction l generalizing d with
  | nil => rfl
  | cons a l ih => exact (ih _).trans (h d a)

/-- Recording a write does not change who this member is. -/
theorem writeBase_stackId (q : Request) (o : ObjRow) : (d.writeBase q o).stackId = d.stackId := by
  obtain ⟨i, s, h⟩ := countRequest_eq d q
  have hp : ∀ (d : Dev) e, (d.putRecord e).stackId = d.stackId := by intro d e; unfold Dev.putRecord; simp only; split <;> rfl
  have hr : ∀ (d : Dev) b ms n, (d.recordWrite o b ms n).stackId = d.stackId := by
    intro d b ms n
    unfold Dev.recordWrite
    split
    · rfl
    · exact foldl_stackId d _ (fun d m => foldl_stackId d _ (fun d u => hp d _) _) _
  unfold Dev.writeBase
  simp only
  have hs : ∀ (d : Dev) m o, (d.sendTo m o).stackId = d.stackId := by
    intro d m o
    have e := congrArg Dev.stackId (sent_sendTo d m o).rest
    exact e
  rw [Dev.almUpd_stackId, foldl_stackId _ _ (fun d a => hs d a _), Dev.set_stackId, hr, Dev.set_stackId, h, Dev.inc_stackId]

/-- A write that passes its checks is recorded, takes effect, and is answered (R47, R49). -/
theorem write_taken (s : State) (t : Nat) (q : Request) (o : ObjRow) (k : WriteKind) (u : Nat) (h : (s.at t).takesWrite q o k u = true)
    (h1 : recIndex q.bytes ≠ 0x1040) (h2 : recIndex q.bytes ≠ 0x1020) :
    s.write t k = .next { s with dev := s.close ((((s.at t).writeBase q o).apply (recIndex q.bytes) (recSub q.bytes) u (recRecord q.bytes) (beNat (recData q.bytes))).tryFinish q) } := by
  simp only [Dev.takesWrite, Dev.serves, Bool.and_eq_true, beq_iff_eq, Bool.not_eq_true'] at h
  obtain ⟨⟨⟨⟨⟨⟨⟨⟨⟨⟨⟨⟨hc, hn⟩, hd⟩, hr⟩, hf⟩, hop⟩, hk⟩, hob⟩, hrow⟩, hl⟩, hm⟩, hu⟩, hp⟩ := h
  have hid : ((s.at t).countRequest q).stackId = (s.at t).stackId := by obtain ⟨i, s', e⟩ := countRequest_eq (s.at t) q; simp [e]
  have hs : (s.at t).serve (fun b => recOp b == 2 && writeKind b == k) Dev.serveWrite = ((s.at t).countRequest q).serveWrite q := by
    simp only [Dev.serve, hn, hop, hk, hd, hr, hf]
    simp
  have hw : ((s.at t).countRequest q).serveWrite q = ((s.at t).countRequest q).commitWrite q o [(s.at t).stackId] := by
    unfold Dev.serveWrite
    simp only [countRequest_objectCheck, countRequest_pathMembers, hob, hrow, hl, hm, hid, Dev.firstRefusal, hu]
    simp [hp]
  have hcw : ((s.at t).countRequest q).commitWrite q o [(s.at t).stackId] =
      (((s.at t).writeBase q o).apply (recIndex q.bytes) (recSub q.bytes) u (recRecord q.bytes) (beNat (recData q.bytes))).tryFinish q := by
    have hself : ∀ x : Dev, x.stackId = (s.at t).stackId → ([(s.at t).stackId].filter (fun m => m != x.stackId && x.memberPresent m)) = [] := by
      intro x hx
      simp [hx]
    have hstk := writeBase_stackId (s.at t) q o
    unfold Dev.writeBase at hstk ⊢
    unfold Dev.commitWrite
    simp only [h1, if_false, Dev.almUpd_stackId] at hstk ⊢
    rw [hself _ hstk]
    have hct : [(s.at t).stackId].contains (s.at t).stackId = true := by simp
    simp only [Dev.applyUnits, hu, h2, if_false, hstk, hct]
    rfl
  simp only [State.write, State.cmd]
  rw [show (s.dev.advance t).catchUp = s.at t from rfl, hs, hw, hcw]
  simp [hc]

/-- An answer leaves an activation and a state command aside. -/
theorem afterReply_other (b : Bytes) (h1 : ¬ (recIndex b = 0xB810 ∧ recSub b = 0x0B)) (h2 : ¬ (recIndex b = 0xA000 ∧ recSub b = 0x01)) : d.afterReply b = d := by
  unfold Dev.afterReply
  split
  · next e1 e2 => exact absurd ⟨e1, e2⟩ h1
  · next e1 e2 => exact absurd ⟨e1, e2⟩ h2
  · rfl

/-- What a write that passes its checks leaves: every object as its effect leaves it, and every part of the device but the service's. -/
theorem write_effect (s : State) (t : Nat) (q : Request) (o : ObjRow) (k : WriteKind) (u : Nat) (h : (s.at t).takesWrite q o k u = true)
    (h1 : recIndex q.bytes ≠ 0x1040) (h2 : recIndex q.bytes ≠ 0x1020)
    (h3 : ¬ (recIndex q.bytes = 0xB810 ∧ recSub q.bytes = 0x0B)) (h4 : ¬ (recIndex q.bytes = 0xA000 ∧ recSub q.bytes = 0x01)) :
    let a := ((s.at t).writeBase q o).apply (recIndex q.bytes) (recSub q.bytes) u (recRecord q.bytes) (beNat (recData q.bytes))
    ∃ x, s.write t k = .next { s with dev := s.close x } ∧ x.LeftBy q a := by
  intro a
  refine ⟨_, write_taken s t q o k u h h1 h2, ?_⟩
  unfold Dev.tryFinish
  rw [afterReply_other _ _ h3 h4]
  split
  · cases ho : q.origin with
    | some m =>
      have g := sent_reply a q 0 [] (by simp [ho])
      refine ⟨fun i s' u' r' hi hs' hc => g.obj i s' u' r' hi hs' (by simpa [Request.answerField, ho] using hc),
        congrArg (fun x : Dev => { x with alm := {}, chans := [], fab := {} }) g.rest,
        fun _ => ?_, fun hq => by rw [ho] at hq; exact absurd hq (by simp)⟩
      have e1 := congrArg Dev.chans g.rest
      have e2 := congrArg Dev.fab g.rest
      exact ⟨e1, e2⟩
    | none =>
      have g : a.Answered (a.reply q 0).served := (answered_reply a q 0 [] ho).trans (served_alm _ _).answered
      have gs : ((q.svc != .can && q.svc != .udp) = true) → a.Served (a.reply q 0).served :=
        fun hq => (served_reply a q 0 [] (by simp [ho, hq])).trans (served_alm _ _)
      refine ⟨fun i s' u' r' hi hs' hc => ?_, congrArg (fun x : Dev => { x with ev := {}, outbox := [], alm := {}, bin := {} }) g.rest, fun hq => ?_,
        fun _ => ?_⟩
      · by_cases hq : (q.svc != .can && q.svc != .udp) = true
        · exact (gs hq).obj i s' u' r'
        · have hn : ¬ (i = 0x6020 ∨ i = 0x6030) := by
            intro hx
            simp only [Request.answerField, ho] at hc
            rcases hx with rfl | rfl <;> cases hv : q.svc <;> simp_all
          exact g.obj i s' u' r' hi hs' (fun hx => hn (.inl hx)) (fun hx => hn (.inr hx))
      · have e := (gs (by simpa [Request.direct, ho] using hq)).rest
        have e1 := congrArg Dev.chans e
        have e2 := congrArg Dev.fab e
        exact ⟨e1, e2⟩
      · have e := congrArg Dev.bin g.rest
        exact e
  · exact ⟨fun _ _ _ _ _ _ _ => rfl, rfl, fun _ => ⟨rfl, rfl⟩, fun _ => rfl⟩

end Sys2Proof.Machine
end

