-- ==== Sys2Proof/Laws/Commands.lean ====
section
/-! SUPPORT. How a command of the CORE domain runs in a tick, and how its effect is read off. -/
namespace Sys2Proof.Machine

/-- A command that shares its tick with no other finds none waiting in it. -/
theorem State.Alone.tick {s : State} {d : Dev} (h : s.Alone d) {n : Nat} (h1 : 0 < n) (h2 : n ≤ 1250) : s.tick d n = [] := by
  unfold State.tick
  cases hp : s.pending with
  | nil => rfl
  | cons c l =>
    have hc : d.lt + 1250 ≤ Instr.time c - d.ltEpoch := h c (by simp [hp])
    have : d.lt / n + 1 ≤ (Instr.time c - d.ltEpoch) / n := by
      rw [← Nat.add_div_right _ h1]
      exact Nat.div_le_div_right (by omega)
    simp
    omega

/-- A timer that expires alone in its tick acts as any command. -/
theorem timer_alone {s : State} {t : Nat} {d : Dev} (h : s.Tick t d) (ha : s.Alone d) (ok : Bool) (aw : Dev → Instr → Bool) (f : Dev → Dev)
    {n : Nat} (h1 : 0 < n) (h2 : n ≤ 1250) : s.timer t ok aw f n = s.cmd t ok f := by
  obtain ⟨e, -⟩ := h
  have e' : (s.dev.advance t).catchUp = d := e
  unfold State.timer State.cmd
  simp only [e', ha.tick h1 h2, List.any_nil]
  simp

/-- A timer of the always-on domain that expires alone in its tick acts as any command of it. -/
theorem aonTimer_alone {s : State} {t : Nat} {d : Dev} (e : s.at t = d) (ha : s.Alone d) (ok : Bool) (aw : Dev → Instr → Bool) (f : Dev → Dev)
    {n : Nat} (h1 : 0 < n) (h2 : n ≤ 1250) : s.aonTimer t ok aw f n = s.aon t ok f := by
  have e' : (s.dev.advance t).catchUp = d := e
  unfold State.aonTimer State.aon
  simp only [e', ha.tick h1 h2, List.any_nil]
  simp

/-- A command makes the device become its effect. -/
theorem becomes {s : State} {t : Nat} {d x : Dev} {c : Instr} {ok : Bool} {f : Dev → Dev} (h : s.Tick t d)
    (e : exec c s = s.cmd t ok f) (hok : ok = true) (hx : f d = x) : Becomes c s x := by
  obtain ⟨h1, h2⟩ := h
  subst hx
  rw [Becomes, e, hok, State.cmd, show (s.dev.advance t).catchUp = d from h1]
  simp [h2]

/-- A command of the always-on domain makes the device become its effect. -/
theorem becomes_aon {s : State} {t : Nat} {d x : Dev} {c : Instr} {ok : Bool} {f : Dev → Dev} (h1 : s.at t = d) (h2 : d.watch.off = false)
    (e : exec c s = s.aon t ok f) (hok : ok = true) (hx : f d = x) : Becomes c s x := by
  subst hx
  rw [Becomes, e, hok, State.aon, show (s.dev.advance t).catchUp = d from h1]
  simp [h2]

/-- A command completes with its effect. -/
theorem completes {s : State} {t : Nat} {d : Dev} {c : Instr} {ok : Bool} {f : Dev → Dev} {p : Dev → Prop} (h : s.Tick t d)
    (e : exec c s = s.cmd t ok f) (hok : ok = true) (hp : p (f d)) : Completes c s p := by
  obtain ⟨h1, h2⟩ := h
  refine ⟨f d, ?_, hp⟩
  rw [e, hok, State.cmd, show (s.dev.advance t).catchUp = d from h1]
  simp [h2]

/-- A command that serves a write which passes its checks completes with the write's effect. -/
theorem wrote {s : State} {t : Nat} {d : Dev} {q : Request} {o : ObjRow} {k : WriteKind} {u : Nat} {c : Instr} {f : Dev → Dev} (h : s.Tick t d)
    (hw : d.takesWrite q o k u = true) (e : exec c s = s.write t k) (i : Nat) (j : Nat) (hi : recIndex q.bytes = i) (hj : recSub q.bytes = j)
    (h1 : i ≠ 0x1040) (h2 : i ≠ 0x1020) (h3 : ¬ (i = 0xB810 ∧ j = 0x0B)) (h4 : ¬ (i = 0xA000 ∧ j = 0x01))
    (hf : (d.writeBase q o).apply i j u q.record q.value = f (d.writeBase q o)) : Completes c s (d.Wrote q o f) := by
  subst hi hj
  obtain ⟨rfl, -⟩ := h
  obtain ⟨x, hx, hy⟩ := write_effect s t q o k u hw h1 h2 h3 h4
  refine ⟨x, e.trans hx, ?_⟩
  rw [Dev.Wrote, ← hf]
  exact hy

variable (d : Dev)

/-- Fields of the server that an answer leaves alone. -/
def AlmSt.kept (x : AlmSt) : AlmSt := { x with reply := none, replyQueue := [], hsReplies := [], canOut := [] }

@[simp] theorem msix_alm (v : Nat) : (d.msix v).alm = d.alm := by unfold Dev.msix; split <;> simp
@[simp] theorem raise_alm (v : Nat) : (d.raise v).alm = d.alm := by unfold Dev.raise; simp only; split <;> simp
@[simp] theorem signal_alm (v : Nat) : (d.signal v).alm = d.alm := rfl

/-- Emptying a buffer changes nothing of the server. -/
@[simp] theorem bufEmpty_alm (u b r : Nat) : (d.bufEmpty u b r).alm = d.alm := by
  simp [Dev.bufEmpty, Dev.setBuf]

/-- Arming a buffer changes nothing of the server. -/
@[simp] theorem bufArm_alm (u b : Nat) (x : Bool) : (d.bufArm u b x).alm = d.alm := by
  unfold Dev.bufArm
  split
  · split
    · simp
    · rfl
  · rfl

/-- Offering a reply of the CAN service to its buffer changes nothing of the server but the replies that wait. -/
theorem canPut_alm (x : Nat × Nat × Bytes) : (d.canPut x).alm.kept = d.alm.kept := by
  unfold Dev.canPut
  simp only
  split
  · rfl
  · split
    · rfl
    · split
      · rfl
      · simp [Dev.bufFill, Dev.setBuf]

/-- Loading replies of the CAN service takes them from the replies that wait, and nothing else of the server. -/
theorem canPump_alm : d.canPump.alm.kept = d.alm.kept := by
  unfold Dev.canPump
  generalize d.alm.canOut = l
  have h : (d.almUpd fun x => { x with canOut := [] }).alm.kept = d.alm.kept := rfl
  generalize (d.almUpd fun x => { x with canOut := [] }) = e at h
  induction l generalizing e with
  | nil => exact h
  | cons a l ih => exact ih _ ((canPut_alm e a).trans h)

/-- A record that is sent leaves the server's queue, window and lease alone. -/
theorem sendRecord_alm (o : Option Nat) (v : Service) (a : Source) (n : Bool) (b : Bytes) : (d.sendRecord o v a n b).alm.kept = d.alm.kept := by
  unfold Dev.sendRecord
  split
  · next m =>
    have e := congrArg Dev.alm (sent_sendTo d m (.forwardedReply m v a b)).rest
    exact congrArg AlmSt.kept e
  · split
    · unfold Dev.replyPcie
      split
      · simp [AlmSt.kept]
      · simp only
        split <;> simp [AlmSt.kept]
    · simp only
      split <;> simp [AlmSt.kept]
    · rw [canPump_alm]
      simp [AlmSt.kept]
    · split <;> simp [Dev.offerChart]
    · simp

/-- An answer leaves the server's queue, window and lease alone. -/
theorem reply_alm (q : Request) (c : Nat) (b : Bytes) : (d.reply q c b).alm.kept = d.alm.kept := by
  unfold Dev.reply
  generalize segments q.bytes c q.room b.length b = l
  induction l generalizing d with
  | nil => rfl
  | cons a l ih => exact (ih _).trans (sendRecord_alm d _ _ _ _ _)

/-- The request in service leaves the queue with its answer. -/
theorem finish_alm (c : Nat) (b : Bytes) (h : d.alm.queue ≠ []) : (d.finish c b).alm.kept = ({ d.alm with queue := d.alm.queue.drop 1, waiting := false, stackWrite := none } : AlmSt).kept := by
  unfold Dev.finish
  split
  · next q l e =>
    have q1 := congrArg (fun x : AlmSt => ({ x with queue := x.queue.drop 1, waiting := false, stackWrite := none } : AlmSt)) (reply_alm d q c b)
    simpa [Dev.served, AlmSt.kept] using q1
  · next e => exact absurd e h

/-- The server takes the request that it serves. -/
theorem serve_serves {d : Dev} {q : Request} (h : d.serves q = true) (test : Bytes → Bool) (f : Dev → Request → Dev) (ht : test q.bytes = true) :
    d.serve test f = f (d.countRequest q) q := by
  simp only [Dev.serves, Bool.and_eq_true, beq_iff_eq, Bool.not_eq_true'] at h
  obtain ⟨⟨⟨⟨-, h1⟩, h2⟩, h3⟩, h4⟩ := h
  unfold Dev.serve
  simp only [h1, ht, h2, h3, h4]
  simp

end Sys2Proof.Machine
end

