-- ==== Sys2Proof/Laws/Host.lean ====
section
/-! SUPPORT. The message FIFOs: reads after writes, and what settling a FIFO keeps. -/
namespace Sys2Proof.Machine

variable (d : Dev)

/-- A FIFO just replaced. -/
@[simp] theorem fifo_setFifo_same (f : Nat) (x : Fifo) : (d.setFifo f x).fifo f = x := by simp [Dev.fifo]
/-- Replacing a FIFO leaves the others. -/
theorem fifo_setFifo_ne (f g : Nat) (x : Fifo) (h : g ≠ f) : (d.setFifo f x).fifo g = d.fifo g := by simp [Dev.fifo, tget_tput_ne _ _ _ _ _ h]
/-- The last of two replacements counts. -/
@[simp] theorem setFifo_setFifo (f : Nat) (x y : Fifo) : (d.setFifo f x).setFifo f y = d.setFifo f y := by simp [Dev.setFifo]
/-- An object is no FIFO. -/
@[simp] theorem fifo_set (i s v u r f : Nat) : (d.set i s v u r).fifo f = d.fifo f := rfl
/-- A count is no FIFO. -/
@[simp] theorem fifo_inc (i s u r n f : Nat) : (d.inc i s u r n).fifo f = d.fifo f := rfl
/-- A count is no FIFO. -/
@[simp] theorem fifo_inc64 (i s u r n f : Nat) : (d.inc64 i s u r n).fifo f = d.fifo f := rfl
/-- What is sent is no FIFO. -/
@[simp] theorem fifo_out (o : Out) (f : Nat) : (d.out o).fifo f = d.fifo f := rfl

/-- Raising a peak changes no event register. -/
@[simp] theorem peak_ev (i s v u r : Nat) : (d.peak i s v u r).ev = d.ev := by unfold Dev.peak; split <;> rfl
/-- The arrival of a vector's source raises no event. -/
@[simp] theorem signal_bus (v : Nat) : (d.signal v).ev.bus = d.ev.bus := rfl
/-- The arrival of a vector's source is no FIFO. -/
@[simp] theorem signal_fifo (v f : Nat) : (d.signal v).fifo f = d.fifo f := rfl
/-- The arrival of a vector's source changes no object. -/
@[simp] theorem signal_obj (v i s u r : Nat) : (d.signal v).obj i s u r = d.obj i s u r := rfl
/-- Raising a cause raises no event. -/
@[simp] theorem raise_bus (v : Nat) : (d.raise v).ev.bus = d.ev.bus := (kept_raise d v).bus.1

/-- Settling a FIFO raises no event. -/
@[simp] theorem fifoSettle_bus (o : Dev) (f : Nat) : (d.fifoSettle o f).ev.bus = d.ev.bus := by
  unfold Dev.fifoSettle
  simp only
  split <;> simp [Dev.fifoCause]

/-- Raising a peak leaves every other field. -/
theorem obj_peak_field {i s v u r i' s' u' r' : Nat} (hs : s < 256) (hi : i < 65536) (hs' : s' < 256) (hi' : i' < 65536)
    (h : ¬ (i' = i ∧ s' = s)) : (d.peak i s v u r).obj i' s' u' r' = d.obj i' s' u' r' := by
  unfold Dev.peak
  split
  · exact obj_set_field d hs hi hs' hi' h
  · rfl

/-- Raising a peak changes no FIFO. -/
@[simp] theorem peak_fifo (i s v u r f : Nat) : (d.peak i s v u r).fifo f = d.fifo f := by unfold Dev.peak; split <;> rfl

/-- Raising a cause changes no FIFO. -/
@[simp] theorem raise_fifo (v f : Nat) : (d.raise v).fifo f = d.fifo f := by
  have q := congrArg Dev.fifos (kept_raise d v).quiet
  have h : (d.raise v).fifos = d.fifos := q
  simp [Dev.fifo, h]

/-- Raising a cause changes no object but those of a delivery. -/
theorem raise_obj {i s : Nat} (v u r : Nat) (hi : i < 65536) (hs : s < 256) (h : deliveryField i s = false) : (d.raise v).obj i s u r = d.obj i s u r :=
  (kept_raise d v).obj i s u r hi hs h

/-- Settling a FIFO changes its coalescing timer alone. -/
theorem fifoSettle_fifo (o : Dev) (f : Nat) : ∃ x, (d.fifoSettle o f).fifo f = { d.fifo f with timer := x } := by
  unfold Dev.fifoSettle
  simp only
  split <;> simp [Dev.fifoCause]

/-- Settling a FIFO changes no object but its peak and its count of causes. -/
theorem fifoSettle_obj (o : Dev) {f i s : Nat} (u r : Nat) (hi : i < 65536) (hs : s < 256)
    (h2 : ¬ (i = 0x9010 ∧ (s = 0x0A ∨ s = 0x12))) : (d.fifoSettle o f).obj i s u r = d.obj i s u r := by
  unfold Dev.fifoSettle
  simp only
  split
  · rw [Dev.fifoCause, obj_inc_field _ (by omega) (by omega) hs hi (by omega), signal_obj, Dev.setFifo_obj,
      obj_peak_field _ (by omega) (by omega) hs hi (by omega)]
  · rw [Dev.setFifo_obj, obj_peak_field _ (by omega) (by omega) hs hi (by omega)]

/-! The function's power state, and nothing else, is what an access of the host changes. -/

@[simp] theorem inD0_store (d : Dev) : d.inD0.store = d.store := by unfold Dev.inD0; split <;> rfl
@[simp] theorem inD0_fifos (d : Dev) : d.inD0.fifos = d.fifos := by unfold Dev.inD0; split <;> rfl
@[simp] theorem inD0_alm (d : Dev) : d.inD0.alm = d.alm := by unfold Dev.inD0; split <;> rfl
@[simp] theorem inD0_now (d : Dev) : d.inD0.now = d.now := by unfold Dev.inD0; split <;> rfl
@[simp] theorem inD0_outbox (d : Dev) : d.inD0.outbox = d.outbox := by unfold Dev.inD0; split <;> rfl
@[simp] theorem inD0_obj (d : Dev) (i s u r : Nat) : d.inD0.obj i s u r = d.obj i s u r := by simp [Dev.obj]
@[simp] theorem inD0_flag (d : Dev) (i s u r : Nat) : d.inD0.flag i s u r = d.flag i s u r := by simp [Dev.flag]
@[simp] theorem inD0_fifo (d : Dev) (f : Nat) : d.inD0.fifo f = d.fifo f := by simp [Dev.fifo]
@[simp] theorem inD0_fifoOn (d : Dev) (f : Nat) : d.inD0.fifoOn f = d.fifoOn f := by simp [Dev.fifoOn]
@[simp] theorem inD0_fifoToHost (d : Dev) (f : Nat) : d.inD0.fifoToHost f = d.fifoToHost f := by simp [Dev.fifoToHost]
@[simp] theorem inD0_fifoFree (d : Dev) (f : Nat) : d.inD0.fifoFree f = d.fifoFree f := by simp [Dev.fifoFree]
theorem inD0_of_d0 (d : Dev) (h : d.ev.d3hot = false) : d.inD0 = d := by simp [Dev.inD0, h]

end Sys2Proof.Machine
end

