-- ==== Sys2Proof/Laws/PerInstr.lean ====
section
/-! SUPPORT. What holds of every command as syntax, one lemma for each constructor. -/
namespace Sys2Proof.Laws.Timed

/-- A command at another time. -/
noncomputable def retime (t : Nat) : Instr → Instr
  | .almDoorbell _ len req => .almDoorbell t len req
  | .almAck _ => .almAck t
  | .hsRequest _ req => .hsRequest t req
  | .hsReplyFetch _ => .hsReplyFetch t
  | .hsEventCauseRead _ => .hsEventCauseRead t
  | .hsEventCauseClear _ mask => .hsEventCauseClear t mask
  | .hsMaskWrite _ mask => .hsMaskWrite t mask
  | .hsMaskRead _ => .hsMaskRead t
  | .hsUnknownCommand _ cmd => .hsUnknownCommand t cmd
  | .udpRequest _ src req => .udpRequest t src req
  | .canServiceRequest _ ch ident req => .canServiceRequest t ch ident req
  | .stackForwardedRequest _ origin svc src req => .stackForwardedRequest t origin svc src req
  | .read _ members lost => .read t members lost
  | .write _ lost => .write t lost
  | .claim _ => .claim t
  | .electionWindowClose _ => .electionWindowClose t
  | .renew _ => .renew t
  | .release _ => .release t
  | .handover _ => .handover t
  | .leaseExpiry _ => .leaseExpiry t
  | .eventBusEvent _ ev => .eventBusEvent t ev
  | .eventCauseClear _ mask arriving => .eventCauseClear t mask arriving
  | .hsMaskBarWrite _ mask => .hsMaskBarWrite t mask
  | .msixUnmask _ entry => .msixUnmask t entry
  | .barIgnoredWrite _ bar offset => .barIgnoredWrite t bar offset
  | .pcieLinkUp _ speed width => .pcieLinkUp t speed width
  | .pcieLinkDown _ => .pcieLinkDown t
  | .functionLevelReset _ => .functionLevelReset t
  | .d3hotEntry _ => .d3hotEntry t
  | .fifoHeadWrite _ f item => .fifoHeadWrite t f item
  | .fifoDataWrite _ f items => .fifoDataWrite t f items
  | .fifoEndWrite _ f item => .fifoEndWrite t f item
  | .fifoPopRead _ f read bad => .fifoPopRead t f read bad
  | .fifoFlushWrite _ f => .fifoFlushWrite t f
  | .fifoFlushTakesEffect _ f => .fifoFlushTakesEffect t f
  | .fifoPacketToHost _ => .fifoPacketToHost t
  | .fifoCoalescingExpiry _ f => .fifoCoalescingExpiry t f
  | .fifoPacketFromHost _ bad => .fifoPacketFromHost t bad
  | .syncReceived _ m => .syncReceived t m
  | .followUpReceived _ m => .followUpReceived t m
  | .announceReceived _ m => .announceReceived t m
  | .syncReceiptTimeout _ dom => .syncReceiptTimeout t dom
  | .announceReceiptTimeout _ dom => .announceReceiptTimeout t dom
  | .blendEnd _ => .blendEnd t
  | .revertHoldOffExpiry _ => .revertHoldOffExpiry t
  | .holdoverLimitExpiry _ => .holdoverLimitExpiry t
  | .domainEnable _ => .domainEnable t
  | .zoneSyncInterval _ => .zoneSyncInterval t
  | .announceInterval _ => .announceInterval t
  | .pdelayInterval _ port => .pdelayInterval t port
  | .pdelayReqReceived _ port seq => .pdelayReqReceived t port seq
  | .pdelayRespReceived _ port seq t2 t3 => .pdelayRespReceived t port seq t2 t3
  | .snapshot _ => .snapshot t
  | .ppsOutEdge _ pin => .ppsOutEdge t pin
  | .ppsOutPulseEnd _ pin => .ppsOutPulseEnd t pin
  | .ppsInEdge _ rising => .ppsInEdge t rising
  | .plotterEntryFire _ leg => .plotterEntryFire t leg
  | .legEnable _ => .legEnable t
  | .legStart _ leg => .legStart t leg
  | .swapRequest _ => .swapRequest t
  | .swapTakesEffect _ leg => .swapTakesEffect t leg
  | .phaseEnable _ => .phaseEnable t
  | .toothEdge _ rising lasted => .toothEdge t rising lasted
  | .phaseStopTimeout _ => .phaseStopTimeout t
  | .ethFrameFirstCell _ port fr => .ethFrameFirstCell t port fr
  | .ethFrameEnd _ port preemptible fragments e => .ethFrameEnd t port preemptible fragments e
  | .macControlReceived _ port data => .macControlReceived t port data
  | .pauseExpiry _ port queue => .pauseExpiry t port queue
  | .xoffResendTimer _ port => .xoffResendTimer t port
  | .fabricMatch _ c => .fabricMatch t c
  | .mirrorRecord _ behind => .mirrorRecord t behind
  | .transmitStart _ port preemptible => .transmitStart t port preemptible
  | .transmitUnderrun _ port preemptible => .transmitUnderrun t port preemptible
  | .frameTransmitEnd _ port preemptible => .frameTransmitEnd t port preemptible
  | .linkUp _ port rate half word => .linkUp t port rate half word
  | .linkDown _ port loss => .linkDown t port loss
  | .flushComplete _ port => .flushComplete t port
  | .holdDownExpiry _ port => .holdDownExpiry t port
  | .portEnable _ => .portEnable t
  | .peakReset _ => .peakReset t
  | .verifyMpacketTimer _ port => .verifyMpacketTimer t port
  | .respondMpacketReceived _ port => .respondMpacketReceived t port
  | .verifyMpacketReceived _ port => .verifyMpacketReceived t port
  | .thresholdDecay _ port => .thresholdDecay t port
  | .thresholdReset _ => .thresholdReset t
  | .plcaCycleStart _ port => .plcaCycleStart t port
  | .beaconReceived _ port reversed => .beaconReceived t port reversed
  | .beaconTimeout _ port => .beaconTimeout t port
  | .plcaCollision _ port => .plcaCollision t port
  | .csmaCollision _ port late => .csmaCollision t port late
  | .backoffExpiry _ port => .backoffExpiry t port
  | .lineFaultDeclare _ port f => .lineFaultDeclare t port f
  | .lineFaultClear _ port f => .lineFaultClear t port f
  | .cableTestStart _ => .cableTestStart t
  | .cableTestComplete _ port result distance => .cableTestComplete t port result distance
  | .learnEngineInsert _ => .learnEngineInsert t
  | .ageingScan _ n => .ageingScan t n
  | .stashDrain _ => .stashDrain t
  | .chartFlushByPort _ => .chartFlushByPort t
  | .chartFlushByFid _ => .chartFlushByFid t
  | .chartFlushComplete _ byFid => .chartFlushComplete t byFid
  | .learnMessageReceived _ sender key dest stamp => .learnMessageReceived t sender key dest stamp
  | .removalMessageReceived _ key => .removalMessageReceived t key
  | .unlockAll _ => .unlockAll t
  | .staticEntryEnable _ => .staticEntryEnable t
  | .seedWrite _ => .seedWrite t
  | .ruleEnable _ => .ruleEnable t
  | .learningEnable _ => .learningEnable t
  | .portNodeEnable _ => .portNodeEnable t
  | .policerMode _ => .policerMode t
  | .samplerVisit _ subscriber queue => .samplerVisit t subscriber queue
  | .histogramClear _ => .histogramClear t
  | .canEnable _ => .canEnable t
  | .canStop _ => .canStop t
  | .canStopComplete _ ch => .canStopComplete t ch
  | .canIntegrationComplete _ ch => .canIntegrationComplete t ch
  | .canFrameReceived _ ch frame age => .canFrameReceived t ch frame age
  | .canFrameStart _ ch bad delay => .canFrameStart t ch bad delay
  | .canAttemptEnd _ ch ok => .canAttemptEnd t ch ok
  | .canArbitrationLost _ ch => .canArbitrationLost t ch
  | .canBusError _ ch e => .canBusError t ch e
  | .protocolException _ ch => .protocolException t ch
  | .busOffRecovery _ ch => .busOffRecovery t ch
  | .canBufferCancel _ => .canBufferCancel t
  | .timeMasterEnable _ => .timeMasterEnable t
  | .transceiverSettlingEnd _ unit => .transceiverSettlingEnd t unit
  | .linStop _ => .linStop t
  | .linTableRequest _ => .linTableRequest t
  | .linSlotStart _ ch => .linSlotStart t ch
  | .linHeaderReceived _ ch pid head => .linHeaderReceived t ch pid head
  | .linResponseSend _ ch differs => .linResponseSend t ch differs
  | .linFrameComplete _ ch data check => .linFrameComplete t ch data check
  | .linFrameTimeLimit _ ch started => .linFrameTimeLimit t ch started
  | .linWakeSignalReceived _ ch => .linWakeSignalReceived t ch
  | .transceiverScriptRequest _ => .transceiverScriptRequest t
  | .transceiverScriptComplete _ reads => .transceiverScriptComplete t reads
  | .wakeInputWake _ input level => .wakeInputWake t input level
  | .wakeInputTestStart _ input => .wakeInputTestStart t input
  | .wakeInputTestEnd _ input test => .wakeInputTestEnd t input test
  | .wakeInputStuck _ input => .wakeInputStuck t input
  | .rosePduJob job => .rosePduJob { job with time := t }
  | .roseUnpackJob _ => .roseUnpackJob t
  | .roseEmissionJob _ => .roseEmissionJob t
  | .containerCollectionExpiry _ => .containerCollectionExpiry t
  | .deferredChangeRelease _ => .deferredChangeRelease t
  | .freshnessExpiry _ signal => .freshnessExpiry t signal
  | .definitionEnable _ => .definitionEnable t
  | .signalEnable _ => .signalEnable t
  | .routeEnable _ => .routeEnable t
  | .containerEnable _ => .containerEnable t
  | .stackLinkLock _ k => .stackLinkLock t k
  | .stackLinkLockLoss _ k => .stackLinkLockLoss t k
  | .helloSend _ => .helloSend t
  | .helloReceived _ k h => .helloReceived t k h
  | .helloTimeout _ k => .helloTimeout t k
  | .rejoinComplete _ member refusals => .rejoinComplete t member refusals
  | .memberAdmit _ => .memberAdmit t
  | .stackWriteCheck _ svc req => .stackWriteCheck t svc req
  | .stackWriteCommit _ c req => .stackWriteCommit t c req
  | .ownershipStateMessage _ o => .ownershipStateMessage t o
  | .timeMessageSend _ => .timeMessageSend t
  | .timeMessageReceived _ k m => .timeMessageReceived t k m
  | .timeMessageLoss _ => .timeMessageLoss t
  | .linkDelayRoundTrip _ k trip => .linkDelayRoundTrip t k trip
  | .pathChangeHoldEnd _ member => .pathChangeHoldEnd t member
  | .bridgePostedWriteIssue _ pair target tag addr data done => .bridgePostedWriteIssue t pair target tag addr data done
  | .bridgeReadIssue _ pair target tag addr len => .bridgeReadIssue t pair target tag addr len
  | .bridgeRequestExecute _ type source pair tag addr len status data => .bridgeRequestExecute t type source pair tag addr len status data
  | .bridgeReadCompletion _ source tag status data => .bridgeReadCompletion t source tag status data
  | .bridgeWriteErrorReport _ source tag status => .bridgeWriteErrorReport t source tag status
  | .bridgeReadTimeout _ pair => .bridgeReadTimeout t pair
  | .bridgeLogClear _ => .bridgeLogClear t
  | .nmPduReceived _ unit ident data => .nmPduReceived t unit ident data
  | .readySleepExpiry _ unit => .readySleepExpiry t unit
  | .nmCycle _ unit => .nmCycle t unit
  | .lastCallNotSent _ unit busy => .lastCallNotSent t unit busy
  | .lastCallWindowClose _ unit busy => .lastCallWindowClose t unit busy
  | .busWake _ unit => .busWake t unit
  | .maxAwakeExceeded _ unit => .maxAwakeExceeded t unit
  | .hostNeed _ => .hostNeed t
  | .managementSwitch _ => .managementSwitch t
  | .clearIgnoreList _ => .clearIgnoreList t
  | .stateCommandWatch _ => .stateCommandWatch t
  | .stateCommandStandby _ => .stateCommandStandby t
  | .stateCommandPartial _ => .stateCommandPartial t
  | .stateCommandRun _ => .stateCommandRun t
  | .powerDomainRampEnd _ => .powerDomainRampEnd t
  | .acknowledgeTimeExpiry _ => .acknowledgeTimeExpiry t
  | .runReqRise _ => .runReqRise t
  | .runReqFall _ => .runReqFall t
  | .vaonPowerOn _ => .vaonPowerOn t
  | .vaonRemoval _ => .vaonRemoval t
  | .mainPgRise _ => .mainPgRise t
  | .brownout _ => .brownout t
  | .referenceValid _ => .referenceValid t
  | .corePllsLocked _ => .corePllsLocked t
  | .referenceLoss _ => .referenceLoss t
  | .resetNAssert _ => .resetNAssert t
  | .coreResetRelease _ root env => .coreResetRelease t root env
  | .rootReadRetry _ ok env => .rootReadRetry t ok env
  | .identityKeyReady _ => .identityKeyReady t
  | .droopThresholdCrossing _ step => .droopThresholdCrossing t step
  | .droopStepRecovery _ => .droopStepRecovery t
  | .lockstepMismatch _ pair => .lockstepMismatch t pair
  | .pairRestartComplete _ pair => .pairRestartComplete t pair
  | .importBlobSet _ => .importBlobSet t
  | .importBlobErase _ => .importBlobErase t
  | .importBlobSetInClear _ => .importBlobSetInClear t
  | .discardStaging _ => .discardStaging t
  | .keyStoreCommit _ => .keyStoreCommit t
  | .keyStoreCommitEnd _ ok => .keyStoreCommitEnd t ok
  | .attestationChallenge _ => .attestationChallenge t
  | .identitySignRequest _ => .identitySignRequest t
  | .slotDerive _ => .slotDerive t
  | .randomHealthFailure _ => .randomHealthFailure t
  | .macsecSaEnable _ => .macsecSaEnable t
  | .activeAnWrite _ => .activeAnWrite t
  | .macsecEnable _ => .macsecEnable t
  | .transferStartFirmware _ => .transferStartFirmware t
  | .transferStartAlmanac _ => .transferStartAlmanac t
  | .blockQuarterWrite _ => .blockQuarterWrite t
  | .blockCheckValue _ => .blockCheckValue t
  | .transferVerifyComplete _ => .transferVerifyComplete t
  | .transferActivate _ => .transferActivate t
  | .transferAbandon _ => .transferAbandon t
  | .trialMinute _ => .trialMinute t
  | .healthConditionsHeld _ => .healthConditionsHeld t
  | .confirmWrite _ => .confirmWrite t
  | .correctedWriteback _ mem line superseded => .correctedWriteback t mem line superseded
  | .mergeEntryRetire _ mem line full r => .mergeEntryRetire t mem line full r
  | .patrolRead _ mem r => .patrolRead t mem r
  | .clearCorrectionTable _ => .clearCorrectionTable t
  | .softwareScrubStart _ => .softwareScrubStart t
  | .softwareScrubComplete _ reads => .softwareScrubComplete t reads
  | .testWindowOpen _ => .testWindowOpen t
  | .rawWrite _ => .rawWrite t
  | .rawRead _ => .rawRead t
  | .decodeRead _ => .decodeRead t
  | .soundingStart _ mem => .soundingStart t mem
  | .soundingBlockEnd _ mem block test => .soundingBlockEnd t mem block test
  | .saveBufferRelease _ mem => .saveBufferRelease t mem
  | .startupSoundingComplete _ tests => .startupSoundingComplete t tests
  | .replayStart _ => .replayStart t
  | .replayFrameSend _ => .replayFrameSend t
  | .wakeInputRelease _ input held => .wakeInputRelease t input held
  | .vbatsenseSample _ mv => .vbatsenseSample t mv
  | .forwardedReplyReceived _ svc src rec => .forwardedReplyReceived t svc src rec
  | .memberAnswerReceived _ member commit status path => .memberAnswerReceived t member commit status path

/-- What the operands of a command name does not depend on when it comes, and a command comes when its time says. -/
def Statement (i : Instr) : Prop := ∀ t : Nat, (retime t i).wf = i.wf ∧ Machine.Instr.time (retime t i) = t

theorem almDoorbell (t : Nat) (len : Nat) (req : Bytes) : Statement (.almDoorbell t len req) := fun _ => ⟨rfl, rfl⟩
theorem almAck (t : Nat) : Statement (.almAck t) := fun _ => ⟨rfl, rfl⟩
theorem hsRequest (t : Nat) (req : Bytes) : Statement (.hsRequest t req) := fun _ => ⟨rfl, rfl⟩
theorem hsReplyFetch (t : Nat) : Statement (.hsReplyFetch t) := fun _ => ⟨rfl, rfl⟩
theorem hsEventCauseRead (t : Nat) : Statement (.hsEventCauseRead t) := fun _ => ⟨rfl, rfl⟩
theorem hsEventCauseClear (t : Nat) (mask : BitVec 64) : Statement (.hsEventCauseClear t mask) := fun _ => ⟨rfl, rfl⟩
theorem hsMaskWrite (t : Nat) (mask : BitVec 64) : Statement (.hsMaskWrite t mask) := fun _ => ⟨rfl, rfl⟩
theorem hsMaskRead (t : Nat) : Statement (.hsMaskRead t) := fun _ => ⟨rfl, rfl⟩
theorem hsUnknownCommand (t : Nat) (cmd : HsUnknown) : Statement (.hsUnknownCommand t cmd) := fun _ => ⟨rfl, rfl⟩
theorem udpRequest (t : Nat) (src : UdpEnd) (req : Bytes) : Statement (.udpRequest t src req) := fun _ => ⟨rfl, rfl⟩
theorem canServiceRequest (t : Nat) (ch : Nat) (ident : Nat) (req : Bytes) : Statement (.canServiceRequest t ch ident req) := fun _ => ⟨rfl, rfl⟩
theorem stackForwardedRequest (t : Nat) (origin : Forwarded) (svc : Service) (src : Source) (req : Bytes) : Statement (.stackForwardedRequest t origin svc src req) := fun _ => ⟨rfl, rfl⟩
theorem read (t : Nat) (members : List MemberRead) (lost : Bool) : Statement (.read t members lost) := fun _ => ⟨rfl, rfl⟩
theorem write (t : Nat) (lost : Bool) : Statement (.write t lost) := fun _ => ⟨rfl, rfl⟩
theorem claim (t : Nat) : Statement (.claim t) := fun _ => ⟨rfl, rfl⟩
theorem electionWindowClose (t : Nat) : Statement (.electionWindowClose t) := fun _ => ⟨rfl, rfl⟩
theorem renew (t : Nat) : Statement (.renew t) := fun _ => ⟨rfl, rfl⟩
theorem release (t : Nat) : Statement (.release t) := fun _ => ⟨rfl, rfl⟩
theorem handover (t : Nat) : Statement (.handover t) := fun _ => ⟨rfl, rfl⟩
theorem leaseExpiry (t : Nat) : Statement (.leaseExpiry t) := fun _ => ⟨rfl, rfl⟩
theorem eventBusEvent (t : Nat) (ev : ExtEvent) : Statement (.eventBusEvent t ev) := fun _ => ⟨rfl, rfl⟩
theorem eventCauseClear (t : Nat) (mask arriving : BitVec 64) : Statement (.eventCauseClear t mask arriving) := fun _ => ⟨rfl, rfl⟩
theorem hsMaskBarWrite (t : Nat) (mask : BitVec 64) : Statement (.hsMaskBarWrite t mask) := fun _ => ⟨rfl, rfl⟩
theorem msixUnmask (t : Nat) (entry : MsixEntry) : Statement (.msixUnmask t entry) := fun _ => ⟨rfl, rfl⟩
theorem barIgnoredWrite (t : Nat) (bar offset : Nat) : Statement (.barIgnoredWrite t bar offset) := fun _ => ⟨rfl, rfl⟩
theorem pcieLinkUp (t : Nat) (speed width : Nat) : Statement (.pcieLinkUp t speed width) := fun _ => ⟨rfl, rfl⟩
theorem pcieLinkDown (t : Nat) : Statement (.pcieLinkDown t) := fun _ => ⟨rfl, rfl⟩
theorem functionLevelReset (t : Nat) : Statement (.functionLevelReset t) := fun _ => ⟨rfl, rfl⟩
theorem d3hotEntry (t : Nat) : Statement (.d3hotEntry t) := fun _ => ⟨rfl, rfl⟩
theorem fifoHeadWrite (t : Nat) (f : Nat) (item : BitVec 64) : Statement (.fifoHeadWrite t f item) := fun _ => ⟨rfl, rfl⟩
theorem fifoDataWrite (t : Nat) (f : Nat) (items : List (BitVec 64)) : Statement (.fifoDataWrite t f items) := fun _ => ⟨rfl, rfl⟩
theorem fifoEndWrite (t : Nat) (f : Nat) (item : BitVec 64) : Statement (.fifoEndWrite t f item) := fun _ => ⟨rfl, rfl⟩
theorem fifoPopRead (t : Nat) (f : Nat) (read : PopRead) (bad : List Nat) : Statement (.fifoPopRead t f read bad) := fun _ => ⟨rfl, rfl⟩
theorem fifoFlushWrite (t : Nat) (f : Nat) : Statement (.fifoFlushWrite t f) := fun _ => ⟨rfl, rfl⟩
theorem fifoFlushTakesEffect (t : Nat) (f : Nat) : Statement (.fifoFlushTakesEffect t f) := fun _ => ⟨rfl, rfl⟩
theorem fifoPacketToHost (t : Nat) : Statement (.fifoPacketToHost t) := fun _ => ⟨rfl, rfl⟩
theorem fifoCoalescingExpiry (t : Nat) (f : Nat) : Statement (.fifoCoalescingExpiry t f) := fun _ => ⟨rfl, rfl⟩
theorem fifoPacketFromHost (t : Nat) (bad : Nat) : Statement (.fifoPacketFromHost t bad) := fun _ => ⟨rfl, rfl⟩
theorem syncReceived (t : Nat) (m : PtpMsg) : Statement (.syncReceived t m) := fun _ => ⟨rfl, rfl⟩
theorem followUpReceived (t : Nat) (m : PtpMsg) : Statement (.followUpReceived t m) := fun _ => ⟨rfl, rfl⟩
theorem announceReceived (t : Nat) (m : PtpMsg) : Statement (.announceReceived t m) := fun _ => ⟨rfl, rfl⟩
theorem syncReceiptTimeout (t : Nat) (dom : Nat) : Statement (.syncReceiptTimeout t dom) := fun _ => ⟨rfl, rfl⟩
theorem announceReceiptTimeout (t : Nat) (dom : Nat) : Statement (.announceReceiptTimeout t dom) := fun _ => ⟨rfl, rfl⟩
theorem blendEnd (t : Nat) : Statement (.blendEnd t) := fun _ => ⟨rfl, rfl⟩
theorem revertHoldOffExpiry (t : Nat) : Statement (.revertHoldOffExpiry t) := fun _ => ⟨rfl, rfl⟩
theorem holdoverLimitExpiry (t : Nat) : Statement (.holdoverLimitExpiry t) := fun _ => ⟨rfl, rfl⟩
theorem domainEnable (t : Nat) : Statement (.domainEnable t) := fun _ => ⟨rfl, rfl⟩
theorem zoneSyncInterval (t : Nat) : Statement (.zoneSyncInterval t) := fun _ => ⟨rfl, rfl⟩
theorem announceInterval (t : Nat) : Statement (.announceInterval t) := fun _ => ⟨rfl, rfl⟩
theorem pdelayInterval (t : Nat) (port : Nat) : Statement (.pdelayInterval t port) := fun _ => ⟨rfl, rfl⟩
theorem pdelayReqReceived (t : Nat) (port seq : Nat) : Statement (.pdelayReqReceived t port seq) := fun _ => ⟨rfl, rfl⟩
theorem pdelayRespReceived (t : Nat) (port seq : Nat) (t2 t3 : Nat) : Statement (.pdelayRespReceived t port seq t2 t3) := fun _ => ⟨rfl, rfl⟩
theorem snapshot (t : Nat) : Statement (.snapshot t) := fun _ => ⟨rfl, rfl⟩
theorem ppsOutEdge (t : Nat) (pin : Nat) : Statement (.ppsOutEdge t pin) := fun _ => ⟨rfl, rfl⟩
theorem ppsOutPulseEnd (t : Nat) (pin : Nat) : Statement (.ppsOutPulseEnd t pin) := fun _ => ⟨rfl, rfl⟩
theorem ppsInEdge (t : Nat) (rising : Bool) : Statement (.ppsInEdge t rising) := fun _ => ⟨rfl, rfl⟩
theorem plotterEntryFire (t : Nat) (leg : Nat) : Statement (.plotterEntryFire t leg) := fun _ => ⟨rfl, rfl⟩
theorem legEnable (t : Nat) : Statement (.legEnable t) := fun _ => ⟨rfl, rfl⟩
theorem legStart (t : Nat) (leg : Nat) : Statement (.legStart t leg) := fun _ => ⟨rfl, rfl⟩
theorem swapRequest (t : Nat) : Statement (.swapRequest t) := fun _ => ⟨rfl, rfl⟩
theorem swapTakesEffect (t : Nat) (leg : Nat) : Statement (.swapTakesEffect t leg) := fun _ => ⟨rfl, rfl⟩
theorem phaseEnable (t : Nat) : Statement (.phaseEnable t) := fun _ => ⟨rfl, rfl⟩
theorem toothEdge (t : Nat) (rising : Bool) (lasted : Nat) : Statement (.toothEdge t rising lasted) := fun _ => ⟨rfl, rfl⟩
theorem phaseStopTimeout (t : Nat) : Statement (.phaseStopTimeout t) := fun _ => ⟨rfl, rfl⟩
theorem ethFrameFirstCell (t : Nat) (port : Nat) (fr : EthFrame) : Statement (.ethFrameFirstCell t port fr) := fun _ => ⟨rfl, rfl⟩
theorem ethFrameEnd (t : Nat) (port : Nat) (preemptible : Bool) (fragments : Nat) (e : RxEnd) : Statement (.ethFrameEnd t port preemptible fragments e) := fun _ => ⟨rfl, rfl⟩
theorem macControlReceived (t : Nat) (port : Nat) (data : Bytes) : Statement (.macControlReceived t port data) := fun _ => ⟨rfl, rfl⟩
theorem pauseExpiry (t : Nat) (port queue : Nat) : Statement (.pauseExpiry t port queue) := fun _ => ⟨rfl, rfl⟩
theorem xoffResendTimer (t : Nat) (port : Nat) : Statement (.xoffResendTimer t port) := fun _ => ⟨rfl, rfl⟩
theorem fabricMatch (t : Nat) (c : CellTime) : Statement (.fabricMatch t c) := fun _ => ⟨rfl, rfl⟩
theorem mirrorRecord (t : Nat) (behind : Bool) : Statement (.mirrorRecord t behind) := fun _ => ⟨rfl, rfl⟩
theorem transmitStart (t : Nat) (port : Nat) (preemptible : Bool) : Statement (.transmitStart t port preemptible) := fun _ => ⟨rfl, rfl⟩
theorem transmitUnderrun (t : Nat) (port : Nat) (preemptible : Bool) : Statement (.transmitUnderrun t port preemptible) := fun _ => ⟨rfl, rfl⟩
theorem frameTransmitEnd (t : Nat) (port : Nat) (preemptible : Bool) : Statement (.frameTransmitEnd t port preemptible) := fun _ => ⟨rfl, rfl⟩
theorem linkUp (t : Nat) (port rate : Nat) (half : Bool) (word : Nat) : Statement (.linkUp t port rate half word) := fun _ => ⟨rfl, rfl⟩
theorem linkDown (t : Nat) (port : Nat) (loss : LinkLoss) : Statement (.linkDown t port loss) := fun _ => ⟨rfl, rfl⟩
theorem flushComplete (t : Nat) (port : Nat) : Statement (.flushComplete t port) := fun _ => ⟨rfl, rfl⟩
theorem holdDownExpiry (t : Nat) (port : Nat) : Statement (.holdDownExpiry t port) := fun _ => ⟨rfl, rfl⟩
theorem portEnable (t : Nat) : Statement (.portEnable t) := fun _ => ⟨rfl, rfl⟩
theorem peakReset (t : Nat) : Statement (.peakReset t) := fun _ => ⟨rfl, rfl⟩
theorem verifyMpacketTimer (t : Nat) (port : Nat) : Statement (.verifyMpacketTimer t port) := fun _ => ⟨rfl, rfl⟩
theorem respondMpacketReceived (t : Nat) (port : Nat) : Statement (.respondMpacketReceived t port) := fun _ => ⟨rfl, rfl⟩
theorem verifyMpacketReceived (t : Nat) (port : Nat) : Statement (.verifyMpacketReceived t port) := fun _ => ⟨rfl, rfl⟩
theorem thresholdDecay (t : Nat) (port : Nat) : Statement (.thresholdDecay t port) := fun _ => ⟨rfl, rfl⟩
theorem thresholdReset (t : Nat) : Statement (.thresholdReset t) := fun _ => ⟨rfl, rfl⟩
theorem plcaCycleStart (t : Nat) (port : Nat) : Statement (.plcaCycleStart t port) := fun _ => ⟨rfl, rfl⟩
theorem beaconReceived (t : Nat) (port : Nat) (reversed : Bool) : Statement (.beaconReceived t port reversed) := fun _ => ⟨rfl, rfl⟩
theorem beaconTimeout (t : Nat) (port : Nat) : Statement (.beaconTimeout t port) := fun _ => ⟨rfl, rfl⟩
theorem plcaCollision (t : Nat) (port : Nat) : Statement (.plcaCollision t port) := fun _ => ⟨rfl, rfl⟩
theorem csmaCollision (t : Nat) (port : Nat) (late : Bool) : Statement (.csmaCollision t port late) := fun _ => ⟨rfl, rfl⟩
theorem backoffExpiry (t : Nat) (port : Nat) : Statement (.backoffExpiry t port) := fun _ => ⟨rfl, rfl⟩
theorem lineFaultDeclare (t : Nat) (port : Nat) (f : LineFault) : Statement (.lineFaultDeclare t port f) := fun _ => ⟨rfl, rfl⟩
theorem lineFaultClear (t : Nat) (port : Nat) (f : LineFault) : Statement (.lineFaultClear t port f) := fun _ => ⟨rfl, rfl⟩
theorem cableTestStart (t : Nat) : Statement (.cableTestStart t) := fun _ => ⟨rfl, rfl⟩
theorem cableTestComplete (t : Nat) (port result distance : Nat) : Statement (.cableTestComplete t port result distance) := fun _ => ⟨rfl, rfl⟩
theorem learnEngineInsert (t : Nat) : Statement (.learnEngineInsert t) := fun _ => ⟨rfl, rfl⟩
theorem ageingScan (t : Nat) (n : Nat) : Statement (.ageingScan t n) := fun _ => ⟨rfl, rfl⟩
theorem stashDrain (t : Nat) : Statement (.stashDrain t) := fun _ => ⟨rfl, rfl⟩
theorem chartFlushByPort (t : Nat) : Statement (.chartFlushByPort t) := fun _ => ⟨rfl, rfl⟩
theorem chartFlushByFid (t : Nat) : Statement (.chartFlushByFid t) := fun _ => ⟨rfl, rfl⟩
theorem chartFlushComplete (t : Nat) (byFid : Bool) : Statement (.chartFlushComplete t byFid) := fun _ => ⟨rfl, rfl⟩
theorem learnMessageReceived (t : Nat) (sender key dest : Nat) (stamp : Int) : Statement (.learnMessageReceived t sender key dest stamp) := fun _ => ⟨rfl, rfl⟩
theorem removalMessageReceived (t : Nat) (r : Removal) : Statement (.removalMessageReceived t r) := fun _ => ⟨rfl, rfl⟩
theorem unlockAll (t : Nat) : Statement (.unlockAll t) := fun _ => ⟨rfl, rfl⟩
theorem staticEntryEnable (t : Nat) : Statement (.staticEntryEnable t) := fun _ => ⟨rfl, rfl⟩
theorem seedWrite (t : Nat) : Statement (.seedWrite t) := fun _ => ⟨rfl, rfl⟩
theorem ruleEnable (t : Nat) : Statement (.ruleEnable t) := fun _ => ⟨rfl, rfl⟩
theorem learningEnable (t : Nat) : Statement (.learningEnable t) := fun _ => ⟨rfl, rfl⟩
theorem portNodeEnable (t : Nat) : Statement (.portNodeEnable t) := fun _ => ⟨rfl, rfl⟩
theorem policerMode (t : Nat) : Statement (.policerMode t) := fun _ => ⟨rfl, rfl⟩
theorem samplerVisit (t : Nat) (subscriber queue : Nat) : Statement (.samplerVisit t subscriber queue) := fun _ => ⟨rfl, rfl⟩
theorem histogramClear (t : Nat) : Statement (.histogramClear t) := fun _ => ⟨rfl, rfl⟩
theorem canEnable (t : Nat) : Statement (.canEnable t) := fun _ => ⟨rfl, rfl⟩
theorem canStop (t : Nat) : Statement (.canStop t) := fun _ => ⟨rfl, rfl⟩
theorem canStopComplete (t : Nat) (ch : Nat) : Statement (.canStopComplete t ch) := fun _ => ⟨rfl, rfl⟩
theorem canIntegrationComplete (t : Nat) (ch : Nat) : Statement (.canIntegrationComplete t ch) := fun _ => ⟨rfl, rfl⟩
theorem canFrameReceived (t : Nat) (ch : Nat) (frame : CanFrame) (age : Nat) : Statement (.canFrameReceived t ch frame age) := fun _ => ⟨rfl, rfl⟩
theorem canFrameStart (t : Nat) (ch : Nat) (bad : Bool) (delay : Nat) : Statement (.canFrameStart t ch bad delay) := fun _ => ⟨rfl, rfl⟩
theorem canAttemptEnd (t : Nat) (ch : Nat) (ok : Bool) : Statement (.canAttemptEnd t ch ok) := fun _ => ⟨rfl, rfl⟩
theorem canArbitrationLost (t : Nat) (ch : Nat) : Statement (.canArbitrationLost t ch) := fun _ => ⟨rfl, rfl⟩
theorem canBusError (t : Nat) (ch : Nat) (e : CanError) : Statement (.canBusError t ch e) := fun _ => ⟨rfl, rfl⟩
theorem protocolException (t : Nat) (ch : Nat) : Statement (.protocolException t ch) := fun _ => ⟨rfl, rfl⟩
theorem busOffRecovery (t : Nat) (ch : Nat) : Statement (.busOffRecovery t ch) := fun _ => ⟨rfl, rfl⟩
theorem canBufferCancel (t : Nat) : Statement (.canBufferCancel t) := fun _ => ⟨rfl, rfl⟩
theorem timeMasterEnable (t : Nat) : Statement (.timeMasterEnable t) := fun _ => ⟨rfl, rfl⟩
theorem transceiverSettlingEnd (t : Nat) (unit : Nat) : Statement (.transceiverSettlingEnd t unit) := fun _ => ⟨rfl, rfl⟩
theorem linStop (t : Nat) : Statement (.linStop t) := fun _ => ⟨rfl, rfl⟩
theorem linTableRequest (t : Nat) : Statement (.linTableRequest t) := fun _ => ⟨rfl, rfl⟩
theorem linSlotStart (t : Nat) (ch : Nat) : Statement (.linSlotStart t ch) := fun _ => ⟨rfl, rfl⟩
theorem linHeaderReceived (t : Nat) (ch pid : Nat) (head : LinHead) : Statement (.linHeaderReceived t ch pid head) := fun _ => ⟨rfl, rfl⟩
theorem linResponseSend (t : Nat) (ch : Nat) (differs : Option Nat) : Statement (.linResponseSend t ch differs) := fun _ => ⟨rfl, rfl⟩
theorem linFrameComplete (t : Nat) (ch : Nat) (data : Bytes) (check : LinCheck) : Statement (.linFrameComplete t ch data check) := fun _ => ⟨rfl, rfl⟩
theorem linFrameTimeLimit (t : Nat) (ch : Nat) (started : Bool) : Statement (.linFrameTimeLimit t ch started) := fun _ => ⟨rfl, rfl⟩
theorem linWakeSignalReceived (t : Nat) (ch : Nat) : Statement (.linWakeSignalReceived t ch) := fun _ => ⟨rfl, rfl⟩
theorem transceiverScriptRequest (t : Nat) : Statement (.transceiverScriptRequest t) := fun _ => ⟨rfl, rfl⟩
theorem transceiverScriptComplete (t : Nat) (reads : ScriptReads) : Statement (.transceiverScriptComplete t reads) := fun _ => ⟨rfl, rfl⟩
theorem wakeInputWake (t : Nat) (input : Nat) (level : WakeLevel) : Statement (.wakeInputWake t input level) := fun _ => ⟨rfl, rfl⟩
theorem wakeInputTestStart (t : Nat) (input : Nat) : Statement (.wakeInputTestStart t input) := fun _ => ⟨rfl, rfl⟩
theorem wakeInputTestEnd (t : Nat) (input : Nat) (test : WakeTest) : Statement (.wakeInputTestEnd t input test) := fun _ => ⟨rfl, rfl⟩
theorem wakeInputStuck (t : Nat) (input : Nat) : Statement (.wakeInputStuck t input) := fun _ => ⟨rfl, rfl⟩
theorem rosePduJob (job : PduJob) : Statement (.rosePduJob job) := fun _ => ⟨rfl, rfl⟩
theorem roseUnpackJob (t : Nat) : Statement (.roseUnpackJob t) := fun _ => ⟨rfl, rfl⟩
theorem roseEmissionJob (t : Nat) : Statement (.roseEmissionJob t) := fun _ => ⟨rfl, rfl⟩
theorem containerCollectionExpiry (t : Nat) : Statement (.containerCollectionExpiry t) := fun _ => ⟨rfl, rfl⟩
theorem deferredChangeRelease (t : Nat) : Statement (.deferredChangeRelease t) := fun _ => ⟨rfl, rfl⟩
theorem freshnessExpiry (t : Nat) (signal : Nat) : Statement (.freshnessExpiry t signal) := fun _ => ⟨rfl, rfl⟩
theorem definitionEnable (t : Nat) : Statement (.definitionEnable t) := fun _ => ⟨rfl, rfl⟩
theorem signalEnable (t : Nat) : Statement (.signalEnable t) := fun _ => ⟨rfl, rfl⟩
theorem routeEnable (t : Nat) : Statement (.routeEnable t) := fun _ => ⟨rfl, rfl⟩
theorem containerEnable (t : Nat) : Statement (.containerEnable t) := fun _ => ⟨rfl, rfl⟩
theorem stackLinkLock (t : Nat) (k : Nat) : Statement (.stackLinkLock t k) := fun _ => ⟨rfl, rfl⟩
theorem stackLinkLockLoss (t : Nat) (loss : LockLoss) : Statement (.stackLinkLockLoss t loss) := fun _ => ⟨rfl, rfl⟩
theorem helloSend (t : Nat) : Statement (.helloSend t) := fun _ => ⟨rfl, rfl⟩
theorem helloReceived (t : Nat) (k : Nat) (h : Hello) : Statement (.helloReceived t k h) := fun _ => ⟨rfl, rfl⟩
theorem helloTimeout (t : Nat) (k : Nat) : Statement (.helloTimeout t k) := fun _ => ⟨rfl, rfl⟩
theorem rejoinComplete (t : Nat) (member refusals : Nat) : Statement (.rejoinComplete t member refusals) := fun _ => ⟨rfl, rfl⟩
theorem memberAdmit (t : Nat) : Statement (.memberAdmit t) := fun _ => ⟨rfl, rfl⟩
theorem stackWriteCheck (t : Nat) (svc : Service) (req : Bytes) : Statement (.stackWriteCheck t svc req) := fun _ => ⟨rfl, rfl⟩
theorem stackWriteCommit (t : Nat) (c : StackCommit) (req : Bytes) : Statement (.stackWriteCommit t c req) := fun _ => ⟨rfl, rfl⟩
theorem ownershipStateMessage (t : Nat) (o : Ownership) : Statement (.ownershipStateMessage t o) := fun _ => ⟨rfl, rfl⟩
theorem timeMessageSend (t : Nat) : Statement (.timeMessageSend t) := fun _ => ⟨rfl, rfl⟩
theorem timeMessageReceived (t : Nat) (k : Nat) (m : TimeMsg) : Statement (.timeMessageReceived t k m) := fun _ => ⟨rfl, rfl⟩
theorem timeMessageLoss (t : Nat) : Statement (.timeMessageLoss t) := fun _ => ⟨rfl, rfl⟩
theorem linkDelayRoundTrip (t : Nat) (k trip : Nat) : Statement (.linkDelayRoundTrip t k trip) := fun _ => ⟨rfl, rfl⟩
theorem pathChangeHoldEnd (t : Nat) (member : Nat) : Statement (.pathChangeHoldEnd t member) := fun _ => ⟨rfl, rfl⟩
theorem bridgePostedWriteIssue (t : Nat) (pair target tag addr : Nat) (data : Bytes) (done : List Nat) : Statement (.bridgePostedWriteIssue t pair target tag addr data done) := fun _ => ⟨rfl, rfl⟩
theorem bridgeReadIssue (t : Nat) (pair target tag addr len : Nat) : Statement (.bridgeReadIssue t pair target tag addr len) := fun _ => ⟨rfl, rfl⟩
theorem bridgeRequestExecute (t : Nat) (type source pair tag addr len status : Nat) (data : Bytes) : Statement (.bridgeRequestExecute t type source pair tag addr len status data) := fun _ => ⟨rfl, rfl⟩
theorem bridgeReadCompletion (t : Nat) (source tag status : Nat) (data : Bytes) : Statement (.bridgeReadCompletion t source tag status data) := fun _ => ⟨rfl, rfl⟩
theorem bridgeWriteErrorReport (t : Nat) (source : Nat) (ref : BridgeRef) (status : Nat) : Statement (.bridgeWriteErrorReport t source ref status) := fun _ => ⟨rfl, rfl⟩
theorem bridgeReadTimeout (t : Nat) (pair : Nat) : Statement (.bridgeReadTimeout t pair) := fun _ => ⟨rfl, rfl⟩
theorem bridgeLogClear (t : Nat) : Statement (.bridgeLogClear t) := fun _ => ⟨rfl, rfl⟩
theorem nmPduReceived (t : Nat) (unit ident : Nat) (data : Bytes) : Statement (.nmPduReceived t unit ident data) := fun _ => ⟨rfl, rfl⟩
theorem readySleepExpiry (t : Nat) (unit : Nat) : Statement (.readySleepExpiry t unit) := fun _ => ⟨rfl, rfl⟩
theorem nmCycle (t : Nat) (unit : Nat) : Statement (.nmCycle t unit) := fun _ => ⟨rfl, rfl⟩
theorem lastCallNotSent (t : Nat) (unit : Nat) (busy : Bool) : Statement (.lastCallNotSent t unit busy) := fun _ => ⟨rfl, rfl⟩
theorem lastCallWindowClose (t : Nat) (unit : Nat) (busy : Bool) : Statement (.lastCallWindowClose t unit busy) := fun _ => ⟨rfl, rfl⟩
theorem busWake (t : Nat) (unit : Nat) : Statement (.busWake t unit) := fun _ => ⟨rfl, rfl⟩
theorem maxAwakeExceeded (t : Nat) (unit : Nat) : Statement (.maxAwakeExceeded t unit) := fun _ => ⟨rfl, rfl⟩
theorem hostNeed (t : Nat) : Statement (.hostNeed t) := fun _ => ⟨rfl, rfl⟩
theorem managementSwitch (t : Nat) : Statement (.managementSwitch t) := fun _ => ⟨rfl, rfl⟩
theorem clearIgnoreList (t : Nat) : Statement (.clearIgnoreList t) := fun _ => ⟨rfl, rfl⟩
theorem stateCommandWatch (t : Nat) : Statement (.stateCommandWatch t) := fun _ => ⟨rfl, rfl⟩
theorem stateCommandStandby (t : Nat) : Statement (.stateCommandStandby t) := fun _ => ⟨rfl, rfl⟩
theorem stateCommandPartial (t : Nat) : Statement (.stateCommandPartial t) := fun _ => ⟨rfl, rfl⟩
theorem stateCommandRun (t : Nat) : Statement (.stateCommandRun t) := fun _ => ⟨rfl, rfl⟩
theorem powerDomainRampEnd (t : Nat) : Statement (.powerDomainRampEnd t) := fun _ => ⟨rfl, rfl⟩
theorem acknowledgeTimeExpiry (t : Nat) : Statement (.acknowledgeTimeExpiry t) := fun _ => ⟨rfl, rfl⟩
theorem runReqRise (t : Nat) : Statement (.runReqRise t) := fun _ => ⟨rfl, rfl⟩
theorem runReqFall (t : Nat) : Statement (.runReqFall t) := fun _ => ⟨rfl, rfl⟩
theorem vaonPowerOn (t : Nat) : Statement (.vaonPowerOn t) := fun _ => ⟨rfl, rfl⟩
theorem vaonRemoval (t : Nat) : Statement (.vaonRemoval t) := fun _ => ⟨rfl, rfl⟩
theorem mainPgRise (t : Nat) : Statement (.mainPgRise t) := fun _ => ⟨rfl, rfl⟩
theorem brownout (t : Nat) : Statement (.brownout t) := fun _ => ⟨rfl, rfl⟩
theorem referenceValid (t : Nat) : Statement (.referenceValid t) := fun _ => ⟨rfl, rfl⟩
theorem corePllsLocked (t : Nat) : Statement (.corePllsLocked t) := fun _ => ⟨rfl, rfl⟩
theorem referenceLoss (t : Nat) : Statement (.referenceLoss t) := fun _ => ⟨rfl, rfl⟩
theorem resetNAssert (t : Nat) : Statement (.resetNAssert t) := fun _ => ⟨rfl, rfl⟩
theorem coreResetRelease (t : Nat) (root : Bool) (env : BootEnv) : Statement (.coreResetRelease t root env) := fun _ => ⟨rfl, rfl⟩
theorem rootReadRetry (t : Nat) (ok : Bool) (env : BootEnv) : Statement (.rootReadRetry t ok env) := fun _ => ⟨rfl, rfl⟩
theorem identityKeyReady (t : Nat) : Statement (.identityKeyReady t) := fun _ => ⟨rfl, rfl⟩
theorem droopThresholdCrossing (t : Nat) (step : Nat) : Statement (.droopThresholdCrossing t step) := fun _ => ⟨rfl, rfl⟩
theorem droopStepRecovery (t : Nat) : Statement (.droopStepRecovery t) := fun _ => ⟨rfl, rfl⟩
theorem lockstepMismatch (t : Nat) (pair : Nat) : Statement (.lockstepMismatch t pair) := fun _ => ⟨rfl, rfl⟩
theorem pairRestartComplete (t : Nat) (pair : Nat) : Statement (.pairRestartComplete t pair) := fun _ => ⟨rfl, rfl⟩
theorem importBlobSet (t : Nat) : Statement (.importBlobSet t) := fun _ => ⟨rfl, rfl⟩
theorem importBlobErase (t : Nat) : Statement (.importBlobErase t) := fun _ => ⟨rfl, rfl⟩
theorem importBlobSetInClear (t : Nat) : Statement (.importBlobSetInClear t) := fun _ => ⟨rfl, rfl⟩
theorem discardStaging (t : Nat) : Statement (.discardStaging t) := fun _ => ⟨rfl, rfl⟩
theorem keyStoreCommit (t : Nat) : Statement (.keyStoreCommit t) := fun _ => ⟨rfl, rfl⟩
theorem keyStoreCommitEnd (t : Nat) (ok : Bool) : Statement (.keyStoreCommitEnd t ok) := fun _ => ⟨rfl, rfl⟩
theorem attestationChallenge (t : Nat) : Statement (.attestationChallenge t) := fun _ => ⟨rfl, rfl⟩
theorem identitySignRequest (t : Nat) : Statement (.identitySignRequest t) := fun _ => ⟨rfl, rfl⟩
theorem slotDerive (t : Nat) : Statement (.slotDerive t) := fun _ => ⟨rfl, rfl⟩
theorem randomHealthFailure (t : Nat) : Statement (.randomHealthFailure t) := fun _ => ⟨rfl, rfl⟩
theorem macsecSaEnable (t : Nat) : Statement (.macsecSaEnable t) := fun _ => ⟨rfl, rfl⟩
theorem activeAnWrite (t : Nat) : Statement (.activeAnWrite t) := fun _ => ⟨rfl, rfl⟩
theorem macsecEnable (t : Nat) : Statement (.macsecEnable t) := fun _ => ⟨rfl, rfl⟩
theorem transferStartFirmware (t : Nat) : Statement (.transferStartFirmware t) := fun _ => ⟨rfl, rfl⟩
theorem transferStartAlmanac (t : Nat) : Statement (.transferStartAlmanac t) := fun _ => ⟨rfl, rfl⟩
theorem blockQuarterWrite (t : Nat) : Statement (.blockQuarterWrite t) := fun _ => ⟨rfl, rfl⟩
theorem blockCheckValue (t : Nat) : Statement (.blockCheckValue t) := fun _ => ⟨rfl, rfl⟩
theorem transferVerifyComplete (t : Nat) : Statement (.transferVerifyComplete t) := fun _ => ⟨rfl, rfl⟩
theorem transferActivate (t : Nat) : Statement (.transferActivate t) := fun _ => ⟨rfl, rfl⟩
theorem transferAbandon (t : Nat) : Statement (.transferAbandon t) := fun _ => ⟨rfl, rfl⟩
theorem trialMinute (t : Nat) : Statement (.trialMinute t) := fun _ => ⟨rfl, rfl⟩
theorem healthConditionsHeld (t : Nat) : Statement (.healthConditionsHeld t) := fun _ => ⟨rfl, rfl⟩
theorem confirmWrite (t : Nat) : Statement (.confirmWrite t) := fun _ => ⟨rfl, rfl⟩
theorem correctedWriteback (t : Nat) (mem line : Nat) (superseded : Bool) : Statement (.correctedWriteback t mem line superseded) := fun _ => ⟨rfl, rfl⟩
theorem mergeEntryRetire (t : Nat) (mem line : Nat) (full : Bool) (r : LineRead) : Statement (.mergeEntryRetire t mem line full r) := fun _ => ⟨rfl, rfl⟩
theorem patrolRead (t : Nat) (mem : Nat) (r : PatrolLine) : Statement (.patrolRead t mem r) := fun _ => ⟨rfl, rfl⟩
theorem clearCorrectionTable (t : Nat) : Statement (.clearCorrectionTable t) := fun _ => ⟨rfl, rfl⟩
theorem softwareScrubStart (t : Nat) : Statement (.softwareScrubStart t) := fun _ => ⟨rfl, rfl⟩
theorem softwareScrubComplete (t : Nat) (reads : List (Nat × LineRead)) : Statement (.softwareScrubComplete t reads) := fun _ => ⟨rfl, rfl⟩
theorem testWindowOpen (t : Nat) : Statement (.testWindowOpen t) := fun _ => ⟨rfl, rfl⟩
theorem rawWrite (t : Nat) : Statement (.rawWrite t) := fun _ => ⟨rfl, rfl⟩
theorem rawRead (t : Nat) : Statement (.rawRead t) := fun _ => ⟨rfl, rfl⟩
theorem decodeRead (t : Nat) : Statement (.decodeRead t) := fun _ => ⟨rfl, rfl⟩
theorem soundingStart (t : Nat) (mem : Nat) : Statement (.soundingStart t mem) := fun _ => ⟨rfl, rfl⟩
theorem soundingBlockEnd (t : Nat) (mem block : Nat) (test : BlockTest) : Statement (.soundingBlockEnd t mem block test) := fun _ => ⟨rfl, rfl⟩
theorem saveBufferRelease (t : Nat) (mem : Nat) : Statement (.saveBufferRelease t mem) := fun _ => ⟨rfl, rfl⟩
theorem startupSoundingComplete (t : Nat) (tests : List (Nat × Nat × BlockTest)) : Statement (.startupSoundingComplete t tests) := fun _ => ⟨rfl, rfl⟩
theorem replayStart (t : Nat) : Statement (.replayStart t) := fun _ => ⟨rfl, rfl⟩
theorem replayFrameSend (t : Nat) : Statement (.replayFrameSend t) := fun _ => ⟨rfl, rfl⟩
theorem wakeInputRelease (t : Nat) (input held : Nat) : Statement (.wakeInputRelease t input held) := fun _ => ⟨rfl, rfl⟩
theorem vbatsenseSample (t : Nat) (mv : Nat) : Statement (.vbatsenseSample t mv) := fun _ => ⟨rfl, rfl⟩
theorem forwardedReplyReceived (t : Nat) (svc : Service) (src : Source) (rec : Bytes) : Statement (.forwardedReplyReceived t svc src rec) := fun _ => ⟨rfl, rfl⟩
theorem memberAnswerReceived (t : Nat) (member : Nat) (commit : Bool) (status : Nat) (path : Bytes) : Statement (.memberAnswerReceived t member commit status path) := fun _ => ⟨rfl, rfl⟩

end Sys2Proof.Laws.Timed
end

