-- ==== Sys2Proof/Tests/Slice0.lean ====
section
/-! SUPPORT. A witness for the hypotheses of each statement (a statement joined of several groups of commands has one for each group), and operands out of range that the check of commands refuses. -/
open Sys2Proof.Machine
namespace Sys2Proof.Tests
set_option Elab.async false

/-- The device right after the release of the CORE reset. -/
def base : Dev := {}

/-- A request of this member's host over PCIe: operation, index, subindex, group, index of the unit, record and data. -/
def request (op idx sub g i r : Nat) (data : Bytes) : Request :=
  { svc := .pcie, src := .host 0, arrived := 0, origin := none, bytes := [BitVec.ofNat 8 op, 0, 0, 7] ++ beBytes 2 idx ++ [BitVec.ofNat 8 sub, 0, 0, BitVec.ofNat 8 g, BitVec.ofNat 8 i, 0] ++ beBytes 2 r ++ [0, 0] ++ beBytes 2 data.length ++ [0, 0] ++ data }

/-- The device with its host as owner. -/
def owned : Dev := ((((base.set 0x1010 0x01 1).set 0x1011 0x01 0).set 0x1011 0x02 2)).almUpd fun x => { x with leaseEnd := 1000000000 }

/-- The request waits at the head of the server's queue. -/
def asks (d : Dev) (q : Request) : Dev := d.almUpd fun x => { x with queue := [q] }

/-- The table's row of an object. -/
def row (idx sub : Nat) : ObjRow := ((findRow idx sub)).getD { idx := 0, n := 1, sub := 0, subs := 0, ty := .u8, acc := .ro, scope := .member, recs := 0, dflt := 0, rng := .any }

/-- Nothing that time alone brings about is due: the fabric clock has begun, and no gate, window, fragment, sweep or key slot waits for now. -/
def Still (d : Dev) : Bool :=
  d.fab.snapAt == d.lt / 2 && (d.ports.gates.filter (fun g => g.2.1 ≤ d.now)).isEmpty && (d.plot.windows.filter (fun w => w.2.2.1 ≤ d.now)).isEmpty &&
    (d.fab.frames.flatMap (fun f => (f.copies.filter (d.fragmentDue d.now f)).map (·.port))).isEmpty &&
    (d.chans.filterMap (fun x => x.2.phaseAt.bind (fun p => if p.1 ≤ d.now then some (x.1, p.2) else none))).isEmpty &&
    (match d.chart.flushes with | [] => true | f :: _ => d.dataOn && (d.now - f.at_) * edgesLeft (d.obj 0x2000 0x08) / 256 == 0) &&
    (d.bin.lost.filter (fun x => x.2 ≤ d.now)).isEmpty

theorem catchUp_still {d : Dev} (h : Still d = true) : d.catchUp = d := by
  simp only [Still, Bool.and_eq_true, beq_iff_eq] at h
  obtain ⟨⟨⟨⟨⟨⟨h1, h2⟩, h3⟩, h4⟩, h7⟩, h5⟩, h6⟩ := h
  have e1 : d.fabricClock = d := by unfold Dev.fabricClock; simp [h1]
  have e2 : d.gatesDue = d := by unfold Dev.gatesDue; simp only [h2, if_true]
  have e3 : d.windowsDue = d := by unfold Dev.windowsDue; simp only [h3, if_true]
  have e4 : d.fragmentsDue = d := by unfold Dev.fragmentsDue Dev.endFragments; simp only [h4, if_true]
  have e7 : d.phasesDue = d := by unfold Dev.phasesDue; rw [List.isEmpty_iff.mp h7]; rfl
  have e5 : d.sweepDue = d := by
    unfold Dev.sweepDue
    split
    · rfl
    · rename_i f l e
      simp only [e, Bool.and_eq_true, beq_iff_eq] at h5
      simp [h5.1, h5.2]
  have e6 : d.slotsDue = d := by unfold Dev.slotsDue; rw [List.isEmpty_iff.mp h6]; rfl
  unfold Dev.catchUp
  rw [e1, e2, e3, e4, e7, e5, e6]

/-- Every such device is what some state has at some time. -/
theorem at_any {d : Dev} (h : Still d = true) : ∃ s t, State.at s t = d :=
  ⟨{ pending := [], dev := d }, 0, by simp [State.at, Dev.advance, catchUp_still h]⟩

/-- A device that runs with no event waiting and nothing due: some state has it in some tick. -/
def Good (d : Dev) : Bool := d.coreOn && d.ev.bus.isEmpty && Still d

/-- The hypotheses that the statements about a tick make of the state are met by such a device, with no command waiting beside the one in question. -/
theorem tick_of_good {d : Dev} (h : Good d = true) : ∃ s t, State.Tick s t d ∧ State.Alone s d ∧ s.firstCells d = [] ∧ s.matchWaits d = false ∧ s.startsNow d = d ∧ (∀ u, s.pdelayComes d u = false) ∧ ∀ f c, s.abortComes d f c = false := by
  simp [Good] at h
  exact ⟨{ pending := [], dev := d }, 0, ⟨by simp [State.at, Dev.advance, catchUp_still h.2], h.1.1⟩, by simp [State.Alone], by simp [State.firstCells], by simp [State.matchWaits, State.tick], by simp [State.startsNow], by simp [State.pdelayComes, State.tick], by simp [State.abortComes, State.tick]⟩

/-- The device at a later time, its fabric clock begun. -/
def atTime (d : Dev) (now : Nat) : Dev := { d with now := now, fab := { d.fab with snapAt := (now - d.ltEpoch) / 2 } }

/-- The owner's host writes over PCIe, and the write passes every check; the device runs. -/
def Takes (d : Dev) (q : Request) (k : WriteKind) (u : Nat) : Bool :=
  Good (asks d q) && (asks d q).takesWrite q (row (recIndex q.bytes) (recSub q.bytes)) k u

/-- A write of an object at member level. -/
def wr (idx sub r : Nat) (data : Bytes) : Request := request 2 idx sub 0 255 r data

/-- The PCIe link is up. -/
def linked : Dev := base.set 0x9000 0x01 2

/-- No object of the store is a flow control mode. -/
def noFlow (d : Dev) : Bool := d.store.all fun p => p.1 % 2 ^ 24 != 0x405001

theorem flow_key (u : Nat) : objKey 0x4050 0x01 u 0 % 2 ^ 24 = 0x405001 := by unfold objKey; omega
theorem flow_sub (u : Nat) : objKey 0x4050 0x01 u 0 % 256 = 1 := by unfold objKey; omega
theorem flow_index (u : Nat) : objKey 0x4050 0x01 u 0 / 256 % 65536 = 0x4050 := by unfold objKey; omega
theorem flow_record (a b : Nat) : dfltByRecord 0x4050 1 a b = none := rfl
theorem flow_row : ((findRow 0x4050 1).map (·.dflt)).getD 0 = 0 := by decide +kernel
theorem flow_default (u : Nat) : objDefault (objKey 0x4050 0x01 u 0) = 0 :=
  (objDefault_of _ _ _ (flow_index u) (flow_sub u)).trans (by rw [flow_record, flow_row]; exact Option.getD_none)

theorem tget_other {k : Nat} (hk : k % 2 ^ 24 = 0x405001) (f : Nat → Nat) :
    ∀ l : Tbl Nat, (l.all fun p => p.1 % 2 ^ 24 != 0x405001) = true → tget f l k = f k
  | [], _ => rfl
  | (a, v) :: l, h => by
    simp only [List.all_cons, Bool.and_eq_true, bne_iff_ne] at h
    unfold tget
    rw [if_neg (fun e : a = k => h.1 (by rw [e]; exact hk))]
    exact tget_other hk f l h.2

/-- Then flow control is off at every port. -/
theorem flow_off {d : Dev} (h : noFlow d = true) : ∀ u, d.obj 0x4050 0x01 u = 0 :=
  fun u => (tget_other (flow_key u) objDefault d.store h).trans (flow_default u)

/-- A frame of one cell. -/
def frame1 : Frame := { id := 0, port := 0, data := List.replicate 60 0, len := 64, cls := 0, vid := 0, pcp := 0, dei := false, tagged := false, oversize := false, multi := false, ptpEvent := false, stamp := 0, rule := none, smem := 0, sport := 0, whole := true, copies := [] }

/-! Requests, replies and events (witnesses of statements about the services). -/

/-- Witness of O6 (ServerInputs): states, commands and operands that meet its hypotheses. -/
theorem witness_requests_join_the_queue :
    (Good linked = true ∧ linked.isLead = true ∧ linked.alm.queue.length < 64 ∧ linked.alm.busyAt ≠ some linked.now ∧ (20 : Nat) ≤ 20 ∧ (List.replicate 20 (0 : Byte)).length = 20) ∧
    (let d := (base.set 0x1040 0x06 1).set 0x1040 0x01 1; Good d = true ∧ d.isLead = true ∧ d.flag 0x1040 0x06 = true ∧ d.flag 0x1040 0x01 = true) ∧
    (let d := ((base.set 0x1040 0x04 23).set 0x1040 0x05 0x123).set 0x6010 0x04 2 (uC 23); Good d = true ∧ d.isLead = true ∧ d.obj 0x1040 0x04 = 23 ∧ d.obj 0x6010 0x04 (uC 23) ≠ 0 ∧ d.obj 0x6010 0x04 (uC 23) ≠ 5) ∧
    (Good base = true ∧ base.isLead = true ∧ 3 < 4 ∧ 3 ≠ base.stackId ∧ base.alm.waiting = false ∧ base.alm.queue = []) := by decide +kernel

/-- Witness of O6 (ServerInputs): states, commands and operands that meet its hypotheses. -/
theorem witness_hs_commands :
    (let d := base.almUpd fun x => { x with hsReplies := [[1, 2]] }; Good d = true ∧ d.alm.hsReplies = [[1, 2]]) ∧ (Good base = true ∧ base.alm.hsReplies = []) ∧
    (0xFF : Byte).toNat ∉ [0x5A, 0xA5, 0x3C, 0xC3, 0x69, 0x96] := by decide +kernel

/-- Witness of O7 (RepliesCausesAndMessages): states, commands and operands that meet its hypotheses. -/
theorem witness_replies_leave_on_their_service :
    (Good linked = true ∧ linked.obj 0x9000 0x01 = 2 ∧ linked.alm.replyQueue = [] ∧ linked.alm.reply = none) ∧
    (let d := linked.almUpd fun x => { x with replyQueue := [([1], false)], reply := some [2] }; Good d = true ∧ d.obj 0x9000 0x01 = 2 ∧ d.alm.replyQueue = [([1], false)] ∧ d.alm.reply = some [2]) ∧
    (let d := linked.almUpd fun x => { x with replyQueue := [([1], true)] }; Good d = true ∧ d.alm.replyQueue = [([1], true)]) ∧ recOp [0x80] ≠ 7 ∧ recOp [7] = 7 ∧
    (let b := (wr 0x1040 0x02 0 [0, 1]).bytes; let d := base.almUpd fun x => { x with settings := [(b, true)] }; Good d = true ∧ d.alm.settings = [(b, true)] ∧ answersSetting b (b, true) = true ∧ findRow (recIndex b) (recSub b) = some (row 0x1040 0x02)) := by decide +kernel

/-- Witness of O7 (RepliesCausesAndMessages): states, commands and operands that meet its hypotheses. -/
theorem witness_causes_and_messages :
    (base.ev.cause.getLsbD 63 = false ∧ base.ev.msixMask.getLsbD 63 = true) ∧
    (let d := base.evUpd fun x => { x with cause := 1, msixMask := 0 }; d.ev.cause.getLsbD 0 = true ∧ d.ev.cause.getLsbD 63 = false ∧ d.ev.msixMask.getLsbD 63 = false) := by decide +kernel

/-- Witness of O8 (EndpointCommands): states, commands and operands that meet its hypotheses. -/
theorem witness_event_register_commands :
    (Good base = true ∧ base.obj 0x9000 0x01 ≠ 2 ∧ (255 : Nat) < 256 ∧ (List.replicate 4 (0 : Byte)).length = 4 ∧ (List.replicate 12 (0 : Byte)).length ≤ 12) ∧
    (Good linked = true ∧ linked.obj 0x9000 0x01 = 2 ∧ linked.ev.pba.getLsbD 63 = false ∧ (0xF3 : BitVec 64).getLsbD 2 = false ∧ (0xF3 : BitVec 64).getLsbD 3 = false) ∧
    (let d := linked.evUpd fun x => { x with pba := 1 }; Good d = true ∧ d.obj 0x9000 0x01 = 2 ∧ d.ev.pba.getLsbD 0 = true) ∧
    (barWritable 0 65535 = false ∧ barWritable 2 262143 = false) := by decide +kernel

/-- Witness of O8 (EndpointCommands): states, commands and operands that meet its hypotheses. -/
theorem witness_endpoint_events :
    (Good base = true ∧ base.obj 0x9000 0x01 ≠ 2 ∧ (1 : Nat) ≤ 4) ∧ (Good linked = true ∧ linked.obj 0x9000 0x01 = 2) := by decide +kernel

/-! FIFOs. -/

/-- FIFO 63 enabled with 64 items, from the host (1) or to it (0), with contents `x`. -/
def fifoDev (dir : Nat) (x : Fifo) : Dev := (((base.set 0x9010 0x01 1 0 63).set 0x9010 0x02 dir 0 63).set 0x9010 0x04 64 0 63).setFifo 63 x

/-- A packet of two items, and of one. -/
def packet2 (read : Nat) : Packet := { prio := 0, items := [headerItem 0 0 0 0 8 false false, 5], read := read }

/-- Witness of O9 (FifoPackets): states, commands and operands that meet its hypotheses. -/
theorem witness_fifo_items_from_the_host :
    (Good base = true ∧ base.fifoOn 63 = false ∧ ([1] : List (BitVec 64)).length = 1 ∧ (List.replicate 32 (0 : BitVec 64)).length = 32) ∧
    (let d := fifoDev 1 {}; Good d = true ∧ d.fifoOn 63 = true ∧ d.fifoToHost 63 = false ∧ (d.fifo 63).opened = none ∧ (d.fifo 63).count < d.obj 0x9010 0x04 0 63) ∧
    (let d := fifoDev 1 { opened := some ([1], false) }; Good d = true ∧ d.fifoOn 63 = true ∧ d.fifoToHost 63 = false ∧ (d.fifo 63).opened = some ([1], false) ∧ (d.fifo 63).count < d.obj 0x9010 0x04 0 63 ∧ 32 ≤ d.fifoFree 63) ∧
    (let d := fifoDev 1 { opened := some (List.replicate 64 1, false) }; Good d = true ∧ d.fifoOn 63 = true ∧ d.fifoToHost 63 = false ∧ (d.fifo 63).opened = some (List.replicate 64 1, false) ∧ d.fifoFree 63 = 0) ∧
    (let d := fifoDev 1 { visible := [{ prio := 0, items := List.replicate 64 0 }] }; Good d = true ∧ d.fifoOn 63 = true ∧ d.fifoToHost 63 = false ∧ (d.fifo 63).opened = none ∧ d.fifoFree 63 = 0) ∧
    (let i := headerItem 0 0 0 0 8 false false; let d := fifoDev 1 { opened := some ([i], false) }; Good d = true ∧ 0 < d.fifoFree 63 ∧ packetGood ([i] ++ [5]) = true ∧ packetGood ([i] ++ [5, 5]) = false) := by decide +kernel

/-- Witness of O10 (IdleItems): states, commands and operands that meet its hypotheses. -/
theorem witness_idle_items :
    (Good base = true ∧ (base.fifo 63).part = none ∧ (base.fifo 63).visible = []) ∧
    (let d := fifoDev 0 { part := some (packet2 1) }; Good d = true ∧ d.fifoOn 63 = true ∧ d.fifoToHost 63 = true ∧ (d.fifo 63).part = some (packet2 1) ∧ 0 < (packet2 1).read ∧ (packet2 1).read < (packet2 1).items.length) := by decide +kernel

/-- Witness of O11 (FifoReadsAndFlush): states, commands and operands that meet its hypotheses. -/
theorem witness_fifo_reads :
    (Good base = true ∧ popWhole { bytes := 7 } = false ∧ popWhole { offset := 4, bytes := 8 } = false ∧ popWhole { bytes := 8, abort := true } = true ∧ base.fifoOn 63 = false) ∧ (let d := fifoDev 1 {}; Good d = true ∧ d.fifoToHost 63 = false) ∧
    (let d := fifoDev 0 { visible := [packet2 0] }; Good d = true ∧ d.fifoOn 63 = true ∧ d.fifoToHost 63 = true ∧ (d.fifo 63).part = none ∧ nextPacket (d.fifo 63).visible = some (packet2 0, []) ∧ (packet2 0).read = 0 ∧
      2 ≤ (packet2 0).items.length ∧ 0 < (d.fifo 63).count) ∧
    (let d := fifoDev 0 { part := some (packet2 1) }; Good d = true ∧ (d.fifo 63).part = some (packet2 1) ∧ (packet2 1).read + 1 = (packet2 1).items.length) := by decide +kernel

/-- Witness of O11 (FifoReadsAndFlush): states, commands and operands that meet its hypotheses. -/
theorem witness_fifo_flush_and_timer :
    (let d := (fifoDev 0 { visible := [packet2 0] }).set 0x9010 0x13 1 0 63; Good d = true ∧ d.flag 0x9010 0x13 0 63 = true ∧ (d.fifo 63).part = none ∧ (d.fifo 63).opened = none) ∧
    (let d := fifoDev 0 { part := some (packet2 1) }; Good d = true ∧ (d.fifo 63).part.isSome = true ∧ d.flag 0x9010 0x13 0 63 = false ∧ (d.fifo 63).timer = none) ∧
    (let d := ((fifoDev 0 { visible := [packet2 0], timer := some 0 }).set 0x9010 0x06 1 0 63).set 0x9010 0x05 3 0 63; let d := atTime (d) (perUs)
     Good d = true ∧ (d.fifo 63).timer = some 0 ∧ d.obj 0x9010 0x06 0 63 ≠ 0 ∧ 0 + d.obj 0x9010 0x06 0 63 * perUs ≤ d.now ∧ 0 < (d.fifo 63).count ∧ (d.fifo 63).count < d.obj 0x9010 0x05 0 63) := by decide +kernel

/-- Witness of O9 (FifoPackets): states, commands and operands that meet its hypotheses. -/
theorem witness_packets_of_the_host :
    (let d := ((((linked.set 0x9010 0x01 1 0 0).set 0x9010 0x02 0 0 0).set 0x9010 0x04 64 0 0).set 0xA000 0x02 4).fabUpd fun x => { x with toHost := [frame1] }
     Good d = true ∧ d.fab.toHost = [frame1] ∧ d.dataOn = true ∧ d.obj 0x9000 0x01 = 2 ∧ frame1.hostFifo = none ∧ frame1.oversize = false ∧ frame1.badFcs = false ∧ d.fifoOn (d.hostFifoOf frame1) = true ∧ d.fifoToHost (d.hostFifoOf frame1) = true ∧
      (dataItems 64 (frame1.data ++ fcsOf frame1.data)).length + 1 ≤ d.fifoFree (d.hostFifoOf frame1)) ∧
    (Good base = true ∧ base.dataOn = false ∧ base.nextFromHost = none ∧ base.obj 0x9000 0x01 ≠ 2) ∧
    (∀ g ∈ [1, 2], let d := (((((base.set 0x9010 0x01 1 0 63).set 0x9010 0x02 1 0 63).set 0x9010 0x03 g 0 63).set 0x9010 0x04 64 0 63).setFifo 63 { visible := [packet2 0] }).set 0xA000 0x02 4 |>.set 0xC040 0x07 1
      Good d = true ∧ d.dataOn = true ∧ d.hostFree = true ∧ (d.nextFromHost.map (·.1)) = some 63 ∧ d.obj 0x9010 0x03 0 63 = g) := by decide +kernel

/-! The server. -/

/-- Witness of O12 (RefusalsAndReads): states, commands and operands that meet its hypotheses. -/
theorem witness_refused_at_the_first_checks :
    ∀ op ∈ [0, 7, 2, 3, 4, 5, 6], let q : Request := { request op 0x9020 0x01 0 255 0 [] with bytes := (request op 0x9020 0x01 0 255 0 []).bytes.set 7 1 }; let d := asks base q
      Good d = true ∧ d.nextRequest = some q ∧ d.thawLease.dueBefore q.arrived = d ∧ d.inRom = false ∧ d.frontCheck q ≠ 0 ∧ recOp q.bytes = op ∧ writeKind q.bytes = .plain := by decide +kernel

/-- Witness of O12 (RefusalsAndReads): states, commands and operands that meet its hypotheses. -/
theorem witness_reads_of_one_unit :
    (let q := request 1 0x1000 0x01 0 255 0 []; let d := asks base q; Good d = true ∧ d.serves q = true ∧ recOp q.bytes = 1 ∧ d.objectCheck q.bytes false = 0 ∧ lengthCheck q.bytes 0 = 0 ∧
      findRow (recIndex q.bytes) (recSub q.bytes) = some (row 0x1000 0x01) ∧ exactPath (row 0x1000 0x01) q.bytes = true ∧ d.pathMembers q.bytes = [d.stackId] ∧ addressedUnits (row 0x1000 0x01) q.bytes = [0]) ∧
    (let q := request 1 0x1FFF 0x01 0 255 0 []; let d := asks base q; Good d = true ∧ d.serves q = true ∧ d.objectCheck q.bytes false ≠ 0) := by decide +kernel

/-- Witness of O13 (PlainWrites): states, commands and operands that meet its hypotheses. -/
theorem witness_plain_writes :
    Takes (owned.set 0x1020 0x01 1) (wr 0x1011 0x41 0 [0, 100]) .plain 0 = true ∧ Takes owned (wr 0x9020 0x01 7 [0]) .plain 0 = true ∧ Takes owned (wr 0x2010 0x01 24 [0, 0, 0x10, 0]) .plain 0 = true := by decide +kernel

/-- Witness of O14 (OwnerAndClaims): states, commands and operands that meet its hypotheses. -/
theorem witness_owners_requests :
    (let q := request 4 0 0 0 255 0 []; let d := asks owned q; Good d = true ∧ d.serves q = true ∧ lengthCheck q.bytes 0 = 0) ∧ (let q := request 5 0 0 0 255 0 []; let d := asks owned q; Good d = true ∧ d.serves q = true) ∧
    (let q := request 6 0 0 0 255 0 [0, 15]; let d := asks (owned.set 0x1010 0x01 2 0 15) q; Good d = true ∧ d.serves q = true ∧ lengthCheck q.bytes 2 = 0 ∧ beNat (recData q.bytes) = 15 ∧ d.obj 0x1010 0x01 0 15 ≠ 0 ∧
      d.obj 0x1010 0x01 0 15 ≠ 4 ∧ 15 ≠ d.obj 0x1011 0x01) ∧
    (let q := request 6 0 0 0 255 0 [0, 16]; let d := asks owned q; Good d = true ∧ d.serves q = true ∧ 16 ≤ beNat (recData q.bytes)) := by decide +kernel

/-- Witness of O14 (OwnerAndClaims): states, commands and operands that meet its hypotheses. -/
theorem witness_host_claims :
    let q := request 3 0 0 0 255 0 []
    (let d := asks (base.set 0x1010 0x01 0) q; Good d = true ∧ d.serves q = true ∧ lengthCheck q.bytes 0 = 0 ∧ q.src = .host 0 ∧ d.candidate (.host 0) = none) ∧
    (let d := asks ((base.set 0x1010 0x01 0).set 0x1010 0x01 1 0 15) q; Good d = true ∧ d.serves q = true ∧ d.candidate (.host 0) = some 15 ∧ d.obj 0x1011 0x02 = 0) ∧
    (let d := asks (((base.set 0x1010 0x01 1 0 15).set 0x1011 0x02 1).almUpd fun x => { x with windowEnd := 1 }) q; Good d = true ∧ d.serves q = true ∧ d.obj 0x1011 0x02 = 1 ∧ d.alm.participants = []) ∧
    (let d := asks owned q; Good d = true ∧ d.serves q = true ∧ d.obj 0x1011 0x02 = 2 ∧ d.candidate (.host 0) = some (d.obj 0x1011 0x01)) ∧
    (let d := asks (owned.set 0x1011 0x01 15) q; Good d = true ∧ d.serves q = true ∧ d.obj 0x1011 0x02 = 2 ∧ d.candidate (.host 0) = some 0 ∧ d.obj 0x1011 0x01 ≠ 0) := by decide +kernel

/-- Witness of O15 (WindowLeaseAndElection): states, commands and operands that meet its hypotheses. -/
theorem witness_window_and_lease :
    (let w : Participant := { record := 15, arrived := 0, claims := [] }; let d := (base.set 0x1011 0x02 1).almUpd fun x => { x with participants := [w] }
     Good d = true ∧ d.isLead = true ∧ d.pairRuns 0 = true ∧ d.obj 0x1011 0x02 = 1 ∧ d.alm.windowEnd ≤ d.now ∧ d.servedUpTo d.alm.windowEnd = true ∧ d.winner d.alm.participants = some w) ∧
    (let d := owned.almUpd fun x => { x with leaseEnd := 0 }; Good d = true ∧ d.stack.lease = none ∧ d.obj 0x1011 0x02 = 2 ∧ d.alm.leaseEnd ≤ d.now ∧ d.servedUpTo d.alm.leaseEnd = true) ∧
    (Good base = true ∧ base.obj 0x1011 0x02 ≠ 1 ∧ base.obj 0x1011 0x02 ≠ 2) := by decide +kernel

/-- Witness of O15 (WindowLeaseAndElection): states, commands and operands that meet its hypotheses. -/
theorem witness_election_order :
    base.winner [{ record := 15, arrived := 1, claims := [] }, { record := 0, arrived := 1, claims := [] }] = some { record := 0, arrived := 1, claims := [] } := by decide +kernel

/-! Time. -/

/-- A gPTP message of domain 0 at N1. -/
def sync0 : PtpMsg := { port := uN 0, domain := 0, seq := 9, twoStep := true, origin := 5, corr := 0, log := -3, rate := 0, gm := 7, utc := 37 }

/-- N1 sends and takes gPTP messages, and domain 0 is in state `v`. -/
def tracking (v : Nat) : Dev := (((base.set 0x8040 0x01 1 (uN 0)).set 0x8040 0x09 1 (uN 0)).set 0x8020 0x05 v)

/-- Witness of O16 (TimeMessagesAtASlavePort): states, commands and operands that meet its hypotheses. -/
theorem witness_time_messages_at_a_slave_port :
    (let d := base; Good d = true ∧ sync0.port < unitCount ∧ d.syncPort sync0.port = false) ∧
    (let d := tracking 0; Good d = true ∧ d.slaveDomains sync0 = []) ∧
    (let d := tracking 3; Good d = true ∧ d.syncPort sync0.port = true ∧ d.slaveDomains sync0 = [0] ∧ d.cpUp 2 = true ∧ (d.sex.dom 0).held = none) ∧
    (let d := ((tracking 3).set 0x8040 0x01 1 (uN 1)).set 0x8040 0x09 1 (uN 1); let m := { sync0 with twoStep := false, domain := 1, port := uN 1 }; Good d = true ∧ d.syncPort m.port = true ∧ d.slaveDomains m = [1] ∧ m.twoStep = false) ∧
    (let h : HeldSync := { seq := 9, port := uN 0, dom := 0, zt := 0, lt := 0, corr := 0, log := 0 }; let d := (tracking 3).setDom 0 { held := some h }; Good d = true ∧ d.slaveDomains sync0 = [0] ∧ (d.sex.dom 0).held = some h ∧ h.seq = sync0.seq ∧ h.port = sync0.port) ∧
    (let d := (tracking 3).set 0x8020 0x08 7; Good d = true ∧ d.slaveDomains sync0 = [0] ∧ (maskUnits (d.obj 0x8010 0x03)).contains sync0.port = false ∧ d.obj 0x8020 0x08 0 0 = sync0.gm ∧ d.domState 0 = 3) ∧
    (let d := { base with pairs := [(2, { state := 1 })] }; Good d = true ∧ d.cpUp 2 = false) :=
  by refine ⟨?_, ?_, ?_, ?_, ?_, ?_, ?_⟩ <;> decide +kernel

/-- Witness of O17 (ServoAndTimeouts): states, commands and operands that meet its hypotheses. -/
theorem witness_servo_rate_is_limited :
    ((0 : Int) ≤ 0) :=
  by decide +kernel

/-- Witness of O17 (ServoAndTimeouts): states, commands and operands that meet its hypotheses. -/
theorem witness_domain_and_zone_timeouts :
    (let d := atTime ((tracking 2).setDom 0 {}) (3 * perS); Good d = true ∧ d.receiptDue 0 (d.sex.dom 0).syncAt (d.obj 0x8020 0x09 0 0) (d.sex.dom 0).syncLog = true ∧ d.receiptDue 0 (d.sex.dom 0).annAt (d.obj 0x8020 0x0A 0 0) (d.sex.dom 0).annLog = true) ∧
    (let d := base; Good d = true ∧ (1 : Nat) < 2 ∧ d.receiptDue 1 (d.sex.dom 1).syncAt (d.obj 0x8020 0x09 0 1) (d.sex.dom 1).syncLog = false ∧ d.receiptDue 1 (d.sex.dom 1).annAt (d.obj 0x8020 0x0A 0 1) (d.sex.dom 1).annLog = false) ∧
    (let b : Blend := { start := 0, r0 := 0, tb := 0, target := 1 }; let d := base.sexUpd fun x => { x with blend := some b }; Good d = true ∧ d.sex.blend = some b ∧ b.frozen = none ∧ b.start + b.tb ≤ d.now) ∧
    (let b : Blend := { start := 0, r0 := 0, tb := 1, target := 1 }; let d := base.sexUpd fun x => { x with blend := some b }; Good d = true ∧ d.sex.blend = some b ∧ d.now < b.start + b.tb) ∧
    (let b : Blend := { start := 0, r0 := 0, tb := 0, target := 1, frozen := some 0 }; let d := base.sexUpd fun x => { x with blend := some b }; Good d = true ∧ d.sex.blend = some b ∧ b.frozen ≠ none) ∧
    (let d := atTime (((tracking 3).set 0x8000 0x03 2).set 0x8030 0x03 1) (60 * perS); Good d = true ∧ d.ownZone = true ∧ d.obj 0x8000 0x03 = 2 ∧ d.flag 0x8030 0x03 = true ∧ d.domState 0 = 3 ∧ d.cpUp 2 = true ∧ d.sex.d1.lockedAt + d.obj 0x8030 0x04 * perS ≤ d.now) ∧
    (let d := atTime (base.set 0x8000 0x03 4) (3600 * perS + 1); Good d = true ∧ d.ownZone = true ∧ d.obj 0x8000 0x03 = 4 ∧ d.sex.stateAt + d.obj 0x8010 0x08 * perS < d.now) ∧
    (let d := base; Good d = true ∧ d.obj 0x8000 0x03 ≠ 4) :=
  by refine ⟨?_, ?_, ?_, ?_, ?_, ?_, ?_⟩ <;> decide +kernel

/-- Witness of O18 (MessagesOfThisDevice): states, commands and operands that meet its hypotheses. -/
theorem witness_messages_of_this_device :
    (let d := atTime (((((base.set 0x8010 0x01 1).set 0x8010 0x03 1).set 0x8040 0x01 1 1).set 0x8040 0x09 1 1).set 0x8040 0x02 1 1) perS
     Good d = true ∧ (intervalDue d.sex.syncFrom (intervalsOf 1 (toI32 (d.obj 0x8010 0x06))) d.now).isSome = true ∧ (intervalDue d.sex.annFrom (intervalsOf 1 (toI32 (d.obj 0x8010 0x07))) d.now).isSome = true ∧
      d.flag 0x8010 0x01 = true ∧ maskUnits (d.obj 0x8010 0x03) = [1] ∧ d.syncPort 1 = true ∧ d.flag 0x8040 0x02 1 = true ∧ d.cpUp 2 = true ∧ d.flag 0x8040 0x01 1 = true) ∧
    (let d := base.set 0x8010 0x01 0; Good d = true ∧ d.flag 0x8010 0x01 = false ∧ intervalDue d.sex.syncFrom (intervalsOf 1 (toI32 (d.obj 0x8010 0x06))) d.now = none ∧ intervalDue d.sex.annFrom (intervalsOf 1 (toI32 (d.obj 0x8010 0x07))) d.now = none) ∧
    (let d := { base with pairs := [(2, { state := 1 })] }; Good d = true ∧ d.cpUp 2 = false) ∧
    (let d := atTime (base.set 0x8040 0x01 1 64) perS; Good d = true ∧ scopeHas .nesk 64 = true ∧ d.flag 0x8040 0x01 64 = true ∧ d.cpUp 2 = true ∧ (intervalDue (d.pd 64).at_ (intervalsOf 1 (toI32 (d.obj 0x8040 0x06 64))) d.now).isSome = true) ∧
    (let d := base.set 0x8040 0x01 0 64; Good d = true ∧ d.flag 0x8040 0x01 64 = false) ∧ (Good base = true ∧ intervalDue (base.pd 64).at_ (intervalsOf 1 (toI32 (base.obj 0x8040 0x06 64))) base.now = none ∧ (base.pd 64).sentAt = none) ∧
    (let m : PtpOut := { base.zoneMessage 0 0 with oneStep := true }; m.kind = 0 ∧ m.oneStep = true) ∧
    (let d := (base.set 0x8040 0x01 1 64).setPd 64 { sentAt := some 0 }; Good d = true ∧ d.flag 0x8040 0x01 64 = true ∧ d.cpUp 2 = true ∧ (d.pd 64).sentAt = some 0 ∧ (d.pd 64).seq = 0 ∧ (d.pd 64).prev = none ∧ (d.pd 64).last = none) ∧
    (let d := (atTime (base.set 0x8040 0x01 1 64) perS).setPd 64 { seq := 7, sentAt := some 1, waiting := true }; let s : State := { pending := [.pdelayRespReceived perS 64 7 2 3], dev := d }
     Good d = true ∧ State.Tick s perS d ∧ s.pdelayComes d 64 = true ∧ d.flag 0x8040 0x01 64 = true ∧ d.cpUp 2 = true ∧ (intervalDue (d.pd 64).at_ (intervalsOf 1 (toI32 (d.obj 0x8040 0x06 64))) d.now).isSome = true) ∧
    (let d := (base.set 0x8040 0x01 1 64).setPd 64 { seq := 8, last := some (7, 1, 0) }; Good d = true ∧ scopeHas .nesk 64 = true ∧ d.flag 0x8040 0x01 64 = true ∧ d.cpUp 2 = true ∧ (d.pd 64).seq ≠ 7 ∧ (d.pd 64).last = some (7, 1, d.now)) :=
  by refine ⟨?_, ?_, ?_, ?_, ?_, ?_, ?_, ?_, ⟨?_, ⟨?_, ?_⟩, ?_⟩, ?_⟩ <;> decide +kernel

/-- Witness of O20 (PpsOutputsAndSextantWrites): states, commands and operands that meet its hypotheses. -/
theorem witness_pps_pins :
    (let d := (base.set 0x8050 0x01 1 0 1).sexUpd fun x => { x with ppsSecond := [0, -1] }; Good d = true ∧ (1 : Nat) < 2 ∧ d.flag 0x8050 0x01 0 1 = true ∧ d.sex.ppsSecond.getD 1 0 < d.ppsSec 1) ∧
    (let d := base; Good d = true ∧ d.flag 0x8050 0x01 0 1 = false) ∧
    (let d := base.sexUpd fun x => { x with ppsActive := [false, true] }; Good d = true ∧ d.sex.ppsActive.getD 1 false = true ∧ d.sex.ppsEnd.getD 1 0 ≤ d.now) ∧
    (let d := base.sexUpd fun x => { x with ppsEnd := [0, 1] }; Good d = true ∧ d.now < d.sex.ppsEnd.getD 1 0) :=
  by refine ⟨?_, ?_, ?_, ?_⟩ <;> decide +kernel

/-- Witness of O20 (PpsOutputsAndSextantWrites): states, commands and operands that meet its hypotheses. -/
theorem witness_sextant_writes :
    (Takes owned (wr 0x8000 0x05 0 [1]) .snapshot 0 = true ∧ (wr 0x8000 0x05 0 [1]).value = 1) ∧
    (let d := owned.set 0x8020 0x05 0 0 1; let q := wr 0x8020 0x01 1 [1]; Takes d q .domainEnable 0 = true ∧ q.value = 1 ∧ q.record = 1 ∧ d.domState 1 = 0 ∧ d.cpUp 2 = true) ∧
    (let q := wr 0x8020 0x01 1 [0]; Takes owned q .domainEnable 0 = true ∧ q.value = 0 ∧ owned.domState q.record ≠ 0 ∧ owned.cpUp 2 = true) ∧
    (let d := { owned with pairs := [(2, { state := 1 })] }; Takes d (wr 0x8020 0x01 0 [0]) .domainEnable 0 = true ∧ d.cpUp 2 = false) :=
  ⟨by decide +kernel, by decide +kernel, by decide +kernel, by decide +kernel⟩

/-! The Plotter. -/

/-- Leg 15 in state `v` with one entry in each bank, at offset 0, and with its own state `l`. -/
def legDev (v : Nat) (l : LegSt) : Dev := ((((base.set 0x8420 0x01 1 0 15).set 0x8420 0x0E v 0 15).set 0x8420 0x07 1 0 15).set 0x8420 0x09 1 0 15).setLeg 15 l

/-- Witness of O21 (PlotterLegs): states, commands and operands that meet its hypotheses. -/
theorem witness_legs_fire :
    (let d := legDev 2 {}; let l := d.leg 15; let pos := l.cyc + d.legOff 15 (d.legBank 15) l.next
     Good d = true ∧ (15 : Nat) < 16 ∧ d.legState 15 = 2 ∧ l.next < d.legCount 15 (d.legBank 15) ∧ l.lastTick ≠ some d.tick ∧ pos ≤ d.legTick 15 + l.adv ∧ ¬ (l.since + 1 < d.tick ∧ pos ≤ d.legAt 15 (d.tickStart - 10) + l.adv)) ∧
    (let d := atTime (legDev 4 { cyc := -1000 }) 30; let l := d.leg 15; let pos := l.cyc + d.legOff 15 (d.legBank 15) l.next
     Good d = true ∧ d.legState 15 = 4 ∧ l.next < d.legCount 15 (d.legBank 15) ∧ l.lastTick ≠ some d.tick ∧ pos ≤ d.legTick 15 + l.adv ∧ l.since + 1 < d.tick ∧ pos ≤ d.legAt 15 (d.tickStart - 10) + l.adv) ∧
    (let d := base; Good d = true ∧ d.legState 15 ≠ 2 ∧ d.legState 15 ≠ 4 ∧ (0 : Nat) ≠ 15) ∧
    (let d := legDev 2 { cyc := 1 }; Good d = true ∧ (d.leg 15).next < d.legCount 15 (d.legBank 15) ∧ d.legTick 15 + (d.leg 15).adv < (d.leg 15).cyc + d.legOff 15 (d.legBank 15) (d.leg 15).next) ∧
    (let d := legDev 2 { lastTick := some 0 }; Good d = true ∧ (d.leg 15).next < d.legCount 15 (d.legBank 15) ∧ (d.leg 15).lastTick = some d.tick) ∧
    (let d := base.set 0x8420 0x04 0x1004E00 0 15; Good d = true ∧ d.legUnit 15 = none) ∧
    (let d := base.set 0x8420 0x04 0x4E0000 0 15; Good d = true ∧ d.legUnit 15 = some 1 ∧ d.unitPowered 1 = false) ∧
    (let d := (base.set 0x8420 0x04 0x4E0000 0 15).powUpd fun x => { x with domains := 31 }; Good d = true ∧ d.legUnit 15 = some 1 ∧ d.unitPowered 1 = true) :=
  by refine ⟨?_, ?_, ?_, ?_, ?_, ?_, ?_, ?_⟩ <;> decide +kernel

/-- Witness of O21 (PlotterLegs): states, commands and operands that meet its hypotheses. -/
theorem witness_legs_start_and_swap :
    (let d := legDev 1 {}; Good d = true ∧ d.legState 15 = 1 ∧ (d.leg 15).startAt ≤ d.sourceTick (d.legSource 15) + d.obj 0x8420 0x41 0 15 ∧ d.legSource 15 ≠ 4 ∧ (d.leg 15).armed = none) ∧
    (let d := (((legDev 1 {}).set 0x8420 0x02 4 0 15).set 0x8410 0x08 4); Good d = true ∧ d.legState 15 = 1 ∧ (d.leg 15).startAt ≤ d.sourceTick (d.legSource 15) ∧ d.phaseSynced = true ∧ d.legSource 15 = 4 ∧ (d.leg 15).armed = none) ∧
    (let d := legDev 1 { startAt := 1 }; Good d = true ∧ d.sourceTick (d.legSource 15) + d.obj 0x8420 0x41 0 15 < (d.leg 15).startAt ∧ d.legSource 15 ≠ 4) ∧
    (let d := legDev 2 { next := 1, cyc := -1000000, armed := some (0, 0) }; Good d = true ∧ d.legState 15 = 2 ∧ d.swapDue 15 = true ∧ d.legCycleEnded 15 = true) ∧
    (let d := legDev 2 {}; Good d = true ∧ d.swapDue 15 = false ∧ d.legCycleEnded 15 = false ∧ d.legState 15 ≠ 1) :=
  by refine ⟨?_, ?_, ?_, ?_, ?_⟩ <;> decide +kernel

/-- Witness of O22 (PhaseAndPlotterWrites): states, commands and operands that meet its hypotheses. -/
theorem witness_phase_input :
    (let d := base.set 0x8410 0x08 1; Good d = true ∧ (d.obj 0x8410 0x04 = 0 ↔ true = true) ∧ d.obj 0x8410 0x41 < 1001 ∧ d.obj 0x8410 0x08 = 1 ∧ d.plot.phase.edge = none ∧ d.obj 0x8410 0x03 ≠ 0) ∧
    (let d := (base.set 0x8410 0x08 1).set 0x8410 0x03 0; Good d = true ∧ d.obj 0x8410 0x08 = 1 ∧ d.plot.phase.edge = none ∧ d.obj 0x8410 0x03 = 0 ∧ d.store.length = 2 ∧ d.plot.legs = []) ∧
    (let d := atTime (((base.set 0x8410 0x08 4).set 0x8410 0x03 0).plotUpd fun x => { x with phase := { edge := some 0 } }) (20 * perUs)
     Good d = true ∧ d.obj 0x8410 0x08 = 4 ∧ d.obj 0x8410 0x03 = 0 ∧ d.plot.phase.edge = some 0 ∧ 20 * perUs ≤ d.now - 0 ∧ d.plot.phase.pos + 1 ≠ d.obj 0x8410 0x02) ∧
    (let d := atTime (((base.set 0x8410 0x08 4).set 0x8410 0x03 0).plotUpd fun x => { x with phase := { edge := some 0, pos := 59 } }) (20 * perUs)
     Good d = true ∧ d.obj 0x8410 0x08 = 4 ∧ d.obj 0x8410 0x03 = 0 ∧ d.plot.phase.edge = some 0 ∧ 20 * perUs ≤ d.now - 0 ∧ d.plot.phase.pos + 1 = d.obj 0x8410 0x02) ∧
    (let d := base; Good d = true ∧ d.obj 0x8410 0x08 = 0 ∧ ¬ (d.obj 0x8410 0x04 = 0 ↔ false = true) ∧ 1000 ≤ d.obj 0x8410 0x41 ∧ d.plot.phase.edge = none) ∧
    (let d := atTime ((base.set 0x8410 0x08 2).plotUpd fun x => { x with phase := { edge := some 0 } }) (100 * perMs); Good d = true ∧ d.plot.phase.edge = some 0 ∧ d.obj 0x8410 0x08 = 2 ∧ 0 + d.obj 0x8410 0x06 * perMs ≤ d.now ∧ d.plot.legs = []) :=
  by refine ⟨?_, ?_, ?_, ?_, ?_, ?_⟩ <;> decide +kernel

/-- The owned device with one entry in each bank of leg 15. -/
def entries : Dev := (owned.set 0x8420 0x07 1 0 15).set 0x8420 0x09 1 0 15

/-- Witness of O22 (PhaseAndPlotterWrites): states, commands and operands that meet its hypotheses. -/
theorem witness_plotter_writes :
    (let d := entries; let q := wr 0x8420 0x01 15 [1]; Takes d q .legEnable 0 = true ∧ q.value = 1 ∧ q.record = 15 ∧ d.flag 0x8420 0x01 0 15 = false) ∧
    (let d := entries.set 0x8420 0x01 1 0 15; let q := wr 0x8420 0x01 15 [0]; Takes d q .legEnable 0 = true ∧ q.value = 0 ∧ d.flag 0x8420 0x01 0 15 = true) ∧
    (let d := entries.set 0x8420 0x01 1 0 15; let q := wr 0x8420 0x0B 15 [1]; Takes d q .swapRequest 0 = true ∧ q.value = 1 ∧ d.flag 0x8420 0x01 0 15 = true) ∧
    (let d := entries; let q := wr 0x8420 0x0B 15 [1]; Takes d q .swapRequest 0 = true ∧ q.value = 1 ∧ d.flag 0x8420 0x01 0 15 = false) ∧
    (let q := wr 0x8410 0x01 0 [1]; Takes owned q .phaseEnable 0 = true ∧ q.value = 1 ∧ owned.obj 0x8410 0x08 = 0) :=
  by refine ⟨?_, ?_, ?_, ?_, ?_⟩ <;> decide +kernel

/-! Ports. -/

/-- Port `p` is up at 1000 Mbit/s in a device that carries frames. -/
def upPort (p : Nat) : Dev := ((((base.set 0xA000 0x02 4).set 0x2040 0x01 3 0 p).set 0x4020 0x03 1 (unitOfPort p)).set 0x4020 0x04 1000 (unitOfPort p)).fabUpd fun x => { x with link := [(p, true)] }

/-- A frame of `n` bytes to a station address. -/
def eth (n : Nat) : EthFrame := { data := [2, 0, 0, 0, 0, 1, 2, 0, 0, 0, 0, 2, 0x08, 0x00] ++ List.replicate (n - 14) 0, sec := none, hdr := none, preemptible := false, badBuckets := [] }

/-- The station address of `eth` is in the Chart, behind a port. -/
def knows (d : Dev) (p : Nat) : Dev := d.setMac (wayPos 0 (d.bucket 0 0x1020000000001) 0) (mkEntry 0x1020000000001 0 0 p 0 1)

/-- A stack header to member `m` with `h` hops. -/
def shdr (m h : Nat) : StackHdr := { dmem := m, dport := 31, smem := 3, sport := 24, cls := 7, pcp := 7, dei := false, vid := 4095, hops := h, oversize := false, tagged := true }

/-- A MAC control frame with an opcode and words after it. -/
def mac (op : Nat) (w : List Nat) : Bytes := let b : Bytes := List.replicate 12 0 ++ beBytes 2 macControl ++ beBytes 2 op ++ w.flatMap (beBytes 2); b ++ List.replicate (60 - b.length) 0

/-- Port `p` is enabled in a stack of one, with its domain on and no link. -/
def ready (p : Nat) : Dev := (((base.set 0xC040 0x07 1).set 0x4020 0x01 1 (p + 1)).powUpd fun x => { x with domains := 31 }).stackUpd fun x => { x with self := 2 }

/-- Witness of O23 (PortLinkAndWrites): states, commands and operands that meet its hypotheses. -/
theorem witness_port_link_and_flush :
    (let d := base.set 0x2040 0x01 1 0 22; Good d = true ∧ (22 : Nat) < 23 ∧ d.obj 0x2040 0x01 0 22 = 1) ∧
    (let d := base.set 0x2040 0x01 2 0 19; Good d = true ∧ d.obj 0x2040 0x01 0 19 ≠ 1) ∧
    (let d := atTime (base.set 0x2040 0x01 2 0 19) (base.obj 0x2040 0x02 0 19 * perMs); Good d = true ∧ d.obj 0x2040 0x01 0 19 = 2 ∧ tget (fun _ => 0) d.fab.downAt 19 + d.obj 0x2040 0x02 0 19 * perMs ≤ d.now) ∧
    (let d := base; Good d = true ∧ d.now < tget (fun _ => 0) d.fab.downAt 19 + d.obj 0x2040 0x02 0 19 * perMs) ∧
    (let d := ready 19; Good d = true ∧ (65535 : Nat) < 65536 ∧ 12 ≤ 19 ∧ d.linkUp 19 = false ∧ d.flag 0x4020 0x01 20 = true ∧ d.unitPowered 20 = true ∧ d.flag 0xC040 0x07 = true ∧ d.stack.self = 2 ∧ d.segmentOff 20 = false ∧ d.obj 0x4060 0x0E 20 = 0 ∧ d.portReady 19 = true) ∧
    (let d := (ready 19).fabUpd fun x => { x with link := [(19, true)] }; Good d = true ∧ d.linkUp 19 = true ∧ d.portReady 19 = true ∧ d.obj 0x4060 0x0E 20 = 0) ∧
    (let d := (ready 0).set 0x4010 0x01 1 1; let mode := d.obj 0x4010 0x01 1; Good d = true ∧ d.linkUp 0 = false ∧ d.flag 0x4020 0x01 1 = true ∧ d.unitPowered 1 = true ∧ d.flag 0xC040 0x07 = true ∧ d.stack.self = 2 ∧ d.segmentOff 1 = false ∧
      (modeRates 0 mode).contains 100 = true ∧ modeWord 0 mode = true ∧ (modeRates 0 mode).contains 10 = false) ∧
    (let d := (ready 12).set 0x4060 0x0E 1 13; Good d = true ∧ d.segmentOff 13 = false ∧ d.obj 0x4060 0x0E 13 ≠ 0 ∧ d.obj 0x4060 0x0E 13 ≠ 5) ∧
    (let d := base.set 0x4020 0x01 0 20; Good d = true ∧ d.flag 0x4020 0x01 20 = false) ∧
    (let d := upPort 19; Good d = true ∧ d.linkUp 19 = true ∧ d.portReady 19 = false ∧ d.obj 0x2040 0x01 0 19 = 3 ∧ d.fab.rx = []) ∧
    (let d := (upPort 0).set 0x4010 0x01 1 1; Good d = true ∧ d.linkUp 0 = true ∧ modeWord 0 (d.obj 0x4010 0x01 1) = true ∧ (0 : Nat) < 12) ∧
    (let d := base.set 0x4010 0x01 1 1; Good d = true ∧ d.linkUp 0 = false ∧ d.linkUp 12 = false ∧ modeWord 0 (d.obj 0x4010 0x01 1) = true ∧ (10 : Nat) ≠ 0 ∧ (modeRates 0 (d.obj 0x4010 0x01 1)).contains 10 = false) :=
  by refine ⟨?_, ?_, ?_, ?_, ?_, ?_, ?_, ?_, ?_, ?_, ?_, ?_⟩ <;> decide +kernel

/-- Witness of O24 (Reception): states, commands and operands that meet its hypotheses. -/
theorem witness_reception :
    (let d := knows (upPort 19) 19; let fr := eth 60; let y := d.plcaHear 19; Good d = true ∧ (19 : Nat) < 22 ∧ (fr.hdr.isSome = true ↔ (20 : Nat) ≤ 19) ∧ d.fab.early.contains (19, fr) = false ∧ fr.hdr = none ∧ d.linkUp 19 = true ∧ 60 ≤ fr.data.length ∧
      fr.data.length + 4 ≤ d.obj 0x4020 0x02 (unitOfPort 19) ∧ isMacControl fr.data = false ∧ y.macsecAccept 19 fr.sec ((parseFrame fr.data).ethertype == 0x88F7) = (y, true) ∧ (y.receiveLocal 19 fr.data fr.badBuckets (fr.data.length + 4) false).2.map (·.copies) = some []) ∧
    (let d := knows ((upPort 3).set 0x2040 0x01 3 0 4) 4; let fr := eth 1514; let y := d.plcaHear 3; Good d = true ∧ (fr.hdr.isSome = true ↔ (20 : Nat) ≤ 3) ∧ d.linkUp 3 = true ∧ fr.data.length + 4 ≤ d.obj 0x4020 0x02 (unitOfPort 3) ∧ isMacControl fr.data = false ∧
      y.macsecAccept 3 fr.sec ((parseFrame fr.data).ethertype == 0x88F7) = (y, true) ∧ (y.receiveLocal 3 fr.data fr.badBuckets (fr.data.length + 4) false).2.map (fun g => g.copies.map (fun c => (c.port, c.mirror))) = some [(4, false)]) ∧
    (let d := upPort 21; let fr := { eth 60 with hdr := some (shdr 3 3) }; Good d = true ∧ fr.hdr.isSome = true ∧ (20 : Nat) ≤ 21 ∧ fr.hdr = some (shdr 3 3) ∧ (shdr 3 3).dmem ≠ d.stackId ∧ d.linkUp 21 = true ∧ fr.data.length + 4 ≤ d.obj 0x4020 0x02 (unitOfPort 21) ∧
      isMacControl fr.data = false ∧ ((d.inc64 0x9420 0x0C (unitOfPort 21)).macsecAccept 21 fr.sec ((parseFrame fr.data).ethertype == 0x88F7)).2 = true ∧ (shdr 3 3).hops = 3 ∧ (shdr 3 2).hops < 3) ∧
    (let d := upPort 0; let fr := eth 59; Good d = true ∧ d.linkUp 0 = true ∧ fr.data.length < 60) ∧
    (let d := upPort 0; let fr := { eth 60 with data := mac 2 [] }; Good d = true ∧ d.linkUp 0 = true ∧ 60 ≤ fr.data.length ∧ isMacControl fr.data = true) ∧
    (let fr := eth 60; let d := (upPort 0).fabUpd fun x => { x with early := [(0, fr)] }; Good d = true ∧ d.fab.early.contains (0, fr) = true) ∧
    (let fr := eth 60; let d := upPort 0; let s : State := { pending := [.fabricMatch 0 { written := [], full := [], poisoned := [], lost := [], corrected := 0 }], dev := d }; Good d = true ∧ State.Tick s 0 d ∧ d.fab.early.contains (0, fr) = false ∧ s.matchWaits d = true) ∧
    (let d := base; Good d = true ∧ d.linkUp 0 = false ∧ tget (fun _ => none) d.fab.rx (0 * 2 + b2n false) = none ∧ tget (fun _ => none) d.fab.rx (21 * 2 + b2n true) = none ∧ RxEnd.good ≠ .assemblyError ∧ RxEnd.good ≠ .smdError) ∧
    (let r : RxSt := { frame := none, len := 64, kind := 0, learn := none, remote := false, stamp := 0, sec := none, oversize := false, dead := true }; let d := (upPort 21).fabUpd fun x => { x with rx := [(43, some r)] }; Good d = true ∧ tget (fun _ => none) d.fab.rx (21 * 2 + b2n true) = some r ∧ r.dead = true ∧ r.silent = false ∧ r.oversize = false ∧ r.kind = 0) ∧
    (let r : RxSt := { frame := none, len := 64, kind := 0, learn := none, remote := false, stamp := 0, sec := none, oversize := false, dead := false, silent := true }; let d := (upPort 12).fabUpd fun x => { x with rx := [(25, some r)] }; Good d = true ∧ tget (fun _ => none) d.fab.rx (12 * 2 + b2n true) = some r ∧ r.silent = true ∧ r.frame = none ∧ d.segState 13 ≠ 6) ∧
    (let r : RxSt := { frame := some 0, len := 64, kind := 0, learn := none, remote := false, stamp := 0, sec := none, oversize := false, dead := false }; let f := { frame1 with copies := [{ port := 4 }], sh := 1 }; let d := (upPort 0).fabUpd fun x => { x with rx := [(0, some r)], frames := [f] }
     Good d = true ∧ tget (fun _ => none) d.fab.rx (0 * 2 + b2n false) = some r ∧ r.frame = some 0 ∧ r.dead = false ∧ r.silent = false ∧ r.kind = 0 ∧ f.port = 0 ∧ r.sec = none ∧ r.learn = none ∧ d.fab.frames = [f] ∧ f.id = 0 ∧ f.copies ≠ [] ∧ f.freed = 0 ∧ cellsOf r.len ≤ f.held) :=
  by refine ⟨?_, ?_, ?_, ?_, ?_, ?_, ⟨?_, ⟨?_, ?_⟩, ?_⟩, ?_, ?_, ?_, ?_⟩ <;> decide +kernel

/-- Witness of O25 (FlowControl): states, commands and operands that meet its hypotheses. -/
theorem witness_flow_control :
    (let d := (upPort 21).set 0x4050 0x06 1 64; let b := mac 1 [0]; Good d = true ∧ isMacControl b = true ∧ d.linkUp 21 = true ∧ 60 ≤ b.length ∧ (20 : Nat) ≤ 21 ∧ field b 14 2 = 1 ∧ d.flag 0x4050 0x06 (unitOfPort 21) = true) ∧
    (let d := (upPort 11).set 0x4050 0x06 1 12; let b := mac 0x0101 [0x81, 0, 1, 2, 3, 4, 5, 6, 7]; Good d = true ∧ (11 : Nat) < 12 ∧ isMacControl b = true ∧ d.linkUp 11 = true ∧ 60 ≤ b.length ∧ field b 14 2 = 0x0101 ∧ d.flag 0x4050 0x06 (unitOfPort 11) = true) ∧
    (let d := (upPort 0).set 0x4050 0x06 0 1; let b := mac 1 [65535]; Good d = true ∧ isMacControl b = true ∧ d.linkUp 0 = true ∧ 60 ≤ b.length ∧ field b 14 2 = 1 ∧ d.flag 0x4050 0x06 (unitOfPort 0) = false) ∧
    (let d := upPort 19; let b := mac 1 [1]; Good d = true ∧ isMacControl b = true ∧ d.linkUp 19 = true ∧ 60 ≤ b.length ∧ (12 : Nat) ≤ 19 ∧ 19 < 20 ∧ isMacControl (b.take 59) = true ∧ (b.take 59).length < 60 ∧ base.linkUp 19 = false ∧ field (mac 2 []) 14 2 ≠ 1 ∧ field (mac 2 []) 14 2 ≠ 0x0101) ∧
    (let d := base.portUpd fun x => { x with stopped := [(175, some 0)] }; Good d = true ∧ (7 : Nat) < 8 ∧ tget (fun _ => none) d.ports.stopped (21 * 8 + 7) = some 0 ∧ 0 ≤ d.now) ∧
    (let d := base.portUpd fun x => { x with stopped := [(0, some 1)] }; Good d = true ∧ tget (fun _ => none) d.ports.stopped (0 * 8 + 0) = some 1 ∧ d.now < 1) ∧
    (let d := (base.set 0x4050 0x01 1 1).set 0x2010 0x04 8192 0 0; Good d = true ∧ d.obj 0x4050 0x01 1 ≠ 0 ∧ d.obj 0x4050 0x07 1 = 0) ∧
    (let d := (base.set 0x4050 0x01 1 1).set 0x4050 0x07 1 1; Good d = true ∧ d.obj 0x4050 0x01 1 ≠ 0 ∧ d.obj 0x4050 0x07 1 = 1 ∧ d.obj 0x2010 0x04 0 0 < d.obj 0x4050 0x03 1 ∧ tget (fun _ => none) d.ports.resentAt 0 = none) ∧
    (let d := atTime ((((upPort 20).set 0x4050 0x01 1 63).set 0x4050 0x07 1 63).set 0x2010 0x04 32768 0 20) (perS); Good d = true ∧ d.obj 0x4050 0x01 (unitOfPort 20) ≠ 0 ∧ d.obj 0x4050 0x07 (unitOfPort 20) = 1 ∧ d.obj 0x4050 0x03 (unitOfPort 20) ≤ d.obj 0x2010 0x04 0 20 ∧
      d.obj 0x4050 0x04 (unitOfPort 20) * 640000 ≤ (d.now - tget (fun _ => 0) d.ports.xoffAt 20) * 2 * d.obj 0x4020 0x04 (unitOfPort 20)) ∧
    (let d := base; Good d = true ∧ d.obj 0x4050 0x07 (unitOfPort 20) ≠ 1 ∧ d.pauses 21 = [] ∧ d.lineFree 21 = true) ∧
    (let f := { frame1 with copies := [{ port := 21, sent := 1, started := true }] }; let d := base.fabUpd fun x => { x with frames := [f] }; Good d = true ∧ d.pauses 21 = [] ∧ d.lineFree 21 = false) :=
  by refine ⟨?_, ?_, ?_, ?_, ?_, ?_, ?_, ?_, ?_, ?_, ?_⟩ <;> decide +kernel

/-- Witness of O26 (CellTimeAndPreemption): states, commands and operands that meet its hypotheses. -/
theorem witness_one_cell_time :
    (let d := base; Good d = true ∧ d.dataOn = false) ∧
    (let d := upPort 0; Good d = true ∧ d.dataOn = true ∧ d.fab.frames = [] ∧ d.fab.fromCp = [] ∧ d.fab.fromLog = [] ∧ d.fab.offers = [] ∧ d.fab.slots = [] ∧ d.fab.firsts = [] ∧ d.ports.pauses = [] ∧ noFlow d = true) ∧
    (let c : CellTime := { written := [], full := [], poisoned := [], lost := [], corrected := 0 }; let k : Copy := { port := 21 }; let f := { frame1 with port := 24, len := 129, avail := 3, sh := 3, cls := 7, copies := [k] }; let d := ((upPort 21).set 0x5060 0x01 255 64).fabUpd fun x => { x with frames := [f] }; Good d = true ∧ d.dataOn = true ∧ d.fab.frames = [f] ∧ f.copies = [k] ∧ f.whole = true ∧ 1 ≤ d.obj 0x2000 0x41 ∧ f.cls < 8 ∧ f.port < 25 ∧ k.port < 22 ∧ k.sent + 1 < f.avail ∧ k.crossed = false ∧ f.broken = none ∧ k.bad = false ∧ k.aborted = false ∧ k.mirror = false ∧ d.eligible c.full f k = true ∧ d.fab.fromCp = [] ∧ d.fab.fromLog = [] ∧ d.fab.offers = [] ∧ d.fab.slots = [] ∧ d.fab.firsts = [] ∧ d.ports.pauses = [] ∧ noFlow d = true) :=
  ⟨by decide +kernel, by decide +kernel, by decide +kernel⟩

/-- Witness of O27 (Transmission): states, commands and operands that meet its hypotheses. -/
theorem witness_transmission :
    (let c : Copy := { port := 21, sent := 1, crossed := true }; let f := { frame1 with copies := [c] }; let d := ((upPort 21).set 0x5060 0x01 255 64).fabUpd fun x => { x with frames := [f] }
     Good d = true ∧ (21 : Nat) < 22 ∧ d.fab.frames = [f] ∧ c.port = 21 ∧ c.mirror = false ∧ c.sent ≠ 0 ∧ c.started = false ∧ c.suspended = false ∧ c.retry = false ∧ c.aborted = false ∧ d.pauses 21 = [] ∧ d.kindOf f c = 0 ∧ f.cls < 8 ∧ d.obj 0x5061 0x01 64 f.cls = 0 ∧ d.portUp 21 = true ∧ tget (fun _ => none) d.ports.backoff 21 = none ∧
      d.plcaMay 21 = true ∧ d.mayStart 21 f c = true ∧ d.guardOk 21 f.cls (d.guardLen f c) = true ∧ d.macsecOn 21 = false ∧ f.lastCall = false ∧ f.ptp = none) ∧
    (let c : Copy := { port := 0, sent := 1, crossed := true }; let f := { frame1 with copies := [c] }
     let d := (((((((((upPort 0).set 0x5060 0x01 255 1).set 0x5060 0x02 1 1).set 0x8420 0x01 1 0 0).set 0x8420 0x03 1 0 0).set 0x8420 0x04 0x4E0000 0 0).set 0x8420 0x0E 2 0 0).set 0x8420 0x07 1 0 0).set 0x8420 0x09 1 0 0).fabUpd fun x => { x with frames := [f] }
     Good d = true ∧ c.port = 0 ∧ c.sent ≠ 0 ∧ c.started = false ∧ d.kindOf f c = 0 ∧ d.obj 0x5061 0x01 1 f.cls = 0 ∧ d.portUp 0 = true ∧ d.plcaMay 0 = true ∧ d.mayStart 0 f c = true ∧ d.guardOk 0 f.cls (d.guardLen f c) = false ∧ c.guardHeld = false ∧ c.aborted = false ∧ d.pauses 0 = []) ∧
    (let c : Copy := { port := 21, sent := 1, crossed := true }; let f := { frame1 with copies := [c], sh := 1 }; let d := (((upPort 21).set 0x5061 0x01 63 64 0).set 0x2000 0x04 1).fabUpd fun x => { x with frames := [f] }
     Good d = true ∧ f.whole = true ∧ f.broken = none ∧ f.ri + f.re + f.rc + f.sh ≤ d.obj 0x2000 0x04 ∧ d.kindOf f c = 0 ∧ d.obj 0x5061 0x01 64 f.cls ≠ 0 ∧ d.obj 0x5061 0x01 64 f.cls < d.egressLen f c ∧ c.aborted = false ∧ d.pauses 21 = []) ∧
    (let d := base; Good d = true ∧ d.pauses 0 = [] ∧ d.portUp 0 = false ∧ d.store.length = 0 ∧ objDefault (objKey 0x5061 0x01 1 0) = 0) ∧
    (let d := (upPort 19).set 0x4060 0x07 1 20; Good d = true ∧ d.pauses 19 = [] ∧ d.portUp 19 = true ∧ d.plcaMay 19 = false) ∧
    (let c : Copy := { port := 11, sent := 1, started := true, crossed := true }; let f := { frame1 with copies := [c], sh := 1 }; let d := (upPort 11).fabUpd fun x => { x with frames := [f] }
     Good d = true ∧ (11 : Nat) < 12 ∧ d.fab.frames = [f] ∧ c.port = 11 ∧ c.mirror = false ∧ c.sent ≠ 0 ∧ c.started = true ∧ c.suspended = false ∧ c.crossed = true ∧ c.bad = false ∧ c.hdr = none ∧ c.leaf = none ∧ d.kindOf f c = 0 ∧ f.oversize = false ∧ f.badFcs = false ∧
      d.egressLen f c ≤ (d.editOf f c).lim ∧ (d.editOf f c).sdu = 0 ∧ f.whole = true ∧ f.broken = none ∧ f.ptp = none ∧ d.ports.pauses = [] ∧ d.alm.waiting = false ∧ d.alm.answerDue = false ∧ noFlow d = true) ∧
    (let c : Copy := { port := 11, sent := 1, started := true, cut := true }; let f := { frame1 with copies := [c], sh := 3, whole := false }; let d := ((upPort 11).set 0x4030 0x02 143 12).fabUpd fun x => { x with frames := [f] }
     Good d = true ∧ d.fab.frames = [f] ∧ c.cut = true ∧ c.crossed = false ∧ c.bad = false ∧ c.leaf = none ∧ d.kindOf f c = 0 ∧ f.whole = false ∧ d.obj 0x4030 0x02 (unitOfPort 11) < 144 ∧ c.aborted = false ∧ d.ports.pauses = [] ∧ d.alm.waiting = false ∧ d.alm.answerDue = false ∧ noFlow d = true ∧
      f.ptp = none ∧ f.ptpEvent = false ∧ (let s : State := { pending := [.linkDown 0 0 .localFault], dev := d }; State.Tick s 0 d ∧ s.abortComes d f c = true)) ∧
    (let d := atTime (base.set 0x4030 0x41 60 1) (60 * perS); Good d = true ∧ d.obj 0x4030 0x41 (unitOfPort 0) ≠ 0 ∧ tget (fun _ => 0) d.ports.lastUnder 0 + d.obj 0x4030 0x41 (unitOfPort 0) * perS ≤ d.now) ∧
    (let d := base.set 0x4030 0x41 60 1; Good d = true ∧ d.now < tget (fun _ => 0) d.ports.lastUnder 0 + d.obj 0x4030 0x41 (unitOfPort 0) * perS) ∧
    (let d := base.set 0x4030 0x41 0 1; Good d = true ∧ d.obj 0x4030 0x41 (unitOfPort 0) = 0) :=
  by unfold State.Tick; refine ⟨?_, ?_, ?_, ?_, ?_, ?_, ?_, ?_, ?_, ?_⟩ <;> decide +kernel

/-- Witness of O26 (CellTimeAndPreemption): states, commands and operands that meet its hypotheses. -/
theorem witness_preemption_verify :
    (let d := base.set 0x4040 0x05 2 12; Good d = true ∧ (11 : Nat) < 12 ∧ d.obj 0x4040 0x05 12 = 2 ∧ d.obj 0x4040 0x05 12 ≠ 0) ∧
    (let d := base.set 0x4040 0x05 0 12; Good d = true ∧ d.obj 0x4040 0x05 12 ≠ 2 ∧ d.obj 0x4040 0x05 12 = 0) ∧
    (let d := atTime ((base.set 0x4040 0x05 2 1).portUpd fun x => { x with verify := [(0, (2, 0))] }) (perMs * 128); Good d = true ∧ d.obj 0x4040 0x05 1 = 2 ∧ tget (fun _ => (0, 0)) d.ports.verify 0 = (2, 0) ∧ 0 + d.obj 0x4040 0x03 1 * perMs ≤ d.now) ∧
    (let d := atTime ((base.set 0x4040 0x05 2 1).portUpd fun x => { x with verify := [(0, (3, 0))] }) (perMs * 128); Good d = true ∧ tget (fun _ => (0, 0)) d.ports.verify 0 = (3, 0) ∧ 0 + d.obj 0x4040 0x03 1 * perMs ≤ d.now) :=
  by refine ⟨?_, ?_, ?_, ?_⟩ <;> decide +kernel

/-- Witness of O28 (SharedLine): states, commands and operands that meet its hypotheses. -/
theorem witness_shared_line :
    (let d := ((upPort 19).set 0x4060 0x01 0 20).set 0x4060 0x07 1 20; let a := d.plcaAt 19 d.now; Good d = true ∧ 12 ≤ 19 ∧ d.obj 0x4060 0x01 20 = 0 ∧ d.obj 0x4060 0x07 20 = 1 ∧ d.linkUp 19 = true ∧ a.running = false) ∧
    (let d := ((upPort 12).set 0x4060 0x07 2 13).set 0x4020 0x01 0 13; Good d = true ∧ d.obj 0x4060 0x07 13 ≠ 1 ∧ d.flag 0x4020 0x01 13 = false) ∧
    (let d := (((ready 12).set 0x4060 0x01 1 13).set 0x4060 0x07 2 13); Good d = true ∧ d.flag 0x4020 0x01 13 = true ∧ d.unitPowered 13 = true ∧ d.segmentOff 13 = false ∧ d.obj 0x4060 0x01 13 = 1 ∧ d.obj 0x4060 0x07 13 = 2) ∧
    (let d := (((ready 12).set 0x4060 0x01 0 13).set 0x4060 0x07 1 13); Good d = true ∧ d.flag 0x4020 0x01 13 = true ∧ d.unitPowered 13 = true ∧ d.segmentOff 13 = false ∧ d.obj 0x4060 0x01 13 = 0) ∧
    (let d := atTime (((upPort 12).set 0x4060 0x01 1 13).set 0x4060 0x07 1 13) (base.obj 0x4060 0x42 13 * 125); Good d = true ∧ d.obj 0x4060 0x01 13 = 1 ∧ d.obj 0x4060 0x07 13 = 1 ∧ tget (fun _ => 0) d.ports.beaconAt 12 + d.obj 0x4060 0x42 13 * 125 ≤ d.now) ∧
    (let d := ((upPort 12).set 0x4060 0x01 1 13).set 0x4060 0x07 1 13; Good d = true ∧ d.now < tget (fun _ => 0) d.ports.beaconAt 12 + d.obj 0x4060 0x42 13 * 125) ∧
    (let c : Copy := { port := 12, sent := 1, started := true }; let f := { frame1 with copies := [c], sh := 1 }; let d := ((upPort 12).set 0x4060 0x07 1 13).fabUpd fun x => { x with frames := [f] }; Good d = true ∧ d.fab.frames = [f] ∧ c.port = 12 ∧ c.mirror = false ∧ c.sent ≠ 0 ∧ c.started = true ∧ c.suspended = false ∧ d.kindOf f c = 0 ∧ d.obj 0x4060 0x07 13 = 1) ∧
    (let c : Copy := { port := 12, sent := 1, started := true, attempts := 14 }; let f := { frame1 with copies := [c], sh := 1 }; let d := ((upPort 12).set 0x4060 0x07 3 13).fabUpd fun x => { x with frames := [f] }; Good d = true ∧ d.fab.frames = [f] ∧ d.kindOf f c = 0 ∧ d.obj 0x4060 0x07 13 ≠ 1 ∧ c.attempts + 1 < 16 ∧ f.whole = true) ∧
    (let c : Copy := { port := 12, sent := 1, started := true, attempts := 15 }; let f := { frame1 with copies := [c], sh := 1 }; let d := ((upPort 12).set 0x4060 0x07 3 13).fabUpd fun x => { x with frames := [f] }; Good d = true ∧ d.fab.frames = [f] ∧ d.kindOf f c = 0 ∧ d.obj 0x4060 0x07 13 ≠ 1 ∧ 16 ≤ c.attempts + 1 ∧ f.whole = true) ∧
    (let d := base.portUpd fun x => { x with backoff := [(12, some 0), (19, some 1)] }; Good d = true ∧ tget (fun _ => none) d.ports.backoff 12 = some 0 ∧ 0 ≤ d.now ∧ tget (fun _ => none) d.ports.backoff 19 = some 1 ∧ d.now < 1) ∧
    (let d := base; Good d = true ∧ LineFault.linesShorted ≠ .reversed ∧ bit (tget (fun _ => 0) d.ports.faults 12) (faultValue .linesShorted) = false ∧ d.linkUp 12 = false) ∧
    (let d := base.portUpd fun x => { x with faults := [(12, 31)] }; Good d = true ∧ bit (tget (fun _ => 0) d.ports.faults 12) (faultValue .open_) = true) ∧
    (let d := base.set 0x4060 0x41 1 13; Good d = true ∧ d.obj 0x4060 0x0E 13 = 0 ∧ d.flag 0x4060 0x41 13 = true) ∧
    (let d := base.set 0x4060 0x41 0 13; Good d = true ∧ d.obj 0x4060 0x0E 13 = 0 ∧ d.flag 0x4060 0x41 13 = false ∧ d.linkUp 12 = false) ∧
    (let d := base.set 0x4060 0x0E 6 13; Good d = true ∧ d.obj 0x4060 0x0E 13 = 6) ∧
    (let d := base.set 0x4060 0x12 1 13; Good d = true ∧ d.obj 0x4060 0x12 13 = 1 ∧ base.obj 0x4060 0x12 13 ≠ 1) :=
  by and_intros <;> decide +kernel

/-- Witness of O23 (PortLinkAndWrites): states, commands and operands that meet its hypotheses. -/
theorem witness_port_writes :
    (let q := request 2 0x4020 0x01 0x53 7 0 [1]; Takes owned q .portEnable 20 = true ∧ q.value = 1) ∧
    (let d := owned; let q := request 2 0x4020 0x01 0x53 7 0 [0]; Takes d q .portEnable 20 = true ∧ q.value = 0 ∧ d.linkUp (portOfUnit 20) = false) ∧
    (let d := owned; let q := request 2 0x4020 0x01 0x4E 0 0 [0]; Takes d q .portEnable 1 = true ∧ q.value = 0 ∧ d.linkUp (portOfUnit 1) = false) ∧
    (let q := wr 0x2000 0x0C 0 [1]; Takes owned q .peakReset 0 = true ∧ q.value = 1) ∧
    (let d := owned.set 0x1020 0x04 1; let q := request 2 0x4030 0x42 0x45 7 0 [1]; Takes d q .thresholdReset 12 = true ∧ q.value = 1) ∧
    (let d := owned.set 0x4020 0x01 0 13; let q := request 2 0x4060 0x11 0x53 0 0 [1]; Takes d q .cableTestStart 13 = true ∧ q.value = 1) :=
  by refine ⟨?_, ?_, ?_, ?_, ?_, ?_⟩ <;> decide +kernel

/-! The Chart and shaping. -/

/-- The Chart holds one entry, of the station of `eth` or its kin. -/
def chartDev (p e : Nat) : Dev := base.chartUpd fun x => { x with mac := [(p, e)] }

/-- A key of the Chart, and a request to learn it. -/
def key0 : Nat := 0x1020000000001
def learn0 : LearnReq := { key := key0, dest := 4, stamp := 0, msgFrom := none, remote := false }

/-- The middle of a line of three members: member 3 behind K0, member 1 behind K1. -/
def twoLinks : Dev :=
  let hello (m : Nat) : Hello := { self := { member := m, firmware := 0, image := 0, boots := 0, applied := 0, clock := 0, lead := 0, state := 2, cp0Held := false, links := [0] }, port := 1, others := [] }
  ((((((((base.set 0x9420 0x02 2 63).set 0x9420 0x02 2 64).set 0x9420 0x03 3 63).set 0x9420 0x03 1 64).set 0x9410 0x01 2 0 3).set 0x9410 0x01 2 0 1).set 0x9410 0x07 1 0 3).setKlink 0 { hello := some (hello 3) }).setKlink 1 { hello := some (hello 1) }

/-- A device of stand-alone learning with one request waiting and one entry, of the same key, in its first bucket. -/
def learning (e : Nat) : Dev := ((atTime base perS).set 0x3008 0x00 0).chartUpd fun x => { x with queue := [learn0], mac := if e = 0 then [] else [(wayPos 0 (base.bucket 0 key0) 0, e)] }

/-- Witness of O29 (ChartLearning): states, commands and operands that meet its hypotheses. -/
theorem witness_chart_learning :
    (let d := base; Good d = true ∧ d.chart.queue = []) ∧
    (let d := learning 0; Good d = true ∧ d.chart.queue = [learn0] ∧ learn0.key < 2 ^ 60 ∧ learn0.dest < 2048 ∧ d.obj 0x3008 0x00 = 0 ∧ learn0.msgFrom = none ∧ learn0.remote = false ∧ d.chart.flushes = [] ∧ d.chartFind key0 = none ∧ d.fillWay 0 (mkEntry key0 d.ltSec 0 4 0 1) ≠ none) ∧
    (let p := wayPos 0 (base.bucket 0 key0) 0; let d := learning (mkEntry key0 0 255 3 0 1); Good d = true ∧ d.chartFind key0 = some p ∧ entType (d.mac p) ≠ 3 ∧ entDest (d.mac p) ≠ 4 ∧ entLock (d.mac p) = false ∧ entAge (d.mac p) ≠ d.ltSec % 2 ^ 17 ∧ 1 ≤ d.obj 0x3005 0x01) ∧
    (let p := wayPos 0 (base.bucket 0 key0) 0; let d := learning (mkEntry key0 1 255 3 0 2); Good d = true ∧ d.chartFind key0 = some p ∧ entType (d.mac p) ≠ 3 ∧ entDest (d.mac p) ≠ 4 ∧ entLock (d.mac p) = false ∧ entAge (d.mac p) = d.ltSec % 2 ^ 17 ∧ d.obj 0x3005 0x01 ≤ entMoves (d.mac p)) ∧
    (let p := wayPos 0 (base.bucket 0 key0) 0; let d := learning (mkEntry key0 1 0 3 0 3); Good d = true ∧ d.chartFind key0 = some p ∧ entType (d.mac p) = 3 ∧ entDest (d.mac p) ≠ 4) ∧
    (let p := wayPos 0 (base.bucket 0 key0) 0; let d := learning (mkEntry key0 1 0 3 0 1 + 2 ^ 100); Good d = true ∧ d.chartFind key0 = some p ∧ entLock (d.mac p) = true ∧ entDest (d.mac p) ≠ 4) ∧
    (let d := base.set 0x3008 0x00 0; Good d = true ∧ d.obj 0x3008 0x00 ≠ 1 ∧ (3 : Nat) < 4 ∧ 2 ^ 60 - 1 < 2 ^ 60 ∧ 127 < 128 ∧ d.onward 3 = none) ∧
    (let d := twoLinks; Good d = true ∧ d.onward 3 = some 1 ∧ d.macsecOn 21 = false) ∧
    (let d := base.chartUpd fun x => { x with recent := [{ key := 0, stamp := 0, member := 3, at_ := 0 }] }; Good d = true ∧ d.obj 0x3008 0x00 = 1 ∧ d.stale { key := 0, dest := 127, stamp := 0, msgFrom := some 3, remote := true } = true) ∧
    (let d := base; Good d = true ∧ d.obj 0x3008 0x00 = 1 ∧ d.stale { key := 0, dest := 127, stamp := 0, msgFrom := some 3, remote := true } = false ∧ d.flag 0x3004 0x01 = true ∧ d.chart.queue.length < 256) ∧
    (let p := wayPos 0 (base.bucket 0 key0) 0; let d := chartDev p (mkEntry key0 0 0 35 0 2); Good d = true ∧ d.chartFind key0 = some p ∧ entType (d.mac p) = 2) ∧
    (let p := wayPos 0 (base.bucket 0 key0) 3; let d := chartDev p (mkEntry key0 0 0 35 0 1); Good d = true ∧ d.chartFind key0 = some p ∧ entType (d.mac p) ≠ 2) ∧
    (let d := base; Good d = true ∧ d.chartFind key0 = none) :=
  by and_intros <;> decide +kernel

/-- Witness of O30 (ChartFlushesAndWrites): states, commands and operands that meet its hypotheses. -/
theorem witness_chart_ageing_and_flushes :
    (let e := mkEntry key0 0 0 3 0 1; let d : Dev := atTime ((chartDev 65536 e).set 0x3008 0x00 0) (600 * perS); Good d = true ∧ d.chart.flushes = [] ∧ d.chart.queue = [] ∧ d.chart.mac = [(65536, e)] ∧ e ≠ 0 ∧ 16385 ≤ 16385 ∧ d.chart.scan ≤ scanBucket 65536 ∧ scanBucket 65536 < d.chart.scan + 16385 ∧ entLock e = false ∧ d.obj 0x3008 0x00 = 0 ∧ entType e = 1 ∧ d.obj 0x3006 0x01 < (d.ltSec + 2 ^ 17 - entAge e) % 2 ^ 17) ∧
    (let e := mkEntry key0 0 0 3 0 2; let d := (chartDev 3 e).set 0x3008 0x00 0; Good d = true ∧ scanBucket 3 < d.chart.scan + 1 ∧ entLock e = false ∧ (d.ltSec + 2 ^ 17 - entAge e) % 2 ^ 17 ≤ d.obj 0x3006 0x01) ∧
    (let e := mkEntry key0 0 0 3 0 3; let d := (chartDev 3 e).set 0x3008 0x00 0; Good d = true ∧ scanBucket 3 < d.chart.scan + 1 ∧ entLock e = false ∧ entType e = 3) ∧
    (let e := mkEntry key0 0 0 3 0 1; let d := chartDev (stashBase + 31) e; Good d = true ∧ d.chart.flushes = [] ∧ d.chart.queue = [] ∧ d.chart.mac = [(stashBase + 31, e)] ∧ e ≠ 0 ∧ d.bucketGone 0 (d.bucket 0 (entKey e)) = false) ∧
    (let d := learning 0; Good d = true ∧ d.chart.queue ≠ [] ∧ d.chart.mac = []) ∧
    (let f : ChartFlush := { byFid := false, val := 3, holdDown := true }; let d := (((chartDev 3 (mkEntry key0 0 0 3 0 1)).set 0x3008 0x00 0).set 0xA000 0x02 4).chartUpd fun x => { x with flushes := [f] }; Good d = true ∧ d.chart.flushes = [f] ∧ d.chart.held = [] ∧ (d.chart.mac.map (·.1)).Pairwise (· < ·) ∧ d.obj 0x3008 0x00 = 0 ∧ d.alm.waiting = false ∧ d.alm.answerDue = false ∧ f.pos < 16385) ∧
    (let f : ChartFlush := { byFid := true, val := 65535, holdDown := false, pos := 16385 }; let d := (((chartDev 3 (mkEntry key0 0 0 3 0 1)).set 0x3008 0x00 0).set 0xA000 0x02 4).chartUpd fun x => { x with flushes := [f] }; Good d = true ∧ d.chart.flushes = [f] ∧ d.chart.held = [] ∧ (d.chart.mac.map (·.1)).Pairwise (· < ·) ∧ d.obj 0x3008 0x00 = 0 ∧ d.alm.waiting = false ∧ d.alm.answerDue = false ∧ 16385 ≤ f.pos ∧ f.byFid ≠ false) ∧
    (let d := base; Good d = true ∧ d.chart.flushes = []) :=
  by refine ⟨?_, ?_, ?_, ?_, ?_, ?_, ?_, ?_⟩ <;> decide +kernel

/-- Witness of O30 (ChartFlushesAndWrites): states, commands and operands that meet its hypotheses. -/
theorem witness_chart_writes :
    (Takes owned (wr 0x3070 0x01 0 [255]) .chartFlushByPort 0 = true) ∧
    (Takes owned (wr 0x3070 0x02 0 [0x0F, 0xFF]) .chartFlushByFid 0 = true) ∧
    (let q := wr 0x3005 0x07 0 [1]; Takes owned q .unlockAll 0 = true ∧ q.value = 1) ∧
    (let q := wr 0x3050 0x01 4095 [1]; Takes owned q .staticEntryEnable 0 = true ∧ q.value = 1 ∧ q.record = 4095 ∧ owned.flag 0x3050 0x01 0 4095 = false) ∧
    (let d := (owned.set 0x3004 0x01 0).set 0x1020 0x03 1; Takes d (wr 0x3001 0x42 0 [0, 1]) .seedWrite 0 = true ∧ d.statics = []) ∧
    (Takes owned (wr 0x3040 0x01 1023 [1]) .ruleEnable 0 = true) ∧
    (let q := wr 0x3004 0x01 0 [0]; Takes owned q .learningEnable 0 = true ∧ q.value = 0) ∧
    (let q := wr 0x3004 0x01 0 [1]; Takes owned q .learningEnable 0 = true ∧ q.value = 1) :=
  by refine ⟨?_, ?_, ?_, ?_, ?_, ?_, ?_, ?_⟩ <;> decide +kernel

/-- Witness of O31 (ShapingAndObservation): states, commands and operands that meet its hypotheses. -/
theorem witness_shaping_and_observation :
    (Takes owned (wr 0x5010 0x01 14 [1]) .portNodeEnable 0 = true) ∧
    (let q := wr 0x5040 0x01 2047 [0]; Takes owned q .policerMode 0 = true ∧ q.value = 0) ∧
    (let d := (owned.set 0x5040 0x03 125 0 2047).set 0x5040 0x04 2000 0 2047; let q := wr 0x5040 0x01 2047 [1]; Takes d q .policerMode 0 = true ∧ q.value ≠ 0) ∧
    (let q := wr 0x5070 0x03 0 [1]; Takes owned q .histogramClear 0 = true ∧ q.value = 1 ∧ objDefault (objKey 0x5080 6 0 4095) = 0) ∧
    (let d := base.set 0x5070 0x01 0; Good d = true ∧ d.flag 0x5070 0x01 = false ∧ (4095 : Nat) < 4096) ∧
    (let d := { base with shape := { base.shape with visited := [(0, 1)] } }; Good d = true ∧ d.visitDue 0 = none) ∧
    (let d := base.set 0x5020 0x01 0; Good d = true ∧ d.flag 0x5070 0x01 = true ∧ d.visitDue 0 = some (0, false) ∧ d.flag 0x5020 0x01 0 (0 / 8) = false) ∧
    (let d := base; Good d = true ∧ d.flag 0x5070 0x01 = true ∧ d.visitDue 0 = some (0, false) ∧ d.flag 0x5020 0x01 0 (0 / 8) = true ∧ (0 : Nat) ≠ 4095 ∧ d.leafWaiting 0 = []) ∧
    (let f := { frame1 with copies := [{ port := 0, leaf := some 4095 }] }; let d := atTime ((base.set 0x5020 0x01 1 0 511).fabUpd fun x => { x with snap := [f] }) perUs; Good d = true ∧ d.visitDue 4095 = some (0, false) ∧ d.flag 0x5020 0x01 0 (4095 / 8) = true ∧ d.leafWaiting 4095 = [f] ∧ d.leafDepth 4095 ≠ 0) :=
  by refine ⟨?_, ?_, ?_, ?_, ?_, ?_, ?_, ?_, ?_⟩ <;> decide +kernel

/-! CAN and LIN. -/

/-- CAN channel 23 in state `v` with its supply on. -/
def canDev (v : Nat) : Dev := (base.set 0x6010 0x04 v 44).powUpd fun x => { x with domains := 31 }

/-- LIN channel 15 in state `v`, a master (0) or a slave (1), with its supply on. -/
def linDev (v role : Nat) : Dev := ((base.set 0x6810 0x05 v 60).set 0x6810 0x02 role 60).powUpd fun x => { x with domains := 31 }

/-- Witness of O32 (CanChannelStates): states, commands and operands that meet its hypotheses. -/
theorem witness_can_channel_states :
    (let d := canDev 1; Good d = true ∧ uC 23 = 44 ∧ (23 : Nat) < 24 ∧ d.canState 44 = 1 ∧ (d.chan 44).settle = none ∧ d.unitPowered 44 = true ∧ d.obj 0x6010 0x05 44 ≤ 127 ∧ d.obj 0x6010 0x06 44 ≤ 127) ∧
    (let d := base; Good d = true ∧ d.canState 44 ≠ 1 ∧ (d.chan 44).stopping = false) ∧
    (let d := (canDev 2).setChan 44 { stopping := true }; Good d = true ∧ (d.chan 44).stopping = true ∧ d.canActive 44 = none) ∧
    (let d := canDev 4; Good d = true ∧ d.canState 44 = 4 ∧ d.unitPowered 44 = true ∧ (d.chan 44).offUntil ≤ d.now) ∧
    (let d := (canDev 4).setChan 44 { offUntil := 1 }; Good d = true ∧ d.canState 44 = 4 ∧ d.now < (d.chan 44).offUntil) ∧
    (let d := canDev 2; Good d = true ∧ d.obj 0x6010 0x02 44 = 1 ∧ d.canState 44 = 2 ∧ d.unitPowered 44 = true ∧ d.canActive 44 = none) ∧
    (let d := base.set 0x6010 0x02 0 44; Good d = true ∧ d.obj 0x6010 0x02 44 ≠ 1) ∧
    (let d := ((canDev 0).set 0x6010 0x01 1 44).setChan 44 { settle := some 0 }; Good d = true ∧ (d.chan 44).settle = some 0 ∧ 0 ≤ d.now ∧ d.unitPowered 44 = true ∧ d.flag 0x6010 0x01 44 = true ∧ d.canState 44 = 0 ∧ d.flag 0x6010 0x0A 44 = false) ∧
    (let d := (linDev 1 0).setLin 60 { settle := some 0 }; Good d = true ∧ uL 15 = 60 ∧ (15 : Nat) < 16 ∧ (d.lin 60).settle = some 0 ∧ 0 ≤ d.now ∧ d.unitPowered 60 = true) :=
  by refine ⟨?_, ?_, ?_, ?_, ?_, ?_, ?_, ?_, ?_⟩ <;> decide +kernel

/-- Witness of O33 (CanFrames): states, commands and operands that meet its hypotheses. -/
theorem witness_can_frames :
    (let f : CanFrame := { ident := 0x600007FF, data := List.replicate 64 0 }; let d := canDev 2; Good d = true ∧ canFrameOk f = true ∧ d.canState 44 = 2 ∧ d.unitPowered 44 = true ∧ (d.chan 44).settle = none ∧ modeHandles (d.obj 0x6010 0x02 44) (canFmt f) = true ∧ d.canActive 44 = none ∧ (d.canReceive 44 f 5).isKeepAlive 44 f.ident f.data = false) ∧
    (let f : CanFrame := { ident := 0x500, data := [9, 1, 0, 0] }; let d := canDev 2; Good d = true ∧ canFrameOk f = true ∧ modeHandles (d.obj 0x6010 0x02 44) (canFmt f) = true ∧ (d.canReceive 44 f 5).isKeepAlive 44 f.ident f.data = true ∧ (d.canReceive 44 f 5).nodeIgnored 44 (byteAt f.data 0) = false) ∧
    (let f : CanFrame := { ident := 0x400007FF, data := [1] }; let d := (canDev 3).set 0x6010 0x02 0 44; Good d = true ∧ canFrameOk f = true ∧ d.canState 44 = 3 ∧ d.canActive 44 = none ∧ modeHandles (d.obj 0x6010 0x02 44) (canFmt f) = false ∧ d.obj 0x6010 0x02 44 = 0) ∧
    (let f : CanFrame := { ident := 0x800007FF, data := [1] }; let d := (canDev 2).set 0x6010 0x02 1 44; Good d = true ∧ canFrameOk f = true ∧ d.canActive 44 = none ∧ modeHandles (d.obj 0x6010 0x02 44) (canFmt f) = false ∧ d.obj 0x6010 0x02 44 = 1) ∧
    (let f : CanFrame := { ident := 0x7FF }; let d := canDev 2; Good d = true ∧ d.canServiceFrame 44 f = false ∧ d.obj 0x6010 0x06 44 = 0 ∧ (d.ingress 23).length < 16 ∧ (d.chan 44).staging = []) ∧
    (let f : CanFrame := { ident := 0xC0000000, dlc := 8 }; let d := base; Good d = true ∧ canFrameOk f = true ∧ d.canState 44 ≠ 2 ∧ d.canState 44 ≠ 3) ∧
    (let d := (canDev 2).set 0x6020 0x04 1 44 31; Good d = true ∧ d.canMayStart 44 = true ∧ d.canSelect 44 = some 31 ∧ 31 < 32 ∧ 65535 < 65536 ∧ d.alm.canOut = []) ∧
    (let d := base; Good d = true ∧ d.canMayStart 44 = false ∧ d.canSelect 44 = none ∧ d.canActive 44 = none ∧ d.canState 44 = 0) ∧
    (let d := (canDev 2).set 0x6020 0x04 3 44 31; Good d = true ∧ d.canActive 44 = some 31 ∧ (d.buf 44 31).held = none ∧ d.alm.canOut = [] ∧ d.obj 0x6010 0x05 44 = 0 ∧ d.obj 0x6020 0x01 44 31 = 0 ∧ d.bufShut 44 31 = false) ∧
    (let d := ((((canDev 2).set 0x6020 0x04 3 44 31).set 0x6020 0x02 1 44 31).set 0x6020 0x09 0 44 31).set 0x6020 0x03 1 44 31; Good d = true ∧ d.canActive 44 = some 31 ∧ (d.buf 44 31).held = none ∧ d.alm.canOut = [] ∧ d.bufShut 44 31 = true ∧ d.obj 0x6020 0x03 44 31 = 1) ∧
    (let e : CanError := { kind := 6, transmitting := false, exempt := false, heavy := true, place := none }; let d := (canDev 2).set 0x6010 0x06 119 44; Good d = true ∧ 1 ≤ e.kind ∧ e.kind ≤ 6 ∧ e.place = none ∧ d.canState 44 = 2 ∧ d.unitPowered 44 = true ∧ (d.chan 44).settle = none ∧ d.flag 0x6010 0x03 44 = false ∧ e.transmitting = false ∧ d.obj 0x6010 0x02 44 ≠ 2 ∧ d.obj 0x6010 0x05 44 ≤ 127 ∧ d.obj 0x6010 0x06 44 < 120) ∧
    (let e : CanError := { kind := 1, transmitting := true, exempt := false, heavy := false, place := none }; let d := ((canDev 3).set 0x6010 0x05 248 44).set 0x6020 0x04 3 44 0; Good d = true ∧ e.place = none ∧ d.canState 44 = 3 ∧ d.flag 0x6010 0x03 44 = false ∧ e.transmitting = true ∧ e.exempt = false ∧ 248 ≤ d.obj 0x6010 0x05 44 ∧ d.canActive 44 = some 0 ∧ d.obj 0x6010 0x02 44 ≠ 2) ∧
    (let e : CanError := { kind := 6, transmitting := false, exempt := false, heavy := false, place := some (65535, 1) }; let d := ((canDev 2).set 0x6010 0x02 2 44).set 0x6011 0x46 0 44; Good d = true ∧ d.unsignalled 44 none e = true ∧ e.kind ≠ 4 ∧ e.transmitting = false ∧ d.flag 0x6010 0x03 44 = false) :=
  by and_intros <;> decide +kernel

/-- Witness of O34 (LinFrames): states, commands and operands that meet its hypotheses. -/
theorem witness_lin_frames :
    (let f : LinFrame := { id := 1, len := 1, start := 0, mark := 0, own := false }; let d := (linDev 1 0).setLin 60 { frame := some f }; Good d = true ∧ d.slotsDriven 60 = false ∧ (d.lin 60).slotAt ≤ d.now ∧ d.linState 60 = 1 ∧ d.linMaster 60 = true ∧ d.unitPowered 60 = true ∧ (d.lin 60).settle = none ∧ (d.lin 60).stopping = false ∧ d.obj 0xA020 0x0C 60 = 0 ∧ (d.lin 60).frame = some f) ∧
    (let d := (((linDev 1 0).set 0x6810 0x06 63 60).set 0x6838 0x01 2 0 63).set 0x6820 0x01 2 60 0; Good d = true ∧ d.slotsDriven 60 = false ∧ (d.lin 60).slotAt ≤ d.now ∧ d.linState 60 = 1 ∧ d.linMaster 60 = true ∧ d.obj 0xA020 0x0C 60 = 0 ∧ (d.lin 60).frame = none ∧ (d.lin 60).collide = none ∧ (d.lin 60).request = none ∧ (d.lin 60).resume = none ∧ d.obj 0x6810 0x06 60 = 63 ∧ 63 < 64 ∧ d.obj 0x6810 0x08 60 + 1 < d.tableCount 63 ∧ d.obj 0x6830 0x01 0 (63 * 64 + d.obj 0x6810 0x08 60) = 0 ∧ d.obj 0x6820 0x01 60 (d.obj 0x6830 0x02 0 (63 * 64 + d.obj 0x6810 0x08 60)) = 2) ∧
    (let d := (((base.set 0x8420 0x03 4 0 15).set 0x8420 0x0E 2 0 15).set 0x8420 0x04 0x574F00 0 15); Good d = true ∧ d.slotsDriven 60 = true) ∧
    (let d := (linDev 1 0).setLin 60 { slotAt := 1 }; Good d = true ∧ d.now < (d.lin 60).slotAt) ∧
    (let d := (linDev 1 1).set 0x6820 0x01 2 60 0x10; Good d = true ∧ d.linState 60 = 1 ∧ d.linMaster 60 = false ∧ d.unitPowered 60 = true ∧ (d.lin 60).settle = none ∧ (d.lin 60).stopping = false ∧ (d.lin 60).frame = none ∧ d.obj 0x6810 0x03 60 < 65536 ∧ d.obj 0x6820 0x01 60 0x10 = 2 ∧
      (let h : LinHead := { rate := d.obj 0x6810 0x03 60, brk := 716146 }; 11 * 1250000000 ≤ h.brk * h.rate) ∧ (let h : LinHead := { rate := d.obj 0x6810 0x03 60, brk := 716145 }; h.brk * h.rate < 11 * 1250000000)) ∧
    (let f : LinFrame := { id := 59, len := 8, start := 0, mark := 0, own := true }; let d := (linDev 1 0).setLin 60 { frame := some f }; Good d = true ∧ (d.lin 60).frame = some f ∧ f.own = true ∧ f.failed = false ∧ f.resp = none ∧ f.sleepCmd = false ∧ d.linMaster 60 = true ∧ f.respAt ≤ d.now ∧ 0 < (d.linData 60 f ++ [d.linCheckByte 60 f.id (d.linData 60 f)]).length) ∧
    (let f : LinFrame := { id := 59, len := 8, start := 0, mark := 0, own := true, respAt := 1 }; let d := (linDev 1 0).setLin 60 { frame := some f }; Good d = true ∧ (d.lin 60).frame = some f ∧ f.own = true ∧ f.failed = false ∧ f.resp = none ∧ d.now < f.respAt) ∧
    (let f : LinFrame := { id := 59, len := 8, start := 0, mark := 0, own := false }; let d := ((linDev 1 1).set 0x6820 0x01 2 60 59).setLin 60 { frame := some f }; Good d = true ∧ (d.lin 60).frame = some f ∧ (List.replicate 8 (0 : Byte)).length ≤ 8 ∧ f.failed = false ∧ f.own = false ∧ (List.replicate 8 (0 : Byte)).length = f.len ∧ f.sleepCmd = false ∧ d.obj 0x6820 0x01 60 f.id = 2 ∧ (d.ingress (24 + 15)).length < 16 ∧ (d.lin 60).staging = [] ∧ (d.lin 60).sleepDue = false ∧ f.resp = none ∧ f.type = 0 ∧ f.id ≠ 61) ∧
    (let f : LinFrame := { id := 59, len := 8, start := 0, mark := 0, own := false }; let d := atTime ((linDev 1 0).setLin 60 { frame := some f }) (frameMaxTime 8 19200); Good d = true ∧ (d.lin 60).frame = some f ∧ f.start + frameMaxTime f.len (d.obj 0x6810 0x03 60) ≤ d.now) ∧
    (let f : LinFrame := { id := 59, len := 8, start := 0, mark := 0, own := false }; let d := (linDev 1 0).setLin 60 { frame := some f }; Good d = true ∧ (d.lin 60).frame = some f ∧ d.now < f.start + frameMaxTime f.len (d.obj 0x6810 0x03 60)) ∧
    (let d := base; Good d = true ∧ (d.lin 60).frame = none) :=
  by refine ⟨?_, ?_, ?_, ?_, ?_, ?_, ?_, ?_, ?_, ?_, ?_⟩ <;> decide +kernel

/-- Witness of O35 (BusWrites): states, commands and operands that meet its hypotheses. -/
theorem witness_bus_writes :
    (let d := owned; let q := request 2 0x6010 0x01 0x57 23 0 [1]; Takes d q .canEnable 44 = true ∧ q.value = 1 ∧ d.flag 0x6010 0x01 44 = false ∧ (d.chan 44).stopping = false ∧ d.segState 44 = 0 ∧ d.flag 0x6010 0x0A 44 = false) ∧
    (let d := (((owned.set 0x6010 0x04 2 44).set 0x6010 0x01 1 44).powUpd fun x => { x with domains := 31 }); let q := request 2 0x6010 0x01 0x57 23 0 [0]; Takes d q .canStop 44 = true ∧ q.value = 0 ∧ d.canState 44 = 2 ∧ d.unitPowered 44 = true) ∧
    (let d := owned; let q := request 2 0x6020 0x0A 0x57 23 31 [1]; Takes d q .canBufferCancel 44 = true ∧ q.value = 1 ∧ q.record = 31 ∧ d.bufState 44 31 = 0) ∧
    (let d := owned.set 0x6020 0x04 1 44 31; let q := request 2 0x6020 0x0A 0x57 23 31 [1]; Takes d q .canBufferCancel 44 = true ∧ d.bufState 44 q.record = 1 ∧ (d.chan 44).startsIn ≠ some (kernelIndex d.now)) ∧
    (let d := ((owned.set 0x6020 0x04 1 44 31).set 0x6010 0x04 2 44).powUpd fun x => { x with domains := 31 }; let d := d.setChan 44 { startsIn := some (kernelIndex d.now) }; let q := request 2 0x6020 0x0A 0x57 23 31 [1]
     Takes d q .canBufferCancel 44 = true ∧ d.bufState 44 q.record = 1 ∧ (d.chan 44).startsIn = some (kernelIndex d.now) ∧ d.canMayStart 44 = true ∧ d.canSelect 44 = some q.record) ∧
    (let d := owned.set 0x6020 0x04 3 44 31; let q := request 2 0x6020 0x0A 0x57 23 31 [1]; Takes d q .canBufferCancel 44 = true ∧ d.bufState 44 q.record = 3) ∧
    (let d := owned.set 0x6020 0x01 1 44 31; let q := request 2 0x8060 0x01 0x57 23 0 [1]; Takes d q .timeMasterEnable 44 = true ∧ q.value = 1 ∧ d.flag 0x8060 0x01 44 = false) ∧
    (let d := owned; let q := request 2 0x8060 0x01 0x57 23 0 [0]; Takes d q .timeMasterEnable 44 = true ∧ q.value = 0) ∧
    (let f : LinFrame := { id := 59, len := 8, start := 0, mark := 0, own := true }; let d := (owned.set 0x6810 0x01 1 60).setLin 60 { frame := some f }; let q := request 2 0x6810 0x01 0x57 0x4F 0 [0]; Takes d q .linStop 60 = true ∧ q.value = 0 ∧ (d.lin 60).frame = some f) ∧
    (let d := owned.set 0x6810 0x01 1 60; let q := request 2 0x6810 0x01 0x57 0x4F 0 [0]; Takes d q .linStop 60 = true ∧ q.value = 0 ∧ (d.lin 60).frame = none) ∧
    (let d := owned; let q := request 2 0x6810 0x07 0x57 0x4F 0 [255]; Takes d q .linTableRequest 60 = true ∧ q.value = 0xFF) ∧
    (let d := owned; let q := request 2 0x6880 0x07 0x57 0x4F 0 [1]; Takes d q .transceiverScriptRequest 60 = true ∧ q.value = 1) :=
  by refine ⟨?_, ?_, ?_, ?_, ?_, ?_, ?_, ?_, ?_, ?_, ?_, ?_⟩ <;> decide +kernel

/-! The Watch. -/

/-- Wake input 3 in state `v`. -/
def inputDev (v : Nat) : Dev := (base.set 0x68B0 0x01 1 0 3).set 0x68B0 0x05 v 0 3

/-- Segment `u` in state `v` with its domain on. -/
def segDev (u v : Nat) : Dev := (base.set 0xA020 0x0C v u).powUpd fun x => { x with domains := 31 }

/-- Witness of O46 (WakeInputs): states, commands and operands that meet its hypotheses. -/
theorem witness_wake_inputs :
    (let d := (inputDev 1).set 0x68B0 0x02 2 0 3; Still d = true ∧ d.watch.off = false ∧ (3 : Nat) < 4 ∧ d.flag 0x68B0 0x01 0 3 = true ∧ d.obj 0x68B0 0x05 0 3 = 1 ∧ d.obj 0x68B0 0x02 0 3 = 2 ∧ d.obj 0xA030 0x01 0 3 = 0 ∧ d.obj 0xA030 0x02 0 3 = 0 ∧ (∀ u ∈ segments48, d.segState u = 0) ∧ d.watch.sleepSeen = false ∧ (d.input 3).level = false ∧ d.obj 0x68B0 0x03 0 3 * perMs ≤ 100 * perMs ∧ 0 < d.obj 0x68B0 0x03 0 3 * perMs) ∧
    (let d := base.set 0x68B0 0x01 0 0 3; Still d = true ∧ d.watch.off = false ∧ d.flag 0x68B0 0x01 0 3 = false ∧ (d.input 3).level = false) ∧
    (let d := inputDev 2; Still d = true ∧ d.flag 0x68B0 0x01 0 3 = true ∧ d.obj 0x68B0 0x05 0 3 = 2) ∧
    (let d := inputDev 5; Still d = true ∧ d.flag 0x68B0 0x01 0 3 = true ∧ d.obj 0x68B0 0x05 0 3 = 5 ∧ d.obj 0x68B0 0x05 0 3 ≠ 2) ∧
    (let d := atTime ((inputDev 1).set 0x68B0 0x04 1 0 3) (perMs); Still d = true ∧ d.obj 0x68B0 0x05 0 3 = 1 ∧ d.obj 0x68B0 0x04 0 3 ≠ 0 ∧ (d.input 3).testAt + d.obj 0x68B0 0x04 0 3 * perMs ≤ d.now) ∧
    (let d := (inputDev 1).set 0x68B0 0x04 0 0 3; Still d = true ∧ d.obj 0x68B0 0x04 0 3 = 0 ∧ (d.input 3).testing = false) ∧
    (let d := atTime ((inputDev 1).setInput 3 { testing := true }) (200 * perUs); Still d = true ∧ (d.input 3).testing = true ∧ (d.input 3).testAt + 200 * perUs ≤ d.now) ∧
    (let d := atTime ((inputDev 2).set 0x68B0 0x06 1 0 3) (perS + 1); Still d = true ∧ d.obj 0x68B0 0x05 0 3 = 2 ∧ (d.input 3).activeAt + d.obj 0x68B0 0x06 0 3 * perS < d.now) :=
  by refine ⟨?_, ?_, ?_, ?_, ?_, ?_, ?_, ?_⟩ <;> decide +kernel

/-- Witness of O47 (SegmentsWakeAndScripts): states, commands and operands that meet its hypotheses. -/
theorem witness_segments_wake_and_scripts :
    (let d := segDev 44 1; Still d = true ∧ d.watch.off = false ∧ 13 ≤ 44 ∧ 44 < 45 ∧ d.segState 44 = 1) ∧
    (let d := segDev 13 3; Still d = true ∧ 3 ≤ d.segState 13) ∧
    (let d := (segDev 13 1).watchUpd fun w => { w with inWatch := true }; Still d = true ∧ d.watch.off = false ∧ d.segState 13 = 1 ∧ d.coreOn = false) ∧
    (let d := base.set 0x6810 0x05 2 60; Still d = true ∧ d.linState (uL 15) = 2 ∧ d.flag 0xA020 0x1D (uL 15) = false) ∧
    (let d := (base.set 0x6810 0x05 2 60).set 0xA020 0x1D 1 60; Still d = true ∧ d.linState (uL 15) = 2 ∧ d.flag 0xA020 0x1D (uL 15) = true) ∧
    (let d := base; Still d = true ∧ d.linState (uL 15) ≠ 2 ∧ d.segState (uL 15) = 0 ∧ d.watch.scripts = []) ∧
    (let x : Script := { unit := 60, forSleep := false }; let d := base.watchUpd fun w => { w with scripts := [x] }; Still d = true ∧ d.watch.scripts = [x] ∧ x.forSleep = false ∧ x.verified [] = true ∧ x.verified [1] = false) ∧
    (let x : Script := { unit := 60, forSleep := true }; let d := ((segDev 60 6).setSeg 60 { step := 2 }).watchUpd fun w => { w with scripts := [x] }; Still d = true ∧ d.watch.scripts = [x] ∧ x.forSleep = true ∧ d.segState x.unit = 6 ∧ (d.seg x.unit).step = 2 ∧ 13 ≤ x.unit ∧ x.unit < 61 ∧ x.verified [] = true) :=
  by refine ⟨?_, ?_, ?_, ?_, ?_, ?_, ?_, ?_⟩ <;> decide +kernel

/-- Witness of O48 (NetworkManagement): states, commands and operands that meet its hypotheses. -/
theorem witness_network_management :
    (let d := segDev 44 3; let m := d.obj 0xA020 0x03 44; Good d = true ∧ d.pairRuns 1 = true ∧ m < 2 ^ 32 ∧ d.isKeepAlive 44 m [7, 1, 0, 0, 0, 0, 0, 0] = true ∧ d.segState 44 = 3 ∧ d.nodeIgnored 44 7 = false) ∧
    (let d := (segDev 44 3).set 0xA020 0x1D 1 44; let m := d.obj 0xA020 0x03 44; Good d = true ∧ d.isKeepAlive 44 m [7, 1] = true ∧ d.segState 44 ≠ 0 ∧ d.nodeIgnored 44 7 = true) ∧
    (let d := segDev 13 4; Good d = true ∧ d.isKeepAlive 13 (d.obj 0xA010 0x01) [7, 3] = false ∧ d.isKeepAlive 13 (d.obj 0xA010 0x01) [7, 1] = true) ∧
    (let d := (segDev 60 4).setSeg 60 { tr := some 0 }; Good d = true ∧ (d.seg 60).tr = some 0 ∧ 0 ≤ d.now ∧ d.segState 60 = 4) ∧
    (let d := (segDev 60 3).setSeg 60 { tr := some 0 }; Good d = true ∧ (d.seg 60).tr = some 0 ∧ d.segState 60 = 3 ∧ (d.seg 60).nmNext ≤ d.now) ∧
    (let d := (segDev 60 3).setSeg 60 { tr := some 1, nmNext := 1 }; Good d = true ∧ (d.seg 60).tr = some 1 ∧ d.now < 1 ∧ d.now < (d.seg 60).nmNext) ∧
    (let d := atTime ((segDev 44 5).setSeg 44 { loadedAt := some 0, windowEnd := some 0 }) (perS); Good d = true ∧ (d.seg 44).loadedAt = some 0 ∧ d.segState 44 = 5 ∧ 0 + d.obj 0xA020 0x06 44 * perMs ≤ d.now ∧ (d.seg 44).windowEnd = some 0 ∧ 0 ≤ d.now) ∧
    (let d := (segDev 44 5).setSeg 44 { loadedAt := some 0, windowEnd := some 1 }; Good d = true ∧ d.now < 0 + d.obj 0xA020 0x06 44 * perMs ∧ (d.seg 44).windowEnd = some 1 ∧ d.now < 1) ∧
    (let d := atTime (((segDev 44 3).set 0xA020 0x08 1 44).setSeg 44 { awakeFrom := some 0 }) (2 * perS); Good d = true ∧ d.obj 0xA020 0x08 44 ≠ 0 ∧ d.obj 0xA020 0x08 44 < d.awakeSeconds 44 ∧ 3 ≤ d.segState 44 ∧ (d.seg 44).honoured = [] ∧ isLin 44 = false) ∧
    (let d := base; Good d = true ∧ d.awakeSeconds 60 ≤ d.obj 0xA020 0x08 60) :=
  by refine ⟨?_, ?_, ?_, ?_, ?_, ?_, ?_, ?_, ?_, ?_⟩ <;> decide +kernel

/-- Witness of O49 (WatchAndStateWrites): states, commands and operands that meet its hypotheses. -/
theorem witness_watch_writes :
    (let q := request 2 0xA020 0x09 0x57 0x4F 0 [1]; Takes (owned.set 0xA020 0x01 1 60) q .hostNeed 60 = true ∧ q.value = 1) ∧
    (let d := owned.set 0xA020 0x01 1 60; let q := request 2 0xA020 0x09 0x57 0x4F 0 [0]; Takes d q .hostNeed 60 = true ∧ q.value = 0 ∧ d.segState 60 < 3) ∧
    (let d := owned; let q := request 2 0xA020 0x01 0x57 0x4F 0 [0]; Takes d q .managementSwitch 60 = true ∧ q.value = 0 ∧ d.segState 60 = 0) ∧
    (let d := owned.set 0xA020 0x0E 1 13; let q := request 2 0xA020 0x01 0x53 0 0 [1]; Takes d q .managementSwitch 13 = true ∧ q.value = 1 ∧ d.segState 13 = 0 ∧ d.segCanWake 13 = false ∧ d.obj 0xA020 0x0E 13 ≠ 0) ∧
    (let q := request 2 0xA020 0x1C 0x53 0 0 [1]; Takes owned q .clearIgnoreList 13 = true ∧ q.value = 1) :=
  by refine ⟨?_, ?_, ?_, ?_, ?_⟩ <;> decide +kernel

/-- Witness of O49 (WatchAndStateWrites): states, commands and operands that meet its hypotheses. -/
theorem witness_state_commands :
    (let d := owned; let q := wr 0xA000 0x01 0 [3]; d.obj 0xA000 0x08 = 0 ∧ d.flag 0xA000 0x09 = false ∧ d.pow.ramp = [] ∧ Takes d q .stateCommandPartial 0 = true ∧ q.value = 3 ∧ d.obj 0xA000 0x02 = 2 ∧ d.pow.domains = 0 ∧ d.obj 0xA000 0x03 % 32 ≠ 0) ∧
    (let d := owned; let q := wr 0xA000 0x01 0 [4]; Takes d q .stateCommandRun 0 = true ∧ q.value = 4 ∧ d.obj 0xA000 0x02 = 2 ∧ d.pow.domains = 0) ∧
    (let d := (owned.set 0xA000 0x02 3).powUpd fun x => { x with domains := 8 }; let q := wr 0xA000 0x01 0 [2]; Takes d q .stateCommandStandby 0 = true ∧ q.value = 2 ∧ d.obj 0xA000 0x02 = 3 ∧ d.pow.domains = 8 ∧ (∀ u ∈ segments48, d.segState u = 0) ∧ d.watch.sleepSeen = false) ∧
    (let d := owned; let q := wr 0xA000 0x01 0 [1]; Takes d q .stateCommandWatch 0 = true ∧ q.value = 1 ∧ d.obj 0xA000 0x02 = 2 ∧ d.watch.runReq = true) ∧
    (let d := owned.watchUpd fun w => { w with runReq := false }; let q := wr 0xA000 0x01 0 [1]; Takes d q .stateCommandWatch 0 = true ∧ d.watch.runReq = false ∧ d.chans = [] ∧ d.lins = [] ∧ d.chart.flushes = []) :=
  by refine ⟨?_, ?_, ?_, ?_, ?_⟩ <;> decide +kernel

/-! Power and the start. -/

/-- The device in Watch. -/
def inWatch : Dev := base.watchUpd fun w => { w with inWatch := true, runReq := false, mainEn := false, mainPg := false }

/-- The start of the CORE domain has reached a stage. -/
def staged (n : Nat) : Dev := base.watchUpd fun w => { w with stage := n }

/-- A start with nothing in the flash. -/
def bootEnv : BootEnv := { flashState := 0, flashSize := 0, pass2 := false, migrated := [], writes := [], ms := 0 }

/-- Witness of O50 (RampsDroopAndPairs): states, commands and operands that meet its hypotheses. -/
theorem witness_ramps_and_acknowledge :
    (let d := base; Good d = true ∧ d.pow.ramp = [] ∧ (∀ u ∈ segments48, d.segState u = 0) ∧ d.watch.sleepSeen = false ∧ d.flag 0xA000 0x09 = false) ∧
    (let d := base.powUpd fun x => { x with ramp := [3, 2] }; Good d = true ∧ d.pow.ramp = 3 :: [2]) ∧
    (let d := base.powUpd fun x => { x with ramp := [4] }; Good d = true ∧ d.pow.ramp = 4 :: []) ∧
    (let d := (base.set 0xA000 0x08 1).watchUpd fun w => { w with ackEnd := some 0 }; Good d = true ∧ d.watch.ackEnd = some 0 ∧ 0 ≤ d.now ∧ d.obj 0xA000 0x08 = 1) ∧
    (let d := base.watchUpd fun w => { w with ackEnd := some 1 }; Good d = true ∧ d.watch.ackEnd = some 1 ∧ d.now < 1) :=
  by refine ⟨?_, ?_, ?_, ?_, ?_⟩ <;> decide +kernel

/-- Witness of O51 (SuppliesAndResets): states, commands and operands that meet its hypotheses. -/
theorem witness_pins_and_supplies :
    (let d := inWatch; Still d = true ∧ d.watch.off = false ∧ d.watch.runReq = false ∧ d.watch.inWatch = true ∧ d.flag 0xA000 0x09 = false ∧ d.obj 0xA000 0x04 = 0 ∧ d.watch.mainEn = false) ∧
    (let d := base; Still d = true ∧ d.watch.runReq = true ∧ d.obj 0xA000 0x04 ≠ 1 ∧ d.watch.mainEn = true ∧ d.watch.stage = 0 ∧ d.watch.stage ≠ 2 ∧ d.watch.stage ≠ 3 ∧ d.flag 0xA000 0x09 = false) ∧
    (let d := base.set 0xA000 0x04 1; Still d = true ∧ d.watch.runReq = true ∧ d.obj 0xA000 0x04 = 1 ∧ d.alm.waiting = false ∧ d.pow.ramp = []) ∧
    (let d := staged 1; Still d = true ∧ d.watch.stage = 1 ∧ d.watch.mainEn = true ∧ d.watch.runReq = true) ∧
    (let d := (staged 1).watchUpd fun w => { w with runReq := false }; Still d = true ∧ d.watch.stage = 1 ∧ d.watch.mainEn = true ∧ d.watch.runReq = false) ∧
    (let d := staged 2; Still d = true ∧ d.watch.stage = 2) ∧
    (let d := staged 3; Still d = true ∧ d.watch.stage = 3) :=
  by refine ⟨?_, ?_, ?_, ?_, ?_, ?_, ?_⟩ <;> decide +kernel

/-- Witness of O50 (RampsDroopAndPairs): states, commands and operands that meet its hypotheses. -/
theorem witness_droop_and_pairs :
    (let d := base.set 0x2000 0x08 2; Good d = true ∧ d.obj 0x2000 0x08 < 3 ∧ 2 ≤ d.obj 0x2000 0x08) ∧
    (let d := atTime (base.set 0x2000 0x08 3) (perUs); Good d = true ∧ 1 ≤ d.obj 0x2000 0x08 ∧ d.pow.droopAt + perUs ≤ d.now) ∧
    (let d := base; Good d = true ∧ d.obj 0x2000 0x08 = 0 ∧ d.now < d.pow.droopAt + perUs ∧ d.pair 3 = { state := 0 } ∧ (d.pair 3).state ≠ 1) ∧
    (let d := atTime (base.setPair 3 { lastMismatch := some 0 }) (10 * perS); Good d = true ∧ (3 : Nat) < 4 ∧ (d.pair 3).state = 0 ∧ (d.pair 3).lastMismatch = some 0 ∧ d.now ≤ 0 + 10 * perS ∧ 1 ≤ 3) ∧
    (let d := base.setPair 3 { state := 2 }; Good d = true ∧ (d.pair 3).state = 2) ∧
    (let d := base.setPair 0 { state := 1 }; Good d = true ∧ (d.pair 0).state = 1) ∧
    (let b : Blend := { start := 0, r0 := 0, tb := 100, target := 1 }; let d := base.sexUpd fun x => { x with blend := some b }; Good d = true ∧ d.pair 2 = { state := 0 } ∧ d.sex.blend = some b) :=
  by refine ⟨?_, ?_, ?_, ?_, ?_, ?_, ?_⟩ <;> decide +kernel

/-- Witness of O52 (StartOfTheCore): states, commands and operands that meet its hypotheses. -/
theorem witness_start_of_the_core :
    (let d := staged 4; Still d = true ∧ d.watch.off = false ∧ BootEnv.ok bootEnv = true ∧ d.watch.stage = 4) ∧
    (let d := base.flashUpd fun x => { x with booted := true }; Still d = true ∧ d.watch.stage ≠ 4 ∧ d.flash.booted = true) ∧
    (let d := base.flashUpd fun x => { x with boot := some { roles := [0, 0, 0] } }; Still d = true ∧ bootEnv.flashState = 0 ∧ d.candidates = [] ∧ d.trialOpen = false ∧ d.bootRec.trial = 0xFF) ∧
    (let d := (base.set 0xB000 0x02 1).flashUpd fun x => { x with booted := true }; Good d = true ∧ d.flash.booted = true ∧ d.obj 0xB000 0x01 = 0 ∧ d.obj 0xB000 0x02 ≠ 0) ∧
    (let d := base.set 0xB000 0x01 1; Good d = true ∧ d.obj 0xB000 0x01 ≠ 0) :=
  by refine ⟨?_, ?_, ?_, ?_, ?_⟩ <;> decide +kernel

/-! The stack and the bridge. -/

/-- What member `m` says of itself, and its hello. -/
def info (m fw : Nat) : MemberInfo := { member := m, firmware := fw, image := 0, boots := 0, applied := 0, clock := 0, lead := 0, state := 1, cp0Held := false, links := [0] }
def hello (m fw : Nat) : Hello := { self := info m fw, port := 0, others := [] }

/-- Link `k` in state `v`. -/
def link (d : Dev) (k v : Nat) (x : KLink := {}) : Dev := (d.set 0x9420 0x02 v (uK k)).setKlink k x

/-- Member 3, with firmware version `fw`, joins over link 1. -/
def joins (fw : Nat) : Dev := (link base 1 2 { run := 3, hello := some (hello 3 fw) }).set 0x9410 0x01 1 0 3

/-- A member that is not the lead: member 0 follows member 1 over link 1. -/
def follower : Dev := ((link base 1 2).set 0x9400 0x04 1).set 0x9410 0x07 2 0 1

/-- Witness of O42 (StackLinksAndTime): states, commands and operands that meet its hypotheses. -/
theorem witness_stack_links :
    (let d := (base.set 0x9420 0x01 1 64).powUpd fun x => { x with domains := 31 }; Good d = true ∧ (1 : Nat) < 2 ∧ d.klinkState 1 = 0 ∧ d.flag 0x9420 0x01 (uK 1) = true ∧ d.unitPowered (uK 1) = true ∧ d.macsecOn 21 = false) ∧
    (let d := link base 0 2; Good d = true ∧ dueAgain d.stack.helloAt (100 * perUs) d.now = true ∧ d.klinkState 0 ≠ 0 ∧ d.klinkState 0 = 2 ∧ d.klinkState 1 = 0) ∧
    (let d := link (link base 0 2) 1 1; Good d = true ∧ dueAgain d.stack.helloAt (100 * perUs) d.now = true ∧ d.klinkState 0 ≠ 0 ∧ d.klinkState 1 ≠ 0) ∧
    (let d := link base 1 1; Good d = true ∧ dueAgain d.stack.helloAt (100 * perUs) d.now = true ∧ d.klinkState 0 = 0 ∧ d.klinkState 1 ≠ 0) ∧
    (let d := base; Good d = true ∧ dueAgain d.stack.helloAt (100 * perUs) d.now = true ∧ d.klinkState 0 = 0 ∧ d.klinkState 1 = 0 ∧ Hello.ok (hello 3 0) = true ∧ (hello 3 0).sec = none ∧ d.klinkState 1 ≠ 2 ∧ d.macsecOn 20 = false) ∧
    (let d := (link base 1 1).set 0xB100 0x01 1 64; Good d = true ∧ d.macsecOn 21 = true ∧ d.klinkState 1 ≠ 0) ∧
    (let d := atTime (base.stackUpd fun x => { x with helloAt := some 0 }) (100 * perUs); Good d = true ∧ dueAgain d.stack.helloAt (100 * perUs) d.now = true) ∧
    (let d := atTime (base.stackUpd fun x => { x with helloAt := some 0 }) (100 * perUs - 1); Good d = true ∧ dueAgain d.stack.helloAt (100 * perUs) d.now = false) ∧
    (let d := link base 1 1 { run := 1 }; Good d = true ∧ d.klinkState 1 = 1 ∧ (d.klink 1).run < 2 ∧ (d.klink 1).dup = false ∧ d.macsecOn 21 = false) ∧
    (let d := link base 1 1 { run := 2 }; Good d = true ∧ d.klinkState 1 = 1 ∧ 2 ≤ (d.klink 1).run ∧ d.now ≤ (d.klink 1).heard + d.helloLimit) ∧
    (let d := atTime (link base 1 2 { run := 3, tripAt := some 0 }) (156250000); Good d = true ∧ d.klinkState 1 = 2 ∧ (d.klink 1).heard + d.helloLimit ≤ d.now ∧ (2 ^ 33 - 1) / 2 < 2 ^ 32 ∧ dueAgain (d.klink 1).tripAt 156250000 d.now = true) ∧
    (let d := link base 1 2 { run := 3, tripAt := some 0 }; Good d = true ∧ d.now < (d.klink 1).heard + d.helloLimit ∧ d.klinkState 1 = 2 ∧ dueAgain (d.klink 1).tripAt 156250000 d.now = false) :=
  by refine ⟨?_, ?_, ?_, ?_, ?_, ?_, ?_, ?_, ?_, ?_, ?_, ?_⟩ <;> decide +kernel

/-- Witness of O43 (Membership): states, commands and operands that meet its hypotheses. -/
theorem witness_membership :
    (let d := base; Good d = true ∧ (3 : Nat) < 4 ∧ d.infoOf 3 = none) ∧
    (let d := (joins 0).set 0x9410 0x01 2 0 3; Good d = true ∧ d.infoOf 3 = some (info 3 0) ∧ 3 ≠ d.stackId ∧ d.mState 3 ≠ 1) ∧
    (let d := joins 0x10000; let i := info 3 0x10000; Good d = true ∧ d.infoOf 3 = some i ∧ d.mState 3 = 1 ∧ d.holdReason 3 ≠ 0 ∧ d.obj 0x9410 0x01 0 3 ≠ 2) ∧
    (let d := ((joins 0).set 0x1000 0x05 0).stackUpd fun x => { x with overflow := [(3, true)] }; let i := info 3 0; Good d = true ∧ d.infoOf 3 = some i ∧ d.mState 3 = 1 ∧ d.holdReason 3 = 0 ∧ tget (fun _ => false) d.stack.overflow 3 = true) ∧
    (let d := (joins 0).set 0x1000 0x05 0; let i := info 3 0; Good d = true ∧ d.infoOf 3 = some i ∧ d.mState 3 = 1 ∧ d.holdReason 3 = 0 ∧ tget (fun _ => false) d.stack.overflow 3 = false) ∧
    (let d := (owned.set 0x9410 0x01 3 0 3).set 0x9410 0x05 4 0 3; let q := wr 0x9410 0x08 3 [1]; Takes d q .memberAdmit 0 = true ∧ q.value = 1) ∧
    (let d := base.fabUpd fun x => { x with pathHold := [(3, some 0)] }; Good d = true ∧ tget (fun _ => none) d.fab.pathHold 3 = some 0 ∧ 0 ≤ d.now) ∧
    (let d := base.fabUpd fun x => { x with pathHold := [(3, some 1)] }; Good d = true ∧ tget (fun _ => none) d.fab.pathHold 3 = some 1 ∧ d.now < 1) ∧
    (let d := follower.stackUpd fun x => { x with self := 1 }; let d := link d 1 2 { hello := some { hello 1 0 with self := { info 1 0 with firmware := d.obj 0x1000 0x05, image := d.obj 0x1000 0x06 } } }
     Good d = true ∧ 0 = d.stackId ∧ d.stack.self = 1 ∧ d.holdReason 0 = 0 ∧ tget (fun _ => false) d.stack.overflow 0 = false ∧ d.isLead = false ∧ d.obj 0x9430 0x01 ≠ 2 ∧ (d.set 0x9430 0x01 2).holdReason 0 = 0) ∧
    (let d := (base.set 0x9400 0x04 3).stackUpd fun x => { x with self := 1 }; let h : Hello := { hello 0 0 with self := { info 0 0 with state := 2 } }; Good d = true ∧ h.self.member = d.stackId ∧ h.self.state = 2 ∧ d.stack.self = 1 ∧ d.goesFirst h = true ∧ d.stackId < 4 ∧
      (d.stackUp 1 h).stack.self = 3 ∧ (d.stackUp 1 h).obj 0x9410 0x05 0 0 = 1) :=
  by refine ⟨?_, ?_, ?_, ?_, ?_, ?_, ?_, ?_, ?_, ?_⟩ <;> decide +kernel

/-- Witness of O44 (StackWrites): states, commands and operands that meet its hypotheses. -/
theorem witness_stack_writes :
    (let d := base; let b := (wr 0x2010 0x01 24 [0, 0, 0x10, 0]).bytes; Good d = true ∧ 20 ≤ b.length ∧ findRow (recIndex b) (recSub b) = some (row 0x2010 0x01) ∧ d.isLead = true ∧ d.alm.stackWrite = none ∧ 2 ^ 32 - 1 < 2 ^ 32) ∧
    (let d := follower; let b := (wr 0x2010 0x01 24 [0, 0, 0x10, 0]).bytes; Good d = true ∧ d.isLead = false ∧ d.stackId ∈ d.pathMembers b ∧ d.firstRefusal (row 0x2010 0x01) b true = none ∧ d.stack.self = 2) ∧
    (let d := follower; let b := (wr 0x9020 0x02 7 [0, 0]).bytes; Good d = true ∧ findRow (recIndex b) (recSub b) = some (row 0x9020 0x02) ∧ d.stackId ∈ d.pathMembers b ∧ (d.firstRefusal (row 0x9020 0x02) b true).isSome = true) ∧
    (let d := { follower with stackId := 3 }; let b := (wr 0x2010 0x01 24 [0, 0, 0x10, 0]).bytes; Good d = true ∧ d.isLead = false ∧ d.stackId ∉ d.pathMembers b ∧ d.stackId ∉ [0, 2]) ∧
    (let d := follower; let b := (wr 0x2000 0x0C 0 [1]).bytes; let o := row 0x2000 0x0C; Good d = true ∧ d.stackId ∈ [0, 1] ∧ d.alm.settings = [] ∧ (((((d.set 0x9400 0x07 1).set 0x9401 0x04 1 0 d.stackId).recordWrite o b [0, 1] 1).applyUnits o b).almUpd fun x => { x with answerDue := true }).writeReady = true) ∧
    (let d := follower.powUpd fun x => { x with ramp := [0] }; let b := (wr 0x2000 0x0C 0 [1]).bytes; let o := row 0x2000 0x0C; Good d = true ∧ d.stackId ∈ [0, 1] ∧ (((((d.set 0x9400 0x07 1).set 0x9401 0x04 1 0 d.stackId).recordWrite o b [0, 1] 1).applyUnits o b).almUpd fun x => { x with answerDue := true }).writeReady = false) ∧
    (let w : StackWrite := { waitFor := [3] }; let d := base.almUpd fun x => { x with stackWrite := some w }; Good d = true ∧ d.alm.stackWrite = some w ∧ 3 ∈ w.waitFor ∧ w.refusal = none) ∧
    (let d := follower; let w : Ownership := { owner := List.replicate 8 (8, 1), wins := List.replicate 16 0, gates := 8191, lease := 0 }; Good d = true ∧ w.owner.length = 8 ∧ (∀ x ∈ w.owner, 1 ≤ x.1 ∧ x.1 ≤ 8) ∧ w.wins.length = 16 ∧ d.isLead = false ∧ base.isLead = true) :=
  by refine ⟨?_, ?_, ?_, ?_, ?_, ?_, ?_, ?_⟩ <;> decide +kernel

/-- Witness of O42 (StackLinksAndTime): states, commands and operands that meet its hypotheses. -/
theorem witness_stack_time :
    (let d := link base 0 2 { hello := some (hello 3 0) }; Good d = true ∧ d.isLead = true ∧ d.neighbour 0 = some 3 ∧ 3 ≠ d.stackId ∧ d.neighbour 1 = none ∧ d.macsecOn 20 = false ∧ dueAgain d.stack.timeAt 9765625 d.now = true) ∧
    (let d := atTime (((link base 0 2).set 0x9400 0x01 2).stackUpd fun x => { x with timeAt := some 0 }) 9765624; Good d = true ∧ d.isLead = true ∧ d.obj 0x9400 0x01 = 2 ∧ dueAgain d.stack.timeAt 9765625 d.now = false) ∧
    (let d := base; Good d = true ∧ d.neighbours = [] ∧ d.isLead = true ∧ d.klinkState 1 ≠ 2) ∧
    (let d := follower; Good d = true ∧ d.macsecOn 21 = false ∧ d.isLead = false ∧ d.klinkState 1 = 2 ∧ d.klinkState (1 - 1) ≠ 2 ∧ d.obj 0x9410 0x07 0 (d.obj 0x9400 0x04) = 1 + 1) ∧
    (let d := atTime ((follower.set 0x9430 0x01 2).stackUpd fun x => { x with lastMsg := some (0, 0, 0) }) (3 * 9765625); Good d = true ∧ d.stack.lastMsg = some (0, (0 : Int), 0) ∧ d.obj 0x9430 0x01 = 2 ∧ 0 + 3 * 9765625 ≤ d.now) ∧
    (let d := base.stackUpd fun x => { x with lastMsg := some (0, 0, 0) }; Good d = true ∧ d.stack.lastMsg = some (0, (0 : Int), 0) ∧ d.now < 0 + 3 * 9765625) :=
  by refine ⟨?_, ?_, ?_, ?_, ?_, ?_⟩ <;> decide +kernel

/-- Witness of O45 (RemoteBridge): states, commands and operands that meet its hypotheses. -/
theorem witness_remote_bridge :
    (let d := base.set 0x9410 0x01 2 0 3; Good d = true ∧ (3 : Nat) < 4 ∧ 255 < 256 ∧ 2 ^ 40 - 1 < 2 ^ 40 ∧ 1 ≤ (List.replicate 64 (0 : Byte)).length ∧ (List.replicate 64 (0 : Byte)).length ≤ 64 ∧ 3 ≠ d.stackId ∧ d.stack.writes = [] ∧ d.stack.held = [] ∧ d.obj 0x9410 0x01 0 3 = 2 ∧ d.stack.reads = []) ∧
    (let d := base; Good d = true ∧ d.obj 0x9410 0x01 0 3 ≠ 2 ∧ 3 ≠ d.stackId ∧ d.stack.writes = [] ∧ d.stack.reads = [] ∧ d.obj 0x9440 0x07 < 16) ∧
    (let r : BridgeReq := { tag := 255, pair := 3, target := 3, addr := 0, len := 64 }; let d := atTime (base.stackUpd fun x => { x with reads := [r] }) (100 * perUs); Good d = true ∧ d.stack.reads = [r] ∧ r.target = 3 ∧ r.tag = 255 ∧ r.pair = 3 ∧ d.stack.held = [] ∧ d.busHeld 3 = true ∧ d.busHeld 2 = false ∧ d.now ≤ r.issued + 100 * perUs ∧ r.issued + 100 * perUs ≤ d.now) ∧
    (let r : BridgeReq := { tag := 0, pair := 0, target := 1, addr := 0, len := 1 }; let d := base.stackUpd fun x => { x with reads := [r] }; Good d = true ∧ d.stack.reads = [r] ∧ r.pair = 0 ∧ d.now < r.issued + 100 * perUs) ∧
    (let r : BridgeReq := { tag := 255, pair := 3, target := 3, addr := 0, len := 64 }; let d := base.stackUpd fun x => { x with writes := [r] }; Good d = true ∧ d.stack.writes = [r] ∧ d.stack.held = [] ∧ r.target = 3 ∧ BridgeRef.ok r.ref = true) ∧
    (let w : StackWrite := { waitFor := [3], since := 0 }; let d := atTime (base.almUpd fun x => { x with stackWrite := some w }) (100 * perUs); Good d = true ∧ d.stack.reads = [] ∧ d.alm.stackWrite = some w ∧ d.pairRuns 0 = true ∧ w.since + 100 * perUs ≤ d.now ∧ w.waitFor = 3 :: []) ∧
    (let d := base; Good d = true ∧ d.stack.reads = [] ∧ d.alm.stackWrite = none) ∧
    (let q := wr 0x9440 0x09 0 [1]; Takes owned q .bridgeLogClear 0 = true ∧ q.value = 1) :=
  by refine ⟨?_, ?_, ?_, ?_, ?_, ?_, ?_, ?_⟩ <;> decide +kernel

/-! The Rose. -/

/-- A received CAN PDU, and an ingress PDU. -/
def rx0 : RxPdu := { kind := 0, ident := 5, busIdent := 5, source := 23, place := 23, busId := 0, frame := { ident := 5, data := List.replicate 8 0 }, fix := 0, at_ := 0 }
def in0 : InPdu := { frame := { ident := 5 }, lt := 0, zt := 0 }

/-- The device in Run, with the Rose's own state `x`. -/
def roseDev (x : RoseSt) : Dev := (base.set 0xA000 0x02 4).roseUpd fun _ => x

/-- Definition 8191 is enabled: kind 0 on CAN channel 23, identifier 5, direction `dir` (0 source, 1 destination). -/
def defined (d : Dev) (dir : Nat) : Dev := (((d.set 0x7100 0x01 1 0 8191).set 0x7100 0x03 dir 0 8191).set 0x7100 0x04 23 0 8191).set 0x7100 0x06 5 0 8191

/-- An entry of a container. -/
def entry0 : ContEntry := { pduId := 1, busIdent := none, source := 0, fix := 0, kind := 0, busId := 0, frame := {} }

/-- Witness of O36 (PduJobs): states, commands and operands that meet its hypotheses. -/
theorem witness_pdu_jobs :
    (let d := base; Good d = true ∧ d.jobStart = d ∧ d.roseNext = none ∧ d.dataOn = false ∧ d.rose.fresh = [] ∧ (255 : Nat) < 256 ∧ d.cmacRefs 255 = 0) ∧
    (let d := roseDev { queues := [(23, [in0])] }; Good d = true ∧ d.jobStart = d ∧ d.roseNext = some 23 ∧ (23 : Nat) < 24 ∧ (d.cmacLinesLost [255]).ingress 23 = in0 :: [] ∧ ∀ k ∈ [255], k < 256) ∧
    (let d := roseDev { queues := [(39, [in0])] }; Good d = true ∧ d.jobStart = d ∧ d.roseNext = some 39 ∧ 24 ≤ 39 ∧ (39 : Nat) < 40 ∧ d.ingress 39 = in0 :: []) ∧
    (let d := (roseDev { fresh := [(65535, some 0)] }).set 0x7201 0x08 1 0 32767; Good d = true ∧ d.roseNext = none ∧ d.jobStart.sig 0x08 65535 = 2) ∧
    (let d := (((defined base 0).set 0x7810 0x20 1 0 8191).set 0x7810 0x21 16 0 8191).set 0xB040 0x01 1 0 16; Good d = true ∧ d.cmacRefs 16 ≠ 0 ∧ d.cmacLinesLost [16] ≠ d) ∧
    (let e : EPdu := { cont := 0, kind := 2, ident := 1, srcId := 0, busId := 0, frame := {}, fix := 0 }; let d := roseDev { eq := [e] }; Good d = true ∧ d.jobStart = d ∧ d.roseNext = some 40 ∧ d.rose.eq = e :: []) ∧
    (let d := (roseDev {}).fabUpd fun x => { x with toRose := [frame1] }; Good d = true ∧ d.jobStart = d ∧ d.roseNext = some 40 ∧ d.rose.eq = [] ∧ d.fab.toRose = frame1 :: []) ∧
    (let d := roseDev { pq := [0] }; Good d = true ∧ d.jobStart = d ∧ d.roseNext = some 41) ∧
    (let d := base; Good d = true ∧ d.jobStart = d ∧ d.matchPdu rx0 = none ∧ d.flag 0x7010 0x01 44 = false) ∧
    (let d := ((base.set 0x7010 0x01 1 44).set 0x7010 0x02 2047 44).set 0x7400 0x01 1 0 2047; Good d = true ∧ d.jobStart = d ∧ d.matchPdu rx0 = none ∧ d.flag 0x7010 0x01 44 = true ∧ d.flag 0x7400 0x01 0 (d.obj 0x7010 0x02 44) = true ∧ d.cont 0x02 (d.obj 0x7010 0x02 44) = 0) ∧
    (let d := defined base 0; Good d = true ∧ d.jobStart = d ∧ d.matchPdu rx0 = some 8191 ∧ d.flag 0x7810 0x20 0 8191 = false ∧ d.pex 0x10 8191 = 0 ∧ d.signalsOf 8191 = [] ∧ d.frameRoutes 8191 = [] ∧ frameLen rx0.frame = d.pdef 0x08 8191 ∧ d.pdef 0x08 8191 ≠ 0xFFFF) :=
  by refine ⟨?_, ?_, ?_, ?_, ?_, ?_, ?_, ?_, ?_, ?_, ?_⟩ <;> decide +kernel

/-- Witness of O37 (EmissionJobs): states, commands and operands that meet its hypotheses. -/
theorem witness_emission_jobs :
    (let d := roseDev { pq := [8191] }; Good d = true ∧ d.jobStart = d ∧ d.roseNext = some 41 ∧ d.rose.pq = 8191 :: [] ∧ (8191 : Nat) < 8192 ∧ d.rose.pend = []) ∧
    (let d := roseDev { pq := [8192 + 2047] }; Good d = true ∧ d.jobStart = d ∧ d.roseNext = some 41 ∧ d.rose.pq = (8192 + 2047) :: [] ∧ 8192 ≤ 8192 + 2047 ∧ d.rose.pq.contains (8192 + 2047) = true) ∧
    (let d := roseDev { queues := [(0, [in0])] }; Good d = true ∧ d.jobStart = d ∧ d.roseNext = some 0) ∧
    (let d := base; Good d = true ∧ d.jobStart = d ∧ d.flag 0x7100 0x01 0 8191 = false ∧ d.rose.pq.contains 8191 = false ∧ d.rose.pend.contains 8191 = false ∧ d.rose.pq.length < 1024 ∧ d.pex 0x01 8191 < 2 ∧ tget (fun _ => []) d.rose.staged 2047 = []) ∧
    (let d := defined base 1; Good d = true ∧ d.jobStart = d ∧ d.flag 0x7100 0x01 0 8191 = true ∧ d.routesTo 8191 = [] ∧ d.withheldSec 8191 = false) ∧
    (let d := base.set 0x7810 0x01 2 0 8191; Good d = true ∧ d.jobStart = d ∧ 2 ≤ d.pex 0x01 8191 ∧ tget (fun _ => none) d.rose.lastStart 8191 = none) ∧
    (let d := ((base.set 0x7810 0x01 3 0 8191).set 0x7810 0x02 1 0 8191).roseUpd fun x => { x with lastStart := [(8191, some 0)] }; Good d = true ∧ d.jobStart = d ∧ 2 ≤ d.pex 0x01 8191 ∧ tget (fun _ => none) d.rose.lastStart 8191 = some 0 ∧ d.lt < 0 + d.pex 0x02 8191 * perUs ∧ d.flag 0x7810 0x07 0 8191 = false ∧ d.rose.pq.contains 8191 = false ∧ d.rose.pend.contains 8191 = false) ∧
    (let d := atTime ((base.set 0x7810 0x07 1 0 8191).roseUpd fun x => { x with release := [(8191, 1)] }) (1); Good d = true ∧ d.jobStart = d ∧ d.rose.release = [(8191, 1)] ∧ d.flag 0x7810 0x07 0 8191 = true ∧ 1 ≤ d.lt) ∧
    (let d := base.roseUpd fun x => { x with release := [(0, 1)] }; Good d = true ∧ d.jobStart = d ∧ d.rose.release = [(0, 1)] ∧ d.lt < 1) ∧
    (let d := base.roseUpd fun x => { x with staged := [(2047, [entry0])] }; Good d = true ∧ d.jobStart = d ∧ d.rose.staged = [(2047, [entry0])] ∧ d.rose.pq.contains (8192 + 2047) = false ∧ d.rose.pend.contains (8192 + 2047) = false ∧ tget (fun _ => 0) d.rose.stagedAt 2047 + d.cont 0x0E 2047 * perUs ≤ d.lt) ∧
    (let d := (base.set 0x7400 0x0E 1 0 2047).roseUpd fun x => { x with staged := [(2047, [entry0])] }; Good d = true ∧ d.jobStart = d ∧ d.rose.staged = [(2047, [entry0])] ∧ d.lt < tget (fun _ => 0) d.rose.stagedAt 2047 + d.cont 0x0E 2047 * perUs) :=
  by refine ⟨?_, ?_, ?_, ?_, ?_, ?_, ?_, ?_, ?_, ?_, ?_⟩ <;> decide +kernel

/-- Witness of O40 (SignalMailboxes): states, commands and operands that meet its hypotheses. -/
theorem witness_signal_mailboxes :
    (let d := base; Good d = true ∧ (65535 : Nat) < 65536 ∧ d.isLarge 65535 = false ∧ d.rose.pausedAt = [] ∧ 2 ^ 64 - 1 < 2 ^ 64 ∧ tget (fun _ => none) d.rose.fresh 65535 = none) ∧
    (let d := base.roseUpd fun x => { x with fresh := [(65535, some 1)] }; Good d = true ∧ tget (fun _ => none) d.rose.fresh 65535 = some 1 ∧ d.tick10 < 1 ∧ d.sig 0x08 65535 ≠ 1) ∧
    (let d := (((base.set 0x7800 0x41 1).set 0x7201 0x02 8191 0 32767).set 0x7100 0x04 23 0 8191).roseUpd fun x => { x with fresh := [(65535, some 0)] }; Good d = true ∧ tget (fun _ => none) d.rose.fresh 65535 = some 0 ∧ d.flag 0x7800 0x41 = true ∧ d.defUnit (d.sig 0x02 65535) = some 44 ∧ d.wRuns 44 = false) ∧
    (let d := (((base.set 0x7800 0x41 0).set 0x7201 0x08 1 0 32767).set 0x7821 0x02 2 0 32767).roseUpd fun x => { x with fresh := [(65535, some 0)] }; Good d = true ∧ tget (fun _ => none) d.rose.fresh 65535 = some 0 ∧ 0 ≤ d.tick10 ∧ d.flag 0x7800 0x41 = false ∧ d.sig 0x08 65535 = 1 ∧ d.sfr 0x02 65535 = 2) :=
  by refine ⟨?_, ?_, ?_, ?_⟩ <;> decide +kernel

/-- Witness of O41 (RoseWrites): states, commands and operands that meet its hypotheses. -/
theorem witness_rose_writes :
    (let d := owned; let q := wr 0x7100 0x01 8191 [0]; Takes d q .definitionEnable 0 = true ∧ q.value = b2n (d.flag 0x7100 0x01 0 q.record)) ∧
    (let d := (defined owned 0).set 0x7100 0x01 0 0 8191; let q := wr 0x7100 0x01 8191 [1]; Takes d q .definitionEnable 0 = true ∧ q.value = 1 ∧ d.flag 0x7100 0x01 0 q.record = false) ∧
    (let d := defined owned 0; let q := wr 0x7100 0x01 8191 [0]; Takes d q .definitionEnable 0 = true ∧ q.value = 0 ∧ d.flag 0x7100 0x01 0 q.record = true) ∧
    (let d := owned; let q := wr 0x7201 0x01 32767 [0]; (32767 + 32768 : Nat) = q.record + 32768 * 1 ∧ Takes d q .signalEnable 0 = true ∧ q.record < 32768 ∧ q.value = d.sig 0x01 65535) ∧
    (let d := (defined owned 0).set 0x7200 0x02 8191 0 0; let q := wr 0x7200 0x01 0 [1]; Takes d q .signalEnable 0 = true ∧ q.value ≠ d.sig 0x01 0 ∧ d.isLarge 0 = false) ∧
    (let d := ((defined owned 0).set 0x7201 0x02 8191 0 32767).set 0x7201 0x01 1 0 32767; let q := wr 0x7201 0x01 32767 [0]; Takes d q .signalEnable 0 = true ∧ q.value ≠ d.sig 0x01 65535 ∧ d.isLarge 65535 = false) ∧
    (let d := owned; let q := wr 0x7300 0x01 32767 [0]; Takes d q .routeEnable 0 = true ∧ q.value = b2n (d.flag 0x7300 0x01 0 q.record)) ∧
    (let d := ((((((defined owned 0).set 0x7300 0x02 1 0 32767).set 0x7300 0x03 8191 0 32767).set 0x7300 0x04 0 0 32767).set 0x7100 0x01 1).set 0x7100 0x03 1).set 0x7100 0x04 22; let q := wr 0x7300 0x01 32767 [1]; Takes d q .routeEnable 0 = true ∧ q.value = 1 ∧ d.flag 0x7300 0x01 0 q.record = false) ∧
    (let d := owned.set 0x7300 0x01 1 0 32767; let q := wr 0x7300 0x01 32767 [0]; Takes d q .routeEnable 0 = true ∧ q.value = 0 ∧ d.flag 0x7300 0x01 0 q.record = true) ∧
    (let d := owned; let q := wr 0x7400 0x01 2047 [0]; Takes d q .containerEnable 0 = true ∧ q.value = b2n (d.flag 0x7400 0x01 0 q.record)) ∧
    (let d := owned.set 0x7400 0x03 2 0 2047; let q := wr 0x7400 0x01 2047 [1]; Takes d q .containerEnable 0 = true ∧ q.value ≠ b2n (d.flag 0x7400 0x01 0 q.record)) :=
  by refine ⟨?_, ?_, ?_, ?_, ?_, ?_, ?_, ?_, ?_, ?_, ?_⟩ <;> decide +kernel

/-! Keys and MACsec. -/

/-- An import blob with an operation, a slot, a type, a usage, a counter and a key field, without its tag. -/
def blob (op slot type usage counter : Nat) (k : Bytes) : Bytes := [1, BitVec.ofNat 8 op, BitVec.ofNat 8 slot, BitVec.ofNat 8 type] ++ beBytes 4 usage ++ beBytes 8 counter ++ k ++ List.replicate (96 - k.length) 0

/-- MACsec is on at N3, with association `r` enabled. -/
def secured (r : Nat) : Dev := (base.set 0xB100 0x01 1 4).set 0xB110 0x01 1 4 r

/-- Witness of O53 (KeysAndKeyStore): states, commands and operands that meet its hypotheses. -/
theorem witness_keys_and_key_store :
    (let d := base; Good d = true ∧ d.bin.kroot = none ∧ d.obj 0xB020 0x05 ≠ 2) ∧
    (let d := base.binUpd fun x => { x with kroot := some [1] }; Good d = true ∧ d.bin.kroot = some [1]) ∧
    (let d := base.set 0xB020 0x05 2; Good d = true ∧ d.obj 0xB020 0x05 = 2) ∧
    (let d := base; Good d = true ∧ d.blobCheck (blob 3 16 2 4 1 [] ++ List.replicate 16 0) true = 0 ∧ byteAt (0 :: []) 0 ≠ 1) ∧
    (let d := base.set 0xB040 0x01 1 0 255; Good d = true ∧ (255 : Nat) < 256 ∧ d.obj 0xB040 0x01 0 255 ≠ 0 ∧ d.bin.lost = []) ∧
    (let c : KsCopy := { gen := 1, recs := [{ slot := 255, type := 2, usage := 4, gen := 1, key := [9] }] }; let d := (base.set 0xB040 0x01 3 0 255).binUpd fun x => { x with kroot := some [1], copyB := some c, lost := [(255, 0)] }
      d.bin.kroot = some [1] ∧ d.obj 0xB040 0x01 0 255 = 3 ∧ d.bin.inForce = some (1, c) ∧ c.recs.find? (fun y => y.slot == 255) = some { slot := 255, type := 2, usage := 4, gen := 1, key := [9] } ∧ d.bin.lost = [(255, 0)] ∧ 0 ≤ d.now ∧ d.rebuiltKey 255 = some [9]) ∧
    (let d := (base.set 0xB040 0x01 3 0 255).binUpd fun x => { x with lost := [(255, 0)] }; d.bin.lost = [(255, 0)] ∧ 0 ≤ d.now ∧ d.rebuiltKey 255 = none) ∧
    (let d := (base.set 0xB040 0x01 2 0 16).binUpd fun x => { x with kroot := some [1], lost := [(16, 1)] }; Good d = true ∧ d.bin.kroot = some [1] ∧ d.obj 0xB040 0x01 0 16 = 2 ∧ d.bin.lost = [(16, 1)] ∧ d.now < 1) :=
  by refine ⟨?_, ?_, ?_, ?_, ?_, ?_, ?_, ?_⟩ <;> decide +kernel

/-- Witness of O54 (BinnacleWrites): states, commands and operands that meet its hypotheses. -/
theorem witness_binnacle_writes :
    (let q := wr 0xB020 0x01 0 (blob 3 255 2 4 1 (List.replicate 32 7) ++ List.replicate 16 0); Takes owned q .importBlobSetInClear 0 = true ∧ byteAt (beBytes 128 q.value) 1 = 3) ∧
    (let q := wr 0xB020 0x04 0 [0]; Takes owned q .discardStaging 0 = true ∧ q.value = 0) ∧
    (let d := owned.set 0xB020 0x05 1; let q := wr 0xB020 0x04 0 [1]; Takes d q .discardStaging 0 = true ∧ q.value = 1 ∧ d.obj 0xB020 0x05 ≠ 2) ∧
    (let q := wr 0xB020 0x03 0 [0]; Takes owned q .keyStoreCommit 0 = true ∧ q.value = 0) ∧
    (let d := (owned.set 0xB020 0x05 1).binUpd fun x => { x with staged := [{ op := 2, slot := 16, type := 0, usage := 0, counter := 1, key := [] }] }; let q := wr 0xB020 0x03 0 [1]; Takes d q .keyStoreCommit 0 = true ∧ q.value = 1) ∧
    (let d := (owned.set 0xB040 0x01 1).set 0xB010 0x04 2; let q := wr 0xB030 0x01 0 (List.replicate 32 255); Takes d q .attestationChallenge 0 = true) ∧
    (let d := owned.binUpd fun x => { x with identityReady := true }; let q := wr 0xB050 0x02 0 (List.replicate 32 255); Takes d q .identitySignRequest 0 = true) ∧
    (let d := owned; let q := wr 0xB040 0x10 255 [0]; Takes d q .slotDerive 0 = true ∧ q.value = b2n (d.flag 0xB040 0x10 0 q.record)) ∧
    (let d := owned.binUpd fun x => { x with kroot := some [1] }; let q := wr 0xB040 0x10 16 [1]; Takes d q .slotDerive 0 = true ∧ q.value = 1 ∧ d.flag 0xB040 0x10 0 q.record = false) ∧
    (let d := owned.set 0xB040 0x10 1 0 16; let q := wr 0xB040 0x10 16 [0]; Takes d q .slotDerive 0 = true ∧ q.value = 0 ∧ d.flag 0xB040 0x10 0 q.record = true) :=
  by refine ⟨?_, ?_, ?_, ?_, ?_, ?_, ?_, ?_, ?_, ?_⟩ <;> decide +kernel

/-- Witness of O55 (Macsec): states, commands and operands that meet its hypotheses. -/
theorem witness_macsec :
    (let d := owned.set 0xB110 0x01 1 64 7; let q := request 2 0xB110 0x01 0x4B 1 7 [1]; Takes d q .macsecSaEnable 64 = true ∧ q.value = 1 ∧ d.flag 0xB110 0x01 64 q.record = true) ∧
    (let d := (((owned.set 0xB110 0x02 16 64 7).set 0xB040 0x01 1 0 16).set 0xB040 0x02 2 0 16).set 0xB040 0x03 2 0 16; let q := request 2 0xB110 0x01 0x4B 1 7 [1]; Takes d q .macsecSaEnable 64 = true ∧ q.value = 1 ∧ d.flag 0xB110 0x01 64 q.record = false) ∧
    (let d := owned; let q := request 2 0xB110 0x01 0x4E 0 0 [0]; Takes d q .macsecSaEnable 1 = true ∧ q.value = 0) ∧
    (let d := (owned.set 0xB110 0x01 1 64 3); let q := request 2 0xB100 0x04 0x4B 1 0 [3]; Takes d q .activeAnWrite 64 = true) ∧
    (let d := owned.set 0xB110 0x01 1 64 0; let q := request 2 0xB100 0x01 0x4B 1 0 [1]; Takes d q .macsecEnable 64 = true) ∧
    (let d := base; Good d = true ∧ (3 : Nat) < 4 ∧ unitOfPort 3 = 4 ∧ d.flag 0xB100 0x01 4 = false) ∧
    (let d := secured 7; Good d = true ∧ d.flag 0xB100 0x01 4 = true ∧ d.flag 0xB110 0x01 4 (4 + 0) = false ∧ d.flag 0xB110 0x01 4 (4 + 3) = true ∧ tget (fun _ => none) d.bin.highPn (saKey 4 7) = none ∧ 0 < d.obj 0xB110 0x05 4 (4 + 3)) ∧
    (let d := secured 7; let g : SecTag := { an := 3, pn := 1 }; Good d = true ∧ g.an < 4 ∧ d.flag 0xB110 0x01 4 (4 + g.an) = true ∧ g.pn ≠ 0 ∧ tget (fun _ => none) d.bin.highPn (saKey 4 (4 + g.an)) = none ∧ d.obj 0xB110 0x05 4 (4 + g.an) ≤ g.pn) ∧
    (let d := (secured 7).binUpd fun x => { x with highPn := [(saKey 4 7, some 9)] }; let g : SecTag := { an := 3, pn := 9 }; Good d = true ∧ d.flag 0xB110 0x01 4 (4 + g.an) = true ∧ tget (fun _ => none) d.bin.highPn (saKey 4 (4 + g.an)) = some 9 ∧ 9 ≤ g.pn + d.obj 0xB100 0x05 4) ∧
    (let d := (secured 0).set 0xB110 0x07 1 4 0; Good d = true ∧ d.flag 0xB110 0x07 4 (d.obj 0xB100 0x04 4) = true) ∧
    (let d := (secured 0).set 0xB110 0x06 (2 ^ 64 - 1) 4 0; Good d = true ∧ d.flag 0xB110 0x07 4 (d.obj 0xB100 0x04 4) = false ∧ d.obj 0xB110 0x06 4 (d.obj 0xB100 0x04 4) = 2 ^ 64 - 1) ∧
    (let d := (secured 0).set 0xB110 0x06 1 4 0; Good d = true ∧ d.obj 0xB110 0x06 4 (d.obj 0xB100 0x04 4) < 2 ^ 64 - 1) :=
  by and_intros <;> decide +kernel

/-- The bytes of a list, under a name that no evaluation looks into. -/
opaque bytesOf (b : Bytes) : { f : Nat → Byte // (List.range b.length).map f = b } :=
  ⟨fun i => b.getD i 0, List.ext_getElem (by simp) (fun i _ h => by simp [h])⟩

/-- The first 16 bytes of a list, likewise. -/
def sixteen (b : Bytes) : Bytes := (List.range 16).map (bytesOf b).1

theorem sixteen_eq (b : Bytes) (h : b.length = 16) : sixteen b = b := by
  have e := (bytesOf b).2
  have h2 : List.range 16 = List.range b.length := by rw [h]
  unfold sixteen
  rw [h2]
  exact e

/-- A blob with the tag that the import key of an unprovisioned device gives it. -/
def tagged (p : Bytes) : Bytes := p ++ sixteen (kmac256 [] p (ascii "VZN-IMPORT-TAG") 16)

/-- The check of a blob that is sealed with the device's import key. -/
theorem blobCheck_tagged (d : Dev) (p : Bytes) (hk : d.bin.kimp = []) (hl : p.length = 112) (hs : d.obj 0xB020 0x05 ≠ 2)
    (h1 : ¬ (byteAt p 0 ≠ 1 ∨ byteAt p 1 < 1 ∨ 3 < byteAt p 1 ∨ ¬ (slice p 80 32).all (· == 0)))
    (h2 : ¬ (byteAt p 1 = 2 ∧ (byteAt p 3 ≠ 0 ∨ field p 4 4 ≠ 0 ∨ ¬ (slice p 16 64).all (· == 0))))
    (h3 : ¬ (byteAt p 1 ≠ 2 ∧ (¬ typeUsageOk (byteAt p 3) (field p 4 4) ∨ byteAt p 3 = 3 ∨ (byteAt p 2 = 0 ∧ byteAt p 3 ≠ 4)))) (h4 : byteAt p 1 ≠ 3)
    (h5 : d.lastCounter < field p 8 8)
    (h6 : ¬ ((1 ≤ byteAt p 2 ∧ byteAt p 2 ≤ 15) ∨ d.flag 0xB040 0x10 0 (byteAt p 2) ∨ ¬ d.swapAllowed (byteAt p 2) (byteAt p 1) (byteAt p 3) (field p 4 4)))
    (h7 : d.bin.staged.length < 32) (l : Bool) : d.blobCheck (tagged p) l = 0 := by
  have hb : ∀ k, k < 112 → byteAt (tagged p) k = byteAt p k := by
    intro k hk; unfold byteAt tagged; rw [List.getD_append _ _ _ _ (by omega)]
  have hsl : ∀ a n, a + n ≤ 112 → slice (tagged p) a n = slice p a n := by
    intro a n h; unfold slice tagged; rw [List.drop_append_of_le_length (by omega), List.take_append_of_le_length (by simp; omega)]
  have hf : ∀ a n, a + n ≤ 112 → field (tagged p) a n = field p a n := by
    intro a n h; unfold field; rw [hsl a n h]
  have ht : (tagged p).take 112 = p := by unfold tagged; rw [List.take_append_of_le_length (by omega), List.take_of_length_le (by omega)]
  have hd : slice (tagged p) 112 16 = kmac256 [] p (ascii "VZN-IMPORT-TAG") 16 := by
    unfold slice tagged
    rw [List.drop_left' hl, sixteen_eq _ (kmac256_length _ _ _ 16)]
    exact List.take_of_length_le (Nat.le_of_eq (kmac256_length _ _ _ 16))
  unfold Dev.blobCheck
  simp only [hb 0 (by omega), hb 1 (by omega), hb 2 (by omega), hb 3 (by omega), hsl 80 32 (by omega), hsl 16 64 (by omega), hf 4 4 (by omega), hf 8 8 (by omega), ht, hd, hk]
  rw [if_neg hs, if_neg h1, if_neg h2, if_neg h3, if_neg (fun h => h4 h.1), if_neg (fun h => h.2 rfl), if_neg (by omega), if_neg h6, if_neg (by omega)]

/-- A request that writes a tagged blob, at check 10 and after. -/
theorem unitCheck_tagged (d : Dev) (p : Bytes) (h : d.blobCheck (tagged p) true = 0) (hl : p.length = 112) :
    d.unitCheck (row 0xB020 0x01) 0xB020 0x01 0 0 (beNat (tagged p)) true = 0 := by
  have hlen : (tagged p).length = 128 := by unfold tagged; rw [List.length_append, hl]; rfl
  have hr : row 0xB020 0x01 = ⟨0xB020, 1, 0x01, 1, .octet 128, .wo, .member, 0, 0, .any⟩ := by decide +kernel
  have hv : d.valueCode 0xB020 0x01 0 0 (beNat (tagged p)) true = d.blobCheck (beBytes 128 (beNat (tagged p))) true := rfl
  unfold Dev.unitCheck
  rw [hr, hv, ← hlen, beBytes_beNat, h]
  rfl

def setBlob : Bytes := blob 1 255 2 4 1 (List.replicate 64 7)
def eraseBlob : Bytes := blob 2 255 0 0 1 []

/-- The device with the request of a tagged blob in its queue. -/
def blobDev (p : Bytes) : Dev := asks owned (wr 0xB020 0x01 0 (tagged p))

theorem set_blob_check : ((blobDev setBlob).countRequest (wr 0xB020 0x01 0 (tagged setBlob))).blobCheck (tagged setBlob) true = 0 := by
  refine blobCheck_tagged _ _ ?_ ?_ ?_ ?_ ?_ ?_ ?_ ?_ ?_ ?_ _ <;> decide +kernel

theorem erase_blob_check : ((blobDev eraseBlob).countRequest (wr 0xB020 0x01 0 (tagged eraseBlob))).blobCheck (tagged eraseBlob) true = 0 := by
  refine blobCheck_tagged _ _ ?_ ?_ ?_ ?_ ?_ ?_ ?_ ?_ ?_ ?_ _ <;> decide +kernel

theorem blob_value (p : Bytes) (h : p.length = 112) : beBytes 128 (beNat (tagged p)) = tagged p := by
  have hlen : (tagged p).length = 128 := by unfold tagged; rw [List.length_append, h]; rfl
  rw [← hlen, beBytes_beNat]

theorem good_asks (q : Request) : Good (asks owned q) = true :=
  (show Good (asks owned q) = Good owned from rfl).trans (by decide +kernel)

theorem asked_is_served (q : Request) (ha : q.arrived = 0) (h : (asks owned q).frontCheck q = 0) : (asks owned q).serves q = true := by
  have h1 : (asks owned q).coreOn = true := rfl
  have h2 : (asks owned q).nextRequest = some q := rfl
  have h3 : (asks owned q).thawLease.dueBefore q.arrived = asks owned q := by rw [ha]; rfl
  have h4 : (asks owned q).inRom = false := rfl
  unfold Dev.serves
  rw [h1, h2, h3, h4, h]
  simp

theorem tagged_data (p : Bytes) (h : p.length = 112) : recData (wr 0xB020 0x01 0 (tagged p)).bytes = tagged p := by
  have hlen : (tagged p).length = 128 := by unfold tagged; rw [List.length_append, h]; rfl
  unfold recData slice recLen wr request
  simp only
  rw [hlen]
  rw [List.drop_left' (by rfl)]
  exact List.take_of_length_le (by rw [hlen]; exact Nat.le_of_eq rfl)

theorem tagged_takes (p : Bytes) (k : WriteKind) (h : p.length = 112)
    (hk : writeKind (wr 0xB020 0x01 0 (tagged p)).bytes = k) (hf : (blobDev p).frontCheck (wr 0xB020 0x01 0 (tagged p)) = 0)
    (ho : (blobDev p).objectCheck (wr 0xB020 0x01 0 (tagged p)).bytes true = 0)
    (hb : ((blobDev p).countRequest (wr 0xB020 0x01 0 (tagged p))).blobCheck (tagged p) true = 0)
    (hp : (blobDev p).pathMembers (wr 0xB020 0x01 0 (tagged p)).bytes = [(blobDev p).stackId])
    (hc : lengthCheck (wr 0xB020 0x01 0 (tagged p)).bytes 128 = 0) :
    Takes owned (wr 0xB020 0x01 0 (tagged p)) k 0 = true := by
  have hr : row 0xB020 0x01 = ⟨0xB020, 1, 0x01, 1, .octet 128, .wo, .member, 0, 0, .any⟩ := by decide +kernel
  have hfr : findRow 0xB020 0x01 = some (row 0xB020 0x01) := by decide +kernel
  have hi : recIndex (wr 0xB020 0x01 0 (tagged p)).bytes = 0xB020 := rfl
  have hs : recSub (wr 0xB020 0x01 0 (tagged p)).bytes = 0x01 := rfl
  have hn : recRecord (wr 0xB020 0x01 0 (tagged p)).bytes = 0 := rfl
  have hg : Good (asks owned (wr 0xB020 0x01 0 (tagged p))) = true := good_asks _
  have h2 : recOp (wr 0xB020 0x01 0 (tagged p)).bytes = 2 := rfl
  have hv : (wr 0xB020 0x01 0 (tagged p)).svc = .pcie := rfl
  have ha : addressedUnits (row 0xB020 0x01) (wr 0xB020 0x01 0 (tagged p)).bytes = [0] := by rw [hr]; rfl
  have hu := unitCheck_tagged ((blobDev p).countRequest (wr 0xB020 0x01 0 (tagged p))) p hb h
  have hz : (row 0xB020 0x01).ty.size = 128 := by rw [hr]; rfl
  have hsv := asked_is_served (wr 0xB020 0x01 0 (tagged p)) rfl hf
  unfold Takes Dev.takesWrite
  rw [hg, hsv, h2, hk, hi, hs, hn, hfr, hz, hc, ha, hv, tagged_data p h]
  unfold blobDev at ho hp hu
  rw [ho, hp, show (Service.pcie == Service.pcie || Service.pcie == Service.hs) = true from rfl, hu]
  simp

/-- Witness of O54 (BinnacleWrites): states and operands that meet the hypotheses of its clause about this command. -/
theorem witness_import_blob_set : Takes owned (wr 0xB020 0x01 0 (tagged setBlob)) .importBlobSet 0 = true ∧ byteAt (beBytes 128 (wr 0xB020 0x01 0 (tagged setBlob)).value) 1 = 1 := by
  refine ⟨tagged_takes _ _ (by decide +kernel) (by decide +kernel) (by decide +kernel) (by decide +kernel) set_blob_check (by decide +kernel) (by decide +kernel), ?_⟩
  rw [Request.value, tagged_data _ (by decide +kernel), blob_value _ (by decide +kernel)]
  decide +kernel

/-- Witness of O54 (BinnacleWrites): states and operands that meet the hypotheses of its clause about this command. -/
theorem witness_import_blob_erase : Takes owned (wr 0xB020 0x01 0 (tagged eraseBlob)) .importBlobErase 0 = true ∧ byteAt (beBytes 128 (wr 0xB020 0x01 0 (tagged eraseBlob)).value) 1 = 2 := by
  refine ⟨tagged_takes _ _ (by decide +kernel) (by decide +kernel) (by decide +kernel) (by decide +kernel) erase_blob_check (by decide +kernel) (by decide +kernel), ?_⟩
  rw [Request.value, tagged_data _ (by decide +kernel), blob_value _ (by decide +kernel)]
  decide +kernel

/-! Updates. -/

/-- A transfer header. -/
def xfer (type len : Nat) : XferHdr := { type := type, id := 9, len := len }

/-- The header as a start spells it. -/
def startBytes (type len : Nat) : Bytes := [BitVec.ofNat 8 type, 0, 0, 0] ++ beBytes 4 9 ++ beBytes 4 len

/-- The owned device with its supply in order, and with the header `h` in flash. -/
def updating (h : Option XferHdr) : Dev := owned.flashUpd fun x => { x with samples := List.replicate 16 65535, header := h }

/-- A trial runs in state `v`. -/
def trial (v minutes : Nat) : Dev := (base.set 0xB840 0x01 v).flashUpd fun x => { x with boot := some { minutes := minutes, running := true } }

/-- The device is healthy in a trial. -/
def healthy : Dev := (((trial 1 0).set 0xB000 0x01 3).set 0xC040 0x07 1).flashUpd fun x => { x with healthy := some 0 }

/-- Witness of O56 (TransferWrites): states, commands and operands that meet its hypotheses. -/
theorem witness_transfer_writes :
    (let d := updating (some (xfer 1 4096)); let q := wr 0xB810 0x01 0 (startBytes 1 4096); Takes d q .transferStartFirmware 0 = true ∧ (let b := beBytes 12 q.value; d.flash.header = some { type := byteAt b 0, id := field b 4 4, len := field b 8 4 })) ∧
    (let d := updating none; let q := wr 0xB810 0x01 0 (startBytes 1 4096); Takes d q .transferStartFirmware 0 = true ∧ d.flash.header ≠ some (xfer 1 4096)) ∧
    (let d := updating (some (xfer 2 4096)); let q := wr 0xB810 0x01 0 (startBytes 2 4096); Takes d q .transferStartAlmanac 0 = true ∧ (let b := beBytes 12 q.value; d.flash.header = some { type := byteAt b 0, id := field b 4 4, len := field b 8 4 })) ∧
    (let d := updating none; let q := wr 0xB810 0x01 0 (startBytes 2 4096); Takes d q .transferStartAlmanac 0 = true ∧ d.flash.header ≠ some (xfer 2 4096)) ∧
    (let d := (updating (some (xfer 1 8192))).set 0xB810 0x02 1; let q := wr 0xB820 0x01 0 (List.replicate 1024 0); Takes d q .blockQuarterWrite 0 = true) ∧
    (let d := (updating (some (xfer 1 8192))).set 0xB810 0x02 1; let q := wr 0xB820 0x04 1 (List.replicate 1024 0); Takes d q .blockQuarterWrite 0 = true) ∧
    (let d := (updating (some (xfer 1 8192))).flashUpd fun x => { x with got := [(1, true)] }; let q := wr 0xB820 0x05 1 (List.replicate 16 0); d.flash.header = some (xfer 1 8192) ∧ Takes d q .blockCheckValue 0 = true ∧ d.blockGot q.record = true) ∧
    (let d := updating none; let q := wr 0xB810 0x0E 0 [0]; Takes d q .transferAbandon 0 = true ∧ q.value = 0) ∧
    (let d := updating none; let q := wr 0xB810 0x0E 0 [1]; Takes d q .transferAbandon 0 = true ∧ q.value = 1) ∧
    (let d := (updating none).set 0xB810 0x02 3; let q := wr 0xB810 0x0B 0 [0]; Takes d q .transferActivate 0 = true ∧ q.value = 0 ∧ d.chans = [] ∧ d.lins = [] ∧ d.chart.flushes = [] ∧ d.pow.ramp = []) ∧
    (let d := (updating none).set 0xB810 0x02 3; let q := wr 0xB810 0x0B 0 [1]; Takes d q .transferActivate 0 = true ∧ q.value = 1 ∧ d.flag 0xB810 0x0C = false) ∧
    (let d := ((updating none).set 0xB810 0x02 3).set 0xB810 0x0C 1; let q := wr 0xB810 0x0B 0 [1]; Takes d q .transferActivate 0 = true ∧ q.value = 1 ∧ d.flag 0xB810 0x0C = true) ∧
    (let d := updating (some (xfer 1 8192)); Good d = true ∧ d.flash.header = some (xfer 1 8192) ∧ (xfer 1 8192).blocks ≤ 2 ∧ 1 < (xfer 1 8192).blocks ∧ d.blockGot 1 = false ∧ (d.flash.block ≠ 1 ∨ d.flash.quarters.length < 4)) ∧
    (let d := (updating (some (xfer 1 8192))).flashUpd fun x => { x with block := 1, quarters := [(0, [0]), (1, [0]), (2, [0]), (3, [0])] }; Good d = true ∧ d.flash.block = 1 ∧ d.flash.quarters.length = 4 ∧ d.blockGot 1 = false ∧ d.conditionCode = 0) :=
  by and_intros <;> decide +kernel

/-- Witness of O57 (TrialsAndConfirmation): states, commands and operands that meet its hypotheses. -/
theorem witness_trials_and_confirmation :
    (let d := base; Good d = true ∧ d.flash.header = none ∧ d.obj 0xB810 0x02 ≠ 2 ∧ d.obj 0xB840 0x01 = 0 ∧ d.flash.healthy = none ∧ d.healthNow = false) ∧
    (let d := (updating (some (xfer 2 4096))).set 0xB810 0x02 2; Good d = true ∧ d.flash.header = some (xfer 2 4096) ∧ d.obj 0xB810 0x02 = 2 ∧ d.pairRuns 3 = true ∧ (xfer 2 4096).type = 2) ∧
    (let d := (updating (some (xfer 1 4096))).set 0xB810 0x02 2; Good d = true ∧ d.flash.header = some (xfer 1 4096) ∧ d.obj 0xB810 0x02 = 2 ∧ (xfer 1 4096).type = 1 ∧ d.slotWith 0 = some 1) ∧
    (let d := trial 1 0; Good d = true ∧ d.now < d.flash.since + (d.flash.added + 1) * 60 * perS) ∧
    (let d := atTime (trial 1 8) (60 * perS); Good d = true ∧ d.obj 0xB840 0x01 ≠ 0 ∧ d.pairRuns 3 = true ∧ d.flash.since + (d.flash.added + 1) * 60 * perS ≤ d.now ∧ d.bootRec.minutes + 1 < 10) ∧
    (let d := atTime (trial 1 9) (60 * perS); Good d = true ∧ d.obj 0xB840 0x01 ≠ 0 ∧ d.flash.since + (d.flash.added + 1) * 60 * perS ≤ d.now ∧ 10 ≤ d.bootRec.minutes + 1) ∧
    (let d := healthy; Good d = true ∧ d.flash.healthy = some 0 ∧ d.healthNow = true ∧ d.now < 0 + d.obj 0xB840 0x04 * perS) ∧
    (let d := atTime (healthy.set 0xB840 0x05 1) (60 * perS); Good d = true ∧ d.flash.healthy = some 0 ∧ d.healthNow = true ∧ 0 + d.obj 0xB840 0x04 * perS ≤ d.now ∧ d.flag 0xB840 0x05 = true) ∧
    (let d := atTime (healthy) (60 * perS); Good d = true ∧ d.healthNow = true ∧ 0 + d.obj 0xB840 0x04 * perS ≤ d.now ∧ d.flag 0xB840 0x05 = false) ∧
    (let q := wr 0xB840 0x06 0 [0]; Takes owned q .confirmWrite 0 = true ∧ q.value = 0) ∧
    (let d := owned.set 0xB840 0x01 2; let q := wr 0xB840 0x06 0 [1]; Takes d q .confirmWrite 0 = true ∧ q.value = 1) :=
  by refine ⟨?_, ?_, ?_, ?_, ?_, ?_, ?_, ?_, ?_, ?_, ?_⟩ <;> decide +kernel

/-! Memory integrity. -/

/-- The device in Run. -/
def running : Dev := base.set 0xA000 0x02 4

/-- A march whose first read of block 0 shows other bytes than those expected, repaired with one spare row. -/
def badBlock : BlockTest := { reads := [(64, [])], spares := [.row], retest := [] }

/-- Witness of O58 (MemoryLines): states, commands and operands that meet its hypotheses. -/
theorem witness_memory_lines :
    (let d := base; Good d = true ∧ (7 : Nat) < 8 ∧ d.poisoned 1 0 = false ∧ d.integ.writebacks.contains (1, 0) = false ∧ memoryLines 7 - 1 < memoryLines 7) ∧
    (let d := running.integUpd fun x => { x with poison := [(1 * 2 ^ 32, true)], writebacks := [(1, 0)] }; Good d = true ∧ d.memoryOn 1 = true ∧ d.integ.served = [] ∧ d.poisoned 1 0 = true ∧ d.integ.writebacks.contains (1, 0) = true) ∧
    (let d := (List.range 32).foldl (fun d r => d.set 0xC050 0x01 2 0 r) base; Good d = true ∧ d.corrEntry 1 0 = none) ∧
    (let d := ((base.set 0xC050 0x01 1 0 31).set 0xC050 0x02 5 0 31); Good d = true ∧ d.corrEntry 1 5 = some 31 ∧ d.obj 0xC050 0x01 0 31 = 1) ∧
    (let d := base; Good d = true ∧ d.memoryOn 7 = false ∧ hasMerge 7 = true) ∧
    (let d := running; Good d = true ∧ 1 ≤ 7 ∧ d.memoryOn 7 = true ∧ (d.merges 7).any (fun e => e.line = 0 && e.full) = false ∧ lineGood .clean = true ∧ lineGood .uncorrectable = false) ∧
    (let d := running; Good d = true ∧ d.memoryOn 7 = true ∧ d.integ.served = [] ∧ tget (fun _ => (0, 0)) d.integ.patrol 7 = (0, 0) ∧ (d.retiredBlocks 7).contains (0 / 64) = false ∧ d.saved 7 = none ∧ d.merges 7 = [] ∧ 0 + 1 < memoryLines 7) ∧
    (let d := running.integUpd fun x => { x with patrol := [(7, (memoryLines 7 - 1, 0))] }; Good d = true ∧ d.memoryOn 7 = true ∧ d.integ.served = [] ∧ d.saved 7 = none ∧ d.merges 7 = [] ∧ tget (fun _ => (0, 0)) d.integ.patrol 7 = (memoryLines 7 - 1, 0) ∧ (d.retiredBlocks 7).contains ((memoryLines 7 - 1) / 64) = false ∧ memoryLines 7 ≤ memoryLines 7 - 1 + 1) ∧
    (let d := running.integUpd fun x => { x with retired := [(7, [0])] }; Good d = true ∧ d.memoryOn 7 = true ∧ d.integ.served = [] ∧ tget (fun _ => (0, 0)) d.integ.patrol 7 = (0, 0) ∧ (d.retiredBlocks 7).contains ((0, 0).1 / 64) = true ∧ (0, 0).1 + 1 < memoryLines 7) ∧
    (let d := base; Good d = true ∧ d.obj 0xC020 0x05 ≠ 1 ∧ d.memoryOn 7 = false) ∧
    (let d := base.fabUpd fun x => { x with orphans := [frame1] }; Good d = true ∧ d.fab.orphans = [frame1] ∧ frame1.held < 2 ^ 32) ∧
    (let d := base.set 0x3040 0x01 1 0 1023; Good d = true ∧ (1023 : Nat) < 1024 ∧ d.rulesOn = [1023]) ∧
    (let d := running.set 0xC020 0x05 1; Good d = true ∧ d.memoryOn (d.obj 0xC020 0x01) = true ∧ d.integ.served = [] ∧ d.obj 0xC020 0x05 = 1 ∧ d.retiredBlocks (d.obj 0xC020 0x01) = []) ∧
    (let q := wr 0xC020 0x04 0 [1]; Takes owned q .softwareScrubStart 0 = true ∧ q.value = 1) ∧
    (let q := wr 0xC051 0x02 0 [1]; Takes owned q .clearCorrectionTable 0 = true ∧ q.value = 1) :=
  by and_intros <;> decide +kernel

/-- The line that holds a rule is a line of the Chart memory, whichever it is. -/
theorem witness_memory_lines_rule (k : Nat) : Config.ruleLine k % memoryLines 1 < memoryLines 1 := Nat.mod_lt _ (by decide)

/-- Witness of O58 (MemoryLines): states, commands and operands that meet its hypotheses, and their boundary values. -/
theorem witness_memory_lines_port : ∃ (s : State) (t : Nat) (d : Dev) (c : Instr), State.Tick s t d ∧ s.pending = [c] ∧ (Instr.time c - d.ltEpoch) / 2 ≤ d.lt / 2 ∧ d.portRequests c = [(1, 0)] := by
  have h : State.at { pending := [.stashDrain 0], dev := base } 0 = base := by simp [State.at, Dev.advance, catchUp_still (show Still base = true by decide +kernel)]
  exact ⟨{ pending := [.stashDrain 0], dev := base }, 0, base, .stashDrain 0, ⟨h, by decide +kernel⟩, rfl, by decide +kernel, rfl⟩

/-- Witness of O59 (TestWindowAndSounding): states, commands and operands that meet its hypotheses. -/
theorem witness_test_window :
    (let d := owned.set 0x1020 0x0C 1; let q := wr 0xC030 0x41 0 [1]; Takes d q .testWindowOpen 0 = true ∧ q.value = 1) ∧
    (let d := ((owned.set 0x1020 0x0C 1).set 0xC030 0x41 1).integUpd fun x => { x with window := some (0, 0) }; let q := wr 0xC030 0x41 0 [0]; Takes d q .testWindowOpen 0 = true ∧ d.integ.window = some (0, 0) ∧ q.value = 0) ∧
    (let d := ((owned.set 0x1020 0x0C 1).set 0xC030 0x41 1).integUpd fun x => { x with window := some (0, 0) }; let q := wr 0xC030 0x47 0 [1]; Takes d q .rawWrite 0 = true ∧ q.value = 1) ∧
    (let d := ((owned.set 0x1020 0x0C 1).set 0xC030 0x41 1).integUpd fun x => { x with window := some (0, 0) }; let q := wr 0xC030 0x48 0 [1]; Takes d q .rawRead 0 = true ∧ q.value = 1) ∧
    (let d := ((owned.set 0x1020 0x0C 1).set 0xC030 0x41 1).integUpd fun x => { x with window := some (0, 0) }; let q := wr 0xC030 0x49 0 [1]; Takes d q .decodeRead 0 = true ∧ q.value = 1) :=
  by refine ⟨?_, ?_, ?_, ?_, ?_⟩ <;> decide +kernel

/-- Witness of O59 (TestWindowAndSounding): states, commands and operands that meet its hypotheses. -/
theorem witness_sounding :
    (let d := base; Good d = true ∧ d.saved 7 = none ∧ d.flag 0xC040 0x07 = false ∧ (d.retiredBlocks 2).contains 0 = false) ∧
    (let d := running.set 0xC040 0x07 1; Good d = true ∧ d.flag 0xC040 0x02 = true ∧ d.flag 0xC040 0x07 = true ∧ d.pairRuns 3 = true ∧ d.saved 7 = none ∧ d.integ.save = [] ∧ d.soundingGoesOn = true ∧ d.integ.served = [] ∧ d.escalatedBlocks 7 = [] ∧ d.retiredBlocks 7 = [] ∧ d.merges 7 = []) ∧
    (let d := running.integUpd fun x => { x with save := [(0, some (0, false)), (1, some (0, false))] }; Good d = true ∧ 2 ≤ d.soundingsRunning ∧ d.saved 7 = none) ∧
    (let d := base.integUpd fun x => { x with save := [(7, some (0, false))] }; Good d = true ∧ d.saved 7 = some (0, false) ∧ d.integ.window ≠ some (7, 0) ∧ d.soundingGoesOn = false) ∧
    (let d := running.integUpd fun x => { x with save := [(7, some (0, false))] }; Good d = true ∧ d.saved 7 = some (0, false) ∧ d.integ.window ≠ some (7, 0) ∧ d.soundingGoesOn = true ∧ marchFails 0 [] = false ∧ marchFails 0 badBlock.reads = true ∧
      (d.inc64 0xC040 0x04).repairBlock 7 0 badBlock (marchFails 0 badBlock.retest) = none) ∧
    (let d := running.integUpd fun x => { x with save := [(7, some (0, false))], repairMode := 1 }; Good d = true ∧ d.soundingGoesOn = true ∧ ((d.inc64 0xC040 0x04).repairBlock 7 0 badBlock (marchFails 0 badBlock.retest)).isSome = true ∧
      d.integ.repairMode ≠ 0 ∧ (badBlock.spares.filter (· == .row)).length = 1 ∧ (d.sparesUsed 7 0).1 + 1 ≤ 4 ∧ (d.sparesUsed 7 0).2 + 0 ≤ 2) ∧
    (let d := running.integUpd fun x => { x with repairMode := 1, spares := [(7 * 65536, (4, 2))] }; Good d = true ∧ 4 < (d.sparesUsed 7 0).1 + 1 ∧ 2 < (d.sparesUsed 7 0).2 + 1) ∧
    (let d := base.integUpd fun x => { x with save := [(7, some (0, true))], retired := [(7, [0])] }; Good d = true ∧ d.saved 7 = some (0, true) ∧ (d.retiredBlocks 7).contains 0 = true ∧ memoryBlocks 7 - 1 < memoryBlocks 7) ∧
    ((2559 : Nat) < 2560 ∧ (marchOp 3 2559).2.isSome = true ∧ (marchOp 3 0).2 = none) :=
  by and_intros <;> decide +kernel

/-- Witness of O60 (RecorderAndReplay): states, commands and operands that meet its hypotheses. -/
theorem witness_recorder_and_replay :
    (let d := base; Good d = true ∧ d.memoryOn 7 = false) ∧
    (let d := base; Good d = true ∧ d.fab.mirrors = [] ∧ d.integ.replay = none) ∧
    (let d := running.fabUpd fun x => { x with mirrors := [frame1] }; Good d = true ∧ d.memoryOn 7 = true ∧ d.fab.mirrors = frame1 :: [] ∧ d.flag 0xD000 0x01 = true) ∧
    (let d := (running.set 0xD000 0x01 0).fabUpd fun x => { x with mirrors := [frame1] }; Good d = true ∧ d.memoryOn 7 = true ∧ d.fab.mirrors = frame1 :: [] ∧ d.flag 0xD000 0x01 = false) ∧
    (let d := (running.set 0xD020 0x05 1).fabUpd fun x => { x with mirrors := [frame1] }; Good d = true ∧ d.memoryOn 7 = true ∧ d.fab.mirrors = frame1 :: [] ∧ d.flag 0xD000 0x01 = true ∧ d.obj 0xD020 0x05 = 1 ∧ 32 + 2048 ≤ d.obj 0xD000 0x06 * 1024 - 64 ∧ frame1.data.length ≤ 2048) ∧
    (let q := wr 0xD021 0x04 0 [22]; Takes (owned.integUpd fun x => { x with ring := [{ lt := 0, member := 0, port := 0, rule := 0, length := 64, oversize := false, seq := 0, bytes := [] }] }) q .replayStart 0 = true) ∧
    (let r : RecFrame := { lt := 5, member := 0, port := 0, rule := 0, length := 64, oversize := false, seq := 3, bytes := [] }; let p : Replay := { next := 3, port := 22, left := 1 }; let d := running.integUpd fun x => { x with ring := [] ++ [r], replay := some p }; Good d = true ∧ d.memoryOn 7 = true ∧ d.integ.replay = some p ∧ d.integ.ring = [] ++ [r] ∧ p.next ≤ r.seq ∧ r.lineError = false ∧ p.lastOut = none) ∧
    (let r : RecFrame := { lt := 5, member := 0, port := 0, rule := 0, length := 64, oversize := false, seq := 3, bytes := [] }; let p : Replay := { next := 3, port := 22, left := 2, lastOut := some (0, 4) }; let d := running.integUpd fun x => { x with ring := [] ++ [r], replay := some p }; Good d = true ∧ d.memoryOn 7 = true ∧ p.lastOut = some (0, 4) ∧ d.now < 0 + (r.lt - 4)) ∧
    (let r : RecFrame := { lt := 5, member := 0, port := 0, rule := 0, length := 64, oversize := false, seq := 3, bytes := [] }; let p : Replay := { next := 3, port := 22, left := 2, lastOut := some (0, 4) }; let d := atTime (running.integUpd fun x => { x with ring := [] ++ [r], replay := some p }) (1); Good d = true ∧ d.memoryOn 7 = true ∧ p.lastOut = some (0, 4) ∧ 0 + (r.lt - 4) ≤ d.now) ∧
    (let p : Replay := { next := 0, port := 0, left := 1 }; let d := running.integUpd fun x => { x with replay := some p }; Good d = true ∧ d.memoryOn 7 = true ∧ d.integ.replay = some p ∧ d.integ.ring = []) :=
  by and_intros <;> decide +kernel

/-- Witness of O19 (PpsInput): states, commands and operands that meet its hypotheses. -/
theorem witness_pps_input :
    (let d := base.set 0x8051 0x01 1; Good d = true ∧ d.flag 0x8051 0x01 = true ∧ (d.obj 0x8051 0x02 = 0 ↔ true = true) ∧ d.sex.ppsIn = none) ∧
    (let d := atTime ((base.set 0x8051 0x01 1).sexUpd fun x => { x with ppsIn := some 0 }) (perUs); Good d = true ∧ d.sex.ppsIn = some 0 ∧ perUs ≤ d.now - 0) ∧
    (let d := (base.set 0x8051 0x01 1).sexUpd fun x => { x with ppsIn := some 0 }; Good d = true ∧ d.sex.ppsIn = some 0 ∧ d.now - 0 < perUs) ∧
    (let d := base; Good d = true ∧ d.flag 0x8051 0x01 = false ∧ ¬ (d.obj 0x8051 0x02 = 0 ↔ false = true)) :=
  by refine ⟨?_, ?_, ?_, ?_⟩ <;> decide +kernel

/-- A device with every quarter of block 1 of a transfer, and the request that gives the block's check value. -/
def blockDev : Dev := (updating (some (xfer 1 8192))).flashUpd fun x => { x with block := 1, quarters := [(0, [1]), (1, [2]), (2, [3]), (3, [4])] }
def sealOf : Bytes := sixteen (shake256 (ascii "VZN-BLK" ++ beBytes 4 9 ++ beBytes 2 1 ++ blockDev.assembled) 16)
def sealRequest : Request := wr 0xB820 0x05 1 sealOf

theorem seal_length : sealOf.length = 16 := rfl

theorem seal_value : recData sealRequest.bytes = sealOf := by
  unfold recData slice recLen sealRequest wr request
  simp only
  rw [seal_length, List.drop_left' (by rfl)]
  exact List.take_of_length_le (by rw [seal_length]; exact Nat.le_of_eq rfl)

theorem seal_check (d : Dev) (hh : d.flash.header = some (xfer 1 8192)) (hg : d.blockGot 1 = false) (hb : ¬ (d.flash.block ≠ 1 ∨ d.flash.quarters.length < 4)) (hc : d.conditionCode = 0)
    (ha : d.assembled = blockDev.assembled) : d.checkValueCode 1 (beNat sealOf) = 0 := by
  have hs : blockCheck (xfer 1 8192).id 1 d.assembled = sealOf := by rw [ha]; exact (sixteen_eq _ (shake256_length _ 16)).symm
  have hv : beBytes 16 (beNat sealOf) = sealOf := by
    have h := beBytes_beNat sealOf
    rwa [seal_length] at h
  have hp : paddingOk (xfer 1 8192) 1 d.assembled = true := by rw [ha]; decide +kernel
  unfold Dev.checkValueCode
  rw [hh]
  simp only [hg, hc, hs, hv, hp]
  rw [if_neg (by decide), if_neg (by simp), if_neg hb]
  simp

theorem seal_deps (d : Dev) (h : d.pairRuns 3 = true) (v : Nat) : d.depsCode 0xB820 0x05 0 1 v = d.checkValueCode 1 v := by
  have e : d.depsCode 0xB820 0x05 0 1 v = d.updDeps 0xB820 0x05 1 v := rfl
  rw [e]
  unfold Dev.updDeps
  simp [h]

/-- Witness of O56 (TransferWrites): states and operands that meet the hypotheses of its clause about this command. -/
theorem witness_block_check_value : Takes blockDev sealRequest .blockCheckValue 0 = true ∧ blockDev.flash.header = some (xfer 1 8192) ∧ blockDev.blockGot sealRequest.record = false := by
  refine ⟨?_, by decide +kernel, by decide +kernel⟩
  have hr : row 0xB820 0x05 = ⟨0xB820, 1, 0x05, 1, .octet 16, .wo, .member, 2048, 0, .any⟩ := by decide +kernel
  have hfr : findRow 0xB820 0x05 = some (row 0xB820 0x05) := by decide +kernel
  have hi : recIndex sealRequest.bytes = 0xB820 := rfl
  have hs : recSub sealRequest.bytes = 0x05 := rfl
  have hn : recRecord sealRequest.bytes = 1 := rfl
  have hg : Good (asks blockDev sealRequest) = true := (show Good (asks blockDev sealRequest) = Good blockDev from rfl).trans (by decide +kernel)
  have h2 : recOp sealRequest.bytes = 2 := rfl
  have hv : (sealRequest.svc == Service.pcie || sealRequest.svc == Service.hs) = true := rfl
  have hk : writeKind sealRequest.bytes = .blockCheckValue := by decide +kernel
  have hz : (row 0xB820 0x05).ty.size = 16 := by rw [hr]; rfl
  have ha : addressedUnits (row 0xB820 0x05) sealRequest.bytes = [0] := by rw [hr]; rfl
  have ho : (asks blockDev sealRequest).objectCheck sealRequest.bytes true = 0 := by decide +kernel
  have hp : (asks blockDev sealRequest).pathMembers sealRequest.bytes = [(asks blockDev sealRequest).stackId] := by decide +kernel
  have hc : lengthCheck sealRequest.bytes 16 = 0 := by decide +kernel
  have h1 : (asks blockDev sealRequest).coreOn = true := rfl
  have h3 : (asks blockDev sealRequest).nextRequest = some sealRequest := rfl
  have h4 : (asks blockDev sealRequest).thawLease.dueBefore sealRequest.arrived = asks blockDev sealRequest := rfl
  have h5 : (asks blockDev sealRequest).inRom = false := rfl
  have h6 : (asks blockDev sealRequest).frontCheck sealRequest = 0 := by decide +kernel
  have hsv : (asks blockDev sealRequest).serves sealRequest = true := by
    unfold Dev.serves
    rw [h1, h3, h4, h5, h6]
    simp
  have hq := seal_check ((asks blockDev sealRequest).countRequest sealRequest) (by decide +kernel) (by decide +kernel) (by decide +kernel) (by decide +kernel) (by decide +kernel)
  have hu : ((asks blockDev sealRequest).countRequest sealRequest).unitCheck (row 0xB820 0x05) 0xB820 0x05 0 1 (beNat sealOf) true = 0 := by
    have hd : ((asks blockDev sealRequest).countRequest sealRequest).depsCode 0xB820 0x05 0 1 (beNat sealOf) =
        ((asks blockDev sealRequest).countRequest sealRequest).checkValueCode 1 (beNat sealOf) := seal_deps _ (by decide +kernel) _
    unfold Dev.unitCheck
    rw [hd, hq, hr]
    rfl
  unfold Takes Dev.takesWrite
  rw [hg, hsv, h2, hk, hi, hs, hn, hfr, hz, hc, ha, hv, seal_value, ho, hp, hu]
  simp

/-! The block as a whole (witnesses of statements about every command). -/

/-- StepRunsTheFront: a state with one command at the front and another behind it, and one with an empty queue. -/
theorem witness_step_runs_the_front :
    (let s : State := { pending := [.almAck 0, .claim 5], dev := base }; s.pending = .almAck 0 :: [.claim 5]) ∧ State.reset.pending = [] := by decide +kernel

/-- EveryCommandCompletes: a command with operands in order, and one with operands that name nothing. -/
theorem witness_every_command_completes :
    Instr.wf (.almAck 0) = true ∧ Instr.wf (.plcaCollision 0 20) = false ∧
    (∃ x, exec (.almAck 0) { pending := [.claim 5], dev := base } = .next x ∧ x.pending = [.claim 5]) := by
  refine ⟨by decide +kernel, by decide +kernel, _, rfl, rfl⟩

/-- DeliveredIsKept: a state in which no event waits and a step that gives a next state. -/
theorem witness_delivered_is_kept : State.reset.Delivered ∧ ∃ x, step { State.reset with pending := [.almAck 0] } = .next x :=
  ⟨.inl ⟨rfl, rfl⟩, _, rfl⟩

/-- QueueRunsOut: a queue of three commands with operands in order. -/
theorem witness_queue_runs_out : ([.almAck 0, .ppsInEdge 7 true, .vaonPowerOn 9] : List Instr).all Instr.wf = true := by decide +kernel

/-- AlwaysOnSupply: it holds in every state; here before and after the removal of the supply. -/
theorem witness_always_on_supply : base.watch.off = false ∧ (base.watchUpd fun w => { w with off := true }).watch.off = true := by decide +kernel

/-- LittleEndianSignal: the last bit of a signal of 12 bits from bit 3 on. -/
theorem witness_little_endian_signal : 11 < 12 ∧ (sigPositions 0 3 12).getD 11 0 = 14 ∧ (sigPositions 0 3 12).getD 0 0 = 3 := by decide +kernel

/-- BigEndianSignal: a signal of 12 bits that starts at bit 3 runs on in the next byte from its bit 7. -/
theorem witness_big_endian_signal :
    (0 : Nat) < 12 ∧ 7 + 1 < 12 ∧ (sigPositions 1 3 12).getD 8 0 = 0 ∧ (sigPositions 1 3 12).getD 7 0 = 15 ∧ (sigPositions 1 3 12).getD 11 0 = 3 ∧
    bitsAt [0x05, 0x80] (sigPositions 1 3 12) = 0x580 := by decide +kernel

/-- ResetDelivered has no hypotheses; the state after reset is the witness of DeliveredIsKept. -/
theorem witness_reset_delivered : State.reset.dev.coreOn = true ∧ State.reset.pending = [] := by decide +kernel

/-! Operands out of range (WellFormed): for every check an operand just outside it, refused, and where it stands alone the last operand inside it, taken. -/

/-- Operands outside their ranges are refused: requests and replies. -/
theorem test_wf_requests_refused : ([
    .almDoorbell 0 2048 (List.replicate 2048 0),
    .almDoorbell 0 21 (List.replicate 20 0),
    .almDoorbell 0 20 (List.replicate 2049 0),
    .hsUnknownCommand 0 ⟨0x5A, 0⟩,
    .hsUnknownCommand 0 ⟨0x96, 0⟩,
    .canServiceRequest 0 24 0 [],
    .stackForwardedRequest 0 { member := 4, xl := true } .pcie (.host 0) [],
    .read 0 [{ path := List.replicate 3 0, status := 65535, value := List.replicate 1024 0 }] false,
    .read 0 [{ path := List.replicate 4 0, status := 65536, value := List.replicate 1024 0 }] false,
    .read 0 [{ path := List.replicate 4 0, status := 65535, value := List.replicate 1025 0 }] false,
    .memberAnswerReceived 0 4 true 0 [],
    .memberAnswerReceived 0 1 true 65536 [0, 0, 0, 0],
    .memberAnswerReceived 0 1 true 1 [0, 0, 0]] : List Instr).all (fun c => !c.wf) = true := by decide +kernel

/-- The last operands inside their ranges are taken: requests and replies. -/
theorem test_wf_requests_taken : ([
    .almDoorbell 0 2047 (List.replicate 1044 0),
    .almDoorbell 0 20 (List.replicate 20 0),
    .hsUnknownCommand 0 ⟨0x5B, 0⟩,
    .canServiceRequest 0 23 0 [],
    .stackForwardedRequest 0 { member := 3, xl := true } .pcie (.host 0) [],
    .read 0 [{ path := List.replicate 4 0, status := 65535, value := List.replicate 1024 0 }] false,
    .memberAnswerReceived 0 3 true 0 [],
    .memberAnswerReceived 0 1 true 65535 [0, 0, 0, 0]] : List Instr).all Instr.wf = true := by decide +kernel

/-- Operands outside their ranges are refused: events and the host port. -/
theorem test_wf_events_refused : ([
    .eventBusEvent 0 { source := 256, vector := some 21, code := 65535, path := List.replicate 4 0, data := List.replicate 12 0 },
    .eventBusEvent 0 { source := 255, vector := some 21, code := 65536, path := List.replicate 4 0, data := List.replicate 12 0 },
    .eventBusEvent 0 { source := 255, vector := some 21, code := 65535, path := List.replicate 3 0, data := List.replicate 12 0 },
    .eventBusEvent 0 { source := 255, vector := some 21, code := 65535, path := List.replicate 4 0, data := List.replicate 13 0 },
    .eventBusEvent 0 { source := 255, vector := some 22, code := 65535, path := List.replicate 4 0, data := List.replicate 12 0 },
    .eventCauseClear 0 0 (BitVec.ofNat 64 (2 ^ 22)),
    .msixUnmask 0 { vector := 64 },
    .barIgnoredWrite 0 0 65536,
    .barIgnoredWrite 0 2 262144,
    .barIgnoredWrite 0 1 0,
    .barIgnoredWrite 0 0 0x0100,
    .barIgnoredWrite 0 2 8,
    .pcieLinkUp 0 5 1,
    .pcieLinkUp 0 0 1,
    .pcieLinkUp 0 1 0,
    .pcieLinkUp 0 1 3,
    .fifoHeadWrite 0 64 0,
    .fifoDataWrite 0 64 [0],
    .fifoDataWrite 0 0 (List.replicate 33 0),
    .fifoDataWrite 0 0 (List.replicate 0 0),
    .fifoEndWrite 0 64 0,
    .fifoPopRead 0 64 { bytes := 64 } [],
    .fifoFlushWrite 0 64,
    .fifoFlushTakesEffect 0 64,
    .fifoCoalescingExpiry 0 64] : List Instr).all (fun c => !c.wf) = true := by decide +kernel

/-- The last operands inside their ranges are taken: events and the host port. -/
theorem test_wf_events_taken : ([
    .eventBusEvent 0 { source := 255, vector := some 21, code := 65535, path := List.replicate 4 0, data := List.replicate 12 0 },
    .eventBusEvent 0 { source := 255, vector := none, code := 65535, path := List.replicate 4 0, data := List.replicate 12 0 },
    .eventCauseClear 0 0 (BitVec.ofNat 64 (2 ^ 22 - 1)),
    .msixUnmask 0 { vector := 63 },
    .barIgnoredWrite 0 0 65535,
    .barIgnoredWrite 0 2 262143,
    .pcieLinkUp 0 0 0,
    .pcieLinkUp 0 4 1,
    .pcieLinkUp 0 1 1,
    .pcieLinkUp 0 1 2,
    .fifoHeadWrite 0 63 0,
    .fifoDataWrite 0 63 [0],
    .fifoDataWrite 0 0 (List.replicate 32 0),
    .fifoDataWrite 0 0 (List.replicate 1 0),
    .fifoEndWrite 0 63 0,
    .fifoPopRead 0 63 { bytes := 64 } [],
    .fifoFlushWrite 0 63,
    .fifoFlushTakesEffect 0 63,
    .fifoCoalescingExpiry 0 63] : List Instr).all Instr.wf = true := by decide +kernel

/-- Operands outside their ranges are refused: time and the Plotter. -/
theorem test_wf_time_refused : ([
    .syncReceived 0 { port := 65, domain := 0, seq := 0, twoStep := true, origin := 0, corr := 0, log := 0, rate := 0, gm := 0, utc := 0 },
    .followUpReceived 0 { port := 65, domain := 0, seq := 0, twoStep := true, origin := 0, corr := 0, log := 0, rate := 0, gm := 0, utc := 0 },
    .announceReceived 0 { port := 65, domain := 0, seq := 0, twoStep := true, origin := 0, corr := 0, log := 0, rate := 0, gm := 0, utc := 0 },
    .syncReceiptTimeout 0 2,
    .announceReceiptTimeout 0 2,
    .ppsOutEdge 0 2,
    .ppsOutPulseEnd 0 2,
    .pdelayInterval 0 21,
    .pdelayInterval 0 0,
    .pdelayReqReceived 0 21 0,
    .pdelayReqReceived 0 0 0,
    .pdelayRespReceived 0 21 0 0 0,
    .pdelayRespReceived 0 0 0 0 0,
    .plotterEntryFire 0 16,
    .legStart 0 16,
    .swapTakesEffect 0 16] : List Instr).all (fun c => !c.wf) = true := by decide +kernel

/-- The last operands inside their ranges are taken: time and the Plotter. -/
theorem test_wf_time_taken : ([
    .syncReceived 0 { port := 64, domain := 0, seq := 0, twoStep := true, origin := 0, corr := 0, log := 0, rate := 0, gm := 0, utc := 0 },
    .followUpReceived 0 { port := 64, domain := 0, seq := 0, twoStep := true, origin := 0, corr := 0, log := 0, rate := 0, gm := 0, utc := 0 },
    .announceReceived 0 { port := 64, domain := 0, seq := 0, twoStep := true, origin := 0, corr := 0, log := 0, rate := 0, gm := 0, utc := 0 },
    .syncReceiptTimeout 0 1,
    .announceReceiptTimeout 0 1,
    .ppsOutEdge 0 1,
    .ppsOutPulseEnd 0 1,
    .pdelayInterval 0 20,
    .pdelayInterval 0 1,
    .pdelayReqReceived 0 20 0,
    .pdelayReqReceived 0 1 0,
    .pdelayRespReceived 0 20 0 0 0,
    .pdelayRespReceived 0 1 0 0 0,
    .plotterEntryFire 0 15,
    .legStart 0 15,
    .swapTakesEffect 0 15] : List Instr).all Instr.wf = true := by decide +kernel

/-- Operands outside their ranges are refused: Ethernet ports. -/
theorem test_wf_ports_refused : ([
    .ethFrameFirstCell 0 22 { data := List.replicate 60 0, sec := none, hdr := none, preemptible := false, badBuckets := [] },
    .ethFrameFirstCell 0 20 { data := List.replicate 60 0, sec := none, hdr := none, preemptible := false, badBuckets := [] },
    .ethFrameFirstCell 0 19 { data := List.replicate 60 0, sec := none, hdr := some { dmem := 3, dport := 31, smem := 3, sport := 24, cls := 7, pcp := 0, dei := false, vid := 4095, hops := 3, oversize := false, tagged := false }, preemptible := false, badBuckets := [] },
    .ethFrameFirstCell 0 21 { data := List.replicate 60 0, sec := none, hdr := some { dmem := 4, dport := 31, smem := 3, sport := 24, cls := 7, pcp := 0, dei := false, vid := 4095, hops := 3, oversize := false, tagged := false }, preemptible := false, badBuckets := [] },
    .ethFrameFirstCell 0 21 { data := List.replicate 60 0, sec := none, hdr := some { dmem := 3, dport := 32, smem := 3, sport := 24, cls := 7, pcp := 0, dei := false, vid := 4095, hops := 3, oversize := false, tagged := false }, preemptible := false, badBuckets := [] },
    .ethFrameFirstCell 0 21 { data := List.replicate 60 0, sec := none, hdr := some { dmem := 3, dport := 31, smem := 4, sport := 24, cls := 7, pcp := 0, dei := false, vid := 4095, hops := 3, oversize := false, tagged := false }, preemptible := false, badBuckets := [] },
    .ethFrameFirstCell 0 21 { data := List.replicate 60 0, sec := none, hdr := some { dmem := 3, dport := 31, smem := 3, sport := 25, cls := 7, pcp := 0, dei := false, vid := 4095, hops := 3, oversize := false, tagged := false }, preemptible := false, badBuckets := [] },
    .ethFrameFirstCell 0 21 { data := List.replicate 60 0, sec := none, hdr := some { dmem := 3, dport := 31, smem := 3, sport := 24, cls := 8, pcp := 0, dei := false, vid := 4095, hops := 3, oversize := false, tagged := false }, preemptible := false, badBuckets := [] },
    .ethFrameFirstCell 0 21 { data := List.replicate 60 0, sec := none, hdr := some { dmem := 3, dport := 31, smem := 3, sport := 24, cls := 7, pcp := 0, dei := false, vid := 4096, hops := 3, oversize := false, tagged := false }, preemptible := false, badBuckets := [] },
    .ethFrameFirstCell 0 21 { data := List.replicate 60 0, sec := none, hdr := some { dmem := 3, dport := 31, smem := 3, sport := 24, cls := 7, pcp := 0, dei := false, vid := 4095, hops := 4, oversize := false, tagged := false }, preemptible := false, badBuckets := [] },
    .ethFrameEnd 0 22 false 1 .good,
    .macControlReceived 0 22 (List.replicate 12 0 ++ [0x88, 0x08]),
    .macControlReceived 0 0 (List.replicate 12 0 ++ [0x88, 0xF7]),
    .pauseExpiry 0 22 0,
    .pauseExpiry 0 0 8,
    .xoffResendTimer 0 12,
    .xoffResendTimer 0 19,
    .xoffResendTimer 0 22,
    .fabricMatch 0 { written := [(25, 0, 1)], full := [], poisoned := [], lost := [], corrected := 0 },
    .fabricMatch 0 { written := [(0, 2, 1)], full := [], poisoned := [], lost := [], corrected := 0 },
    .transmitStart 0 22 false,
    .transmitUnderrun 0 22 false,
    .frameTransmitEnd 0 22 false,
    .linkUp 0 20 1000 false 0,
    .linkUp 0 0 65536 false 0,
    .linkUp 0 0 1000 false 65536,
    .linkDown 0 20 (.lock 0),
    .linkDown 0 0 (.word true 65536 0),
    .linkDown 0 0 (.word true 0 65536),
    .flushComplete 0 23,
    .holdDownExpiry 0 23,
    .verifyMpacketTimer 0 12,
    .respondMpacketReceived 0 12,
    .verifyMpacketReceived 0 12,
    .thresholdDecay 0 22,
    .plcaCycleStart 0 20,
    .plcaCycleStart 0 11,
    .beaconReceived 0 20 false,
    .beaconReceived 0 11 false,
    .beaconTimeout 0 20,
    .beaconTimeout 0 11,
    .plcaCollision 0 20,
    .plcaCollision 0 11,
    .csmaCollision 0 20 true,
    .csmaCollision 0 11 true,
    .backoffExpiry 0 20,
    .backoffExpiry 0 11,
    .lineFaultDeclare 0 20 .open_,
    .lineFaultDeclare 0 11 .open_,
    .lineFaultClear 0 20 .reversed,
    .lineFaultClear 0 11 .reversed,
    .cableTestComplete 0 20 2 0,
    .cableTestComplete 0 11 2 0,
    .cableTestComplete 0 12 5 0,
    .cableTestComplete 0 12 1 0,
    .cableTestComplete 0 12 2 65536] : List Instr).all (fun c => !c.wf) = true := by decide +kernel

/-- The last operands inside their ranges are taken: Ethernet ports. -/
theorem test_wf_ports_taken : ([
    .ethFrameFirstCell 0 19 { data := List.replicate 60 0, sec := none, hdr := none, preemptible := false, badBuckets := [] },
    .ethFrameFirstCell 0 21 { data := List.replicate 60 0, sec := none, hdr := some { dmem := 3, dport := 31, smem := 3, sport := 24, cls := 7, pcp := 0, dei := false, vid := 4095, hops := 3, oversize := false, tagged := false }, preemptible := false, badBuckets := [] },
    .ethFrameEnd 0 21 false 1 .good,
    .macControlReceived 0 21 (List.replicate 12 0 ++ [0x88, 0x08]),
    .pauseExpiry 0 21 0,
    .pauseExpiry 0 0 7,
    .xoffResendTimer 0 11,
    .xoffResendTimer 0 20,
    .fabricMatch 0 { written := [(24, 1, 1)], full := [], poisoned := [], lost := [], corrected := 0 },
    .transmitStart 0 21 false,
    .transmitUnderrun 0 21 false,
    .frameTransmitEnd 0 21 false,
    .linkUp 0 19 1000 false 0,
    .linkUp 0 0 65535 false 0,
    .linkUp 0 0 1000 false 65535,
    .linkDown 0 19 (.lock 0),
    .linkDown 0 0 (.word true 65535 65535),
    .flushComplete 0 22,
    .holdDownExpiry 0 22,
    .verifyMpacketTimer 0 11,
    .respondMpacketReceived 0 11,
    .verifyMpacketReceived 0 11,
    .thresholdDecay 0 21,
    .plcaCycleStart 0 19,
    .plcaCycleStart 0 12,
    .beaconReceived 0 19 false,
    .beaconReceived 0 12 false,
    .beaconTimeout 0 19,
    .beaconTimeout 0 12,
    .plcaCollision 0 19,
    .plcaCollision 0 12,
    .csmaCollision 0 19 true,
    .csmaCollision 0 12 true,
    .backoffExpiry 0 19,
    .backoffExpiry 0 12,
    .lineFaultDeclare 0 19 .open_,
    .lineFaultDeclare 0 12 .open_,
    .lineFaultClear 0 19 .reversed,
    .lineFaultClear 0 12 .reversed,
    .cableTestComplete 0 19 2 0,
    .cableTestComplete 0 12 2 0,
    .cableTestComplete 0 12 4 0,
    .cableTestComplete 0 12 2 65535] : List Instr).all Instr.wf = true := by decide +kernel

/-- Operands outside their ranges are refused: the Chart and the shaping. -/
theorem test_wf_tables_refused : ([
    .ageingScan 0 16386,
    .learnMessageReceived 0 4 0 0 0,
    .learnMessageReceived 0 0 (2 ^ 60) 0 0,
    .removalMessageReceived 0 { key := 2 ^ 60, sender := 0 },
    .removalMessageReceived 0 { key := 0, sender := 4 },
    .removalMessageReceived 0 { key := 0, sender := 0, target := some 4 },
    .learnMessageReceived 0 0 0 128 0,
    .samplerVisit 0 512 0,
    .samplerVisit 0 0 8] : List Instr).all (fun c => !c.wf) = true := by decide +kernel

/-- The last operands inside their ranges are taken: the Chart and the shaping. -/
theorem test_wf_tables_taken : ([
    .ageingScan 0 16385,
    .learnMessageReceived 0 3 0 0 0,
    .learnMessageReceived 0 0 (2 ^ 60 - 1) 0 0,
    .removalMessageReceived 0 { key := 2 ^ 60 - 1, sender := 3 },
    .removalMessageReceived 0 { key := 0, sender := 0, target := some 3 },
    .learnMessageReceived 0 0 0 127 0,
    .samplerVisit 0 511 7] : List Instr).all Instr.wf = true := by decide +kernel

/-- Operands outside their ranges are refused: CAN, LIN, transceivers and wake inputs. -/
theorem test_wf_buses_refused : ([
    .canStopComplete 0 24,
    .canIntegrationComplete 0 24,
    .canArbitrationLost 0 24,
    .protocolException 0 24,
    .busOffRecovery 0 24,
    .canFrameReceived 0 24 { ident := 0, data := List.replicate 0 0 } 0,
    .canFrameReceived 0 0 { ident := 2 ^ 32, data := List.replicate 0 0 } 0,
    .canFrameReceived 0 0 { ident := 0, data := List.replicate 9 0 } 0,
    .canFrameReceived 0 0 { ident := 2 ^ 11, data := List.replicate 0 0 } 0,
    .canFrameReceived 0 0 { ident := 2 ^ 30, data := List.replicate 9 0 } 0,
    .canFrameReceived 0 0 { ident := 2 ^ 31, data := List.replicate 0 0 } 0,
    .canFrameReceived 0 0 { ident := 2 ^ 31, data := List.replicate 2049 0 } 0,
    .canFrameReceived 0 0 { ident := 2 ^ 31 + 2 ^ 29, data := List.replicate 1 0 } 0,
    .canFrameReceived 0 0 { ident := 3 * 2 ^ 30, data := List.replicate 1 0 } 0,
    .canFrameReceived 0 0 { ident := 3 * 2 ^ 30, data := List.replicate 0 0, dlc := 9 } 0,
    .canFrameReceived 0 0 { ident := 2 ^ 31, data := List.replicate 1 0, sdt := 256 } 0,
    .canFrameReceived 0 0 { ident := 2 ^ 31, data := List.replicate 1 0, vcid := 256 } 0,
    .canFrameReceived 0 0 { ident := 2 ^ 31, data := List.replicate 1 0, af := 2 ^ 32 } 0,
    .canFrameStart 0 24 false 0,
    .canFrameStart 0 0 false 65536,
    .canAttemptEnd 0 24 true,
    .canBusError 0 24 { kind := 1, transmitting := true, exempt := false, heavy := false, place := none },
    .canBusError 0 0 { kind := 0, transmitting := true, exempt := false, heavy := false, place := none },
    .canBusError 0 0 { kind := 7, transmitting := true, exempt := false, heavy := false, place := none },
    .canBusError 0 0 { kind := 1, transmitting := true, exempt := false, heavy := false, place := some (65536, 0) },
    .canBusError 0 0 { kind := 1, transmitting := true, exempt := false, heavy := false, place := some (0, 3) },
    .transceiverSettlingEnd 0 61,
    .transceiverSettlingEnd 0 20,
    .linSlotStart 0 16,
    .linHeaderReceived 0 16 0 { rate := 0, brk := 0 },
    .linHeaderReceived 0 0 256 { rate := 0, brk := 0 },
    .linHeaderReceived 0 0 0 { rate := 65536, brk := 0 },
    .linResponseSend 0 16 none,
    .linFrameComplete 0 16 [] .good,
    .linFrameComplete 0 0 (List.replicate 10 0) .good,
    .linFrameTimeLimit 0 16 true,
    .linWakeSignalReceived 0 16,
    .wakeInputWake 0 4 { active := true, held := 0 },
    .wakeInputTestStart 0 4,
    .wakeInputTestEnd 0 4 { millivolts := 0 },
    .wakeInputStuck 0 4,
    .wakeInputRelease 0 4 0,
    .rosePduJob ⟨0, [255, 256]⟩,
    .freshnessExpiry 0 65536] : List Instr).all (fun c => !c.wf) = true := by decide +kernel

/-- The last operands inside their ranges are taken: CAN, LIN, transceivers and wake inputs. -/
theorem test_wf_buses_taken : ([
    .canStopComplete 0 23,
    .canIntegrationComplete 0 23,
    .canArbitrationLost 0 23,
    .protocolException 0 23,
    .busOffRecovery 0 23,
    .canFrameReceived 0 23 { ident := 0, data := List.replicate 0 0 } 0,
    .canFrameReceived 0 0 { ident := 2 ^ 11 - 1, data := List.replicate 8 0 } 0,
    .canFrameReceived 0 0 { ident := 2 ^ 29 + 2 ^ 29 - 1, data := List.replicate 8 0 } 0,
    .canFrameReceived 0 0 { ident := 2 ^ 30, data := List.replicate 12 0 } 0,
    .canFrameReceived 0 0 { ident := 2 ^ 30, data := List.replicate 64 0 } 0,
    .canFrameReceived 0 0 { ident := 2 ^ 31, data := List.replicate 1 0 } 0,
    .canFrameReceived 0 0 { ident := 2 ^ 31, data := List.replicate 2048 0 } 0,
    .canFrameReceived 0 0 { ident := 3 * 2 ^ 30, data := List.replicate 0 0, dlc := 8 } 0,
    .canFrameReceived 0 0 { ident := 2 ^ 31, data := List.replicate 1 0, sdt := 255, vcid := 255, af := 2 ^ 32 - 1 } 0,
    .canFrameStart 0 23 false 0,
    .canFrameStart 0 0 false 65535,
    .canAttemptEnd 0 23 true,
    .canBusError 0 23 { kind := 6, transmitting := true, exempt := false, heavy := false, place := none },
    .canBusError 0 0 { kind := 1, transmitting := true, exempt := false, heavy := false, place := some (65535, 2) },
    .transceiverSettlingEnd 0 60,
    .transceiverSettlingEnd 0 21,
    .linSlotStart 0 15,
    .linHeaderReceived 0 15 0 { rate := 0, brk := 0 },
    .linHeaderReceived 0 0 255 { rate := 0, brk := 0 },
    .linHeaderReceived 0 0 0 { rate := 65535, brk := 0 },
    .linResponseSend 0 15 none,
    .linFrameComplete 0 15 [] .good,
    .linFrameComplete 0 0 (List.replicate 9 0) .good,
    .linFrameTimeLimit 0 15 true,
    .linWakeSignalReceived 0 15,
    .wakeInputWake 0 3 { active := true, held := 0 },
    .wakeInputTestStart 0 3,
    .wakeInputTestEnd 0 3 { millivolts := 0 },
    .wakeInputStuck 0 3,
    .wakeInputRelease 0 3 0,
    .rosePduJob ⟨0, [255, 0]⟩,
    .freshnessExpiry 0 65535] : List Instr).all Instr.wf = true := by decide +kernel

/-- Operands outside their ranges are refused: the stack and the remote bridge. -/
theorem test_wf_stack_refused : ([
    .stackLinkLock 0 2,
    .stackLinkLockLoss 0 { k := 2 },
    .helloTimeout 0 2,
    .helloReceived 0 2 { self := { member := 3, firmware := 0, image := 0, boots := 0, applied := 0, clock := 0, lead := 3, state := 3, cp0Held := false, links := [3] }, port := 1, others := [] },
    .helloReceived 0 1 { self := { member := 3, firmware := 0, image := 0, boots := 0, applied := 0, clock := 0, lead := 3, state := 3, cp0Held := false, links := [3] }, port := 2, others := [] },
    .helloReceived 0 1 { self := { member := 4, firmware := 0, image := 0, boots := 0, applied := 0, clock := 0, lead := 3, state := 3, cp0Held := false, links := [3] }, port := 1, others := [] },
    .helloReceived 0 1 { self := { member := 3, firmware := 0, image := 0, boots := 0, applied := 0, clock := 0, lead := 4, state := 3, cp0Held := false, links := [3] }, port := 1, others := [] },
    .helloReceived 0 1 { self := { member := 3, firmware := 0, image := 0, boots := 0, applied := 0, clock := 0, lead := 3, state := 4, cp0Held := false, links := [3] }, port := 1, others := [] },
    .helloReceived 0 1 { self := { member := 3, firmware := 0, image := 0, boots := 0, applied := 0, clock := 0, lead := 3, state := 3, cp0Held := false, links := [4] }, port := 1, others := [] },
    .helloReceived 0 1 { self := { member := 3, firmware := 0, image := 0, boots := 0, applied := 0, clock := 0, lead := 3, state := 3, cp0Held := false, links := [3] }, port := 1, others := [{ member := 4, firmware := 0, image := 0, boots := 0, applied := 0, clock := 0, lead := 3, state := 3, cp0Held := false, links := [3] }] },
    .rejoinComplete 0 4 0,
    .pathChangeHoldEnd 0 4,
    .stackWriteCheck 0 .pcie (List.replicate 19 0),
    .stackWriteCommit 0 { seq := 0, members := [3] } (List.replicate 19 0),
    .stackWriteCommit 0 { seq := 2 ^ 32, members := [3] } (List.replicate 20 0),
    .stackWriteCommit 0 { seq := 0, members := [4] } (List.replicate 20 0),
    .ownershipStateMessage 0 { owner := List.replicate 7 (8, 0), wins := List.replicate 16 0, gates := 0, lease := 0 },
    .ownershipStateMessage 0 { owner := List.replicate 8 (0, 0), wins := List.replicate 16 0, gates := 0, lease := 0 },
    .ownershipStateMessage 0 { owner := List.replicate 8 (9, 0), wins := List.replicate 16 0, gates := 0, lease := 0 },
    .ownershipStateMessage 0 { owner := List.replicate 8 (8, 0), wins := List.replicate 15 0, gates := 0, lease := 0 },
    .timeMessageReceived 0 2 { zt := 0, added := 0, state := 0, clockClass := 0 },
    .linkDelayRoundTrip 0 2 0,
    .linkDelayRoundTrip 0 0 (2 ^ 33),
    .bridgePostedWriteIssue 0 4 3 255 (2 ^ 40 - 1) (List.replicate 64 0) (List.replicate 16 3),
    .bridgePostedWriteIssue 0 3 4 255 (2 ^ 40 - 1) (List.replicate 64 0) (List.replicate 16 3),
    .bridgePostedWriteIssue 0 3 3 256 (2 ^ 40 - 1) (List.replicate 64 0) (List.replicate 16 3),
    .bridgePostedWriteIssue 0 3 3 255 (2 ^ 40) (List.replicate 64 0) (List.replicate 16 3),
    .bridgePostedWriteIssue 0 3 3 255 (2 ^ 40 - 1) (List.replicate 0 0) (List.replicate 16 3),
    .bridgePostedWriteIssue 0 3 3 255 (2 ^ 40 - 1) (List.replicate 65 0) (List.replicate 16 3),
    .bridgePostedWriteIssue 0 3 3 255 (2 ^ 40 - 1) (List.replicate 64 0) (List.replicate 17 3),
    .bridgePostedWriteIssue 0 3 3 255 (2 ^ 40 - 1) (List.replicate 64 0) [4],
    .bridgeReadIssue 0 4 3 255 (2 ^ 40 - 1) 64,
    .bridgeReadIssue 0 3 4 255 (2 ^ 40 - 1) 64,
    .bridgeReadIssue 0 3 3 256 (2 ^ 40 - 1) 64,
    .bridgeReadIssue 0 3 3 255 (2 ^ 40) 64,
    .bridgeReadIssue 0 3 3 255 (2 ^ 40 - 1) 0,
    .bridgeReadIssue 0 3 3 255 (2 ^ 40 - 1) 65,
    .bridgeRequestExecute 0 0 3 3 255 (2 ^ 40 - 1) 64 3 (List.replicate 64 0),
    .bridgeRequestExecute 0 3 3 3 255 (2 ^ 40 - 1) 64 3 (List.replicate 64 0),
    .bridgeRequestExecute 0 2 4 3 255 (2 ^ 40 - 1) 64 3 (List.replicate 64 0),
    .bridgeRequestExecute 0 2 3 4 255 (2 ^ 40 - 1) 64 3 (List.replicate 64 0),
    .bridgeRequestExecute 0 2 3 3 256 (2 ^ 40 - 1) 64 3 (List.replicate 64 0),
    .bridgeRequestExecute 0 2 3 3 255 (2 ^ 40) 64 3 (List.replicate 64 0),
    .bridgeRequestExecute 0 2 3 3 255 (2 ^ 40 - 1) 0 3 (List.replicate 0 0),
    .bridgeRequestExecute 0 2 3 3 255 (2 ^ 40 - 1) 65 3 (List.replicate 65 0),
    .bridgeRequestExecute 0 2 3 3 255 (2 ^ 40 - 1) 64 4 (List.replicate 64 0),
    .bridgeRequestExecute 0 2 3 3 255 (2 ^ 40 - 1) 64 3 (List.replicate 63 0),
    .bridgeReadCompletion 0 4 0 0 [],
    .bridgeReadCompletion 0 0 256 0 [],
    .bridgeReadCompletion 0 0 0 5 [],
    .bridgeWriteErrorReport 0 4 { tag := 0, pair := 0, len := 1, addr := 0 } 1,
    .bridgeWriteErrorReport 0 0 { tag := 256, pair := 0, len := 1, addr := 0 } 1,
    .bridgeWriteErrorReport 0 0 { tag := 0, pair := 4, len := 1, addr := 0 } 1,
    .bridgeWriteErrorReport 0 0 { tag := 0, pair := 0, len := 65, addr := 0 } 1,
    .bridgeWriteErrorReport 0 0 { tag := 0, pair := 0, len := 1, addr := 2 ^ 40 } 1,
    .bridgeWriteErrorReport 0 0 { tag := 0, pair := 0, len := 1, addr := 0 } 0,
    .bridgeWriteErrorReport 0 0 { tag := 0, pair := 0, len := 1, addr := 0 } 5,
    .bridgeReadTimeout 0 4] : List Instr).all (fun c => !c.wf) = true := by decide +kernel

/-- The last operands inside their ranges are taken: the stack and the remote bridge. -/
theorem test_wf_stack_taken : ([
    .stackLinkLock 0 1,
    .stackLinkLockLoss 0 { k := 1 },
    .helloTimeout 0 1,
    .helloReceived 0 1 { self := { member := 3, firmware := 0, image := 0, boots := 0, applied := 0, clock := 0, lead := 3, state := 3, cp0Held := false, links := [3] }, port := 1, others := [{ member := 3, firmware := 0, image := 0, boots := 0, applied := 0, clock := 0, lead := 3, state := 3, cp0Held := false, links := [3] }] },
    .rejoinComplete 0 3 0,
    .pathChangeHoldEnd 0 3,
    .stackWriteCheck 0 .pcie (List.replicate 20 0),
    .stackWriteCommit 0 { seq := 2 ^ 32 - 1, members := [3] } (List.replicate 20 0),
    .ownershipStateMessage 0 { owner := List.replicate 8 (8, 0), wins := List.replicate 16 0, gates := 0, lease := 0 },
    .ownershipStateMessage 0 { owner := List.replicate 8 (1, 0), wins := List.replicate 16 0, gates := 0, lease := 0 },
    .timeMessageReceived 0 1 { zt := 0, added := 0, state := 0, clockClass := 0 },
    .linkDelayRoundTrip 0 1 0,
    .linkDelayRoundTrip 0 0 (2 ^ 33 - 1),
    .bridgePostedWriteIssue 0 3 3 255 (2 ^ 40 - 1) (List.replicate 64 0) (List.replicate 16 3),
    .bridgePostedWriteIssue 0 3 3 255 (2 ^ 40 - 1) (List.replicate 1 0) (List.replicate 16 3),
    .bridgeReadIssue 0 3 3 255 (2 ^ 40 - 1) 64,
    .bridgeReadIssue 0 3 3 255 (2 ^ 40 - 1) 1,
    .bridgeRequestExecute 0 2 3 3 255 (2 ^ 40 - 1) 64 3 (List.replicate 64 0),
    .bridgeRequestExecute 0 1 3 3 255 (2 ^ 40 - 1) 1 3 (List.replicate 1 0),
    .bridgeReadCompletion 0 3 255 4 [],
    .bridgeWriteErrorReport 0 3 { tag := 255, pair := 3, len := 64, addr := 2 ^ 40 - 1 } 4,
    .bridgeWriteErrorReport 0 0 { tag := 0, pair := 0, len := 1, addr := 0 } 1,
    .bridgeReadTimeout 0 3] : List Instr).all Instr.wf = true := by decide +kernel

/-- Operands outside their ranges are refused: the Watch, supplies and the start. -/
theorem test_wf_wake_refused : ([
    .nmPduReceived 0 45 0 [],
    .nmPduReceived 0 12 0 [],
    .nmPduReceived 0 13 (2 ^ 32) [],
    .readySleepExpiry 0 61,
    .readySleepExpiry 0 12,
    .nmCycle 0 61,
    .nmCycle 0 12,
    .lastCallNotSent 0 45 true,
    .lastCallNotSent 0 12 true,
    .lastCallWindowClose 0 61 true,
    .lastCallWindowClose 0 12 true,
    .busWake 0 45,
    .busWake 0 12,
    .maxAwakeExceeded 0 61,
    .maxAwakeExceeded 0 12,
    .coreResetRelease 0 true { flashState := 4, flashSize := 2 ^ 32 - 1, pass2 := true, migrated := [], writes := [], ms := 2 ^ 32 - 1 },
    .coreResetRelease 0 true { flashState := 3, flashSize := 2 ^ 32, pass2 := true, migrated := [], writes := [], ms := 2 ^ 32 - 1 },
    .coreResetRelease 0 true { flashState := 3, flashSize := 2 ^ 32 - 1, pass2 := true, migrated := [], writes := [], ms := 2 ^ 32 },
    .coreResetRelease 0 true { flashState := 3, flashSize := 2 ^ 32 - 1, pass2 := true, migrated := [], writes := [{ unit := 65, idx := 65535, sub := 255, record := 65535, value := [] }], ms := 2 ^ 32 - 1 },
    .coreResetRelease 0 true { flashState := 3, flashSize := 2 ^ 32 - 1, pass2 := true, migrated := [], writes := [{ unit := 64, idx := 65536, sub := 255, record := 65535, value := [] }], ms := 2 ^ 32 - 1 },
    .coreResetRelease 0 true { flashState := 3, flashSize := 2 ^ 32 - 1, pass2 := true, migrated := [], writes := [{ unit := 64, idx := 65535, sub := 256, record := 65535, value := [] }], ms := 2 ^ 32 - 1 },
    .coreResetRelease 0 true { flashState := 3, flashSize := 2 ^ 32 - 1, pass2 := true, migrated := [], writes := [{ unit := 64, idx := 65535, sub := 255, record := 65536, value := [] }], ms := 2 ^ 32 - 1 },
    .rootReadRetry 0 true { flashState := 4, flashSize := 2 ^ 32 - 1, pass2 := true, migrated := [], writes := [], ms := 2 ^ 32 - 1 },
    .droopThresholdCrossing 0 4,
    .droopThresholdCrossing 0 0,
    .lockstepMismatch 0 4,
    .pairRestartComplete 0 4,
    .vbatsenseSample 0 65536] : List Instr).all (fun c => !c.wf) = true := by decide +kernel

/-- The last operands inside their ranges are taken: the Watch, supplies and the start. -/
theorem test_wf_wake_taken : ([
    .nmPduReceived 0 44 0 [],
    .nmPduReceived 0 13 0 [],
    .nmPduReceived 0 13 (2 ^ 32 - 1) [],
    .readySleepExpiry 0 60,
    .readySleepExpiry 0 13,
    .nmCycle 0 60,
    .nmCycle 0 13,
    .lastCallNotSent 0 44 true,
    .lastCallNotSent 0 13 true,
    .lastCallWindowClose 0 60 true,
    .lastCallWindowClose 0 13 true,
    .busWake 0 44,
    .busWake 0 13,
    .maxAwakeExceeded 0 60,
    .maxAwakeExceeded 0 13,
    .coreResetRelease 0 true { flashState := 3, flashSize := 2 ^ 32 - 1, pass2 := true, migrated := [], writes := [{ unit := 64, idx := 65535, sub := 255, record := 65535, value := [] }], ms := 2 ^ 32 - 1 },
    .rootReadRetry 0 true { flashState := 3, flashSize := 2 ^ 32 - 1, pass2 := true, migrated := [], writes := [], ms := 2 ^ 32 - 1 },
    .droopThresholdCrossing 0 3,
    .droopThresholdCrossing 0 1,
    .lockstepMismatch 0 3,
    .pairRestartComplete 0 3,
    .vbatsenseSample 0 65535] : List Instr).all Instr.wf = true := by decide +kernel

/-- Operands outside their ranges are refused: memory lines and the Sounding. -/
theorem test_wf_memories_refused : ([
    .correctedWriteback 0 9 0 false,
    .correctedWriteback 0 8 (memoryLines 8) false,
    .mergeEntryRetire 0 0 0 true .clean,
    .mergeEntryRetire 0 9 0 true .clean,
    .mergeEntryRetire 0 8 (memoryLines 8) true .clean,
    .patrolRead 0 8 ⟨.clean, []⟩,
    .soundingStart 0 8,
    .soundingBlockEnd 0 7 (memoryBlocks 7) { reads := [], spares := [], retest := [] },
    .soundingBlockEnd 0 8 0 { reads := [], spares := [], retest := [] },
    .saveBufferRelease 0 8,
    .startupSoundingComplete 0 [(9, 0, { reads := [], spares := [], retest := [] })],
    .startupSoundingComplete 0 [(8, memoryBlocks 8, { reads := [], spares := [], retest := [] })]] : List Instr).all (fun c => !c.wf) = true := by decide +kernel

/-- The last operands inside their ranges are taken: memory lines and the Sounding. -/
theorem test_wf_memories_taken : ([
    .correctedWriteback 0 8 (memoryLines 8 - 1) false,
    .mergeEntryRetire 0 8 (memoryLines 8 - 1) true .clean,
    .mergeEntryRetire 0 1 0 true .clean,
    .patrolRead 0 7 ⟨.clean, []⟩,
    .soundingStart 0 7,
    .soundingBlockEnd 0 7 (memoryBlocks 7 - 1) { reads := [], spares := [], retest := [] },
    .saveBufferRelease 0 7,
    .startupSoundingComplete 0 [(8, memoryBlocks 8 - 1, { reads := [], spares := [], retest := [] })]] : List Instr).all Instr.wf = true := by decide +kernel

end Sys2Proof.Tests
end

/-! SUPPORT. The positions of a signal's bits in both byte orders (R276, R277): O38 and O39. -/
namespace Sys2Proof.Machine

/-! Little-endian order. -/

@[simp] theorem length_sigPositions_little (start len : Nat) : (sigPositions 0 start len).length = len := by
  simp [sigPositions]

theorem getD_sigPositions_little {k len : Nat} (start : Nat) (hk : k < len) :
    (sigPositions 0 start len).getD k 0 = start + k := by
  simp [sigPositions, hk, Nat.add_comm]

theorem pduBit_eq_testBit (b : Bytes) (p : Nat) : pduBit b p = (byteAt b (p / 8)).testBit (p % 8) := rfl

theorem bitsAt_cons (b : Bytes) (p : Nat) (l : List Nat) :
    bitsAt b (p :: l) = 2 * bitsAt b l + (if pduBit b p then 1 else 0) := rfl

/-! Big-endian order: the bit `i` places below the most significant one lies `i` steps of `belowBe` from the start. -/

/-- The step over a byte boundary reaches bit 7 of the next higher byte. -/
theorem belowBe_of_mod_eq_zero {p : Nat} (hp : p % 8 = 0) : belowBe p = 8 * (p / 8 + 1) + 7 := by
  rw [belowBe, if_neg (not_not_intro hp)]
  omega

@[simp] theorem length_bePositions (n p : Nat) : (bePositions n p).length = n := by
  induction n generalizing p with
  | zero => rfl
  | succ n ih => simp [bePositions, ih]

theorem getD_bePositions {i n : Nat} (p : Nat) (hi : i < n) :
    (bePositions n p).getD i 0 = belowBe^[i] p := by
  induction n generalizing i p with
  | zero => exact absurd hi i.not_lt_zero
  | succ n ih =>
    cases i with
    | zero => rfl
    | succ i => exact ih (belowBe p) (Nat.lt_of_succ_lt_succ hi)

@[simp] theorem length_sigPositions_big (start len : Nat) : (sigPositions 1 start len).length = len := by
  simp [sigPositions]

theorem getD_sigPositions_big {k len : Nat} (start : Nat) (hk : k < len) :
    (sigPositions 1 start len).getD k 0 = belowBe^[len - 1 - k] start := by
  have hrev : (sigPositions 1 start len).getD k 0 = (bePositions len start).getD (len - 1 - k) 0 := by
    simpa [sigPositions] using congrFun (List.getD_reverse (l := bePositions len start) k (by simpa using hk)) 0
  rw [hrev, getD_bePositions start (by omega)]

/-- Each bit of a big-endian signal lies one step of `belowBe` from the next higher bit. -/
theorem getD_sigPositions_big_eq_belowBe {k len : Nat} (start : Nat) (hk : k + 1 < len) :
    (sigPositions 1 start len).getD k 0 = belowBe ((sigPositions 1 start len).getD (k + 1) 0) := by
  have hsteps : len - 1 - k = (len - 1 - (k + 1)) + 1 := by omega
  rw [getD_sigPositions_big start (Nat.lt_of_succ_lt hk), getD_sigPositions_big start hk, hsteps,
    Function.iterate_succ_apply']

/-- Settles O39: each bit lies one step of `belowBe` from the next higher bit, and the steps begin at start. -/
theorem bigEndianSignal : Obligations.BigEndianSignal := by
  intro start len
  refine ⟨length_sigPositions_big start len, fun hlen => ?_, fun k p hk hp => ?_⟩
  · rw [getD_sigPositions_big start (Nat.sub_one_lt_of_lt hlen), Nat.sub_self, Function.iterate_zero_apply]
  · have hbelow : (sigPositions 1 start len).getD k 0 = belowBe p :=
      hp ▸ getD_sigPositions_big_eq_belowBe start hk
    exact ⟨hbelow, fun hp8 => hbelow.trans (belowBe_of_mod_eq_zero hp8)⟩

/-- Settles O38: position `start + k` of the range, and the recursion of `bitsAt` over the positions. -/
theorem littleEndianSignal : Obligations.LittleEndianSignal := by
  intro start len
  exact ⟨length_sigPositions_little start len, fun k hk => getD_sigPositions_little start hk,
    fun b p l => ⟨pduBit_eq_testBit b p, bitsAt_cons b p l⟩⟩

end Sys2Proof.Machine

/-! SUPPORT. Reads of a message FIFO's POP window (R339, R340, R342): O10. -/
namespace Sys2Proof.Machine

section
variable (d : Dev)

/-! What settling a FIFO sends. -/

@[simp] theorem peak_outbox (i s v u r : Nat) : (d.peak i s v u r).outbox = d.outbox := by
  unfold Dev.peak
  split <;> rfl

@[simp] theorem fifoCause_outbox (f : Nat) : (d.fifoCause f).outbox = d.outbox := rfl

@[simp] theorem fifoSettle_outbox (o : Dev) (f : Nat) : (d.fifoSettle o f).outbox = d.outbox := by
  unfold Dev.fifoSettle
  simp only
  split <;> simp

/-! COUNT. -/

theorem Fifo.count_eq_zero {x : Fifo} (hpart : x.part = none) (hvis : x.visible = []) : x.count = 0 := by
  simp [Fifo.count, hpart, hvis]

theorem Fifo.count_pos_of_part {x : Fifo} {p : Packet} (hpart : x.part = some p) (hlt : p.read < p.items.length) : 0 < x.count := by
  have hleft : 0 < p.left := Nat.sub_pos_of_lt hlt
  simp only [Fifo.count, hpart, Option.map_some, Option.getD_some]
  omega

/-! One item of a packet that is partly read. -/

/-- The device after the next item of `p`, the packet partly read, has been taken: the last item ends the packet. -/
def Dev.itemTaken (f : Nat) (p : Packet) : Dev :=
  if p.items.length ≤ p.read + 1 then (d.setFifo f { d.fifo f with part := none }).inc64 0x9010 0x0C 0 f
  else d.setFifo f { d.fifo f with part := some { p with read := p.read + 1 } }

@[simp] theorem itemTaken_outbox (f : Nat) (p : Packet) : (d.itemTaken f p).outbox = d.outbox := by
  unfold Dev.itemTaken
  split <;> rfl

/-- Taking an item changes no object but the count of packets read. -/
theorem itemTaken_obj (f : Nat) (p : Packet) {i s : Nat} (u r : Nat) (hi : i < 65536) (hs : s < 256)
    (h : ¬ (i = 0x9010 ∧ s = 0x0C)) : (d.itemTaken f p).obj i s u r = d.obj i s u r := by
  unfold Dev.itemTaken
  split
  · rw [obj_inc64_field _ (by omega) (by omega) hs hi h, Dev.setFifo_obj]
  · rw [Dev.setFifo_obj]

/-- Inside a packet, where no header stands, a pop takes the packet's next item. -/
theorem popItems_succ_of_part {f : Nat} {p : Packet} (n k : Nat) (acc : List (BitVec 64)) (hpart : (d.fifo f).part = some p)
    (hread : 0 < p.read) :
    d.popItems f [] (n + 1) k acc = (d.itemTaken f p).popItems f [] n (k + 1) (p.items.getD p.read idleItem :: acc) := by
  have hheader : ¬ p.read = 0 := hread.ne'
  by_cases hdone : p.items.length ≤ p.read + 1 <;>
    simp [Dev.popItems, Dev.itemTaken, hpart, hheader, hdone]

end

/-! The command. -/

/-- FIFO_POP_READ runs as the model's function for it. -/
theorem exec_fifoPopRead (t f : Nat) (read : PopRead) (bad : List Nat) (s : State) :
    exec (.fifoPopRead t f read bad) s = execFifoPopRead t f read bad s := rfl

theorem popWhole_items {n : Nat} (hn : 0 < n) : popWhole { bytes := 8 * n } = true := by
  simp [popWhole, hn.ne']

theorem Becomes.completes {c : Instr} {s : State} {x : Dev} {p : Dev → Prop} (h : Becomes c s x) (hp : p x) : Completes c s p :=
  ⟨x, h, hp⟩

section
variable {s : State} {t f n : Nat} {d : Dev}

/-- A read of a FIFO that is absent or from the host gives idle items and is counted. -/
theorem fifoPopRead_unserved (h : s.Tick t d) (hf : f < 64) (hn : 0 < n) (hoff : ¬ d.fifoOn f ∨ ¬ d.fifoToHost f) :
    Becomes (.fifoPopRead t f { bytes := 8 * n } []) s
      ((d.inD0.inc 0x9010 0x11 0 f).out (.popped f (List.replicate n idleItem))) := by
  refine becomes h (exec_fifoPopRead ..) (decide_eq_true hf) ?_
  simp only [popWhole_items hn, inD0_fifoOn, inD0_fifoToHost, if_pos hoff]
  simp

/-- A read of a to-host FIFO whose COUNT is 0 gives idle items and is counted. -/
theorem fifoPopRead_empty (h : s.Tick t d) (hf : f < 64) (hn : 0 < n) (hon : d.fifoOn f = true) (hto : d.fifoToHost f = true)
    (hcount : (d.fifo f).count = 0) :
    Becomes (.fifoPopRead t f { bytes := 8 * n } []) s
      (((d.inD0.inc 0x9010 0x11 0 f).out (.popped f (List.replicate n idleItem))).fifoSettle d.inD0 f) := by
  refine becomes h (exec_fifoPopRead ..) (decide_eq_true hf) ?_
  simp [popWhole_items, hn, hon, hto, hcount, Dev.popItems]

/-- A read of one item inside a packet takes the packet's next item. -/
theorem fifoPopRead_part {p : Packet} (h : s.Tick t d) (hf : f < 64) (hon : d.fifoOn f = true) (hto : d.fifoToHost f = true)
    (hpart : (d.fifo f).part = some p) (hread : 0 < p.read) (hlt : p.read < p.items.length) :
    Becomes (.fifoPopRead t f { bytes := 8 } []) s
      (((d.inD0.itemTaken f p).out (.popped f [p.items.getD p.read idleItem])).fifoSettle d.inD0 f) := by
  have htake : min 1 (d.fifo f).count = 1 := Nat.min_eq_left (Fifo.count_pos_of_part hpart hlt)
  have hpop := popItems_succ_of_part d.inD0 0 0 [] (by simpa using hpart) hread
  refine becomes h (exec_fifoPopRead ..) (decide_eq_true hf) ?_
  simp [popWhole, hon, hto, htake, hpop, Dev.popItems]

/-- A read of an empty FIFO, served or not, gives idle items, is counted and takes nothing (R340, R342). -/
theorem fifoPopRead_idle (h : s.Tick t d) (hf : f < 64) (hn : 0 < n) (hpart : (d.fifo f).part = none)
    (hvis : (d.fifo f).visible = []) :
    Completes (.fifoPopRead t f { bytes := 8 * n } []) s fun x =>
      x.outbox = .popped f (List.replicate n idleItem) :: d.outbox ∧ x.obj 0x9010 0x11 0 f = (d.obj 0x9010 0x11 0 f + 1) % 2 ^ 32 ∧
      (x.fifo f).visible = [] ∧ (x.fifo f).part = none ∧ (x.fifo f).opened = (d.fifo f).opened := by
  by_cases hserved : d.fifoOn f = true ∧ d.fifoToHost f = true
  · obtain ⟨hon, hto⟩ := hserved
    refine (fifoPopRead_empty h hf hn hon hto (Fifo.count_eq_zero hpart hvis)).completes ?_
    obtain ⟨timer, hfifo⟩ := fifoSettle_fifo ((d.inD0.inc 0x9010 0x11 0 f).out (.popped f (List.replicate n idleItem))) d.inD0 f
    rw [hfifo, fifoSettle_obj _ _ _ _ (by omega) (by omega) (by omega)]
    simp [hpart, hvis]
  · exact (fifoPopRead_unserved h hf hn (not_and_or.mp hserved)).completes (by simp [hpart, hvis])

/-- A read of one item inside a packet gives the packet's next item and is not counted as an idle read (R340). -/
theorem fifoPopRead_next {p : Packet} (h : s.Tick t d) (hf : f < 64) (hon : d.fifoOn f = true) (hto : d.fifoToHost f = true)
    (hpart : (d.fifo f).part = some p) (hread : 0 < p.read) (hlt : p.read < p.items.length) :
    Completes (.fifoPopRead t f { bytes := 8 } []) s fun x =>
      x.outbox = .popped f [p.items.getD p.read idleItem] :: d.outbox ∧ x.obj 0x9010 0x11 0 f = d.obj 0x9010 0x11 0 f := by
  refine (fifoPopRead_part h hf hon hto hpart hread hlt).completes ⟨by simp, ?_⟩
  rw [fifoSettle_obj _ _ _ _ (by omega) (by omega) (by omega), Dev.out_obj,
    itemTaken_obj _ _ _ _ _ (by omega) (by omega) (by omega), inD0_obj]

end

/-- Settles O10: an empty FIFO has COUNT 0, so the read takes no item; inside a packet COUNT is not 0. -/
theorem idleItems : Obligations.IdleItems :=
  ⟨rfl, fun _ _ _ _ _ h hf hn =>
    ⟨fifoPopRead_idle h hf hn, fun _ hon hto hpart hread hlt => fifoPopRead_next h hf hon hto hpart hread hlt⟩⟩

end Sys2Proof.Machine

/-! SUPPORT. The frame of every command and the run of a queue (R28, log entries 2, 3, 6, 16): O1 to O5. -/
namespace Sys2Proof.Machine

/-! What a command can do. -/

/-- An outcome of a command on `s`: when the operands are in order, a next state that differs in the device alone, its events delivered; else the fault. -/
def Framed (s : State) (ok : Bool) (o : Host.Outcome State Fault Refusal) : Prop :=
  if ok then ∃ x : Dev, o = .next { s with dev := s.close x } else o = .fault .illFormed

theorem framed_cmd (s : State) (t : Nat) (ok : Bool) (f : Dev → Dev) : Framed s ok (s.cmd t ok f) := by
  unfold Framed State.cmd
  split
  · exact ⟨_, rfl⟩
  · rfl

theorem framed_aon (s : State) (t : Nat) (ok : Bool) (f : Dev → Dev) : Framed s ok (s.aon t ok f) := by
  unfold Framed State.aon
  split
  · exact ⟨_, rfl⟩
  · rfl

theorem framed_timer (s : State) (t : Nat) (ok : Bool) (aw : Dev → Instr → Bool) (f : Dev → Dev) (n : Nat) :
    Framed s ok (s.timer t ok aw f n) := framed_cmd ..

theorem framed_aonTimer (s : State) (t : Nat) (ok : Bool) (aw : Dev → Instr → Bool) (f : Dev → Dev) (n : Nat) :
    Framed s ok (s.aonTimer t ok aw f n) := framed_aon ..

theorem framed_portCmd (s : State) (t : Nat) (l : List Nat) (ok : Bool) (f : Dev → Dev) :
    Framed s ok (s.portCmd t l ok f) := framed_cmd ..

theorem framed_write (s : State) (t : Nat) (k : WriteKind) :
    Framed s true (s.write t k) := framed_cmd ..

/-- A device whose CORE domain is off and that holds no event of the cycle is left as it is by the end of a command. -/
theorem close_coreOff (s : State) {d : Dev} (hoff : d.coreOn = false) (hbus : d.ev.bus = []) (harr : d.ev.arrivals = []) :
    s.close d = d := by
  obtain ⟨_, _, _, _, _, ⟨_, _, _, _, _, _, _⟩, _⟩ := d
  simp only at hbus harr
  subst hbus harr
  simp [State.close, hoff, Dev.evUpd]

theorem framed_coreOff (s : State) {d : Dev} (hoff : d.coreOn = false) (hbus : d.ev.bus = []) (harr : d.ev.arrivals = []) :
    Framed s true (.next { s with dev := d }) :=
  ⟨d, by rw [close_coreOff s hoff hbus harr]⟩

theorem foldl_linesOut_coreOn (l : List Nat) (d : Dev) : (l.foldl Dev.linesOut d).coreOn = d.coreOn := by
  induction l generalizing d with
  | nil => rfl
  | cons u l ih => exact ih (d.linesOut u)

theorem foldl_linesOut_ev (l : List Nat) (d : Dev) : (l.foldl Dev.linesOut d).ev = d.ev := by
  induction l generalizing d with
  | nil => rfl
  | cons u l ih => exact ih (d.linesOut u)

/-- The line of WAKE_OUT moves nothing but its own bits of the Watch and its output. -/
theorem wakeOutBit_coreOn (d : Dev) (k : Nat) (v : Bool) : (d.wakeOutBit k v).coreOn = d.coreOn := by
  unfold Dev.wakeOutBit
  simp only
  split <;> rfl

theorem wakeOutBit_ev (d : Dev) (k : Nat) (v : Bool) : (d.wakeOutBit k v).ev = d.ev := by
  unfold Dev.wakeOutBit
  simp only
  split <;> rfl

theorem framed_vaonPowerOn (t : Nat) (s : State) : Framed s true (execVaonPowerOn t s) := by
  unfold execVaonPowerOn
  refine framed_coreOff s ?_ ?_ ?_
  · rw [foldl_linesOut_coreOn, wakeOutBit_coreOn]
    rfl
  · rw [foldl_linesOut_ev, wakeOutBit_ev]
    rfl
  · rw [foldl_linesOut_ev, wakeOutBit_ev]
    rfl

theorem framed_vaonRemoval (t : Nat) (s : State) : Framed s true (execVaonRemoval t s) :=
  framed_coreOff s rfl rfl rfl


/-- Every command runs in one of the model's frames, and the frame checks the operands which `Instr.wf` names. -/
theorem exec_framed (c : Instr) (s : State) : Framed s c.wf (exec c s) := by
  cases c <;> unfold exec Instr.wf
  case vaonPowerOn t => exact framed_vaonPowerOn t s
  case vaonRemoval t => exact framed_vaonRemoval t s
  case linWakeSignalReceived | wakeInputWake | wakeInputTestStart | busWake | runReqRise | runReqFall | mainPgRise | brownout |
    referenceValid | corePllsLocked | referenceLoss | resetNAssert | coreResetRelease | wakeInputRelease | vbatsenseSample =>
    exact framed_aon ..
  case transceiverScriptComplete | wakeInputTestEnd | wakeInputStuck =>
    exact framed_aonTimer ..
  case electionWindowClose | leaseExpiry | fifoCoalescingExpiry | syncReceiptTimeout | announceReceiptTimeout |
    phaseStopTimeout | holdDownExpiry | verifyMpacketTimer | thresholdDecay | beaconTimeout | linFrameTimeLimit |
    helloTimeout | timeMessageLoss | bridgeReadTimeout | readySleepExpiry | lastCallNotSent | lastCallWindowClose |
    acknowledgeTimeExpiry | trialMinute =>
    exact framed_timer ..
  case ethFrameFirstCell | ethFrameEnd | fabricMatch | mirrorRecord | frameTransmitEnd | learnEngineInsert | ageingScan |
    stashDrain | rosePduJob | roseUnpackJob | roseEmissionJob | mergeEntryRetire | replayFrameSend =>
    exact framed_portCmd ..
  case domainEnable | snapshot | legEnable | swapRequest | phaseEnable | portEnable | peakReset | thresholdReset |
    cableTestStart | chartFlushByPort | chartFlushByFid | unlockAll | staticEntryEnable | seedWrite | ruleEnable |
    learningEnable | portNodeEnable | policerMode | histogramClear | canEnable | canStop | timeMasterEnable | linStop |
    linTableRequest | transceiverScriptRequest | definitionEnable | signalEnable | routeEnable | containerEnable |
    memberAdmit | bridgeLogClear | hostNeed | managementSwitch | clearIgnoreList | stateCommandWatch | stateCommandStandby |
    stateCommandPartial | stateCommandRun | importBlobSet | importBlobErase | importBlobSetInClear | discardStaging |
    keyStoreCommit | attestationChallenge | identitySignRequest | slotDerive | macsecSaEnable | activeAnWrite | macsecEnable
    | transferStartFirmware | transferStartAlmanac | blockQuarterWrite | blockCheckValue | transferActivate |
    transferAbandon | confirmWrite | clearCorrectionTable | softwareScrubStart | testWindowOpen | rawWrite | rawRead |
    decodeRead | replayStart =>
    exact framed_write ..
  all_goals exact framed_cmd ..

/-- A command with operands in order completes. -/
theorem completes_of_wf {c : Instr} (s : State) (h : c.wf = true) : Completes c s fun _ => True := by
  have hf := exec_framed c s
  rw [Framed, if_pos h] at hf
  obtain ⟨x, hx⟩ := hf
  exact ⟨x, hx, trivial⟩

theorem exec_of_not_wf {c : Instr} (s : State) (h : c.wf = false) : exec c s = .fault .illFormed := by
  have hf := exec_framed c s
  rwa [Framed, if_neg (by simp [h])] at hf

/-- A next state is that of a command with operands in order, and differs in the device alone. -/
theorem exec_next {c : Instr} {s x : State} (h : exec c s = .next x) : c.wf = true ∧ ∃ d : Dev, x = { s with dev := s.close d } := by
  cases hwf : c.wf with
  | false => rw [exec_of_not_wf s hwf] at h; exact absurd h (by simp)
  | true =>
    obtain ⟨d, hd, -⟩ := completes_of_wf s hwf
    rw [hd] at h
    exact ⟨rfl, d, by injection h with h; exact h.symm⟩

/-- Settles O2: the frame of every command answers next or faults, by its operands alone. -/
theorem everyCommandCompletes : Obligations.EveryCommandCompletes := by
  intro s c
  refine ⟨completes_of_wf s, exec_of_not_wf s, fun r => ?_, fun x hx => ?_⟩
  · cases hwf : c.wf with
    | false => simp [exec_of_not_wf s hwf]
    | true =>
      obtain ⟨d, hd, -⟩ := completes_of_wf s hwf
      simp [hd]
  · obtain ⟨hwf, d, rfl⟩ := exec_next hx
    exact ⟨rfl, hwf⟩

/-! The events of a cycle. -/

/-- What the end of a command leaves has its events delivered, unless a waiting command is of their cycle. -/
theorem delivered_close (s : State) (d : Dev) : State.Delivered { s with dev := s.close d } := by
  unfold State.Delivered State.close
  simp only
  split
  · exact .inl ⟨rfl, rfl⟩
  · split
    · next hf => exact .inr hf
    · exact .inl ⟨settle_bus d, settle_arrivals d⟩

/-- Settles O3: the device after reset holds no event. -/
theorem resetDelivered : Obligations.ResetDelivered := ⟨.inl ⟨rfl, rfl⟩, rfl, rfl, rfl⟩

/-- Settles O4: an idle step changes nothing, and every command ends with `State.close`. -/
theorem deliveredIsKept : Obligations.DeliveredIsKept := by
  intro s x hs hx
  unfold step at hx
  split at hx
  · injection hx with hx
    exact hx ▸ hs
  · obtain ⟨-, d, rfl⟩ := exec_next hx
    exact delivered_close _ d

/-! The run of a queue. -/

/-- Settles O1: the two equations of `step`. -/
theorem stepRunsTheFront : Obligations.StepRunsTheFront := fun _ _ _ => ⟨rfl, rfl⟩

/-- A queue of commands with operands in order runs out in as many steps as it has commands. -/
theorem runs_pending (l : List Instr) (d : Dev) (h : l.all Instr.wf = true) :
    ∃ e : State, Runs l.length { pending := l, dev := d } e ∧ e.pending = [] := by
  induction l generalizing d with
  | nil => exact ⟨_, rfl, rfl⟩
  | cons c l ih =>
    obtain ⟨hc, hl⟩ : c.wf = true ∧ l.all Instr.wf = true := by simpa using h
    obtain ⟨x, hx, -⟩ := completes_of_wf { pending := l, dev := d } hc
    obtain ⟨e, hrun, hend⟩ := ih _ hl
    exact ⟨e, ⟨_, hx, hrun⟩, hend⟩

/-- Settles O5: the induction on the waiting commands of `runs_pending`. -/
theorem queueRunsOut : Obligations.QueueRunsOut := fun s h => runs_pending s.pending s.dev h

end Sys2Proof.Machine

/-! SUPPORT. Requests that arrive at the server, and the HS commands (R48 to R52, R333, R335, R356): O6. -/
namespace Sys2Proof.Machine

@[simp] theorem inD0_stackId (d : Dev) : d.inD0.stackId = d.stackId := by unfold Dev.inD0; split <;> rfl
@[simp] theorem inD0_isLead (d : Dev) : d.inD0.isLead = d.isLead := by simp [Dev.isLead]
@[simp] theorem inD0_pcieUp (d : Dev) : d.inD0.pcieUp = d.pcieUp := by simp [Dev.pcieUp]

/-! Places in the queue. -/

theorem enqueue_of_not_old (d : Dev) {q : Request} (h : q.old = false) : d.enqueue q = d.alm.queue ++ [q] := by
  simp [Dev.enqueue, h]

/-- With none in service and none of an old lead waiting, a request of the old lead's queue stands first. -/
theorem enqueue_of_old (d : Dev) {q : Request} (h : q.old = true) (hw : d.alm.waiting = false) (hq : ∀ x ∈ d.alm.queue, x.old = false) :
    d.enqueue q = q :: d.alm.queue := by
  have hold : d.alm.queue.filter (·.old) = [] := List.filter_eq_nil_iff.mpr fun x hx => by simp [hq x hx]
  have hnew : d.alm.queue.filter (fun x => !x.old) = d.alm.queue := List.filter_eq_self.mpr fun x hx => by simp [hq x hx]
  simp [Dev.enqueue, h, hw, hold, hnew]

/-! Requests that arrive. -/

/-- The request that a record becomes when it arrives; `origin` is the member that has forwarded it. -/
def Dev.asRequest (d : Dev) (svc : Service) (src : Source) (b : Bytes) (origin : Option Forwarded) : Request :=
  { svc := svc, src := src, arrived := d.now, bytes := b,
    origin := (origin.map (·.member)).filter (fun m => m != d.stackId),
    old := (origin.map (·.old)).getD false,
    xl := (origin.map (·.xl)).getD (d.obj 0x6010 0x02 (uC (d.obj 0x1040 0x04)) == 2) }

/-- At the lead a request joins a queue that has room. -/
theorem arrive_lead {d : Dev} (svc : Service) (src : Source) (b : Bytes) (origin : Option Forwarded) (hl : d.isLead = true)
    (hq : d.alm.queue.length < 64) :
    d.arrive svc src b origin = d.almUpd fun x => { x with queue := d.enqueue (d.asRequest svc src b origin) } := by
  simp [Dev.arrive, hl, Nat.not_le.mpr hq, Dev.asRequest]

/-- A request of this member itself joins at the end of the queue. -/
theorem arrive_own {d : Dev} (svc : Service) (src : Source) (b : Bytes) (hl : d.isLead = true) (hq : d.alm.queue.length < 64) :
    d.arrive svc src b = d.almUpd fun x => { x with queue := x.queue ++ [d.asRequest svc src b none] } := by
  rw [arrive_lead svc src b none hl hq, enqueue_of_not_old d rfl]
  rfl

section
variable {s : State} {t : Nat} {d : Dev}

theorem almDoorbell_becomes (h : s.Tick t d) (hl : d.isLead = true) (hq : d.alm.queue.length < 64) {len : Nat} {req : Bytes}
    (h20 : 20 ≤ len) (h1044 : len ≤ 1044) (hreq : len ≤ req.length)
    (h2048 : req.length ≤ 2048) (hup : d.obj 0x9000 0x01 = 2)
    (hbusy : d.alm.busyAt ≠ some d.now) :
    Becomes (.almDoorbell t len req) s (d.inD0.almUpd fun x => { x with busyAt := some d.now, queue := x.queue ++
      [d.asRequest .pcie (.host d.stackId) (req.take len) none] }) := by
  refine becomes h (by unfold exec; rfl) ?_ ?_
  · simp; omega
  · have hlen : ¬ (len < 20 ∨ 1044 < len) := by omega
    have hpcie : d.pcieUp = true := by simp [Dev.pcieUp, hup]
    simp only [hpcie, not_true, if_false, hbusy, hlen]
    rw [arrive_own _ _ _ (by simpa [Dev.isLead] using hl) (by simpa using hq)]
    simp [Dev.almUpd, Dev.asRequest, Dev.obj]

theorem hsRequest_becomes (h : s.Tick t d) (hl : d.isLead = true) (hq : d.alm.queue.length < 64) (req : Bytes)
    (hon : d.flag 0x1040 0x06 = true) :
    Becomes (.hsRequest t req) s (d.almUpd fun x => { x with queue := x.queue ++ [d.asRequest .hs (.host d.stackId) req none] }) :=
  becomes h (by unfold exec; rfl) rfl (by simp only [hon, if_true, arrive_own _ _ _ hl hq])

theorem udpRequest_becomes (h : s.Tick t d) (hl : d.isLead = true) (hq : d.alm.queue.length < 64) {src : UdpEnd} (req : Bytes)
    (hon : d.flag 0x1040 0x01 = true) (hport : src.dport = d.obj 0x1040 0x02) (hvid : src.vid = d.obj 0x1040 0x03) :
    Becomes (.udpRequest t src req) s
      (d.almUpd fun x => { x with queue := x.queue ++ [d.asRequest .udp (.udp src.addr src.port) req none] }) :=
  becomes h (by unfold exec; rfl) rfl (by simp only [hon, hport, hvid, and_self, if_true, arrive_own _ _ _ hl hq])

theorem canServiceRequest_becomes (h : s.Tick t d) (hl : d.isLead = true) (hq : d.alm.queue.length < 64) {ch ident : Nat} (req : Bytes)
    (hch : ch < 24) (hchan : d.obj 0x1040 0x04 = ch) (hid : d.obj 0x1040 0x05 = ident)
    (hon : d.obj 0x6010 0x04 (uC ch) ≠ 0)
    (hoff : d.obj 0x6010 0x04 (uC ch) ≠ 5) :
    Becomes (.canServiceRequest t ch ident req) s
      (d.almUpd fun x => { x with queue := x.queue ++ [d.asRequest .can (.can ch ident) req none] }) :=
  becomes h (by unfold exec; rfl) (decide_eq_true hch) (by simp only [hchan, hid, ne_eq, hon, hoff, not_false_eq_true, and_self, if_true, arrive_own _ _ _ hl hq])

/-- A forwarded request keeps the member that it came to as its origin, unless that is this member. -/
theorem asRequest_forwarded (d : Dev) (svc : Service) (src : Source) (b : Bytes) (origin : Forwarded) :
    d.asRequest svc src b (some origin) =
      { svc := svc, src := src, arrived := d.now, bytes := b,
        origin := if origin.member = d.stackId then none else some origin.member, xl := origin.xl, old := origin.old } := by
  by_cases hm : origin.member = d.stackId <;> simp [Dev.asRequest, hm, Option.filter]

theorem stackForwardedRequest_becomes (h : s.Tick t d) (hl : d.isLead = true) (hq : d.alm.queue.length < 64) (origin : Forwarded)
    (svc : Service) (src : Source) (req : Bytes) (hm : origin.member < 4) :
    Becomes (.stackForwardedRequest t origin svc src req) s
      (d.almUpd fun x => { x with queue := d.enqueue (d.asRequest svc src req (some origin)) }) :=
  becomes h (by unfold exec; rfl) (decide_eq_true hm) (arrive_lead _ _ _ _ hl hq)

/-! The HS commands. -/

theorem hsReplyFetch_becomes (h : s.Tick t d) {r : Bytes} {l : List Bytes} (hr : d.alm.hsReplies = r :: l) :
    Becomes (.hsReplyFetch t) s ((d.almUpd fun x => { x with hsReplies := l }).out (.hs (0x01 :: r))) :=
  becomes h (by unfold exec; rfl) rfl (by simp only [hr])

theorem hsReplyFetch_none (h : s.Tick t d) (hr : d.alm.hsReplies = []) : Becomes (.hsReplyFetch t) s (d.out (.hs [0x00])) :=
  becomes h (by unfold exec; rfl) rfl (by simp only [hr])

theorem hsEventCauseRead_becomes (h : s.Tick t d) : Becomes (.hsEventCauseRead t) s (d.out (.hs (beBytes 8 d.ev.cause.toNat))) :=
  becomes h (by unfold exec; rfl) rfl rfl

theorem hsMaskRead_becomes (h : s.Tick t d) : Becomes (.hsMaskRead t) s (d.out (.hs (beBytes 8 d.ev.hsMask.toNat))) :=
  becomes h (by unfold exec; rfl) rfl rfl

theorem hsMaskWrite_becomes (h : s.Tick t d) (m : BitVec 64) : Becomes (.hsMaskWrite t m) s (d.evUpd fun x => { x with hsMask := m }) :=
  becomes h (by unfold exec; rfl) rfl rfl

theorem hsUnknownCommand_becomes (h : s.Tick t d) {c : HsUnknown} (hc : c.cmd.toNat ∉ [0x5A, 0xA5, 0x3C, 0xC3, 0x69, 0x96]) :
    Becomes (.hsUnknownCommand t c) s ((d.inc 0x9002 0x02).out (.hs (List.replicate c.rest 0xFF))) :=
  becomes h (by unfold exec; rfl) (by simpa using hc) rfl

end

/-- Settles O6: each input's request joins by `arrive_lead`; the HS commands read off the registers. -/
theorem serverInputs : Obligations.ServerInputs := by
  refine ⟨fun s t d h hl hq => ⟨?_, ?_, ?_, ?_, ?_⟩, fun s t d h => ⟨?_, ?_, ?_, ?_, ?_, ?_⟩⟩
  · exact fun len req h20 h1044 hreq h2048 hup hbusy => almDoorbell_becomes h hl hq h20 h1044 hreq h2048 hup hbusy
  · exact fun req hon => hsRequest_becomes h hl hq req hon
  · exact fun src req hon hport hvid => udpRequest_becomes h hl hq req hon hport hvid
  · exact fun ch ident req hch hchan hid hon hoff => canServiceRequest_becomes h hl hq req hch hchan hid hon hoff
  · intro origin svc src req hm
    refine ⟨?_, fun hold => enqueue_of_not_old d hold, fun hold hw hx => enqueue_of_old d hold hw hx⟩
    simpa only [asRequest_forwarded] using stackForwardedRequest_becomes h hl hq origin svc src req hm
  · exact fun r l hr => hsReplyFetch_becomes h hr
  · exact fun hr => hsReplyFetch_none h hr
  · exact hsEventCauseRead_becomes h
  · exact hsMaskRead_becomes h
  · exact fun m => hsMaskWrite_becomes h m
  · exact fun c hc => hsUnknownCommand_becomes h hc

end Sys2Proof.Machine

/-! SUPPORT. Replies that leave, the settings that a forwarded write waits for, and the causes of vectors (R52, R53, R65, R334, R336): O7. -/
namespace Sys2Proof.Machine

section
variable {s : State} {t : Nat} {d : Dev}

/-! Records for the host over PCIe. -/

theorem replyPcie_free {d : Dev} (r : Bytes) (n : Bool) (h : d.alm.reply = none) :
    d.replyPcie r n = if n then ((d.almUpd fun x => { x with reply := some r }).signal 0).signal 1
      else (d.almUpd fun x => { x with reply := some r }).signal 0 := by
  simp [Dev.replyPcie, h]

theorem replyPcie_waits {d : Dev} {a : Bytes} (r : Bytes) (n : Bool) (h : d.alm.reply = some a) :
    d.replyPcie r n = d.almUpd fun x => { x with replyQueue := x.replyQueue ++ [(r, n)] } := by
  simp [Dev.replyPcie, h]

theorem almAck_last (h : s.Tick t d) (hup : d.obj 0x9000 0x01 = 2) (hq : d.alm.replyQueue = []) :
    Becomes (.almAck t) s (d.inD0.almUpd fun x => { x with reply := none }) := by
  refine becomes h (by unfold exec; rfl) rfl ?_
  have hpcie : d.pcieUp = true := by simp [Dev.pcieUp, hup]
  simp only [hpcie, hq, not_true, if_false]

/-- The next record takes its place in ALM_REPLY. -/
theorem almAck_next (h : s.Tick t d) {r : Bytes} {n : Bool} {l : List (Bytes × Bool)} (hup : d.obj 0x9000 0x01 = 2)
    (hq : d.alm.replyQueue = (r, n) :: l) :
    Becomes (.almAck t) s (if n then ((d.inD0.almUpd fun x => { x with reply := some r, replyQueue := l }).signal 0).signal 1
      else (d.inD0.almUpd fun x => { x with reply := some r, replyQueue := l }).signal 0) := by
  refine becomes h (by unfold exec; rfl) rfl ?_
  have hpcie : d.pcieUp = true := by simp [Dev.pcieUp, hup]
  simp only [hpcie, hq, not_true, if_false]
  exact replyPcie_free r n rfl

/-! Forwarded replies. -/

theorem forwardedReply_becomes (h : s.Tick t d) (v : Service) (a : Source) (r : Bytes) {x : Dev}
    (hx : d.sendRecord none v a (recOp r == 7) r = x) : Becomes (.forwardedReplyReceived t v a r) s (x.settingDue r) :=
  becomes h (by unfold exec; rfl) rfl (by rw [hx])

/-- A reply that answers no write of a setting brings none into effect. -/
theorem settingDue_of_none {d : Dev} {r : Bytes} (h : ∀ x ∈ d.alm.settings, answersSetting r x = false) : d.settingDue r = d := by
  have hf : d.alm.settings.find? (answersSetting r) = none := List.find?_eq_none.mpr fun x hx => by simp [h x hx]
  simp [Dev.settingDue, hf]

/-- A reply that answers the write of a setting brings it into effect when it was committed. -/
theorem settingDue_head {d : Dev} {r b : Bytes} {c : Bool} {l : List (Bytes × Bool)} {o : ObjRow} (hs : d.alm.settings = (b, c) :: l)
    (ha : answersSetting r (b, c) = true) (ho : findRow (recIndex b) (recSub b) = some o) :
    d.settingDue r = if c then (d.almUpd fun a => { a with settings := l }).applyUnits o b else d.almUpd fun a => { a with settings := l } := by
  simp [Dev.settingDue, hs, ha, ho, Dev.almUpd]

end

/-! Causes. -/

section
variable (d : Dev) (v : Nat)

@[simp] theorem msix_cause : (d.msix v).ev.cause = d.ev.cause := by
  unfold Dev.msix
  split <;> rfl

theorem raise_cause : (d.raise v).ev.cause = d.ev.cause ||| BitVec.ofNat 64 (2 ^ v) := by
  unfold Dev.raise
  simp only
  split <;> simp

/-- A cause that is set already merges the arrival. -/
theorem raise_of_set {d : Dev} {v : Nat} (h : d.ev.cause.getLsbD v = true) :
    d.raise v = d.evUpd fun x => { x with cause := d.ev.cause ||| BitVec.ofNat 64 (2 ^ v) } := by
  simp only [Dev.raise, h, if_true]

/-- A cause that was clear brings a message. -/
theorem raise_of_clear {d : Dev} {v : Nat} (h : d.ev.cause.getLsbD v = false) :
    d.raise v = (d.evUpd fun x => { x with cause := d.ev.cause ||| BitVec.ofNat 64 (2 ^ v) }).msix v := by
  simp only [Dev.raise, h, Bool.false_eq_true, if_false]

theorem msix_masked {d : Dev} {v : Nat} (h : d.ev.msixMask.getLsbD v = true) :
    d.msix v = d.evUpd fun x => { x with pba := d.ev.pba ||| BitVec.ofNat 64 (2 ^ v) } := by
  simp [Dev.msix, h]

theorem msix_unmasked {d : Dev} {v : Nat} (h : d.ev.msixMask.getLsbD v = false) :
    d.msix v = ((d.out (.msix v (tget (fun _ => (0, 0)) d.ev.targets v).1 (tget (fun _ => (0, 0)) d.ev.targets v).2)).inc 0x9001 0x01 0 v).inc64 0x9000 0x0A := by
  simp [Dev.msix, h]

end

/-- Settles O7: the replies by `sendRecord` on each service, the causes by the cases of `Dev.raise` and `Dev.msix`. -/
theorem repliesCausesAndMessages : Obligations.RepliesCausesAndMessages := by
  refine ⟨fun s t d h => ⟨?_, ?_, ?_, ?_, ?_, ?_, ?_, ?_, ?_, ?_, ?_⟩, fun d v _ => ⟨raise_cause d v, raise_of_set, fun hc hm => ?_, fun hc hm => ?_⟩⟩
  · exact fun hup hq => almAck_last h hup hq
  · exact fun r l hup hq => almAck_next h hup hq
  · exact fun r l hup hq => almAck_next h hup hq
  · intro a r hr
    exact forwardedReply_becomes h .hs a r (by simp [Dev.sendRecord, hr])
  · intro a r hr
    exact forwardedReply_becomes h .hs a r (by simp [Dev.sendRecord, hr])
  · exact fun a p r => forwardedReply_becomes h .udp (.udp a p) r rfl
  · exact fun a r => forwardedReply_becomes h .can a r rfl
  · intro a r hr hfree
    exact forwardedReply_becomes h .pcie a r (by simp [Dev.sendRecord, hr, replyPcie_free r _ hfree])
  · intro a r b hb
    exact forwardedReply_becomes h .pcie a r (replyPcie_waits r _ hb)
  · exact fun r hn => settingDue_of_none hn
  · exact fun r b c l o hs ha ho => settingDue_head hs ha ho
  · rw [raise_of_clear hc, msix_masked (by simpa using hm)]
    exact ⟨rfl, rfl⟩
  · rw [raise_of_clear hc, msix_unmasked (by simpa using hm)]
    refine ⟨rfl, rfl, ?_⟩
    simp (disch := omega) [Dev.inc64, Dev.inc, obj_set_field]

end Sys2Proof.Machine

/-! SUPPORT. The event registers, the BARs, and the resets of the endpoint (R28, R331, R332, R335, R336, R345): O8. -/
namespace Sys2Proof.Machine

/-! Sparse masks. -/

theorem getLsbD_ofNat_two_pow {v k : Nat} (hk : k < 64) : (BitVec.ofNat 64 (2 ^ v)).getLsbD k = decide (v = k) := by
  rw [BitVec.getLsbD_ofNat, Nat.testBit_two_pow, decide_eq_true hk, Bool.true_and]

theorem ofNat_two_pow_lt {v : Nat} (hv : v < 22) : (BitVec.ofNat 64 (2 ^ v)).toNat < 2 ^ 22 := by
  have h : 2 ^ v < 2 ^ 22 := Nat.pow_lt_pow_right (by omega) hv
  rw [BitVec.toNat_ofNat, Nat.mod_eq_of_lt (by omega)]
  exact h

/-- Of the numbers below `n` the filter for one of them keeps that one. -/
theorem filter_range_eq {v n : Nat} (hv : v < n) : (List.range n).filter (fun k => decide (v = k)) = [v] := by
  have hcongr : (List.range n).filter (fun k => decide (v = k)) = (List.range n).filter (· == v) :=
    List.filter_congr fun k _ => by rw [beq_eq_decide, decide_eq_decide, eq_comm]
  rw [hcongr, List.filter_beq, List.count_eq_one_of_mem List.nodup_range (List.mem_range.mpr hv)]
  rfl

/-! Clears of EVENT_CAUSE. -/

@[simp] theorem wakeOutBit_cause_ev (d : Dev) (k : Nat) (v : Bool) : (d.wakeOutBit k v).ev = d.ev := wakeOutBit_ev d k v

@[simp] theorem wakeOutCleared_ev (d : Dev) (m : BitVec 64) : (d.wakeOutCleared m).ev = d.ev := by
  unfold Dev.wakeOutCleared
  simp only
  split <;> split <;> simp

/-- WAKE_OUT follows causes 2 and 3 alone. -/
theorem wakeOutCleared_other (d : Dev) {m : BitVec 64} (h2 : m.getLsbD 2 = false) (h3 : m.getLsbD 3 = false) : d.wakeOutCleared m = d := by
  simp only [Dev.wakeOutCleared, h2, h3, Bool.false_eq_true, if_false]

theorem clearCause_ev (d : Dev) (m : BitVec 64) : (d.clearCause m).ev = { d.ev with cause := d.ev.cause &&& ~~~m } := by
  simp [Dev.clearCause, Dev.evUpd]

theorem clearCause_other (d : Dev) {m : BitVec 64} (h2 : m.getLsbD 2 = false) (h3 : m.getLsbD 3 = false) :
    d.clearCause m = d.evUpd fun x => { x with cause := d.ev.cause &&& ~~~m } :=
  wakeOutCleared_other _ (by rw [BitVec.getLsbD_and, h2, Bool.false_and]) (by rw [BitVec.getLsbD_and, h3, Bool.false_and])

@[simp] theorem inD0_cause (d : Dev) : d.inD0.ev.cause = d.ev.cause := by unfold Dev.inD0; split <;> rfl
@[simp] theorem inD0_arrivals (d : Dev) : d.inD0.ev.arrivals = d.ev.arrivals := by unfold Dev.inD0; split <;> rfl
@[simp] theorem inD0_targets (d : Dev) : d.inD0.ev.targets = d.ev.targets := by unfold Dev.inD0; split <;> rfl
@[simp] theorem inD0_msixMask (d : Dev) : d.inD0.ev.msixMask = d.ev.msixMask := by unfold Dev.inD0; split <;> rfl
@[simp] theorem inD0_pba (d : Dev) : d.inD0.ev.pba = d.ev.pba := by unfold Dev.inD0; split <;> rfl

/-- The device after the vectors of `l` whose bits are set have arrived. -/
def Dev.arrivals (d : Dev) (m : BitVec 64) (l : List Nat) : Dev := l.foldl (fun d v => if m.getLsbD v then d.signal v else d) d

theorem arrivals_none (d : Dev) (l : List Nat) : d.arrivals 0 l = d := by
  induction l with
  | nil => rfl
  | cons v l ih => simp [Dev.arrivals]

/-- The arrivals of a cycle are those whose bits are set; nothing else changes. -/
theorem arrivals_ev (d : Dev) (m : BitVec 64) (l : List Nat) :
    (d.arrivals m l).ev = { d.ev with arrivals := d.ev.arrivals ++ l.filter (fun v => m.getLsbD v) } := by
  induction l generalizing d with
  | nil => simp [Dev.arrivals]
  | cons v l ih =>
    by_cases hv : m.getLsbD v = true
    · rw [show d.arrivals m (v :: l) = (d.signal v).arrivals m l by simp [Dev.arrivals, hv], ih]
      simp [Dev.signal, Dev.evUpd, hv]
    · rw [show d.arrivals m (v :: l) = d.arrivals m l by simp [Dev.arrivals, hv], ih]
      simp [hv]

section
variable {s : State} {t : Nat} {d : Dev}

theorem pcieUp_of (h : d.obj 0x9000 0x01 = 2) : d.pcieUp = true := by simp [Dev.pcieUp, h]

theorem pcieUp_of_ne (h : d.obj 0x9000 0x01 ≠ 2) : d.pcieUp = false := by simp [Dev.pcieUp, h]

theorem eventBusEvent_becomes (h : s.Tick t d) {e : ExtEvent} (h1 : e.source < 256) (h2 : e.code < 65536) (h3 : e.path.length = 4)
    (h4 : e.data.length ≤ 12) (h5 : ∀ v, e.vector = some v → v < 22) :
    Becomes (.eventBusEvent t e) s (d.onBus { lt := d.lt, source := e.source, vector := e.vector, code := .code e.code, path := e.path, data := e.data }) := by
  refine becomes h (by unfold exec; rfl) ?_ rfl
  cases hv : e.vector with
  | none => simp [h1, h2, h3, h4]
  | some v => simp [h1, h2, h3, h4, h5 v hv]

theorem eventCauseClear_exec (t : Nat) (m a : BitVec 64) (s : State) :
    exec (.eventCauseClear t m a) s = s.cmd t (decide (a.toNat < 2 ^ 22)) fun d =>
      if ¬ d.pcieUp then d else (d.inD0.arrivals a (List.range 22)).clearCause m := by
  unfold exec
  rfl

theorem msixUnmask_masked (h : s.Tick t d) {v : Nat} (a w : Nat) (hv : v < 64) (hup : d.obj 0x9000 0x01 = 2) :
    Becomes (.msixUnmask t { vector := v, masked := true, address := a, data := w }) s (d.inD0.evUpd fun x =>
      { x with targets := tput (fun _ => (0, 0)) d.ev.targets v (a, w), msixMask := d.ev.msixMask ||| BitVec.ofNat 64 (2 ^ v) }) := by
  refine becomes h (by unfold exec; rfl) (decide_eq_true hv) ?_
  simp [pcieUp_of hup, Dev.evUpd]

/-- The device whose vector `v` has a new entry and is unmasked. -/
def Dev.unmasked (d : Dev) (v a w : Nat) : Dev :=
  d.evUpd fun x => { x with targets := tput (fun _ => (0, 0)) d.ev.targets v (a, w), msixMask := d.ev.msixMask &&& ~~~ BitVec.ofNat 64 (2 ^ v),
                            pba := d.ev.pba &&& ~~~ BitVec.ofNat 64 (2 ^ v) }

theorem msixUnmask_unmasked (h : s.Tick t d) {v : Nat} (a w : Nat) (hv : v < 64) (hup : d.obj 0x9000 0x01 = 2) :
    Becomes (.msixUnmask t { vector := v, masked := false, address := a, data := w }) s
      (if d.ev.pba.getLsbD v then (d.inD0.unmasked v a w).msix v else d.inD0.unmasked v a w) := by
  refine becomes h (by unfold exec; rfl) (decide_eq_true hv) ?_
  simp [pcieUp_of hup, Dev.evUpd, Dev.unmasked]

theorem unmasked_msixMask (d : Dev) {v : Nat} (a w : Nat) (hv : v < 64) : (d.unmasked v a w).ev.msixMask.getLsbD v = false := by
  simp only [Dev.unmasked, Dev.evUpd, BitVec.getLsbD_and, BitVec.getLsbD_not, getLsbD_ofNat_two_pow hv, decide_true, Bool.not_true, Bool.and_false]

theorem unmasked_pba (d : Dev) {v : Nat} (a w : Nat) (hv : v < 64) : (d.unmasked v a w).ev.pba.getLsbD v = false := by
  simp only [Dev.unmasked, Dev.evUpd, BitVec.getLsbD_and, BitVec.getLsbD_not, getLsbD_ofNat_two_pow hv, decide_true, Bool.not_true, Bool.and_false]

/-- Unmasking a pending vector sends its message with the new entry. -/
theorem msixUnmask_pending (h : s.Tick t d) {v : Nat} (a w : Nat) (hv : v < 64) (hup : d.obj 0x9000 0x01 = 2) (hp : d.ev.pba.getLsbD v = true) :
    Completes (.msixUnmask t { vector := v, masked := false, address := a, data := w }) s fun x => x.outbox = .msix v a w :: d.outbox ∧
      x.ev.pba.getLsbD v = false ∧ x.ev.msixMask.getLsbD v = false ∧ x.ev.cause = d.ev.cause := by
  have hm := unmasked_msixMask d.inD0 a w hv
  have hb := unmasked_pba d.inD0 a w hv
  have hx := msixUnmask_unmasked h a w hv hup
  rw [if_pos hp, msix_unmasked hm] at hx
  exact hx.completes ⟨by simp [Dev.unmasked], hb, hm, by simp [Dev.unmasked]⟩

/-- A command of the host does nothing while the link is down. -/
theorem hostWrites_linkDown (h : s.Tick t d) (hdown : d.obj 0x9000 0x01 ≠ 2) (m : BitVec 64) {v : MsixEntry} {len : Nat} {req : Bytes}
    (hv : v.vector < 64) (hlen : len < 2048) (hreq : min len 1044 ≤ req.length) (h2048 : req.length ≤ 2048) :
    Becomes (.hsMaskBarWrite t m) s d ∧ Becomes (.eventCauseClear t m 0) s d ∧ Becomes (.msixUnmask t v) s d ∧ Becomes (.almAck t) s d ∧
      Becomes (.almDoorbell t len req) s d := by
  have hp := pcieUp_of_ne hdown
  refine ⟨becomes h (by unfold exec; rfl) rfl ?_, becomes h (eventCauseClear_exec ..) (by decide) ?_, becomes h (by unfold exec; rfl) (decide_eq_true hv) ?_,
    becomes h (by unfold exec; rfl) rfl ?_, becomes h (by unfold exec; rfl) ?_ ?_⟩
  case refine_5 => simpa [hlen, h2048] using hreq
  all_goals simp [hp]

end

/-! The flush of FIFOs. -/

/-- One FIFO flushed at once. -/
def Dev.flushFifo (d : Dev) (f : Nat) : Dev :=
  (((d.setFifo f { d.fifo f with visible := [], part := none, opened := none, timer := none }).inc 0x9010 0x0D 0 f
    ((d.fifo f).visible.length + b2n (d.fifo f).part.isSome + b2n (d.fifo f).opened.isSome)).set 0x9010 0x13 0 0 f).fifoSettle d f

theorem flushAllFifos_eq (d : Dev) : d.flushAllFifos = (List.range 64).foldl Dev.flushFifo d := rfl

/-- What the flush of FIFO `f` leaves of it. -/
def Flushed (d e : Dev) (f : Nat) : Prop :=
  (e.fifo f).visible = [] ∧ (e.fifo f).part = none ∧ (e.fifo f).opened = none ∧ e.obj 0x9010 0x13 0 f = 0 ∧
    e.obj 0x9010 0x0D 0 f = (d.obj 0x9010 0x0D 0 f + (d.fifo f).visible.length + b2n (d.fifo f).part.isSome + b2n (d.fifo f).opened.isSome) % 2 ^ 32

theorem fifoSettle_fifo_ne (d o : Dev) {f g : Nat} (h : g ≠ f) : (d.fifoSettle o f).fifo g = d.fifo g := by
  unfold Dev.fifoSettle
  simp only
  split <;> simp [Dev.fifoCause, fifo_setFifo_ne _ _ _ _ h]

theorem flushFifo_same (d : Dev) (f : Nat) : Flushed d (d.flushFifo f) f := by
  unfold Dev.flushFifo
  generalize hn : (d.fifo f).visible.length + b2n (d.fifo f).part.isSome + b2n (d.fifo f).opened.isSome = n
  obtain ⟨timer, hx⟩ := fifoSettle_fifo (((d.setFifo f { d.fifo f with visible := [], part := none, opened := none, timer := none }).inc 0x9010 0x0D 0 f n).set 0x9010 0x13 0 0 f) d f
  refine ⟨?_, ?_, ?_, ?_, ?_⟩
  · simp [hx]
  · simp [hx]
  · simp [hx]
  · rw [fifoSettle_obj _ _ _ _ (by omega) (by omega) (by omega), obj_set_same]
  · rw [fifoSettle_obj _ _ _ _ (by omega) (by omega) (by omega), obj_set_field _ (by omega) (by omega) (by omega) (by omega) (by omega), obj_inc_same, ← hn]
    simp [Nat.add_assoc]

theorem flushFifo_fifo_ne (d : Dev) {f g : Nat} (h : g ≠ f) : (d.flushFifo f).fifo g = d.fifo g := by
  unfold Dev.flushFifo
  rw [fifoSettle_fifo_ne _ _ h]
  simp [fifo_setFifo_ne _ _ _ _ h]

/-- The flush of a FIFO changes of the objects those of its own record. -/
theorem flushFifo_obj_ne (d : Dev) {f g j : Nat} (h : g ≠ f) (hj : j = 0x0D ∨ j = 0x13) : (d.flushFifo f).obj 0x9010 j 0 g = d.obj 0x9010 j 0 g := by
  unfold Dev.flushFifo
  rw [fifoSettle_obj _ _ _ _ (by omega) (by omega) (by omega)]
  rcases hj with rfl | rfl
  · rw [obj_set_field _ (by omega) (by omega) (by omega) (by omega) (by omega), obj_inc_place _ (by omega) (by omega) (by omega), Dev.setFifo_obj]
  · rw [obj_set_place _ (by omega) (by omega) (by omega), obj_inc_field _ (by omega) (by omega) (by omega) (by omega) (by omega), Dev.setFifo_obj]

/-- The flush of a FIFO changes no object of another index. -/
theorem flushFifo_obj (d : Dev) (f : Nat) {i j : Nat} (u r : Nat) (hi : i < 65536) (hj : j < 256) (h : i ≠ 0x9010) :
    (d.flushFifo f).obj i j u r = d.obj i j u r := by
  unfold Dev.flushFifo
  rw [fifoSettle_obj _ _ _ _ hi hj (by omega), obj_set_field _ (by omega) (by omega) hj hi (by omega), obj_inc_field _ (by omega) (by omega) hj hi (by omega),
    Dev.setFifo_obj]

theorem flushFifo_ev (d : Dev) (f : Nat) : ∃ l, (d.flushFifo f).ev = { d.ev with arrivals := l } := by
  unfold Dev.flushFifo Dev.fifoSettle
  simp only
  split
  · exact ⟨d.ev.arrivals ++ [8 + f], by simp [Dev.fifoCause, Dev.signal, Dev.evUpd]⟩
  · exact ⟨d.ev.arrivals, by simp⟩

/-- FIFOs of a list without repetitions are flushed one by one, and others are left alone. -/
theorem foldl_flushFifo (l : List Nat) (d : Dev) (hl : l.Nodup) (f : Nat) :
    (f ∈ l → Flushed d (l.foldl Dev.flushFifo d) f) ∧
    (f ∉ l → (l.foldl Dev.flushFifo d).fifo f = d.fifo f ∧ ∀ j, j = 0x0D ∨ j = 0x13 → (l.foldl Dev.flushFifo d).obj 0x9010 j 0 f = d.obj 0x9010 j 0 f) := by
  induction l generalizing d with
  | nil => exact ⟨fun h => absurd h List.not_mem_nil, fun _ => ⟨rfl, fun _ _ => rfl⟩⟩
  | cons g l ih =>
    obtain ⟨hg, hl⟩ := List.nodup_cons.mp hl
    obtain ⟨hin, hout⟩ := ih (d.flushFifo g) hl
    refine ⟨fun hf => ?_, fun hf => ?_⟩
    · by_cases hfg : f = g
      · subst hfg
        obtain ⟨hfifo, hobj⟩ := hout hg
        obtain ⟨h1, h2, h3, h4, h5⟩ := flushFifo_same d f
        exact ⟨by simpa [hfifo] using h1, by simpa [hfifo] using h2, by simpa [hfifo] using h3, (hobj _ (.inr rfl)).trans h4, (hobj _ (.inl rfl)).trans h5⟩
      · have hx := hin (by simpa [hfg] using hf)
        unfold Flushed at hx ⊢
        rwa [flushFifo_fifo_ne d hfg, flushFifo_obj_ne d hfg (.inl rfl)] at hx
    · obtain ⟨hfg, hfl⟩ : f ≠ g ∧ f ∉ l := by simpa using hf
      obtain ⟨hfifo, hobj⟩ := hout hfl
      exact ⟨hfifo.trans (flushFifo_fifo_ne d hfg), fun j hj => (hobj j hj).trans (flushFifo_obj_ne d hfg hj)⟩

theorem flushAllFifos_flushed (d : Dev) {f : Nat} (hf : f < 64) : Flushed d d.flushAllFifos f :=
  (foldl_flushFifo _ d List.nodup_range f).1 (List.mem_range.mpr hf)

theorem flushAllFifos_obj (d : Dev) {i j : Nat} (u r : Nat) (hi : i < 65536) (hj : j < 256) (h : i ≠ 0x9010) :
    d.flushAllFifos.obj i j u r = d.obj i j u r := by
  rw [flushAllFifos_eq]
  generalize List.range 64 = l
  induction l generalizing d with
  | nil => rfl
  | cons g l ih => exact (ih (d.flushFifo g)).trans (flushFifo_obj d g u r hi hj h)

theorem flushAllFifos_ev (d : Dev) : ∃ l, d.flushAllFifos.ev = { d.ev with arrivals := l } := by
  rw [flushAllFifos_eq]
  generalize List.range 64 = l
  induction l generalizing d with
  | nil => exact ⟨_, rfl⟩
  | cons g l ih =>
    obtain ⟨a, ha⟩ := flushFifo_ev d g
    obtain ⟨b, hb⟩ := ih (d.flushFifo g)
    exact ⟨b, by rw [List.foldl_cons, hb, ha]⟩

/-! The link. -/

section
variable (d : Dev)

/-- A port's link that comes up changes the port's state alone of the objects. -/
theorem portLinkUp_obj (p : Nat) {i j : Nat} (u r : Nat) (hi : i < 65536) (hj : j < 256) (h : i ≠ 0x2040) :
    (d.portLinkUp p).obj i j u r = d.obj i j u r := by
  unfold Dev.portLinkUp
  simp only
  split
  · rfl
  · rw [obj_set_field _ (by omega) (by omega) hj hi (by omega)]
    rfl

/-- A port's link that goes down changes the port's state alone of the objects. -/
theorem portLinkDown_obj (p : Nat) {i j : Nat} (u r : Nat) (hi : i < 65536) (hj : j < 256) (h : i ≠ 0x2040) :
    (d.portLinkDown p).obj i j u r = d.obj i j u r := by
  unfold Dev.portLinkDown
  simp only
  split <;> split <;> simp (disch := omega) [obj_set_field]

@[simp] theorem portLinkDown_fifo (p f : Nat) : (d.portLinkDown p).fifo f = d.fifo f := by
  unfold Dev.portLinkDown
  simp only
  split <;> split <;> rfl

end

/-- What follows the link's rise: record 22 comes up and the state of the start is told. -/
def Dev.hostReached (d : Dev) : Dev :=
  let d := if d.portsBarred then d else d.portLinkUp 22
  if d.obj 0xB000 0x01 = 4 then d.signal 2 else if d.flash.recovery then d.signal 21 else d

theorem hostReached_obj (d : Dev) {j : Nat} (hj : j < 256) : d.hostReached.obj 0x9000 j = d.obj 0x9000 j := by
  have hport : (if d.portsBarred then d else d.portLinkUp 22).obj 0x9000 j = d.obj 0x9000 j := by
    split
    · rfl
    · exact portLinkUp_obj d 22 0 0 (by omega) hj (by omega)
  unfold Dev.hostReached
  simp only
  generalize (if d.portsBarred then d else d.portLinkUp 22) = e at hport ⊢
  split
  · exact hport
  · split <;> exact hport

section
variable {s : State} {t : Nat} {d : Dev}

theorem pcieLinkUp_exec (t speed width : Nat) (s : State) :
    exec (.pcieLinkUp t speed width) s = s.cmd t ((1 ≤ speed && speed ≤ 4 && (width == 1 || width == 2)) || (speed == 0 && width == 0)) fun d =>
      if d.pcieUp then d else if speed = 0 then d.set 0x9000 0x01 1
      else ((((d.inD0.set 0x9000 0x01 2).set 0x9000 0x02 (min speed (d.inD0.obj 0x9000 0x41))).set 0x9000 0x03 width).inc 0x9000 0x04).hostReached := by
  unfold exec
  rfl

theorem pcieLinkUp_completes (h : s.Tick t d) {speed width : Nat} (h1 : 1 ≤ speed) (h4 : speed ≤ 4) (hw : width = 1 ∨ width = 2)
    (hdown : d.obj 0x9000 0x01 ≠ 2) :
    Completes (.pcieLinkUp t speed width) s fun x =>
      x.obj 0x9000 0x01 = 2 ∧ x.obj 0x9000 0x02 = min speed (d.obj 0x9000 0x41) ∧ x.obj 0x9000 0x03 = width ∧
        x.obj 0x9000 0x04 = (d.obj 0x9000 0x04 + 1) % 2 ^ 32 := by
  refine completes h (pcieLinkUp_exec ..) ?_ ?_
  · rcases hw with rfl | rfl <;> simp [h1, h4]
  · simp only [pcieUp_of_ne hdown, Bool.false_eq_true, if_false, show ¬ speed = 0 by omega]
    simp (disch := omega) [hostReached_obj, Dev.inc, obj_set_field]

theorem pcieLinkDown_completes (h : s.Tick t d) (hup : d.obj 0x9000 0x01 = 2) :
    Completes (.pcieLinkDown t) s fun x =>
      x.obj 0x9000 0x01 = 0 ∧ x.obj 0x9000 0x02 = 0 ∧ x.obj 0x9000 0x03 = 0 ∧ x.obj 0x9000 0x05 = (d.obj 0x9000 0x05 + 1) % 2 ^ 32 ∧
        ∀ f, f < 64 → (x.fifo f).visible = [] ∧ (x.fifo f).part = none ∧ (x.fifo f).opened = none ∧ x.obj 0x9010 0x13 0 f = 0 := by
  refine completes h (by unfold exec; rfl) rfl ?_
  simp only [pcieUp_of hup, not_true, if_false]
  refine ⟨?_, ?_, ?_, ?_, fun f hf => ?_⟩
  case refine_5 =>
    obtain ⟨h1, h2, h3, h4, -⟩ := flushAllFifos_flushed ((((d.inD0.set 0x9000 0x01 0).set 0x9000 0x02 0).set 0x9000 0x03 0).inc 0x9000 0x05) hf
    rw [portLinkDown_fifo, portLinkDown_obj _ _ _ _ (by omega) (by omega) (by omega)]
    exact ⟨h1, h2, h3, h4⟩
  all_goals
    rw [portLinkDown_obj _ _ _ _ (by omega) (by omega) (by omega), flushAllFifos_obj _ _ _ (by omega) (by omega) (by omega)]
    simp (disch := omega) [Dev.inc, obj_set_field]

end

/-! The function resets. -/

theorem functionReset_ev (d : Dev) :
    d.functionReset.ev.msixMask = BitVec.allOnes 64 ∧ d.functionReset.ev.pba = 0 ∧ d.functionReset.ev.targets = [] ∧
      d.functionReset.ev.cause = d.ev.cause ∧ d.functionReset.ev.hsMask = d.ev.hsMask ∧ d.functionReset.ev.log = d.ev.log := by
  obtain ⟨l, hl⟩ := flushAllFifos_ev d
  simp [Dev.functionReset, hl]

theorem functionReset_flushed (d : Dev) {f : Nat} (hf : f < 64) : Flushed d d.functionReset f := by
  simpa [Flushed, Dev.functionReset, Dev.fifo] using flushAllFifos_flushed d hf

/-- Settles O8: the event registers by their bits, the FIFOs by the flush of each, the link's objects by the writes that follow. -/
theorem endpointCommands : Obligations.EndpointCommands := by
  refine ⟨fun s t d h => ⟨?_, ?_, ?_, ?_, ?_, ?_, ?_, ?_, ?_, ?_, ?_⟩, fun s t d h => ⟨?_, ?_, ?_, ?_, ?_, ?_, ?_⟩⟩
  · exact fun e h1 h2 h3 h4 h5 => eventBusEvent_becomes h h1 h2 h3 h4 h5
  · exact fun m h2 h3 => becomes h (by unfold exec; rfl) rfl (clearCause_other d h2 h3)
  · exact fun m => completes h (by unfold exec; rfl) rfl (clearCause_ev d m)
  · intro m hup h2 h3
    refine becomes h (eventCauseClear_exec ..) (by decide) ?_
    simp only [pcieUp_of hup, not_true, if_false, arrivals_none, clearCause_other _ h2 h3, inD0_cause]
  · intro m v hv hup
    refine completes h (eventCauseClear_exec ..) (decide_eq_true (ofNat_two_pow_lt hv)) ?_
    have hbits : (List.range 22).filter (fun k => (BitVec.ofNat 64 (2 ^ v)).getLsbD k) = [v] :=
      (List.filter_congr fun k hk => getLsbD_ofNat_two_pow (Nat.lt_trans (List.mem_range.mp hk) (by omega))).trans (filter_range_eq hv)
    simp only [pcieUp_of hup, not_true, if_false, clearCause_ev, arrivals_ev, hbits, inD0_cause, inD0_arrivals, and_self]
  · exact fun m hup => becomes h (by unfold exec; rfl) rfl (by simp only [pcieUp_of hup, if_true])
  · exact fun v a w hv hup => msixUnmask_masked h a w hv hup
  · intro v a w hv hup hp
    have hx := msixUnmask_unmasked h a w hv hup
    rw [if_neg (by simp [hp])] at hx
    simpa only [Dev.unmasked, inD0_targets, inD0_msixMask, inD0_pba] using hx
  · exact fun v a w hv hup hp => msixUnmask_pending h a w hv hup hp
  · intro bar offset hbar hw hup
    refine becomes h (by unfold exec; rfl) ?_ (by simp only [pcieUp_of hup, if_true])
    rcases hbar with ⟨rfl, ho⟩ | ⟨rfl, ho⟩ <;> simp [hw, ho]
  · exact fun hdown m v len req hv hlen hreq h2048 => hostWrites_linkDown h hdown m hv hlen hreq h2048
  · exact fun speed width h1 h4 hw hdown => pcieLinkUp_completes h h1 h4 hw hdown
  · exact fun hup => pcieLinkDown_completes h hup
  · intro hdown
    have hp := pcieUp_of_ne hdown
    exact ⟨becomes h (pcieLinkUp_exec ..) rfl (by simp [hp]), becomes h (by unfold exec; rfl) rfl (by simp [hp])⟩
  · exact fun hup => becomes h (by unfold exec; rfl) rfl (by simp only [pcieUp_of hup, if_true])
  · exact fun hup => becomes h (by unfold exec; rfl) rfl (by simp only [pcieUp_of hup, if_true])
  · exact functionReset_ev d
  · exact fun f hf => functionReset_flushed d hf

end Sys2Proof.Machine

/-! SUPPORT. Items that the host writes into a FIFO, and packets between the FIFOs and the fabric (R338, R341 to R343, R346, R347): O9. -/
namespace Sys2Proof.Machine

/-! The room of a FIFO. -/

theorem Fifo.heldItems_of_none {x : Fifo} (h : x.opened = none) : x.heldItems = x.count := by simp [Fifo.heldItems, h]

theorem Fifo.heldItems_of_some {x : Fifo} {its : List (BitVec 64)} {lost : Bool} (h : x.opened = some (its, lost)) :
    x.heldItems = x.count + its.length := by simp [Fifo.heldItems, h]

/-- Its open packet adds nothing to the count of a FIFO. -/
theorem Fifo.count_opened (x : Fifo) (o : Option (List (BitVec 64) × Bool)) : ({ x with opened := o } : Fifo).count = x.count := rfl

theorem fifoFree_setFifo (d : Dev) (f : Nat) (x : Fifo) : (d.setFifo f x).fifoFree f = d.obj 0x9010 0x04 0 f - x.heldItems := by
  simp [Dev.fifoFree]

/-- Counting in a FIFO's record and replacing the FIFO commute. -/
theorem setFifo_inc (d : Dev) (f : Nat) (x y : Fifo) (j u r n : Nat) :
    ((d.setFifo f x).inc 0x9010 j u r n).setFifo f y = (d.inc 0x9010 j u r n).setFifo f y := by
  simp [Dev.setFifo, Dev.inc, Dev.set, Dev.obj]

theorem fifoAppend_setFifo (d : Dev) (f : Nat) (l its : List (BitVec 64)) (lost : Bool) (x : Fifo) (hx : x.opened = some (its, lost))
    (hl : l.length ≤ (d.setFifo f x).fifoFree f) :
    (d.setFifo f x).fifoAppend f l = d.setFifo f { x with opened := some (its ++ l, lost) } := by
  induction l generalizing its x with
  | nil =>
    obtain ⟨_, _, _, _, _, _⟩ := x
    simp only at hx
    simp [Dev.fifoAppend, hx]
  | cons i l ih =>
    have hfree : (d.setFifo f x).fifoFree f ≠ 0 := by simp only [List.length_cons] at hl; omega
    have hroom : l.length ≤ (d.setFifo f { x with opened := some (its ++ [i], lost) }).fifoFree f := by
      rw [fifoFree_setFifo, Fifo.heldItems_of_some hx] at hl
      rw [fifoFree_setFifo, Fifo.heldItems_of_some (x := { x with opened := some (its ++ [i], lost) }) rfl, Fifo.count_opened]
      simp only [List.length_append, List.length_cons, List.length_nil] at hl ⊢
      omega
    have hstep := ih (its ++ [i]) { x with opened := some (its ++ [i], lost) } rfl hroom
    simpa [Dev.fifoAppend, hx, hfree] using hstep

/-- Items that a FIFO has room for join its open packet. -/
theorem fifoAppend_fits (d : Dev) (f : Nat) (l its : List (BitVec 64)) (lost : Bool) (hne : 1 ≤ l.length) (hx : (d.fifo f).opened = some (its, lost))
    (hl : l.length ≤ d.fifoFree f) : d.fifoAppend f l = d.setFifo f { d.fifo f with opened := some (its ++ l, lost) } := by
  cases l with
  | nil => exact absurd hne (by simp)
  | cons i l =>
    have hfree : d.fifoFree f ≠ 0 := by simp only [List.length_cons] at hl; omega
    have hroom : l.length ≤ (d.setFifo f { d.fifo f with opened := some (its ++ [i], lost) }).fifoFree f := by
      rw [Dev.fifoFree, Fifo.heldItems_of_some hx] at hl
      rw [fifoFree_setFifo, Fifo.heldItems_of_some (x := { d.fifo f with opened := some (its ++ [i], lost) }) rfl, Fifo.count_opened]
      simp only [List.length_append, List.length_cons, List.length_nil] at hl ⊢
      omega
    have hrest := fifoAppend_setFifo d f l (its ++ [i]) lost { d.fifo f with opened := some (its ++ [i], lost) } rfl hroom
    simpa [Dev.fifoAppend, hx, hfree] using hrest

/-- An item that finds no room is lost, and the packet with it. -/
theorem fifoAppend_full (d : Dev) (f : Nat) (i : BitVec 64) (its : List (BitVec 64)) (lost : Bool) (hx : (d.fifo f).opened = some (its, lost))
    (hfree : d.fifoFree f = 0) :
    d.fifoAppend f [i] = (d.inc 0x9010 0x0F 0 f).setFifo f { d.fifo f with opened := some (its, true) } := by
  simp [Dev.fifoAppend, hx, hfree]

section
variable {s : State} {t f : Nat} {d : Dev} {i : BitVec 64} {l : List (BitVec 64)}

/-! Items of the host. -/

/-- Items for a to-host FIFO or one that is off are discarded and counted. -/
theorem fifoWrites_discarded (h : s.Tick t d) (hf : f < 64) (h1 : 1 ≤ l.length) (h32 : l.length ≤ 32) (hoff : d.fifoOn f = false ∨ d.fifoToHost f = true) :
    Becomes (.fifoHeadWrite t f i) s (d.inD0.inc 0x9010 0x0F 0 f) ∧ Becomes (.fifoDataWrite t f l) s (d.inD0.inc 0x9010 0x0F 0 f l.length) ∧
      Becomes (.fifoEndWrite t f i) s (d.inD0.inc 0x9010 0x0F 0 f) := by
  have hc : ¬ d.inD0.fifoOn f = true ∨ d.inD0.fifoToHost f = true := by simpa using hoff
  refine ⟨becomes h (by unfold exec; rfl) (decide_eq_true hf) ?_, becomes h (by unfold exec; rfl) (by simp [hf, h1, h32]) ?_,
    becomes h (by unfold exec; rfl) (decide_eq_true hf) ?_⟩ <;>
  exact if_pos hc

/-- A header item on a FIFO with no packet open. -/
theorem fifoHeadWrite_fresh (h : s.Tick t d) (hf : f < 64) (hon : d.fifoOn f = true) (hfrom : d.fifoToHost f = false) (hopen : (d.fifo f).opened = none) :
    Becomes (.fifoHeadWrite t f i) s (if d.fifoFree f = 0 then ((d.inD0.inc 0x9010 0x0F 0 f).setFifo f { d.fifo f with opened := some ([], true) }).fifoSettle d.inD0 f
      else (d.inD0.setFifo f { d.fifo f with opened := some ([i], false) }).fifoSettle d.inD0 f) := by
  refine becomes h (by unfold exec; rfl) (decide_eq_true hf) ?_
  have hsame : ({ d.fifo f with opened := none } : Fifo) = d.fifo f := by rw [← hopen]
  have hfree : (d.inD0.setFifo f (d.fifo f)).fifoFree f = d.fifoFree f := by simp [Dev.fifoFree]
  simp [hon, hfrom, hopen, hsame, hfree, setFifo_inc]

/-- A header item with a packet open: the open packet is lost, and its room serves the new one. -/
theorem fifoHeadWrite_again (h : s.Tick t d) (hf : f < 64) (hon : d.fifoOn f = true) (hfrom : d.fifoToHost f = false) {o : List (BitVec 64) × Bool}
    (hopen : (d.fifo f).opened = some o) (hroom : (d.fifo f).count < d.obj 0x9010 0x04 0 f) :
    Becomes (.fifoHeadWrite t f i) s (((d.inD0.inc 0x9010 0x0E 0 f).setFifo f { d.fifo f with opened := some ([i], false) }).fifoSettle d.inD0 f) := by
  refine becomes h (by unfold exec; rfl) (decide_eq_true hf) ?_
  have hfree : ((d.inD0.inc 0x9010 0x0E 0 f).setFifo f { d.fifo f with opened := none }).fifoFree f ≠ 0 := by
    rw [fifoFree_setFifo, obj_inc_field _ (by omega) (by omega) (by omega) (by omega) (by omega), inD0_obj, Fifo.heldItems_of_none rfl, Fifo.count_opened]
    omega
  simp [hon, hfrom, hopen, hfree]

/-- Without an open packet data and end items are lost and counted. -/
theorem fifoWrites_noPacket (h : s.Tick t d) (hf : f < 64) (h1 : 1 ≤ l.length) (h32 : l.length ≤ 32) (hon : d.fifoOn f = true) (hfrom : d.fifoToHost f = false)
    (hopen : (d.fifo f).opened = none) :
    Becomes (.fifoDataWrite t f l) s (d.inD0.inc 0x9010 0x0E 0 f) ∧ Becomes (.fifoEndWrite t f i) s (d.inD0.inc 0x9010 0x0E 0 f) := by
  refine ⟨becomes h (by unfold exec; rfl) (by simp [hf, h1, h32]) ?_, becomes h (by unfold exec; rfl) (decide_eq_true hf) ?_⟩ <;>
  simp [hon, hfrom, hopen]

theorem fifoDataWrite_appends (h : s.Tick t d) (hf : f < 64) (h1 : 1 ≤ l.length) (h32 : l.length ≤ 32) (hon : d.fifoOn f = true)
    (hfrom : d.fifoToHost f = false) {o : List (BitVec 64) × Bool} (hopen : (d.fifo f).opened = some o) :
    Becomes (.fifoDataWrite t f l) s ((d.inD0.fifoAppend f l).fifoSettle d.inD0 f) := by
  refine becomes h (by unfold exec; rfl) (by simp [hf, h1, h32]) ?_
  simp [hon, hfrom, hopen]

/-- An end item that fits closes the packet, which joins the visible ones when it passes its checks. -/
theorem fifoEndWrite_closes (h : s.Tick t d) (hf : f < 64) (hon : d.fifoOn f = true) (hfrom : d.fifoToHost f = false) {its : List (BitVec 64)} {lost : Bool}
    (hopen : (d.fifo f).opened = some (its, lost)) (hroom : 0 < d.fifoFree f) :
    Becomes (.fifoEndWrite t f i) s
      (if lost = true ∨ packetGood (its ++ [i]) = false then ((d.inD0.setFifo f { d.fifo f with opened := none }).inc 0x9010 0x0E 0 f).fifoSettle d.inD0 f
       else ((d.inD0.setFifo f { d.fifo f with opened := none, visible := (d.fifo f).visible ++
         [{ prio := headerPrio ((its ++ [i]).getD 0 0), items := its ++ [i] }] }).inc64 0x9010 0x0B 0 f).fifoSettle d.inD0 f) := by
  refine becomes h (by unfold exec; rfl) (decide_eq_true hf) ?_
  have happ := fifoAppend_fits d.inD0 f [i] its lost (by simp) (by simpa using hopen) (by simpa using Nat.succ_le_of_lt hroom)
  simp [hon, hfrom, hopen, happ]

/-! Packets and the fabric. -/

theorem fifoPacketToHost_becomes (h : s.Tick t d) {fr : Frame} {l : List Frame} (hq : d.fab.toHost = fr :: l) (hdata : d.dataOn = true)
    (hup : d.obj 0x9000 0x01 = 2) (hbox : fr.hostFifo = none) (hsize : fr.oversize = false) (hfcs : fr.badFcs = false)
    (hon : d.fifoOn (d.hostFifoOf fr) = true) (hto : d.fifoToHost (d.hostFifoOf fr) = true) {n : Nat} (hn : d.hostFifoOf fr = n) {bytes : Bytes}
    (hbytes : fr.data ++ fcsOf fr.data = bytes) {items : List (BitVec 64)} (hitems : dataItems bytes.length bytes = items) (hroom : items.length + 1 ≤ d.fifoFree n) :
    Becomes (.fifoPacketToHost t) s ((((d.fabUpd fun y => { y with toHost := l }).setFifo n { d.fifo n with
      visible := (d.fifo n).visible ++ [{ prio := fr.cls, items := headerItem fr.smem fr.sport (d.fifo n).seq fr.cls bytes.length false false :: items }],
      seq := ((d.fifo n).seq + 1) % 65536 }).inc64 0x9010 0x0B 0 n).fifoSettle d n) := by
  refine becomes h (by unfold exec; rfl) rfl ?_
  subst hn
  have hfree : ¬ d.fifoFree (d.hostFifoOf fr) < 1 + items.length := by omega
  simp [hq, hdata, pcieUp_of hup, hbox, hsize, hfcs, hon, hto, hbytes, hitems, hfree]

theorem fifoPacketToHost_waits (h : s.Tick t d) (hw : d.dataOn = false ∨ d.obj 0x9000 0x01 ≠ 2 ∨ d.fab.toHost = []) :
    Becomes (.fifoPacketToHost t) s d := by
  refine becomes h (by unfold exec; rfl) rfl ?_
  cases hq : d.fab.toHost with
  | nil => rfl
  | cons fr l =>
    have hoff : ¬ d.dataOn = true ∨ ¬ d.pcieUp = true := by simpa [hq, Dev.pcieUp] using hw
    exact if_pos (hoff.elim .inl fun hp => .inr (.inl hp))

theorem fifoPacketFromHost_waits (h : s.Tick t d) (hw : d.dataOn = false ∨ d.hostFree = false ∨ d.nextFromHost = none) (bad : Nat) :
    Becomes (.fifoPacketFromHost t bad) s d := by
  refine becomes h (by unfold exec; rfl) rfl ?_
  have hnone : (if d.dataOn = true ∧ d.hostFree = true then d.nextFromHost else none) = none := by
    rcases hw with hw | hw | hw <;> simp [hw]
  simp only [hnone]

/-- The device after FP8 has taken the rest of FIFO `f`'s packets as `rest`. -/
def Dev.packetTaken (d : Dev) (f : Nat) (rest : List Packet) : Dev :=
  { ((d.setFifo f { d.fifo f with visible := rest }).inc64 0x9010 0x0C 0 f).fifoSettle d f with fifoTurn := f }

theorem fifoPacketFromHost_becomes (h : s.Tick t d) (bad : Nat) {p : Packet} {rest : List Packet} (hdata : d.dataOn = true) (hfree : d.hostFree = true)
    (hnext : d.nextFromHost = some (f, p, rest)) :
    Becomes (.fifoPacketFromHost t bad) s
      (if bad ≠ 0 then (d.packetTaken f rest).inc 0x9010 0x10 0 f (min bad p.items.length)
       else if (d.packetTaken f rest).obj 0x9010 0x03 0 f = 2 then
         (d.packetTaken f rest).offerRose f p.prio ((itemBytes (p.items.drop 1)).take (headerLength (p.items.getD 0 0)))
       else (d.packetTaken f rest).offerFromHost ((itemBytes (p.items.drop 1)).take (headerLength (p.items.getD 0 0))) ((p.items.getD 0 0).getLsbD 24)) := by
  refine becomes h (by unfold exec; rfl) rfl ?_
  simp only [hdata, hfree, and_self, if_true, hnext]
  rfl

end

/-- Settles O9: the room of a FIFO by `Fifo.heldItems`, the open packet by `Dev.fifoAppend`. -/
theorem fifoPackets : Obligations.FifoPackets := by
  refine ⟨fun s t d f i l h hf h1 h32 => ⟨fifoWrites_discarded h hf h1 h32, fun hon hfrom => ⟨fun hopen => ?_, fun its lost hopen => ?_⟩⟩,
    fun s t d h => ⟨?_, fifoPacketToHost_waits h, fifoPacketFromHost_waits h, fun f bad p rest hdata hfree hnext => ?_⟩⟩
  · obtain ⟨hdataw, hendw⟩ := fifoWrites_noPacket (i := i) h hf h1 h32 hon hfrom hopen
    have hhead := fifoHeadWrite_fresh (i := i) h hf hon hfrom hopen
    refine ⟨hdataw, hendw, fun hfree => ?_, fun hcount => ?_⟩
    · rwa [if_pos hfree] at hhead
    · rwa [if_neg (by rw [Dev.fifoFree, Fifo.heldItems_of_none hopen]; omega)] at hhead
  · refine ⟨fifoHeadWrite_again h hf hon hfrom hopen, fun hroom => ?_, fun hfull => ?_, fun hroom hlost hgood => ?_, fun hroom hbad => ?_⟩
    · have hw := fifoDataWrite_appends h hf h1 h32 hon hfrom hopen
      rwa [fifoAppend_fits d.inD0 f l its lost h1 (by simpa using hopen) (by simpa using hroom), inD0_fifo] at hw
    · have hw := fifoDataWrite_appends (l := [i]) h hf (by simp) (by simp) hon hfrom hopen
      rwa [fifoAppend_full d.inD0 f i its lost (by simpa using hopen) (by simpa using hfull), inD0_fifo] at hw
    · have hw := fifoEndWrite_closes (i := i) h hf hon hfrom hopen hroom
      rwa [if_neg (by simp [hlost, hgood])] at hw
    · have hw := fifoEndWrite_closes (i := i) h hf hon hfrom hopen hroom
      rwa [if_pos hbad] at hw
  · exact fun fr l hq hdata hup hbox hsize hfcs hon hto hroom => fifoPacketToHost_becomes h hq hdata hup hbox hsize hfcs hon hto rfl rfl rfl hroom
  · have hw := fifoPacketFromHost_becomes h bad hdata hfree hnext
    refine ⟨fun hbad => ?_, fun (htype : (d.packetTaken f rest).obj 0x9010 0x03 0 f = 2) => ?_,
      fun (htype : ¬ (d.packetTaken f rest).obj 0x9010 0x03 0 f = 2) => ?_⟩
    · rwa [if_pos (by omega)] at hw
    · have hw := fifoPacketFromHost_becomes h 0 hdata hfree hnext
      rw [if_neg (not_not_intro rfl), if_pos htype] at hw
      exact hw
    · have hw := fifoPacketFromHost_becomes h 0 hdata hfree hnext
      rw [if_neg (not_not_intro rfl), if_neg htype] at hw
      exact hw

end Sys2Proof.Machine

/-! SUPPORT. Reads of a FIFO, its flush and its coalescing timer (R332, R339, R342, R344, R345): O11. -/
namespace Sys2Proof.Machine

/-- A timer of the CORE domain that expires alone in its tick makes the device become its effect. -/
theorem becomes_timer {s : State} {t : Nat} {d x : Dev} {c : Instr} {ok : Bool} {aw : Dev → Instr → Bool} {f : Dev → Dev} {n : Nat} (h : s.Tick t d)
    (ha : s.Alone d) (e : exec c s = s.timer t ok aw f n) (h1 : 0 < n) (h2 : n ≤ 1250) (hok : ok = true) (hx : f d = x) : Becomes c s x :=
  becomes h (e.trans (timer_alone h ha ok aw f h1 h2)) hok hx

/-- At a packet boundary a pop takes the header of the packet that is next. -/
theorem popItems_header (d : Dev) {f : Nat} {p : Packet} {r : List Packet} (hpart : (d.fifo f).part = none)
    (hnext : nextPacket (d.fifo f).visible = some (p, r)) (hread : p.read = 0) (hlen : 2 ≤ p.items.length) :
    d.popItems f [] 1 0 [] =
      (d.setFifo f { d.fifo f with visible := r, part := some { p with read := 1 }, poisoned := false }, [p.items.getD 0 idleItem]) := by
  have hmore : ¬ p.items.length ≤ 1 := by omega
  simp [Dev.popItems, hpart, hnext, hread, hmore]

section
variable {s : State} {t f : Nat} {d : Dev}

theorem fifoPopRead_notWhole (h : s.Tick t d) (hf : f < 64) {r : PopRead} (hr : popWhole r = false) :
    Becomes (.fifoPopRead t f r []) s (d.inD0.inc 0x9000 0x08) := by
  refine becomes h (exec_fifoPopRead ..) (decide_eq_true hf) ?_
  simp [hr]

theorem fifoPopRead_abort (h : s.Tick t d) (hf : f < 64) {r : PopRead} (hr : popWhole r = true) (ha : r.abort = true) :
    Becomes (.fifoPopRead t f r []) s (d.inD0.inc 0x9000 0x07) := by
  refine becomes h (exec_fifoPopRead ..) (decide_eq_true hf) ?_
  simp [hr, ha]

/-- A read of one item at a packet boundary gives the header of the next packet in read order. -/
theorem fifoPopRead_header (h : s.Tick t d) (hf : f < 64) {p : Packet} {r : List Packet} (hon : d.fifoOn f = true) (hto : d.fifoToHost f = true)
    (hpart : (d.fifo f).part = none) (hnext : nextPacket (d.fifo f).visible = some (p, r)) (hread : p.read = 0) (hlen : 2 ≤ p.items.length)
    (hcount : 0 < (d.fifo f).count) :
    Becomes (.fifoPopRead t f { bytes := 8 } []) s
      (((d.inD0.setFifo f { d.fifo f with visible := r, part := some { p with read := 1 }, poisoned := false }).out
        (.popped f [p.items.getD 0 idleItem])).fifoSettle d.inD0 f) := by
  have htake : min 1 (d.fifo f).count = 1 := Nat.min_eq_left hcount
  have hpop := popItems_header d.inD0 (by simpa using hpart) (by simpa using hnext) hread hlen
  refine becomes h (exec_fifoPopRead ..) (decide_eq_true hf) ?_
  simp [popWhole, hon, hto, htake, hpop]

theorem itemTaken_last (d : Dev) (f : Nat) {p : Packet} (h : p.read + 1 = p.items.length) :
    d.itemTaken f p = (d.setFifo f { d.fifo f with part := none }).inc64 0x9010 0x0C 0 f := if_pos h.ge

/-! The flush. -/

/-- The flush of a FIFO without open packets empties it, counts its packets and ends (R345). -/
theorem fifoFlushTakesEffect_completes (h : s.Tick t d) (hf : f < 64) (hset : d.flag 0x9010 0x13 0 f = true) (hpart : (d.fifo f).part = none)
    (hopen : (d.fifo f).opened = none) :
    Completes (.fifoFlushTakesEffect t f) s fun x =>
      (x.fifo f).visible = [] ∧ (x.fifo f).part = none ∧ (x.fifo f).opened = none ∧ x.obj 0x9010 0x13 0 f = 0 ∧
        x.obj 0x9010 0x0D 0 f = (d.obj 0x9010 0x0D 0 f + (d.fifo f).visible.length) % 2 ^ 32 := by
  refine completes h (by unfold exec; rfl) (decide_eq_true hf) ?_
  simp only [hset, hpart, hopen, Option.isNone_none, and_self, if_true]
  obtain ⟨timer, hx⟩ := fifoSettle_fifo (((d.setFifo f { d.fifo f with visible := [] }).inc 0x9010 0x0D 0 f (d.fifo f).visible.length).set 0x9010 0x13 0 0 f) d f
  rw [fifoSettle_obj _ _ _ _ (by omega) (by omega) (by omega), fifoSettle_obj _ _ _ _ (by omega) (by omega) (by omega)]
  simp (disch := omega) [hpart, hopen] at hx ⊢
  simp (disch := omega) [hx, obj_set_field]

theorem fifoFlushTakesEffect_waits (h : s.Tick t d) (hf : f < 64)
    (hw : d.flag 0x9010 0x13 0 f = false ∨ (d.fifo f).part.isSome = true ∨ (d.fifo f).opened.isSome = true) :
    Becomes (.fifoFlushTakesEffect t f) s d := by
  refine becomes h (by unfold exec; rfl) (decide_eq_true hf) ?_
  refine if_neg fun ⟨h1, h2, h3⟩ => ?_
  rcases hw with hw | hw | hw
  · simp [hw] at h1
  · rw [Option.isNone_iff_eq_none] at h2; simp [h2] at hw
  · rw [Option.isNone_iff_eq_none] at h3; simp [h3] at hw

/-! Coalescing. -/

theorem fifoCoalescingExpiry_becomes (h : s.Tick t d) (ha : s.Alone d) (hf : f < 64) {t0 : Nat} (ht : (d.fifo f).timer = some t0)
    (hct : d.obj 0x9010 0x06 0 f ≠ 0) (hdue : t0 + d.obj 0x9010 0x06 0 f * perUs ≤ d.now) (hcount : 0 < (d.fifo f).count)
    (hlevel : (d.fifo f).count < d.obj 0x9010 0x05 0 f) :
    Becomes (.fifoCoalescingExpiry t f) s (((d.setFifo f { d.fifo f with timer := none }).signal (8 + f)).inc 0x9010 0x12 0 f) := by
  refine becomes_timer h ha (by unfold exec; rfl) (by omega) (by omega) (decide_eq_true hf) ?_
  simp only [ht]
  exact if_pos ⟨hct, hdue, hcount, hlevel⟩

theorem fifoCoalescingExpiry_idle (h : s.Tick t d) (ha : s.Alone d) (hf : f < 64) (ht : (d.fifo f).timer = none) :
    Becomes (.fifoCoalescingExpiry t f) s d :=
  becomes_timer h ha (by unfold exec; rfl) (by omega) (by omega) (decide_eq_true hf) (by simp only [ht])

end

/-- Settles O11: the reads by the item that `Dev.popItems` takes, the flush and the timer by their conditions. -/
theorem fifoReadsAndFlush : Obligations.FifoReadsAndFlush := by
  refine ⟨fun s t d f h hf => ⟨?_, ?_, ?_, ?_, ?_⟩, fun s t d f h hf => ⟨?_, ?_, ?_, ?_, ?_⟩⟩
  · exact fun r hr => fifoPopRead_notWhole h hf hr
  · exact fun r hr ha => fifoPopRead_abort h hf hr ha
  · exact fun n hn hoff => fifoPopRead_unserved h hf hn (by simpa using hoff)
  · exact fun p r hon hto hpart hnext hread hlen hcount => fifoPopRead_header h hf hon hto hpart hnext hread hlen hcount
  · intro p hon hto hpart hlast hread
    have hx := fifoPopRead_part h hf hon hto hpart hread (by omega)
    rwa [itemTaken_last _ _ hlast, inD0_fifo] at hx
  · exact becomes h (by unfold exec; rfl) (decide_eq_true hf) rfl
  · exact fun hset hpart hopen => fifoFlushTakesEffect_completes h hf hset hpart hopen
  · exact fun hw => fifoFlushTakesEffect_waits h hf hw
  · exact fun t0 ht hct hdue hcount hlevel ha => fifoCoalescingExpiry_becomes h ha hf ht hct hdue hcount hlevel
  · exact fun ht ha => fifoCoalescingExpiry_idle h ha hf ht

end Sys2Proof.Machine

/-! SUPPORT. Requests that the first checks refuse, and reads of one unit (R46, R47, R49, R511): O12. -/
namespace Sys2Proof.Machine

section
variable {d : Dev} {q : Request}

/-! The request that is served. -/

theorem queue_of_nextRequest (h : d.nextRequest = some q) : ∃ l, d.alm.queue = q :: l := by
  unfold Dev.nextRequest at h
  split at h
  · exact List.head?_eq_some_iff.mp h
  · simp at h

theorem nextRequest_of_serves (h : d.serves q = true) : d.nextRequest = some q := by
  simp only [Dev.serves, Bool.and_eq_true, beq_iff_eq] at h
  exact h.1.1.1.2

/-- The server answers a request that fails one of checks 1 to 4 with the code of the check. -/
theorem serve_refused (hn : d.nextRequest = some q) (hd : d.thawLease.dueBefore q.arrived = d) (hr : d.inRom = false) (hc : d.frontCheck q ≠ 0)
    {test : Bytes → Bool} (f : Dev → Request → Dev) (ht : test q.bytes = true) :
    d.serve test f = (d.countRequest q).finish (d.frontCheck q) := by
  simp [Dev.serve, hn, ht, hd, hr, hc]

@[simp] theorem countRequest_alm : (d.countRequest q).alm = d.alm := by
  obtain ⟨i, s, h⟩ := countRequest_eq d q
  rw [h, Dev.inc_alm]

@[simp] theorem countRequest_stackId : (d.countRequest q).stackId = d.stackId := by
  obtain ⟨i, s, h⟩ := countRequest_eq d q
  rw [h, Dev.inc_stackId]

/-! What an answer leaves. -/

/-- An answer changes no object but those that `Request.answerField` names. -/
theorem reply_obj (d : Dev) (q : Request) (c : Nat) (b : Bytes) {i s : Nat} (u r : Nat) (hi : i < 65536) (hs : s < 256) (h : q.answerField i s = false) :
    (d.reply q c b).obj i s u r = d.obj i s u r := by
  cases ho : q.origin with
  | some m => exact (sent_reply d q c b (by simp [ho])).obj i s u r hi hs (by simpa [Request.answerField, ho] using h)
  | none =>
    by_cases hv : (q.svc != .can && q.svc != .udp) = true
    · exact (served_reply d q c b (by simp [ho, hv])).obj i s u r
    · have hbuf : ¬ (i = 0x6020 ∨ i = 0x6030) := by
        rintro (rfl | rfl) <;> cases hsvc : q.svc <;> simp_all [Request.answerField]
      exact (answered_reply d q c b ho).obj i s u r hi hs (fun hx => hbuf (.inl hx)) (fun hx => hbuf (.inr hx))

theorem finish_of_queue {l : List Request} (h : d.alm.queue = q :: l) (c : Nat) (b : Bytes) : d.finish c b = (d.reply q c b).served := by
  simp [Dev.finish, h]

/-- The end of a request changes no object but those that `Request.answerField` names. -/
theorem finish_obj {l : List Request} (hq : d.alm.queue = q :: l) (c : Nat) (b : Bytes) {i s : Nat} (u r : Nat) (hi : i < 65536) (hs : s < 256)
    (h : q.answerField i s = false) : (d.finish c b).obj i s u r = d.obj i s u r := by
  rw [finish_of_queue hq, ← reply_obj d q c b u r hi hs h]
  rfl

theorem finish_queue (h : d.alm.queue ≠ []) (c : Nat) (b : Bytes) : (d.finish c b).alm.queue = d.alm.queue.drop 1 :=
  congrArg AlmSt.queue (finish_alm d c b h)

end

section
variable {s : State} {t : Nat} {d : Dev} {q : Request}

/-! Reads. -/

/-- A READ that passes checks 1 to 4 is answered by `Dev.serveRead`. -/
theorem read_becomes (h : s.Tick t d) (hq : d.serves q = true) (hop : recOp q.bytes = 1) (lost : Bool) :
    Becomes (.read t [] lost) s ((d.countRequest q).serveRead [] lost q) := by
  refine becomes h (by unfold exec; rfl) rfl ?_
  exact serve_serves hq _ _ (by simp [hop])

variable {o : ObjRow} {u : Nat}

/-- A READ of one unit of this member gives the value as the type's bytes, when a reply of the service carries it. -/
theorem serveRead_one (hobj : d.objectCheck q.bytes false = 0) (hlen : lengthCheck q.bytes 0 = 0) (hrow : findRow (recIndex q.bytes) (recSub q.bytes) = some o)
    (hexact : exactPath o q.bytes = true) (hm : d.pathMembers q.bytes = [d.stackId]) (hu : addressedUnits o q.bytes = [u]) :
    d.serveRead [] false q = if q.room < o.ty.size then d.finish 0x404
      else d.finish 0 (beBytes o.ty.size (d.read (recIndex q.bytes) (recSub q.bytes) u (recRecord q.bytes))) := by
  simp [Dev.serveRead, hobj, hlen, hrow, hexact, hm, hu]

theorem serveRead_refused (hobj : d.objectCheck q.bytes false ≠ 0) : d.serveRead [] false q = d.finish (d.objectCheck q.bytes false) := by
  simp [Dev.serveRead, hobj]

/-- A READ whose load is lost is refused with S-0504 unless an earlier check refuses it. -/
theorem serveRead_lost : d.serveRead [] true q = d.finish (if d.objectCheck q.bytes false ≠ 0 then d.objectCheck q.bytes false
    else if lengthCheck q.bytes 0 ≠ 0 then lengthCheck q.bytes 0 else 0x504) := by
  unfold Dev.serveRead
  simp only
  split
  · rfl
  · split <;> rfl

theorem read_one (h : s.Tick t d) (hq : d.serves q = true) (hop : recOp q.bytes = 1) (hobj : d.objectCheck q.bytes false = 0)
    (hlen : lengthCheck q.bytes 0 = 0) (hrow : findRow (recIndex q.bytes) (recSub q.bytes) = some o) (hexact : exactPath o q.bytes = true)
    (hm : d.pathMembers q.bytes = [d.stackId]) (hu : addressedUnits o q.bytes = [u]) :
    Becomes (.read t [] false) s (if q.room < o.ty.size then (d.countRequest q).finish 0x404
      else (d.countRequest q).finish 0 (beBytes o.ty.size ((d.countRequest q).read (recIndex q.bytes) (recSub q.bytes) u (recRecord q.bytes)))) := by
  have hx := read_becomes h hq hop false
  rwa [serveRead_one ((countRequest_objectCheck ..).trans hobj) hlen hrow hexact (by simp [countRequest_pathMembers, hm]) hu] at hx

end

/-- Settles O12: refusals by `serve_refused`, reads by the cases of `Dev.serveRead`, what is left by `finish_obj`. -/
theorem refusalsAndReads : Obligations.RefusalsAndReads := by
  refine ⟨fun s t d q h hn hd hr hc => ?_, fun s t d q h hq hop => ⟨?_, ?_, ?_, ?_, ?_⟩⟩
  · have hx : ∀ {c : Instr} {test : Bytes → Bool} {f : Dev → Request → Dev}, exec c s = s.cmd t true (fun d => d.serve test f) → test q.bytes = true →
        Becomes c s ((d.countRequest q).finish (d.frontCheck q)) := fun e ht => becomes h e rfl (serve_refused hn hd hr hc _ ht)
    refine ⟨fun ht => hx (by unfold exec; rfl) ?_, fun hop hk => hx (by unfold exec; rfl) ?_, fun hop => hx (by unfold exec; rfl) ?_,
      fun hop => hx (by unfold exec; rfl) ?_, fun hop => hx (by unfold exec; rfl) ?_, fun hop => hx (by unfold exec; rfl) ?_⟩
    · simpa [Nat.lt_succ_iff] using ht
    · simp [hop, hk]
    all_goals simp [hop]
  · intro o u hobj hlen hrow hexact hm hu hroom
    have hx := read_one h hq hop hobj hlen hrow hexact hm hu
    rwa [if_neg (by omega)] at hx
  · intro o u hobj hlen hrow hexact hm hu hroom
    have hx := read_one h hq hop hobj hlen hrow hexact hm hu
    rwa [if_pos hroom] at hx
  · intro hobj
    have hx := read_becomes h hq hop false
    rwa [serveRead_refused (by rwa [countRequest_objectCheck]), countRequest_objectCheck] at hx
  · have hx := read_becomes h hq hop true
    rwa [serveRead_lost, countRequest_objectCheck] at hx
  · rintro x ⟨c, b, rfl⟩
    obtain ⟨l, hl⟩ := queue_of_nextRequest (nextRequest_of_serves hq)
    have hl' : (d.countRequest q).alm.queue = q :: l := by rw [countRequest_alm, hl]
    refine ⟨?_, fun i j u r hi hj hf hne => ?_⟩
    · rw [finish_queue (by rw [hl']; exact List.cons_ne_nil _ _), countRequest_alm]
    · rw [finish_obj hl' c b u r hi hj hf, countRequest_obj d q i j u r hi hj hne]

end Sys2Proof.Machine

/-! SUPPORT. Accepted writes of objects without a command of their own (R47): O13. -/
namespace Sys2Proof.Machine

section
variable {s : State} {t : Nat} {d : Dev} {q : Request} {o : ObjRow} {k : WriteKind} {u : Nat}

theorem serves_of_takesWrite (h : d.takesWrite q o k u = true) : d.serves q = true := by
  simp only [Dev.takesWrite, Bool.and_eq_true] at h
  exact h.1.1.1.1.1.1.1.1

theorem recOp_of_takesWrite (h : d.takesWrite q o k u = true) : recOp q.bytes = 2 := by
  simp only [Dev.takesWrite, Bool.and_eq_true, beq_iff_eq] at h
  exact h.1.1.1.1.1.1.1.2

theorem writeKind_of_takesWrite (h : d.takesWrite q o k u = true) : writeKind q.bytes = k := by
  simp only [Dev.takesWrite, Bool.and_eq_true, beq_iff_eq] at h
  exact h.1.1.1.1.1.1.2

theorem putRecord_stackId (d : Dev) (e : RecEntry) : (d.putRecord e).stackId = d.stackId := by
  unfold Dev.putRecord
  simp only
  split <;> rfl

theorem recordWrite_stackId (d : Dev) (o : ObjRow) (b : Bytes) (ms : List Nat) (n : Nat) : (d.recordWrite o b ms n).stackId = d.stackId := by
  unfold Dev.recordWrite
  split
  · rfl
  · exact foldl_stackId d _ (fun d m => foldl_stackId d _ (fun d u => putRecord_stackId d _) _) _

theorem recordWrite_obj (d : Dev) (o : ObjRow) (b : Bytes) (ms : List Nat) (n i s u r : Nat) : (d.recordWrite o b ms n).obj i s u r = d.obj i s u r := by
  rw [Dev.obj, recordWrite_store, Dev.obj]

/-- The first objects that an accepted write sets: the stack write sequence number, and the one of this member. -/
theorem writeBase_seq (d : Dev) (q : Request) (o : ObjRow) :
    (d.writeBase q o).obj 0x9400 0x07 = (d.obj 0x9400 0x07 + 1) % 2 ^ 32 ∧ (d.writeBase q o).obj 0x9401 0x04 0 d.stackId = (d.obj 0x9400 0x07 + 1) % 2 ^ 32 := by
  have hcount : (d.countRequest q).obj 0x9400 0x07 = d.obj 0x9400 0x07 := countRequest_obj d q _ _ _ _ (by omega) (by omega) (by omega)
  have hsent : ∀ (e : Dev) (l : List Nat) (f : Nat → Out) (i s u r : Nat), i < 65536 → s < 256 → sentField i s = false →
      (l.foldl (fun e m => e.sendTo m (f m)) e).obj i s u r = e.obj i s u r :=
    fun e l f i s u r hi hs hf => (sent_foldl e _ (fun e m => sent_sendTo e m (f m)) l).obj i s u r hi hs hf
  unfold Dev.writeBase
  simp only [Dev.almUpd_obj, recordWrite_stackId, Dev.set_stackId, countRequest_stackId]
  rw [hsent _ _ _ _ _ _ _ (by omega) (by omega) rfl, hsent _ _ _ _ _ _ _ (by omega) (by omega) rfl,
    obj_set_field _ (by omega) (by omega) (by omega) (by omega) (by omega), recordWrite_obj, obj_set_same, obj_set_same, hcount]
  exact ⟨rfl, rfl⟩

/-- An accepted write without a command of its own completes with the effect of its object. -/
theorem write_plain (h : s.Tick t d) (hw : d.takesWrite q o .plain u = true) (h1 : recIndex q.bytes ≠ 0x1040) (h2 : recIndex q.bytes ≠ 0x1020)
    (h4 : ¬ (recIndex q.bytes = 0xA000 ∧ recSub q.bytes = 0x01)) :
    Completes (.write t false) s (d.Wrote q o fun y => y.apply (recIndex q.bytes) (recSub q.bytes) u q.record q.value) := by
  have h3 : ¬ (recIndex q.bytes = 0xB810 ∧ recSub q.bytes = 0x0B) := by
    rintro ⟨hi, hs⟩
    have hk := writeKind_of_takesWrite hw
    unfold writeKind at hk
    rw [hi, hs] at hk
    exact WriteKind.noConfusion hk
  exact wrote h hw (by unfold exec; rfl) _ _ rfl rfl h1 h2 h3 h4 rfl

/-- A plain write whose effect is to store the value. -/
theorem write_stores (h : s.Tick t d) (hw : d.takesWrite q o .plain u = true) {i : Nat} (hi : recIndex q.bytes = i) (h1 : i ≠ 0x1040) (h2 : i ≠ 0x1020)
    (h4 : i ≠ 0xA000) {f : Dev → Dev} (hf : ∀ y : Dev, y.apply i (recSub q.bytes) u q.record q.value = f y) :
    Completes (.write t false) s (d.Wrote q o f) := by
  subst hi
  have hx := write_plain h hw h1 h2 (fun h => h4 h.1)
  rwa [funext hf] at hx

theorem write_lost (h : s.Tick t d) (hw : d.takesWrite q o .plain u = true) : Becomes (.write t true) s ((d.countRequest q).finish 0x504) := by
  refine becomes h (by unfold exec; rfl) rfl ?_
  exact serve_serves (serves_of_takesWrite hw) _ _ (by simp [recOp_of_takesWrite hw, writeKind_of_takesWrite hw])

end

/-- Settles O13: `write_effect` gives the effect of the object, which the areas of 1011, 9020 and 2010 make a store. -/
theorem plainWrites : Obligations.PlainWrites := by
  intro s t d q o u h hw
  obtain ⟨hseq, hown⟩ := writeBase_seq d q o
  refine ⟨write_lost h hw, write_plain h hw, fun hi => ?_, fun hi => ?_, fun hi hs => ?_, fun i j w r hi hj h1 h7 h4 hf => ?_, hseq, hown⟩
  · exact write_stores h hw hi (by omega) (by omega) (by omega) fun y => by simp [Dev.apply, Dev.ownApply]
  · exact write_stores h hw hi (by omega) (by omega) (by omega) fun y => by simp [Dev.apply, Dev.fifoApply]
  · exact write_stores h hw hi (by omega) (by omega) (by omega) fun y => by simp [Dev.apply, Dev.fabApply, hs]
  · exact writeBase_obj d q o i j w r hi hj h1 ⟨h7, h4⟩ hf

end Sys2Proof.Machine

/-! SUPPORT. Ownership: what its messages leave, the owner's requests, claims, and the end of window and lease (R44, R55 to R63): O14, O15. -/
namespace Sys2Proof.Machine

/-! Messages. -/

/-- What messages of the server leave: every object but those of the CAN service's buffer and of a packet number, and the server but for the replies that wait. -/
structure Dev.Told (d e : Dev) : Prop where
  obj : ∀ i s u r, i < 65536 → s < 256 → i ≠ 0x6020 → i ≠ 0x6030 → sentField i s = false → e.obj i s u r = d.obj i s u r
  alm : e.alm.kept = d.alm.kept

theorem Dev.Told.refl (d : Dev) : d.Told d := ⟨fun _ _ _ _ _ _ _ _ _ => rfl, rfl⟩

theorem Dev.Told.trans {d e f : Dev} (h : d.Told e) (g : e.Told f) : d.Told f :=
  ⟨fun i s u r hi hs h1 h2 hf => (g.obj i s u r hi hs h1 h2 hf).trans (h.obj i s u r hi hs h1 h2 hf), g.alm.trans h.alm⟩

theorem Dev.Told.leaseEnd {d e : Dev} (h : d.Told e) : e.alm.leaseEnd = d.alm.leaseEnd := (congrArg AlmSt.leaseEnd h.alm :)
theorem Dev.Told.windowEnd {d e : Dev} (h : d.Told e) : e.alm.windowEnd = d.alm.windowEnd := (congrArg AlmSt.windowEnd h.alm :)
theorem Dev.Told.participants {d e : Dev} (h : d.Told e) : e.alm.participants = d.alm.participants := (congrArg AlmSt.participants h.alm :)
theorem Dev.Told.queue {d e : Dev} (h : d.Told e) : e.alm.queue = d.alm.queue := (congrArg AlmSt.queue h.alm :)

section
variable (d : Dev)

theorem Dev.Sent.alm {d e : Dev} (h : d.Sent e) : e.alm = d.alm := (congrArg Dev.alm h.rest :)

theorem Dev.Sent.told {d e : Dev} (h : d.Sent e) : d.Told e :=
  ⟨fun i s u r hi hs _ _ hf => h.obj i s u r hi hs hf, (congrArg (fun x : Dev => x.alm.kept) h.rest :)⟩

theorem told_foldl {α : Type} (f : Dev → α → Dev) (h : ∀ (d : Dev) a, d.Told (f d a)) (l : List α) : d.Told (l.foldl f d) := by
  induction l generalizing d with
  | nil => exact Dev.Told.refl d
  | cons a l ih => exact (h d a).trans (ih _)

theorem told_sendRecord (o : Option Nat) (v : Service) (a : Source) (n : Bool) (b : Bytes) : d.Told (d.sendRecord o v a n b) := by
  refine ⟨fun i s u r hi hs h1 h2 hf => ?_, sendRecord_alm d o v a n b⟩
  cases o with
  | some m => exact (sent_sendTo d m (.forwardedReply m v a b)).obj i s u r hi hs hf
  | none => exact (answered_sendRecord d none v a n b rfl).obj i s u r hi hs h1 h2

theorem told_reply (q : Request) (c : Nat) (b : Bytes) : d.Told (d.reply q c b) := told_foldl d _ (fun d _ => told_sendRecord d _ _ _ _ _) _

theorem sent_tellOwnership : d.Sent d.tellOwnership := by
  unfold Dev.tellOwnership
  split
  · exact sent_foldl d _ (fun d m => sent_sendTo d m _) _
  · exact Dev.Sent.refl d

theorem told_tellOwnership : d.Told d.tellOwnership := (sent_tellOwnership d).told

@[simp] theorem tellOwnership_alm : d.tellOwnership.alm = d.alm := (sent_tellOwnership d).alm

theorem told_notify (r : Nat) (via : Option (Service × Option Nat)) : d.Told (d.notify r via) := by
  have hfree : d.Told { d.signal 1 with freeCount := d.freeCount + 1 } := ⟨fun _ _ _ _ _ _ _ _ _ => rfl, rfl⟩
  unfold Dev.notify
  simp only
  split
  · exact hfree.trans (told_sendRecord _ _ _ _ _ _)
  · exact hfree.trans (told_sendRecord _ _ _ _ _ _)
  · exact hfree.trans (told_sendRecord _ _ _ _ _ _)
  · exact hfree

/-- The end of a request leaves every object as a message does. -/
theorem finish_told_obj (c : Nat) (b : Bytes) {i s : Nat} (u r : Nat) (hi : i < 65536) (hs : s < 256) (h1 : i ≠ 0x6020) (h2 : i ≠ 0x6030)
    (hf : sentField i s = false) : (d.finish c b).obj i s u r = d.obj i s u r := by
  unfold Dev.finish
  split
  · exact (told_reply d _ c b).obj i s u r hi hs h1 h2 hf
  · rfl

end

/-! Gates. -/

section
variable (d : Dev)

@[simp] theorem closeWindow_alm : d.closeWindow.alm = d.alm := by
  unfold Dev.closeWindow
  split <;> rfl

@[simp] theorem discardStaging_alm : d.discardStaging.alm = d.alm := by
  unfold Dev.discardStaging
  split <;> rfl

theorem closeWindow_obj {i s : Nat} (u r : Nat) (hi : i < 65536) (hs : s < 256) (h : i ≠ 0xC030) : d.closeWindow.obj i s u r = d.obj i s u r := by
  unfold Dev.closeWindow
  split
  · rw [obj_set_field _ (by omega) (by omega) hs hi (by omega)]
    rfl
  · rfl

theorem discardStaging_obj {i s : Nat} (u r : Nat) (hi : i < 65536) (hs : s < 256) (h : i ≠ 0xB020) :
    d.discardStaging.obj i s u r = d.obj i s u r := by
  unfold Dev.discardStaging
  split
  · rfl
  · rw [obj_set_field _ (by omega) (by omega) hs hi (by omega), obj_set_field _ (by omega) (by omega) hs hi (by omega)]
    rfl

/-- The gates of a list of areas are cleared. -/
def Dev.gatesClosed (d : Dev) (l : List Nat) : Dev := l.foldl (fun d k => d.set 0x1020 (k + 1) 0) d

@[simp] theorem gatesClosed_alm (l : List Nat) : (d.gatesClosed l).alm = d.alm := by
  induction l generalizing d with
  | nil => rfl
  | cons k l ih => exact ih _

theorem gatesClosed_obj (l : List Nat) (hl : ∀ k ∈ l, k < 13) {i s : Nat} (u r : Nat) (hi : i < 65536) (hs : s < 256) (h : i ≠ 0x1020) :
    (d.gatesClosed l).obj i s u r = d.obj i s u r := by
  induction l generalizing d with
  | nil => rfl
  | cons k l ih =>
    have hk : k < 13 := hl k List.mem_cons_self
    rw [Dev.gatesClosed, List.foldl_cons]
    exact (ih _ fun a ha => hl a (List.mem_cons_of_mem k ha)).trans (obj_set_field d (by omega) (by omega) hs hi (by omega))

/-- Every gate of the list is clear, and a gate that was clear stays so. -/
theorem gatesClosed_gate (l : List Nat) (hl : ∀ k ∈ l, k < 13) {k : Nat} (hk : k < 13) (h : k ∈ l ∨ d.obj 0x1020 (k + 1) = 0) :
    (d.gatesClosed l).obj 0x1020 (k + 1) = 0 := by
  induction l generalizing d with
  | nil => exact h.resolve_left List.not_mem_nil
  | cons a l ih =>
    have ha : a < 13 := hl a List.mem_cons_self
    refine ih (d.set 0x1020 (a + 1) 0) (fun b hb => hl b (List.mem_cons_of_mem a hb)) ?_
    by_cases hka : k = a
    · exact .inr (by rw [hka, obj_set_same])
    · rcases h with h | h
      · exact .inl ((List.mem_cons.mp h).resolve_left hka)
      · exact .inr (by rwa [obj_set_field d (by omega) (by omega) (by omega) (by omega) (by omega)])

theorem clearGates_eq : d.clearGates = (d.gatesClosed (List.range 13)).closeWindow.discardStaging := rfl

@[simp] theorem clearGates_alm : d.clearGates.alm = d.alm := by rw [clearGates_eq]; simp

theorem clearGates_gate {k : Nat} (hk : k < 13) : d.clearGates.obj 0x1020 (k + 1) = 0 := by
  rw [clearGates_eq, discardStaging_obj _ _ _ (by omega) (by omega) (by omega), closeWindow_obj _ _ _ (by omega) (by omega) (by omega)]
  exact gatesClosed_gate d _ (fun a ha => List.mem_range.mp ha) hk (.inl (List.mem_range.mpr hk))

theorem clearGates_obj {i s : Nat} (u r : Nat) (hi : i < 65536) (hs : s < 256) (h1 : i ≠ 0x1020) (h2 : i ≠ 0xC030) (h3 : i ≠ 0xB020) :
    d.clearGates.obj i s u r = d.obj i s u r := by
  rw [clearGates_eq, discardStaging_obj _ _ _ hi hs h3, closeWindow_obj _ _ _ hi hs h2, gatesClosed_obj _ _ (fun a ha => List.mem_range.mp ha) _ _ hi hs h1]

end

/-! Changes of owner. -/

section
variable (d : Dev)

theorem renewLease_told (q : Request) :
    (d.almUpd fun x => { x with leaseEnd := q.arrived + perS, via := some (q.svc, q.origin) }).Told (d.renewLease q) := told_tellOwnership _

/-- What the device holds of ownership after it has gone to record `r` with a lease from `a`. -/
theorem grant_owner (r a : Nat) (via : Option (Service × Option Nat)) :
    (d.grant r a via).obj 0x1011 0x01 = r ∧ (d.grant r a via).obj 0x1011 0x02 = (if d.obj 0x1010 0x01 0 r = 4 then 3 else 2) ∧
      (d.grant r a via).alm.leaseEnd = a + perS := by
  have h1 : (d.set 0x1011 0x01 r).obj 0x1010 0x01 0 r = d.obj 0x1010 0x01 0 r :=
    obj_set_field d (by omega) (by omega) (by omega) (by omega) (by omega)
  have hset : ∀ j < 256, j ≠ 8 → (d.grant r a via).obj 0x1011 j =
      ((d.set 0x1011 0x01 r).set 0x1011 0x02 (if d.obj 0x1010 0x01 0 r = 4 then 3 else 2)).obj 0x1011 j := by
    intro j hj h8
    simp only [Dev.grant, Dev.stackUpd_obj, Dev.almUpd_obj]
    rw [obj_set_field _ (by omega) (by omega) hj (by omega) (by omega), clearGates_obj _ _ _ (by omega) hj (by omega) (by omega) (by omega)]
  refine ⟨?_, ?_, rfl⟩
  · rw [hset _ (by omega) (by omega), obj_set_field _ (by omega) (by omega) (by omega) (by omega) (by omega), obj_set_same]
  · rw [hset _ (by omega) (by omega), obj_set_same]

theorem grant_obj (r a : Nat) (via : Option (Service × Option Nat)) {j : Nat} (hj : j < 256) (h : 3 ≤ j ∧ j ≠ 8) :
    (d.grant r a via).obj 0x1011 j = d.obj 0x1011 j := by
  simp only [Dev.grant, Dev.stackUpd_obj, Dev.almUpd_obj]
  rw [obj_set_field _ (by omega) (by omega) (by omega) (by omega) (by omega), clearGates_obj _ _ _ (by omega) (by omega) (by omega) (by omega) (by omega),
    obj_set_field _ (by omega) (by omega) (by omega) (by omega) (by omega), obj_set_field _ (by omega) (by omega) (by omega) (by omega) (by omega)]

theorem grant_gate (r a : Nat) (via : Option (Service × Option Nat)) {k : Nat} (hk : k < 13) : (d.grant r a via).obj 0x1020 (k + 1) = 0 := by
  simp only [Dev.grant, Dev.stackUpd_obj, Dev.almUpd_obj]
  rw [obj_set_field _ (by omega) (by omega) (by omega) (by omega) (by omega), clearGates_gate _ hk]

@[simp] theorem grant_participants (r a : Nat) (via : Option (Service × Option Nat)) : (d.grant r a via).alm.participants = d.alm.participants := by
  simp [Dev.grant]

/-- Nobody owns the device after a release or a lapse. -/
theorem unown_owner : d.unown.obj 0x1011 0x01 = 0xFFFF ∧ d.unown.obj 0x1011 0x02 = 0 := by
  refine ⟨?_, ?_⟩ <;>
  · simp only [Dev.unown, Dev.almUpd_obj]
    rw [obj_set_field _ (by omega) (by omega) (by omega) (by omega) (by omega), clearGates_obj _ _ _ (by omega) (by omega) (by omega) (by omega) (by omega)]
    simp (disch := omega) [obj_set_field]

theorem unown_obj {j : Nat} (hj : j < 256) (h : 3 ≤ j ∧ j ≠ 8) : d.unown.obj 0x1011 j = d.obj 0x1011 j := by
  simp only [Dev.unown, Dev.almUpd_obj]
  rw [obj_set_field _ (by omega) (by omega) (by omega) (by omega) (by omega), clearGates_obj _ _ _ (by omega) (by omega) (by omega) (by omega) (by omega),
    obj_set_field _ (by omega) (by omega) (by omega) (by omega) (by omega), obj_set_field _ (by omega) (by omega) (by omega) (by omega) (by omega)]

theorem unown_gate {k : Nat} (hk : k < 13) : d.unown.obj 0x1020 (k + 1) = 0 := by
  simp only [Dev.unown, Dev.almUpd_obj]
  rw [obj_set_field _ (by omega) (by omega) (by omega) (by omega) (by omega), clearGates_gate _ hk]

@[simp] theorem unown_queue : d.unown.alm.queue = d.alm.queue := by simp [Dev.unown]

end

/-! Candidates. -/

theorem countRequest_candidate (d : Dev) (q : Request) (src : Source) : (d.countRequest q).candidate src = d.candidate src := by
  have h : ∀ i, i ≠ 0x1041 → i < 65536 → ∀ s, s < 256 → ∀ r, (d.countRequest q).obj i s 0 r = d.obj i s 0 r :=
    fun i hi hb s hs r => countRequest_obj d q i s 0 r hb hs hi
  have hm : (d.countRequest q).matchesRecord src = d.matchesRecord src := by
    funext r
    cases src <;> simp only [Dev.matchesRecord, h 0x1010 (by omega) (by omega) 1 (by omega) r, h 0x1010 (by omega) (by omega) 3 (by omega) r,
      h 0x1010 (by omega) (by omega) 4 (by omega) r]
  unfold Dev.candidate
  rw [h 0x1011 (by omega) (by omega) 1 (by omega) 0, hm]

section
variable {s : State} {t : Nat} {d : Dev} {q : Request}

/-! The owner's requests. -/

theorem queue_of_serves (h : d.serves q = true) : d.alm.queue ≠ [] := by
  obtain ⟨l, hl⟩ := queue_of_nextRequest (nextRequest_of_serves h)
  simp [hl]

/-- The end of the request in service, seen from the device `e` on which messages alone have followed. -/
theorem finish_of_told {e x : Dev} (h : e.Told x) (hq : e.alm.queue ≠ []) (c : Nat) (b : Bytes) :
    (x.finish c b).alm.kept = ({ e.alm with queue := e.alm.queue.drop 1, waiting := false, stackWrite := none } : AlmSt).kept ∧
      ∀ i j u r, i < 65536 → j < 256 → i ≠ 0x6020 → i ≠ 0x6030 → sentField i j = false → (x.finish c b).obj i j u r = e.obj i j u r := by
  refine ⟨?_, fun i j u r hi hj h1 h2 hf => ?_⟩
  · rw [finish_alm x c b (by rwa [h.queue])]
    exact congrArg (fun a : AlmSt => { a with queue := a.queue.drop 1, waiting := false, stackWrite := none }) h.alm
  · rw [finish_told_obj x c b u r hi hj h1 h2 hf, h.obj i j u r hi hj h1 h2 hf]

theorem renew_completes (h : s.Tick t d) (hq : d.serves q = true) (hop : recOp q.bytes = 4) (hlen : lengthCheck q.bytes 0 = 0) :
    Completes (.renew t) s fun x => x.alm.leaseEnd = q.arrived + perS ∧ x.alm.queue = d.alm.queue.drop 1 ∧
      (∀ k, k < 256 → x.obj 0x1020 k = d.obj 0x1020 k) ∧ x.obj 0x1011 0x01 = d.obj 0x1011 0x01 := by
  refine completes h (by unfold exec; rfl) rfl ?_
  rw [serve_serves hq _ _ (by simp [hop])]
  simp only [Dev.serveRenew, hlen, ne_eq, not_true, if_false]
  obtain ⟨halm, hobj⟩ := finish_of_told (renewLease_told (d.countRequest q) q) (by simpa using queue_of_serves hq) 0 []
  refine ⟨by simpa [AlmSt.kept] using congrArg AlmSt.leaseEnd halm, (congrArg AlmSt.queue halm).trans (by simp [AlmSt.kept]), fun k hk => ?_, ?_⟩
  · rw [hobj _ _ _ _ (by omega) hk (by omega) (by omega) rfl, Dev.almUpd_obj, countRequest_obj d q _ _ _ _ (by omega) hk (by omega)]
  · rw [hobj _ _ _ _ (by omega) (by omega) (by omega) (by omega) rfl, Dev.almUpd_obj, countRequest_obj d q _ _ _ _ (by omega) (by omega) (by omega)]

theorem release_completes (h : s.Tick t d) (hq : d.serves q = true) (hop : recOp q.bytes = 5) (hlen : lengthCheck q.bytes 0 = 0) :
    Completes (.release t) s fun x => x.obj 0x1011 0x01 = 0xFFFF ∧ x.obj 0x1011 0x02 = 0 ∧ x.alm.queue = d.alm.queue.drop 1 ∧
      ∀ k, k < 13 → x.obj 0x1020 (k + 1) = 0 := by
  refine completes h (by unfold exec; rfl) rfl ?_
  rw [serve_serves hq _ _ (by simp [hop])]
  simp only [Dev.serveRelease, hlen, ne_eq, not_true, if_false]
  obtain ⟨halm, hobj⟩ := finish_of_told (told_tellOwnership (d.countRequest q).unown) (by simpa using queue_of_serves hq) 0 []
  obtain ⟨howner, hstate⟩ := unown_owner (d.countRequest q)
  refine ⟨?_, ?_, (congrArg AlmSt.queue halm).trans (by simp [AlmSt.kept]), fun k hk => ?_⟩
  · rw [hobj _ _ _ _ (by omega) (by omega) (by omega) (by omega) rfl, howner]
  · rw [hobj _ _ _ _ (by omega) (by omega) (by omega) (by omega) rfl, hstate]
  · rw [hobj _ _ _ _ (by omega) (by omega) (by omega) (by omega) rfl, unown_gate _ hk]

theorem handover_completes (h : s.Tick t d) (hq : d.serves q = true) (hop : recOp q.bytes = 6) (hlen : lengthCheck q.bytes 2 = 0) {r : Nat}
    (hr : beNat (recData q.bytes) = r) (h16 : r < 16) (h0 : d.obj 0x1010 0x01 0 r ≠ 0) (h4 : d.obj 0x1010 0x01 0 r ≠ 4) (hne : r ≠ d.obj 0x1011 0x01) :
    Completes (.handover t) s fun x => x.obj 0x1011 0x01 = r ∧ x.obj 0x1011 0x02 = 2 ∧ x.alm.leaseEnd = d.now + perS ∧
      x.obj 0x1011 0x06 = (d.obj 0x1011 0x06 + 1) % 2 ^ 32 ∧ ∀ k, k < 13 → x.obj 0x1020 (k + 1) = 0 := by
  refine completes h (by unfold exec; rfl) rfl ?_
  have hcls : (d.countRequest q).obj 0x1010 0x01 0 r = d.obj 0x1010 0x01 0 r := countRequest_obj d q _ _ _ _ (by omega) (by omega) (by omega)
  have hown : ∀ j < 256, (d.countRequest q).obj 0x1011 j = d.obj 0x1011 j := fun j hj => countRequest_obj d q _ _ _ _ (by omega) hj (by omega)
  have hnow : (d.countRequest q).now = d.now := by obtain ⟨i, j, hc⟩ := countRequest_eq d q; simp [hc]
  rw [serve_serves hq _ _ (by simp [hop])]
  simp only [Dev.serveHandover, hlen, ne_eq, not_true, if_false, hr, h16, if_true, hcls, h0, h4, or_self, hown 1 (by omega), hne, hnow]
  obtain ⟨hgo, hgs, hgl⟩ := grant_owner ((d.countRequest q).inc 0x1011 0x06) r d.now none
  have htold := (told_notify (((d.countRequest q).inc 0x1011 0x06).grant r d.now none) r none).trans (told_tellOwnership _)
  obtain ⟨halm, hobj⟩ := finish_of_told htold (by simpa [Dev.grant] using queue_of_serves hq) 0 []
  refine ⟨?_, ?_, by simpa [AlmSt.kept, hgl] using congrArg AlmSt.leaseEnd halm, ?_, fun k hk => ?_⟩
  · rw [hobj _ _ _ _ (by omega) (by omega) (by omega) (by omega) rfl, hgo]
  · rw [hobj _ _ _ _ (by omega) (by omega) (by omega) (by omega) rfl, hgs, obj_inc_field _ (by omega) (by omega) (by omega) (by omega) (by omega), hcls, if_neg h4]
  · rw [hobj _ _ _ _ (by omega) (by omega) (by omega) (by omega) rfl, grant_obj _ _ _ _ (by omega) (by omega), obj_inc_same, hown _ (by omega)]
  · rw [hobj _ _ _ _ (by omega) (by omega) (by omega) (by omega) rfl, grant_gate _ _ _ _ hk]

theorem handover_beyond (h : s.Tick t d) (hq : d.serves q = true) (hop : recOp q.bytes = 6) (hlen : lengthCheck q.bytes 2 = 0)
    (h16 : 16 ≤ beNat (recData q.bytes)) : Becomes (.handover t) s ((d.countRequest q).finish 0x302) := by
  refine becomes h (by unfold exec; rfl) rfl ?_
  rw [serve_serves hq _ _ (by simp [hop])]
  simp [Dev.serveHandover, hlen, Nat.not_lt.mpr h16]

/-! Claims of a host. -/

/-- A claim of a host that matches record `r` meets the state of ownership. -/
theorem claim_becomes (h : s.Tick t d) (hq : d.serves q = true) (hop : recOp q.bytes = 3) (hlen : lengthCheck q.bytes 0 = 0) {m : Nat} (hm : q.src = .host m) :
    Becomes (.claim t) s (match d.candidate (.host m) with
      | none => (d.countRequest q).refuseClaim 0x209
      | some r => (d.countRequest q).validClaim q r) := by
  refine becomes h (by unfold exec; rfl) rfl ?_
  rw [serve_serves hq _ _ (by simp [hop])]
  simp only [Dev.serveClaim, hm, if_true, hlen, ne_eq, not_true, if_false, countRequest_candidate] <;> rfl

theorem countRequest_state (d : Dev) (q : Request) : (d.countRequest q).obj 0x1011 0x02 = d.obj 0x1011 0x02 :=
  countRequest_obj d q _ _ _ _ (by omega) (by omega) (by omega)

/-- A claim of an unowned device opens the election window. -/
theorem validClaim_opens {r : Nat} (h0 : d.obj 0x1011 0x02 = 0) :
    let x := d.validClaim q r
    x.obj 0x1011 0x02 = 1 ∧ x.alm.windowEnd = q.arrived + d.obj 0x1011 0x41 * perMs ∧
      x.alm.participants = [{ record := r, arrived := q.arrived, claims := [q] }] ∧ x.alm.queue = d.alm.queue.drop 1 := by
  simp only [Dev.validClaim, h0]
  have htold := told_tellOwnership (((d.set 0x1011 0x02 1).almUpd fun x =>
    { x with windowEnd := q.arrived + d.obj 0x1011 0x41 * perMs, participants := [{ record := r, arrived := q.arrived, claims := [q] }] }).served)
  refine ⟨?_, ?_, ?_, ?_⟩
  · rw [htold.obj _ _ _ _ (by omega) (by omega) (by omega) (by omega) rfl]
    simp [Dev.served]
  · simp [Dev.served]
  · simp [Dev.served]
  · simp [Dev.served]

/-- A further claim of the window takes part. -/
theorem validClaim_joins {r : Nat} (h1 : d.obj 0x1011 0x02 = 1) (hr : ∀ p ∈ d.alm.participants, p.record ≠ r) :
    d.validClaim q r = d.almUpd fun x =>
      { x with participants := x.participants ++ [{ record := r, arrived := q.arrived, claims := [q] }], queue := x.queue.drop 1, waiting := false, stackWrite := none } := by
  have hany : d.alm.participants.any (fun p => p.record == r) = false := by simpa using hr
  simp only [Dev.validClaim, h1, hany]
  rfl

theorem validClaim_owned {r : Nat} (h2 : d.obj 0x1011 0x02 = 2) :
    d.validClaim q r = if d.obj 0x1011 0x01 = r then (d.renewLease q).finish 0 else d.refuseClaim 0x203 := by
  simp only [Dev.validClaim, h2]

end

/-- Settles O14: what messages leave by `Dev.Told`, changes of owner by `Dev.grant` and `Dev.unown`, claims by `Dev.validClaim`. -/
theorem ownerAndClaims : Obligations.OwnerAndClaims := by
  refine ⟨fun s t d q h hq => ⟨renew_completes h hq, release_completes h hq, ?_, ?_⟩, fun s t d q m h hq hop hlen hm => ⟨fun hc => ?_, fun r hc => ?_⟩⟩
  · exact fun hop hlen h16 h0 h4 hne => handover_completes h hq hop hlen rfl h16 h0 h4 hne
  · exact fun hop hlen h16 => handover_beyond h hq hop hlen h16
  · have hx := claim_becomes h hq hop hlen hm
    rwa [hc] at hx
  · have hx := claim_becomes h hq hop hlen hm
    rw [hc] at hx
    refine ⟨fun h0 => ?_, fun h1 hp => ?_, fun h2 ho => ?_, fun h2 ho => ?_⟩
    · refine hx.completes ?_
      have hv := validClaim_opens (q := q) (r := r) ((countRequest_state d q).trans h0)
      rwa [countRequest_alm, countRequest_obj d q 0x1011 0x41 _ _ (by omega) (by omega) (by omega)] at hv
    · simp only at hx
      rwa [validClaim_joins ((countRequest_state d q).trans h1) (by simpa using hp)] at hx
    · simp only at hx
      rwa [validClaim_owned ((countRequest_state d q).trans h2), countRequest_obj d q _ _ _ _ (by omega) (by omega) (by omega), if_pos ho] at hx
    · simp only at hx
      rwa [validClaim_owned ((countRequest_state d q).trans h2), countRequest_obj d q _ _ _ _ (by omega) (by omega) (by omega), if_neg ho] at hx

/-! The election. -/

/-- The election reads priorities alone. -/
theorem winner_congr {d e : Dev} (h : ∀ r, e.obj 0x1010 0x02 0 r = d.obj 0x1010 0x02 0 r) (l : List Participant) : e.winner l = d.winner l := by
  have hr : ∀ a b, e.outranks a b = d.outranks a b := fun a b => by simp only [Dev.outranks, h]
  induction l with
  | nil => rfl
  | cons a l ih => simp only [Dev.winner, ih, hr]

theorem winner_none {d : Dev} {l : List Participant} (h : d.winner l = none) : l = [] := by
  cases l with
  | nil => rfl
  | cons a l =>
    simp only [Dev.winner] at h
    split at h
    · simp at h
    · split at h <;> simp at h

/-- `w` is at least as good a participant as `p`. -/
def Dev.ranksBefore (d : Dev) (w p : Participant) : Prop :=
  d.obj 0x1010 0x02 0 p.record < d.obj 0x1010 0x02 0 w.record ∨
    (d.obj 0x1010 0x02 0 p.record = d.obj 0x1010 0x02 0 w.record ∧ (w.arrived < p.arrived ∨ (w.arrived = p.arrived ∧ w.record ≤ p.record)))

theorem ranksBefore_refl (d : Dev) (w : Participant) : d.ranksBefore w w := .inr ⟨rfl, .inr ⟨rfl, le_refl _⟩⟩

theorem ranksBefore_trans {d : Dev} {a b c : Participant} (h : d.ranksBefore a b) (g : d.ranksBefore b c) : d.ranksBefore a c := by
  unfold Dev.ranksBefore at h g ⊢
  omega

theorem ranksBefore_of_outranks {d : Dev} {a b : Participant} (h : d.outranks a b = true) : d.ranksBefore a b := by
  simp only [Dev.outranks, Bool.or_eq_true, Bool.and_eq_true, decide_eq_true_eq, beq_iff_eq] at h
  unfold Dev.ranksBefore
  omega

theorem ranksBefore_of_not_outranks {d : Dev} {a b : Participant} (h : ¬ d.outranks a b = true) : d.ranksBefore b a := by
  simp only [Dev.outranks, Bool.or_eq_true, Bool.and_eq_true, decide_eq_true_eq, beq_iff_eq] at h
  unfold Dev.ranksBefore
  omega

/-- The winner takes part, and ranks before every participant. -/
theorem winner_best (d : Dev) (l : List Participant) (w : Participant) (h : d.winner l = some w) : w ∈ l ∧ ∀ p ∈ l, d.ranksBefore w p := by
  induction l generalizing w with
  | nil => simp [Dev.winner] at h
  | cons a l ih =>
    simp only [Dev.winner] at h
    split at h
    · next hn =>
      obtain rfl := winner_none hn
      obtain rfl : a = w := by simpa using h
      simpa using ranksBefore_refl d a
    · next b hb =>
      obtain ⟨hmem, hbest⟩ := ih b hb
      split at h
      · next hab =>
        obtain rfl : a = w := by simpa using h
        exact ⟨List.mem_cons_self, List.forall_mem_cons.mpr ⟨ranksBefore_refl d a, fun p hp => ranksBefore_trans (ranksBefore_of_outranks hab) (hbest p hp)⟩⟩
      · next hab =>
        obtain rfl : b = w := by simpa using h
        exact ⟨List.mem_cons_of_mem a hmem, List.forall_mem_cons.mpr ⟨ranksBefore_of_not_outranks hab, hbest⟩⟩

/-! The end of window and lease. -/

section
variable {s : State} {t : Nat} {d : Dev}

/-- A claim that loses is counted in `A:1011.07`; nothing else of ownership changes with the answers. -/
theorem answerClaims_obj (w : Nat) (p : Participant) {i j : Nat} (u r : Nat) (hi : i < 65536) (hj : j < 256) (h1 : i ≠ 0x6020) (h2 : i ≠ 0x6030)
    (hf : sentField i j = false) (h3 : ¬ (i = 0x1011 ∧ j = 0x07)) (d : Dev) : (d.answerClaims w p).obj i j u r = d.obj i j u r := by
  unfold Dev.answerClaims
  induction p.claims generalizing d with
  | nil => rfl
  | cons q l ih =>
    rw [List.foldl_cons, ih]
    split
    · exact (told_reply d q 0 []).obj i j u r hi hj h1 h2 hf
    · rw [(told_reply _ q _ []).obj i j u r hi hj h1 h2 hf, obj_inc_field d (by omega) (by omega) hj hi h3]

theorem answerClaims_alm (w : Nat) (p : Participant) (d : Dev) : (d.answerClaims w p).alm.kept = d.alm.kept := by
  unfold Dev.answerClaims
  induction p.claims generalizing d with
  | nil => rfl
  | cons q l ih =>
    rw [List.foldl_cons, ih]
    split
    · exact (told_reply d q 0 []).alm
    · exact (told_reply _ q _ []).alm

theorem foldl_answerClaims (w : Nat) (l : List Participant) (d : Dev) :
    (l.foldl (fun d p => d.answerClaims w p) d).alm.kept = d.alm.kept ∧
      ∀ i j, i < 65536 → j < 256 → i ≠ 0x6020 → i ≠ 0x6030 → sentField i j = false → ¬ (i = 0x1011 ∧ j = 0x07) →
        (l.foldl (fun d p => d.answerClaims w p) d).obj i j = d.obj i j := by
  induction l generalizing d with
  | nil => exact ⟨rfl, fun _ _ _ _ _ _ _ _ => rfl⟩
  | cons p l ih =>
    obtain ⟨halm, hobj⟩ := ih (d.answerClaims w p)
    exact ⟨halm.trans (answerClaims_alm w p d), fun i j hi hj h1 h2 hf h3 =>
      (hobj i j hi hj h1 h2 hf h3).trans (answerClaims_obj w p 0 0 hi hj h1 h2 hf h3 d)⟩

/-- The election gives the device to its winner with a lease from the window's end. -/
theorem closeElection_winner {w : Participant} (hw : d.winner d.alm.participants = some w) :
    let x := d.closeElection
    x.obj 0x1011 0x01 = w.record ∧ x.obj 0x1011 0x02 = (if d.obj 0x1010 0x01 0 w.record = 4 then 3 else 2) ∧ x.alm.leaseEnd = d.alm.windowEnd + perS ∧
      x.alm.participants = [] ∧ x.obj 0x1011 0x04 = (d.obj 0x1011 0x04 + 1) % 2 ^ 32 ∧ ∀ k, k < 13 → x.obj 0x1020 (k + 1) = 0 := by
  let e := (d.inc 0x1011 0x04).almUpd fun x => { x with participants := [] }
  have hrec : ∀ j r, j < 256 → e.obj 0x1010 j 0 r = d.obj 0x1010 j 0 r :=
    fun j r hj => obj_inc_field d (by omega) (by omega) hj (by omega) (by omega)
  let via := w.claims.getLast?.map fun q => (q.svc, q.origin)
  let g := e.grant w.record d.alm.windowEnd via
  let a := d.alm.participants.foldl (fun d p => d.answerClaims w.record p) g
  have hx : d.closeElection = (a.notify w.record via).tellOwnership := by
    have hw' : e.winner d.alm.participants = some w := (winner_congr (fun r => hrec 2 r (by omega)) _).trans hw
    simp only [Dev.closeElection, show ((d.inc 0x1011 0x04).almUpd fun x => { x with participants := [] }) = e from rfl, hw']
    rfl
  obtain ⟨haalm, haobj⟩ := foldl_answerClaims w.record d.alm.participants g
  have htold := (told_notify a w.record via).trans (told_tellOwnership _)
  obtain ⟨hgo, hgs, hgl⟩ := grant_owner e w.record d.alm.windowEnd via
  have hobj : ∀ i j, i < 65536 → j < 256 → i ≠ 0x6020 → i ≠ 0x6030 → sentField i j = false → ¬ (i = 0x1011 ∧ j = 0x07) → d.closeElection.obj i j = g.obj i j :=
    fun i j hi hj h1 h2 hf h3 => by rw [hx, htold.obj i j _ _ hi hj h1 h2 hf, haobj i j hi hj h1 h2 hf h3]
  have halm : d.closeElection.alm.kept = g.alm.kept := by rw [hx, htold.alm, haalm]
  refine ⟨?_, ?_, ?_, ?_, ?_, fun k hk => ?_⟩
  · rw [hobj _ _ (by omega) (by omega) (by omega) (by omega) rfl (by omega), hgo]
  · rw [hobj _ _ (by omega) (by omega) (by omega) (by omega) rfl (by omega), hgs, hrec _ _ (by omega)]
  · have hl := congrArg AlmSt.leaseEnd halm
    simp only [AlmSt.kept] at hl
    rw [hl, hgl]
  · have hp := congrArg AlmSt.participants halm
    simp only [AlmSt.kept] at hp
    rw [hp]
    simp [g, e]
  · rw [hobj _ _ (by omega) (by omega) (by omega) (by omega) rfl (by omega), grant_obj _ _ _ _ (by omega) (by omega)]
    exact obj_inc_same d _ _ _ _ _
  · rw [hobj _ _ (by omega) (by omega) (by omega) (by omega) rfl (by omega), grant_gate _ _ _ _ hk]

/-- A lapse leaves the device unowned, is counted, and clears every gate. -/
theorem lapse_owner (d : Dev) :
    d.lapse.obj 0x1011 0x01 = 0xFFFF ∧ d.lapse.obj 0x1011 0x02 = 0 ∧ d.lapse.obj 0x1011 0x05 = (d.obj 0x1011 0x05 + 1) % 2 ^ 32 ∧
      ∀ k, k < 13 → d.lapse.obj 0x1020 (k + 1) = 0 := by
  obtain ⟨howner, hstate⟩ := unown_owner d
  have htold := (told_notify ((d.unown.inc 0x1011 0x05).event 7 none Ev.leaseLapse.code) (d.obj 0x1011 0x01) d.alm.via).trans (told_tellOwnership _)
  have hobj : ∀ i j, i < 65536 → j < 256 → i ≠ 0x6020 → i ≠ 0x6030 → sentField i j = false → d.lapse.obj i j = (d.unown.inc 0x1011 0x05).obj i j :=
    fun i j hi hj h1 h2 hf => htold.obj i j 0 0 hi hj h1 h2 hf
  refine ⟨?_, ?_, ?_, fun k hk => ?_⟩
  · rw [hobj _ _ (by omega) (by omega) (by omega) (by omega) rfl, obj_inc_field _ (by omega) (by omega) (by omega) (by omega) (by omega), howner]
  · rw [hobj _ _ (by omega) (by omega) (by omega) (by omega) rfl, obj_inc_field _ (by omega) (by omega) (by omega) (by omega) (by omega), hstate]
  · rw [hobj _ _ (by omega) (by omega) (by omega) (by omega) rfl, obj_inc_same, unown_obj _ (by omega) (by omega)]
  · rw [hobj _ _ (by omega) (by omega) (by omega) (by omega) rfl, obj_inc_field _ (by omega) (by omega) (by omega) (by omega) (by omega), unown_gate _ hk]

end

/-- Settles O15: the election by `Dev.winner`'s order, the lapse by `Dev.unown`. -/
theorem windowLeaseAndElection : Obligations.WindowLeaseAndElection := by
  refine ⟨fun s t d h ha hl hcp => ⟨fun w h1 hend hserved hw => ?_, fun hno => ?_, fun hlease h2 hend hserved => ?_, fun hno => ?_⟩, winner_best⟩
  · refine (becomes_timer h ha (by unfold exec; rfl) (by omega) (by omega) rfl ?_).completes (closeElection_winner hw)
    exact if_pos ⟨hl, hcp, h1, hend, hserved⟩
  · refine becomes_timer h ha (by unfold exec; rfl) (by omega) (by omega) rfl ?_
    exact if_neg fun ⟨_, _, h1, hend, _⟩ => hno.elim (fun hne => hne h1) (fun hlt => by omega)
  · refine (becomes_timer h ha (by unfold exec; rfl) (by omega) (by omega) rfl ?_).completes (lapse_owner d)
    exact if_pos ⟨hl, hcp, by simp [hlease], h2, hend, hserved⟩
  · refine becomes_timer h ha (by unfold exec; rfl) (by omega) (by omega) rfl ?_
    exact if_neg fun ⟨_, _, _, h2, hend, _⟩ => hno.elim (fun hne => hne h2) (fun hlt => by omega)

end Sys2Proof.Machine

/-! SUPPORT. Sync, Follow_Up and Announce at a slave port (R75 to R81): O16. -/
namespace Sys2Proof.Machine

/-- A fold whose every step leaves something of the device alone leaves it alone. -/
theorem foldl_leaves {α β : Type} (g : Dev → β) (f : Dev → α → Dev) (h : ∀ d a, g (f d a) = g d) (l : List α) (d : Dev) : g (l.foldl f d) = g d := by
  induction l generalizing d with
  | nil => rfl
  | cons a l ih => exact (ih _).trans (h d a)

@[simp] theorem sendPtp_store (d : Dev) (u : Nat) (m : PtpOut) (r : Option (Nat × Int)) : (d.sendPtp u m r).store = d.store := rfl

@[simp] theorem relayAnnounce_store (d : Dev) (k : Nat) (m : PtpMsg) : (d.relayAnnounce k m).store = d.store := by
  refine foldl_leaves Dev.store _ (fun d u => ?_) _ d
  split
  · exact sendPtp_store d u _ _
  · rfl

theorem relayAnnounce_obj (d : Dev) (k : Nat) (m : PtpMsg) (i s u r : Nat) : (d.relayAnnounce k m).obj i s u r = d.obj i s u r := by simp [Dev.obj]

section
variable {d : Dev} {b : Bool} {m : PtpMsg} {k : Nat}

theorem syncEffect_of_deaf (h : d.syncPort m.port = false) : d.syncEffect b m = d := by simp [Dev.syncEffect, h]

theorem followUpEffect_of_deaf (h : d.syncPort m.port = false) : d.followUpEffect b m = d := by simp [Dev.followUpEffect, h]

theorem syncEffect_of_noDomain (h : d.slaveDomains m = []) : d.syncEffect b m = d := by simp [Dev.syncEffect, h]

theorem followUpEffect_of_noDomain (h : d.slaveDomains m = []) : d.followUpEffect b m = d := by simp [Dev.followUpEffect, h]

/-- A two-step Sync waits with its stamps (R79). -/
theorem syncEffect_twoStep (hs : d.syncPort m.port = true) (hk : d.slaveDomains m = [k]) (hc : d.cpUp 2 = true) (h2 : m.twoStep = true) :
    d.syncEffect b m = d.setDom k { d.sex.dom k with
      syncAt := d.now, syncLog := m.log,
      held := some { seq := m.seq, port := m.port, dom := d.rxStamp m.port (d.sex.dom k).clk.val, zt := d.rxStamp m.port d.sex.zt.val,
                     lt := d.lt, corr := m.corr, log := m.log } } := by
  simp [Dev.syncEffect, hs, hk, hc, h2]

/-- A one-step Sync feeds the servo and is relayed (R77, R81). -/
theorem syncEffect_oneStep (hs : d.syncPort m.port = true) (hk : d.slaveDomains m = [k]) (hc : d.cpUp 2 = true) (h2 : m.twoStep = false) :
    d.syncEffect b m = ((d.setDom k { d.sex.dom k with syncAt := d.now, syncLog := m.log, held := none }).servo b k
      (d.rxStamp m.port (d.sex.dom k).clk.val) (d.rxStamp m.port d.sex.zt.val) (d.masterTime m.port m.origin m.corr)).relaySync k m
      (d.cameAt m.port d.lt) m.origin m.corr := by
  simp [Dev.syncEffect, hs, hk, hc, h2]

/-- A Follow_Up completes the Sync that waits for it (R79). -/
theorem followUpEffect_held (hs : d.syncPort m.port = true) (hk : d.slaveDomains m = [k]) (hc : d.cpUp 2 = true) {h : HeldSync}
    (hh : (d.sex.dom k).held = some h) (hq : h.seq = m.seq) (hp : h.port = m.port) :
    d.followUpEffect b m = ((d.setDom k { d.sex.dom k with held := none }).servo b k h.dom h.zt
      (d.masterTime m.port m.origin (h.corr + m.corr))).relaySync k m (d.cameAt m.port h.lt) m.origin (h.corr + m.corr) := by
  simp [Dev.followUpEffect, hs, hk, hc, hh, hq, hp]

theorem followUpEffect_none (hk : d.slaveDomains m = [k]) (hh : (d.sex.dom k).held = none) : d.followUpEffect b m = d := by
  unfold Dev.followUpEffect
  split
  · rfl
  · simp [hk, hh]

end

section
variable {s : State} {t : Nat} {d x : Dev} {m : PtpMsg} {k : Nat}

theorem syncReceived_becomes (h : s.Tick t d) (hp : m.port < unitCount) (hx : d.syncEffect (s.d1Locks d) m = x) : Becomes (.syncReceived t m) s x :=
  becomes h (by unfold exec; rfl) (decide_eq_true hp) hx

theorem followUpReceived_becomes (h : s.Tick t d) (hp : m.port < unitCount) (hx : d.followUpEffect (s.d1Locks d) m = x) :
    Becomes (.followUpReceived t m) s x :=
  becomes h (by unfold exec; rfl) (decide_eq_true hp) hx

/-- An Announce of the grandmaster that a LOCKED domain knows restarts the timeout and is relayed (R76, R77). -/
theorem announceReceived_known (h : s.Tick t d) (hp : m.port < unitCount) (hk : d.slaveDomains m = [k]) (hc : d.cpUp 2 = true)
    (hz : (maskUnits (d.obj 0x8010 0x03)).contains m.port = false) (hg : d.obj 0x8020 0x08 0 k = m.gm) (hst : d.domState k = 3) :
    Becomes (.announceReceived t m) s
      ((((d.setDom k { d.sex.dom k with annAt := d.now, annLog := m.log, gotAnn := true }).set 0x8020 0x14 (ofI32 m.utc) 0 k).set 0x8020 0x08
        m.gm 0 k).relayAnnounce k m) := by
  refine becomes h (by unfold exec; rfl) (decide_eq_true hp) ?_
  have hzone : ¬ (m.domain = d.obj 0x8010 0x02 ∧ (maskUnits (d.obj 0x8010 0x03)).contains m.port = true) := fun hm => Bool.false_ne_true (hz.symm.trans hm.2)
  have hgm : ((d.setDom k { d.sex.dom k with annAt := d.now, annLog := m.log, gotAnn := true }).set 0x8020 0x14 (ofI32 m.utc) 0 k).obj 0x8020 0x08 0 k = m.gm := by
    rw [obj_set_field _ (by omega) (by omega) (by omega) (by omega) (by omega)]
    simpa using hg
  have hlocked : d.obj 0x8020 0x05 0 k = 3 := hst
  simp only [hc, not_true, if_false, if_neg hzone, hk, List.foldl_cons, List.foldl_nil, hgm]
  simp (disch := omega) [Dev.domState, relayAnnounce_obj, obj_set_field, hlocked]

theorem announceReceived_down (h : s.Tick t d) (hp : m.port < unitCount) (hc : d.cpUp 2 = false) : Becomes (.announceReceived t m) s d := by
  refine becomes h (by unfold exec; rfl) (decide_eq_true hp) ?_
  simp [hc]

end

/-- Settles O16: each message by what it finds waiting on its port. -/
theorem timeMessagesAtASlavePort : Obligations.TimeMessagesAtASlavePort := by
  unfold Obligations.TimeMessagesAtASlavePort
  intro s t d m k h hp
  refine ⟨fun hd => ⟨syncReceived_becomes h hp (syncEffect_of_deaf hd), followUpReceived_becomes h hp (followUpEffect_of_deaf hd)⟩,
    fun hn => ⟨syncReceived_becomes h hp (syncEffect_of_noDomain hn), followUpReceived_becomes h hp (followUpEffect_of_noDomain hn)⟩,
    fun hs hk hc => ⟨fun h2 => syncReceived_becomes h hp (syncEffect_twoStep hs hk hc h2),
      fun h2 => syncReceived_becomes h hp (syncEffect_oneStep hs hk hc h2),
      fun x hx hq hport => followUpReceived_becomes h hp (followUpEffect_held hs hk hc hx hq hport),
      fun hn => followUpReceived_becomes h hp (followUpEffect_none hk hn)⟩,
    fun hk _ hc hz hg hst => announceReceived_known h hp hk hc hz hg hst, announceReceived_down h hp⟩

end Sys2Proof.Machine

/-! SUPPORT. The limit of the servo, and the timeouts of the domains and of zone time (R75, R76, R81 to R87): O17. -/
namespace Sys2Proof.Machine

/-! The servo (R81, R82). -/

theorem clampI_mem (v : Int) {m : Int} (h : 0 ≤ m) : -m ≤ clampI v m ∧ clampI v m ≤ m := by
  unfold clampI; omega

theorem servoRun_mem (kp ki : Nat) (integ term : Int) {rmax : Int} (h : 0 ≤ rmax) :
    -rmax ≤ (servoRun kp ki rmax integ term).1 ∧ (servoRun kp ki rmax integ term).1 ≤ rmax := by
  unfold servoRun
  simp only
  split
  · next hr => unfold absN at hr; simp only; omega
  · exact clampI_mem _ h

theorem servoSeed_mem (rate err : Int) {rmax : Int} (h : 0 ≤ rmax) :
    -rmax ≤ (servoSeed rmax rate err).1 ∧ (servoSeed rmax rate err).1 ≤ rmax := clampI_mem _ h

/-! Zone time. -/

section
variable (d : Dev)

theorem setZone_obj (v : Nat) {i j : Nat} (u r : Nat) (hi : i < 65536) (hj : j < 256) (h : i ≠ 0x8000) : (d.setZone v).obj i j u r = d.obj i j u r := by
  unfold Dev.setZone
  simp only
  rw [obj_set_field _ (by omega) (by omega) hj hi (by omega), obj_set_field _ (by omega) (by omega) hj hi (by omega), Dev.sexUpd_obj]

theorem setZone_state (v : Nat) : (d.setZone v).obj 0x8000 0x03 = v := by
  unfold Dev.setZone
  simp only
  rw [obj_set_field _ (by omega) (by omega) (by omega) (by omega) (by omega), obj_set_same]

theorem setZone_source (v : Nat) : (d.setZone v).obj 0x8000 0x04 = d.obj 0x8000 0x04 := by
  unfold Dev.setZone
  simp only
  rw [obj_set_field _ (by omega) (by omega) (by omega) (by omega) (by omega), obj_set_field _ (by omega) (by omega) (by omega) (by omega) (by omega),
    Dev.sexUpd_obj]

@[simp] theorem setZone_sex (v : Nat) : (d.setZone v).sex = { d.sex with stateAt := d.now } := rfl

theorem startBlend_obj (k : Nat) {i j : Nat} (u r : Nat) (hi : i < 65536) (hj : j < 256) (h1 : i ≠ 0x8000) (h2 : i ≠ 0x8030) :
    (d.startBlend k).obj i j u r = d.obj i j u r := by
  unfold Dev.startBlend
  simp only
  rw [obj_set_field _ (by omega) (by omega) hj hi (by omega), obj_inc_field _ (by omega) (by omega) hj hi (by omega), setZone_obj _ _ _ _ hi hj h1,
    Dev.sexUpd_obj]

theorem deadReckon_obj (v : Int) {i j : Nat} (u r : Nat) (hi : i < 65536) (hj : j < 256) (h1 : i ≠ 0x8000) (h2 : i ≠ 0x8030) :
    (d.deadReckon v).obj i j u r = d.obj i j u r := by
  unfold Dev.deadReckon
  simp only
  rw [obj_inc_field _ (by omega) (by omega) hj hi (by omega), setZone_obj _ _ _ _ hi hj h1, Dev.sexUpd_obj]

/-- The loss of a domain changes objects of zone time and of the changeover only. -/
theorem domainLost_obj (k : Nat) (b : Bool) {i j : Nat} (u r : Nat) (hi : i < 65536) (hj : j < 256) (h1 : i ≠ 0x8000) (h2 : i ≠ 0x8030) :
    (d.domainLost k b).obj i j u r = d.obj i j u r := by
  have hback : ((d.set 0x8030 0x05 ((d.obj 0x8030 0x05 + 2 ^ 32 - 1) % 2 ^ 32))).obj i j u r = d.obj i j u r :=
    obj_set_field _ (by omega) (by omega) hj hi (by omega)
  unfold Dev.domainLost
  simp only
  split
  · rfl
  · split
    · split
      · split
        · rw [deadReckon_obj _ _ _ _ hi hj h1 h2, obj_set_field _ (by omega) (by omega) hj hi (by omega), hback]
        · split
          · exact startBlend_obj d _ u r hi hj h1 h2
          · exact deadReckon_obj d _ u r hi hj h1 h2
      · rfl
    · split
      · split
        · exact startBlend_obj d _ u r hi hj h1 h2
        · exact deadReckon_obj d _ u r hi hj h1 h2
      · rfl

/-! Tracked domains. -/

theorem receiptTimeout_state (k : Nat) : (d.receiptTimeout k).obj 0x8020 0x05 0 k = 1 := by
  unfold Dev.receiptTimeout
  simp only
  rw [domainLost_obj _ _ _ _ _ (by omega) (by omega) (by omega) (by omega), Dev.setDom_obj]
  exact obj_set_same _ _ _ _ _ _

theorem receiptTimeout_count (k : Nat) : (d.receiptTimeout k).obj 0x8020 0x10 0 k = (d.obj 0x8020 0x10 0 k + 1) % 2 ^ 32 := by
  unfold Dev.receiptTimeout Dev.setDomState
  simp only
  rw [domainLost_obj _ _ _ _ _ (by omega) (by omega) (by omega) (by omega), Dev.setDom_obj, obj_set_field _ (by omega) (by omega) (by omega) (by omega) (by omega)]
  split
  · rw [obj_inc_field _ (by omega) (by omega) (by omega) (by omega) (by omega), obj_inc_same]
  · rw [obj_inc_same]

theorem startBlend_counts : (d.startBlend 0).obj 0x8030 0x05 = (d.obj 0x8030 0x05 + 1) % 2 ^ 32 := by
  unfold Dev.startBlend
  simp only
  rw [obj_set_field _ (by omega) (by omega) (by omega) (by omega) (by omega), obj_inc_same, setZone_obj _ _ _ _ (by omega) (by omega) (by omega), Dev.sexUpd_obj]

end

section
variable {s : State} {t k : Nat} {d : Dev}

theorem syncReceiptTimeout_becomes (h : s.Tick t d) (ha : s.Alone d) (hk : k < 2) {x : Dev}
    (hx : (if d.receiptDue k (d.sex.dom k).syncAt (d.obj 0x8020 0x09 0 k) (d.sex.dom k).syncLog then d.receiptTimeout k else d) = x) :
    Becomes (.syncReceiptTimeout t k) s x := by
  refine becomes_timer h ha (by unfold exec; rfl) (by omega) (by omega) (decide_eq_true hk) ?_
  exact hx

theorem announceReceiptTimeout_becomes (h : s.Tick t d) (ha : s.Alone d) (hk : k < 2) {x : Dev}
    (hx : (if d.receiptDue k (d.sex.dom k).annAt (d.obj 0x8020 0x0A 0 k) (d.sex.dom k).annLog then d.receiptTimeout k else d) = x) :
    Becomes (.announceReceiptTimeout t k) s x := by
  refine becomes_timer h ha (by unfold exec; rfl) (by omega) (by omega) (decide_eq_true hk) ?_
  exact hx

/-- A blend ends in TRACKING of its target (R85). -/
theorem blendEnd_tracks (h : s.Tick t d) {b : Blend} (hb : d.sex.blend = some b) (hf : b.frozen = none) (hdue : b.start + b.tb ≤ d.now) :
    Completes (.blendEnd t) s fun x =>
      x.sex.blend = none ∧ x.obj 0x8000 0x03 = b.target + 1 ∧ x.obj 0x8000 0x04 = b.target + 1 ∧ x.sex.zt = d.sex.zt ∧ x.sex.stateAt = d.now := by
  refine completes h (by unfold exec; rfl) rfl ?_
  simp only [hb, hf, Option.isNone_none, true_and, hdue, if_true, Dev.track]
  refine ⟨rfl, ?_, obj_set_same _ _ _ _ _ _, rfl, rfl⟩
  rw [obj_set_field _ (by omega) (by omega) (by omega) (by omega) (by omega), setZone_state]

theorem blendEnd_waits (h : s.Tick t d) {b : Blend} (hb : d.sex.blend = some b) (hw : b.frozen ≠ none ∨ d.now < b.start + b.tb) :
    Becomes (.blendEnd t) s d := by
  refine becomes h (by unfold exec; rfl) rfl ?_
  simp only [hb]
  refine if_neg fun ⟨hf, hdue⟩ => ?_
  rcases hw with hw | hw
  · exact hw (Option.isNone_iff_eq_none.mp hf)
  · omega

/-- The last line of Table 3.7: D1, LOCKED for the hold-off, is blended back to. -/
theorem revertHoldOffExpiry_blends (h : s.Tick t d) (ho : d.ownZone = true) (hz : d.obj 0x8000 0x03 = 2) (hr : d.flag 0x8030 0x03 = true)
    (hl : d.domState 0 = 3) (hc : d.cpUp 2 = true) (hdue : d.sex.d1.lockedAt + d.obj 0x8030 0x04 * perS ≤ d.now) :
    Completes (.revertHoldOffExpiry t) s fun x => x.obj 0x8000 0x03 = 3 ∧ x.obj 0x8030 0x05 = (d.obj 0x8030 0x05 + 1) % 2 ^ 32 ∧
      x.obj 0x8000 0x04 = d.obj 0x8000 0x04 ∧ x.sex.blend = some
        { start := d.now, r0 := d.sex.zt.rate, tb := d.obj 0x8030 0x01 * perMs, target := 0, shown := d.obj 0x8030 0x07, again := d.sex.blend.isSome } := by
  refine completes h (by unfold exec; rfl) rfl ?_
  simp only [ho, hz, hr, hl, hc, hdue, and_self, if_true]
  refine ⟨?_, startBlend_counts d, ?_, ?_⟩
  · unfold Dev.startBlend
    simp only
    rw [obj_set_field _ (by omega) (by omega) (by omega) (by omega) (by omega), obj_inc_field _ (by omega) (by omega) (by omega) (by omega) (by omega), setZone_state]
  · unfold Dev.startBlend
    simp only
    rw [obj_set_field _ (by omega) (by omega) (by omega) (by omega) (by omega), obj_inc_field _ (by omega) (by omega) (by omega) (by omega) (by omega), setZone_source,
      Dev.sexUpd_obj]
  · simp [Dev.startBlend, hc]

theorem holdoverLimitExpiry_passed (h : s.Tick t d) (ho : d.ownZone = true) (hz : d.obj 0x8000 0x03 = 4)
    (hdue : d.sex.stateAt + d.obj 0x8010 0x08 * perS < d.now) : Becomes (.holdoverLimitExpiry t) s (d.set 0x8000 0x0B 248) := by
  refine becomes h (by unfold exec; rfl) rfl ?_
  exact if_pos ⟨ho, hz, hdue⟩

theorem holdoverLimitExpiry_other (h : s.Tick t d) (hz : d.obj 0x8000 0x03 ≠ 4) : Becomes (.holdoverLimitExpiry t) s d := by
  refine becomes h (by unfold exec; rfl) rfl ?_
  exact if_neg fun hx => hz hx.2.1

end

/-- Settles O17: the clamp bounds the rate; each timeout acts when it is due. -/
theorem servoAndTimeouts : Obligations.ServoAndTimeouts := by
  unfold Obligations.ServoAndTimeouts
  refine ⟨fun kp ki rmax integ term rate err h => ⟨servoRun_mem kp ki integ term h, servoSeed_mem rate err h⟩, fun s t d k h ha hk => ?_⟩
  exact ⟨fun hd => syncReceiptTimeout_becomes h ha hk (if_pos hd), fun hd => syncReceiptTimeout_becomes h ha hk (if_neg (by simp [hd])),
    fun hd => announceReceiptTimeout_becomes h ha hk (if_pos hd), fun hd => announceReceiptTimeout_becomes h ha hk (if_neg (by simp [hd])),
    ⟨receiptTimeout_state d k, receiptTimeout_count d k⟩, fun b hb hf hdue => blendEnd_tracks h hb hf hdue, fun b hb hw => blendEnd_waits h hb hw,
    revertHoldOffExpiry_blends h, holdoverLimitExpiry_passed h, holdoverLimitExpiry_other h⟩

end Sys2Proof.Machine

/-! SUPPORT. Time messages that this device sends, and peer delay (R75, R78, R79): O18. -/
namespace Sys2Proof.Machine

section
variable (d : Dev)

@[simp] theorem pd_setPd_same (u : Nat) (p : PdelaySt) : (d.setPd u p).pd u = p := by simp [Dev.setPd, Dev.pd]

@[simp] theorem setPd_obj (u : Nat) (p : PdelaySt) (i j w r : Nat) : (d.setPd u p).obj i j w r = d.obj i j w r := rfl

@[simp] theorem pd_set (i j v w r u : Nat) : (d.set i j v w r).pd u = d.pd u := rfl

@[simp] theorem pd_inc (i j w r n u : Nat) : (d.inc i j w r n).pd u = d.pd u := rfl

/-- A lost response changes nothing of what a message says. -/
theorem pdMessage_lost (u k q o : Nat) : (d.inc 0x8040 0x0A u).pdMessage k q o = d.pdMessage k q o := by
  simp (disch := omega) only [Dev.pdMessage, Dev.zoneMessage, Dev.utcOffset, obj_inc_field, Dev.inc_sex]

/-- What a one-step Sync said is counted as it has left (R79). -/
theorem ptpSent_oneStep (u l : Nat) {m : PtpOut} (hk : m.kind = 0) (h1 : m.oneStep = true) :
    d.ptpSent u { msg := m, relay := none, stamp := l } = (d.out (.ptp m)).inc 0x8010 0x09 := by
  simp [Dev.ptpSent, hk, h1]

end

section
variable {s : State} {t u e : Nat} {d : Dev}

theorem zoneSyncInterval_sends (h : s.Tick t d) (hi : intervalDue d.sex.syncFrom (intervalsOf 1 (toI32 (d.obj 0x8010 0x06))) d.now = some e)
    (hon : d.flag 0x8010 0x01 = true) (hm : maskUnits (d.obj 0x8010 0x03) = [u]) (hp : d.syncPort u = true) (h1 : d.flag 0x8040 0x02 u = true) :
    Becomes (.zoneSyncInterval t) s ((d.sexUpd fun x => { x with syncSeq := (d.sex.syncSeq + 1) % 65536, syncFrom := e }).sendPtp u
      { d.zoneMessage 0 d.sex.syncSeq with oneStep := true } none) := by
  have hp' : (d.sexUpd fun x => { x with syncSeq := (d.sex.syncSeq + 1) % 65536, syncFrom := e }).syncPort u = true := hp
  refine becomes h (by unfold exec; rfl) rfl ?_
  simp only [hi, hon, Dev.sexUpd_obj, hm, List.foldl_cons, List.foldl_nil, not_true, if_false, hp', if_true, Dev.sendSync, Dev.sexUpd_flag, h1]
  rfl

theorem zoneSyncInterval_waits (h : s.Tick t d)
    (hw : intervalDue d.sex.syncFrom (intervalsOf 1 (toI32 (d.obj 0x8010 0x06))) d.now = none ∨ d.flag 0x8010 0x01 = false) :
    Becomes (.zoneSyncInterval t) s d := by
  refine becomes h (by unfold exec; rfl) rfl ?_
  split
  · rfl
  · next hi => simp [hi] at hw; simp [hw]

theorem announceInterval_sends (h : s.Tick t d) (hi : intervalDue d.sex.annFrom (intervalsOf 1 (toI32 (d.obj 0x8010 0x07))) d.now = some e)
    (hon : d.flag 0x8010 0x01 = true) (hc : d.cpUp 2 = true) (hm : maskUnits (d.obj 0x8010 0x03) = [u]) (hp : d.flag 0x8040 0x01 u = true) :
    Becomes (.announceInterval t) s ((d.sexUpd fun x => { x with annSeq := (d.sex.annSeq + 1) % 65536, annFrom := e }).sendPtp u
      (d.zoneMessage 2 d.sex.annSeq) none) := by
  refine becomes h (by unfold exec; rfl) rfl ?_
  simp only [hi, hon, hc, Dev.sexUpd_obj, hm, List.foldl_cons, List.foldl_nil, not_true, or_self, if_false, Dev.sexUpd_flag, hp, if_true]
  rfl

theorem announceInterval_waits (h : s.Tick t d)
    (hw : intervalDue d.sex.annFrom (intervalsOf 1 (toI32 (d.obj 0x8010 0x07))) d.now = none ∨ d.flag 0x8010 0x01 = false ∨ d.cpUp 2 = false) :
    Becomes (.announceInterval t) s d := by
  refine becomes h (by unfold exec; rfl) rfl ?_
  split
  · rfl
  · next hi =>
    simp only [hi, reduceCtorEq, false_or] at hw
    exact if_pos (by simpa using hw)

theorem pdelayComes_of_alone (ha : s.Alone d) : s.pdelayComes d u = false := by simp [State.pdelayComes, ha.tick]

/-- A Pdelay_Req at the interval; one still unanswered counts as a lost response (R78). -/
theorem pdelayInterval_sends (h : s.Tick t d) (hi : intervalDue (d.pd u).at_ (intervalsOf 1 (toI32 (d.obj 0x8040 0x06 u))) d.now = some e)
    (hn : s.pdelayComes d u = false) (hu : scopeHas .nesk u = true) (hon : d.flag 0x8040 0x01 u = true) (hc : d.cpUp 2 = true) :
    Becomes (.pdelayInterval t u) s (((if (d.pd u).waiting then d.inc 0x8040 0x0A u else d).setPd u
      { d.pd u with seq := ((d.pd u).seq + 1) % 65536, sentAt := none, last := none, waiting := true, at_ := e }).sendPtp u
      (d.pdMessage 3 (((d.pd u).seq + 1) % 65536) 0) none) := by
  refine becomes h (by unfold exec; rfl) hu ?_
  simp only [hi, hn, hon, hc, and_self, if_true, Bool.false_eq_true, not_false_eq_true, and_true, if_false]
  split
  · rw [pdMessage_lost]
  · rfl

/-- A response that comes in the tick of the next request is received and not lost (R11). -/
theorem pdelayInterval_keeps (h : s.Tick t d) (hi : intervalDue (d.pd u).at_ (intervalsOf 1 (toI32 (d.obj 0x8040 0x06 u))) d.now = some e)
    (hn : s.pdelayComes d u = true) (hu : scopeHas .nesk u = true) (hon : d.flag 0x8040 0x01 u = true) (hc : d.cpUp 2 = true) :
    Becomes (.pdelayInterval t u) s ((d.setPd u
      { d.pd u with seq := ((d.pd u).seq + 1) % 65536, sentAt := none, last := (d.pd u).sentAt.map (fun x => ((d.pd u).seq, x, d.now)), waiting := true, at_ := e }).sendPtp u
      (d.pdMessage 3 (((d.pd u).seq + 1) % 65536) 0) none) := by
  refine becomes h (by unfold exec; rfl) hu ?_
  simp only [hi, hn, hon, hc, and_self, if_true, not_true, and_false, if_false]

theorem pdelayInterval_waits (h : s.Tick t d) (hu : scopeHas .nesk u = true)
    (hw : intervalDue (d.pd u).at_ (intervalsOf 1 (toI32 (d.obj 0x8040 0x06 u))) d.now = none ∨ d.flag 0x8040 0x01 u = false ∨ d.cpUp 2 = false) :
    Becomes (.pdelayInterval t u) s d := by
  refine becomes h (by unfold exec; rfl) hu ?_
  simp only
  split
  · rfl
  · next hi =>
    simp only [hi, reduceCtorEq, false_or] at hw
    refine if_neg fun ⟨h1, h2⟩ => ?_
    rcases hw with hw | hw
    · exact Bool.false_ne_true (hw.symm.trans h1)
    · exact Bool.false_ne_true (hw.symm.trans h2)

theorem pdelayReqReceived_answers (h : s.Tick t d) (q : Nat) (hu : scopeHas .nesk u = true) (hon : d.flag 0x8040 0x01 u = true) (hc : d.cpUp 2 = true) :
    Becomes (.pdelayReqReceived t u q) s (d.sendPtp u (d.pdMessage 4 q (d.cameAt u d.lt).toNat) none) := by
  refine becomes h (by unfold exec; rfl) hu ?_
  exact if_pos ⟨hon, hc⟩

/-- The first response of a port: the delay is half of the round trip less the partner's turnaround (R78). -/
theorem pdelayRespReceived_first (h : s.Tick t d) {q t1 : Nat} (t2 t3 : Nat) (hu : scopeHas .nesk u = true) (hon : d.flag 0x8040 0x01 u = true)
    (hc : d.cpUp 2 = true) (hq : (d.pd u).seq = q) (hs : (d.pd u).sentAt = some t1) (hp : (d.pd u).prev = none) (hl : (d.pd u).last = none) :
    let trip : Int := (d.lt - t1 : Nat) * 800 - ((d.obj 0x8040 0x03 u : Int) + d.obj 0x8040 0x04 u)
    let delay := ((trip - ((t3 : Int) - t2)) / 2).toNat
    Completes (.pdelayRespReceived t u q t2 t3) s fun x => x.obj 0x8040 0x07 u = delay % 2 ^ 32 ∧ (x.pd u).sentAt = none ∧ (x.pd u).waiting = false ∧
      (x.pd u).prev = some (t3, d.lt) ∧ (x.pd u).good = (if delay < d.obj 0x8040 0x0E u then (d.pd u).good + 1 else 0) := by
  refine completes h (by unfold exec; rfl) hu ?_
  have hzero : ∀ x : Int, rdiv (x * 0) 1000000000000 = 0 := fun x => by rw [mul_zero]; decide
  simp only [hl, hq, hs, Option.isSome_some, and_self, if_true, hon, hc, hp, hzero, add_zero, Option.isSome_none, Bool.false_eq_true, if_false]
  simp (disch := omega) only [obj_set_field, obj_set_same, pd_set, pd_setPd_same, and_self]

/-- A response to the request before, in the tick of the next one, is received (R11). -/
theorem pdelayRespReceived_late (h : s.Tick t d) {q t1 : Nat} (t2 t3 : Nat) (hu : scopeHas .nesk u = true) (hon : d.flag 0x8040 0x01 u = true)
    (hc : d.cpUp 2 = true) (hq : (d.pd u).seq ≠ q) (hl : (d.pd u).last = some (q, t1, d.now)) :
    Completes (.pdelayRespReceived t u q t2 t3) s fun x => (x.pd u).sentAt = (d.pd u).sentAt ∧ (x.pd u).waiting = (d.pd u).waiting ∧
      (x.pd u).last = none ∧ (x.pd u).prev = some (t3, d.lt) := by
  refine completes h (by unfold exec; rfl) hu ?_
  simp only [hl, hq, false_and, if_false, and_self, if_true, hon, hc, Option.isSome_some, pd_set, pd_setPd_same]

theorem pdelayRespReceived_none (h : s.Tick t d) (q t2 t3 : Nat) (hu : scopeHas .nesk u = true) (hs : (d.pd u).sentAt = none) (hl : (d.pd u).last = none) :
    Becomes (.pdelayRespReceived t u q t2 t3) s d := by
  refine becomes h (by unfold exec; rfl) hu ?_
  simp [hs, hl]

end

/-- Settles O18: each interval and each message of the peer delay by its condition. -/
theorem messagesOfThisDevice : Obligations.MessagesOfThisDevice := by
  unfold Obligations.MessagesOfThisDevice
  intro s t d u h
  exact ⟨fun e => zoneSyncInterval_sends h, zoneSyncInterval_waits h, fun e => announceInterval_sends h, announceInterval_waits h,
    fun m l => ptpSent_oneStep d u l, fun e => pdelayInterval_sends h, fun e => pdelayInterval_keeps h, pdelayComes_of_alone, pdelayInterval_waits h,
    pdelayReqReceived_answers h, fun q t1 t2 t3 => pdelayRespReceived_first h t2 t3, fun q t1 t2 t3 => pdelayRespReceived_late h t2 t3,
    pdelayRespReceived_none h⟩

end Sys2Proof.Machine

/-! SUPPORT. The PPS pins, and the writes of the Sextant (R68, R76, R89 to R91): O19, O20. -/
namespace Sys2Proof.Machine

/-! What the base of a write keeps. -/

/-- The device but for its objects, its events, its messages, its server and its part in the stack. -/
def Dev.apart (d : Dev) : Dev := { d with store := [], ev := {}, outbox := [], bin := {}, alm := {}, stack := {} }

theorem Dev.Sent.apart {d e : Dev} (h : d.Sent e) : e.apart = d.apart :=
  (congrArg (fun x : Dev => ({ x with alm := {}, stack := {} } : Dev)) h.rest :)

theorem recordWrite_apart (d : Dev) (o : ObjRow) (b : Bytes) (ms : List Nat) (n : Nat) : (d.recordWrite o b ms n).apart = d.apart := by
  have hput : ∀ (d : Dev) e, (d.putRecord e).apart = d.apart := fun d e => by unfold Dev.putRecord; simp only; split <;> rfl
  unfold Dev.recordWrite
  split
  · rfl
  · exact foldl_leaves Dev.apart _ (fun d m => foldl_leaves Dev.apart _ (fun d u => hput d _) _ d) _ d

/-- The base of a write acts on objects, messages, the server and the stack alone. -/
theorem writeBase_apart (d : Dev) (q : Request) (o : ObjRow) : (d.writeBase q o).apart = d.apart := by
  obtain ⟨i, s, hcount⟩ := countRequest_eq d q
  unfold Dev.writeBase
  simp only [hcount]
  refine (foldl_leaves Dev.apart _ (fun d m => (sent_sendTo d m _).apart) _ _).trans ?_
  exact recordWrite_apart _ _ _ _ _

section
variable (d : Dev) (q : Request) (o : ObjRow)

@[simp] theorem writeBase_now : (d.writeBase q o).now = d.now := (congrArg Dev.now (writeBase_apart d q o) :)
@[simp] theorem writeBase_ltEpoch : (d.writeBase q o).ltEpoch = d.ltEpoch := (congrArg Dev.ltEpoch (writeBase_apart d q o) :)
@[simp] theorem writeBase_sex : (d.writeBase q o).sex = d.sex := (congrArg Dev.sex (writeBase_apart d q o) :)
@[simp] theorem writeBase_plot : (d.writeBase q o).plot = d.plot := (congrArg Dev.plot (writeBase_apart d q o) :)
@[simp] theorem writeBase_chart : (d.writeBase q o).chart = d.chart := (congrArg Dev.chart (writeBase_apart d q o) :)
@[simp] theorem writeBase_shape : (d.writeBase q o).shape = d.shape := (congrArg Dev.shape (writeBase_apart d q o) :)
@[simp] theorem writeBase_fab : (d.writeBase q o).fab = d.fab := (congrArg Dev.fab (writeBase_apart d q o) :)
@[simp] theorem writeBase_ports : (d.writeBase q o).ports = d.ports := (congrArg Dev.ports (writeBase_apart d q o) :)
@[simp] theorem writeBase_pow : (d.writeBase q o).pow = d.pow := (congrArg Dev.pow (writeBase_apart d q o) :)
@[simp] theorem writeBase_chans : (d.writeBase q o).chans = d.chans := (congrArg Dev.chans (writeBase_apart d q o) :)
@[simp] theorem writeBase_lins : (d.writeBase q o).lins = d.lins := (congrArg Dev.lins (writeBase_apart d q o) :)
@[simp] theorem writeBase_watch : (d.writeBase q o).watch = d.watch := (congrArg Dev.watch (writeBase_apart d q o) :)
@[simp] theorem writeBase_rose : (d.writeBase q o).rose = d.rose := (congrArg Dev.rose (writeBase_apart d q o) :)
@[simp] theorem writeBase_flash : (d.writeBase q o).flash = d.flash := (congrArg Dev.flash (writeBase_apart d q o) :)
@[simp] theorem writeBase_pairs : (d.writeBase q o).pairs = d.pairs := (congrArg Dev.pairs (writeBase_apart d q o) :)
@[simp] theorem writeBase_fifos : (d.writeBase q o).fifos = d.fifos := (congrArg Dev.fifos (writeBase_apart d q o) :)
@[simp] theorem writeBase_integ : (d.writeBase q o).integ = d.integ := (congrArg Dev.integ (writeBase_apart d q o) :)
@[simp] theorem writeBase_cpUp (k : Nat) : (d.writeBase q o).cpUp k = d.cpUp k := by simp [Dev.cpUp]

end

/-! PPS pins. -/

section
variable {s : State} {t : Nat} {d : Dev}

/-- An active edge captures the four counters of one moment (R91). -/
theorem ppsInEdge_captures (h : s.Tick t d) {r : Bool} (hon : d.flag 0x8051 0x01 = true) (hr : d.obj 0x8051 0x02 = 0 ↔ r = true)
    (hfar : ∀ e : Nat, d.sex.ppsIn = some e → perUs ≤ d.now - e) : Completes (.ppsInEdge t r) s fun x =>
      x.sex = { d.sex with ppsIn := some d.now } ∧ x.ltEpoch = d.ltEpoch ∧ x.now = d.now ∧
      x.obj 0x8051 0x04 = time96 (clk16 ((lt16 d.lt : Int) * 2 ^ 32 - ps48 (d.obj 0x8051 0x03))) ∧ x.obj 0x8051 0x05 = time96 (clk16 (d.sex.zt.val - ps48 (d.obj 0x8051 0x03))) ∧
      x.obj 0x8051 0x06 = time96 (clk16 (d.sex.d1.clk.val - ps48 (d.obj 0x8051 0x03))) ∧ x.obj 0x8051 0x07 = time96 (clk16 (d.sex.d2.clk.val - ps48 (d.obj 0x8051 0x03))) ∧
      x.obj 0x8051 0x08 = (d.obj 0x8051 0x08 + 1) % 2 ^ 32 ∧ x.obj 0x8051 0x09 = d.obj 0x8051 0x09 := by
  refine completes h (by unfold exec; rfl) rfl ?_
  rw [if_pos ⟨hon, hr⟩]
  dsimp only
  rw [if_neg ?_]
  · refine ⟨rfl, rfl, rfl, ?_, ?_, ?_, ?_, ?_, ?_⟩ <;> simp (disch := omega) [obj_set_field, obj_inc_field, Dev.lt]
  · split
    · next e he => simpa using hfar e he
    · exact Bool.false_ne_true

/-- An edge within a microsecond of the edge before is counted as too close. -/
theorem ppsInEdge_close (h : s.Tick t d) {r : Bool} (hon : d.flag 0x8051 0x01 = true) (hr : d.obj 0x8051 0x02 = 0 ↔ r = true) {e : Nat}
    (he : d.sex.ppsIn = some e) (hnear : d.now - e < perUs) :
    Becomes (.ppsInEdge t r) s ((d.sexUpd fun x => { x with ppsIn := some d.now }).inc 0x8051 0x09) := by
  refine becomes h (by unfold exec; rfl) rfl ?_
  simp [hon, hr, he, hnear]

theorem ppsInEdge_ignored (h : s.Tick t d) {r : Bool} (hw : d.flag 0x8051 0x01 = false ∨ ¬ (d.obj 0x8051 0x02 = 0 ↔ r = true)) :
    Becomes (.ppsInEdge t r) s d := by
  refine becomes h (by unfold exec; rfl) rfl ?_
  refine if_neg fun ⟨hon, hr⟩ => ?_
  rcases hw with hw | hw
  · exact Bool.false_ne_true (hw.symm.trans hon)
  · exact hw hr

/-- Settles O19: an active edge by its distance from the one before. -/
theorem ppsInput : Obligations.PpsInput := by
  unfold Obligations.PpsInput
  exact fun s t d r h => ⟨fun hon hr => ⟨ppsInEdge_captures h hon hr, fun e => ppsInEdge_close h hon hr⟩, ppsInEdge_ignored h⟩

variable {p : Nat}

theorem ppsOutEdge_pulses (h : s.Tick t d) (hp : p < 2) (hon : d.flag 0x8050 0x01 0 p = true) (hsec : d.sex.ppsSecond.getD p 0 < d.ppsSec p) :
    Becomes (.ppsOutEdge t p) s ((((d.sexUpd fun x => { x with
      ppsSecond := x.ppsSecond.set p (d.ppsSec p), ppsEnd := x.ppsEnd.set p (d.now + d.obj 0x8050 0x03 0 p * perUs),
      ppsActive := x.ppsActive.set p true }).out (.pps p (d.obj 0x8050 0x04 0 p == 0))).inc 0x8050 0x06 0 p)) := by
  refine becomes h (by unfold exec; rfl) (decide_eq_true hp) ?_
  simp only [hon, hsec, and_self, if_true, Dev.ppsDrive, Dev.sexUpd_sexUpd, Dev.sexUpd_sex, Dev.sexUpd_obj]
  rw [show (true == decide (d.obj 0x8050 0x04 0 p = 0)) = (d.obj 0x8050 0x04 0 p == 0) from Bool.true_beq _]
  rfl

theorem ppsOutEdge_off (h : s.Tick t d) (hp : p < 2) (hon : d.flag 0x8050 0x01 0 p = false) : Becomes (.ppsOutEdge t p) s d := by
  refine becomes h (by unfold exec; rfl) (decide_eq_true hp) ?_
  simp [hon]

theorem ppsOutPulseEnd_ends (h : s.Tick t d) (hp : p < 2) (ha : d.sex.ppsActive.getD p false = true) (he : d.sex.ppsEnd.getD p 0 ≤ d.now) :
    Becomes (.ppsOutPulseEnd t p) s ((d.sexUpd fun x => { x with ppsActive := x.ppsActive.set p false }).out (.pps p (d.obj 0x8050 0x04 0 p != 0))) := by
  refine becomes h (by unfold exec; rfl) (decide_eq_true hp) ?_
  simp only [ha, he, and_self, if_true, Dev.ppsDrive]
  rw [show (false == decide (d.obj 0x8050 0x04 0 p = 0)) = (d.obj 0x8050 0x04 0 p != 0) from Bool.false_beq _]
  rfl

theorem ppsOutPulseEnd_waits (h : s.Tick t d) (hp : p < 2) (he : d.now < d.sex.ppsEnd.getD p 0) : Becomes (.ppsOutPulseEnd t p) s d := by
  refine becomes h (by unfold exec; rfl) (decide_eq_true hp) ?_
  exact if_neg fun hx => by omega

/-! Writes of the Sextant. -/

variable {q : Request} {o : ObjRow}

theorem snapshot_wrote (h : s.Tick t d) (hw : d.takesWrite q o .snapshot 0 = true) (hi : recIndex q.bytes = 0x8000) (hj : recSub q.bytes = 0x05) (hv : q.value = 1) :
    Completes (.snapshot t) s (d.Wrote q o fun y => (((y.set 0x8000 0x06 d.ltTime).set 0x8000 0x07 d.ztTime).set 0x8000 0x08
      (time96 (clk16 d.sex.d1.clk.val))).set 0x8000 0x09 (time96 (clk16 d.sex.d2.clk.val))) := by
  refine wrote h hw (by unfold exec; rfl) _ _ hi hj (by omega) (by omega) (by omega) (by omega) ?_
  simp [Dev.apply, Dev.sexApply, hv, Dev.ltTime, Dev.ztTime, Dev.lt]

theorem domainEnable_enables (h : s.Tick t d) (hw : d.takesWrite q o .domainEnable 0 = true) (hi : recIndex q.bytes = 0x8020) (hj : recSub q.bytes = 0x01)
    (hv : q.value = 1) (h0 : d.domState q.record = 0) (hc : d.cpUp 2 = true) :
    Completes (.domainEnable t) s (d.Wrote q o fun y => (((y.set 0x8020 0x01 1 0 q.record).set 0x8020 0x08 0 0 q.record).set 0x8020 0x05 1 0 q.record).setDom q.record
        { y.sex.dom q.record with gotSync := false, gotAnn := false, held := none, seed := 0 }) := by
  refine wrote h hw (by unfold exec; rfl) _ _ hi hj (by omega) (by omega) (by omega) (by omega) ?_
  have h1 : ((d.writeBase q o).set 0x8020 0x01 1 0 q.record).domState q.record = 0 := by
    rw [Dev.domState, obj_set_field _ (by omega) (by omega) (by omega) (by omega) (by omega), writeBase_obj _ _ _ _ _ _ _ (by omega) (by omega) (by omega) (by omega)]
    exact h0
  simp [Dev.apply, Dev.sexApply, hv, hc, Dev.domainSet, h1]

theorem domainEnable_disables (h : s.Tick t d) (hw : d.takesWrite q o .domainEnable 0 = true) (hi : recIndex q.bytes = 0x8020) (hj : recSub q.bytes = 0x01)
    (hv : q.value = 0) (h0 : d.domState q.record ≠ 0) (hc : d.cpUp 2 = true) :
    Completes (.domainEnable t) s (d.Wrote q o fun y => ((y.set 0x8020 0x01 0 0 q.record).setDomState q.record 0).domainLost q.record) := by
  refine wrote h hw (by unfold exec; rfl) _ _ hi hj (by omega) (by omega) (by omega) (by omega) ?_
  have h1 : ((d.writeBase q o).set 0x8020 0x01 0 0 q.record).domState q.record ≠ 0 := by
    rw [Dev.domState, obj_set_field _ (by omega) (by omega) (by omega) (by omega) (by omega), writeBase_obj _ _ _ _ _ _ _ (by omega) (by omega) (by omega) (by omega)]
    exact h0
  simp [Dev.apply, Dev.sexApply, hv, hc, Dev.domainSet, h1]

/-- While CP2 restarts no domain changes its state (R89). -/
theorem domainEnable_stores (h : s.Tick t d) (hw : d.takesWrite q o .domainEnable 0 = true) (hi : recIndex q.bytes = 0x8020) (hj : recSub q.bytes = 0x01)
    (hc : d.cpUp 2 = false) : Completes (.domainEnable t) s (d.Wrote q o fun y => y.set 0x8020 0x01 q.value 0 q.record) := by
  refine wrote h hw (by unfold exec; rfl) _ _ hi hj (by omega) (by omega) (by omega) (by omega) ?_
  simp [Dev.apply, Dev.sexApply, hc]

end

/-- Settles O20: the pins by their counter, the writes by the object they name. -/
theorem ppsOutputsAndSextantWrites : Obligations.PpsOutputsAndSextantWrites := by
  unfold Obligations.PpsOutputsAndSextantWrites
  exact ⟨fun s t d p h hp => ⟨ppsOutEdge_pulses h hp, ppsOutEdge_off h hp, ppsOutPulseEnd_ends h hp, ppsOutPulseEnd_waits h hp⟩,
    fun s t d q o h => ⟨snapshot_wrote h, domainEnable_enables h, domainEnable_disables h, domainEnable_stores h⟩⟩

end Sys2Proof.Machine

/-! SUPPORT. The legs of the Plotter: firing, start and swap (R95, R96, R106, R107, R111, R112): O21. -/
namespace Sys2Proof.Machine

section
variable (d : Dev)

@[simp] theorem leg_setLeg_same (n : Nat) (l : LegSt) : (d.setLeg n l).leg n = l := by simp [Dev.setLeg, Dev.leg]
@[simp] theorem setLeg_setLeg (n : Nat) (l m : LegSt) : (d.setLeg n l).setLeg n m = d.setLeg n m := by simp [Dev.setLeg]
@[simp] theorem leg_set (i s v u r n : Nat) : (d.set i s v u r).leg n = d.leg n := rfl
@[simp] theorem leg_inc (i s u r k n : Nat) : (d.inc i s u r k).leg n = d.leg n := rfl

/-! An event of a leg (R112). -/

theorem legEvent_noUnit {n : Nat} (i : Nat) (h : d.legUnit n = none) : d.legEvent n i = d.inc 0x8420 0x0F 0 n := by simp [Dev.legEvent, h]

theorem legEvent_off {n u : Nat} (i : Nat) (h : d.legUnit n = some u) (hp : d.unitPowered u = false) : d.legEvent n i = d.inc 0x8420 0x11 0 n := by
  simp [Dev.legEvent, h, hp]

theorem legEvent_consumed {n u : Nat} (i : Nat) (h : d.legUnit n = some u) (hp : d.unitPowered u = true) :
    d.legEvent n i = (d.consume (d.obj 0x8420 0x03 0 n) u (d.legData n (d.legBank n) i)).inc 0x8420 0x0F 0 n := by
  simp [Dev.legEvent, h, hp]

theorem legCycleEnded_of_next {n : Nat} (h : (d.leg n).next < d.legCount n (d.legBank n)) : d.legCycleEnded n = false := by
  simp [Dev.legCycleEnded, h]

/-- The next cycle begins, with the other bank when a swap acts there. -/
theorem legWrap_swaps {n : Nat} (h : d.swapDue n = true) :
    d.legWrap n = (d.exchangeBanks n).setLeg n { d.leg n with
      armed := none, cyc := (d.leg n).cyc + d.legCycle n (d.legBank n), next := 0,
      adv := (d.leg n).advOf ((d.leg n).cyc + d.legCycle n (d.legBank n)),
      advs := (d.leg n).advs.filter (fun a => (d.leg n).cyc + d.legCycle n (d.legBank n) < a.1) } := by
  simp [Dev.legWrap, h, Dev.exchangeBanks]

theorem swapActs_of_unarmed {n : Nat} (x : Int) (h : (d.leg n).armed = none) : d.swapActs n x = false := by simp [Dev.swapActs, h]

end

section
variable {s : State} {t n : Nat} {d : Dev}

/-- An entry that is due fires, at most one in a tick (R95, R96). -/
theorem plotterEntryFire_fires (h : s.Tick t d) (hn : n < 16) (hs : d.legState n = 2 ∨ d.legState n = 4) (hc : (d.leg n).next < d.legCount n (d.legBank n))
    (hl : (d.leg n).lastTick ≠ some d.tick) (hp : (d.leg n).cyc + d.legOff n (d.legBank n) (d.leg n).next ≤ d.legTick n + (d.leg n).adv) :
    let late : Prop := (d.leg n).since + 1 < d.tick ∧
      (d.leg n).cyc + d.legOff n (d.legBank n) (d.leg n).next ≤ d.legAt n (d.tickStart - 10) + (d.leg n).adv
    let y := d.setLeg n { d.leg n with next := (d.leg n).next + 1, lastTick := some d.tick }
    (¬ late → Becomes (.plotterEntryFire t n) s (y.legEvent n (d.leg n).next)) ∧
      (late → Becomes (.plotterEntryFire t n) s ((y.inc 0x8420 0x10 0 n).legEvent n (d.leg n).next)) := by
  intro late y
  refine ⟨fun hlate => ?_, fun hlate => ?_⟩ <;> refine becomes h (by unfold exec; rfl) (decide_eq_true hn) ?_ <;>
    simp only [hs, if_true, Dev.legFire, legCycleEnded_of_next d hc, Bool.false_eq_true, if_false, hc, hp, hl, ne_eq, not_false_eq_true, and_self,
      ← Bool.decide_and, decide_eq_true_eq]
  · exact congrArg (fun x : Dev => x.legEvent n (d.leg n).next) (if_neg hlate)
  · exact congrArg (fun x : Dev => x.legEvent n (d.leg n).next) (if_pos hlate)

theorem plotterEntryFire_stopped (h : s.Tick t d) (hn : n < 16) (h2 : d.legState n ≠ 2) (h4 : d.legState n ≠ 4) :
    Becomes (.plotterEntryFire t n) s d := by
  refine becomes h (by unfold exec; rfl) (decide_eq_true hn) ?_
  exact if_neg fun hx => hx.elim h2 h4

theorem plotterEntryFire_waits (h : s.Tick t d) (hn : n < 16) (hc : (d.leg n).next < d.legCount n (d.legBank n))
    (hw : d.legTick n + (d.leg n).adv < (d.leg n).cyc + d.legOff n (d.legBank n) (d.leg n).next ∨ (d.leg n).lastTick = some d.tick) :
    Becomes (.plotterEntryFire t n) s d := by
  refine becomes h (by unfold exec; rfl) (decide_eq_true hn) ?_
  have hfire : d.legFire n = d := by
    simp only [Dev.legFire, legCycleEnded_of_next d hc, Bool.false_eq_true, if_false]
    refine if_neg fun ⟨_, hp, hl⟩ => ?_
    exact hw.elim (fun hx => by omega) hl
  simp only [hfire, ite_self]

/-- A leg starts at its first cycle boundary, the advance early (R106, R111). -/
theorem legStart_starts (h : s.Tick t d) (hn : n < 16) (h1 : d.legState n = 1)
    (hb : (d.leg n).startAt ≤ d.sourceTick (d.legSource n) + (if d.legSource n = 4 then 0 else d.obj 0x8420 0x41 0 n : Nat))
    (hp : d.legSource n ≠ 4 ∨ d.phaseSynced = true) (ha : (d.leg n).armed = none) :
    Becomes (.legStart t n) s ((d.setLegState n 2).setLeg n
      { d.leg n with cyc := (d.leg n).startAt, next := 0, adv := (if d.legSource n = 4 then 0 else d.obj 0x8420 0x41 0 n), advs := [] }) := by
  refine becomes h (by unfold exec; rfl) (decide_eq_true hn) ?_
  simp only [swapActs_of_unarmed d _ ha, Bool.false_eq_true, if_false]
  exact if_pos ⟨h1, hb, fun h4 => hp.resolve_left (not_not.mpr h4)⟩

theorem legStart_waits (h : s.Tick t d) (hn : n < 16)
    (hw : d.legState n ≠ 1 ∨ d.sourceTick (d.legSource n) + (if d.legSource n = 4 then 0 else d.obj 0x8420 0x41 0 n : Nat) < (d.leg n).startAt) :
    Becomes (.legStart t n) s d := by
  refine becomes h (by unfold exec; rfl) (decide_eq_true hn) ?_
  exact if_neg fun ⟨h1, hb, _⟩ => hw.elim (fun hx => hx h1) (fun hx => absurd hb (not_le.mpr hx))

/-- The banks exchange roles at the end of the cycle (R107). -/
theorem swapTakesEffect_swaps (h : s.Tick t d) (hn : n < 16) (hs : d.legState n = 2 ∨ d.legState n = 4) (hd : d.swapDue n = true)
    (he : d.legCycleEnded n = true) : Completes (.swapTakesEffect t n) s fun x =>
      x.obj 0x8420 0x0A 0 n = 1 - d.legBank n ∧ x.obj 0x8420 0x12 0 n = (d.obj 0x8420 0x12 0 n + 1) % 2 ^ 32 ∧
        (x.leg n).armed = none ∧ (x.leg n).next = 0 ∧ (x.leg n).cyc = (d.leg n).cyc + d.legCycle n (d.legBank n) ∧ x.obj 0x8420 0x0E 0 n = d.obj 0x8420 0x0E 0 n := by
  refine completes h (by unfold exec; rfl) (decide_eq_true hn) ?_
  rw [if_pos ⟨hs, hd, he⟩, legWrap_swaps d hd]
  simp (disch := omega) [Dev.exchangeBanks, obj_inc_field, obj_set_field]

theorem swapTakesEffect_waits (h : s.Tick t d) (hn : n < 16) (hw : d.swapDue n = false ∨ d.legCycleEnded n = false) :
    Becomes (.swapTakesEffect t n) s d := by
  refine becomes h (by unfold exec; rfl) (decide_eq_true hn) ?_
  refine if_neg fun ⟨_, hd, he⟩ => ?_
  rcases hw with hw | hw
  · exact Bool.false_ne_true (hw.symm.trans hd)
  · exact Bool.false_ne_true (hw.symm.trans he)

end

/-- Settles O21: a leg by its state, its next entry and its armed swap. -/
theorem plotterLegs : Obligations.PlotterLegs := by
  unfold Obligations.PlotterLegs
  refine ⟨fun s t d n h hn => ⟨plotterEntryFire_fires h hn, plotterEntryFire_stopped h hn, plotterEntryFire_waits h hn, fun i => legEvent_noUnit d i,
    fun i u => legEvent_off d i, fun i u => legEvent_consumed d i⟩, fun s t d n h hn => ?_⟩
  exact ⟨legStart_starts h hn, legStart_waits h hn, swapTakesEffect_swaps h hn, swapTakesEffect_waits h hn⟩

end Sys2Proof.Machine

/-! SUPPORT. The phase input, and the writes of the Plotter (R99 to R107): O22. -/
namespace Sys2Proof.Machine

/-- A timer of the CORE domain that expires alone in its tick completes with what its effect gives. -/
theorem completes_timer {s : State} {t : Nat} {d : Dev} {c : Instr} {ok : Bool} {aw : Dev → Instr → Bool} {f : Dev → Dev} {n : Nat} {p : Dev → Prop}
    (h : s.Tick t d) (ha : s.Alone d) (e : exec c s = s.timer t ok aw f n) (h1 : 0 < n) (h2 : n ≤ 1250) (hok : ok = true) (hp : p (f d)) : Completes c s p :=
  completes h (e.trans (timer_alone h ha ok aw f h1 h2)) hok hp

section
variable (d : Dev)

theorem virtNow_store : d.virtNow.store = d.store := by
  refine foldl_leaves Dev.store _ (fun d n => ?_) _ d
  simp only
  split <;> rfl

@[simp] theorem virtNow_obj (i s u r : Nat) : d.virtNow.obj i s u r = d.obj i s u r := by simp [Dev.obj, virtNow_store]

@[simp] theorem virtNow_phase : d.virtNow.plot.phase = d.plot.phase := by
  unfold Dev.virtNow
  refine foldl_leaves (fun d => d.plot.phase) _ (fun d n => ?_) _ d
  simp only
  split <;> rfl

/-- Without a virtual angle nothing goes on. -/
theorem virtNow_of_none (h : ∀ n, (d.leg n).virt = none) : d.virtNow = d :=
  List.foldl_fixed' (fun n => by simp [h n]) _

/-- The device in a phase input state, the angle kept, before its legs are told. -/
def Dev.phaseEntered (d : Dev) (v : Nat) (f : PhaseSt → PhaseSt) : Dev :=
  (d.virtNow.plotUpd fun x => { x with
    phase := f { d.plot.phase with held := d.phaseAngle, past := if d.phaseSynced then some d.angleRun else none } }).set 0x8410 0x08 v

@[simp] theorem phaseEntered_state (v : Nat) (f : PhaseSt → PhaseSt) : (d.phaseEntered v f).obj 0x8410 0x08 = v := obj_set_same _ _ _ _ _ _

theorem phaseEntered_obj (v : Nat) (f : PhaseSt → PhaseSt) {i s : Nat} (u r : Nat) (hi : i < 65536) (hs : s < 256) (h : ¬ (i = 0x8410 ∧ s = 0x08)) :
    (d.phaseEntered v f).obj i s u r = d.obj i s u r := by
  unfold Dev.phaseEntered
  rw [obj_set_field _ (by omega) (by omega) hs hi h, Dev.plotUpd_obj, virtNow_obj]

@[simp] theorem phaseEntered_phase (v : Nat) (f : PhaseSt → PhaseSt) : (d.phaseEntered v f).plot.phase =
    f { d.plot.phase with held := d.phaseAngle, past := if d.phaseSynced then some d.angleRun else none } := rfl

theorem phaseEntered_legs (v : Nat) (f : PhaseSt → PhaseSt) (h : ∀ n, (d.leg n).virt = none) : (d.phaseEntered v f).plot.legs = d.plot.legs := by
  simp [Dev.phaseEntered, virtNow_of_none d h]

theorem phaseEntered_synced (v : Nat) (f : PhaseSt → PhaseSt) : (d.phaseEntered v f).phaseSynced = (decide (v = 3) || decide (v = 4)) := by
  simp [Dev.phaseSynced]

/-- A loss or a return of the phase input is told to the legs. -/
theorem setPhaseState_eq (v : Nat) (f : PhaseSt → PhaseSt) : d.setPhaseState v f =
    if d.phaseSynced ∧ ¬ (d.phaseEntered v f).phaseSynced then (d.phaseEntered v f).phaseLost (d.sourceVal 4)
    else if ¬ d.phaseSynced ∧ (d.phaseEntered v f).phaseSynced then (d.phaseEntered v f).phaseReturn
    else d.phaseEntered v f := by
  unfold Dev.setPhaseState Dev.phaseEntered
  simp only [virtNow_phase]

/-- A state that is synced as the one before tells no leg. -/
theorem setPhaseState_steady {v : Nat} (f : PhaseSt → PhaseSt) (h : d.phaseSynced = (decide (v = 3) || decide (v = 4))) :
    d.setPhaseState v f = d.phaseEntered v f := by
  have hs := (phaseEntered_synced d v f).trans h.symm
  simp [setPhaseState_eq, hs]

/-- No leg of the phase input waits or has lost it. -/
def Dev.phaseLegsRun (d : Dev) : Prop := ∀ n : Nat, d.legSource n = 4 → d.legState n = 0 ∨ d.legState n = 2

theorem phaseReturn_of_run (h : d.phaseLegsRun) : d.phaseReturn = d := by
  refine List.foldl_fixed' (fun n => ?_) _
  by_cases h4 : d.legSource n = 4
  · rcases h n h4 with h0 | h0 <;> simp [h4, h0]
  · simp [h4]

/-- A state entered from one that is not synced, while no leg waits or has lost the input, tells no leg. -/
theorem setPhaseState_of_run {v : Nat} (f : PhaseSt → PhaseSt) (hs : d.phaseSynced = false) (h : d.phaseLegsRun) :
    d.setPhaseState v f = d.phaseEntered v f := by
  have hrun : (d.phaseEntered v f).phaseLegsRun := fun n hn => by
    unfold Dev.legSource at hn
    unfold Dev.legState
    rw [phaseEntered_obj _ _ _ _ _ (by omega) (by omega) (by omega)] at hn ⊢
    exact h n hn
  simp [setPhaseState_eq, hs, phaseReturn_of_run _ hrun]

end

section
variable {s : State} {t ns : Nat} {d : Dev} {r : Bool}

theorem toothEdge_completes (h : s.Tick t d) {p : Dev → Prop} (h0 : d.obj 0x8410 0x08 ≠ 0) (hr : d.obj 0x8410 0x04 = 0 ↔ r = true)
    (hl : d.obj 0x8410 0x41 < ns) (hp : p d.tooth) : Completes (.toothEdge t r ns) s p := by
  refine completes h (by unfold exec; rfl) rfl ?_
  have hedge : (decide (d.obj 0x8410 0x04 = 0) == r) = true := by cases r <;> simpa using hr
  have htaken : d.toothTaken r ns = true := by simp [Dev.toothTaken, hedge, hl, h0]
  exact (if_pos htaken).symm ▸ hp

theorem toothEdge_ignored (h : s.Tick t d) (hw : d.obj 0x8410 0x08 = 0 ∨ ¬ (d.obj 0x8410 0x04 = 0 ↔ r = true) ∨ ns ≤ d.obj 0x8410 0x41) :
    Becomes (.toothEdge t r ns) s d := by
  refine becomes h (by unfold exec; rfl) rfl ?_
  refine if_neg fun ht => ?_
  simp only [Dev.toothTaken, Bool.and_eq_true, decide_eq_true_eq, beq_iff_eq] at ht
  obtain ⟨⟨h0, hr⟩, hl⟩ := ht
  rcases hw with hw | hw | hw
  · exact h0 hw
  · exact hw (by rw [← hr]; simp)
  · omega

end

/-! One tooth (R100). -/

section
variable (d : Dev)

/-- The first tooth after standstill acquires, or synchronizes an input without missing teeth. -/
theorem tooth_first (h1 : d.obj 0x8410 0x08 = 1) (he : d.plot.phase.edge = none) :
    d.tooth = (d.inc 0x8410 0x0C).setPhaseState (if d.obj 0x8410 0x03 = 0 then 4 else 2) (fun q =>
      { q with edge := some d.now, interval := none, pos := 0 }) := by
  simp [Dev.tooth, h1, he]

/-- What a tooth sets of the interval since the edge at `e`. -/
def Dev.toothSpan (d : Dev) (e : Nat) : Dev :=
  ((d.inc 0x8410 0x0C).set 0x8410 0x0A ((d.now - e) * 4 / 5 % 2 ^ 32)).set 0x8410 0x0B ((d.inc 0x8410 0x0C).phaseSpeed ((d.now - e) * 4 / 5))

/-- A tooth of an input without missing teeth goes one position on, round the revolution. -/
theorem tooth_next {e : Nat} (h4 : d.obj 0x8410 0x08 = 4) (hm : d.obj 0x8410 0x03 = 0) (he : d.plot.phase.edge = some e) (hfar : 20 * perUs ≤ d.now - e) :
    d.tooth = (d.toothSpan e).setPhaseState 4 (fun q =>
      if q.pos + 1 = d.obj 0x8410 0x02 then { q with edge := some d.now, interval := some (d.now - e), base := d.now - e, pos := 0, rev := q.rev + 1 }
      else { q with edge := some d.now, interval := some (d.now - e), base := d.now - e, pos := q.pos + 1 }) := by
  simp [Dev.tooth, Dev.toothSpan, h4, hm, he, not_lt.mpr hfar]

theorem toothSpan_obj (e : Nat) {i s : Nat} (u r : Nat) (hi : i < 65536) (hs : s < 256) (h : i ≠ 0x8410 ∨ s ≠ 0x0A ∧ s ≠ 0x0B ∧ s ≠ 0x0C) :
    (d.toothSpan e).obj i s u r = d.obj i s u r := by
  unfold Dev.toothSpan
  rw [obj_set_field _ (by omega) (by omega) hs hi (by omega), obj_set_field _ (by omega) (by omega) hs hi (by omega),
    obj_inc_field _ (by omega) (by omega) hs hi (by omega)]

@[simp] theorem toothSpan_plot (e : Nat) : (d.toothSpan e).plot = d.plot := rfl

end

section
variable {s : State} {t ns e : Nat} {d : Dev} {r : Bool}

theorem toothEdge_acquires (h : s.Tick t d) (hr : d.obj 0x8410 0x04 = 0 ↔ r = true) (hl : d.obj 0x8410 0x41 < ns) (h1 : d.obj 0x8410 0x08 = 1)
    (he : d.plot.phase.edge = none) (hm : d.obj 0x8410 0x03 ≠ 0) : Completes (.toothEdge t r ns) s fun x =>
      x.obj 0x8410 0x08 = 2 ∧ x.obj 0x8410 0x0C = (d.obj 0x8410 0x0C + 1) % 2 ^ 32 ∧ x.plot.phase.edge = some d.now ∧ x.plot.phase.pos = 0 ∧ x.plot.phase.rev = d.plot.phase.rev := by
  refine toothEdge_completes h (by omega) hr hl ?_
  have hs : (d.inc 0x8410 0x0C).phaseSynced = false := by simp (disch := omega) [Dev.phaseSynced, obj_inc_field, h1]
  rw [tooth_first d h1 he, if_neg hm, setPhaseState_steady _ _ (by simp [hs])]
  refine ⟨phaseEntered_state _ _ _, ?_, rfl, rfl, rfl⟩
  rw [phaseEntered_obj _ _ _ _ _ (by omega) (by omega) (by omega), obj_inc_same]

theorem toothEdge_synchronizes (h : s.Tick t d) (hr : d.obj 0x8410 0x04 = 0 ↔ r = true) (hl : d.obj 0x8410 0x41 < ns) (h1 : d.obj 0x8410 0x08 = 1)
    (he : d.plot.phase.edge = none) (hm : d.obj 0x8410 0x03 = 0) (hrun : d.phaseLegsRun) : Completes (.toothEdge t r ns) s fun x =>
      x.obj 0x8410 0x08 = 4 ∧ x.obj 0x8410 0x0C = (d.obj 0x8410 0x0C + 1) % 2 ^ 32 ∧ x.plot.phase.edge = some d.now ∧ x.plot.phase.pos = 0 := by
  refine toothEdge_completes h (by omega) hr hl ?_
  have hs : (d.inc 0x8410 0x0C).phaseSynced = false := by simp (disch := omega) [Dev.phaseSynced, obj_inc_field, h1]
  have hrun' : (d.inc 0x8410 0x0C).phaseLegsRun := fun n hn => by
    unfold Dev.legSource at hn
    unfold Dev.legState
    rw [obj_inc_field _ (by omega) (by omega) (by omega) (by omega) (by omega)] at hn ⊢
    exact hrun n hn
  rw [tooth_first d h1 he, if_pos hm, setPhaseState_of_run _ _ hs hrun']
  refine ⟨phaseEntered_state _ _ _, ?_, rfl, rfl⟩
  rw [phaseEntered_obj _ _ _ _ _ (by omega) (by omega) (by omega), obj_inc_same]

/-- A tooth of a synchronized input without missing teeth leaves it synchronized, one position on. -/
theorem tooth_next_entered (h4 : d.obj 0x8410 0x08 = 4) (hm : d.obj 0x8410 0x03 = 0) (he : d.plot.phase.edge = some e) (hfar : 20 * perUs ≤ d.now - e) :
    d.tooth = (d.toothSpan e).phaseEntered 4 (fun q =>
      if q.pos + 1 = d.obj 0x8410 0x02 then { q with edge := some d.now, interval := some (d.now - e), base := d.now - e, pos := 0, rev := q.rev + 1 }
      else { q with edge := some d.now, interval := some (d.now - e), base := d.now - e, pos := q.pos + 1 }) := by
  have hs : (d.toothSpan e).phaseSynced = true := by simp (disch := omega) [Dev.phaseSynced, toothSpan_obj, h4]
  rw [tooth_next d h4 hm he hfar, setPhaseState_steady _ _ (by simp [hs])]

theorem toothEdge_advances (h : s.Tick t d) (hr : d.obj 0x8410 0x04 = 0 ↔ r = true) (hl : d.obj 0x8410 0x41 < ns) (h4 : d.obj 0x8410 0x08 = 4)
    (hm : d.obj 0x8410 0x03 = 0) (he : d.plot.phase.edge = some e) (hfar : 20 * perUs ≤ d.now - e) (hp : d.plot.phase.pos + 1 ≠ d.obj 0x8410 0x02) :
    Completes (.toothEdge t r ns) s fun x =>
      x.obj 0x8410 0x08 = 4 ∧ x.plot.phase.pos = d.plot.phase.pos + 1 ∧ x.plot.phase.rev = d.plot.phase.rev ∧ x.plot.phase.edge = some d.now ∧
        x.plot.phase.base = d.now - e := by
  refine toothEdge_completes h (by omega) hr hl ?_
  rw [tooth_next_entered h4 hm he hfar]
  simp [hp]

theorem toothEdge_revolves (h : s.Tick t d) (hr : d.obj 0x8410 0x04 = 0 ↔ r = true) (hl : d.obj 0x8410 0x41 < ns) (h4 : d.obj 0x8410 0x08 = 4)
    (hm : d.obj 0x8410 0x03 = 0) (he : d.plot.phase.edge = some e) (hfar : 20 * perUs ≤ d.now - e) (hp : d.plot.phase.pos + 1 = d.obj 0x8410 0x02) :
    Completes (.toothEdge t r ns) s fun x =>
      x.obj 0x8410 0x08 = 4 ∧ x.plot.phase.pos = 0 ∧ x.plot.phase.rev = d.plot.phase.rev + 1 := by
  refine toothEdge_completes h (by omega) hr hl ?_
  rw [tooth_next_entered h4 hm he hfar]
  simp [hp]

/-! Standstill (R102). -/

theorem phaseStopTimeout_stops (h : s.Tick t d) (ha : s.Alone d) (he : d.plot.phase.edge = some e) (h2 : d.obj 0x8410 0x08 = 2)
    (hdue : e + d.obj 0x8410 0x06 * perMs ≤ d.now) : Completes (.phaseStopTimeout t) s fun x =>
      x.obj 0x8410 0x08 = 1 ∧ x.obj 0x8410 0x0B = 0 ∧ x.obj 0x8410 0x0F = (d.obj 0x8410 0x0F + 1) % 2 ^ 32 ∧ x.plot.phase.edge = none ∧
        ((∀ n, (d.leg n).virt = none) → x.plot.legs = d.plot.legs) := by
  have hs : (d.inc 0x8410 0x0F).phaseSynced = false := by simp (disch := omega) [Dev.phaseSynced, obj_inc_field, h2]
  refine completes_timer h ha (by unfold exec; rfl) (by omega) (by omega) rfl ?_
  simp only [he, h2, le_refl, hdue, and_self, if_true]
  rw [setPhaseState_steady _ _ (by simp [hs])]
  refine ⟨?_, obj_set_same _ _ _ _ _ _, ?_, rfl, fun hv => ?_⟩
  · rw [obj_set_field _ (by omega) (by omega) (by omega) (by omega) (by omega), phaseEntered_state]
  · rw [obj_set_field _ (by omega) (by omega) (by omega) (by omega) (by omega), phaseEntered_obj _ _ _ _ _ (by omega) (by omega) (by omega), obj_inc_same]
  · rw [Dev.set_plot, phaseEntered_legs (d.inc 0x8410 0x0F) _ _ hv, Dev.inc_plot]

theorem phaseStopTimeout_waits (h : s.Tick t d) (ha : s.Alone d) (hw : d.plot.phase.edge = none ∨ d.obj 0x8410 0x08 < 2) :
    Becomes (.phaseStopTimeout t) s d := by
  refine becomes_timer h ha (by unfold exec; rfl) (by omega) (by omega) rfl ?_
  split
  · next e he => exact if_neg fun ⟨h2, _⟩ => hw.elim (fun hx => by simp [hx] at he) (fun hx => by omega)
  · rfl

end

/-! Writes of the Plotter (R99, R106, R107). -/

section
variable {s : State} {t : Nat} {d : Dev} {q : Request} {o : ObjRow}

@[simp] theorem writeBase_leg (n : Nat) : (d.writeBase q o).leg n = d.leg n := by simp [Dev.leg]

/-- The value on which a tick acts depends on the clocks, the phase input and the steps of the sources. -/
theorem sourceTick_congr {e : Dev} (hn : e.now = d.now) (hl : e.ltEpoch = d.ltEpoch) (hs : e.sex = d.sex) (hp : e.plot.phase = d.plot.phase)
    (hst : e.plot.steps = d.plot.steps) (ho : ∀ s < 256, e.obj 0x8410 s = d.obj 0x8410 s) (k : Nat) : e.sourceTick k = d.sourceTick k := by
  have hcap : e.phaseCap = d.phaseCap := by simp [Dev.phaseCap, hp, ho]
  have hrun : e.angleRun = d.angleRun := by simp [Dev.angleRun, Dev.phaseU, hp, hn, ho, hcap]
  have hsync : e.phaseSynced = d.phaseSynced := by simp [Dev.phaseSynced, ho]
  have hpos : e.phasePos = d.phasePos := by funext x; simp [Dev.phasePos, Dev.phaseU, hsync, hrun, hp, ho]
  have htick : e.tick = d.tick := by simp [Dev.tick, Dev.lt, hn, hl]
  have hstart : e.tickStart = d.tickStart := by simp [Dev.tickStart, htick, hl]
  have hzt : e.ztAt = d.ztAt := by funext x; simp [Dev.ztAt, hs, hn]
  have hat : ∀ x, e.sourceAt k x = d.sourceAt k x := fun x => by simp only [Dev.sourceAt, hzt, hs, hn, hl, hpos]
  simp [Dev.sourceTick, hst, hat, hsync, hrun, htick, hstart]

/-- The first boundary of a leg that has no origin yet is reckoned from its base. -/
theorem legBoundary_congr {e : Dev} {n : Nat} (x : Int) (h1 : ∀ s < 256, e.obj 0x8410 s = d.obj 0x8410 s)
    (h2 : ∀ s < 256, s ≠ 0x01 → s ≠ 0x0E → e.obj 0x8420 s 0 n = d.obj 0x8420 s 0 n) (ho : (e.leg n).origin = none) :
    e.legBoundary n x = firstBoundary x (x + d.ahead (d.legSource n) (d.obj 0x8420 0x05 0 n) x) (d.legCycle n (d.legBank n)) := by
  have hc : ∀ b, e.legCycle n b = d.legCycle n b := fun b => by unfold Dev.legCycle; split <;> simp [h2]
  have ha : ∀ k b, e.ahead k b x = d.ahead k b x := fun k b => by simp [Dev.ahead, Dev.bearingPos, Dev.sourceMod, Dev.phaseU, h1]
  simp [Dev.legBoundary, ho, hc, ha, Dev.legSource, Dev.legBank, h2]

/-- The leg as it waits for its first boundary. -/
def Dev.legWaiting (d : Dev) (n : Nat) : Dev := ((d.set 0x8420 0x01 1 0 n).setLegState n 1).setLeg n {}

theorem legWaiting_obj (n : Nat) {i s : Nat} (u r : Nat) (hi : i < 65536) (hs : s < 256) (h : i ≠ 0x8400) (h2 : ¬ (i = 0x8420 ∧ (s = 0x01 ∨ s = 0x0E))) :
    (d.legWaiting n).obj i s u r = d.obj i s u r := by
  unfold Dev.legWaiting Dev.setLegState
  rw [Dev.setLeg_obj, obj_set_field _ (by omega) (by omega) hs hi (by omega), obj_set_field _ (by omega) (by omega) hs hi (by omega),
    obj_set_field _ (by omega) (by omega) hs hi (by omega)]

/-- An object of the Plotter reads under a write as before it. -/
theorem writeBase_plotObj {i : Nat} (s u r : Nat) (hi : i = 0x8410 ∨ i = 0x8420) (hs : s < 256) : (d.writeBase q o).obj i s u r = d.obj i s u r := by
  rcases hi with rfl | rfl <;> exact writeBase_obj d q o _ _ _ _ (by omega) hs (by omega) ⟨by omega, by omega⟩

theorem writeBase_sourceTick (k : Nat) : (d.writeBase q o).sourceTick k = d.sourceTick k :=
  sourceTick_congr (by simp) (by simp) (by simp) (by simp) (by simp) (fun s hs => writeBase_plotObj s 0 0 (Or.inl rfl) hs) k

theorem writeBase_legSource (n : Nat) : (d.writeBase q o).legSource n = d.legSource n := writeBase_plotObj _ _ _ (Or.inr rfl) (by omega)

theorem writeBase_legFlag (n : Nat) : (d.writeBase q o).flag 0x8420 0x01 0 n = d.flag 0x8420 0x01 0 n := by
  unfold Dev.flag
  rw [writeBase_plotObj _ _ _ (Or.inr rfl) (by omega)]

theorem legWaiting_sourceTick (n k : Nat) : (d.legWaiting n).sourceTick k = d.sourceTick k :=
  sourceTick_congr (d := d) (e := d.legWaiting n) rfl rfl rfl rfl rfl (fun s hs => legWaiting_obj n 0 0 (by omega) hs (by omega) (by omega)) k

/-- The first boundary of a leg that is enabled (R106). -/
theorem legWaiting_boundary (n : Nat) : ((d.writeBase q o).legWaiting n).legBoundary n (((d.writeBase q o).legWaiting n).sourceTick (((d.writeBase q o).legWaiting n).legSource n)) =
    firstBoundary (d.sourceTick (d.legSource n)) (d.sourceTick (d.legSource n) + d.ahead (d.legSource n) (d.obj 0x8420 0x05 0 n) (d.sourceTick (d.legSource n)))
      (d.legCycle n (d.legBank n)) := by
  have hsrc : ((d.writeBase q o).legWaiting n).legSource n = d.legSource n :=
    (legWaiting_obj n 0 n (by omega) (by omega) (by omega) (by omega)).trans (writeBase_legSource n)
  rw [hsrc, legWaiting_sourceTick, writeBase_sourceTick]
  refine legBoundary_congr _ (fun s hs => ?_) (fun s hs h1 h2 => ?_) (by simp [Dev.legWaiting])
  · rw [legWaiting_obj n _ _ (by omega) hs (by omega) (by omega), writeBase_plotObj s _ _ (Or.inl rfl) hs]
  · rw [legWaiting_obj n _ _ (by omega) hs (by omega) (by omega), writeBase_plotObj s _ _ (Or.inr rfl) hs]

theorem legEnable_enables (h : s.Tick t d) (hw : d.takesWrite q o .legEnable 0 = true) (hi : recIndex q.bytes = 0x8420) (hj : recSub q.bytes = 0x01)
    (hv : q.value = 1) (hf : d.flag 0x8420 0x01 0 q.record = false) :
    Completes (.legEnable t) s (d.Wrote q o fun y => ((y.set 0x8420 0x01 1 0 q.record).setLegState q.record 1).setLeg q.record
      { startAt := let x := d.sourceTick (d.legSource q.record)
                   firstBoundary x (x + d.ahead (d.legSource q.record) (d.obj 0x8420 0x05 0 q.record) x) (d.legCycle q.record (d.legBank q.record)) }) := by
  refine wrote h hw (by unfold exec; rfl) _ _ hi hj (by omega) (by omega) (by omega) (by omega) ?_
  have hb := legWaiting_boundary (d := d) (q := q) (o := o) q.record
  simp only [Dev.legWaiting] at hb
  simp [Dev.apply, Dev.plotApply, hv, writeBase_legFlag, hf, hb]

theorem legEnable_disables (h : s.Tick t d) (hw : d.takesWrite q o .legEnable 0 = true) (hi : recIndex q.bytes = 0x8420) (hj : recSub q.bytes = 0x01)
    (hv : q.value = 0) (hf : d.flag 0x8420 0x01 0 q.record = true) :
    Completes (.legEnable t) s (d.Wrote q o fun y => (((y.set 0x8420 0x01 0 0 q.record).setLegState q.record 0).setLeg q.record {}).unschedule q.record) := by
  refine wrote h hw (by unfold exec; rfl) _ _ hi hj (by omega) (by omega) (by omega) (by omega) ?_
  simp [Dev.apply, Dev.plotApply, hv, writeBase_legFlag, hf]

theorem swapRequest_arms (h : s.Tick t d) (hw : d.takesWrite q o .swapRequest 0 = true) (hi : recIndex q.bytes = 0x8420) (hj : recSub q.bytes = 0x0B)
    (hv : q.value = 1) (hf : d.flag 0x8420 0x01 0 q.record = true) :
    Completes (.swapRequest t) s (d.Wrote q o fun y =>
      y.setLeg q.record { y.leg q.record with armed := some (d.obj 0x8420 0x0C 0 q.record, d.sourceTick (d.legSource q.record)) }) := by
  refine wrote h hw (by unfold exec; rfl) _ _ hi hj (by omega) (by omega) (by omega) (by omega) ?_
  simp [Dev.apply, Dev.plotApply, hv, writeBase_legFlag, hf, writeBase_legSource, writeBase_sourceTick, writeBase_plotObj]

theorem swapRequest_exchanges (h : s.Tick t d) (hw : d.takesWrite q o .swapRequest 0 = true) (hi : recIndex q.bytes = 0x8420) (hj : recSub q.bytes = 0x0B)
    (hv : q.value = 1) (hf : d.flag 0x8420 0x01 0 q.record = false) :
    Completes (.swapRequest t) s (d.Wrote q o fun y => y.exchangeBanks q.record) := by
  refine wrote h hw (by unfold exec; rfl) _ _ hi hj (by omega) (by omega) (by omega) (by omega) ?_
  simp [Dev.apply, Dev.plotApply, hv, writeBase_legFlag, hf]

theorem phaseEnable_enables (h : s.Tick t d) (hw : d.takesWrite q o .phaseEnable 0 = true) (hi : recIndex q.bytes = 0x8410) (hj : recSub q.bytes = 0x01)
    (hv : q.value = 1) (h0 : d.obj 0x8410 0x08 = 0) :
    Completes (.phaseEnable t) s (d.Wrote q o fun y => (y.set 0x8410 0x01 1).set 0x8410 0x08 1) := by
  refine wrote h hw (by unfold exec; rfl) _ _ hi hj (by omega) (by omega) (by omega) (by omega) ?_
  simp (disch := omega) [Dev.apply, Dev.plotApply, hv, obj_set_field, writeBase_plotObj, h0]

end

/-- Settles O22: teeth by the state of the input and the interval, writes by the object they name. -/
theorem phaseAndPlotterWrites : Obligations.PhaseAndPlotterWrites := by
  unfold Obligations.PhaseAndPlotterWrites
  refine ⟨fun s t d r ns h ha => ?_, fun s t d q o h => ?_⟩
  · exact ⟨fun hr hl => ⟨toothEdge_acquires h hr hl, toothEdge_synchronizes h hr hl, fun e => toothEdge_advances h hr hl, fun e => toothEdge_revolves h hr hl⟩,
      toothEdge_ignored h, fun e => phaseStopTimeout_stops h ha, phaseStopTimeout_waits h ha⟩
  · exact ⟨legEnable_enables h, legEnable_disables h, fun hw hi hj hv => ⟨swapRequest_arms h hw hi hj hv, swapRequest_exchanges h hw hi hj hv⟩, phaseEnable_enables h⟩

end Sys2Proof.Machine

/-! SUPPORT. What the frames of the packet buffer change as their cells are taken, written and given back (R116, R124, R128, R129, R142). -/
namespace Sys2Proof.Machine

/-- Objects that count cells, their peaks and the frames ended by ABORT. -/
def cellField (i s : Nat) : Bool :=
  (i == 0x2000 && (s == 0x04 || s == 0x06)) || ((i == 0x2010 || i == 0x2020 || i == 0x2030) && (s == 0x04 || s == 0x05)) || (i == 0x2040 && s == 0x0A) ||
    (i == 0x2050 && s == 0x07)

/-- What the movement of cells keeps: every object but those that count cells, and every part of the device but the stored frames, the reserves taken and the cells beyond a lost link. -/
structure Dev.CellsMoved (d e : Dev) : Prop where
  obj : ∀ i s u r, i < 65536 → s < 256 → cellField i s = false → e.obj i s u r = d.obj i s u r
  rest : { e with store := [], fab := {} } = { d with store := [], fab := {} }
  fab : ({ e.fab with frames := [], res := [], orphans := [] } : FabSt) = { d.fab with frames := [], res := [], orphans := [] }

theorem Dev.CellsMoved.refl (d : Dev) : d.CellsMoved d := ⟨fun _ _ _ _ _ _ _ => rfl, rfl, rfl⟩

theorem Dev.CellsMoved.trans {d e f : Dev} (h : d.CellsMoved e) (g : e.CellsMoved f) : d.CellsMoved f :=
  ⟨fun i s u r hi hs hc => (g.obj i s u r hi hs hc).trans (h.obj i s u r hi hs hc), g.rest.trans h.rest, g.fab.trans h.fab⟩

section
variable {d e : Dev} (h : d.CellsMoved e)
include h

theorem Dev.CellsMoved.now : e.now = d.now := (congrArg Dev.now h.rest :)
theorem Dev.CellsMoved.stackId : e.stackId = d.stackId := (congrArg Dev.stackId h.rest :)
theorem Dev.CellsMoved.ports : e.ports = d.ports := (congrArg Dev.ports h.rest :)
theorem Dev.CellsMoved.outbox : e.outbox = d.outbox := (congrArg Dev.outbox h.rest :)
theorem Dev.CellsMoved.stack : e.stack = d.stack := (congrArg Dev.stack h.rest :)
theorem Dev.CellsMoved.link : e.fab.link = d.fab.link := (congrArg FabSt.link h.fab :)
theorem Dev.CellsMoved.downAt : e.fab.downAt = d.fab.downAt := (congrArg FabSt.downAt h.fab :)
theorem Dev.CellsMoved.rx : e.fab.rx = d.fab.rx := (congrArg FabSt.rx h.fab :)

theorem Dev.CellsMoved.linkUp (p : Nat) : e.linkUp p = d.linkUp p := by simp [Dev.linkUp, h.link]

end

section
variable (d : Dev)

theorem moved_set (i s v u r : Nat) (hi : i < 65536) (hs : s < 256) (h : cellField i s = true) : d.CellsMoved (d.set i s v u r) :=
  ⟨fun i' s' u' r' hi' hs' h' => obj_set_field d hs hi hs' hi' (by rintro ⟨rfl, rfl⟩; simp [h] at h'), rfl, rfl⟩

theorem moved_inc (i s u r n : Nat) (hi : i < 65536) (hs : s < 256) (h : cellField i s = true) : d.CellsMoved (d.inc i s u r n) := moved_set d i s _ u r hi hs h

theorem moved_peak (i s v u r : Nat) (hi : i < 65536) (hs : s < 256) (h : cellField i s = true) : d.CellsMoved (d.peak i s v u r) := by
  unfold Dev.peak
  split
  · exact moved_set d i s _ u r hi hs h
  · exact Dev.CellsMoved.refl d

theorem moved_foldl {α : Type} (f : Dev → α → Dev) (h : ∀ (d : Dev) a, d.CellsMoved (f d a)) (l : List α) : d.CellsMoved (l.foldl f d) := by
  induction l generalizing d with
  | nil => exact Dev.CellsMoved.refl d
  | cons a l ih => exact (h d a).trans (ih _)

theorem moved_setRes (k v : Nat) : d.CellsMoved (d.setRes k v) := ⟨fun _ _ _ _ _ _ _ => rfl, rfl, rfl⟩

theorem moved_frames (f : List Frame → List Frame) : d.CellsMoved (d.fabUpd fun x => { x with frames := f x.frames }) := ⟨fun _ _ _ _ _ _ _ => rfl, rfl, rfl⟩

theorem moved_ite {p : Prop} [Decidable p] {e f : Dev} (h : d.CellsMoved e) (g : d.CellsMoved f) : d.CellsMoved (if p then e else f) := by
  split
  · exact h
  · exact g

/-- A record of cell counters. -/
def cellIndex (i : Nat) : Bool := i == 0x2010 || i == 0x2020 || i == 0x2030

theorem cellField_of_index {i : Nat} (h : cellIndex i = true) : i < 65536 ∧ cellField i 0x04 = true ∧ cellField i 0x05 = true := by
  simp only [cellIndex, Bool.or_eq_true, beq_iff_eq] at h
  rcases h with (rfl | rfl) | rfl <;> decide

theorem moved_cellsDown (i r n : Nat) (h : cellIndex i = true) : d.CellsMoved (d.cellsDown i r n) := by
  obtain ⟨hi, h4, -⟩ := cellField_of_index h
  exact moved_set d i 0x04 _ 0 r hi (by omega) h4

theorem moved_returnCells (f : Frame) (i e c s : Nat) : d.CellsMoved (d.returnCells f i e c s) := by
  unfold Dev.returnCells
  simp only
  refine Dev.CellsMoved.trans ?_ (moved_setRes _ _ _)
  have hbase := (moved_cellsDown d 0x2010 f.port (i + e + c + s) rfl).trans (moved_cellsDown _ 0x2030 f.cls (i + e + c + s) rfl)
  have hegress := hbase.trans (moved_foldl _ _ (fun x p => moved_cellsDown x 0x2020 p (i + e + c + s) rfl) f.egress)
  have hpool := fun v w => (hegress.trans (moved_set _ 0x2000 0x04 v 0 0 (by omega) (by omega) rfl)).trans (moved_set _ 0x2000 0x06 w 0 0 (by omega) (by omega) rfl)
  split
  · exact ((hpool _ _).trans (moved_setRes _ f.port _)).trans (moved_setRes _ _ _)
  · exact (hpool _ _).trans (moved_setRes _ f.port _)

theorem moved_returnBack (f : Frame) (k : Nat) : d.CellsMoved (d.returnBack f k).1 := moved_returnCells ..

theorem moved_freeFront (f : Frame) (k : Nat) : d.CellsMoved (d.freeFront f k).1 := moved_returnCells ..

theorem moved_putFrame (f : Frame) : d.CellsMoved (d.putFrame f) := by
  unfold Dev.putFrame
  split
  · split
    · exact (moved_freeFront d f _).trans ⟨fun _ _ _ _ _ _ _ => rfl, rfl, rfl⟩
    · exact (moved_freeFront d f _).trans (moved_frames _ _)
  · exact moved_frames d _

theorem moved_voqPeaks (f : Frame) : d.CellsMoved (d.voqPeaks f) :=
  moved_foldl d _ (fun x c => moved_peak x 0x2050 0x07 _ 0 _ (by omega) (by omega) rfl) _

theorem moved_writeCells (id n : Nat) : d.CellsMoved (d.writeCells id n) := by
  unfold Dev.writeCells
  split
  · exact Dev.CellsMoved.refl d
  · exact (moved_putFrame d _).trans (moved_voqPeaks _ _)

theorem moved_finishFrame (id len : Nat) : d.CellsMoved (d.finishFrame id len) := by
  unfold Dev.finishFrame
  split
  · exact Dev.CellsMoved.refl d
  · exact (((moved_returnBack d _ _).trans (moved_frames _ _)).trans (moved_putFrame _ _)).trans (moved_writeCells _ _ _)

theorem moved_endFrame (id len : Nat) : d.CellsMoved (d.endFrame id len) := by
  unfold Dev.endFrame
  split
  · exact Dev.CellsMoved.refl d
  · split
    · exact moved_frames d _
    · exact moved_finishFrame d id len

theorem moved_countBad (l : List Copy) : d.CellsMoved (l.foldl (fun d c => d.inc 0x2040 0x0A 0 c.port) d) := by
  refine moved_foldl d _ (fun x c => ?_) l
  exact moved_inc x _ _ _ _ _ (by omega) (by omega) rfl

theorem moved_abortFrame (id : Nat) (a b : Bool) : d.CellsMoved (d.abortFrame id a b) := by
  unfold Dev.abortFrame
  split
  · exact Dev.CellsMoved.refl d
  · next f _ =>
    simp only
    have hbegun := moved_countBad d ((f.copies.filter (fun c => c.sent != 0)).filter (fun c => !c.bad))
    have hrest := moved_ite d (p := a = true) (hbegun.trans (moved_countBad _ (f.copies.filter (fun c => c.sent == 0)))) hbegun
    exact moved_ite d ((hrest.trans (moved_frames _ _)).trans (moved_endFrame _ _ _)) ((hrest.trans (moved_frames _ _)).trans (moved_finishFrame _ _ _))

theorem moved_rxBad (r : RxSt) (a b : Bool) : d.CellsMoved (d.rxBad r a b) := by
  unfold Dev.rxBad
  split
  · exact moved_abortFrame d _ a b
  · exact Dev.CellsMoved.refl d

/-! Storing a frame back. -/

@[simp] theorem set_frames (i s v u r : Nat) : (d.set i s v u r).fab.frames = d.fab.frames := rfl

theorem returnCells_frames (f : Frame) (i e c s : Nat) : (d.returnCells f i e c s).fab.frames = d.fab.frames := by
  have hdown : ∀ (l : List Nat) (x : Dev), (l.foldl (fun (d : Dev) p => d.cellsDown 0x2020 p (i + e + c + s)) x).fab.frames = x.fab.frames :=
    fun l x => by
    refine foldl_leaves (fun d : Dev => d.fab.frames) _ (fun _ _ => ?_) l x
    rfl
  unfold Dev.returnCells
  simp only
  split <;> exact hdown _ _

end

/-- A frame stored back takes the place of those of its number, with its copies. -/
theorem mem_putFrame {d : Dev} {f g : Frame} (h : g ∈ (d.putFrame f).fab.frames) : (g ∈ d.fab.frames ∧ g.id ≠ f.id) ∨ g.copies = f.copies := by
  have hmap : ∀ {x : Frame}, x.copies = f.copies → g ∈ d.fab.frames.map (fun y => if y.id = f.id then x else y) →
      (g ∈ d.fab.frames ∧ g.id ≠ f.id) ∨ g.copies = f.copies := fun hc hg => by
    obtain ⟨y, hy, rfl⟩ := List.mem_map.mp hg
    split
    · exact Or.inr hc
    · next hn => exact Or.inl ⟨hy, hn⟩
  unfold Dev.putFrame at h
  split at h
  · split at h
    · simp only [Dev.freeFront] at h
      have hmem : g ∈ (d.returnCells f _ _ _ _).fab.frames.filter (fun x => x.id ≠ f.id) := h
      rw [returnCells_frames, List.mem_filter] at hmem
      exact Or.inl ⟨hmem.1, of_decide_eq_true hmem.2⟩
    · simp only [Dev.freeFront] at h
      simp only [Dev.fabUpd, returnCells_frames] at h
      exact hmap (by rfl) h
  · exact hmap (by rfl) h

end Sys2Proof.Machine

/-! SUPPORT. Flush, hold-down and link of a port, and the writes of the ports (R136, R137, R142, R161, R173 to R176, R186, R194, R197): O23. -/
namespace Sys2Proof.Machine

/-! The flush (R136). -/

/-- No copy of a frame but mirror copies is for a port. -/
def Frame.freeOf (f : Frame) (p : Nat) : Prop := ∀ c ∈ f.copies, c.port = p → c.mirror = true

theorem freeOf_filter (f : Frame) (p : Nat) : ∀ c ∈ f.copies.filter (fun c => !(c.port == p && !c.mirror)), c.port = p → c.mirror = true := by
  intro c hc hp
  rw [List.mem_filter] at hc
  simpa [hp] using hc.2

/-- A frame leaves every subqueue of a port. -/
def Dev.flushFrame (p : Nat) (d : Dev) (f : Frame) : Dev :=
  let mine (c : Copy) : Bool := c.port == p && !c.mirror
  let gone := f.copies.filter mine
  let stamps : Nat := if f.ptpEvent then (gone.filter (·.started)).length else 0
  let d := if stamps = 0 then d else d.stampLost (unitOfPort p) f stamps
  (d.inc 0x2040 0x04 0 p gone.length).putFrame { f with copies := f.copies.filter (fun c => !mine c) }

theorem stampLost_fab (d : Dev) (u : Nat) (f : Frame) (n : Nat) : (d.stampLost u f n).fab = d.fab := by
  unfold Dev.stampLost
  simp only
  split
  · split <;> rfl
  · rfl

theorem mem_flushFrame {d : Dev} {p : Nat} {f g : Frame} (h : g ∈ (d.flushFrame p f).fab.frames) : (g ∈ d.fab.frames ∧ g.id ≠ f.id) ∨ g.freeOf p := by
  unfold Dev.flushFrame at h
  refine (mem_putFrame h).imp (fun hg => ?_) (fun hg => ?_)
  · have hfab : ∀ (q : Prop) [Decidable q] (n : Nat), (if q then d else d.stampLost (unitOfPort p) f n).fab = d.fab := fun q _ n => by
      split
      · rfl
      · exact stampLost_fab ..
    simpa only [Dev.inc_fab, hfab] using hg
  · unfold Frame.freeOf
    rw [hg]
    exact freeOf_filter f p

/-- Once every frame with a copy for a port has been flushed, no stored frame has one. -/
theorem foldl_flushFrame_freeOf {p : Nat} (l : List Frame) (d : Dev) (h : ∀ g ∈ d.fab.frames, g.freeOf p ∨ ∃ f ∈ l, f.id = g.id) :
    ∀ g ∈ (l.foldl (Dev.flushFrame p) d).fab.frames, g.freeOf p := by
  induction l generalizing d with
  | nil => exact fun g hg => (h g hg).elim id (fun ⟨_, hf, _⟩ => absurd hf (List.not_mem_nil))
  | cons f l ih =>
    refine ih _ (fun g hg => ?_)
    rcases mem_flushFrame hg with ⟨hg, hne⟩ | hfree
    · refine (h g hg).imp_right fun ⟨x, hx, hid⟩ => ⟨x, ?_, hid⟩
      exact (List.mem_cons.mp hx).resolve_left (fun e => hne (e ▸ hid.symm))
    · exact Or.inl hfree

theorem flushPort_frames (d : Dev) (p : Nat) : (d.flushPort p).fab.frames =
    ((d.fab.frames.filter (fun f => f.copies.any (fun c => c.port == p && !c.mirror))).foldl (Dev.flushFrame p) d).fab.frames := by
  unfold Dev.flushPort
  simp only
  split <;> rfl

/-- A flushed port has no frame left. -/
theorem flushPort_freeOf (d : Dev) (p : Nat) : ∀ g ∈ (d.flushPort p).fab.frames, g.freeOf p := by
  rw [flushPort_frames]
  refine foldl_flushFrame_freeOf _ d (fun g hg => ?_)
  by_cases hmine : g.copies.any (fun c => c.port == p && !c.mirror) = true
  · exact Or.inr ⟨g, List.mem_filter.mpr ⟨hg, hmine⟩, rfl⟩
  · refine Or.inl fun c hc hp => ?_
    by_contra hm
    exact hmine (List.any_eq_true.mpr ⟨c, hc, by simp [hp, hm]⟩)

section
variable {s : State} {t p : Nat} {d : Dev}

theorem flushComplete_flushes (h : s.Tick t d) (hp : p < 23) (h1 : d.obj 0x2040 0x01 0 p = 1) :
    Becomes (.flushComplete t p) s ((d.flushPort p).set 0x2040 0x01 (if d.linkUp p then 3 else 2) 0 p).flowAll.finishIfReady := by
  refine becomes h (by unfold exec; rfl) (decide_eq_true hp) ?_
  exact if_pos h1

theorem flushComplete_other (h : s.Tick t d) (hp : p < 23) (h1 : d.obj 0x2040 0x01 0 p ≠ 1) : Becomes (.flushComplete t p) s d := by
  refine becomes h (by unfold exec; rfl) (decide_eq_true hp) ?_
  exact if_neg h1

theorem holdDownExpiry_ends (h : s.Tick t d) (ha : s.Alone d) (hp : p < 23) (h2 : d.obj 0x2040 0x01 0 p = 2)
    (hdue : tget (fun _ => 0) d.fab.downAt p + d.obj 0x2040 0x02 0 p * perMs ≤ d.now) :
    Becomes (.holdDownExpiry t p) s (((d.set 0x2040 0x01 0 0 p).inc 0x2040 0x06 0 p).chartFlush false p true) := by
  refine becomes_timer h ha (by unfold exec; rfl) (by omega) (by omega) (decide_eq_true hp) ?_
  exact if_pos ⟨h2, hdue⟩

theorem holdDownExpiry_waits (h : s.Tick t d) (ha : s.Alone d) (hp : p < 23)
    (hw : d.obj 0x2040 0x01 0 p ≠ 2 ∨ d.now < tget (fun _ => 0) d.fab.downAt p + d.obj 0x2040 0x02 0 p * perMs) :
    Becomes (.holdDownExpiry t p) s d := by
  refine becomes_timer h ha (by unfold exec; rfl) (by omega) (by omega) (decide_eq_true hp) ?_
  exact if_neg fun ⟨h2, hdue⟩ => hw.elim (fun hx => hx h2) (fun hx => absurd hdue (not_le.mpr hx))

end

/-! The link (R174, R176, R194). -/

section
variable (d : Dev)

theorem verifyStart_obj (p : Nat) {i j : Nat} (u r : Nat) (hi : i < 65536) (hj : j < 256) (h : i ≠ 0x4040) : (d.verifyStart p).obj i j u r = d.obj i j u r := by
  unfold Dev.verifyStart
  simp only
  split
  · rw [obj_set_field _ (by omega) (by omega) hj hi (by omega), obj_set_field _ (by omega) (by omega) hj hi (by omega)]
  · split
    · rw [obj_set_field _ (by omega) (by omega) hj hi (by omega), obj_set_field _ (by omega) (by omega) hj hi (by omega)]
    · split
      · rw [obj_set_field _ (by omega) (by omega) hj hi (by omega), obj_set_field _ (by omega) (by omega) hj hi (by omega),
          obj_set_field _ (by omega) (by omega) hj hi (by omega)]
      · have hout : ∀ (x : Dev) (o : Out), (x.out o).obj i j u r = x.obj i j u r := fun _ _ => rfl
        rw [Dev.portUpd_obj, hout, obj_set_field _ (by omega) (by omega) hj hi (by omega), obj_set_field _ (by omega) (by omega) hj hi (by omega)]

theorem verifyStart_fab (p : Nat) : (d.verifyStart p).fab = d.fab := by
  unfold Dev.verifyStart
  simp only
  split
  · rfl
  · split
    · rfl
    · split <;> rfl

/-- The MAC of a port starts its verification of preemption. -/
def Dev.macStart (d : Dev) (p : Nat) : Dev := if p < 12 then d.verifyStart p else d

theorem macStart_obj (p : Nat) {i j : Nat} (u r : Nat) (hi : i < 65536) (hj : j < 256) (h : i ≠ 0x4040) : (d.macStart p).obj i j u r = d.obj i j u r := by
  unfold Dev.macStart
  split
  · exact verifyStart_obj d p u r hi hj h
  · rfl

theorem macStart_fab (p : Nat) : (d.macStart p).fab = d.fab := by
  unfold Dev.macStart
  split
  · exact verifyStart_fab d p
  · rfl

/-- A link that comes up, before the MAC and the PHY of its port start. -/
def Dev.riseCounted (d : Dev) (p rate : Nat) : Dev :=
  let u := unitOfPort p
  let d := ((d.set 0x4020 0x03 1 u).set 0x4020 0x04 rate u).inc 0x4020 0x05 u
  (d.set 0x4000 0x03 (setBit (d.obj 0x4000 0x03) p true)).portLinkUp p

theorem linkRise_of_up {p : Nat} (rate : Nat) (h : d.linkUp p = true) : d.linkRise p rate = d := by simp [Dev.linkRise, h]

theorem linkFall_of_down {p : Nat} (h : d.linkUp p = false) : d.linkFall p = d := by simp [Dev.linkFall, h]

theorem linkRise_eq {p : Nat} (rate : Nat) (h : d.linkUp p = false) : d.linkRise p rate =
    let x := (d.riseCounted p rate).macStart p
    if 12 ≤ p ∧ p < 20 ∧ x.obj 0x4060 0x07 (unitOfPort p) ≠ 3 then
      (x.set 0x4060 0x07 (if x.obj 0x4060 0x01 (unitOfPort p) = 2 then 0 else 1) (unitOfPort p)).portUpd fun y =>
        { y with beaconAt := tput (fun _ => 0) y.beaconAt p x.now }
    else x := if_neg (by simp [h])

theorem linkRise_obj {p : Nat} (rate : Nat) (h : d.linkUp p = false) {i j : Nat} (u r : Nat) (hi : i < 65536) (hj : j < 256) (h1 : i ≠ 0x4040) (h2 : i ≠ 0x4060) :
    (d.linkRise p rate).obj i j u r = (d.riseCounted p rate).obj i j u r := by
  rw [linkRise_eq d rate h]
  dsimp only
  split
  · rw [Dev.portUpd_obj, obj_set_field _ (by omega) (by omega) hj hi (by omega), macStart_obj _ _ _ _ hi hj h1]
  · rw [macStart_obj _ _ _ _ hi hj h1]

theorem linkRise_fab {p : Nat} (rate : Nat) (h : d.linkUp p = false) : (d.linkRise p rate).fab = (d.riseCounted p rate).fab := by
  rw [linkRise_eq d rate h]
  dsimp only
  split
  · rw [Dev.portUpd_fab, Dev.set_fab, macStart_fab]
  · rw [macStart_fab]

/-- What the port's state becomes as its link comes up (Table 5.6). -/
theorem portLinkUp_state (p : Nat) : (d.portLinkUp p).obj 0x2040 0x01 0 p = if d.obj 0x2040 0x01 0 p = 1 then 1 else 3 := by
  unfold Dev.portLinkUp
  simp only [Dev.fabUpd_obj]
  split
  · next h1 => simpa using h1
  · exact obj_set_same _ _ _ _ _ _

theorem portLinkUp_link (p : Nat) : (d.portLinkUp p).linkUp p = true := by
  have hfab : (d.portLinkUp p).fab.link = tput (fun _ => false) d.fab.link p true := by unfold Dev.portLinkUp; simp only; split <;> rfl
  simp [Dev.linkUp, hfab]

/-- The link of a port up at a rate. -/
structure Dev.LinkUpAt (d : Dev) (p rate : Nat) (x : Dev) : Prop where
  up : x.linkUp p = true
  state : x.obj 0x4020 0x03 (unitOfPort p) = 1
  rate : x.obj 0x4020 0x04 (unitOfPort p) = rate
  count : x.obj 0x4020 0x05 (unitOfPort p) = (d.obj 0x4020 0x05 (unitOfPort p) + 1) % 2 ^ 32
  port : x.obj 0x2040 0x01 0 p = if d.obj 0x2040 0x01 0 p = 1 then 1 else 3
  links : x.obj 0x4000 0x03 = setBit (d.obj 0x4000 0x03) p true
  lane : ∀ j u r, j < 256 → x.obj 0x4010 j u r = d.obj 0x4010 j u r

theorem linkRise_linkUpAt {p : Nat} (rate : Nat) (h : d.linkUp p = false) : d.LinkUpAt p rate (d.linkRise p rate) where
  up := by
    have hfab := linkRise_fab d rate h
    have hup := portLinkUp_link ((((d.set 0x4020 0x03 1 (unitOfPort p)).set 0x4020 0x04 rate (unitOfPort p)).inc 0x4020 0x05 (unitOfPort p)).set 0x4000 0x03
      (setBit ((((d.set 0x4020 0x03 1 (unitOfPort p)).set 0x4020 0x04 rate (unitOfPort p)).inc 0x4020 0x05 (unitOfPort p)).obj 0x4000 0x03) p true)) p
    unfold Dev.linkUp
    rw [hfab]
    exact hup
  state := by
    rw [linkRise_obj d rate h _ _ (by omega) (by omega) (by omega) (by omega), Dev.riseCounted, portLinkUp_obj _ _ _ _ (by omega) (by omega) (by omega)]
    simp (disch := omega) [obj_set_field, obj_inc_field]
  rate := by
    rw [linkRise_obj d rate h _ _ (by omega) (by omega) (by omega) (by omega), Dev.riseCounted, portLinkUp_obj _ _ _ _ (by omega) (by omega) (by omega)]
    simp (disch := omega) [obj_set_field, obj_inc_field]
  count := by
    rw [linkRise_obj d rate h _ _ (by omega) (by omega) (by omega) (by omega), Dev.riseCounted, portLinkUp_obj _ _ _ _ (by omega) (by omega) (by omega)]
    simp (disch := omega) [obj_set_field, obj_inc_field]
  port := by
    rw [linkRise_obj d rate h _ _ (by omega) (by omega) (by omega) (by omega), Dev.riseCounted, portLinkUp_state]
    simp (disch := omega) [obj_set_field, obj_inc_field]
  links := by
    rw [linkRise_obj d rate h _ _ (by omega) (by omega) (by omega) (by omega), Dev.riseCounted, portLinkUp_obj _ _ _ _ (by omega) (by omega) (by omega)]
    simp (disch := omega) [obj_set_field, obj_inc_field]
  lane := fun j u r hj => by
    rw [linkRise_obj d rate h _ _ (by omega) hj (by omega) (by omega), Dev.riseCounted, portLinkUp_obj _ _ _ _ (by omega) hj (by omega)]
    simp (disch := omega) [obj_set_field, obj_inc_field]

/-! A link that goes down. -/

/-- Frames in reception at a port end bad. -/
def Dev.rxLost (d : Dev) (p : Nat) : Dev :=
  [0, 1].foldl (fun d k =>
    match tget (fun _ => none) d.fab.rx (p * 2 + k) with
    | some r => (d.setRx p k none).rxBad r true false
    | none => d) d

/-- What ending the frames in reception keeps. -/
theorem rxLost_kept {β : Type} (g : Dev → β) (hrx : ∀ (x : Dev) p k r, g (x.setRx p k r) = g x) (hcells : ∀ x y : Dev, x.CellsMoved y → g y = g x) (p : Nat) :
    g (d.rxLost p) = g d := by
  refine foldl_leaves g _ (fun x k => ?_) _ d
  split
  · exact (hcells _ _ (moved_rxBad _ _ _ _)).trans (hrx x p k none)
  · rfl

theorem rxLost_obj (p : Nat) {i j : Nat} (u r : Nat) (hi : i < 65536) (hj : j < 256) (hc : cellField i j = false) : (d.rxLost p).obj i j u r = d.obj i j u r :=
  rxLost_kept d (fun x => x.obj i j u r) (fun _ _ _ _ => rfl) (fun _ _ m => m.obj i j u r hi hj hc) p

theorem rxLost_now (p : Nat) : (d.rxLost p).now = d.now := rxLost_kept d Dev.now (fun _ _ _ _ => rfl) (fun _ _ m => m.now) p

theorem rxLost_link (p : Nat) : (d.rxLost p).fab.link = d.fab.link := rxLost_kept d (fun x => x.fab.link) (fun _ _ _ _ => rfl) (fun _ _ m => m.link) p

theorem rxLost_of_nil (p : Nat) (h : d.fab.rx = []) : d.rxLost p = d := by simp [Dev.rxLost, h, tget]

/-- A link that goes down, before the MAC and the PHY of its port start again. -/
def Dev.fallCounted (d : Dev) (p : Nat) : Dev :=
  let u := unitOfPort p
  let d := ((d.set 0x4020 0x03 0 u).set 0x4020 0x04 0 u).inc 0x4020 0x06 u
  (d.set 0x4000 0x03 (setBit (d.obj 0x4000 0x03) p false)).rxLost p

theorem linkFall_eq {p : Nat} (h : d.linkUp p = true) : d.linkFall p =
    let x := (((d.fallCounted p).portLinkDown p).portUpd fun y => { y with plca := tput (fun _ => {}) y.plca p {} }).macStart p
    if 12 ≤ p ∧ p < 20 ∧ x.obj 0x4060 0x0E (unitOfPort p) = 5 then x.set 0x4060 0x0E 0 (unitOfPort p) else x := if_neg (by simp [h])

theorem linkFall_obj {p : Nat} (h : d.linkUp p = true) {i j : Nat} (u r : Nat) (hi : i < 65536) (hj : j < 256) (h1 : i ≠ 0x4040) (h2 : i ≠ 0x4060) :
    (d.linkFall p).obj i j u r = ((d.fallCounted p).portLinkDown p).obj i j u r := by
  rw [linkFall_eq d h]
  dsimp only
  split
  · rw [obj_set_field _ (by omega) (by omega) hj hi (by omega), macStart_obj _ _ _ _ hi hj h1, Dev.portUpd_obj]
  · rw [macStart_obj _ _ _ _ hi hj h1, Dev.portUpd_obj]

theorem linkFall_fab {p : Nat} (h : d.linkUp p = true) : (d.linkFall p).fab = ((d.fallCounted p).portLinkDown p).fab := by
  rw [linkFall_eq d h]
  dsimp only
  split
  · rw [Dev.set_fab, macStart_fab, Dev.portUpd_fab]
  · rw [macStart_fab, Dev.portUpd_fab]

theorem fallCounted_obj (p : Nat) {i j : Nat} (u r : Nat) (hi : i < 65536) (hj : j < 256) (hc : cellField i j = false) (h1 : i ≠ 0x4020) (h2 : i ≠ 0x4000) :
    (d.fallCounted p).obj i j u r = d.obj i j u r := by
  unfold Dev.fallCounted
  rw [rxLost_obj _ _ _ _ hi hj hc]
  simp (disch := omega) [obj_set_field, obj_inc_field]

theorem portLinkDown_state {p : Nat} (hp : p < 23) : (d.portLinkDown p).obj 0x2040 0x01 0 p = if d.obj 0x2040 0x01 0 p = 3 then 1 else d.obj 0x2040 0x01 0 p := by
  have hobj : ∀ q : Prop, ∀ [Decidable q] (x : FabSt → FabSt) (f : FabSt → FabSt), (if q then (d.fabUpd x).fabUpd f else d.fabUpd x).obj 0x2040 0x01 0 p = d.obj 0x2040 0x01 0 p :=
    fun q _ x f => by split <;> rfl
  unfold Dev.portLinkDown
  simp only [hobj, hp, and_true]
  split
  · rw [Dev.fabUpd_obj, obj_set_same]
  · rw [hobj]

theorem portLinkDown_fab_link (p : Nat) : (d.portLinkDown p).linkUp p = false := by
  have hfab : (d.portLinkDown p).fab.link = tput (fun _ => false) d.fab.link p false := by unfold Dev.portLinkDown; simp only; split <;> split <;> rfl
  simp [Dev.linkUp, hfab]

theorem portLinkDown_downAt {p : Nat} (h : d.linkUp p = true) : tget (fun _ => 0) (d.portLinkDown p).fab.downAt p = d.now := by
  have hfab : (d.portLinkDown p).fab.downAt = tput (fun _ => 0) d.fab.downAt p d.now := by unfold Dev.portLinkDown; simp only [h, if_true]; split <;> rfl
  simp [hfab]

theorem portLinkDown_frames (p : Nat) : (d.portLinkDown p).fab.frames = d.fab.frames := by unfold Dev.portLinkDown; simp only; split <;> split <;> rfl

/-- The link of a port down, its port flushing when it was UP. -/
structure Dev.LinkDownFrom (d : Dev) (p : Nat) (x : Dev) : Prop where
  down : x.linkUp p = false
  state : x.obj 0x4020 0x03 (unitOfPort p) = 0
  rate : x.obj 0x4020 0x04 (unitOfPort p) = 0
  count : x.obj 0x4020 0x06 (unitOfPort p) = (d.obj 0x4020 0x06 (unitOfPort p) + 1) % 2 ^ 32
  links : x.obj 0x4000 0x03 = setBit (d.obj 0x4000 0x03) p false
  port : x.obj 0x2040 0x01 0 p = if d.obj 0x2040 0x01 0 p = 3 then 1 else d.obj 0x2040 0x01 0 p
  since : tget (fun _ => 0) x.fab.downAt p = d.now
  frames : d.fab.rx = [] → x.fab.frames = d.fab.frames

theorem linkFall_linkDownFrom {p : Nat} (hp : p < 20) (h : d.linkUp p = true) : d.LinkDownFrom p (d.linkFall p) where
  down := by
    unfold Dev.linkUp
    rw [linkFall_fab d h]
    exact portLinkDown_fab_link (d.fallCounted p) p
  state := by
    rw [linkFall_obj d h _ _ (by omega) (by omega) (by omega) (by omega), portLinkDown_obj _ _ _ _ (by omega) (by omega) (by omega), Dev.fallCounted,
      rxLost_obj _ _ _ _ (by omega) (by omega) rfl]
    simp (disch := omega) [obj_set_field, obj_inc_field]
  rate := by
    rw [linkFall_obj d h _ _ (by omega) (by omega) (by omega) (by omega), portLinkDown_obj _ _ _ _ (by omega) (by omega) (by omega), Dev.fallCounted,
      rxLost_obj _ _ _ _ (by omega) (by omega) rfl]
    simp (disch := omega) [obj_set_field, obj_inc_field]
  count := by
    rw [linkFall_obj d h _ _ (by omega) (by omega) (by omega) (by omega), portLinkDown_obj _ _ _ _ (by omega) (by omega) (by omega), Dev.fallCounted,
      rxLost_obj _ _ _ _ (by omega) (by omega) rfl]
    simp (disch := omega) [obj_set_field, obj_inc_field]
  links := by
    rw [linkFall_obj d h _ _ (by omega) (by omega) (by omega) (by omega), portLinkDown_obj _ _ _ _ (by omega) (by omega) (by omega), Dev.fallCounted,
      rxLost_obj _ _ _ _ (by omega) (by omega) rfl]
    simp (disch := omega) [obj_set_field, obj_inc_field]
  port := by
    rw [linkFall_obj d h _ _ (by omega) (by omega) (by omega) (by omega), portLinkDown_state _ (by omega),
      fallCounted_obj _ _ _ _ (by omega) (by omega) rfl (by omega) (by omega)]
  since := by
    have hup : (d.fallCounted p).linkUp p = true := by
      unfold Dev.linkUp Dev.fallCounted
      rw [rxLost_link]
      exact h
    rw [linkFall_fab d h, portLinkDown_downAt _ hup, Dev.fallCounted, rxLost_now]
    rfl
  frames := fun hrx => by
    rw [linkFall_fab d h, portLinkDown_frames, Dev.fallCounted, rxLost_of_nil _ _ (by exact hrx)]
    rfl

end

end Sys2Proof.Machine

/-! SUPPORT. The commands of a port's link, and the writes of the ports (R142, R173 to R176, R186, R194, R197): O23. -/
namespace Sys2Proof.Machine

section
variable {s : State} {t p : Nat} {d : Dev}

theorem unitOfPort_of_lt (h : p < 20) : unitOfPort p = p + 1 := if_pos h

theorem linkUp_wf {r w : Nat} (hp : p < 20) (hr : r < 65536) (hw : w < 65536) : (decide (p < 20) && decide (r < 65536) && decide (w < 65536)) = true := by
  simp [hp, hr, hw]

theorem portReady_of_disabled (h : d.flag 0x4020 0x01 (unitOfPort p) = false) : d.portReady p = false := by simp [Dev.portReady, h]

theorem portReady_of (h1 : d.flag 0x4020 0x01 (unitOfPort p) = true) (h2 : d.unitPowered (unitOfPort p) = true) (h3 : d.flag 0xC040 0x07 = true)
    (h4 : d.stack.self = 2) (h5 : d.segmentOff (unitOfPort p) = false) : d.portReady p = true := by
  simp [Dev.portReady, h1, h2, h3, h5, Dev.portsBarred, h4]

theorem linkUp_notReady (h : s.Tick t d) (hp : p < 20) {r w : Nat} {half : Bool} (hr : r < 65536) (hw : w < 65536) (hready : d.portReady p = false) :
    Becomes (.linkUp t p r half w) s d := by
  refine becomes h (by unfold exec; rfl) (linkUp_wf hp hr hw) ?_
  simp [hready]

/-- The word that a port reports as its link is ready. -/
def Dev.wordTaken (d : Dev) (p w : Nat) : Dev :=
  (d.set 0x4010 0x04 1 (p + 1)).set 0x4010 0x05 (if modeWord p (d.obj 0x4010 0x01 (p + 1)) then w else 0) (p + 1)

theorem wordTaken_obj (d : Dev) (p w : Nat) {i j : Nat} (u r : Nat) (hi : i < 65536) (hj : j < 256) (h : ¬ (i = 0x4010 ∧ (j = 0x04 ∨ j = 0x05))) :
    (d.wordTaken p w).obj i j u r = d.obj i j u r := by
  unfold Dev.wordTaken
  rw [obj_set_field _ (by omega) (by omega) hj hi (by omega), obj_set_field _ (by omega) (by omega) hj hi (by omega)]

/-- A port with a lane takes the word, and its link rises at a rate of its mode. -/
theorem linkUp_lane (h : s.Tick t d) (hp : p < 12) {r w : Nat} {half : Bool} (hr : r < 65536) (hw : w < 65536) (hready : d.portReady p = true) {q : Dev → Prop}
    (hq : q (if (modeRates p (d.obj 0x4010 0x01 (p + 1))).contains r = true ∧ ¬ (half = true ∧ modeWord p (d.obj 0x4010 0x01 (p + 1)) = true)
      then (d.wordTaken p w).linkRise p r
      else if modeWord p (d.obj 0x4010 0x01 (p + 1)) = true then (d.wordTaken p w).inc 0x4010 0x08 (p + 1) else d.wordTaken p w)) :
    Completes (.linkUp t p r half w) s q := by
  have hu := unitOfPort_of_lt (p := p) (by omega)
  refine completes h (by unfold exec; rfl) (linkUp_wf (by omega) hr hw) ?_
  simp only [hready, not_true, if_false, hp, if_true, hu]
  exact hq

theorem linkUp_rises (h : s.Tick t d) (hp : p < 20) {r w : Nat} {half : Bool} (hr : r < 65536) (hw : w < 65536) (hready : d.portReady p = true)
    (hdown : d.linkUp p = false)
    (hc : (p < 12 ∧ (modeRates p (d.obj 0x4010 0x01 (p + 1))).contains r = true ∧ ¬ (half = true ∧ modeWord p (d.obj 0x4010 0x01 (p + 1)) = true)) ∨
      (12 ≤ p ∧ (d.obj 0x4060 0x0E (p + 1) = 0 ∨ d.obj 0x4060 0x0E (p + 1) = 5))) :
    Completes (.linkUp t p r half w) s fun x => x.linkUp p = true ∧ x.obj 0x4020 0x03 (p + 1) = 1 ∧ x.obj 0x4020 0x04 (p + 1) = (if p < 12 then r else 10) ∧
      x.obj 0x4020 0x05 (p + 1) = (d.obj 0x4020 0x05 (p + 1) + 1) % 2 ^ 32 ∧ x.obj 0x2040 0x01 0 p = (if d.obj 0x2040 0x01 0 p = 1 then 1 else 3) ∧
      x.obj 0x4000 0x03 = setBit (d.obj 0x4000 0x03) p true ∧
      (p < 12 → x.obj 0x4010 0x04 (p + 1) = 1 ∧ x.obj 0x4010 0x05 (p + 1) = (if modeWord p (d.obj 0x4010 0x01 (p + 1)) then w else 0)) := by
  have hu := unitOfPort_of_lt hp
  rcases hc with ⟨hp12, hmode⟩ | ⟨hp12, hstate⟩
  · have hrise := linkRise_linkUpAt (d.wordTaken p w) (p := p) r hdown
    refine linkUp_lane h hp12 hr hw hready ?_
    rw [if_pos hmode, if_pos hp12]
    refine ⟨hrise.up, hu ▸ hrise.state, hu ▸ hrise.rate, ?_, ?_, ?_, fun _ => ⟨?_, ?_⟩⟩
    · have hcount := hrise.count
      rwa [hu, wordTaken_obj _ _ _ _ _ (by omega) (by omega) (by omega)] at hcount
    · have hport := hrise.port
      rwa [wordTaken_obj _ _ _ _ _ (by omega) (by omega) (by omega)] at hport
    · have hlinks := hrise.links
      rwa [wordTaken_obj _ _ _ _ _ (by omega) (by omega) (by omega)] at hlinks
    · rw [hrise.lane _ _ _ (by omega), Dev.wordTaken, obj_set_field _ (by omega) (by omega) (by omega) (by omega) (by omega), obj_set_same]
    · rw [hrise.lane _ _ _ (by omega), Dev.wordTaken, obj_set_same]
  · have hrise := linkRise_linkUpAt d (p := p) 10 hdown
    refine completes h (by unfold exec; rfl) (linkUp_wf hp hr hw) ?_
    have hn : ¬ p < 12 := by omega
    have h20 : ¬ 20 ≤ p := by omega
    simp only [hready, not_true, if_false, hn, Dev.segLink, h20, or_self, hu, hstate, and_self, if_true, false_implies, and_true]
    exact ⟨hrise.up, hu ▸ hrise.state, hu ▸ hrise.rate, hu ▸ hrise.count, hrise.port, hrise.links⟩

/-- A word of half duplex or of no speed of the mode counts and gives no link (R176). -/
theorem linkUp_refused (h : s.Tick t d) {r w : Nat} {half : Bool} (hr : r < 65536) (hw : w < 65536) (hready : d.portReady p = true)
    (hdown : d.linkUp p = false) (hp : p < 12) (hm : modeWord p (d.obj 0x4010 0x01 (p + 1)) = true)
    (hc : half = true ∨ (modeRates p (d.obj 0x4010 0x01 (p + 1))).contains r = false) :
    Completes (.linkUp t p r half w) s fun x => x.linkUp p = false ∧ x.obj 0x4010 0x08 (p + 1) = (d.obj 0x4010 0x08 (p + 1) + 1) % 2 ^ 32 ∧
      x.obj 0x4020 0x05 (p + 1) = d.obj 0x4020 0x05 (p + 1) := by
  have hno : ¬ ((modeRates p (d.obj 0x4010 0x01 (p + 1))).contains r = true ∧ ¬ (half = true ∧ modeWord p (d.obj 0x4010 0x01 (p + 1)) = true)) := by
    rintro ⟨h1, h2⟩
    rcases hc with hc | hc
    · exact h2 ⟨hc, hm⟩
    · exact Bool.false_ne_true (hc.symm.trans h1)
  refine linkUp_lane h hp hr hw hready ?_
  rw [if_neg hno, if_pos hm]
  refine ⟨hdown, ?_, ?_⟩
  · rw [obj_inc_same, wordTaken_obj _ _ _ _ _ (by omega) (by omega) (by omega)]
  · rw [obj_inc_field _ (by omega) (by omega) (by omega) (by omega) (by omega), wordTaken_obj _ _ _ _ _ (by omega) (by omega) (by omega)]

theorem segLink_of_fault (hp : p < 20) (h12 : 12 ≤ p) (h0 : d.obj 0x4060 0x0E (p + 1) ≠ 0) (h5 : d.obj 0x4060 0x0E (p + 1) ≠ 5) : d.segLink p = d.linkFall p := by
  have hn : ¬ (p < 12 ∨ 20 ≤ p) := by omega
  simp [Dev.segLink, hn, unitOfPort_of_lt hp, h0, h5]

theorem linkUp_faulty (h : s.Tick t d) (hp : p < 20) {r w : Nat} {half : Bool} (hr : r < 65536) (hw : w < 65536) (hready : d.portReady p = true)
    (hdown : d.linkUp p = false) (h12 : 12 ≤ p) (h0 : d.obj 0x4060 0x0E (p + 1) ≠ 0) (h5 : d.obj 0x4060 0x0E (p + 1) ≠ 5) :
    Becomes (.linkUp t p r half w) s d := by
  have hn : ¬ p < 12 := by omega
  refine becomes h (by unfold exec; rfl) (linkUp_wf hp hr hw) ?_
  simp only [hready, not_true, if_false, hn, segLink_of_fault hp h12 h0 h5, linkFall_of_down d hdown]

/-! A lost condition (R176). -/

/-- The operands of a lost condition are in order. -/
def lossInOrder (loss : LinkLoss) : Prop := ∀ h r v, loss = .word h r v → r < 65536 ∧ v < 65536

/-- A word that counts: half duplex, or a speed that the mode does not carry. -/
def Dev.oddWord (d : Dev) (p : Nat) (half : Bool) (rate : Nat) : Bool := half || (rate != 0 && !(modeRates p (d.obj 0x4010 0x01 (p + 1))).contains rate)

/-- What a word notes of a port with a lane. -/
def Dev.wordNoted (d : Dev) (p : Nat) (half : Bool) (rate value : Nat) : Dev :=
  if d.oddWord p half rate then (d.set 0x4010 0x05 value (p + 1)).inc 0x4010 0x08 (p + 1) else d.set 0x4010 0x05 value (p + 1)

/-- What a condition of the link does to a port with a lane. -/
def Dev.laneLoss (d : Dev) (p : Nat) : LinkLoss → Dev
  | .lock n => ((d.inc 0x4010 0x09 (p + 1) 0 n).set 0x4010 0x04 0 (p + 1)).linkFall p
  | .errors n => d.inc 0x4010 0x09 (p + 1) 0 n
  | .localFault => (d.inc 0x4010 0x06 (p + 1)).linkFall p
  | .remoteFault => (d.inc 0x4010 0x07 (p + 1)).linkFall p
  | .word half rate value =>
    if modeWord p (d.obj 0x4010 0x01 (p + 1)) = false then d
    else if d.oddWord p half rate = true ∨ rate = 0 then (d.wordNoted p half rate value).linkFall p else d.wordNoted p half rate value

theorem linkDown_lane (h : s.Tick t d) (hp : p < 12) {loss : LinkLoss} (hl : lossInOrder loss) : Becomes (.linkDown t p loss) s (d.laneLoss p loss) := by
  have hn : ¬ 12 ≤ p := by omega
  have hp20 : p < 20 := by omega
  refine becomes h (by unfold exec; rfl) ?_ ?_
  · cases loss with
    | word b r v => simp [hp20, hl b r v rfl]
    | _ => simp [hp20]
  · simp only [unitOfPort_of_lt hp20, if_neg hn]
    cases loss with
    | word b r v =>
      simp only [Dev.laneLoss, Dev.wordNoted, Dev.oddWord, Bool.not_eq_true]
      rfl
    | _ => rfl

theorem linkDown_segment (h : s.Tick t d) (hp : p < 20) (h12 : 12 ≤ p) {loss : LinkLoss} (hl : lossInOrder loss) :
    Becomes (.linkDown t p loss) s (d.segLink p) := by
  refine becomes h (by unfold exec; rfl) ?_ ?_
  · cases loss with
    | word b r v => simp [hp, hl b r v rfl]
    | _ => simp [hp]
  · simp only [if_pos h12]

/-- What a condition notes before the link falls: objects of the lane alone. -/
structure Dev.LossNoted (d e : Dev) : Prop where
  obj : ∀ i j u r, i < 65536 → j < 256 → i ≠ 0x4010 → e.obj i j u r = d.obj i j u r
  fab : e.fab = d.fab
  now : e.now = d.now

theorem lossNoted_set (d : Dev) (j v u : Nat) (hj : j < 256) : d.LossNoted (d.set 0x4010 j v u) :=
  ⟨fun _ _ _ _ hi hs h => obj_set_field _ (by omega) (by omega) hs hi (by omega), rfl, rfl⟩

theorem lossNoted_inc (d : Dev) (j u n : Nat) (hj : j < 256) : d.LossNoted (d.inc 0x4010 j u 0 n) := lossNoted_set d j _ u hj

theorem Dev.LossNoted.trans {d e f : Dev} (h : d.LossNoted e) (g : e.LossNoted f) : d.LossNoted f :=
  ⟨fun i j u r hi hj h1 => (g.obj i j u r hi hj h1).trans (h.obj i j u r hi hj h1), g.fab.trans h.fab, g.now.trans h.now⟩

theorem lossNoted_word (d : Dev) (half : Bool) (rate value : Nat) : d.LossNoted (d.wordNoted p half rate value) := by
  unfold Dev.wordNoted
  split
  · exact (lossNoted_set d 0x05 value _ (by omega)).trans (lossNoted_inc _ 0x08 _ _ (by omega))
  · exact lossNoted_set d 0x05 value _ (by omega)

/-- A word that counts (R176). -/
def Dev.oddLoss (d : Dev) (p : Nat) (loss : LinkLoss) : Prop :=
  ∃ h r v, loss = .word h r v ∧ modeWord p (d.obj 0x4010 0x01 (p + 1)) = true ∧
    (h = true ∨ (r ≠ 0 ∧ (modeRates p (d.obj 0x4010 0x01 (p + 1))).contains r = false))

/-- A condition that takes the link of a port with a lane down. -/
def Dev.laneLost (d : Dev) (p : Nat) (loss : LinkLoss) : Prop :=
  (∃ n, loss = .lock n) ∨ loss = .localFault ∨ loss = .remoteFault ∨ d.oddLoss p loss ∨
    ∃ v, loss = .word false 0 v ∧ modeWord p (d.obj 0x4010 0x01 (p + 1)) = true

theorem oddWord_of {half : Bool} {rate : Nat} (h : half = true ∨ (rate ≠ 0 ∧ (modeRates p (d.obj 0x4010 0x01 (p + 1))).contains rate = false)) :
    d.oddWord p half rate = true := by
  unfold Dev.oddWord
  rcases h with h | ⟨h1, h2⟩
  · rw [h, Bool.true_or]
  · rw [h2, bne_iff_ne.mpr h1]; simp

/-- The link falls on what the condition notes. -/
theorem laneLoss_of_lost {loss : LinkLoss} (h : d.laneLost p loss) : ∃ e, d.LossNoted e ∧ d.laneLoss p loss = e.linkFall p := by
  rcases h with ⟨n, rfl⟩ | rfl | rfl | ⟨half, r, v, rfl, hm, ho⟩ | ⟨v, rfl, hm⟩
  · exact ⟨_, (lossNoted_inc d 0x09 (p + 1) n (by omega)).trans (lossNoted_set _ 0x04 0 (p + 1) (by omega)), rfl⟩
  · exact ⟨_, lossNoted_inc d 0x06 (p + 1) 1 (by omega), rfl⟩
  · exact ⟨_, lossNoted_inc d 0x07 (p + 1) 1 (by omega), rfl⟩
  · exact ⟨_, lossNoted_word (p := p) d half r v, by simp [Dev.laneLoss, hm, oddWord_of ho]⟩
  · exact ⟨_, lossNoted_word (p := p) d false 0 v, by simp [Dev.laneLoss, hm]⟩

/-- The link of a port after a lost condition. -/
theorem linkDown_falls (h : s.Tick t d) (hp : p < 20) {loss : LinkLoss} (hl : lossInOrder loss) (hup : d.linkUp p = true)
    (hlost : if 12 ≤ p then ¬ (d.portReady p = true ∧ (d.obj 0x4060 0x0E (p + 1) = 0 ∨ d.obj 0x4060 0x0E (p + 1) = 5)) else d.laneLost p loss) :
    Completes (.linkDown t p loss) s fun x => x.linkUp p = false ∧ x.obj 0x4020 0x03 (p + 1) = 0 ∧ x.obj 0x4020 0x04 (p + 1) = 0 ∧
        x.obj 0x4020 0x06 (p + 1) = (d.obj 0x4020 0x06 (p + 1) + 1) % 2 ^ 32 ∧ x.obj 0x4000 0x03 = setBit (d.obj 0x4000 0x03) p false ∧
        x.obj 0x2040 0x01 0 p = (if d.obj 0x2040 0x01 0 p = 3 then 1 else d.obj 0x2040 0x01 0 p) ∧ tget (fun _ => 0) x.fab.downAt p = d.now ∧
        (d.fab.rx = [] → x.fab.frames = d.fab.frames) := by
  have hu := unitOfPort_of_lt hp
  obtain ⟨e, he, hx⟩ : ∃ e, d.LossNoted e ∧ Becomes (.linkDown t p loss) s (e.linkFall p) := by
    by_cases h12 : 12 ≤ p
    · rw [if_pos h12] at hlost
      have hn : ¬ (p < 12 ∨ 20 ≤ p) := by omega
      have hseg : d.segLink p = d.linkFall p := by simp only [Dev.segLink, hn, if_false, hu, hlost]
      exact ⟨d, ⟨fun _ _ _ _ _ _ _ => rfl, rfl, rfl⟩, hseg ▸ linkDown_segment h hp h12 hl⟩
    · rw [if_neg h12] at hlost
      obtain ⟨e, he, hx⟩ := laneLoss_of_lost hlost
      exact ⟨e, he, hx ▸ linkDown_lane h (by omega) hl⟩
  have hdown := linkFall_linkDownFrom e hp (by simpa [Dev.linkUp, he.fab] using hup)
  have hcount := hdown.count
  have hlinks := hdown.links
  have hport := hdown.port
  rw [hu, he.obj _ _ _ _ (by omega) (by omega) (by omega)] at hcount
  rw [he.obj _ _ _ _ (by omega) (by omega) (by omega)] at hlinks hport
  exact hx.completes ⟨hdown.down, hu ▸ hdown.state, hu ▸ hdown.rate, hcount, hlinks, hport, hdown.since.trans he.now, fun hrx => by
    rw [hdown.frames (by rw [he.fab]; exact hrx), he.fab]⟩

/-- A condition that meets no link only notes itself. -/
theorem linkDown_noted (h : s.Tick t d) (hp : p < 12) {loss : LinkLoss} (hl : lossInOrder loss) (hdown : d.linkUp p = false) :
    (∀ n, loss = .lock n → Becomes (.linkDown t p loss) s ((d.inc 0x4010 0x09 (p + 1) 0 n).set 0x4010 0x04 0 (p + 1))) ∧
    (loss = .localFault → Becomes (.linkDown t p loss) s (d.inc 0x4010 0x06 (p + 1))) ∧
    (loss = .remoteFault → Becomes (.linkDown t p loss) s (d.inc 0x4010 0x07 (p + 1))) ∧
    (∀ b r v, loss = .word b r v → d.oddLoss p loss → Becomes (.linkDown t p loss) s ((d.set 0x4010 0x05 v (p + 1)).inc 0x4010 0x08 (p + 1))) := by
  have hx := linkDown_lane h hp hl
  have hfall : ∀ e : Dev, d.LossNoted e → e.linkFall p = e := fun e he => linkFall_of_down e (by simpa [Dev.linkUp, he.fab] using hdown)
  refine ⟨fun n hn => ?_, fun hn => ?_, fun hn => ?_, fun b r v hn ⟨b', r', v', he, hm, ho⟩ => ?_⟩
  · subst hn
    rwa [Dev.laneLoss, hfall _ ((lossNoted_inc d 0x09 (p + 1) n (by omega)).trans (lossNoted_set _ 0x04 0 (p + 1) (by omega)))] at hx
  · subst hn
    rwa [Dev.laneLoss, hfall _ (lossNoted_inc d 0x06 (p + 1) 1 (by omega))] at hx
  · subst hn
    rwa [Dev.laneLoss, hfall _ (lossNoted_inc d 0x07 (p + 1) 1 (by omega))] at hx
  · subst hn
    obtain ⟨rfl, rfl, rfl⟩ := LinkLoss.word.inj he
    have hodd := oddWord_of ho
    have hnot : d.wordNoted p b r v = (d.set 0x4010 0x05 v (p + 1)).inc 0x4010 0x08 (p + 1) := if_pos hodd
    have hloss : d.laneLoss p (.word b r v) = d.wordNoted p b r v := by
      rw [Dev.laneLoss, if_neg (by simp [hm]), if_pos (Or.inl hodd), hfall _ (lossNoted_word d b r v)]
    rwa [hloss, hnot] at hx

theorem linkDown_errors (h : s.Tick t d) (hp : p < 12) {loss : LinkLoss} (hl : lossInOrder loss) {n : Nat} (hn : loss = .errors n) :
    Becomes (.linkDown t p loss) s (d.inc 0x4010 0x09 (p + 1) 0 n) := by
  subst hn
  exact linkDown_lane h hp hl

/-- The link of an S port stays as its own conditions have it. -/
theorem linkDown_steady (h : s.Tick t d) (hp : p < 20) (h12 : 12 ≤ p) {loss : LinkLoss} (hl : lossInOrder loss)
    (hc : d.linkUp p = true ↔ (d.portReady p = true ∧ (d.obj 0x4060 0x0E (p + 1) = 0 ∨ d.obj 0x4060 0x0E (p + 1) = 5))) :
    Becomes (.linkDown t p loss) s d := by
  have hn : ¬ (p < 12 ∨ 20 ≤ p) := by omega
  have hseg : d.segLink p = d := by
    simp only [Dev.segLink, hn, if_false, unitOfPort_of_lt hp]
    split
    · next hh => exact linkRise_of_up d 10 (hc.mpr hh)
    · next hh => exact linkFall_of_down d (Bool.eq_false_iff.mpr fun hup => hh (hc.mp hup))
  exact hseg ▸ linkDown_segment h hp h12 hl

end

end Sys2Proof.Machine

/-! SUPPORT. The writes of the ports and the buffer (R142, R173, R175, R186, R197), and O23. -/
namespace Sys2Proof.Machine

/-! What an answer leaves of the stored frames. -/

section
variable (d : Dev)

theorem canPut_fab (x : Nat × Nat × Bytes) : (d.canPut x).fab = d.fab := by
  unfold Dev.canPut
  simp only
  split
  · rfl
  · split
    · rfl
    · split
      · rfl
      · exact (congrArg Dev.fab (bufArm_rest _ _ _ _) :)

theorem sendRecord_frames (o : Option Nat) (v : Service) (a : Source) (n : Bool) (b : Bytes) : (d.sendRecord o v a n b).fab.frames = d.fab.frames := by
  unfold Dev.sendRecord
  split
  · next m =>
    have e := congrArg Dev.fab (sent_sendTo d m (.forwardedReply m v a b)).rest
    exact congrArg FabSt.frames e
  · split
    · unfold Dev.replyPcie
      split
      · rfl
      · simp only
        split <;> rfl
    · simp only
      split <;> rfl
    · exact congrArg FabSt.frames (foldl_leaves Dev.fab _ canPut_fab _ _)
    · split <;> rfl
    · rfl

theorem reply_frames (q : Request) (c : Nat) (b : Bytes) : (d.reply q c b).fab.frames = d.fab.frames :=
  foldl_leaves (fun d : Dev => d.fab.frames) _ (fun d _ => sendRecord_frames d _ _ _ _ _) _ d

/-- The answer to a write of no activation and no state command. -/
theorem tryFinish_kept {β : Type} (g : Dev → β) (q : Request) (h3 : ¬ (recIndex q.bytes = 0xB810 ∧ recSub q.bytes = 0x0B))
    (h4 : ¬ (recIndex q.bytes = 0xA000 ∧ recSub q.bytes = 0x01)) (hg : ∀ x : Dev, g (x.reply q 0).served = g x) : g (d.tryFinish q) = g d := by
  unfold Dev.tryFinish
  rw [afterReply_other _ _ h3 h4]
  split
  · exact hg d
  · rfl

end

/-- A write that passes its checks completes with what its effect and its answer leave. -/
theorem completes_taken {s : State} {t : Nat} {d : Dev} {q : Request} {o : ObjRow} {k : WriteKind} {u : Nat} {c : Instr} {p : Dev → Prop} (h : s.Tick t d)
    (hw : d.takesWrite q o k u = true) (e : exec c s = s.write t k) (i j : Nat) (hi : recIndex q.bytes = i) (hj : recSub q.bytes = j) (h1 : i ≠ 0x1040)
    (h2 : i ≠ 0x1020) (hp : p (((d.writeBase q o).apply i j u q.record q.value).tryFinish q)) : Completes c s p := by
  subst hi hj
  obtain ⟨rfl, -⟩ := h
  exact ⟨_, e.trans (write_taken s t q o k u hw h1 h2), hp⟩

section
variable {s : State} {t u : Nat} {d : Dev} {q : Request} {o : ObjRow}

theorem writeBase_flag (d : Dev) (q : Request) (o : ObjRow) (i j u r : Nat) (hi : i < 65536) (hj : j < 256) (h : i ≠ 0x1041) (h2 : ¬ (i = 0x9400 ∧ j = 7) ∧ ¬ (i = 0x9401 ∧ j = 4))
    (h4 : sentField i j = false := by rfl) : (d.writeBase q o).flag i j u r = d.flag i j u r := by
  unfold Dev.flag
  rw [writeBase_obj d q o i j u r hi hj h h2 h4]

theorem portEnable_enables (h : s.Tick t d) (hw : d.takesWrite q o .portEnable u = true) (hi : recIndex q.bytes = 0x4020) (hj : recSub q.bytes = 0x01) (hv : q.value = 1) :
    Completes (.portEnable t) s (d.Wrote q o fun y =>
      if d.flag 0x4020 0x01 u then y.set 0x4020 0x01 1 u else ((y.set 0x4020 0x01 1 u).laneSetup u).segLink (portOfUnit u)) := by
  refine wrote h hw (by unfold exec; rfl) _ _ hi hj (by omega) (by omega) (by omega) (by omega) ?_
  have hflag := writeBase_flag d q o 0x4020 0x01 u 0 (by omega) (by omega) (by omega) (by omega)
  simp [Dev.apply, Dev.portApply, hv, hflag]

theorem portEnable_disables (h : s.Tick t d) (hw : d.takesWrite q o .portEnable u = true) (hi : recIndex q.bytes = 0x4020) (hj : recSub q.bytes = 0x01) (hv : q.value = 0) :
    Completes (.portEnable t) s (d.Wrote q o fun y =>
      let z := (y.set 0x4020 0x01 0 u).linkFall (portOfUnit u)
      if 13 ≤ u ∧ u < 21 then z.set 0x4060 0x07 0 u else if u < 13 then z.set 0x4010 0x04 0 u else z) := by
  refine wrote h hw (by unfold exec; rfl) _ _ hi hj (by omega) (by omega) (by omega) (by omega) ?_
  simp [Dev.apply, Dev.portApply, hv]

theorem thresholdReset_resets (h : s.Tick t d) (hw : d.takesWrite q o .thresholdReset u = true) (hi : recIndex q.bytes = 0x4030) (hj : recSub q.bytes = 0x42) (hv : q.value = 1) :
    Completes (.thresholdReset t) s (d.Wrote q o fun y => (y.set 0x4030 0x02 (d.obj 0x4030 0x01 u) u).set 0x4030 0x04 0 u) := by
  refine wrote h hw (by unfold exec; rfl) _ _ hi hj (by omega) (by omega) (by omega) (by omega) ?_
  have hobj := writeBase_obj d q o 0x4030 0x01 u 0 (by omega) (by omega) (by omega) (by omega)
  simp [Dev.apply, Dev.portApply, hv, hobj]

theorem thresholdReset_false (h : s.Tick t d) (hw : d.takesWrite q o .thresholdReset u = true) (hi : recIndex q.bytes = 0x4030) (hj : recSub q.bytes = 0x42) (hv : q.value = 0) :
    Completes (.thresholdReset t) s (d.Wrote q o id) := by
  refine wrote h hw (by unfold exec; rfl) _ _ hi hj (by omega) (by omega) (by omega) (by omega) ?_
  simp [Dev.apply, Dev.portApply, hv]

theorem cableTestStart_starts (h : s.Tick t d) (hw : d.takesWrite q o .cableTestStart u = true) (hi : recIndex q.bytes = 0x4060) (hj : recSub q.bytes = 0x11) (hv : q.value = 1) :
    Completes (.cableTestStart t) s (d.Wrote q o fun y => y.set 0x4060 0x12 1 u) := by
  refine wrote h hw (by unfold exec; rfl) _ _ hi hj (by omega) (by omega) (by omega) (by omega) ?_
  simp [Dev.apply, Dev.portApply, hv]

theorem cableTestStart_false (h : s.Tick t d) (hw : d.takesWrite q o .cableTestStart u = true) (hi : recIndex q.bytes = 0x4060) (hj : recSub q.bytes = 0x11) (hv : q.value = 0) :
    Completes (.cableTestStart t) s (d.Wrote q o id) := by
  refine wrote h hw (by unfold exec; rfl) _ _ hi hj (by omega) (by omega) (by omega) (by omega) ?_
  simp [Dev.apply, Dev.portApply, hv]

/-! The peaks of the cell counters (R142). -/

/-- Every peak of a list of cell counters starts again at its counter. -/
def Dev.peaksReset (d : Dev) (l : List (Nat × Nat)) : Dev := l.foldl (fun d x => d.set x.1 0x05 (d.obj x.1 0x04 0 x.2) 0 x.2) d

theorem peaksReset_peak (l : List (Nat × Nat)) (d : Dev) (hl : ∀ x ∈ l, x.1 < 65536) {i : Nat} (r : Nat) (hi : i < 65536) :
    (d.peaksReset l).obj i 0x05 0 r = if (i, r) ∈ l then d.obj i 0x04 0 r else d.obj i 0x05 0 r := by
  induction l generalizing d with
  | nil => rfl
  | cons x l ih =>
    obtain ⟨hx, hl⟩ := List.forall_mem_cons.mp hl
    have h4 : (d.set x.1 0x05 (d.obj x.1 0x04 0 x.2) 0 x.2).obj i 0x04 0 r = d.obj i 0x04 0 r := obj_set_field _ (by omega) hx (by omega) hi (by omega)
    refine (ih _ hl).trans ?_
    rw [h4]
    by_cases hmem : (i, r) ∈ l
    · rw [if_pos hmem, if_pos (List.mem_cons_of_mem _ hmem)]
    · rw [if_neg hmem]
      by_cases hxi : (i, r) = x
      · subst hxi
        rw [if_pos List.mem_cons_self, obj_set_same]
      · rw [if_neg (by simp [hmem, hxi])]
        by_cases hfield : i = x.1
        · subst hfield
          exact obj_set_place _ (by omega) (by omega) (fun hr => hxi (Prod.ext rfl hr.2))
        · exact obj_set_field _ (by omega) hx (by omega) hi (by omega)

theorem peaksReset_frames (l : List (Nat × Nat)) (d : Dev) : (d.peaksReset l).fab.frames = d.fab.frames := by
  refine foldl_leaves (fun d : Dev => d.fab.frames) _ (fun d x => ?_) l d
  rfl

theorem reserveList_index : ∀ x ∈ reserveList, x.1 < 65536 := by decide

theorem mem_reserveList {r : Nat} : (r < 25 → (0x2010, r) ∈ reserveList ∧ (0x2020, r) ∈ reserveList) ∧ (r < 8 → (0x2030, r) ∈ reserveList) := by
  simp [reserveList]

/-- The peaks start again (R142): those of the cell counters, and those of the VOQs. -/
def Dev.peaksAll (d : Dev) : Dev :=
  (List.range 12).foldl (fun d i => d.set 0x2050 0x07 (maxOf ((List.range 12).map (fun j => maxOf ((List.range 8).map (d.voqSize i j))))) 0 i) (d.peaksReset reserveList)

theorem peaksAll_obj (d : Dev) {i j : Nat} (u r : Nat) (hi : i < 65536) (hj : j < 256) (h : i ≠ 0x2050) :
    d.peaksAll.obj i j u r = (d.peaksReset reserveList).obj i j u r := by
  refine foldl_leaves (fun d : Dev => d.obj i j u r) _ (fun d k => ?_) _ _
  exact obj_set_field _ (by omega) (by omega) hj hi (by omega)

theorem peaksAll_frames (d : Dev) : d.peaksAll.fab.frames = d.fab.frames := by
  refine (foldl_leaves (fun d : Dev => d.fab.frames) _ (fun d k => ?_) _ _).trans (peaksReset_frames _ d)
  rfl

theorem reply_served_obj (d : Dev) (q : Request) {i j : Nat} (u r : Nat) (hi : i < 65536) (hj : j < 256) (h1 : i ≠ 0x6020) (h2 : i ≠ 0x6030)
    (hf : sentField i j = false) : ((d.reply q 0).served).obj i j u r = d.obj i j u r := (told_reply d q 0 []).obj i j u r hi hj h1 h2 hf

theorem peakReset_resets (h : s.Tick t d) (hw : d.takesWrite q o .peakReset u = true) (hi : recIndex q.bytes = 0x2000) (hj : recSub q.bytes = 0x0C) (hv : q.value = 1) :
    Completes (.peakReset t) s fun x =>
      (∀ r : Nat, r < 25 → x.obj 0x2010 0x05 0 r = d.obj 0x2010 0x04 0 r ∧ x.obj 0x2020 0x05 0 r = d.obj 0x2020 0x04 0 r) ∧
        (∀ r : Nat, r < 8 → x.obj 0x2030 0x05 0 r = d.obj 0x2030 0x04 0 r) ∧ x.fab.frames = d.fab.frames := by
  have happly : (d.writeBase q o).apply 0x2000 0x0C u q.record q.value = (d.writeBase q o).peaksAll := by
    simp [Dev.apply, Dev.fabApply, hv, Dev.peaksAll, Dev.peaksReset]
  refine completes_taken h hw (by unfold exec; rfl) _ _ hi hj (by omega) (by omega) ?_
  rw [happly]
  have hpeak : ∀ i r, (i, r) ∈ reserveList → (i = 0x2010 ∨ i = 0x2020 ∨ i = 0x2030) → ((d.writeBase q o).peaksAll.tryFinish q).obj i 0x05 0 r = d.obj i 0x04 0 r :=
    fun i r hr hk => by
      have hsent : sentField i 0x05 = false ∧ sentField i 0x04 = false := by rcases hk with rfl | rfl | rfl <;> decide
      rw [tryFinish_kept _ (fun x => x.obj i 0x05 0 r) q (by omega) (by omega) (fun x => reply_served_obj x q 0 r (by omega) (by omega) (by omega) (by omega) hsent.1),
        peaksAll_obj _ _ _ (by omega) (by omega) (by omega), peaksReset_peak _ _ reserveList_index _ (by omega), if_pos hr,
        writeBase_obj _ _ _ _ _ _ _ (by omega) (by omega) (by omega) (by omega) hsent.2]
  refine ⟨fun r hr => ⟨hpeak _ r (mem_reserveList.1 hr).1 (by omega), hpeak _ r (mem_reserveList.1 hr).2 (by omega)⟩,
    fun r hr => hpeak _ r (mem_reserveList.2 hr) (by omega), ?_⟩
  rw [tryFinish_kept _ (fun x => x.fab.frames) q (by omega) (by omega) (fun x => reply_frames x q 0 []), peaksAll_frames, writeBase_fab]

theorem peakReset_false (h : s.Tick t d) (hw : d.takesWrite q o .peakReset u = true) (hi : recIndex q.bytes = 0x2000) (hj : recSub q.bytes = 0x0C) (hv : q.value = 0) :
    Completes (.peakReset t) s (d.Wrote q o id) := by
  refine wrote h hw (by unfold exec; rfl) _ _ hi hj (by omega) (by omega) (by omega) (by omega) ?_
  simp [Dev.apply, Dev.fabApply, hv]

end

/-- Settles O23: flush and hold-down by the port's state, the link by what the port's conditions say, writes by the object they name. -/
theorem portLinkAndWrites : Obligations.PortLinkAndWrites := by
  unfold Obligations.PortLinkAndWrites
  refine ⟨fun s t d p h => ⟨fun hp => ?_, fun hp r w half hr hw => ?_, fun hp loss hl => ?_⟩, fun s t d q o u h _ => ?_⟩
  · exact ⟨flushComplete_flushes h hp, flushComplete_other h hp, flushPort_freeOf d p, fun ha => ⟨holdDownExpiry_ends h ha hp, holdDownExpiry_waits h ha hp⟩⟩
  · have hu := unitOfPort_of_lt hp
    refine ⟨fun hf => linkUp_notReady h hp hr hw (portReady_of_disabled (hu ▸ hf)), fun h1 h2 h3 h4 h5 hdown => ?_⟩
    have hready : d.portReady p = true := portReady_of (hu ▸ h1) (hu ▸ h2) h3 h4 (hu ▸ h5)
    exact ⟨linkUp_rises h hp hr hw hready hdown, linkUp_refused h hr hw hready hdown, linkUp_faulty h hp hr hw hready hdown⟩
  · exact ⟨fun hlost hup => linkDown_falls h hp hl hup hlost, fun hp12 hdown => linkDown_noted h hp12 hl hdown, fun hp12 n => linkDown_errors h hp12 hl,
      fun h12 => linkDown_steady h hp h12 hl⟩
  · exact ⟨fun hw hi hj => ⟨portEnable_enables h hw hi hj, portEnable_disables h hw hi hj⟩, fun hw hi hj => ⟨peakReset_resets h hw hi hj, peakReset_false h hw hi hj⟩,
      fun hw hi hj => ⟨thresholdReset_resets h hw hi hj, thresholdReset_false h hw hi hj⟩,
      fun hw hi hj => ⟨cableTestStart_starts h hw hi hj, cableTestStart_false h hw hi hj⟩⟩

end Sys2Proof.Machine

/-! SUPPORT. Reception: a flow-control frame that waits leaves at the end of a silent frame, and counts. -/

namespace Sys2Proof.Machine

/-- A silent frame in reception: too short, or consumed by the MAC (R177). -/
def silentRx : RxSt := { frame := none, len := 0, kind := 0, learn := none, remote := false, stamp := 0, sec := none, oversize := false, dead := false, silent := true }

/-- A device with a silent frame in reception at port N0, where a release frame waits for the frame boundary (R187). -/
def pauseBehindSilent : Dev := { fab := { rx := [(0, some silentRx)] }, ports := { pauses := [(0, [0])] } }

/-- A received frame of no bytes, without a stack header. -/
def bareFrame : EthFrame := { data := [], preemptible := false, badBuckets := [], hdr := none, sec := none }

theorem pauseBehindSilent_tick : State.Tick { dev := pauseBehindSilent } 0 pauseBehindSilent := ⟨by decide, by decide⟩

/-- What a command makes of an object outside the delivery of events is one value. -/
theorem Becomes.obj_unique {c : Instr} {s : State} {x y : Dev} (hx : Becomes c s x) (hy : Becomes c s y) {i j : Nat} (u r : Nat)
    (hi : i < 65536) (hj : j < 256) (hf : deliveryField i j = false) : x.obj i j u r = y.obj i j u r := by
  have hclose : s.close x = s.close y := congrArg State.dev (Host.Outcome.next.inj (Eq.trans (Eq.symm hx) hy))
  rw [← close_obj x s u r hi hj hf, hclose, close_obj y s u r hi hj hf]

theorem frameEnd_becomes {s : State} {t p n : Nat} {d : Dev} {k : Bool} {e : RxEnd} (h : s.Tick t d) (hp : p < 22) :
    Becomes (.ethFrameEnd t p k n e) s (((d.frameReceived p k n e).segGoesOn p).usePorts [0, 1]) := by
  refine becomes h (by unfold exec execEthFrameEnd State.portCmd; rfl) (decide_eq_true hp) ?_
  exact rfl

/-- The end of the silent frame sends the release frame, which `A:4050.09` counts. -/
theorem silentEnd_counts_release : (((pauseBehindSilent.frameReceived 0 false 1 .good).segGoesOn 0).usePorts [0, 1]).obj 0x4050 0x09 1 = 1 := by
  decide +kernel

/-- Refutes O24: the end of a silent frame brings the flow control of all ports (R187), so a release frame that waits leaves and raises `A:4050.09`; the clause says that a silent frame's end changes no object. -/
theorem not_reception : ¬ Obligations.Reception := by
  unfold Obligations.Reception
  intro h
  obtain ⟨-, -, -, -, hsilent, -⟩ := h _ 0 _ 0 bareFrame pauseBehindSilent_tick (by decide) (by decide) (by decide)
  obtain ⟨⟨x, hx, -, hstore, -⟩, -⟩ := hsilent false silentRx rfl rfl rfl (.inl (by decide))
  have hone : x.obj 0x4050 0x09 1 = 1 :=
    (Becomes.obj_unique hx (frameEnd_becomes pauseBehindSilent_tick (by decide)) 1 0 (by decide) (by decide) (by decide)).trans silentEnd_counts_release
  have hkept : x.obj 0x4050 0x09 1 = pauseBehindSilent.obj 0x4050 0x09 1 := by unfold Dev.obj; rw [hstore]
  have hzero : pauseBehindSilent.obj 0x4050 0x09 1 = 0 := by decide
  omega

end Sys2Proof.Machine

/-! SUPPORT. Flow control, sent and received (R187, R189), and O25. -/
namespace Sys2Proof.Machine

/-! Queues that a received frame stops (R189). -/

/-- End of a stop that begins now, for a pause time. -/
def Dev.stopEnd (d : Dev) (p time : Nat) : Option Nat :=
  if time = 0 then none else some (d.now + cdiv (time * 640000) (max 1 (d.obj 0x4020 0x04 (unitOfPort p))))

/-- Stop those of a list of queues that are selected, each for its time. -/
def Dev.stopQueues (d : Dev) (p : Nat) (sel : Nat → Bool) (time : Nat → Nat) (l : List Nat) : Dev :=
  l.foldl (fun d q => if sel q then d.stopQueue p q (time q) else d) d

section
variable (d : Dev) (p : Nat)

theorem stopQueue_stopped (q time k : Nat) :
    tget (fun _ => none) (d.stopQueue p q time).ports.stopped k = if k = p * 8 + q then d.stopEnd p time else tget (fun _ => none) d.ports.stopped k :=
  tget_tput _ _ _ _ _

theorem stopQueue_stopEnd (q time n : Nat) : (d.stopQueue p q time).stopEnd p n = d.stopEnd p n := rfl

theorem stopQueues_store (sel : Nat → Bool) (time : Nat → Nat) (l : List Nat) : (d.stopQueues p sel time l).store = d.store := by
  refine foldl_leaves (fun d : Dev => d.store) _ (fun d q => ?_) _ _
  split <;> rfl

theorem stopQueues_stopped (sel : Nat → Bool) (time : Nat → Nat) (l : List Nat) (q : Nat) :
    tget (fun _ => none) (d.stopQueues p sel time l).ports.stopped (p * 8 + q) =
      if q ∈ l ∧ sel q = true then d.stopEnd p (time q) else tget (fun _ => none) d.ports.stopped (p * 8 + q) := by
  induction l generalizing d with
  | nil => simp [Dev.stopQueues]
  | cons k l ih =>
    have hstep : d.stopQueues p sel time (k :: l) = (if sel k then d.stopQueue p k (time k) else d).stopQueues p sel time l := rfl
    rw [hstep, ih]
    by_cases hk : sel k = true
    · rw [if_pos hk, stopQueue_stopped, stopQueue_stopEnd]
      by_cases hq : q = k <;> simp [hq, hk]
    · rw [if_neg hk]
      by_cases hq : q = k <;> simp [hq, hk]

theorem stopTime_stopped : (d.stopTime p).ports.stopped = d.ports.stopped := by
  unfold Dev.stopTime
  dsimp only
  split <;> rfl

theorem stopTime_obj {i j : Nat} (u r : Nat) (hi : i < 65536) (hj : j < 256) (h : ¬ (i = 0x4050 ∧ j = 0x0B)) : (d.stopTime p).obj i j u r = d.obj i j u r := by
  unfold Dev.stopTime
  dsimp only
  split
  · rfl
  · exact obj_inc64_field _ (by omega) (by omega) hj hi h
  · rfl

end

/-! Flow-control frames that a port sends (R187). -/

section
variable (d : Dev) (p n : Nat)

/-- The port's flow-control frame waits, and `A:4050.07` says what it asks for. -/
def Dev.pauseAsked (d : Dev) (p time : Nat) : Dev :=
  let d := if (d.pauses p).getLast? = some time then d else d.setPauses p (d.pauses p ++ [time])
  if time = 0 then d.set 0x4050 0x07 0 (unitOfPort p)
  else (d.set 0x4050 0x07 1 (unitOfPort p)) |> fun d => { d with ports := { d.ports with xoffAt := tput (fun _ => 0) d.ports.xoffAt p d.now } }

theorem sendPause_eq : d.sendPause p n = (d.pauseAsked p n).pauseDue p := rfl

variable {d p} in
theorem pauseAsked_pauses (h : d.pauses p = []) : (d.pauseAsked p n).pauses p = [n] := by
  unfold Dev.pauseAsked
  simp only [h, List.getLast?_nil, reduceCtorEq, if_false, List.nil_append]
  split <;> exact tget_tput_same _ _ _ _

theorem pauseAsked_outbox : (d.pauseAsked p n).outbox = d.outbox := by
  unfold Dev.pauseAsked
  dsimp only
  split <;> split <;> rfl

theorem pauseAsked_fab : (d.pauseAsked p n).fab = d.fab := by
  unfold Dev.pauseAsked
  dsimp only
  split <;> split <;> rfl

theorem pauseAsked_obj {i j : Nat} (u r : Nat) (hi : i < 65536) (hj : j < 256) (h : ¬ (i = 0x4050 ∧ j = 0x07)) : (d.pauseAsked p n).obj i j u r = d.obj i j u r := by
  have hset (e : Dev) (v : Nat) : (e.set 0x4050 0x07 v (unitOfPort p)).obj i j u r = e.obj i j u r := obj_set_field e (by omega) (by omega) hj hi h
  unfold Dev.pauseAsked
  dsimp only
  split <;> split <;> exact hset _ _

theorem pauseAsked_lineFree : (d.pauseAsked p n).lineFree p = d.lineFree p := by unfold Dev.lineFree; rw [pauseAsked_fab]

theorem pauseDue_waits {d : Dev} (h : d.lineFree p = false) : d.pauseDue p = d := if_pos (Or.inr (by simp [h]))

/-- One waiting flow-control frame leaves. -/
theorem pauseDue_single {d : Dev} (h : d.lineFree p = true) (hn : d.pauses p = [n]) :
    d.pauseDue p = ((d.setPauses p []).out (.pause p (d.obj 0x4050 0x01 (unitOfPort p) == 2) (d.obj 0x4050 0x05 (unitOfPort p)) n)).inc 0x4050 (if n = 0 then 0x09 else 0x08) (unitOfPort p) := by
  unfold Dev.pauseDue
  rw [if_neg (by simp [h, hn]), hn]
  rfl

variable {d p} in
theorem sendPause_waits (h : d.pauses p = []) (hl : d.lineFree p = false) : (d.sendPause p n).outbox = d.outbox ∧ (d.sendPause p n).pauses p = [n] := by
  rw [sendPause_eq, pauseDue_waits p ((pauseAsked_lineFree d p n).trans hl)]
  exact ⟨pauseAsked_outbox d p n, pauseAsked_pauses n h⟩

variable {d p} in
theorem sendPause_leaves (h : d.pauses p = []) (hl : d.lineFree p = true) :
    (d.sendPause p n).outbox = .pause p (d.obj 0x4050 0x01 (unitOfPort p) == 2) (d.obj 0x4050 0x05 (unitOfPort p)) n :: d.outbox ∧ (d.sendPause p n).pauses p = [] := by
  rw [sendPause_eq, pauseDue_single p n ((pauseAsked_lineFree d p n).trans hl) (pauseAsked_pauses n h),
    pauseAsked_obj d p n _ _ (by omega) (by omega) (by omega), pauseAsked_obj d p n _ _ (by omega) (by omega) (by omega), ← pauseAsked_outbox d p n]
  exact ⟨rfl, tget_tput_same _ _ _ _⟩

end

section
variable {d : Dev} {p : Nat}

theorem flowPort_low (h : d.obj 0x4050 0x01 (unitOfPort p) ≠ 0) (h0 : d.obj 0x4050 0x07 (unitOfPort p) = 0) :
    d.flowPort p = if d.obj 0x4050 0x02 (unitOfPort p) < d.obj 0x2010 0x04 0 p then d.sendPause p (d.obj 0x4050 0x04 (unitOfPort p)) else d := by
  unfold Dev.flowPort
  dsimp only
  rw [if_neg h, if_pos h0]

theorem flowPort_xoff (h : d.obj 0x4050 0x01 (unitOfPort p) ≠ 0) (h1 : d.obj 0x4050 0x07 (unitOfPort p) = 1) :
    d.flowPort p = if d.obj 0x2010 0x04 0 p < d.obj 0x4050 0x03 (unitOfPort p) then (d.unsendPause p).sendPause p 0 else d := by
  unfold Dev.flowPort
  dsimp only
  rw [if_neg h, if_neg (by omega)]

theorem unsendPause_none (h : tget (fun _ => none) d.ports.resentAt p = none) : d.unsendPause p = d := if_neg (by simp [h])

end

/-! The commands. -/

section
variable {s : State} {t p : Nat} {d : Dev} {b : Bytes}

theorem macControl_becomes (h : s.Tick t d) (hp : p < 22) (hb : isMacControl b = true) {x : Dev}
    (hx : (if ¬ d.linkUp p then d
      else if b.length + 4 < 64 then d.inc 0x4070 0x06 (unitOfPort p)
      else
        if (field b 14 2 = 1 ∨ (field b 14 2 == 0x0101) = true) ∧ (p < 12 ∨ 20 ≤ p) then
          if ((d.inc 0x4070 0x08 (unitOfPort p)).inc 0x4050 0x0A (unitOfPort p)).flag 0x4050 0x06 (unitOfPort p) then
            (((List.range 8).foldl (fun d q =>
              if (field b 14 2 == 0x0101) = true then (if bit (field b 16 2) q then d.stopQueue p q (field b (18 + 2 * q) 2) else d)
              else d.stopQueue p q (field b 16 2)) ((d.inc 0x4070 0x08 (unitOfPort p)).inc 0x4050 0x0A (unitOfPort p)))).stopTime p
          else (d.inc 0x4070 0x08 (unitOfPort p)).inc 0x4050 0x0A (unitOfPort p)
        else d.inc 0x4070 0x08 (unitOfPort p)) = x) : Becomes (.macControlReceived t p b) s x := by
  refine becomes h (by unfold exec; rfl) (by simp [hp, hb]) ?_
  exact hx

/-- A PAUSE or PFC frame that flow control takes: it counts, and stops the queues that it selects for their times. -/
def Dev.controlled (d : Dev) (p : Nat) (sel : Nat → Bool) (time : Nat → Nat) : Dev :=
  (((d.inc 0x4070 0x08 (unitOfPort p)).inc 0x4050 0x0A (unitOfPort p)).stopQueues p sel time (List.range 8)).stopTime p

theorem controlled_obj {sel : Nat → Bool} {time : Nat → Nat} {i j : Nat} (u r : Nat) (hi : i < 65536) (hj : j < 256) (h : ¬ (i = 0x4050 ∧ j = 0x0B)) :
    (d.controlled p sel time).obj i j u r = ((d.inc 0x4070 0x08 (unitOfPort p)).inc 0x4050 0x0A (unitOfPort p)).obj i j u r := by
  unfold Dev.controlled
  rw [stopTime_obj _ _ _ _ hi hj h]
  exact congrArg (fun m => tget objDefault m _) (stopQueues_store _ _ _ _ _)

theorem controlled_counts {sel : Nat → Bool} {time : Nat → Nat} :
    (d.controlled p sel time).obj 0x4070 0x08 (unitOfPort p) = (d.obj 0x4070 0x08 (unitOfPort p) + 1) % 2 ^ 32 ∧
      (d.controlled p sel time).obj 0x4050 0x0A (unitOfPort p) = (d.obj 0x4050 0x0A (unitOfPort p) + 1) % 2 ^ 32 := by
  constructor
  · rw [controlled_obj _ _ (by omega) (by omega) (by omega), obj_inc_field _ (by omega) (by omega) (by omega) (by omega) (by omega), obj_inc_same]
  · rw [controlled_obj _ _ (by omega) (by omega) (by omega), obj_inc_same, obj_inc_field _ (by omega) (by omega) (by omega) (by omega) (by omega)]

theorem controlled_stopped {sel : Nat → Bool} {time : Nat → Nat} {q : Nat} (hq : q < 8) :
    tget (fun _ => none) (d.controlled p sel time).ports.stopped (p * 8 + q) =
      if sel q = true then d.stopEnd p (time q) else tget (fun _ => none) d.ports.stopped (p * 8 + q) := by
  unfold Dev.controlled
  have hend (n : Nat) : ((d.inc 0x4070 0x08 (unitOfPort p)).inc 0x4050 0x0A (unitOfPort p)).stopEnd p n = d.stopEnd p n := by
    unfold Dev.stopEnd
    rw [obj_inc_field _ (by omega) (by omega) (by omega) (by omega) (by omega), obj_inc_field _ (by omega) (by omega) (by omega) (by omega) (by omega)]
    rfl
  rw [stopTime_stopped, stopQueues_stopped, hend]
  simp only [List.mem_range, hq, true_and]
  rfl

section
variable (h : s.Tick t d) (hp : p < 22) (hb : isMacControl b = true)
include h hp hb

theorem macControl_down (hl : d.linkUp p = false) : Becomes (.macControlReceived t p b) s d := by
  refine macControl_becomes h hp hb ?_
  simp [hl]

theorem macControl_undersize (hl : d.linkUp p = true) (h6 : b.length < 60) : Becomes (.macControlReceived t p b) s (d.inc 0x4070 0x06 (unitOfPort p)) := by
  refine macControl_becomes h hp hb ?_
  rw [if_neg (by simp [hl]), if_pos (by omega)]

theorem macControl_other (hl : d.linkUp p = true) (h6 : 60 ≤ b.length) (ho : (12 ≤ p ∧ p < 20) ∨ (field b 14 2 ≠ 1 ∧ field b 14 2 ≠ 0x0101)) :
    Becomes (.macControlReceived t p b) s (d.inc 0x4070 0x08 (unitOfPort p)) := by
  refine macControl_becomes h hp hb ?_
  rw [if_neg (by simp [hl]), if_neg (by omega), if_neg]
  rw [beq_iff_eq]
  omega

theorem macControl_noFlow (hl : d.linkUp p = true) (h6 : 60 ≤ b.length) (hr : p < 12 ∨ 20 ≤ p) (ho : field b 14 2 = 1 ∨ field b 14 2 = 0x0101)
    (hf : d.flag 0x4050 0x06 (unitOfPort p) = false) : Becomes (.macControlReceived t p b) s ((d.inc 0x4070 0x08 (unitOfPort p)).inc 0x4050 0x0A (unitOfPort p)) := by
  refine macControl_becomes h hp hb ?_
  rw [if_neg (by simp [hl]), if_neg (by omega), if_pos ⟨by rwa [beq_iff_eq], hr⟩, if_neg]
  simp (disch := omega) only [Dev.flag, obj_inc_field]
  exact ne_true_of_eq_false hf

theorem macControl_stops (hl : d.linkUp p = true) (h6 : 60 ≤ b.length) (hr : p < 12 ∨ 20 ≤ p) (ho : field b 14 2 = 1 ∨ field b 14 2 = 0x0101)
    (hf : d.flag 0x4050 0x06 (unitOfPort p) = true) :
    Becomes (.macControlReceived t p b) s (d.controlled p (fun q => field b 14 2 != 0x0101 || bit (field b 16 2) q)
      (fun q => if field b 14 2 = 0x0101 then field b (18 + 2 * q) 2 else field b 16 2)) := by
  refine macControl_becomes h hp hb ?_
  rw [if_neg (by simp [hl]), if_neg (by omega), if_pos ⟨by rwa [beq_iff_eq], hr⟩, if_pos]
  · unfold Dev.controlled Dev.stopQueues
    congr 2
    funext e q
    by_cases hpfc : field b 14 2 = 0x0101 <;> simp [hpfc]
  · simp (disch := omega) only [Dev.flag, obj_inc_field]
    exact hf

end

theorem pauseExpiry_ends {q e : Nat} (h : s.Tick t d) (hp : p < 22) (hq : q < 8) (hs : tget (fun _ => none) d.ports.stopped (p * 8 + q) = some e) (he : e ≤ d.now) :
    Completes (.pauseExpiry t p q) s fun x => ∀ k : Nat, tget (fun _ => none) x.ports.stopped k = (if k = p * 8 + q then none else tget (fun _ => none) d.ports.stopped k) := by
  refine completes h (by unfold exec; rfl) (by simp [hp, hq]) ?_
  rw [hs]
  intro k
  simp only [he, if_true]
  rw [stopTime_stopped, stopQueue_stopped]
  rfl

theorem pauseExpiry_waits {q e : Nat} (h : s.Tick t d) (hp : p < 22) (hq : q < 8) (hs : tget (fun _ => none) d.ports.stopped (p * 8 + q) = some e) (he : d.now < e) :
    Becomes (.pauseExpiry t p q) s d := by
  refine becomes h (by unfold exec; rfl) (by simp [hp, hq]) ?_
  rw [hs]
  exact if_neg (by omega)

theorem xoffResend_wf (hp : p < 22) (hr : p < 12 ∨ 20 ≤ p) : (decide (p < 12) || p == 20 || p == 21) = true := by
  simp only [Bool.or_eq_true, decide_eq_true_eq, beq_iff_eq]
  omega

theorem xoffResend_sends (h : s.Tick t d) (hp : p < 22) (hr : p < 12 ∨ 20 ≤ p) (h1 : d.obj 0x4050 0x01 (unitOfPort p) ≠ 0) (h7 : d.obj 0x4050 0x07 (unitOfPort p) = 1)
    (hc : d.obj 0x4050 0x03 (unitOfPort p) ≤ d.obj 0x2010 0x04 0 p)
    (hd : d.obj 0x4050 0x04 (unitOfPort p) * 640000 ≤ (d.now - tget (fun _ => 0) d.ports.xoffAt p) * 2 * d.obj 0x4020 0x04 (unitOfPort p)) :
    Becomes (.xoffResendTimer t p) s ((d.sendPause p (d.obj 0x4050 0x04 (unitOfPort p))).portUpd fun x => { x with resentAt := tput (fun _ => none) d.ports.resentAt p (some d.now) }) := by
  refine becomes h (by unfold exec; rfl) (xoffResend_wf hp hr) ?_
  exact if_pos ⟨h1, h7, decide_eq_true hd, hc⟩

theorem xoffResend_waits (h : s.Tick t d) (hp : p < 22) (hr : p < 12 ∨ 20 ≤ p)
    (hn : d.obj 0x4050 0x01 (unitOfPort p) = 0 ∨ d.obj 0x4050 0x07 (unitOfPort p) ≠ 1 ∨ d.obj 0x2010 0x04 0 p < d.obj 0x4050 0x03 (unitOfPort p)) :
    Becomes (.xoffResendTimer t p) s d := by
  refine becomes h (by unfold exec; rfl) (xoffResend_wf hp hr) ?_
  exact if_neg fun ⟨h1, h7, _, hc⟩ => by omega

end

/-- Settles O25: the queues that a control frame selects get the end of their stop; a port's own frame waits for a free line. -/
theorem flowControl : Obligations.FlowControl := by
  unfold Obligations.FlowControl
  refine fun s t d p b h hp => ⟨fun hb => ?_, fun q e hq hs => ?_, fun h1 => ?_, fun n hn => ?_, fun hr => ?_⟩
  · refine ⟨macControl_down h hp hb, macControl_undersize h hp hb, macControl_other h hp hb, macControl_noFlow h hp hb, fun hl h6 hr hf => ⟨fun ho => ?_, fun ho => ?_⟩⟩
    · refine Becomes.completes (macControl_stops h hp hb hl h6 hr (.inl ho) hf) ⟨controlled_counts.1, controlled_counts.2, fun q hq => ?_⟩
      rw [controlled_stopped hq, if_pos (by simp [ho]), if_neg (by omega)]
      rfl
    · refine Becomes.completes (macControl_stops h hp hb hl h6 hr (.inr ho) hf) ⟨controlled_counts.1, controlled_counts.2, fun q hq => ?_⟩
      rw [controlled_stopped hq, if_pos ho]
      simp [ho, Dev.stopEnd]
  · exact ⟨pauseExpiry_ends h hp hq hs, pauseExpiry_waits h hp hq hs⟩
  · exact ⟨flowPort_low h1, fun h7 hc => (flowPort_xoff h1 h7).trans (if_neg (by omega)),
      fun h7 hc hn => (flowPort_xoff h1 h7).trans ((if_pos hc).trans (by rw [unsendPause_none hn]))⟩
  · exact ⟨sendPause_waits n hn, sendPause_leaves n hn⟩
  · exact ⟨xoffResend_sends h hp hr, xoffResend_waits h hp hr⟩

end Sys2Proof.Machine

/-! SUPPORT. The matching of the fabric where one request, or none, is made (R120). -/
namespace Sys2Proof.Machine

/-! Lists of which one element counts. -/

section
variable {α β : Type}

theorem foldl_single [DecidableEq α] {f : β → α → β} {a : α} (h : ∀ b, ∀ x, x ≠ a → f b x = b) {l : List α} (hl : l.Nodup) (ha : a ∈ l) (b : β) :
    l.foldl f b = f b a := by
  induction l generalizing b with
  | nil => simp at ha
  | cons x l ih =>
    obtain ⟨hx, hl'⟩ := List.nodup_cons.1 hl
    rw [List.foldl_cons]
    by_cases hxa : x = a
    · subst hxa
      have hrest : ∀ l : List α, x ∉ l → ∀ b, l.foldl f b = b := fun l hx b => by
        induction l with
        | nil => rfl
        | cons y l ih =>
          rw [List.foldl_cons, h b y (fun e => hx (e ▸ List.mem_cons_self)), ih (fun e => hx (List.mem_cons_of_mem _ e))]
      exact hrest l hx _
    · rw [h b x hxa]
      exact ih hl' ((List.mem_cons.1 ha).resolve_left (fun e => hxa e.symm)) b

theorem filterMap_single [DecidableEq α] {f : α → Option β} {a : α} {b : β} (h : ∀ x, x ≠ a → f x = none) (hf : f a = some b) {l : List α} (hl : l.Nodup) (ha : a ∈ l) :
    l.filterMap f = [b] := by
  induction l with
  | nil => simp at ha
  | cons x l ih =>
    obtain ⟨hx, hl'⟩ := List.nodup_cons.1 hl
    by_cases hxa : x = a
    · subst hxa
      rw [List.filterMap_cons_some hf, List.filterMap_eq_nil_iff.2 (fun y hy => h y (fun e => hx (e ▸ hy)))]
    · rw [List.filterMap_cons_none (h x hxa)]
      exact ih hl' ((List.mem_cons.1 ha).resolve_left (fun e => hxa e.symm))

theorem findSome?_single {f : α → Option β} {a : α} {b : β} (h : ∀ x, x ≠ a → f x = none) (hf : f a = some b) {l : List α} (ha : a ∈ l) :
    l.findSome? f = some b := by
  induction l with
  | nil => simp at ha
  | cons x l ih =>
    by_cases hxa : x = a
    · rw [List.findSome?_cons, hxa, hf]
    · rw [List.findSome?_cons, h x hxa]
      exact ih ((List.mem_cons.1 ha).resolve_left (fun e => hxa e.symm))

theorem foldl_max_le (l : List Nat) (a b : Nat) : l.foldl max a ≤ b ↔ a ≤ b ∧ ∀ x ∈ l, x ≤ b := by
  induction l generalizing a with
  | nil => simp
  | cons x l ih => simp [ih, and_assoc]

theorem maxOf_eq {l : List Nat} {b : Nat} (hb : b ∈ l) (h : ∀ x ∈ l, x ≤ b) : maxOf l = b :=
  Nat.le_antisymm ((foldl_max_le l 0 b).2 ⟨Nat.zero_le _, h⟩) (((foldl_max_le l 0 (maxOf l)).1 (Nat.le_refl _)).2 b hb)

theorem maxOf_zero {l : List Nat} (h : ∀ x ∈ l, x = 0) : maxOf l = 0 :=
  Nat.le_zero.1 ((foldl_max_le l 0 0).2 ⟨Nat.le_refl _, fun x hx => Nat.le_of_eq (h x hx)⟩)

/-- Some turn of a ring of `n` comes to each of its places. -/
theorem mem_ring {n m t : Nat} (hm : m < n) : m ∈ (List.range n).map (fun k => (t + k) % n) := by
  refine List.mem_map.2 ⟨(m + n - t % n) % n, List.mem_range.2 (Nat.mod_lt _ (by omega)), ?_⟩
  have ht : t % n < n := Nat.mod_lt _ (by omega)
  rw [Nat.add_mod, Nat.mod_mod, ← Nat.add_mod_mod, Nat.mod_mod, Nat.add_mod_mod, show t % n + (m + n - t % n) = m + n by omega, Nat.add_mod_right, Nat.mod_eq_of_lt hm]

theorem ringFind_single {p a : Nat} {test : Nat → Bool} (ha : a < 12) (h : ∀ x, test x = true ↔ x = a) : ringFind p test = some a := by
  unfold ringFind
  cases hf : List.find? test ((List.range 12).map (fun k => (p + k) % 12)) with
  | none => exact absurd ((h a).2 rfl) (List.find?_eq_none.1 hf a (mem_ring ha))
  | some x => rw [(h x).1 (List.find?_some hf)]

end

/-! The matching of requests that are one or none (R120). -/

section
variable {req : Nat → Nat → Nat} {m : Matching} {i j b : Nat}

theorem matchStep_idle (it : Nat) (h : ∀ i j, m.got.any (fun x => x.1 == i) = false → m.got.any (fun x => x.2.1 == j) = false → req i j = 0) :
    matchStep req it m = m := by
  unfold matchStep
  dsimp only
  have hgrants : ∀ j : Nat, (if (!m.got.any fun x => x.2.1 == j) = true then
        if maxOf ((List.range 12).map fun i => if (!m.got.any fun x => x.1 == i) = true then req i j else 0) = 0 then none
        else (ringFind (tget (fun _ => 0) m.gptr j) fun i => (!m.got.any fun x => x.1 == i) && req i j ==
          maxOf ((List.range 12).map fun i => if (!m.got.any fun x => x.1 == i) = true then req i j else 0)).map fun i => (j, i)
      else none) = (none : Option (Nat × Nat)) := fun j => by
    by_cases hj : m.got.any (fun x => x.2.1 == j) = true
    · rw [if_neg (by simp [hj])]
    · rw [if_pos (by simp [Bool.eq_false_iff.2 hj]), if_pos]
      refine maxOf_zero fun x hx => ?_
      obtain ⟨i, _, rfl⟩ := List.mem_map.1 hx
      split
      · next hi => exact h i j (by simpa using hi) (Bool.eq_false_iff.2 hj)
      · rfl
  simp only [hgrants]
  exact List.foldl_fixed' (fun n => by simp) _

theorem matchAll_none (n : Nat) (h : ∀ i j, req i j = 0) : matchAll req n m = m :=
  List.foldl_fixed' (fun _ => matchStep_idle _ fun i j _ _ => h i j) _

/-- One request is matched in the first iteration, which moves both pointers. -/
theorem matchStep_single (hm : m.got = []) (hi : i < 12) (hj : j < 12) (hb : b ≠ 0) (h : ∀ x y, req x y = if x = i ∧ y = j then b else 0) :
    matchStep req 1 m = { got := [(i, j, b, 1)], gptr := tput (fun _ => 0) m.gptr j ((i + 1) % 12), aptr := tput (fun _ => 0) m.aptr i ((j + 1) % 12) } := by
  have hcol : maxOf ((List.range 12).map fun x => req x j) = b := by
    refine maxOf_eq (List.mem_map.2 ⟨i, List.mem_range.2 hi, by rw [h, if_pos ⟨rfl, rfl⟩]⟩) fun x hx => ?_
    obtain ⟨y, _, rfl⟩ := List.mem_map.1 hx
    rw [h]
    split <;> omega
  have hgrants : (List.range 12).filterMap (fun y => if maxOf ((List.range 12).map fun x => req x y) = 0 then none
      else (ringFind (tget (fun _ => 0) m.gptr y) fun x => req x y == maxOf ((List.range 12).map fun x => req x y)).map fun x => (y, x)) = [(j, i)] := by
    refine filterMap_single (a := j) (fun y hy => if_pos (maxOf_zero fun x hx => ?_)) ?_ List.nodup_range (List.mem_range.2 hj)
    · obtain ⟨z, _, rfl⟩ := List.mem_map.1 hx
      rw [h, if_neg (fun e => hy e.2)]
    · rw [hcol, if_neg hb, ringFind_single hi (fun x => ?_)]
      · rfl
      · rw [h, beq_iff_eq]
        split
        · next e => simp [e.1]
        · next e => exact ⟨fun e0 => absurd e0.symm hb, fun e0 => absurd ⟨e0, rfl⟩ e⟩
  unfold matchStep
  simp only [hm, List.any_nil, Bool.not_false, Bool.true_and, if_true, hgrants, List.filter_cons, List.filter_nil]
  rw [foldl_single (a := i) (fun m' x hx => ?_) List.nodup_range (List.mem_range.2 hi)]
  · have hbest : maxOf [req i j] = b := by rw [h, if_pos ⟨rfl, rfl⟩]; exact maxOf_eq (List.mem_singleton.2 rfl) (fun x hx => Nat.le_of_eq (List.mem_singleton.1 hx))
    have hring : ringFind (tget (fun _ => 0) m.aptr i) (fun y => [j].contains y && req i y == b) = some j := by
      refine ringFind_single hj fun y => ?_
      rw [h]
      by_cases hy : y = j <;> simp [hy]
    simp only [beq_self_eq_true, if_true, List.map_cons, List.map_nil, List.isEmpty_cons, Bool.false_eq_true, if_false, hbest, hring, hm, List.nil_append]
  · have hne : (i == x) = false := by simpa using fun e : i = x => hx e.symm
    simp [hne]

theorem matchAll_single {n : Nat} (hn : 1 ≤ n) (hm : m.got = []) (hi : i < 12) (hj : j < 12) (hb : b ≠ 0) (h : ∀ x y, req x y = if x = i ∧ y = j then b else 0) :
    matchAll req n m = { got := [(i, j, b, 1)], gptr := tput (fun _ => 0) m.gptr j ((i + 1) % 12), aptr := tput (fun _ => 0) m.aptr i ((j + 1) % 12) } := by
  unfold matchAll
  rw [show List.range 3 = 0 :: [1, 2] from rfl, List.filter_cons_of_pos (p := fun k => decide (k < n)) (decide_eq_true (by omega)), List.foldl_cons, matchStep_single hm hi hj hb h]
  refine List.foldl_fixed' (fun k => matchStep_idle _ fun x y hx _ => ?_) _
  rw [h, if_neg]
  rintro ⟨rfl, -⟩
  simp at hx

end

end Sys2Proof.Machine

/-! SUPPORT. One cell time of the fabric (R115, R119), the verify states of preemption (R182), and O26. -/
namespace Sys2Proof.Machine

theorem fpOf_lt (p : Nat) : fpOf p < 12 := by unfold fpOf; split_ifs <;> omega

theorem mem_busInsert (e : EvRec) (l : List EvRec) : e ∈ busInsert e l := by
  induction l with
  | nil => exact List.mem_singleton.2 rfl
  | cons x l ih =>
    unfold busInsert
    split
    · exact List.mem_cons_of_mem _ ih
    · exact List.mem_cons_self

theorem event_raised (d : Dev) (source v : Nat) (code : EvCode) (u : Nat) : ∃ e ∈ (d.event source (some v) code u).ev.bus, e.vector = some v ∧ e.lt = d.lt :=
  ⟨{ lt := d.lt, source := source, vector := some v, code := code, path := unitPath d.stackId u, data := [] }, mem_busInsert _ _, rfl, rfl⟩

/-! A fabric in which one copy waits. -/

section
variable {d : Dev} {f : Frame} {k : Copy} {full : List Nat} {cp : Bool}

theorem waits_none (h : d.fab.frames = []) (i j : Nat) : d.waits i j = false := by simp [Dev.waits, h]

theorem waits_single (h : d.fab.frames = [f]) (hk : f.copies = [k]) (hx : k.crossed = false) (i j : Nat) : d.waits i j = (fpOf f.port == i && fpOf k.port == j) := by
  simp [Dev.waits, h, hk, hx]

theorem request_none (h : d.fab.frames = []) (i j : Nat) : d.request full cp i j = 0 := if_pos (by simp [waits_none h])

section
variable (h : d.fab.frames = [f]) (hk : f.copies = [k]) (hx : k.crossed = false) (he : d.eligible full f k = true)
include h hk hx

theorem subHead_single (i j c m : Nat) : d.subHead i j c m = if (fpOf f.port = i ∧ f.cls = c) ∧ fpOf k.port = j ∧ k.mac = m then some (f, 0) else none := by
  unfold Dev.subHead
  rw [h]
  by_cases hf : fpOf f.port = i ∧ f.cls = c
  · by_cases hc : fpOf k.port = j ∧ k.mac = m
    · simp [hf, hc, hk, hx]
    · have : (fpOf k.port == j && k.mac == m) = false := by simpa using hc
      simp [hf, hc, hk, hx, this]
  · have : (fpOf f.port == i && f.cls == c) = false := by simpa using hf
    simp [hf, this]

include he

theorem subReady_single (i j c m : Nat) : d.subReady full i j c m = if (fpOf f.port = i ∧ f.cls = c) ∧ fpOf k.port = j ∧ k.mac = m then some (f, 0) else none := by
  unfold Dev.subReady
  rw [subHead_single h hk hx]
  split
  · next e => split at e <;> simp_all
  · next e => split at e <;> simp_all

theorem voqReady_single (hp : k.port < 22) (hm : k.mirror = false) (i j c : Nat) :
    d.voqReady full cp i j c = if fpOf f.port = i ∧ f.cls = c ∧ fpOf k.port = j then some (f, 0) else none := by
  unfold Dev.voqReady
  dsimp only
  have hmirror : isMirror (f, 0) = false := by simp [isMirror, hk, hm]
  have hsub : ∀ m, (d.subReady full i j c m).filter (fun x => !(cp && j == 11 && isMirror x)) =
      if (fpOf f.port = i ∧ f.cls = c) ∧ fpOf k.port = j ∧ k.mac = m then some (f, 0) else none := fun m => by
    rw [subReady_single h hk hx he]
    split
    · simp [hmirror]
    · rfl
  simp only [hsub]
  by_cases hall : fpOf f.port = i ∧ f.cls = c ∧ fpOf k.port = j
  · obtain ⟨rfl, rfl, rfl⟩ := hall
    rw [if_pos ⟨rfl, rfl, rfl⟩]
    refine findSome?_single (a := k.mac) ?_ (if_pos ⟨⟨rfl, rfl⟩, rfl, rfl⟩) (mem_ring ?_)
    · intro m hne
      exact if_neg fun ⟨_, _, e⟩ => hne e.symm
    unfold Copy.mac macOf subqueues fpOf
    split_ifs <;> omega
  · rw [if_neg hall, List.findSome?_eq_none_iff]
    refine fun m _ => if_neg ?_
    exact fun ⟨⟨h1, h2⟩, h3, _⟩ => hall ⟨h1, h2, h3⟩

theorem request_single (hp : k.port < 22) (hm : k.mirror = false) (hc : f.cls < 8) (i j : Nat) :
    d.request full cp i j = if i = fpOf f.port ∧ j = fpOf k.port then f.cls + 1 else 0 := by
  unfold Dev.request
  rw [waits_single h hk hx]
  by_cases hij : i = fpOf f.port ∧ j = fpOf k.port
  · obtain ⟨rfl, rfl⟩ := hij
    rw [if_neg (by simp), if_pos ⟨rfl, rfl⟩]
    have hsome : ∀ c, (d.voqReady full cp (fpOf f.port) (fpOf k.port) c).isSome = (f.cls == c) := fun c => by
      rw [voqReady_single h hk hx he hp hm]
      by_cases hcc : f.cls = c <;> simp [hcc]
    simp only [hsome]
    have hfind : classesDown.find? (fun c => f.cls == c) = some f.cls := by
      generalize f.cls = n at hc
      revert n
      decide
    rw [hfind]
  · rw [if_pos, if_neg hij]
    simp only [Bool.and_eq_true, beq_iff_eq, not_and]
    exact fun e1 e2 => hij ⟨e1.symm, e2.symm⟩

end

/-! Cells that cross. -/

/-- The requests of an ingress fabric port in a cell time, by egress fabric port. -/
def Dev.rowOf (d : Dev) (full : List Nat) (cp : Bool) (i : Nat) : List Nat :=
  ((List.range 12).map (fun i => (List.range 12).map (fun j => d.request full cp i j))).getD i []

/-- The requests of a cell time as the matching looks them up. -/
def Dev.reqOf (d : Dev) (full : List Nat) (cp : Bool) (i j : Nat) : Nat := (d.rowOf full cp i).getD j 0

theorem rowOf_eq (i : Nat) : d.rowOf full cp i = if i < 12 then (List.range 12).map (fun j => d.request full cp i j) else [] := by
  unfold Dev.rowOf
  by_cases hi : i < 12 <;> simp [List.getD_eq_getElem?_getD, hi]

theorem reqOf_eq (i j : Nat) : d.reqOf full cp i j = if i < 12 ∧ j < 12 then d.request full cp i j else 0 := by
  unfold Dev.reqOf
  rw [rowOf_eq]
  by_cases hi : i < 12 <;> by_cases hj : j < 12 <;> simp [List.getD_eq_getElem?_getD, hi, hj]

theorem rowOf_quiet {i : Nat} (h : ∀ j, d.request full cp i j = 0) : (d.rowOf full cp i).any (0 < ·) = false := by
  rw [rowOf_eq, List.any_eq_false]
  intro x hx
  split at hx
  · obtain ⟨j, _, rfl⟩ := List.mem_map.1 hx
    simp [h j]
  · simp at hx

/-- The cells of one cell time, from its matching on: the steps of `crossCells` that follow it. -/
theorem crossCells_of_match {c : CellTime} {m : Matching} (hm : matchAll (d.reqOf c.full (d.cpReady c.full)) (d.obj 0x2000 0x41) { gptr := d.fab.gptr, aptr := d.fab.aptr } = m)
    (hrow : ∀ i, m.got.any (fun x => x.1 == i) = false → ∀ j, d.request c.full (d.cpReady c.full) i j = 0) :
    d.crossCells c = (m.got.filterMap (fun x => (d.voqReady c.full (d.cpReady c.full) x.1 x.2.1 (x.2.2.1 - 1)).map (fun y => (x, y.1.id, y.2)))).foldl (fun d x =>
      match (d.inc64 0x2050 (0x02 + x.1.2.2.2) 0 x.1.1).frame? x.2.1 with
      | some f => match f.copies[x.2.2]? with
        | some y => (d.inc64 0x2050 (0x02 + x.1.2.2.2) 0 x.1.1).sendCell f x.2.2 y (c.poisoned.contains (fpOf y.port)) (c.lost.contains (fpOf y.port))
        | none => d.inc64 0x2050 (0x02 + x.1.2.2.2) 0 x.1.1
      | none => d.inc64 0x2050 (0x02 + x.1.2.2.2) 0 x.1.1) (d.fabUpd fun x => { x with gptr := m.gptr, aptr := m.aptr }) := by
  subst hm
  unfold Dev.crossCells
  refine List.foldl_fixed' (fun i => if_neg ?_) _
  intro e
  obtain ⟨h1, h2⟩ := Bool.and_eq_true_iff.1 e
  exact Bool.false_ne_true ((rowOf_quiet (hrow i (Eq.mp (Bool.not_eq_true' _) h2))).symm.trans h1)

theorem crossCells_none (h : d.fab.frames = []) (c : CellTime) : d.crossCells c = d := by
  have hreq : ∀ i j, d.reqOf c.full (d.cpReady c.full) i j = 0 := fun i j => by rw [reqOf_eq, request_none h]; split <;> rfl
  exact crossCells_of_match (matchAll_none _ hreq) fun i _ j => request_none h i j

/-- The pointers of a match, which `A:2050.03` counts as made in the first iteration. -/
def Dev.matched (d : Dev) (i j : Nat) : Dev :=
  (d.fabUpd fun x => { x with gptr := tput (fun _ => 0) d.fab.gptr j ((i + 1) % 12), aptr := tput (fun _ => 0) d.fab.aptr i ((j + 1) % 12) }).inc64 0x2050 0x03 0 i

theorem crossCells_single (h : d.fab.frames = [f]) (hk : f.copies = [k]) (hx : k.crossed = false) {c : CellTime} (he : d.eligible c.full f k = true) (hp : k.port < 22)
    (hm : k.mirror = false) (hc : f.cls < 8) (hn : 1 ≤ d.obj 0x2000 0x41) (hpoison : c.poisoned = []) (hlost : c.lost = []) :
    d.crossCells c = (d.matched (fpOf f.port) (fpOf k.port)).sendCell f 0 k false false := by
  have hi := fpOf_lt f.port
  have hj := fpOf_lt k.port
  have hreq : ∀ i j, d.reqOf c.full (d.cpReady c.full) i j = if i = fpOf f.port ∧ j = fpOf k.port then f.cls + 1 else 0 := fun i j => by
    rw [reqOf_eq, request_single h hk hx he hp hm hc]
    by_cases hij : i = fpOf f.port ∧ j = fpOf k.port
    · rw [if_pos hij, if_pos ⟨hij.1 ▸ hi, hij.2 ▸ hj⟩]
    · rw [if_neg hij, ite_self]
  rw [crossCells_of_match (matchAll_single hn rfl hi hj (Nat.succ_ne_zero _) hreq) fun i hne j => ?_]
  · have hvoq := voqReady_single (full := c.full) (cp := d.cpReady c.full) h hk hx he hp hm (fpOf f.port) (fpOf k.port) (f.cls + 1 - 1)
    rw [if_pos ⟨rfl, by omega, rfl⟩] at hvoq
    have hframe : (d.matched (fpOf f.port) (fpOf k.port)).frame? f.id = some f := by
      show List.find? _ d.fab.frames = some f
      rw [h]
      simp
    have hcopy : f.copies[0]? = some k := by rw [hk]; rfl
    unfold Dev.matched at hframe ⊢
    simp only [List.filterMap_cons, List.filterMap_nil, hvoq, Option.map_some, List.foldl_cons, List.foldl_nil, hpoison, hlost, List.contains_nil, hframe, hcopy, Nat.reduceAdd]
  · rw [request_single h hk hx he hp hm hc, if_neg]
    rintro ⟨rfl, -⟩
    simp at hne

/-- The counts of a cell that crosses within its copy, its turn and its control word. -/
def Dev.cellCounted (d : Dev) (f : Frame) (k : Copy) : Dev :=
  let d := ((d.inc64 0x2050 0x01 0 (fpOf f.port)).inc64 0x2050 0x02 0 (fpOf k.port)).fabUpd fun x =>
    { x with turn := tput (fun _ => 0) x.turn ((fpOf f.port * 12 + fpOf k.port) * 8 + f.cls) ((k.mac + 1) % subqueues (fpOf k.port)) }
  let d := if k.sent = 0 then d.inc 0x2040 (if k.cut then 0x08 else 0x09) 0 k.port else d
  let d := d.fabUpd fun x => { x with words := x.words ++ [controlWord f k k.sent false false false] }
  if k.sent = 0 then d.fabUpd fun x => { x with nextOrder := x.nextOrder + 1 } else d

/-- A copy after a cell within it. -/
def Dev.nextCell (d : Dev) (k : Copy) : Copy := { k with sent := k.sent + 1, order := if k.sent = 0 then d.fab.nextOrder else k.order }

theorem cellCounted_fab (d : Dev) (f : Frame) (k : Copy) : (d.cellCounted f k).fab.frames = d.fab.frames ∧
    (d.cellCounted f k).fab.words = d.fab.words ++ [controlWord f k k.sent false false false] ∧
    (d.cellCounted f k).fab.gptr = d.fab.gptr ∧ (d.cellCounted f k).fab.aptr = d.fab.aptr ∧ (d.cellCounted f k).ports = d.ports := by
  unfold Dev.cellCounted
  dsimp only
  split <;> exact ⟨rfl, rfl, rfl, rfl, rfl⟩

theorem cellCounted_obj (d : Dev) (f : Frame) (k : Copy) {i j : Nat} (u r : Nat) (hi : i < 65536) (hj : j < 256) (h : i ≠ 0x2040) :
    (d.cellCounted f k).obj i j u r = ((d.inc64 0x2050 0x01 0 (fpOf f.port)).inc64 0x2050 0x02 0 (fpOf k.port)).obj i j u r := by
  have hcount (e : Dev) : (e.inc 0x2040 (if k.cut then 0x08 else 0x09) 0 k.port).obj i j u r = e.obj i j u r :=
    obj_inc_field e (by split <;> omega) (by omega) hj hi (by omega)
  unfold Dev.cellCounted
  dsimp only
  split
  · rw [Dev.fabUpd_obj, Dev.fabUpd_obj, hcount, Dev.fabUpd_obj]
  · rfl

theorem putFrame_single (h : d.fab.frames = [f]) {g : Frame} (hid : g.id = f.id) (hg : g.copies ≠ []) : d.putFrame g = d.fabUpd fun x => { x with frames := [g] } := by
  unfold Dev.putFrame
  rw [if_neg (by simpa using hg)]
  simp [Dev.fabUpd, h, hid]

/-- A copy that neither begins bad nor ends with this cell sends it: the frame keeps the place of its next cell. -/
theorem sendCell_inside (h : d.fab.frames = [f]) (hk : f.copies = [k]) (hb : f.broken = none) (ha : k.sent + 1 < f.avail) (hx : k.crossed = false) (hbad : k.bad = false)
    (habort : k.aborted = false) : d.sendCell f 0 k false false = (d.cellCounted f k).fabUpd fun x => { x with frames := [{ f with copies := [d.nextCell k] }] } := by
  have hlast : ¬ f.avail ≤ k.sent + 1 := Nat.not_le.2 ha
  have hcopy : { k with sent := k.sent + 1, crossed := false, bad := false, aborted := false, order := if k.sent = 0 then d.fab.nextOrder else k.order } = d.nextCell k := by
    simp [Dev.nextCell, hx, hbad, habort]
  have hset : f.setCopy 0 (d.nextCell k) = { f with copies := [d.nextCell k] } := by simp [Frame.setCopy, hk]
  rw [← putFrame_single ((cellCounted_fab d f k).1.trans h) (g := { f with copies := [d.nextCell k] }) rfl (List.cons_ne_nil _ _), ← hset, ← hcopy]
  unfold Dev.sendCell Dev.cellCounted
  by_cases hs : k.sent = 0
  · rw [hs] at hlast
    simp only [hs, hb, hbad, hlast, habort, decide_true, decide_false, Bool.and_false, Bool.false_and, Bool.or_false, Bool.false_eq_true, if_true, if_false, false_and, reduceCtorEq]
    rfl
  · simp [hs, hb, hbad, hlast, habort]

end

/-! A cell time in which nothing else happens. -/

section
variable {d : Dev}

theorem flowAll_quiet (h : ∀ u : Nat, d.obj 0x4050 0x01 u = 0) (hp : d.ports.pauses = []) : d.flowAll = d := by
  have hdue : ∀ p, d.pauseDue p = d := fun p => if_pos (Or.inl (by simp [Dev.pauses, hp, tget]))
  refine List.foldl_fixed' (fun p => ?_) _
  rw [hdue]
  exact if_pos (h _)

theorem takeSlots_nothing (h : ∀ f ∈ d.fab.frames, f.whole = true) (l : List (Nat × Nat × Nat)) : d.takeSlots l = d := by
  refine List.foldl_fixed' (fun i => ?_) _
  have hnone : d.slotTaker l i = none := by
    unfold Dev.slotTaker
    rw [List.filterMap_eq_nil_iff.2 fun f hf => if_neg fun e => e.2.1 (h f hf)]
    simp
  rw [hnone]

theorem localNext_none (h1 : d.fab.fromCp = []) (h2 : d.fab.fromLog = []) (h3 : d.fab.offers = []) (i : Nat) : d.localNext i = none := by
  unfold Dev.localNext
  rw [h1, h2, h3]
  split <;> rfl

/-- What lets a frame begin its transfer reads no counter of corrected bits. -/
theorem eligible_corrected (n : Nat) (full : List Nat) (f : Frame) (k : Copy) (hp : k.port < 22) :
    (d.inc 0x2000 0x09 0 0 n).eligible full f k = d.eligible full f k := by
  have hobj : ∀ i j u r : Nat, i < 65536 → j < 256 → ¬ (i = 0x2000 ∧ j = 0x09) → (d.inc 0x2000 0x09 0 0 n).obj i j u r = d.obj i j u r :=
    fun i j u r hi hj h => obj_inc_field d (by omega) (by omega) hj hi h
  have hrate : ∀ l, (d.inc 0x2000 0x09 0 0 n).nodeRate l = d.nodeRate l := fun l => by
    simp (disch := omega) only [Dev.nodeRate, hobj]
  have hopen : ∀ l, (d.inc 0x2000 0x09 0 0 n).nodeOpen l = d.nodeOpen l := fun l => by
    have hburst : (d.inc 0x2000 0x09 0 0 n).nodeBurst l = d.nodeBurst l := by simp (disch := omega) only [Dev.nodeBurst, hobj]
    have hcredit : (d.inc 0x2000 0x09 0 0 n).credit l = d.credit l := by unfold Dev.credit; rw [hburst, hrate]; rfl
    unfold Dev.nodeOpen
    rw [hrate, hcredit]
  have hleaf : ∀ p l, (d.inc 0x2000 0x09 0 0 n).leafOpen p l = d.leafOpen p l := fun p l => by
    simp (disch := omega) only [Dev.leafOpen, Dev.aboveNominal, Dev.ownerNode, Dev.flag, hopen, hrate, hobj]
  have hset : ∀ g c, (d.inc 0x2000 0x09 0 0 n).egressSet g c = d.egressSet g c := fun g c => by
    simp (disch := omega) only [Dev.egressSet, Dev.flag, hobj]
  have hbusy : (d.inc 0x2000 0x09 0 0 n).contextBusy f k = d.contextBusy f k := by
    simp only [Dev.contextBusy, Dev.kindOf, Dev.editOf, hset]
    rfl
  have hheld : (d.inc 0x2000 0x09 0 0 n).pathHeld k = d.pathHeld k := rfl
  have h22 : (k.port != 22) = true := by simp; omega
  have h23 : (k.port != 23) = true := by simp; omega
  unfold Dev.eligible
  simp (disch := omega) only [h22, h23, hleaf, hbusy, hheld, Bool.true_or, Dev.portUp, Dev.gateOpen, hobj]

end

/-! The commands. -/

/-- The cell times and first cells of a fabric in which nothing enters. -/
structure Quiet (s : State) (d : Dev) : Prop where
  fromCp : d.fab.fromCp = []
  fromLog : d.fab.fromLog = []
  offers : d.fab.offers = []
  slots : d.fab.slots = []
  firsts : d.fab.firsts = []
  cells : s.firstCells d = []
  flow : ∀ u : Nat, d.obj 0x4050 0x01 u = 0
  pauses : d.ports.pauses = []

/-- A cell time begins: corrected bits of the buffer are counted, and no cell has crossed yet. -/
def Dev.cellTime (d : Dev) (n : Nat) : Dev := (d.inc 0x2000 0x09 0 0 n).fabUpd fun x => { x with words := [] }

section
variable {s : State} {t : Nat} {d : Dev} {c : CellTime}

theorem fabricMatch_off (h : s.Tick t d) (hw : c.written = []) (hon : d.dataOn = false) : Becomes (.fabricMatch t c) s (d.usePorts [0]) := by
  refine becomes h (by unfold exec execFabricMatch State.portCmd; rfl) (by simp [hw]) ?_
  exact congrArg (fun x : Dev => x.usePorts [0]) (if_pos (by simp [hon]))

theorem takeFirsts_nil (e : Dev) : e.takeFirsts [] = e.fabUpd fun x => { x with started := e.fab.started } := by
  have horder : inTurn e.fab.started [] = [] := by simp [inTurn]
  unfold Dev.takeFirsts
  dsimp only
  rw [horder]
  rfl

/-- Nothing enters the fabric in a quiet cell time. -/
theorem enters_nothing {e : Dev} (h1 : e.fab.slots = []) (h2 : e.fab.firsts = []) :
    (((e.localCells).fabUpd fun x => { x with firsts := [] }).takeFirsts []).fabUpd (fun x => { x with early := x.early }) = e := by
  have hfab : ∀ x : FabSt, x.slots = [] → x.firsts = [] → { x with slots := [], firsts := [] } = x := by
    intro x h1 h2
    cases x
    simp_all
  rw [takeFirsts_nil]
  simp only [Dev.localCells, Dev.fabUpd, h1, List.map_nil, List.filter_nil]
  exact congrArg (fun x => { e with fab := x }) (hfab e.fab h1 h2)

theorem fabricMatch_quiet (h : s.Tick t d) (hw : c.written = []) (hon : d.dataOn = true) (hwhole : ∀ f ∈ d.fab.frames, f.whole = true) (q : Quiet s d) :
    Becomes (.fabricMatch t c) s ((((d.cellTime c.corrected).crossCells c).flowAll).usePorts [0]) := by
  refine becomes h (by unfold exec execFabricMatch State.portCmd; rfl) (by simp [hw]) ?_
  refine congrArg (fun x : Dev => x.usePorts [0]) ((if_neg (by simp [hon])).trans ?_)
  have hslots : (d.cellTime c.corrected).takeSlots c.written = d.cellTime c.corrected := takeSlots_nothing (d := d.cellTime c.corrected) hwhole _
  have hnext : ∀ i, (d.cellTime c.corrected).localNext i = none := localNext_none (d := d.cellTime c.corrected) q.fromCp q.fromLog q.offers
  have hcells : s.firstCells (d.cellTime c.corrected) = [] := q.cells
  have hfirsts : (d.cellTime c.corrected).fab.firsts = [] := q.firsts
  have henters := enters_nothing (e := d.cellTime c.corrected) q.slots q.firsts
  unfold Dev.cellTime at hslots hnext hcells hfirsts henters ⊢
  simp only [hslots, hnext, hcells, hfirsts, ite_self, Option.isSome_none, Bool.and_false, List.filter_cons, List.filter_nil, Bool.false_eq_true, if_false, List.map_nil, List.append_nil,
    List.isEmpty_nil, if_true]
  exact congrArg (fun x : Dev => (x.crossCells c).flowAll) henters

theorem fabricMatch_empty (h : s.Tick t d) (hw : c.written = []) (hon : d.dataOn = true) (hf : d.fab.frames = []) (q : Quiet s d) :
    Completes (.fabricMatch t c) s fun x => x.fab.frames = [] ∧ x.fab.words = [] ∧ x.outbox = d.outbox ∧ x.obj 0x2000 0x09 = (d.obj 0x2000 0x09 + c.corrected) % 2 ^ 32 := by
  refine Becomes.completes (fabricMatch_quiet h hw hon (by simp [hf]) q) ?_
  rw [crossCells_none (d := d.cellTime c.corrected) hf, flowAll_quiet (d := d.cellTime c.corrected) (fun u => ?_) q.pauses]
  · exact ⟨hf, rfl, rfl, obj_inc_same _ _ _ _ _ _⟩
  · exact (obj_inc_field d (by omega) (by omega) (by omega) (by omega) (by omega)).trans (q.flow u)

theorem fabricMatch_crosses (h : s.Tick t d) (hw : c.written = []) {f : Frame} {k : Copy} (hon : d.dataOn = true) (hf : d.fab.frames = [f]) (hk : f.copies = [k]) (hwhole : f.whole = true)
    (hn : 1 ≤ d.obj 0x2000 0x41) (hc : f.cls < 8) (hp : k.port < 22) (hb : f.broken = none) (ha : k.sent + 1 < f.avail) (hx : k.crossed = false) (hbad : k.bad = false)
    (habort : k.aborted = false) (hm : k.mirror = false) (he : d.eligible c.full f k = true) (hpoison : c.poisoned = []) (hlost : c.lost = []) (q : Quiet s d) :
    Completes (.fabricMatch t c) s fun x => x.fab.frames = [{ f with copies := [{ k with sent := k.sent + 1, order := if k.sent = 0 then d.fab.nextOrder else k.order }] }] ∧
      x.fab.words = [controlWord f k k.sent false false false] ∧
      x.obj 0x2050 0x01 0 (fpOf f.port) = (d.obj 0x2050 0x01 0 (fpOf f.port) + 1) % 2 ^ 64 ∧ x.obj 0x2050 0x03 0 (fpOf f.port) = (d.obj 0x2050 0x03 0 (fpOf f.port) + 1) % 2 ^ 64 ∧
      tget (fun _ => 0) x.fab.gptr (fpOf k.port) = (fpOf f.port + 1) % 12 ∧ tget (fun _ => 0) x.fab.aptr (fpOf f.port) = (fpOf k.port + 1) % 12 := by
  have hobj : ∀ i j u r : Nat, i < 65536 → j < 256 → ¬ (i = 0x2000 ∧ j = 0x09) → (d.cellTime c.corrected).obj i j u r = d.obj i j u r :=
    fun i j u r hi hj h => obj_inc_field d (by omega) (by omega) hj hi h
  have he' : (d.cellTime c.corrected).eligible c.full f k = true := (eligible_corrected c.corrected c.full f k hp).trans he
  have hcross := crossCells_single (d := d.cellTime c.corrected) hf hk hx he' hp hm hc (by rwa [hobj _ _ _ _ (by omega) (by omega) (by omega)]) hpoison hlost
  have hsend := sendCell_inside (d := (d.cellTime c.corrected).matched (fpOf f.port) (fpOf k.port)) hf hk hb ha hx hbad habort
  obtain ⟨-, hwords, hgptr, haptr, hports⟩ := cellCounted_fab ((d.cellTime c.corrected).matched (fpOf f.port) (fpOf k.port)) f k
  have hflow : ∀ u, (((d.cellTime c.corrected).matched (fpOf f.port) (fpOf k.port)).cellCounted f k).obj 0x4050 0x01 u = 0 := fun u => by
    rw [cellCounted_obj _ _ _ _ _ (by omega) (by omega) (by omega)]
    simp (disch := omega) only [obj_inc64_field, Dev.matched, Dev.fabUpd_obj, hobj, q.flow u]
  refine Becomes.completes (fabricMatch_quiet h hw hon (by simp [hf, hwhole]) q) ?_
  rw [hcross, hsend, flowAll_quiet (d := Dev.fabUpd _ _) (fun u => hflow u) ((congrArg PortSt.pauses hports).trans q.pauses)]
  refine ⟨rfl, hwords, ?_, ?_, ?_, ?_⟩
  · exact (cellCounted_obj _ _ _ _ _ (by omega) (by omega) (by omega)).trans (by simp (disch := omega) only [obj_inc64_field, obj_inc64_same, Dev.matched, Dev.fabUpd_obj, hobj])
  · exact (cellCounted_obj _ _ _ _ _ (by omega) (by omega) (by omega)).trans (by simp (disch := omega) only [obj_inc64_field, obj_inc64_same, Dev.matched, Dev.fabUpd_obj, hobj])
  · refine (congrArg (fun m => tget (fun _ => 0) m (fpOf k.port)) hgptr).trans (tget_tput_same _ _ _ _)
  · refine (congrArg (fun m => tget (fun _ => 0) m (fpOf f.port)) haptr).trans (tget_tput_same _ _ _ _)

end

/-! Verification of preemption. -/

section
variable {s : State} {t p : Nat} {d : Dev}

theorem respondMpacket_becomes (h : s.Tick t d) (hp : p < 12) {x : Dev} (hx : (if d.obj 0x4040 0x05 (p + 1) = 2 then (d.set 0x4040 0x05 3 (p + 1)).set 0x4040 0x06 1 (p + 1) else d) = x) :
    Becomes (.respondMpacketReceived t p) s x := by
  refine becomes h (by unfold exec; rfl) (decide_eq_true hp) ?_
  rw [unitOfPort_of_lt (by omega)]
  exact hx

theorem verifyMpacket_becomes (h : s.Tick t d) (hp : p < 12) {x : Dev} (hx : (if d.obj 0x4040 0x05 (p + 1) = 0 then d else d.out (.mpacket p 1)) = x) :
    Becomes (.verifyMpacketReceived t p) s x := by
  refine becomes h (by unfold exec; rfl) (decide_eq_true hp) ?_
  rw [unitOfPort_of_lt (by omega)]
  exact hx

theorem verifyTimer_waits (h : s.Tick t d) (ha : s.Alone d) (hp : p < 12) (hn : d.obj 0x4040 0x05 (p + 1) ≠ 2) : Becomes (.verifyMpacketTimer t p) s d := by
  refine becomes_timer h ha (by unfold exec; rfl) (by omega) (by omega) (decide_eq_true hp) ?_
  rw [unitOfPort_of_lt (by omega)]
  exact if_neg fun e => hn e.1

theorem verifyTimer_sends (h : s.Tick t d) (ha : s.Alone d) (hp : p < 12) {n a : Nat} (h2 : d.obj 0x4040 0x05 (p + 1) = 2) (hv : tget (fun _ => (0, 0)) d.ports.verify p = (n, a))
    (hd : a + d.obj 0x4040 0x03 (p + 1) * perMs ≤ d.now) (hn : n < 3) :
    Becomes (.verifyMpacketTimer t p) s ((d.out (.mpacket p 0)).portUpd fun x => { x with verify := tput (fun _ => (0, 0)) x.verify p (n + 1, d.now) }) := by
  refine becomes_timer h ha (by unfold exec; rfl) (by omega) (by omega) (decide_eq_true hp) ?_
  simp only [unitOfPort_of_lt (show p < 20 by omega), hv]
  rw [if_pos ⟨h2, hd⟩, if_pos hn]

theorem verifyTimer_fails (h : s.Tick t d) (ha : s.Alone d) (hp : p < 12) {n a : Nat} (h2 : d.obj 0x4040 0x05 (p + 1) = 2) (hv : tget (fun _ => (0, 0)) d.ports.verify p = (n, a))
    (hd : a + d.obj 0x4040 0x03 (p + 1) * perMs ≤ d.now) (hn : 3 ≤ n) :
    Completes (.verifyMpacketTimer t p) s fun x =>
      x.obj 0x4040 0x05 (p + 1) = 4 ∧ x.obj 0x4040 0x0D (p + 1) = (d.obj 0x4040 0x0D (p + 1) + 1) % 2 ^ 32 ∧ ∃ e ∈ x.ev.bus, e.vector = some 16 ∧ e.lt = d.lt := by
  have hx : Becomes (.verifyMpacketTimer t p) s (((d.set 0x4040 0x05 4 (p + 1)).inc 0x4040 0x0D (p + 1)).event 6 (some 16) Ev.verifyFailed.code (p + 1)) := by
    refine becomes_timer h ha (by unfold exec; rfl) (by omega) (by omega) (decide_eq_true hp) ?_
    simp only [unitOfPort_of_lt (show p < 20 by omega), hv]
    rw [if_pos ⟨h2, hd⟩, if_neg (by omega)]
  refine hx.completes ⟨?_, ?_, event_raised _ _ _ _ _⟩
  · rw [Dev.event_obj, obj_inc_field _ (by omega) (by omega) (by omega) (by omega) (by omega), obj_set_same]
  · rw [Dev.event_obj, obj_inc_same, obj_set_field _ (by omega) (by omega) (by omega) (by omega) (by omega)]

end

/-- Settles O26: a quiet cell time comes down to its matching, which finds the one copy that waits; the mPackets by the verify state. -/
theorem cellTimeAndPreemption : Obligations.CellTimeAndPreemption := by
  unfold Obligations.CellTimeAndPreemption
  refine ⟨fun s t d c h hw => ⟨fabricMatch_off h hw, fun hon hf q => ?_, fun f k hon hf hk hwhole hn hc _ hp hb ha hx hbad habort hm he hpoison hlost q => ?_⟩, fun s t d p h ha hp => ?_⟩
  · obtain ⟨q1, q2, q3, q4, q5, q6, q7, q8⟩ := q
    exact fabricMatch_empty h hw hon hf ⟨q1, q2, q3, q4, q5, q6, q7, q8⟩
  · obtain ⟨q1, q2, q3, q4, q5, q6, q7, q8⟩ := q
    exact fabricMatch_crosses h hw hon hf hk hwhole hn hc hp hb ha hx hbad habort hm he hpoison hlost ⟨q1, q2, q3, q4, q5, q6, q7, q8⟩
  · refine ⟨fun h2 => ?_, fun h2 => ⟨?_, verifyTimer_waits h ha hp h2⟩, fun h0 => ?_, fun h0 => ?_, fun n a h2 hv hd => ⟨verifyTimer_sends h ha hp h2 hv hd, verifyTimer_fails h ha hp h2 hv hd⟩⟩
    · exact respondMpacket_becomes h hp (if_pos h2)
    · exact respondMpacket_becomes h hp (if_neg h2)
    · exact verifyMpacket_becomes h hp (if_neg h0)
    · exact verifyMpacket_becomes h hp (if_pos h0)

end Sys2Proof.Machine

/-! SUPPORT. Transmission: a state in which two stored frames bear one number. -/

namespace Sys2Proof.Machine

/-- A stored frame of number 0 with one whole copy in the staging of port record `p`. -/
def stagedFrame (p : Nat) : Frame :=
  { id := 0, port := 0, data := [], len := 64, cls := 0, vid := 0, pcp := 0, dei := false, tagged := false, oversize := false, multi := false, ptpEvent := false, stamp := 0,
    rule := none, smem := 0, sport := 0, whole := true, avail := 1, copies := [{ port := p, sent := 1, crossed := true }] }

/-- Two frames of one number, one at port record 1, whose queue 0 has a maximum SDU of 1, and one at port record 0, whose queues have none. -/
def twinFrames : Dev := Dev.set { fab := { frames := [stagedFrame 1, stagedFrame 0] } } 0x5061 0x01 1 2

theorem twinFrames_tick : State.Tick { dev := twinFrames } 0 twinFrames := ⟨by decide +kernel, by decide⟩

/-- The default of an object, from its place and its row. -/
theorem objDefault_row {i j : Nat} (u r : Nat) (hi : i < 65536) (hj : j < 256) (hu : u < 256) :
    objDefault (objKey i j u r) = (dfltByRecord i j u r).getD (((findRow i j).map (·.dflt)).getD 0) := by
  have h1 : objKey i j u r / 256 % 65536 = i := by unfold objKey; omega
  have h2 : objKey i j u r % 256 = j := by unfold objKey; omega
  have h3 : objKey i j u r / 2 ^ 24 % 256 = u := by unfold objKey; omega
  have h4 : objKey i j u r / 2 ^ 32 = r := by unfold objKey; omega
  rw [objDefault_of _ i j h1 h2, h3, h4]

theorem obj_of_empty {d : Dev} (h : d.store = []) (i j u r : Nat) : d.obj i j u r = objDefault (objKey i j u r) := by
  unfold Dev.obj
  rw [h]
  rfl

theorem twinFrames_noLimit (q : Nat) : twinFrames.obj 0x5061 0x01 1 q = 0 := by
  have hrow : ((findRow 0x5061 0x01).map (·.dflt)).getD 0 = 0 := by decide +kernel
  have hrecord : dfltByRecord 0x5061 0x01 1 q = none := rfl
  unfold twinFrames
  rw [obj_set_place _ (by omega) (by omega) (by omega), obj_of_empty rfl, objDefault_row 1 q (by omega) (by omega) (by omega), hrow, hrecord]
  exact Option.getD_none

theorem transmitStart_becomes {s : State} {t p : Nat} {d : Dev} (h : s.Tick t d) (hp : p < 22) (k : Bool) : Becomes (.transmitStart t p k) s (d.transmitStart p (b2n k)) := by
  refine becomes h (by unfold exec; rfl) (decide_eq_true hp) ?_
  exact rfl

/-- The head at port record 0 is looked up by its number, which finds the frame at port record 1: it is discarded and counted. -/
theorem twinFrames_discards : (twinFrames.transmitStart 0 (b2n false)).obj 0x5060 0x06 1 = 1 := by decide +kernel

/-- Refutes O27: at a port that is not up and whose queues have no maximum SDU, a start still discards a frame where two stored frames bear one number, since a head is looked up by its number. -/
theorem not_transmission : ¬ Obligations.Transmission := by
  unfold Obligations.Transmission
  intro h
  obtain ⟨-, hidle, -⟩ := h _ 0 _ 0 twinFrames_tick (by decide)
  have hpauses : twinFrames.pauses 0 = [] := by decide +kernel
  have hdown : twinFrames.portUp 0 = false := by decide +kernel
  have hnone : twinFrames.obj 0x5060 0x06 1 = 0 := by decide +kernel
  have hunit : unitOfPort 0 = 1 := unitOfPort_of_lt (by decide)
  rw [hunit] at hidle
  have hkept := hidle twinFrames_noLimit hpauses (.inl hdown)
  have hcount := Becomes.obj_unique hkept (transmitStart_becomes twinFrames_tick (by decide) false) 1 0 (show 0x5060 < 65536 by decide) (show 0x06 < 256 by decide) (by decide)
  rw [twinFrames_discards, hnone] at hcount
  exact absurd hcount (by decide)

end Sys2Proof.Machine

/-! SUPPORT. The 10BASE-T1S PHY (R191 to R197), and O28. -/
namespace Sys2Proof.Machine

theorem finishIfReady_idle {d : Dev} (hw : d.alm.waiting = false) (ha : d.alm.answerDue = false) : d.finishIfReady = d := by
  unfold Dev.finishIfReady
  simp [hw, ha]

theorem segGoesOn_awake {d : Dev} {p : Nat} (h : d.segState (p + 1) ≠ 6) : d.segGoesOn p = d := if_neg fun ⟨_, _, h6⟩ => h h6

/-! The one stored copy. -/

section
variable {d : Dev} {f : Frame} {c : Copy}

theorem frame?_single (h : d.fab.frames = [f]) : d.frame? f.id = some f := by simp [Dev.frame?, h]

theorem withCopy_single (h : d.fab.frames = [f]) (hc : f.copies = [c]) (g : Dev → Frame → Copy → Dev) : d.withCopy (f.id, 0) g = g d f c := by
  unfold Dev.withCopy
  rw [frame?_single h]
  dsimp only
  rw [hc]
  rfl

theorem onLine_single {p : Nat} (h : d.fab.frames = [f]) (hc : f.copies = [c]) (hp : c.port = p) (hm : c.mirror = false) (hs : c.sent ≠ 0) (hstart : c.started = true)
    (hsus : c.suspended = false) (hk : d.kindOf f c = 0) : d.onLine p 0 = some (f.id, 0) := by
  simp [Dev.onLine, Dev.staged, h, hc, hp, hm, hs, hk, hstart, hsus, insertStaged]

theorem putFrame_drops (h : d.fab.frames = [f]) (hc : f.copies = [c]) (hw : f.whole = true) : (d.putFrame (f.dropCopy 0)).fab.frames = [] := by
  have hfree : ∀ k, ((d.freeFront (f.dropCopy 0) k).1).fab.frames = [f] := fun k => (returnCells_frames d _ _ _ _ _).trans h
  unfold Dev.putFrame
  rw [if_pos (by simp [Frame.dropCopy, hc]), if_pos (show (f.dropCopy 0).whole = true from hw)]
  have hid : (f.dropCopy 0).id = f.id := rfl
  simp [Dev.fabUpd, hfree, hid]

/-- A back-off of a random number of slot times after the `n`th collision of a frame (R193). -/
def Dev.waitSlots (d : Dev) (p n : Nat) : Dev :=
  (d.free 7).2.portUpd fun y => { y with backoff := tput (fun _ => none) y.backoff p (some (d.now + (d.free 7).1 % 2 ^ min n 10 * 64000)) }

/-- What a collision leaves of the frame on the line. -/
def Copy.again (c : Copy) (n : Nat) : Copy := { c with started := false, retry := true, attempts := n, edit := none }

theorem cutOff_single (h : d.fab.frames = [f]) (hc : f.copies = [c]) (n : Nat) :
    d.cutOff (f.id, 0) n = d.fabUpd fun x => { x with frames := [{ f with copies := [c.again n] }] } := by
  unfold Dev.cutOff
  rw [withCopy_single h hc]
  have hset : f.setCopy 0 (c.again n) = { f with copies := [c.again n] } := by simp [Frame.setCopy, hc]
  exact (congrArg d.putFrame hset).trans (putFrame_single (g := { f with copies := [c.again n] }) h rfl (List.cons_ne_nil _ _))

end

section
variable {s : State} {t p : Nat} {d : Dev} (h : s.Tick t d) (h12 : 12 ≤ p) (hp : p < 20)
include h h12 hp

omit h in
theorem segment_wf : (decide (12 ≤ p) && decide (p < 20)) = true := by simp [h12, hp]

/-! PLCA (R191, R192). -/

theorem plcaCycleStart_becomes {x : Dev}
    (hx : (if d.obj 0x4060 0x01 (p + 1) = 0 ∧ d.obj 0x4060 0x07 (p + 1) = 1 ∧ d.linkUp p = true ∧
        (¬ (d.plcaAt p d.now).running = true ∨ (¬ (d.plcaAt p d.now).busy = true ∧ (d.plcaAt p d.now).burst = 0 ∧ d.obj 0x4060 0x03 (p + 1) ≤ (d.plcaAt p d.now).idx))
      then ((d.setPlca p { running := true, from_ := d.now + 20 * bitTime }).out (.beacon p)).inc 0x4060 0x08 (p + 1) else d) = x) :
    Becomes (.plcaCycleStart t p) s x := by
  refine becomes h (by unfold exec; rfl) (segment_wf h12 hp) ?_
  dsimp only
  rw [unitOfPort_of_lt hp]
  exact hx

theorem plcaCollision_off (hn : d.obj 0x4060 0x07 (p + 1) ≠ 1) : Becomes (.plcaCollision t p) s (d.segGoesOn p) := by
  refine becomes h (by unfold exec; rfl) (segment_wf h12 hp) ?_
  have hcollide : d.plcaCollide p = d := if_pos (by rwa [unitOfPort_of_lt hp])
  exact congrArg (Dev.segGoesOn · p) hcollide

theorem beacon_ignored (hn : ¬ (d.flag 0x4020 0x01 (p + 1) = true ∧ d.unitPowered (p + 1) = true ∧ d.segmentOff (p + 1) = false)) (r : Bool) :
    Becomes (.beaconReceived t p r) s d := by
  refine becomes h (by unfold exec; rfl) (segment_wf h12 hp) ?_
  dsimp only
  rw [unitOfPort_of_lt hp]
  refine if_pos ?_
  by_contra hno
  simp only [not_or, Bool.not_eq_true, Bool.not_eq_false] at hno
  exact hn hno

theorem beacon_follower (hf : d.flag 0x4020 0x01 (p + 1) = true) (hu : d.unitPowered (p + 1) = true) (hs : d.segmentOff (p + 1) = false) (h1 : d.obj 0x4060 0x01 (p + 1) = 1) {y : Dev}
    (hy : y = (d.portUpd fun x => { x with beaconAt := tput (fun _ => 0) x.beaconAt p d.now }).setPlca p { running := true, from_ := d.now }) :
    Becomes (.beaconReceived t p false) s (if d.obj 0x4060 0x07 (p + 1) = 2 then y.set 0x4060 0x07 1 (p + 1) else y) := by
  subst hy
  refine becomes h (by unfold exec; rfl) (segment_wf h12 hp) ?_
  dsimp only
  rw [unitOfPort_of_lt hp, if_neg (by simp [hf, hu, hs]), if_neg Bool.false_ne_true, if_neg (by omega), if_pos h1]
  rfl

theorem beacon_coordinator (hf : d.flag 0x4020 0x01 (p + 1) = true) (hu : d.unitPowered (p + 1) = true) (hs : d.segmentOff (p + 1) = false) (h0 : d.obj 0x4060 0x01 (p + 1) = 0) :
    Completes (.beaconReceived t p false) s fun x => x.obj 0x4060 0x07 (p + 1) = 3 ∧
      x.obj 0x4060 0x09 (p + 1) = (d.obj 0x4060 0x09 (p + 1) + 1) % 2 ^ 32 ∧ ∃ e ∈ x.ev.bus, e.vector = some 16 ∧ e.lt = d.lt := by
  have hx : Becomes (.beaconReceived t p false) s (((d.inc 0x4060 0x09 (p + 1)).set 0x4060 0x07 3 (p + 1)).event 6 (some 16) Ev.foreignBeacon.code (p + 1)) := by
    refine becomes h (by unfold exec; rfl) (segment_wf h12 hp) ?_
    dsimp only
    rw [unitOfPort_of_lt hp, if_neg (by simp [hf, hu, hs]), if_neg Bool.false_ne_true, if_pos h0]
  refine hx.completes ⟨?_, ?_, event_raised _ _ _ _ _⟩
  · rw [Dev.event_obj, obj_set_same]
  · rw [Dev.event_obj, obj_set_field _ (by omega) (by omega) (by omega) (by omega) (by omega), obj_inc_same]

theorem beaconTimeout_becomes (ha : s.Alone d) {x : Dev}
    (hx : (if d.obj 0x4060 0x01 (p + 1) = 1 ∧ d.obj 0x4060 0x07 (p + 1) = 1 ∧ tget (fun _ => 0) d.ports.beaconAt p + d.obj 0x4060 0x42 (p + 1) * 125 ≤ d.now
      then (d.set 0x4060 0x07 2 (p + 1)).inc 0x4060 0x0A (p + 1) else d) = x) : Becomes (.beaconTimeout t p) s x := by
  refine becomes_timer h ha (by unfold exec; rfl) (by omega) (by omega) (segment_wf h12 hp) ?_
  dsimp only
  rw [unitOfPort_of_lt hp]
  exact hx

/-! Collisions (R192, R193). -/

section
variable {f : Frame} {c : Copy} (hf : d.fab.frames = [f]) (hc : f.copies = [c]) (hport : c.port = p) (hm : c.mirror = false) (hs : c.sent ≠ 0) (hstart : c.started = true)
  (hsus : c.suspended = false) (hk : d.kindOf f c = 0)
include hf hc hport hm hs hstart hsus hk

theorem plcaCollision_retries (h7 : d.obj 0x4060 0x07 (p + 1) = 1) : Becomes (.plcaCollision t p) s
    (({ d.inc 0x4060 0x0B (p + 1) with fab := { d.fab with frames := [{ f with copies := [c.again 0] }] } }.setPlca p
      { d.plcaAt p d.now with busy := false, burst := 0, idx := (d.plcaAt p d.now).idx + 1, from_ := d.now }).finishIfReady.segGoesOn p) := by
  refine becomes h (by unfold exec; rfl) (segment_wf h12 hp) ?_
  refine congrArg (Dev.segGoesOn · p) ?_
  have hobj : ∀ i j u r : Nat, i < 65536 → j < 256 → ¬ (i = 0x4060 ∧ j = 0x0B) → (d.inc 0x4060 0x0B (p + 1)).obj i j u r = d.obj i j u r :=
    fun i j u r hi hj hne => obj_inc_field d (by omega) (by omega) hj hi hne
  have hkind : (d.inc 0x4060 0x0B (p + 1)).kindOf f c = 0 := by
    refine Eq.trans ?_ hk
    simp (disch := omega) only [Dev.kindOf, Dev.editOf, Dev.egressSet, Dev.flag, hobj]
  have hline : (d.inc 0x4060 0x0B (p + 1)).onLine p 0 = some (f.id, 0) := onLine_single hf hc hport hm hs hstart hsus hkind
  have hplca : (d.inc 0x4060 0x0B (p + 1)).plcaAt p d.now = d.plcaAt p d.now := by
    simp (disch := omega) only [Dev.plcaAt, hobj]
    rfl
  unfold Dev.plcaCollide
  dsimp only
  rw [unitOfPort_of_lt hp, if_neg (by omega), hline]
  dsimp only
  rw [cutOff_single (d := d.inc 0x4060 0x0B (p + 1)) hf hc, Dev.inc_now, hplca]
  rfl

section
variable (hwait : d.alm.waiting = false) (hdue : d.alm.answerDue = false) (h6 : d.segState (p + 1) ≠ 6) (h7 : d.obj 0x4060 0x07 (p + 1) ≠ 1)
include hwait hdue h6 h7

omit hwait hdue h6 in
/-- A collision without PLCA, by what it makes of the frame. -/
theorem csmaCollision_becomes {late : Bool} {x : Dev}
    (hx : (if late = true then (((d.inc 0x4060 0x0C (p + 1)).putFrame (f.dropCopy 0)).finishIfReady)
      else if 16 ≤ c.attempts + 1 then (((d.inc 0x4060 0x0D (p + 1)).putFrame (f.dropCopy 0)).finishIfReady)
      else (((d.waitSlots p (c.attempts + 1)).cutOff
        (f.id, 0) (c.attempts + 1)).finishIfReady)) = x) (hx6 : x.segState (p + 1) ≠ 6) : Becomes (.csmaCollision t p late) s x := by
  refine becomes h (by unfold exec; rfl) (segment_wf h12 hp) ?_
  refine Eq.trans (congrArg (Dev.segGoesOn · p) ?_) (segGoesOn_awake hx6)
  unfold Dev.csmaCollide
  dsimp only
  rw [unitOfPort_of_lt hp, onLine_single hf hc hport hm hs hstart hsus hk]
  dsimp only
  rw [if_neg h7, frame?_single hf]
  simp only [hc, List.getElem?_cons_zero]
  rw [withCopy_single (d := d.inc 0x4060 0x0C (p + 1)) hf hc, withCopy_single (d := d.inc 0x4060 0x0D (p + 1)) hf hc]
  exact hx

theorem csmaCollision_backsOff (hn : c.attempts + 1 < 16) : Completes (.csmaCollision t p false) s fun x =>
    x.store = d.store ∧ x.fab.frames = [{ f with copies := [c.again (c.attempts + 1)] }] ∧
      ∃ k : Nat, k < 2 ^ min (c.attempts + 1) 10 ∧ tget (fun _ => none) x.ports.backoff p = some (d.now + k * 64000) := by
  have hcut := cutOff_single
    (d := d.waitSlots p (c.attempts + 1)) hf hc (c.attempts + 1)
  refine Becomes.completes (csmaCollision_becomes h h12 hp hf hc hport hm hs hstart hsus hk h7
    ((if_neg Bool.false_ne_true).trans ((if_neg (by omega)).trans ((congrArg Dev.finishIfReady hcut).trans (finishIfReady_idle hwait hdue)))) h6) ⟨rfl, rfl, ?_⟩
  exact ⟨_, Nat.mod_lt _ (Nat.two_pow_pos _), tget_tput_same _ _ _ _⟩

/-- A collision that drops the frame counts it in one object. -/
theorem csmaCollision_drops {late : Bool} {j : Nat} (hj : j < 256) (hw : f.whole = true)
    (hx : (if late = true then (((d.inc 0x4060 0x0C (p + 1)).putFrame (f.dropCopy 0)).finishIfReady)
      else if 16 ≤ c.attempts + 1 then (((d.inc 0x4060 0x0D (p + 1)).putFrame (f.dropCopy 0)).finishIfReady)
      else (((d.waitSlots p (c.attempts + 1)).cutOff
        (f.id, 0) (c.attempts + 1)).finishIfReady)) = (((d.inc 0x4060 j (p + 1)).putFrame (f.dropCopy 0)).finishIfReady)) :
    Completes (.csmaCollision t p late) s fun x => x.obj 0x4060 j (p + 1) = (d.obj 0x4060 j (p + 1) + 1) % 2 ^ 32 ∧ x.fab.frames = [] := by
  have hmoved := moved_putFrame (d.inc 0x4060 j (p + 1)) (f.dropCopy 0)
  have halm : ((d.inc 0x4060 j (p + 1)).putFrame (f.dropCopy 0)).alm = d.alm := (congrArg Dev.alm hmoved.rest :)
  have hidle : (((d.inc 0x4060 j (p + 1)).putFrame (f.dropCopy 0)).finishIfReady) = (d.inc 0x4060 j (p + 1)).putFrame (f.dropCopy 0) :=
    finishIfReady_idle (halm ▸ hwait) (halm ▸ hdue)
  have hseg : ((d.inc 0x4060 j (p + 1)).putFrame (f.dropCopy 0)).segState (p + 1) ≠ 6 := by
    unfold Dev.segState
    rw [hmoved.obj _ _ _ _ (by omega) (by omega) rfl, obj_inc_field _ (by omega) (by omega) (by omega) (by omega) (by omega)]
    exact h6
  refine Becomes.completes (csmaCollision_becomes h h12 hp hf hc hport hm hs hstart hsus hk h7 (hx.trans hidle) hseg) ⟨?_, putFrame_drops hf hc hw⟩
  rw [hmoved.obj _ _ _ _ (by omega) (by omega) rfl, obj_inc_same]

end

end

theorem backoffExpiry_becomes {e : Nat} (he : tget (fun _ => none) d.ports.backoff p = some e) {x : Dev}
    (hx : (if e ≤ d.now then d.portUpd fun y => { y with backoff := tput (fun _ => none) y.backoff p none } else d) = x) : Becomes (.backoffExpiry t p) s x := by
  refine becomes h (by unfold exec; rfl) (segment_wf h12 hp) ?_
  rw [he]
  exact hx

/-! Line diagnostics (R195 to R197). -/

theorem fault_declared {e : LineFault} (he : e ≠ .reversed) (hb : bit (tget (fun _ => 0) d.ports.faults p) (faultValue e) = false) (hl : d.linkUp p = false) :
    Becomes (.lineFaultDeclare t p e) s
      ((((d.portUpd fun x => { x with faults := tput (fun _ => 0) x.faults p (setBit (tget (fun _ => 0) d.ports.faults p) (faultValue e) true) }).set 0x4060 0x0E
        (lowestFault (setBit (tget (fun _ => 0) d.ports.faults p) (faultValue e) true)) (p + 1)).inc 0x4060 0x0F (p + 1)).segGoesOn p) := by
  refine becomes h (by unfold exec; rfl) (segment_wf h12 hp) ?_
  refine congrArg (Dev.segGoesOn · p) ?_
  unfold Dev.faultDeclare
  dsimp only
  rw [unitOfPort_of_lt hp, if_neg he, if_neg (by simp [hb]), linkFall_of_down (Dev.portUpd _ _) hl]

theorem fault_present {e : LineFault} (he : e ≠ .reversed) (hb : bit (tget (fun _ => 0) d.ports.faults p) (faultValue e) = true) :
    Becomes (.lineFaultDeclare t p e) s (d.segGoesOn p) := by
  refine becomes h (by unfold exec; rfl) (segment_wf h12 hp) ?_
  refine congrArg (Dev.segGoesOn · p) ?_
  unfold Dev.faultDeclare
  dsimp only
  rw [if_neg he, if_pos hb]

theorem fault_cleared {e : LineFault} (he : e ≠ .reversed) (hb : bit (tget (fun _ => 0) d.ports.faults p) (faultValue e) = true) :
    Becomes (.lineFaultClear t p e) s
      (((d.portUpd fun x => { x with faults := tput (fun _ => 0) x.faults p (setBit (tget (fun _ => 0) d.ports.faults p) (faultValue e) false) }).set 0x4060 0x0E
        (lowestFault (setBit (tget (fun _ => 0) d.ports.faults p) (faultValue e) false)) (p + 1)).segLink p) := by
  refine becomes h (by unfold exec; rfl) (segment_wf h12 hp) ?_
  dsimp only
  rw [unitOfPort_of_lt hp, if_neg he, if_neg (by simp [hb])]

theorem reversed_declared {x : Dev} (hx : d.lineReversed p = x) : Becomes (.lineFaultDeclare t p .reversed) s (x.segGoesOn p) := by
  refine becomes h (by unfold exec; rfl) (segment_wf h12 hp) ?_
  refine congrArg (Dev.segGoesOn · p) (Eq.trans ?_ hx)
  unfold Dev.faultDeclare
  exact if_pos rfl

theorem reversed_cleared (h6 : d.obj 0x4060 0x0E (p + 1) = 6) : Becomes (.lineFaultClear t p .reversed) s ((d.set 0x4060 0x0E 0 (p + 1)).segLink p) := by
  refine becomes h (by unfold exec; rfl) (segment_wf h12 hp) ?_
  dsimp only
  rw [unitOfPort_of_lt hp, if_pos rfl, if_pos h6]

omit h h12 in
theorem lineReversed_corrects (h0 : d.obj 0x4060 0x0E (p + 1) = 0 ∨ d.obj 0x4060 0x0E (p + 1) = 6) (hf : d.flag 0x4060 0x41 (p + 1) = true) :
    d.lineReversed p = ((d.set 0x4060 0x0E 5 (p + 1)).inc 0x4060 0x10 (p + 1)).segLink p := by
  unfold Dev.lineReversed
  dsimp only
  rw [unitOfPort_of_lt hp, if_neg fun ⟨hn0, hn6⟩ => h0.elim hn0 fun h6 => hn6 ⟨h6, hf⟩, if_pos hf]

omit h h12 in
theorem lineReversed_stays (h0 : d.obj 0x4060 0x0E (p + 1) = 0) (hf : d.flag 0x4060 0x41 (p + 1) = false) : d.lineReversed p = (d.set 0x4060 0x0E 6 (p + 1)).segLink p := by
  unfold Dev.lineReversed
  dsimp only
  rw [unitOfPort_of_lt hp, if_neg fun ⟨hn0, _⟩ => hn0 h0, if_neg (by simp [hf])]

omit h in
theorem segLink_rises (hr : d.portReady p = true) (hs : d.obj 0x4060 0x0E (p + 1) = 0 ∨ d.obj 0x4060 0x0E (p + 1) = 5) : d.segLink p = d.linkRise p 10 := by
  unfold Dev.segLink
  dsimp only
  rw [unitOfPort_of_lt hp, if_neg (by omega), if_pos ⟨hr, hs⟩]

omit h in
theorem segLink_falls (hr : d.portReady p = false ∨ (d.obj 0x4060 0x0E (p + 1) ≠ 0 ∧ d.obj 0x4060 0x0E (p + 1) ≠ 5)) : d.segLink p = d.linkFall p := by
  unfold Dev.segLink
  dsimp only
  rw [unitOfPort_of_lt hp, if_neg (by omega), if_neg]
  rintro ⟨hready, hstate⟩
  rcases hr with hr | ⟨h0, h5⟩
  · simp [hready] at hr
  · exact hstate.elim h0 h5

theorem cableTest_becomes {r n : Nat} (h2 : 2 ≤ r) (h4 : r ≤ 4) (hn : n < 65536) {x : Dev}
    (hx : (if d.obj 0x4060 0x12 (p + 1) = 1 then (d.set 0x4060 0x12 r (p + 1)).set 0x4060 0x13 n (p + 1) else d) = x) : Becomes (.cableTestComplete t p r n) s x := by
  refine becomes h (by unfold exec; rfl) (by simp [h12, hp, h2, h4, hn]) ?_
  dsimp only
  rw [unitOfPort_of_lt hp]
  exact hx

end

/-- Settles O28: a segment's commands by the PLCA state, the one frame on the line, and the faults present. -/
theorem sharedLine : Obligations.SharedLine := by
  unfold Obligations.SharedLine
  intro s t d p h h12 hp
  refine ⟨fun hd => ?_, fun hd => ?_, plcaCollision_off h h12 hp, segGoesOn_awake, beacon_ignored h h12 hp, fun ⟨hf, hu, hs⟩ h1 => beacon_follower h h12 hp hf hu hs h1 rfl,
    fun ⟨hf, hu, hs⟩ h0 => beacon_coordinator h h12 hp hf hu hs h0, fun ha => ⟨fun h1 h7 hd => ?_, fun hn => ?_⟩, fun f c hf hc hport hm hs hstart hsus hk => ?_,
    fun e he => ⟨fun hle => backoffExpiry_becomes h h12 hp he (if_pos hle), fun hlt => backoffExpiry_becomes h h12 hp he (if_neg (by omega))⟩,
    fun e he => ⟨fault_declared h h12 hp he, fun hb => ⟨fault_present h h12 hp he hb, fault_cleared h h12 hp he hb⟩⟩,
    fun h0 hf => reversed_declared h h12 hp (lineReversed_corrects hp h0 hf), fun h0 hf => reversed_declared h h12 hp (lineReversed_stays hp h0 hf),
    reversed_cleared h h12 hp, segLink_rises h12 hp, segLink_falls h12 hp, fun r n h2 h4 hn => ⟨fun h1 => ?_, fun h1 => ?_⟩⟩
  · exact plcaCycleStart_becomes h h12 hp (if_pos (by simpa using hd))
  · exact plcaCycleStart_becomes h h12 hp (if_neg (by simpa using hd))
  · exact beaconTimeout_becomes h h12 hp ha (if_pos ⟨h1, h7, hd⟩)
  · exact beaconTimeout_becomes h h12 hp ha (if_neg fun ⟨h1, h7, hd⟩ => by omega)
  · exact ⟨plcaCollision_retries h h12 hp hf hc hport hm hs hstart hsus hk,
      fun hw hd h6 h7 hn => csmaCollision_backsOff h h12 hp hf hc hport hm hs hstart hsus hk hw hd h6 h7 hn,
      fun hw hd h6 h7 hn hwhole => csmaCollision_drops h h12 hp hf hc hport hm hs hstart hsus hk hw hd h6 h7 (by omega) hwhole ((if_neg Bool.false_ne_true).trans (if_pos hn)),
      fun hw hd h6 h7 hwhole => csmaCollision_drops h h12 hp hf hc hport hm hs hstart hsus hk hw hd h6 h7 (by omega) hwhole (if_pos rfl)⟩
  · exact cableTest_becomes h h12 hp h2 h4 hn (if_pos h1)
  · exact cableTest_becomes h h12 hp h2 h4 hn (if_neg h1)

end Sys2Proof.Machine

/-! SUPPORT. The fields of a MAC entry (Table 6.2) and the places of the MAC table (R149 to R152). -/
namespace Sys2Proof.Machine

/-! Fields of a value. -/

section
variable (v x : Nat) {hi lo : Nat}

theorem bits_mul (v hi lo : Nat) (h : lo ≤ hi) : v / 2 ^ (hi + 1) * 2 ^ (hi + 1) + bits v hi lo * 2 ^ lo + v % 2 ^ lo = v := by
  have hpow : 2 ^ (hi + 1) = 2 ^ lo * 2 ^ (hi + 1 - lo) := by rw [← pow_add]; congr 1; omega
  have h1 := Nat.div_add_mod v (2 ^ lo)
  have h2 := Nat.div_add_mod (v / 2 ^ lo) (2 ^ (hi + 1 - lo))
  rw [hpow, ← Nat.div_div_eq_div_mul]
  unfold bits
  calc _ = 2 ^ lo * (2 ^ (hi + 1 - lo) * (v / 2 ^ lo / 2 ^ (hi + 1 - lo)) + v / 2 ^ lo % 2 ^ (hi + 1 - lo)) + v % 2 ^ lo := by ring
    _ = v := by rw [h2, h1]

/-- A field is replaced between what lies above and below it. -/
theorem setField_eq (h : lo ≤ hi) : setField v hi lo x = v / 2 ^ (hi + 1) * 2 ^ (hi + 1) + x % 2 ^ (hi + 1 - lo) * 2 ^ lo + v % 2 ^ lo := by
  have hv := bits_mul v hi lo h
  unfold setField
  omega

theorem setField_above (h : lo ≤ hi) : setField v hi lo x / 2 ^ (hi + 1) = v / 2 ^ (hi + 1) := by
  have hpow : 2 ^ (hi + 1) = 2 ^ (hi + 1 - lo) * 2 ^ lo := by rw [← pow_add]; congr 1; omega
  have h1 : x % 2 ^ (hi + 1 - lo) < 2 ^ (hi + 1 - lo) := Nat.mod_lt _ (Nat.two_pow_pos _)
  have h2 : v % 2 ^ lo < 2 ^ lo := Nat.mod_lt _ (Nat.two_pow_pos _)
  have hlow : x % 2 ^ (hi + 1 - lo) * 2 ^ lo + v % 2 ^ lo < 2 ^ (hi + 1) := by
    rw [hpow]
    calc _ < x % 2 ^ (hi + 1 - lo) * 2 ^ lo + 2 ^ lo := by omega
      _ = (x % 2 ^ (hi + 1 - lo) + 1) * 2 ^ lo := by ring
      _ ≤ 2 ^ (hi + 1 - lo) * 2 ^ lo := Nat.mul_le_mul_right _ h1
  rw [setField_eq v x h, Nat.add_assoc, Nat.mul_comm, Nat.mul_add_div (Nat.two_pow_pos _), Nat.div_eq_of_lt hlow, Nat.add_zero]

theorem setField_below (h : lo ≤ hi) : setField v hi lo x % 2 ^ lo = v % 2 ^ lo := by
  have hpow : 2 ^ (hi + 1) = 2 ^ (hi + 1 - lo) * 2 ^ lo := by rw [← pow_add]; congr 1; omega
  rw [setField_eq v x h, hpow, ← Nat.mul_assoc, ← Nat.add_mul, Nat.mul_add_mod_self_right, Nat.mod_mod]

theorem bits_setField (h : lo ≤ hi) : bits (setField v hi lo x) hi lo = x % 2 ^ (hi + 1 - lo) := by
  have hpow : 2 ^ (hi + 1) = 2 ^ (hi + 1 - lo) * 2 ^ lo := by rw [← pow_add]; congr 1; omega
  have h2 : v % 2 ^ lo < 2 ^ lo := Nat.mod_lt _ (Nat.two_pow_pos _)
  unfold bits
  rw [setField_eq v x h, hpow, ← Nat.mul_assoc, ← Nat.add_mul, Nat.mul_comm _ (2 ^ lo), Nat.mul_add_div (Nat.two_pow_pos _), Nat.div_eq_of_lt h2, Nat.add_zero,
    Nat.mul_add_mod_self_right, Nat.mod_mod]

theorem bits_setField_below {hi' lo' : Nat} (h : lo ≤ hi) (h' : lo' ≤ hi') (hlt : hi' < lo) : bits (setField v hi lo x) hi' lo' = bits v hi' lo' := by
  have hlow (w : Nat) : bits w hi' lo' = bits (w % 2 ^ lo) hi' lo' := by
    unfold bits
    rw [show 2 ^ lo = 2 ^ lo' * (2 ^ (hi' + 1 - lo') * 2 ^ (lo - (hi' + 1))) by rw [← pow_add, ← pow_add]; congr 1; omega,
      Nat.mod_mul_right_div_self, Nat.mod_mul_right_mod]
  rw [hlow, setField_below v x h, ← hlow]

theorem bits_setField_above {hi' lo' : Nat} (h : lo ≤ hi) (hlt : hi < lo') : bits (setField v hi lo x) hi' lo' = bits v hi' lo' := by
  have hhigh (w : Nat) : w / 2 ^ lo' = w / 2 ^ (hi + 1) / 2 ^ (lo' - (hi + 1)) := by
    rw [Nat.div_div_eq_div_mul, ← pow_add]
    congr 2
    omega
  unfold bits
  rw [hhigh, setField_above v x h, ← hhigh]

theorem bit_eq_bits (n : Nat) : bit v n = decide (bits v n n = 1) := by
  unfold bit bits
  rw [Nat.testBit_eq_decide_div_mod_eq, show n + 1 - n = 1 by omega, pow_one]

end

/-! Fields of an entry. -/

section
variable (v x : Nat)

theorem entKey_mkEntry (key age moves dest prio type : Nat) : entKey (mkEntry key age moves dest prio type) = key % 2 ^ 60 := by
  unfold entKey bits mkEntry
  omega

theorem entType_mkEntry (key age dest type : Nat) : entType (mkEntry key age 0 dest 0 type) = type % 4 := by
  unfold entType bits mkEntry
  omega

theorem entLock_eq : entLock v = decide (bits v 100 100 = 1) := bit_eq_bits v 100

end

/-! Places of the table. -/

section
variable {d : Dev}

theorem mac_setMac (d : Dev) (p e k : Nat) : (d.setMac p e).mac k = if k = p then e else d.mac k := tget_tput _ _ _ _ _

/-- Places in which a key is looked for. -/
def Dev.places (d : Dev) (key : Nat) : List Nat := d.ways 0 key ++ d.ways 1 key ++ (List.range 64).map (stashBase + ·)

theorem chartFind_eq (key : Nat) : d.chartFind key = (d.places key).find? (d.holds key) := rfl

theorem chartFind_holds {key p : Nat} (h : d.chartFind key = some p) : p ∈ d.places key ∧ d.holds key p = true :=
  ⟨List.mem_of_find?_eq_some h, List.find?_some h⟩

theorem holds_iff (key p : Nat) : d.holds key p = true ↔ d.mac p ≠ 0 ∧ entKey (d.mac p) = key ∧ entType (d.mac p) ≠ 0 := by
  simp [Dev.holds, and_assoc]

/-- A key stands where an entry of it has been put, when it stood nowhere before. -/
theorem chartFind_put {x : Dev} {key p e : Nat} (hnone : d.chartFind key = none) (hplaces : x.places key = d.places key) (hp : p ∈ d.places key)
    (hmac : ∀ k, x.mac k = if k = p then e else d.mac k) (he : e ≠ 0) (hkey : entKey e = key) (htype : entType e ≠ 0) : x.chartFind key = some p := by
  rw [chartFind_eq, hplaces]
  cases hf : (d.places key).find? (x.holds key) with
  | none =>
    have hno := List.find?_eq_none.1 hf p hp
    exact absurd ((holds_iff key p).2 (by rw [hmac, if_pos rfl]; exact ⟨he, hkey, htype⟩)) hno
  | some y =>
    have hy := (holds_iff key y).1 (List.find?_some hf)
    by_cases hyp : y = p
    · rw [hyp]
    · rw [hmac, if_neg hyp] at hy
      exact absurd ((holds_iff key y).2 hy) (List.find?_eq_none.1 hnone y (List.mem_of_find?_eq_some hf))

end

end Sys2Proof.Machine

/-! SUPPORT. The learning engine and the messages of other members (R152, R156 to R159, R162, R163, R367), and O29. -/
namespace Sys2Proof.Machine

section
variable {d : Dev} {q : LearnReq}

theorem tellStack_alone (h : d.obj 0x3008 0x00 ≠ 1) (o : Nat → Out) : d.tellStack o = d := if_neg h

theorem engineTook_idle (h : d.chart.flushes = []) (n : Nat) : d.engineTook n = d := by unfold Dev.engineTook; rw [h]

theorem stale_own (h : q.msgFrom = none) : d.stale q = false := by unfold Dev.stale; rw [h]

theorem msgApplied_own (h : q.msgFrom = none) : d.msgApplied q = d := if_neg (by simp [h])

/-- The engine has served a request in `n` steps. -/
def Dev.engineDone (d e : Dev) (n : Nat) : Dev := (e.engineTook n).chartUpd fun x => { x with learnAt := d.now }

theorem engineDone_mac {e : Dev} {n k : Nat} : (d.engineDone e n).mac k = e.mac k := by
  unfold Dev.engineDone Dev.engineTook
  split <;> rfl

theorem engineDone_obj {e : Dev} {n i j u r : Nat} : (d.engineDone e n).obj i j u r = e.obj i j u r := by
  unfold Dev.engineDone Dev.engineTook
  split <;> rfl

theorem engineDone_queue {e : Dev} {n : Nat} : (d.engineDone e n).chart.queue = e.chart.queue := by
  unfold Dev.engineDone Dev.engineTook
  split <;> rfl

theorem engineDone_gone {e : Dev} {n : Nat} : (d.engineDone e n).chart.gone = e.chart.gone := by
  unfold Dev.engineDone Dev.engineTook
  split <;> rfl

theorem engineDone_ev {e : Dev} {n : Nat} : (d.engineDone e n).ev = e.ev := by
  unfold Dev.engineDone Dev.engineTook
  split <;> rfl

/-- Places of a key depend on the seeds and the retired buckets. -/
theorem places_congr {x : Dev} (h0 : x.obj 0x3001 0x41 = d.obj 0x3001 0x41) (h1 : x.obj 0x3001 0x42 = d.obj 0x3001 0x42) (hgone : x.chart.gone = d.chart.gone) (key : Nat) : x.places key = d.places key := by
  unfold Dev.places Dev.ways Dev.bucketGone Dev.bucket
  simp only [h0, h1, hgone]

theorem chartInsert_first {e : Nat} {x : Dev} (hnone : d.chartFind (entKey e) = none) (hfill : d.fillWay 0 e = some x) : d.chartInsert e = (x, true) := by
  unfold Dev.chartInsert
  rw [hnone, hfill]

end

section
variable {s : State} {t : Nat} {d : Dev} {q : LearnReq} {l : List LearnReq} (h : s.Tick t d)
include h

theorem learnEngine_nothing (hq : d.chart.queue = []) : Becomes (.learnEngineInsert t) s (d.usePorts [1]) := by
  refine becomes h (by unfold exec execLearnEngineInsert State.portCmd; rfl) rfl ?_
  dsimp only
  rw [hq]

/-- A request is served at once while no flush runs. -/
theorem learnEngine_serves (hq : d.chart.queue = q :: l) (hf : d.chart.flushes = []) {e : Dev} (he : (d.chartUpd fun x => { x with queue := l }).chartServe q = e) :
    Becomes (.learnEngineInsert t) s ((d.engineDone e (engineSteps d e q)).usePorts [1]) := by
  subst he
  refine becomes h (by unfold exec execLearnEngineInsert State.portCmd; rfl) rfl ?_
  dsimp only
  rw [hq]
  exact congrArg (Dev.usePorts · [1]) (if_neg (by simp [hf]))

/-- What a request that is served at once leaves of the table, the objects, the queue and the events. -/
theorem learnEngine_leaves (hq : d.chart.queue = q :: l) (hf : d.chart.flushes = []) {e : Dev} (he : (d.chartUpd fun x => { x with queue := l }).chartServe q = e) {P : Dev → Prop}
    (hP : ∀ x : Dev, x.chart.queue = e.chart.queue → (∀ k, x.mac k = e.mac k) → (∀ i j u r, x.obj i j u r = e.obj i j u r) → x.chart.gone = e.chart.gone → x.ev = e.ev → P x) :
    Completes (.learnEngineInsert t) s P :=
  Becomes.completes (learnEngine_serves h hq hf he)
    (hP _ engineDone_queue (fun _ => engineDone_mac) (fun _ _ _ _ => engineDone_obj (d := d)) engineDone_gone (engineDone_ev (d := d)))

end

/-! The request of this member's own frame, by what the table holds of its key. -/

section
variable {d : Dev} {q : LearnReq} (hown : q.msgFrom = none)
include hown

theorem chartServe_inserts {x : Dev} (hlocal : q.remote = false) (hnone : d.chartFind q.key = none) (hins : d.chartInsert (mkEntry q.key d.ltSec 0 q.dest 0 1) = (x, true))
    (hkept : x.obj 0x3008 0x00 = 0) : d.chartServe q = (x.inc64 0x3004 0x02).remember q := by
  have hquiet : (((x.inc64 0x3004 0x02).remember q).obj 0x3008 0x00) ≠ 1 := by
    have hobj : ((x.inc64 0x3004 0x02).remember q).obj 0x3008 0x00 = x.obj 0x3008 0x00 := obj_inc64_field x (by omega) (by omega) (by omega) (by omega) (by omega)
    omega
  unfold Dev.chartServe
  rw [if_neg (by simp [stale_own hown]), hnone]
  simp only [hlocal, Bool.false_eq_true, if_false, hins, msgApplied_own hown]
  exact tellStack_alone hquiet _

theorem chartServe_pinned {p : Nat} (hfind : d.chartFind q.key = some p) (hpin : entType (d.mac p) = 3 ∨ entLock (d.mac p) = true) (hdest : entDest (d.mac p) ≠ q.dest) :
    d.chartServe q = d.inc 0x3005 0x06 := by
  unfold Dev.chartServe
  rw [if_neg (by simp [stale_own hown]), hfind]
  dsimp only
  by_cases h3 : entType (d.mac p) = 3
  · rw [if_pos h3, if_neg hdest]
  · rw [if_neg h3, if_neg hdest, if_pos (hpin.resolve_left h3)]

theorem chartServe_moves {p : Nat} (hfind : d.chartFind q.key = some p) (htype : entType (d.mac p) ≠ 3) (hdest : entDest (d.mac p) ≠ q.dest) (hlock : entLock (d.mac p) = false) :
    d.chartServe q = d.chartMove p q := by
  unfold Dev.chartServe
  rw [if_neg (by simp [stale_own hown]), hfind]
  dsimp only
  rw [if_neg htype, if_neg hdest, if_neg (by simp [hlock])]

/-- An entry that a frame of this member's own moves to a destination. -/
def Dev.movedEntry (d : Dev) (p moves dest : Nat) : Nat :=
  setField (setField (setField (setField (d.mac p) 76 60 (d.ltSec % 2 ^ 17)) 84 77 (moves + 1)) 95 85 dest) 102 101 1

/-- An entry that a move above the limit locks. -/
def Dev.lockedEntry (d : Dev) (p : Nat) : Nat := setField (setField (d.mac p) 84 77 (d.ltSec % 256)) 100 100 1

theorem chartMove_moves {p moves : Nat} (hlocal : q.remote = false) (hmode : d.obj 0x3008 0x00 = 0)
    (hm : (if entAge (d.mac p) = d.ltSec % 2 ^ 17 then entMoves (d.mac p) else 0) = moves) (hlimit : moves + 1 ≤ d.obj 0x3005 0x01) :
    d.chartMove p q = ((d.setMac p (d.movedEntry p moves q.dest)).inc64 0x3005 0x04).remember q := by
  have hquiet : (((d.setMac p (d.movedEntry p moves q.dest)).inc64 0x3005 0x04).remember q).obj 0x3008 0x00 ≠ 1 := by
    have hobj : (((d.setMac p (d.movedEntry p moves q.dest)).inc64 0x3005 0x04).remember q).obj 0x3008 0x00 = d.obj 0x3008 0x00 :=
      obj_inc64_field (d.setMac p (d.movedEntry p moves q.dest)) (by omega) (by omega) (by omega) (by omega) (by omega)
    omega
  unfold Dev.chartMove
  dsimp only
  rw [hm, if_pos hlimit]
  simp only [hlocal, Bool.false_eq_true, if_false, msgApplied_own hown]
  exact tellStack_alone hquiet _

omit hown in
theorem chartMove_locks {p moves : Nat} (hm : (if entAge (d.mac p) = d.ltSec % 2 ^ 17 then entMoves (d.mac p) else 0) = moves) (hlimit : d.obj 0x3005 0x01 ≤ moves) :
    d.chartMove p q = ((d.setMac p (d.lockedEntry p)).inc 0x3005 0x05).event 4 (some 6) Ev.chartLock.code := by
  unfold Dev.chartMove
  dsimp only
  rw [hm, if_neg (by omega)]
  rfl

end

section
variable {s : State} {t : Nat} {d : Dev} {q : LearnReq} {l : List LearnReq} (h : s.Tick t d) (hq : d.chart.queue = q :: l) (hf : d.chart.flushes = []) (hown : q.msgFrom = none)
include h hq hf hown

theorem learnEngine_inserts (hkey : q.key < 2 ^ 60) (hmode : d.obj 0x3008 0x00 = 0) (hlocal : q.remote = false) (hnone : d.chartFind q.key = none)
    (hfill : d.fillWay 0 (mkEntry q.key d.ltSec 0 q.dest 0 1) ≠ none) :
    Completes (.learnEngineInsert t) s fun x => x.chart.queue = l ∧
      (∃ p : Nat, x.chartFind q.key = some p ∧ x.mac p = mkEntry q.key d.ltSec 0 q.dest 0 1 ∧ d.mac p = 0 ∧ ∀ k : Nat, k ≠ p → x.mac k = d.mac k) ∧
      x.obj 0x3004 0x02 = (d.obj 0x3004 0x02 + 1) % 2 ^ 64 := by
  obtain ⟨p, hway⟩ := Option.ne_none_iff_exists'.1 (fun hn => hfill (Option.map_eq_none_iff.2 hn))
  have hp := List.mem_of_find?_eq_some hway
  have hempty : d.mac p = 0 := by simpa using List.find?_some hway
  have hy : (d.chartUpd fun x => { x with queue := l }).fillWay 0 (mkEntry q.key d.ltSec 0 q.dest 0 1) =
      some ((d.chartUpd fun x => { x with queue := l }).setMac p (mkEntry q.key d.ltSec 0 q.dest 0 1)) := Option.map_eq_some_iff.2 ⟨p, hway, rfl⟩
  have hentry : entKey (mkEntry q.key d.ltSec 0 q.dest 0 1) = q.key := (entKey_mkEntry _ _ _ _ _ _).trans (Nat.mod_eq_of_lt hkey)
  have htype : entType (mkEntry q.key d.ltSec 0 q.dest 0 1) = 1 := entType_mkEntry _ _ _ _
  have hins := chartInsert_first (d := d.chartUpd fun x => { x with queue := l }) (e := mkEntry q.key d.ltSec 0 q.dest 0 1) (hentry.symm ▸ hnone) hy
  refine learnEngine_leaves h hq hf (chartServe_inserts hown hlocal hnone hins hmode) fun x hqueue hxmac hobj hgone _ => ⟨hqueue, ?_, ?_⟩
  · have hmac : ∀ k, x.mac k = if k = p then mkEntry q.key d.ltSec 0 q.dest 0 1 else d.mac k := fun k => (hxmac k).trans (mac_setMac _ _ _ _)
    have hseed : ∀ j, j < 256 → x.obj 0x3001 j = d.obj 0x3001 j := fun j hj =>
      (hobj _ _ _ _).trans (obj_inc64_field ((d.chartUpd fun x => { x with queue := l }).setMac p (mkEntry q.key d.ltSec 0 q.dest 0 1)) (by omega) (by omega) hj (by omega) (by omega))
    refine ⟨p, chartFind_put hnone (places_congr (hseed _ (by omega)) (hseed _ (by omega)) hgone q.key) ?_ hmac ?_ hentry (by omega), (hmac p).trans (if_pos rfl), hempty, fun k hk => (hmac k).trans (if_neg hk)⟩
    · rw [hentry] at hp
      exact List.mem_append_left _ (List.mem_append_left _ hp)
    · intro h0
      simp [h0, entType, bits] at htype
  · exact (hobj _ _ _ _).trans (obj_inc64_same _ _ _ _ _ _)

theorem learnEngine_moves (hmode : d.obj 0x3008 0x00 = 0) (hlocal : q.remote = false) (hd : q.dest < 2048) {p : Nat} (hfind : d.chartFind q.key = some p)
    (htype : entType (d.mac p) ≠ 3) (hdest : entDest (d.mac p) ≠ q.dest) (hlock : entLock (d.mac p) = false) (hage : entAge (d.mac p) ≠ d.ltSec % 2 ^ 17) (hlimit : 1 ≤ d.obj 0x3005 0x01) :
    Completes (.learnEngineInsert t) s fun x => x.chart.queue = l ∧ entDest (x.mac p) = q.dest ∧ entMoves (x.mac p) = 1 ∧ entType (x.mac p) = 1 ∧
      entAge (x.mac p) = d.ltSec % 2 ^ 17 ∧ entKey (x.mac p) = q.key ∧ x.obj 0x3005 0x04 = (d.obj 0x3005 0x04 + 1) % 2 ^ 64 := by
  have hserve := chartServe_moves (d := d.chartUpd fun x => { x with queue := l }) hown hfind htype hdest hlock
  have hmove := chartMove_moves (d := d.chartUpd fun x => { x with queue := l }) hown (p := p) (moves := 0) hlocal hmode (if_neg hage) hlimit
  obtain ⟨-, hkeyp, -⟩ := (holds_iff q.key p).1 (chartFind_holds hfind).2
  refine learnEngine_leaves h hq hf (hserve.trans hmove) fun x hqueue hxmac hobj _ _ => ?_
  have hmac : x.mac p = d.movedEntry p 0 q.dest := (hxmac p).trans ((mac_setMac _ _ _ _).trans (if_pos rfl))
  refine ⟨hqueue, ?_, ?_, ?_, ?_, ?_, (hobj _ _ _ _).trans (obj_inc64_same _ _ _ _ _ _)⟩ <;> rw [hmac]
  · simp (disch := omega) only [entDest, Dev.movedEntry, bits_setField, bits_setField_below]
    exact Nat.mod_eq_of_lt hd
  · simp (disch := omega) only [entMoves, Dev.movedEntry, bits_setField, bits_setField_below]
    rfl
  · simp (disch := omega) only [entType, Dev.movedEntry, bits_setField]
    rfl
  · simp (disch := omega) only [entAge, Dev.movedEntry, bits_setField, bits_setField_below]
    exact Nat.mod_mod _ _
  · rw [← hkeyp]
    simp (disch := omega) only [entKey, Dev.movedEntry, bits_setField_below]

theorem learnEngine_locks {p : Nat} (hfind : d.chartFind q.key = some p)
    (htype : entType (d.mac p) ≠ 3) (hdest : entDest (d.mac p) ≠ q.dest) (hlock : entLock (d.mac p) = false) (hage : entAge (d.mac p) = d.ltSec % 2 ^ 17)
    (hlimit : d.obj 0x3005 0x01 ≤ entMoves (d.mac p)) :
    Completes (.learnEngineInsert t) s fun x => entLock (x.mac p) = true ∧ entDest (x.mac p) = entDest (d.mac p) ∧
      x.obj 0x3005 0x05 = (d.obj 0x3005 0x05 + 1) % 2 ^ 32 ∧ ∃ e ∈ x.ev.bus, e.vector = some 6 ∧ e.lt = d.lt := by
  have hserve := chartServe_moves (d := d.chartUpd fun x => { x with queue := l }) hown hfind htype hdest hlock
  have hmove := chartMove_locks (d := d.chartUpd fun x => { x with queue := l }) (q := q) (p := p) (if_pos hage) hlimit
  refine learnEngine_leaves h hq hf (hserve.trans hmove) fun x _ hxmac hobj _ hev => ?_
  have hmac : x.mac p = d.lockedEntry p := (hxmac p).trans ((mac_setMac _ _ _ _).trans (if_pos rfl))
  refine ⟨?_, ?_, (hobj _ _ _ _).trans (obj_inc_same _ _ _ _ _ _), hev ▸ event_raised _ _ _ _ _⟩ <;> rw [hmac]
  · rw [entLock_eq, Dev.lockedEntry, bits_setField _ _ (by omega)]
    rfl
  · simp (disch := omega) only [entDest, Dev.lockedEntry, bits_setField_above, bits_setField_below]

theorem learnEngine_pinned {p : Nat} (hfind : d.chartFind q.key = some p) (hpin : entType (d.mac p) = 3 ∨ entLock (d.mac p) = true) (hdest : entDest (d.mac p) ≠ q.dest) :
    Becomes (.learnEngineInsert t) s (((d.chartUpd fun x => { x with queue := l, learnAt := d.now }).inc 0x3005 0x06).usePorts [1]) := by
  have hdone := learnEngine_serves h hq hf (chartServe_pinned (d := d.chartUpd fun x => { x with queue := l }) hown hfind hpin hdest)
  have htook := engineTook_idle (d := (d.chartUpd fun x => { x with queue := l }).inc 0x3005 0x06) hf (engineSteps d ((d.chartUpd fun x => { x with queue := l }).inc 0x3005 0x06) q)
  unfold Dev.engineDone at hdone
  rw [htook] at hdone
  exact hdone

end

/-! Messages of other members (R162, R163, R367). -/

section
variable {s : State} {t m k n : Nat} {a : Int} {d : Dev}

theorem learnOn_chart (d : Dev) : (d.learnOn m k n a).chart = d.chart := by
  unfold Dev.learnOn
  split
  · exact (congrArg Dev.chart (sent_sendLink d _ _).rest :)
  · rfl

theorem learnOn_ends (h : d.onward m = none) : d.learnOn m k n a = d := by unfold Dev.learnOn; rw [h]

theorem learnOn_leaves {l : Nat} (h : d.onward m = some l) (hm : d.macsecOn (20 + l) = false) : d.learnOn m k n a = d.out (.learn l m k n a) := by
  unfold Dev.learnOn
  rw [h]
  exact sendLink_plain d _ _ hm

section
variable (h : s.Tick t d) (hm : m < 4) (hk : k < 2 ^ 60) (hn : n < 128)
include h hm hk hn

theorem learnMessage_becomes {x : Dev}
    (hx : (if d.obj 0x3008 0x00 ≠ 1 then d else
      (if d.stale { key := k, dest := n, stamp := a, msgFrom := some m, remote := true } then d.inc 0x3008 0x03
        else d.chartRequest { key := k, dest := n, stamp := a, msgFrom := some m, remote := true }).learnOn m k n a) = x) : Becomes (.learnMessageReceived t m k n a) s x := by
  refine becomes h (by unfold exec; rfl) (Bool.and_eq_true_iff.2 ⟨Bool.and_eq_true_iff.2 ⟨decide_eq_true hm, decide_eq_true hk⟩, decide_eq_true hn⟩) ?_
  exact hx

theorem learnMessage_joins (hmode : d.obj 0x3008 0x00 = 1) (hs : d.stale { key := k, dest := n, stamp := a, msgFrom := some m, remote := true } = false) (hl : d.flag 0x3004 0x01 = true)
    (hlen : d.chart.queue.length < 256) : Completes (.learnMessageReceived t m k n a) s fun x =>
      x.chart.queue = d.chart.queue ++ [{ key := k, dest := n, stamp := a, msgFrom := some m, remote := true }] ∧
        x.chart.mac = d.chart.mac ∧ x.chart.recent = d.chart.recent ∧ x.chart.flushes = d.chart.flushes := by
  refine Becomes.completes (learnMessage_becomes h hm hk hn (if_neg fun hne => hne hmode)) ?_
  rw [learnOn_chart, if_neg (by simp [hs])]
  unfold Dev.chartRequest
  rw [if_neg (by simp [hl]), if_neg (by omega)]
  have hpeak (e : Dev) (v : Nat) : (e.peak 0x3000 0x0B v).chart = e.chart := by unfold Dev.peak; split <;> rfl
  dsimp only
  rw [hpeak]
  exact ⟨rfl, rfl, rfl, rfl⟩

end

theorem removalOn_here {r : Removal} (h : r.target = some d.stackId) : d.removalOn r = d := by
  unfold Dev.removalOn
  rw [h]
  simp

theorem removalOn_leaves {r : Removal} (ht : r.target = none) (h : d.onward r.sender = some k) (hm : d.macsecOn (20 + k) = false) : d.removalOn r = d.out (.removal k r) := by
  unfold Dev.removalOn
  rw [ht]
  dsimp only
  rw [h]
  exact sendLink_plain d _ _ hm

theorem removal_becomes {r : Removal} (h : s.Tick t d) (hk : r.key < 2 ^ 60) (hs : r.sender < 4) (ht : ∀ m ∈ r.target, m < 4) {x : Dev}
    (hx : (match d.chartFind r.key with | some p => if entType (d.mac p) = 2 then d.chartRemove p else d | none => d) = x) :
    Becomes (.removalMessageReceived t r) s (x.removalOn r) := by
  refine becomes h (by unfold exec; rfl) ?_ (congrArg (Dev.removalOn · r) hx)
  have hall : r.target.all (· < 4) = true := by
    cases hr : r.target with
    | none => rfl
    | some m => exact decide_eq_true (ht m hr)
  exact Bool.and_eq_true_iff.2 ⟨Bool.and_eq_true_iff.2 ⟨decide_eq_true hk, decide_eq_true hs⟩, hall⟩

end

/-- Settles O29: a request of this member by what the table holds of its key; messages by the mode and the way on. -/
theorem chartLearning : Obligations.ChartLearning := by
  unfold Obligations.ChartLearning
  intro s t d h
  refine ⟨learnEngine_nothing h, fun q l hq hkey hd hmode hown hlocal hf => ⟨learnEngine_inserts h hq hf hown hkey hmode hlocal, fun p hfind htype hdest hlock => ⟨?_, ?_⟩,
    fun p => learnEngine_pinned h hq hf hown⟩, fun m k n a hm hk hn => ⟨fun hmode => ?_, fun hmode hs => ?_, learnMessage_joins h hm hk hn, learnOn_ends, fun l => learnOn_leaves⟩,
    fun r hk hs ht => ⟨fun p hfind => ⟨fun h2 => ?_, fun h2 => ?_⟩, fun hnone => ?_, removalOn_here, fun k => removalOn_leaves⟩⟩
  · exact learnEngine_moves h hq hf hown hmode hlocal hd hfind htype hdest hlock
  · exact learnEngine_locks h hq hf hown hfind htype hdest hlock
  · exact learnMessage_becomes h hm hk hn (if_pos hmode)
  · exact learnMessage_becomes h hm hk hn ((if_neg fun hne => hne hmode).trans (by rw [if_pos hs]))
  · exact removal_becomes h hk hs ht (by rw [hfind]; exact if_pos h2)
  · exact removal_becomes h hk hs ht (by rw [hfind]; exact if_neg h2)
  · exact removal_becomes h hk hs ht (by rw [hnone])

end Sys2Proof.Machine

/-! SUPPORT. What the answer to a write leaves alone (R45, R46, R49). -/
namespace Sys2Proof.Machine

/-- The device but for what an answer may change: its objects, events, messages, server, keys, CAN buffers and stored frames. -/
def Dev.beyond (d : Dev) : Dev := { d with store := [], ev := {}, outbox := [], bin := {}, alm := {}, stack := {}, fab := {}, chans := [] }

section
variable (d : Dev)

theorem canPut_beyond (x : Nat × Nat × Bytes) : (d.canPut x).beyond = d.beyond := by
  unfold Dev.canPut
  simp only
  split
  · rfl
  · split
    · rfl
    · split
      · rfl
      · exact (congrArg Dev.beyond (bufArm_rest _ _ _ _) :)

theorem sendRecord_beyond (o : Option Nat) (v : Service) (a : Source) (n : Bool) (b : Bytes) : (d.sendRecord o v a n b).beyond = d.beyond := by
  unfold Dev.sendRecord
  split
  · next m => exact (congrArg Dev.beyond (sent_sendTo d m (.forwardedReply m v a b)).rest :)
  · split
    · unfold Dev.replyPcie
      split
      · rfl
      · simp only
        split <;> rfl
    · simp only
      split <;> rfl
    · exact foldl_leaves Dev.beyond _ canPut_beyond _ _
    · split <;> rfl
    · rfl

theorem reply_beyond (q : Request) (c : Nat) (b : Bytes) : (d.reply q c b).beyond = d.beyond :=
  foldl_leaves Dev.beyond _ (fun d _ => sendRecord_beyond d _ _ _ _ _) _ d

theorem tryFinish_beyond (q : Request) (h3 : ¬ (recIndex q.bytes = 0xB810 ∧ recSub q.bytes = 0x0B)) (h4 : ¬ (recIndex q.bytes = 0xA000 ∧ recSub q.bytes = 0x01)) :
    (d.tryFinish q).beyond = d.beyond :=
  tryFinish_kept d Dev.beyond q h3 h4 fun x => reply_beyond x q 0 []

end

end Sys2Proof.Machine

/-! SUPPORT. Ageing, the stash, flushes (R154, R156, R160, R161) and the writes of the Chart, and O30. -/
namespace Sys2Proof.Machine

/-! A table as a list. -/

section
variable {β : Type} {f : Nat → β}

/-- A table in which keys rise reads at a listed key what is listed there. -/
theorem tget_of_mem {m : Tbl β} (hm : (m.map (·.1)).Pairwise (· < ·)) {x : Nat × β} (hx : x ∈ m) : tget f m x.1 = x.2 := by
  induction m with
  | nil => simp at hx
  | cons y m ih =>
    rw [List.map_cons, List.pairwise_cons] at hm
    unfold tget
    rcases List.mem_cons.1 hx with rfl | hx'
    · exact if_pos rfl
    · rw [if_neg (Nat.ne_of_lt (hm.1 _ (List.mem_map_of_mem hx')))]
      exact ih hm.2 hx'

/-- What a table reads is listed, or the default. -/
theorem tget_mem_or (m : Tbl β) (k : Nat) : (k, tget f m k) ∈ m ∨ tget f m k = f k := by
  induction m with
  | nil => exact .inr rfl
  | cons y m ih =>
    unfold tget
    split
    · next h => exact .inl (List.mem_cons.2 (.inl (Prod.ext h.symm rfl)))
    · exact ih.imp_left (List.mem_cons_of_mem _)

/-- A change of every listed value changes what is read alike, where it keeps the default. -/
theorem tget_map (g : β → β) (m : Tbl β) (k : Nat) (h : g (f k) = f k) : tget f (m.map fun x => (x.1, g x.2)) k = g (tget f m k) := by
  induction m with
  | nil => exact h.symm
  | cons y m ih =>
    unfold tget
    rw [List.map_cons]
    dsimp only
    split
    · rfl
    · exact ih

end

/-! Ageing (R160). -/

section
variable {d : Dev} {p e : Nat}

theorem mac_single (h : d.chart.mac = [(p, e)]) (k : Nat) : d.mac k = if p = k then e else 0 := by
  unfold Dev.mac
  rw [h]
  rfl

theorem chartAge_stays (hlock : entLock (d.mac p) = false)
    (hstay : entType (d.mac p) = 3 ∨ (d.ltSec + 2 ^ 17 - entAge (d.mac p)) % 2 ^ 17 ≤ d.obj 0x3006 0x01) : Dev.chartAge [] d p = d := by
  unfold Dev.chartAge
  dsimp only
  rw [if_neg, if_neg]
  · simp [hlock]
  · rcases hstay with h3 | hle
    · simp [h3]
    · rw [decide_eq_false (Nat.not_lt.2 hle)]
      simp

theorem chartAge_leaves (htype : entType (d.mac p) = 1 ∨ entType (d.mac p) = 2) (hmode : d.obj 0x3008 0x00 = 0)
    (hold : d.obj 0x3006 0x01 < (d.ltSec + 2 ^ 17 - entAge (d.mac p)) % 2 ^ 17) : Dev.chartAge [] d p = (d.chartRemove p).inc64 0x3006 0x02 := by
  have hquiet : ((d.chartRemove p).inc64 0x3006 0x02).obj 0x3008 0x00 ≠ 1 := by
    have hobj : ((d.chartRemove p).inc64 0x3006 0x02).obj 0x3008 0x00 = d.obj 0x3008 0x00 :=
      obj_inc64_field (d.chartRemove p) (by omega) (by omega) (by omega) (by omega) (by omega)
    omega
  unfold Dev.chartAge
  dsimp only
  rw [if_pos]
  · split
    · exact tellStack_alone hquiet _
    · rfl
  · rw [decide_eq_true hold]
    rcases htype with h1 | h2
    · simp [h1]
    · simp [h2, hmode]

end

section
variable {s : State} {t p e n : Nat} {d : Dev} (h : s.Tick t d)
include h

/-- A scan that no other work holds back, over the one entry. -/
theorem ageing_becomes (ha : s.Alone d) (hf : d.chart.flushes = []) (hq : d.chart.queue = []) (hm : d.chart.mac = [(p, e)]) (hn : n ≤ 16385) (hlo : d.chart.scan ≤ scanBucket p)
    (hhi : scanBucket p < d.chart.scan + n) {x : Dev} (hx : Dev.chartAge [] d p = x) (hxf : x.chart.flushes = []) (hxq : x.chart.queue = []) (hxn : x.now = d.now) :
    Becomes (.ageingScan t n) s ((x.chartUpd fun y => { y with scan := (d.chart.scan + n) % 16385, scanAt := d.now }).usePorts [1]) := by
  refine becomes h (by unfold exec execAgeingScan State.portCmd; rfl) (decide_eq_true hn) ?_
  refine congrArg (Dev.usePorts · [1]) ?_
  have hidle : d.engineIdle = true := by simp [Dev.engineIdle, hf, hq]
  have hxidle : x.engineIdle = true := by simp [Dev.engineIdle, hxf, hxq]
  have hrange : (d.chart.mac.map (·.1)).filter (fun p => (decide (d.chart.scan ≤ scanBucket p) && decide (scanBucket p < d.chart.scan + n)) || decide (scanBucket p + 16385 < d.chart.scan + n)) = [p] := by
    simp [hm, hlo, hhi]
  dsimp only
  rw [if_pos hidle, ha.tick (by omega) (by omega), hrange, List.filterMap_nil, List.foldl_cons, List.foldl_nil, hx, engineTook_idle hxf, hxn]
  simp only [hxidle, if_true]

theorem ageing_removes (ha : s.Alone d) (hf : d.chart.flushes = []) (hq : d.chart.queue = []) (hm : d.chart.mac = [(p, e)]) (hn : n ≤ 16385) (hlo : d.chart.scan ≤ scanBucket p)
    (hhi : scanBucket p < d.chart.scan + n) (hmode : d.obj 0x3008 0x00 = 0) (htype : entType e = 1 ∨ entType e = 2)
    (hold : d.obj 0x3006 0x01 < (d.ltSec + 2 ^ 17 - entAge e) % 2 ^ 17) :
    Completes (.ageingScan t n) s fun x => x.mac p = 0 ∧ x.obj 0x3006 0x02 = (d.obj 0x3006 0x02 + 1) % 2 ^ 64 ∧ x.chart.scan = (d.chart.scan + n) % 16385 := by
  have he : d.mac p = e := (mac_single hm p).trans (if_pos rfl)
  refine (ageing_becomes h ha hf hq hm hn hlo hhi (chartAge_leaves (he ▸ htype) hmode (he ▸ hold)) hf hq rfl).completes ⟨?_, ?_, rfl⟩
  · exact (mac_setMac d p 0 p).trans (if_pos rfl)
  · exact obj_inc64_same (d.chartRemove p) _ _ _ _ _

theorem ageing_keeps (ha : s.Alone d) (hf : d.chart.flushes = []) (hq : d.chart.queue = []) (hm : d.chart.mac = [(p, e)]) (hn : n ≤ 16385) (hlo : d.chart.scan ≤ scanBucket p)
    (hhi : scanBucket p < d.chart.scan + n) (hlock : entLock e = false) (hstay : entType e = 3 ∨ (d.ltSec + 2 ^ 17 - entAge e) % 2 ^ 17 ≤ d.obj 0x3006 0x01) :
    Becomes (.ageingScan t n) s ((d.chartUpd fun x => { x with scan := (d.chart.scan + n) % 16385, scanAt := d.now }).usePorts [1]) := by
  have he : d.mac p = e := (mac_single hm p).trans (if_pos rfl)
  exact ageing_becomes h ha hf hq hm hn hlo hhi (chartAge_stays (he ▸ hlock) (he ▸ hstay)) hf hq rfl

theorem ageing_waits (hn : n ≤ 16385) (hbusy : d.chart.queue ≠ [] ∨ d.chart.flushes ≠ []) (hm : d.chart.mac = []) :
    Completes (.ageingScan t n) s fun x => x.chart.scan = (d.chart.scan + min n (d.rounds d.chart.scanAt)) % 16385 ∧ x.chart.mac = [] ∧ x.chart.queue = d.chart.queue := by
  refine completes h (by unfold exec execAgeingScan State.portCmd; rfl) (decide_eq_true hn) ?_
  have hidle : ¬ d.engineIdle = true := by
    simp only [Dev.engineIdle, Bool.and_eq_true, List.isEmpty_iff]
    exact fun ⟨h1, h2⟩ => hbusy.elim (· h1) (· h2)
  have htook (k : Nat) : (d.engineTook k).chart.mac = d.chart.mac ∧ (d.engineTook k).chart.queue = d.chart.queue := by
    unfold Dev.engineTook
    split <;> exact ⟨rfl, rfl⟩
  simp only [hm, if_neg hidle, List.map_nil, List.filter_nil, List.foldl_nil]
  exact ⟨rfl, (htook _).1.trans hm, (htook _).2⟩

/-! The stash (R154). -/

theorem stash_busy (hbusy : d.chart.queue ≠ [] ∨ d.chart.flushes ≠ []) : Becomes (.stashDrain t) s (d.usePorts [1]) := by
  refine becomes h (by unfold exec execStashDrain State.portCmd; rfl) rfl ?_
  refine congrArg (Dev.usePorts · [1]) (if_pos ?_)
  simp only [Dev.engineIdle, Bool.and_eq_true, List.isEmpty_iff]
  exact fun ⟨h1, h2⟩ => hbusy.elim (· h1) (· h2)

theorem stash_drains (hq : d.chart.queue = []) (hf : d.chart.flushes = []) (hm : d.chart.mac = [(stashBase + p, e)]) (hgone : d.bucketGone 0 (d.bucket 0 (entKey e)) = false) :
    Completes (.stashDrain t) s fun x => x.mac (stashBase + p) = 0 ∧ x.mac (wayPos 0 (d.bucket 0 (entKey e)) 0) = e ∧ x.store = d.store := by
  refine completes h (by unfold exec execStashDrain State.portCmd; rfl) rfl ?_
  have hidle : d.engineIdle = true := by simp [Dev.engineIdle, hf, hq]
  have he : d.mac (stashBase + p) = e := (mac_single hm _).trans (if_pos rfl)
  have hempty (k : Nat) : (d.setMac (stashBase + p) 0).mac k = 0 := by
    rw [mac_setMac, mac_single hm]
    split
    · rfl
    · next hk => exact if_neg (Ne.symm hk)
  have hfill : (d.setMac (stashBase + p) 0).fillWay 0 e = some ((d.setMac (stashBase + p) 0).setMac (wayPos 0 (d.bucket 0 (entKey e)) 0) e) := by
    have hways : (d.setMac (stashBase + p) 0).ways 0 (entKey e) = (List.range 4).map (wayPos 0 (d.bucket 0 (entKey e))) := if_neg (by exact ne_true_of_eq_false hgone)
    unfold Dev.fillWay
    rw [hways]
    simp [hempty, List.range_succ]
  have hbucket : d.bucket 0 (entKey e) < 8192 := Nat.mod_lt _ (by omega)
  have hne : stashBase + p ≠ wayPos 0 (d.bucket 0 (entKey e)) 0 := by
    unfold stashBase wayPos
    omega
  dsimp only
  rw [if_neg (by simp [hidle]), hm]
  simp only [List.map_cons, List.map_nil, List.filter_cons, Nat.le_add_right, decide_true, if_true, List.filter_nil, List.foldl_cons, List.foldl_nil, he, hfill]
  refine ⟨?_, ?_, rfl⟩
  · exact (mac_setMac _ _ _ _).trans ((if_neg hne).trans (hempty _))
  · exact (mac_setMac _ _ _ _).trans (if_pos rfl)

end

/-! Flushes (R161). -/

section
variable {d : Dev} {f : ChartFlush}

theorem takes_nothing (self : Nat) : f.takes self 0 = false := by
  have h0 : entType 0 = 0 := rfl
  simp [ChartFlush.takes, h0]

/-- An entry that a sweep takes leaves, and the other members are told. -/
def Dev.sweepEntry (d : Dev) (x : Nat × Nat) : Dev := if entType x.2 = 1 then (d.chartRemove x.1).tellRemoval (entKey x.2) else d.chartRemove x.1

theorem sweepEntry_mac (d : Dev) (x : Nat × Nat) (k : Nat) : (d.sweepEntry x).mac k = if k = x.1 then 0 else d.mac k := by
  have htold : ∀ e : Dev, ∀ o, (e.tellStack o).chart = e.chart := fun e o => by
    unfold Dev.tellStack
    split
    · refine foldl_leaves Dev.chart _ (fun e k => ?_) _ _
      split
      · exact (congrArg Dev.chart (sent_sendLink e _ _).rest :)
      · rfl
    · rfl
  unfold Dev.sweepEntry
  split
  · exact (congrArg (fun c : ChartSt => tget (fun _ => 0) c.mac k) (htold _ _)).trans (mac_setMac _ _ _ _)
  · exact mac_setMac _ _ _ _

theorem sweepEntries_mac (l : List (Nat × Nat)) (d : Dev) (k : Nat) : (l.foldl Dev.sweepEntry d).mac k = if ∃ x ∈ l, x.1 = k then 0 else d.mac k := by
  induction l generalizing d with
  | nil => simp
  | cons x l ih =>
    rw [List.foldl_cons, ih, sweepEntry_mac]
    by_cases hl : ∃ y ∈ l, y.1 = k
    · rw [if_pos hl, if_pos]
      obtain ⟨y, hy, hk⟩ := hl
      exact ⟨y, List.mem_cons_of_mem _ hy, hk⟩
    · rw [if_neg hl]
      by_cases hx : k = x.1
      · rw [if_pos hx, if_pos ⟨x, List.mem_cons_self, hx.symm⟩]
      · rw [if_neg hx, if_neg]
        rintro ⟨y, hy, hk⟩
        rcases List.mem_cons.1 hy with rfl | hy'
        · exact hx hk.symm
        · exact hl ⟨y, hy', hk⟩

/-- The entries that a sweep up to a bucket takes. -/
def Dev.swept (d : Dev) (f : ChartFlush) (hi : Nat) : List (Nat × Nat) :=
  d.chart.mac.filter (fun x => f.takes d.stackId x.2 && decide (f.pos ≤ scanBucket x.1) && decide (scanBucket x.1 < hi))

theorem sweepTo_eq (hf : d.chart.flushes = [f]) (hi : Nat) :
    d.sweepTo hi = ((d.swept f hi).foldl Dev.sweepEntry d).chartUpd fun x => { x with flushes := [{ f with pos := max f.pos hi, gone := f.gone + (d.swept f hi).length }] } := by
  unfold Dev.sweepTo
  rw [hf]
  rfl

theorem mem_swept (hsort : (d.chart.mac.map (·.1)).Pairwise (· < ·)) (hi p : Nat) :
    (∃ x ∈ d.swept f hi, x.1 = p) ↔ f.takes d.stackId (d.mac p) = true ∧ f.pos ≤ scanBucket p ∧ scanBucket p < hi := by
  unfold Dev.swept
  constructor
  · rintro ⟨x, hx, rfl⟩
    obtain ⟨hmem, htake⟩ := List.mem_filter.1 hx
    have hmac : d.mac x.1 = x.2 := tget_of_mem hsort hmem
    rw [hmac]
    simpa [and_assoc] using htake
  · rintro ⟨htake, hlo, hhi⟩
    rcases tget_mem_or (f := fun _ => 0) d.chart.mac p with hmem | hzero
    · exact ⟨_, List.mem_filter.2 ⟨hmem, by simpa [and_assoc] using ⟨htake, hlo, hhi⟩⟩, rfl⟩
    · have hmac : d.mac p = 0 := hzero
      rw [hmac, takes_nothing] at htake
      exact absurd htake Bool.false_ne_true

theorem sweepTo_mac (hf : d.chart.flushes = [f]) (hsort : (d.chart.mac.map (·.1)).Pairwise (· < ·)) (hi p : Nat) :
    (d.sweepTo hi).mac p = if f.takes d.stackId (d.mac p) = true ∧ f.pos ≤ scanBucket p ∧ scanBucket p < hi then 0 else d.mac p := by
  rw [sweepTo_eq hf]
  exact (sweepEntries_mac _ d p).trans (if_congr (mem_swept hsort hi p) rfl rfl)

end

/-- The count of a written flush is left for software. -/
def Dev.flushCounted (d : Dev) (f : ChartFlush) : Dev := if f.holdDown then d else d.set 0x3070 0x03 f.gone

/-- The writes that wait are taken once no flush is left, and the write in service may be answered. -/
def Dev.heldTaken (d : Dev) : Dev :=
  (if d.chart.flushes.isEmpty then d.chart.held.foldl Dev.takeHeld (d.chartUpd fun x => { x with held := [] }) else d).finishIfReady

theorem heldTaken_nothing {d : Dev} (hf : d.chart.flushes = []) (hheld : d.chart.held = []) (hw : d.alm.waiting = false) (hdue : d.alm.answerDue = false) :
    d.heldTaken = d.chartUpd fun x => { x with held := [] } := by
  unfold Dev.heldTaken
  rw [if_pos (by simp [hf]), hheld]
  exact finishIfReady_idle hw hdue

section
variable {s : State} {t : Nat} {d : Dev} (h : s.Tick t d)
include h

theorem flushComplete_none (b : Bool) (hf : d.chart.flushes = []) : Becomes (.chartFlushComplete t b) s d := by
  refine becomes h (by unfold exec; rfl) rfl ?_
  rw [hf]

theorem flushComplete_waits {f : ChartFlush} {l : List ChartFlush} {b : Bool} (hf : d.chart.flushes = f :: l) (hw : f.byFid ≠ b ∨ f.pos < 16385) :
    Becomes (.chartFlushComplete t b) s d := by
  refine becomes h (by unfold exec; rfl) rfl ?_
  rw [hf]
  exact if_pos hw

theorem flushComplete_ends {f : ChartFlush} (hf : d.chart.flushes = [f]) (hpos : 16385 ≤ f.pos) (hheld : d.chart.held = []) (hw : d.alm.waiting = false) (hdue : d.alm.answerDue = false) :
    Completes (.chartFlushComplete t f.byFid) s fun x => x.chart.flushes = [] ∧ x.chart.mac = d.chart.mac ∧
      (f.holdDown = false → x.obj 0x3070 0x03 = f.gone) ∧ (f.holdDown = true → x.obj 0x3070 0x03 = d.obj 0x3070 0x03) := by
  have hdrop : (d.chartUpd fun x => { x with flushes := match x.flushes.drop 1 with | g :: l => { g with at_ := d.now } :: l | [] => [] }) =
      d.chartUpd fun x => { x with flushes := [] } := by simp [Dev.chartUpd, hf]
  have hx : Becomes (.chartFlushComplete t f.byFid) s (((d.chartUpd fun x => { x with flushes := [] }).flushCounted f).chartUpd fun x => { x with held := [] }) := by
    refine becomes h (by unfold exec; rfl) rfl ?_
    rw [hf]
    dsimp only
    rw [if_neg (by simp; omega)]
    refine (congrArg (fun y : Dev => (y.flushCounted f).heldTaken) hdrop).trans (heldTaken_nothing ?_ ?_ ?_ ?_) <;> unfold Dev.flushCounted <;> split
    · rfl
    · rfl
    · exact hheld
    · exact hheld
    · exact hw
    · exact hw
    · exact hdue
    · exact hdue
  unfold Dev.flushCounted at hx
  refine hx.completes ?_
  cases f.holdDown
  · exact ⟨rfl, rfl, fun _ => obj_set_same _ _ _ _ _ _, fun hn => absurd hn Bool.false_ne_true⟩
  · exact ⟨rfl, rfl, fun hn => absurd hn.symm Bool.false_ne_true, fun _ => rfl⟩

end

/-! Writes of the Chart. -/

section
variable {s : State} {t : Nat} {d : Dev} {q : Request} {o : ObjRow} (h : s.Tick t d)
include h

theorem chartFlushByPort_begins (hw : d.takesWrite q o .chartFlushByPort 0 = true) (hi : recIndex q.bytes = 0x3070) (hj : recSub q.bytes = 0x01) :
    Completes (.chartFlushByPort t) s (d.Wrote q o fun y => y.chartFlush false q.value false) := by
  refine wrote h hw (by unfold exec; rfl) _ _ hi hj (by omega) (by omega) (by omega) (by omega) ?_
  simp [Dev.apply, Dev.chartApply, engineWrite, Dev.chartPut]

theorem chartFlushByFid_begins (hw : d.takesWrite q o .chartFlushByFid 0 = true) (hi : recIndex q.bytes = 0x3070) (hj : recSub q.bytes = 0x02) :
    Completes (.chartFlushByFid t) s (d.Wrote q o fun y => y.chartFlush true q.value false) := by
  refine wrote h hw (by unfold exec; rfl) _ _ hi hj (by omega) (by omega) (by omega) (by omega) ?_
  simp [Dev.apply, Dev.chartApply, engineWrite, Dev.chartPut]

theorem ruleEnable_writes (hw : d.takesWrite q o .ruleEnable 0 = true) (hi : recIndex q.bytes = 0x3040) (hj : recSub q.bytes = 0x01) :
    Completes (.ruleEnable t) s (d.Wrote q o fun y => y.set 0x3040 0x01 q.value 0 q.record) := by
  refine wrote h hw (by unfold exec; rfl) _ _ hi hj (by omega) (by omega) (by omega) (by omega) ?_
  simp [Dev.apply, Dev.chartApply, engineWrite, Dev.chartPut]

section
variable (hw : d.takesWrite q o .learningEnable 0 = true) (hi : recIndex q.bytes = 0x3004) (hj : recSub q.bytes = 0x01)
include hw hi hj

theorem learningEnable_stops (hv : q.value = 0) : Completes (.learningEnable t) s (d.Wrote q o fun y => (y.chartUpd fun x => { x with queue := [] }).set 0x3004 0x01 0) := by
  refine wrote h hw (by unfold exec; rfl) _ _ hi hj (by omega) (by omega) (by omega) (by omega) ?_
  simp [Dev.apply, Dev.chartApply, engineWrite, Dev.chartPut, hv]

theorem learningEnable_starts (hv : q.value = 1) : Completes (.learningEnable t) s (d.Wrote q o fun y => y.set 0x3004 0x01 1) := by
  refine wrote h hw (by unfold exec; rfl) _ _ hi hj (by omega) (by omega) (by omega) (by omega) ?_
  simp [Dev.apply, Dev.chartApply, engineWrite, Dev.chartPut, hv]

end

/-- An entry whose lock ends. -/
def unlocked (e : Nat) : Nat := if entLock e then setField (setField e 100 100 0) 84 77 0 else e

theorem unlockAll_unlocks (hw : d.takesWrite q o .unlockAll 0 = true) (hi : recIndex q.bytes = 0x3005) (hj : recSub q.bytes = 0x07) (hv : q.value = 1) :
    Completes (.unlockAll t) s fun x => (∀ p : Nat, x.mac p = if entLock (d.mac p) then setField (setField (d.mac p) 100 100 0) 84 77 0 else d.mac p) ∧ x.chart.queue = d.chart.queue := by
  have happly : (d.writeBase q o).apply 0x3005 0x07 0 q.record q.value = (d.writeBase q o).chartUpd fun y => { y with mac := d.chart.mac.map fun x => (x.1, unlocked x.2) } := by
    have hmap : (fun x : Nat × Nat => if entLock x.2 = true then (x.1, setField (setField x.2 100 100 0) 84 77 0) else x) = fun x => (x.1, unlocked x.2) := by
      funext x
      unfold unlocked
      split <;> rfl
    simp [Dev.apply, Dev.chartApply, engineWrite, Dev.chartPut, hv, hmap]
  refine completes_taken h hw (by unfold exec; rfl) _ _ hi hj (by omega) (by omega) ?_
  rw [happly]
  have hkept : (Dev.tryFinish ((d.writeBase q o).chartUpd fun y => { y with mac := d.chart.mac.map fun x => (x.1, unlocked x.2) }) q).chart =
      { d.chart with mac := d.chart.mac.map fun x => (x.1, unlocked x.2) } :=
    ((congrArg Dev.chart (tryFinish_beyond _ q (by omega) (by omega)) :)).trans (congrArg (fun c : ChartSt => { c with mac := d.chart.mac.map fun x : Nat × Nat => (x.1, unlocked x.2) }) (writeBase_chart d q o))
  unfold Dev.mac
  rw [hkept]
  exact ⟨fun p => tget_map unlocked d.chart.mac p rfl, rfl⟩

section
variable (hf : d.chart.flushes = [])
include hf

theorem staticEntry_inserts (hw : d.takesWrite q o .staticEntryEnable 0 = true) (hi : recIndex q.bytes = 0x3050) (hj : recSub q.bytes = 0x01) (hv : q.value = 1)
    (hoff : d.flag 0x3050 0x01 0 q.record = false) :
    Completes (.staticEntryEnable t) s (d.Wrote q o fun y => (y.chartInsert (d.staticEntry q.record)).1.set 0x3050 0x01 1 0 q.record) := by
  have hentry : (d.writeBase q o).staticEntry q.record = d.staticEntry q.record := by
    have hobj : ∀ j, j < 256 → (d.writeBase q o).obj 0x3050 j 0 q.record = d.obj 0x3050 j 0 q.record :=
      fun j hj => writeBase_obj _ _ _ _ _ _ _ (by omega) hj (by omega) (by omega) rfl
    unfold Dev.staticEntry Dev.ltSec Dev.lt
    rw [hobj _ (by omega), hobj _ (by omega), hobj _ (by omega), hobj _ (by omega), writeBase_now, writeBase_ltEpoch]
  refine wrote h hw (by unfold exec; rfl) _ _ hi hj (by omega) (by omega) (by omega) (by omega) ?_
  have hflag : (d.writeBase q o).flag 0x3050 0x01 0 q.record = false := by
    rw [writeBase_flag _ _ _ _ _ _ _ (by omega) (by omega) (by omega) (by omega) rfl, hoff]
  simp [Dev.apply, Dev.chartApply, engineWrite, Dev.chartPut, hv, hf, hflag, hentry]

theorem seedWrite_reseeds (hw : d.takesWrite q o .seedWrite 0 = true) (hi : recIndex q.bytes = 0x3001) :
    Completes (.seedWrite t) s (d.Wrote q o fun y => ((y.set 0x3001 (recSub q.bytes) q.value).chartUpd fun x => { x with mac := [] }).reinsertStatics) := by
  refine wrote h hw (by unfold exec; rfl) _ _ hi rfl (by omega) (by omega) (by omega) (by omega) ?_
  simp [Dev.apply, Dev.chartApply, engineWrite, Dev.chartPut, hf]

end

section
variable (hf : d.chart.flushes ≠ [])
include hf

theorem staticEntry_waits (hw : d.takesWrite q o .staticEntryEnable 0 = true) (hi : recIndex q.bytes = 0x3050) (hj : recSub q.bytes = 0x01) :
    Completes (.staticEntryEnable t) s
      (d.Wrote q o fun y => y.chartUpd fun x => { x with held := x.held ++ [{ idx := 0x3050, sub := 0x01, record := q.record, value := q.value }] }) := by
  refine wrote h hw (by unfold exec; rfl) _ _ hi hj (by omega) (by omega) (by omega) (by omega) ?_
  simp [Dev.apply, Dev.chartApply, engineWrite, hf]

theorem seedWrite_waits (hw : d.takesWrite q o .seedWrite 0 = true) (hi : recIndex q.bytes = 0x3001) :
    Completes (.seedWrite t) s
      (d.Wrote q o fun y => y.chartUpd fun x => { x with held := x.held ++ [{ idx := 0x3001, sub := recSub q.bytes, record := q.record, value := q.value }] }) := by
  refine wrote h hw (by unfold exec; rfl) _ _ hi rfl (by omega) (by omega) (by omega) (by omega) ?_
  simp [Dev.apply, Dev.chartApply, engineWrite, hf]

end

end

/-- Settles O30: the scan and the sweep by what they take of the table; the writes by the object they name. -/
theorem chartFlushesAndWrites : Obligations.ChartFlushesAndWrites := by
  unfold Obligations.ChartFlushesAndWrites
  refine ⟨fun s t d h => ⟨fun p e n ha hf hq hm _ hn hlo hhi hlock hmode => ⟨?_, ?_⟩, fun n => ageing_waits h, fun p e hq hf hm _ => stash_drains h hq hf hm, stash_busy h,
    fun f hf => ⟨fun hpos => flushComplete_waits h hf (.inr hpos), flushComplete_ends h hf, fun hsort hi => ⟨sweepTo_mac hf hsort hi, ?_⟩⟩,
    fun b => flushComplete_none h b, fun f l b hf hb => flushComplete_waits h hf (.inl hb)⟩, fun s t d q o h => ?_⟩
  · exact ageing_removes h ha hf hq hm hn hlo hhi hmode
  · exact ageing_keeps h ha hf hq hm hn hlo hhi hlock
  · rw [sweepTo_eq hf]
    rfl
  · exact ⟨chartFlushByPort_begins h, chartFlushByFid_begins h, unlockAll_unlocks h, fun hf => ⟨staticEntry_inserts h hf, seedWrite_reseeds h hf⟩,
      fun hf => ⟨staticEntry_waits h hf, seedWrite_waits h hf⟩, ruleEnable_writes h, fun hw hi hj => ⟨learningEnable_stops h hw hi hj, learningEnable_starts h hw hi hj⟩⟩

end Sys2Proof.Machine

/-! SUPPORT. Policers, histograms and the queue sampler (R199, R215, R219 to R221), and O31. -/
namespace Sys2Proof.Machine

/-! Histograms that are cleared (R221). -/

section
variable (d : Dev)

/-- The histograms of a leaf start again. -/
def Dev.leafCleared (d : Dev) (l : Nat) : Dev := (List.range 6).foldl (fun d k => d.set 0x5080 (k + 1) 0 0 l) d

theorem leafCleared_obj {k l' : Nat} (l : Nat) (h1 : 1 ≤ k) (h6 : k ≤ 6) : (d.leafCleared l).obj 0x5080 k 0 l' = if l' = l then 0 else d.obj 0x5080 k 0 l' := by
  have hset : ∀ (ks : List Nat) (d : Dev), (∀ j ∈ ks, j < 6) →
      (ks.foldl (fun d k => d.set 0x5080 (k + 1) 0 0 l) d).obj 0x5080 k 0 l' = if l' = l ∧ k - 1 ∈ ks then 0 else d.obj 0x5080 k 0 l' := fun ks => by
    induction ks with
    | nil => simp
    | cons j ks ih =>
      intro d hj
      have hj6 := hj j List.mem_cons_self
      rw [List.foldl_cons, ih _ (fun i hi => hj i (List.mem_cons_of_mem _ hi))]
      by_cases hl : l' = l
      · subst hl
        by_cases hkj : k = j + 1
        · subst hkj
          simp
        · rw [obj_set_field _ (by omega) (by omega) (by omega) (by omega) (by omega)]
          have hne : ¬ k - 1 = j := by omega
          simp [hne]
      · by_cases hkj : k = j + 1
        · subst hkj
          rw [obj_set_place _ (by omega) (by omega) (by omega)]
          simp [hl]
        · rw [obj_set_field _ (by omega) (by omega) (by omega) (by omega) (by omega)]
          simp [hl]
  unfold Dev.leafCleared
  rw [hset _ _ (fun j hj => List.mem_range.1 hj)]
  have hmem : k - 1 ∈ List.range 6 := List.mem_range.2 (by omega)
  simp [hmem]

theorem leavesCleared_obj {k l : Nat} (h1 : 1 ≤ k) (h6 : k ≤ 6) (ls : List Nat) : (ls.foldl Dev.leafCleared d).obj 0x5080 k 0 l = if l ∈ ls then 0 else d.obj 0x5080 k 0 l := by
  induction ls generalizing d with
  | nil => simp
  | cons j ls ih =>
    rw [List.foldl_cons, ih, leafCleared_obj _ _ h1 h6]
    by_cases hl : l ∈ ls <;> by_cases hj : l = j <;> simp [hl, hj]

/-- A leaf of which nothing is held reads as its default. -/
theorem obj_of_unobserved {k l : Nat} (hk : k < 256) (h : l ∉ d.observed) : d.obj 0x5080 k 0 l = objDefault (objKey 0x5080 k 0 l) := by
  rcases tget_mem_or (f := objDefault) d.store (objKey 0x5080 k 0 l) with hmem | hdefault
  · have hindex : objKey 0x5080 k 0 l / 256 % 65536 = 0x5080 := by unfold objKey; omega
    have hrecord : objKey 0x5080 k 0 l / 2 ^ 32 = l := by unfold objKey; omega
    refine absurd (List.mem_eraseDups.2 (List.mem_filterMap.2 ⟨_, hmem, ?_⟩)) h
    dsimp only
    rw [if_pos hindex, hrecord]
  · exact hdefault

end

section
variable {s : State} {t : Nat} {d : Dev} {q : Request} {o : ObjRow} (h : s.Tick t d)
include h

theorem portNodeEnable_writes (hw : d.takesWrite q o .portNodeEnable 0 = true) (hi : recIndex q.bytes = 0x5010) (hj : recSub q.bytes = 0x01) :
    Completes (.portNodeEnable t) s (d.Wrote q o fun y => y.set 0x5010 0x01 q.value 0 q.record) := by
  refine wrote h hw (by unfold exec; rfl) _ _ hi hj (by omega) (by omega) (by omega) (by omega) ?_
  simp [Dev.apply, Dev.shapeApply, shapeNode]

section
variable (hw : d.takesWrite q o .policerMode 0 = true) (hi : recIndex q.bytes = 0x5040) (hj : recSub q.bytes = 0x01)
include hw hi hj

/-- A policer's mode is set, and its buckets, which an answer leaves alone. -/
theorem policerMode_completes {b : Option Bucket} {y : Dev} (hb : tget (fun _ => none) y.shape.buckets q.record = b) (hv : y.obj 0x5040 0x01 0 q.record = q.value)
    (hx : (d.writeBase q o).apply 0x5040 0x01 0 q.record q.value = y) :
    Completes (.policerMode t) s fun x => x.obj 0x5040 0x01 0 q.record = q.value ∧ tget (fun _ => none) x.shape.buckets q.record = b := by
  refine completes_taken h hw (by unfold exec; rfl) _ _ hi hj (by omega) (by omega) ?_
  rw [hx]
  have hshape : (y.tryFinish q).shape = y.shape := (congrArg Dev.shape (tryFinish_beyond y q (by omega) (by omega)) :)
  refine ⟨?_, hshape ▸ hb⟩
  rw [tryFinish_kept y (fun x => x.obj 0x5040 0x01 0 q.record) q (by omega) (by omega) fun x => reply_served_obj x q 0 _ (by omega) (by omega) (by omega) (by omega) rfl, hv]

theorem policerMode_off (hv : q.value = 0) :
    Completes (.policerMode t) s fun x => x.obj 0x5040 0x01 0 q.record = 0 ∧ tget (fun _ => none) x.shape.buckets q.record = none := by
  have hmode := policerMode_completes (b := none) h hw hi hj (y := (((d.writeBase q o).setBucket q.record none).set 0x5040 0x01 q.value 0 q.record).setBucket q.record none)
    (tget_tput_same _ _ _ _) (obj_set_same ((d.writeBase q o).setBucket q.record none) _ _ _ _ _) (by simp [Dev.apply, Dev.shapeApply, hv])
  rwa [hv] at hmode

theorem policerMode_on (hv : q.value ≠ 0) : Completes (.policerMode t) s fun x => x.obj 0x5040 0x01 0 q.record = q.value ∧
    tget (fun _ => none) x.shape.buckets q.record = some { tc := d.polParam q.record 0x04 * bytePart, te := d.polParam q.record 0x06 * bytePart, at_ := d.now } := by
  have hbucket : (((d.writeBase q o).setBucket q.record none).set 0x5040 0x01 q.value 0 q.record).polBucket q.record =
      { tc := d.polParam q.record 0x04 * bytePart, te := d.polParam q.record 0x06 * bytePart, at_ := d.now } := by
    have hparam : ∀ j, j < 256 → j ≠ 0x01 → (((d.writeBase q o).setBucket q.record none).set 0x5040 0x01 q.value 0 q.record).polParam q.record j = d.polParam q.record j := fun j hj h1 => by
      have hset : (((d.writeBase q o).setBucket q.record none).set 0x5040 0x01 q.value 0 q.record).obj 0x5040 j 0 q.record = (d.writeBase q o).obj 0x5040 j 0 q.record :=
        obj_set_field ((d.writeBase q o).setBucket q.record none) (by omega) (by omega) hj (by omega) (by omega)
      unfold Dev.polParam
      rw [hset, writeBase_obj _ _ _ _ _ _ _ (by omega) hj (by omega) (by omega) rfl]
    have hnone : tget (fun _ => none) (((d.writeBase q o).setBucket q.record none).set 0x5040 0x01 q.value 0 q.record).shape.buckets q.record = none := tget_tput_same _ _ _ _
    unfold Dev.polBucket
    rw [hnone, hparam _ (by omega) (by omega), hparam _ (by omega) (by omega)]
    simp only [Dev.set_now]
    rw [show ((d.writeBase q o).setBucket q.record none).now = (d.writeBase q o).now from rfl, writeBase_now]
  refine policerMode_completes h hw hi hj
    (y := (((d.writeBase q o).setBucket q.record none).set 0x5040 0x01 q.value 0 q.record).setBucket q.record
      (some { tc := d.polParam q.record 0x04 * bytePart, te := d.polParam q.record 0x06 * bytePart, at_ := d.now })) ?_ ?_ ?_
  · exact tget_tput_same _ _ _ _
  · exact obj_set_same ((d.writeBase q o).setBucket q.record none) _ _ _ _ _
  · simp [Dev.apply, Dev.shapeApply, hv, hbucket]

end

theorem histogramClear_clears (hw : d.takesWrite q o .histogramClear 0 = true) (hi : recIndex q.bytes = 0x5070) (hj : recSub q.bytes = 0x03) (hv : q.value = 1) :
    Completes (.histogramClear t) s fun x => ∀ l k : Nat, l < 4096 → 1 ≤ k → k ≤ 6 → objDefault (objKey 0x5080 k 0 l) = 0 → x.obj 0x5080 k 0 l = 0 := by
  have happly : (d.writeBase q o).apply 0x5070 0x03 0 q.record q.value = (d.writeBase q o).observed.foldl Dev.leafCleared (d.writeBase q o) := by
    simp only [Dev.apply, Dev.shapeApply, hv]
    rfl
  refine completes_taken h hw (by unfold exec; rfl) _ _ hi hj (by omega) (by omega) ?_
  intro l k _ h1 h6 hzero
  rw [happly, tryFinish_kept _ (fun x => x.obj 0x5080 k 0 l) q (by omega) (by omega) fun x => reply_served_obj x q 0 _ (by omega) (by omega) (by omega) (by omega) rfl,
    leavesCleared_obj _ h1 h6]
  split
  · rfl
  · next hno => exact (obj_of_unobserved _ (by omega) hno).trans hzero

/-! The sampler (R219, R220). -/

section
variable {leaf : Nat} (hleaf : leaf < 4096)
include hleaf

omit h in
theorem sampler_wf : (decide (leaf / 8 < 512) && decide (leaf % 8 < 8)) = true := by
  rw [decide_eq_true (by omega), decide_eq_true (by omega)]
  rfl

theorem sampler_idle (hn : d.flag 0x5070 0x01 = false ∨ d.visitDue leaf = none) : Becomes (.samplerVisit t (leaf / 8) (leaf % 8)) s d := by
  refine becomes h (by unfold exec; rfl) (sampler_wf hleaf) ?_
  dsimp only
  rw [Nat.div_add_mod' leaf 8]
  rcases hn with hoff | hnone
  · exact if_pos (by simp [hoff])
  · rw [hnone]
    exact ite_self _

section
variable {k : Nat} {late : Bool} (hon : d.flag 0x5070 0x01 = true) (hdue : d.visitDue leaf = some (k, late))
include hon hdue

/-- The visit is made: from now on the leaf waits for the next period. -/
def Dev.visitedAt (d : Dev) (leaf : Nat) : Dev := { d with shape := { d.shape with visited := tput (fun _ => 0) d.shape.visited leaf (d.lt + 1) } }

theorem sampler_off {y : Dev} (hy : y = d.visitedAt leaf) (hsub : d.flag 0x5020 0x01 0 (leaf / 8) = false) :
    Becomes (.samplerVisit t (leaf / 8) (leaf % 8)) s (if leaf = 4095 then y.inc64 0x5070 0x04 else y) := by
  subst hy
  have hflag : ∀ e : Dev, e = d.visitedAt leaf ∨ e = (d.visitedAt leaf).inc64 0x5070 0x04 → e.flag 0x5020 0x01 0 (leaf / 8) = false := fun e he => by
    rcases he with rfl | rfl
    · exact hsub
    · unfold Dev.flag
      rw [obj_inc64_field _ (by omega) (by omega) (by omega) (by omega) (by omega)]
      exact hsub
  refine becomes h (by unfold exec; rfl) (sampler_wf hleaf) ?_
  dsimp only
  rw [Nat.div_add_mod' leaf 8, if_neg (by simp [hon]), hdue]
  refine if_pos ?_
  rw [Bool.not_eq_true]
  refine hflag _ ?_
  split
  · exact .inr rfl
  · exact .inl rfl

/-- The device at a visit of an enabled subscriber's leaf, before it is measured. -/
def Dev.visitCounted (d : Dev) (leaf : Nat) (late : Bool) : Dev :=
  let d := if leaf = 4095 then (d.visitedAt leaf).inc64 0x5070 0x04 else d.visitedAt leaf
  if late then d.inc 0x5070 0x05 else d

/-- What a visit measures. -/
def Dev.leafMeasured (d : Dev) (leaf : Nat) : Dev :=
  let depth := d.leafDepth leaf
  let d := d.set 0x5080 0x01 (binUp (d.obj 0x5080 0x01 0 leaf) (depthBin depth)) 0 leaf
  let d := if d.obj 0x5080 0x03 0 leaf < depth then (d.set 0x5080 0x03 depth 0 leaf).set 0x5080 0x04 d.ltTime 0 leaf else d
  match (d.leafWaiting leaf).head? with
  | some f =>
    if depth = 0 then d
    else
      let delay := (d.lt - f.stamp) * 4 / 5
      let d := d.set 0x5080 0x02 (binUp (d.obj 0x5080 0x02 0 leaf) (delayBin (d.obj 0x5070 0x41) delay)) 0 leaf
      if d.obj 0x5080 0x05 0 leaf < delay then (d.set 0x5080 0x05 (min delay (2 ^ 32 - 1)) 0 leaf).set 0x5080 0x06 d.ltTime 0 leaf else d
  | none => d

theorem sampler_measures (hsub : d.flag 0x5020 0x01 0 (leaf / 8) = true) : Becomes (.samplerVisit t (leaf / 8) (leaf % 8)) s ((d.visitCounted leaf late).leafMeasured leaf) := by
  refine becomes h (by unfold exec; rfl) (sampler_wf hleaf) ?_
  dsimp only
  rw [Nat.div_add_mod' leaf 8, if_neg (by simp [hon]), hdue]
  refine if_neg ?_
  rw [not_not]
  unfold Dev.flag
  split
  · exact (congrArg (· != 0) (obj_inc64_field (d.visitedAt leaf) (by omega) (by omega) (by omega) (by omega) (by omega))).trans hsub
  · exact hsub

end

end

end

section
variable {d : Dev} {leaf : Nat} {late : Bool}

theorem visitCounted_obj {i j : Nat} (u r : Nat) (hi : i < 65536) (hj : j < 256) (h : ¬ (i = 0x5070 ∧ (j = 0x04 ∨ j = 0x05))) :
    (d.visitCounted leaf late).obj i j u r = d.obj i j u r := by
  have h4 : (if leaf = 4095 then (d.visitedAt leaf).inc64 0x5070 0x04 else d.visitedAt leaf).obj i j u r = d.obj i j u r := by
    split
    · exact obj_inc64_field (d.visitedAt leaf) (by omega) (by omega) hj hi (by omega)
    · rfl
  unfold Dev.visitCounted
  dsimp only
  split
  · rw [obj_inc_field _ (by omega) (by omega) hj hi (by omega), h4]
  · exact h4

theorem visitCounted_late : (d.visitCounted leaf late).obj 0x5070 0x05 = if late = true then (d.obj 0x5070 0x05 + 1) % 2 ^ 32 else d.obj 0x5070 0x05 := by
  have h5 : (if leaf = 4095 then (d.visitedAt leaf).inc64 0x5070 0x04 else d.visitedAt leaf).obj 0x5070 0x05 = d.obj 0x5070 0x05 := by
    split
    · exact obj_inc64_field (d.visitedAt leaf) (by omega) (by omega) (by omega) (by omega) (by omega)
    · rfl
  unfold Dev.visitCounted
  dsimp only
  cases late
  · exact h5
  · simp only [if_true, obj_inc_same, h5]

theorem visitCounted_fab : (d.visitCounted leaf late).fab = d.fab := by
  unfold Dev.visitCounted
  dsimp only
  split <;> split <;> rfl

theorem visitCounted_lt : (d.visitCounted leaf late).lt = d.lt := by
  unfold Dev.visitCounted
  dsimp only
  split <;> split <;> rfl

theorem leafMeasured_empty (h : d.leafWaiting leaf = []) : d.leafMeasured leaf = d.set 0x5080 0x01 (binUp (d.obj 0x5080 0x01 0 leaf) 0) 0 leaf := by
  have hdepth : d.leafDepth leaf = 0 := by simp [Dev.leafDepth, h]
  have hwait : ∀ v, (d.set 0x5080 0x01 v 0 leaf).leafWaiting leaf = [] := fun v => h
  unfold Dev.leafMeasured
  dsimp only
  rw [hdepth, if_neg (Nat.not_lt_zero _), hwait]
  rfl

/-- The deepest that a leaf has been, with the time. -/
def Dev.deepest (d : Dev) (leaf depth : Nat) : Dev :=
  if d.obj 0x5080 0x03 0 leaf < depth then (d.set 0x5080 0x03 depth 0 leaf).set 0x5080 0x04 d.ltTime 0 leaf else d

/-- The longest that a frame of a leaf has waited, with the time. -/
def Dev.longest (d : Dev) (leaf delay : Nat) : Dev :=
  if d.obj 0x5080 0x05 0 leaf < delay then (d.set 0x5080 0x05 (min delay (2 ^ 32 - 1)) 0 leaf).set 0x5080 0x06 d.ltTime 0 leaf else d

theorem deepest_obj (depth : Nat) {i j : Nat} (u r : Nat) (hi : i < 65536) (hj : j < 256) (h : ¬ (i = 0x5080 ∧ (j = 0x03 ∨ j = 0x04))) : (d.deepest leaf depth).obj i j u r = d.obj i j u r := by
  unfold Dev.deepest
  split
  · rw [obj_set_field _ (by omega) (by omega) hj hi (by omega), obj_set_field _ (by omega) (by omega) hj hi (by omega)]
  · rfl

theorem deepest_max (depth : Nat) : (d.deepest leaf depth).obj 0x5080 0x03 0 leaf = max (d.obj 0x5080 0x03 0 leaf) depth := by
  unfold Dev.deepest
  split
  · rw [obj_set_field _ (by omega) (by omega) (by omega) (by omega) (by omega), obj_set_same]
    omega
  · omega

theorem longest_obj (delay : Nat) {i j : Nat} (u r : Nat) (hi : i < 65536) (hj : j < 256) (h : ¬ (i = 0x5080 ∧ (j = 0x05 ∨ j = 0x06))) : (d.longest leaf delay).obj i j u r = d.obj i j u r := by
  unfold Dev.longest
  split
  · rw [obj_set_field _ (by omega) (by omega) hj hi (by omega), obj_set_field _ (by omega) (by omega) hj hi (by omega)]
  · rfl

theorem deepest_fab (depth : Nat) : (d.deepest leaf depth).fab = d.fab := by unfold Dev.deepest; split <;> rfl
theorem deepest_lt (depth : Nat) : (d.deepest leaf depth).lt = d.lt := by unfold Dev.deepest; split <;> rfl
theorem longest_fab (delay : Nat) : (d.longest leaf delay).fab = d.fab := by unfold Dev.longest; split <;> rfl

theorem leafMeasured_waiting {f : Frame} {l : List Frame} (h : d.leafWaiting leaf = f :: l) (hdepth : d.leafDepth leaf ≠ 0) {e : Dev}
    (he : (d.set 0x5080 0x01 (binUp (d.obj 0x5080 0x01 0 leaf) (depthBin (d.leafDepth leaf))) 0 leaf).deepest leaf (d.leafDepth leaf) = e) :
    d.leafMeasured leaf =
      (e.set 0x5080 0x02 (binUp (e.obj 0x5080 0x02 0 leaf) (delayBin (e.obj 0x5070 0x41) ((e.lt - f.stamp) * 4 / 5))) 0 leaf).longest leaf ((e.lt - f.stamp) * 4 / 5) := by
  have hwait : e.leafWaiting leaf = f :: l := by
    unfold Dev.leafWaiting at h ⊢
    rw [← he, deepest_fab]
    exact h
  have hmeasured : d.leafMeasured leaf = match (e.leafWaiting leaf).head? with
      | some f => if d.leafDepth leaf = 0 then e
        else (e.set 0x5080 0x02 (binUp (e.obj 0x5080 0x02 0 leaf) (delayBin (e.obj 0x5070 0x41) ((e.lt - f.stamp) * 4 / 5))) 0 leaf).longest leaf ((e.lt - f.stamp) * 4 / 5)
      | none => e := by
    subst he
    rfl
  rw [hmeasured, hwait]
  exact if_neg hdepth

end

section
variable {d : Dev} {leaf : Nat} {late : Bool} {f : Frame} {l : List Frame}

theorem visitCounted_waiting : (d.visitCounted leaf late).leafWaiting leaf = d.leafWaiting leaf := by
  unfold Dev.leafWaiting
  rw [visitCounted_fab]

theorem visitCounted_depth : (d.visitCounted leaf late).leafDepth leaf = d.leafDepth leaf := by
  unfold Dev.leafDepth
  rw [visitCounted_waiting]

/-- What a visit of a leaf with frames leaves in its objects. -/
theorem leafMeasured_obj (hwait : d.leafWaiting leaf = f :: l) (hdepth : d.leafDepth leaf ≠ 0) :
    (d.leafMeasured leaf).obj 0x5070 0x05 = d.obj 0x5070 0x05 ∧
      (d.leafMeasured leaf).obj 0x5080 0x01 0 leaf = binUp (d.obj 0x5080 0x01 0 leaf) (depthBin (d.leafDepth leaf)) ∧
      (d.leafMeasured leaf).obj 0x5080 0x02 0 leaf = binUp (d.obj 0x5080 0x02 0 leaf) (delayBin (d.obj 0x5070 0x41) ((d.lt - f.stamp) * 4 / 5)) ∧
      (d.leafMeasured leaf).obj 0x5080 0x03 0 leaf = max (d.obj 0x5080 0x03 0 leaf) (d.leafDepth leaf) ∧ (d.leafMeasured leaf).fab = d.fab := by
  have hlt : ((d.set 0x5080 0x01 (binUp (d.obj 0x5080 0x01 0 leaf) (depthBin (d.leafDepth leaf))) 0 leaf).deepest leaf (d.leafDepth leaf)).lt = d.lt := deepest_lt _
  rw [leafMeasured_waiting hwait hdepth rfl, hlt]
  refine ⟨?_, ?_, ?_, ?_, ?_⟩
  · simp (disch := omega) only [longest_obj, obj_set_field, deepest_obj]
  · simp (disch := omega) only [longest_obj, obj_set_field, deepest_obj, obj_set_same]
  · simp (disch := omega) only [longest_obj, obj_set_field, deepest_obj, obj_set_same]
  · simp (disch := omega) only [longest_obj, obj_set_field, deepest_max]
  · rw [longest_fab]
    exact deepest_fab _

end

/-- Settles O31: a visit by what it counts and what it measures; the writes by their objects. -/
theorem shapingAndObservation : Obligations.ShapingAndObservation := by
  unfold Obligations.ShapingAndObservation
  intro s t d q o h
  refine ⟨portNodeEnable_writes h, fun hw hi hj => ⟨policerMode_off h hw hi hj, policerMode_on h hw hi hj⟩, histogramClear_clears h,
    fun leaf hleaf => ⟨sampler_idle h hleaf, fun k late hon hdue => ⟨sampler_off h hleaf hon hdue rfl, fun hsub h4095 hwait => ?_, fun f l hsub hwait hdepth => ?_⟩⟩⟩
  · have hcounted : d.visitCounted leaf late = if late = true then (d.visitedAt leaf).inc 0x5070 0x05 else d.visitedAt leaf := by
      unfold Dev.visitCounted
      rw [if_neg h4095]
    have hmeasured := sampler_measures h hleaf hon hdue hsub
    rw [leafMeasured_empty (by unfold Dev.leafWaiting; rw [visitCounted_fab]; exact hwait), visitCounted_obj _ _ (by omega) (by omega) (by omega), hcounted] at hmeasured
    exact hmeasured
  · refine (sampler_measures h hleaf hon hdue hsub).completes ?_
    obtain ⟨hlate, hbin, hdelay, hmax, hfab⟩ := leafMeasured_obj (d := d.visitCounted leaf late) (visitCounted_waiting.trans hwait) (visitCounted_depth.symm ▸ hdepth)
    refine ⟨hlate.trans visitCounted_late, hbin.trans ?_, hdelay.trans ?_, hmax.trans ?_, hfab.trans visitCounted_fab⟩
    · rw [visitCounted_obj _ _ (by omega) (by omega) (by omega), visitCounted_depth]
    · rw [visitCounted_obj _ _ (by omega) (by omega) (by omega), visitCounted_obj _ _ (by omega) (by omega) (by omega), visitCounted_lt]
    · rw [visitCounted_obj _ _ (by omega) (by omega) (by omega), visitCounted_depth]

end Sys2Proof.Machine

/-! SUPPORT. States of a CAN channel (R223, R229, R230, R233, R260), and O32. -/
namespace Sys2Proof.Machine

/-! Changes of state. -/

section
variable (d : Dev)

theorem freshRun_rose (u : Nat) (r : Bool) : { d.freshRun u r with rose := {} } = { d with rose := {} } := by
  unfold Dev.freshRun
  split
  · rfl
  · split
    · split <;> rfl
    · split <;> rfl

@[simp] theorem freshRun_obj (u : Nat) (r : Bool) (i j w k : Nat) : (d.freshRun u r).obj i j w k = d.obj i j w k :=
  (congrArg (fun x : Dev => x.obj i j w k) (freshRun_rose d u r) :)

@[simp] theorem setCanState_state (u v : Nat) : (d.setCanState u v).canState u = v := obj_set_same _ _ _ _ _ _

@[simp] theorem setCanState_chans (u v : Nat) : (d.setCanState u v).chans = d.chans := (congrArg Dev.chans (freshRun_rose d u _) :)

@[simp] theorem setCanState_now (u v : Nat) : (d.setCanState u v).now = d.now := (congrArg Dev.now (freshRun_rose d u _) :)

theorem setCanState_obj (u v : Nat) {i j : Nat} (w r : Nat) (hi : i < 65536) (hj : j < 256) (h : ¬ (i = 0x6010 ∧ j = 0x04)) : (d.setCanState u v).obj i j w r = d.obj i j w r := by
  unfold Dev.setCanState
  rw [obj_set_field _ (by omega) (by omega) hj hi h, freshRun_obj]

@[simp] theorem setChan_same (u : Nat) (x : ChanSt) : (d.setChan u x).chan u = x := tget_tput_same _ _ _ _

theorem setChan_ne {u w : Nat} (x : ChanSt) (h : w ≠ u) : (d.setChan u x).chan w = d.chan w := tget_tput_ne _ _ _ _ _ h

theorem canErrState_active {d : Dev} {u : Nat} (h : d.canState u = 2) (h5 : d.obj 0x6010 0x05 u ≤ 127) (h6 : d.obj 0x6010 0x06 u ≤ 127) : d.canErrState u = d := by
  have hlow : (decide (127 < d.obj 0x6010 0x05 u) || decide (127 < d.obj 0x6010 0x06 u)) = false := by simp [h5, h6]
  unfold Dev.canErrState
  simp only [hlow, h]

theorem canErrState_passive {d : Dev} {u : Nat} (h : d.canState u = 3) (h5 : 127 < d.obj 0x6010 0x05 u) : d.canErrState u = d := by
  have hhigh : (decide (127 < d.obj 0x6010 0x05 u) || decide (127 < d.obj 0x6010 0x06 u)) = true := by simp [h5]
  unfold Dev.canErrState
  simp only [hhigh, h]

end

/-! What an answer leaves of a channel that takes no load. -/

/-- A channel that takes no load keeps its buffers, and stays so. -/
structure Dev.Shut (u : Nat) (d e : Dev) : Prop where
  shut : e.canShut u = d.canShut u
  obj : d.canShut u = true → ∀ j r, j < 256 → e.obj 0x6020 j u r = d.obj 0x6020 j u r
  chan : d.canShut u = true → e.chan u = d.chan u

section
variable {u : Nat} (d : Dev)

theorem Dev.Shut.refl (u : Nat) (d : Dev) : d.Shut u d := ⟨rfl, fun _ _ _ _ => rfl, fun _ => rfl⟩

theorem Dev.Shut.trans {d e f : Dev} (h : d.Shut u e) (g : e.Shut u f) : d.Shut u f :=
  ⟨g.shut.trans h.shut, fun hs j r hj => (g.obj (h.shut.trans hs) j r hj).trans (h.obj hs j r hj), fun hs => (g.chan (h.shut.trans hs)).trans (h.chan hs)⟩

theorem shut_foldl {α : Type} (f : Dev → α → Dev) (h : ∀ (d : Dev) a, d.Shut u (f d a)) (l : List α) : d.Shut u (l.foldl f d) := by
  induction l generalizing d with
  | nil => exact Dev.Shut.refl u d
  | cons a l ih => exact (h d a).trans (ih _)

theorem canShut_eq {d e : Dev} (h4 : e.obj 0x6010 0x04 u = d.obj 0x6010 0x04 u) (hC : e.obj 0xA020 0x0C u = d.obj 0xA020 0x0C u) (hpow : e.pow = d.pow) : e.canShut u = d.canShut u := by
  unfold Dev.canShut Dev.canState Dev.goingToSleep Dev.unitPowered
  rw [h4, hC, hpow]

theorem Dev.Served.shut {d e : Dev} (h : d.Served e) (u : Nat) : d.Shut u e :=
  ⟨canShut_eq (h.obj _ _ _ _) (h.obj _ _ _ _) (congrArg Dev.pow h.rest :), fun _ _ _ _ => h.obj _ _ _ _,
    fun _ => (congrArg (fun x : Dev => x.chan u) h.rest :)⟩

theorem Dev.Sent.shut {d e : Dev} (h : d.Sent e) (u : Nat) : d.Shut u e :=
  ⟨canShut_eq (h.obj _ _ _ _ (by omega) (by omega) rfl) (h.obj _ _ _ _ (by omega) (by omega) rfl) (congrArg Dev.pow h.rest :), fun _ j r hj => h.obj _ _ _ _ (by omega) hj rfl,
    fun _ => (congrArg (fun x : Dev => x.chan u) h.rest :)⟩

/-- Content that is put into a buffer of one channel, and armed, leaves the others. -/
theorem load_other {w b : Nat} (f : CanFrame) (c : Option Nat) (hw : w < 256) (hu : u < 256) (h : u ≠ w) {j r : Nat} (hj : j < 256) :
    ((d.bufFill w b f c).bufArm w b false).obj 0x6020 j u r = d.obj 0x6020 j u r := by
  have hset : ∀ (e : Dev) (k v : Nat), k < 256 → (e.set 0x6020 k v w b).obj 0x6020 j u r = e.obj 0x6020 j u r := fun e k v hk => by
    by_cases hkj : j = k
    · subst hkj
      exact obj_set_place e hw hu fun hne => h hne.1
    · exact obj_set_field e hk (by omega) hj (by omega) fun hne => hkj hne.2
  have hfill : (d.bufFill w b f c).obj 0x6020 j u r = d.obj 0x6020 j u r := by
    unfold Dev.bufFill Dev.setBuf
    rw [Dev.setChan_obj, hset _ _ _ (by omega), hset _ _ _ (by omega), hset _ _ _ (by omega)]
  unfold Dev.bufArm
  split
  · rw [if_neg (by simp), hset _ _ _ (by omega), hfill]
  · rw [hset _ _ _ (by omega), hfill]

theorem bufArm_unfailed (u b : Nat) : (d.bufArm u b false).chans = d.chans := by
  unfold Dev.bufArm
  split
  · rw [if_neg (by simp)]
    rfl
  · rfl

theorem canPut_other (hu : u < 256) (x : Nat × Nat × Bytes) (hs : d.canShut u = true) :
    (∀ j r, j < 256 → (d.canPut x).obj 0x6020 j u r = d.obj 0x6020 j u r) ∧ (d.canPut x).chan u = d.chan u := by
  unfold Dev.canPut
  simp only
  split
  · exact ⟨fun _ _ _ => rfl, rfl⟩
  · next hopen =>
    have hne : u ≠ uC x.1 := fun he => hopen (.inr (he ▸ hs))
    have hw : uC x.1 < 256 := by unfold uC; omega
    split
    · exact ⟨fun _ _ _ => rfl, rfl⟩
    · split
      · exact ⟨fun _ _ _ => rfl, rfl⟩
      · exact ⟨fun j r hj => load_other _ _ _ hw hu hne hj, (congrArg (tget _ · u) (bufArm_unfailed _ _ _)).trans (setChan_ne _ _ hne)⟩

theorem shut_canPut (hu : u < 256) (x : Nat × Nat × Bytes) : d.Shut u (d.canPut x) := by
  have hanswered := answered_canPut d x
  exact ⟨canShut_eq (hanswered.obj _ _ _ _ (by omega) (by omega) (by omega) (by omega)) (hanswered.obj _ _ _ _ (by omega) (by omega) (by omega) (by omega))
    (congrArg Dev.pow hanswered.rest :), fun hs => (canPut_other d hu x hs).1, fun hs => (canPut_other d hu x hs).2⟩

theorem shut_canPump (hu : u < 256) : d.Shut u d.canPump := ((served_alm d _).shut u).trans (shut_foldl _ _ (fun d x => shut_canPut d hu x) _)

theorem shut_sendRecord (hu : u < 256) (o : Option Nat) (v : Service) (a : Source) (n : Bool) (b : Bytes) : d.Shut u (d.sendRecord o v a n b) := by
  unfold Dev.sendRecord
  split
  · exact (sent_sendTo d _ _).shut u
  · split
    · exact (served_replyPcie d b n).shut u
    · simp only
      split
      · exact ((served_alm d _).trans (served_signal _ 1)).shut u
      · exact (served_alm d _).shut u
    · exact ((served_alm d _).shut u).trans (shut_canPump _ hu)
    · split
      · next ad po => exact ((served_out d (.record .udp (.udp ad po) b)).shut u).trans ⟨rfl, fun _ _ _ _ => rfl, fun _ => rfl⟩
      · exact (served_out d _).shut u
    · exact (served_out d _).shut u

theorem shut_reply (hu : u < 256) (q : Request) (c : Nat) (b : Bytes) : d.Shut u (d.reply q c b) :=
  shut_foldl d _ (fun d _ => shut_sendRecord d hu _ _ _ _ _) _

theorem shut_finishIfReady (hu : u < 256) : d.Shut u d.finishIfReady := by
  have hfinish : ∀ c, d.Shut u (d.finish c) := fun c => by
    unfold Dev.finish
    split
    · exact (shut_reply d hu _ _ _).trans ((served_alm _ _).shut u)
    · exact Dev.Shut.refl u d
  have hanswer : ∀ e : Dev, e.Shut u ((e.answerLead 0 []).almUpd fun x => { x with answerDue := false }) := fun e =>
    ((sent_sendTo e _ _).shut u).trans ((served_alm _ _).shut u)
  have hdue : ∀ e : Dev, e.Shut u (if e.alm.answerDue && e.writeReady then (e.answerLead 0 []).almUpd fun x => { x with answerDue := false } else e) := fun e => by
    split
    · exact hanswer e
    · exact Dev.Shut.refl u e
  unfold Dev.finishIfReady
  split
  · exact Dev.Shut.refl u d
  · refine Dev.Shut.trans ?_ (hdue _)
    split
    · exact hfinish 0
    · exact Dev.Shut.refl u d

theorem finishIfReady_state (u : Nat) : d.finishIfReady.canState u = d.canState u := by
  have hdue : ∀ e : Dev, (if e.alm.answerDue && e.writeReady then (e.answerLead 0 []).almUpd fun x => { x with answerDue := false } else e).canState u = e.canState u := fun e => by
    split
    · exact (sent_sendTo e _ _).obj _ _ _ _ (by omega) (by omega) rfl
    · rfl
  unfold Dev.finishIfReady
  split
  · rfl
  · refine (hdue _).trans ?_
    split
    · exact finish_told_obj d _ _ _ _ (by omega) (by omega) (by omega) (by omega) rfl
    · rfl

end

/-! The end of a stop (R233). -/

section
variable (d : Dev) {u : Nat}

theorem bufEmpty_obj (b r : Nat) {i j : Nat} (w k : Nat) (hi : i < 65536) (hj : j < 256) (h : ¬ (i = 0x6020 ∧ (j = 0x04 ∨ j = 0x06 ∨ j = 0x0B))) :
    (d.bufEmpty u b r).obj i j w k = d.obj i j w k := by
  unfold Dev.bufEmpty Dev.setBuf
  rw [Dev.setChan_obj, obj_set_field _ (by omega) (by omega) hj hi (by omega), obj_set_field _ (by omega) (by omega) hj hi (by omega),
    obj_set_field _ (by omega) (by omega) hj hi (by omega), unlink_obj]

@[simp] theorem bufEmpty_state (b r : Nat) : (d.bufEmpty u b r).bufState u b = 0 := by
  unfold Dev.bufState Dev.bufEmpty Dev.setBuf
  rw [Dev.setChan_obj, obj_set_field _ (by omega) (by omega) (by omega) (by omega) (by omega), obj_set_field _ (by omega) (by omega) (by omega) (by omega) (by omega), obj_set_same]

@[simp] theorem bufEmpty_result (b r : Nat) : (d.bufEmpty u b r).obj 0x6020 0x06 u b = r := by
  unfold Dev.bufEmpty Dev.setBuf
  rw [Dev.setChan_obj, obj_set_field _ (by omega) (by omega) (by omega) (by omega) (by omega), obj_set_same]

/-- A buffer that becomes EMPTY leaves the objects of the others. -/
theorem bufEmpty_other {b c : Nat} (r j : Nat) (hu : u < 256) (hj : j < 256) (h : c ≠ b) : (d.bufEmpty u b r).obj 0x6020 j u c = d.obj 0x6020 j u c := by
  have hset : ∀ (e : Dev) (k v : Nat), k < 256 → (e.set 0x6020 k v u b).obj 0x6020 j u c = e.obj 0x6020 j u c := fun e k v hk => by
    by_cases hkj : j = k
    · subst hkj
      exact obj_set_place e hu hu fun hne => h hne.2
    · exact obj_set_field e hk (by omega) hj (by omega) fun hne => hkj hne.2
  unfold Dev.bufEmpty Dev.setBuf
  rw [Dev.setChan_obj, hset _ _ _ (by omega), hset _ _ _ (by omega), hset _ _ _ (by omega), unlink_obj]

/-- One buffer of a channel that is cleared. -/
def Dev.bufStopped (u : Nat) (d : Dev) (b : Nat) : Dev := if d.bufState u b = 0 then d else (d.bufEmpty u b 5).inc 0x6030 0x10 u

theorem bufStopped_other {b c : Nat} (j : Nat) (hu : u < 256) (hj : j < 256) (h : c ≠ b) : (d.bufStopped u b).obj 0x6020 j u c = d.obj 0x6020 j u c := by
  unfold Dev.bufStopped
  split
  · rfl
  · rw [obj_inc_field _ (by omega) (by omega) hj (by omega) (by omega), bufEmpty_other _ _ _ hu hj h]

theorem bufStopped_empty (b : Nat) : (d.bufStopped u b).bufState u b = 0 ∧ (d.bufState u b ≠ 0 → (d.bufStopped u b).obj 0x6020 0x06 u b = 5) := by
  unfold Dev.bufStopped
  split
  · next h0 => exact ⟨h0, fun h => absurd h0 h⟩
  · refine ⟨?_, fun _ => ?_⟩
    · exact (obj_inc_field _ (by omega) (by omega) (by omega) (by omega) (by omega)).trans (bufEmpty_state _ _ _)
    · rw [obj_inc_field _ (by omega) (by omega) (by omega) (by omega) (by omega), bufEmpty_result]

theorem foldl_bufStopped_other {c : Nat} (j : Nat) (hu : u < 256) (hj : j < 256) (l : List Nat) (h : c ∉ l) : (l.foldl (Dev.bufStopped u) d).obj 0x6020 j u c = d.obj 0x6020 j u c := by
  induction l generalizing d with
  | nil => rfl
  | cons b l ih =>
    rw [List.foldl_cons, ih _ (fun hc => h (List.mem_cons_of_mem _ hc)), bufStopped_other _ _ hu hj (fun hc : c = b => h (List.mem_cons.2 (.inl hc)))]

theorem foldl_bufStopped_empty {b : Nat} (hu : u < 256) {l : List Nat} (hl : l.Nodup) (hb : b ∈ l) :
    (l.foldl (Dev.bufStopped u) d).bufState u b = 0 ∧ (d.bufState u b ≠ 0 → (l.foldl (Dev.bufStopped u) d).obj 0x6020 0x06 u b = 5) := by
  induction l generalizing d with
  | nil => cases hb
  | cons c l ih =>
    obtain ⟨hc, hl⟩ := List.nodup_cons.1 hl
    rw [List.foldl_cons]
    by_cases hbc : b = c
    · subst hbc
      have hempty := bufStopped_empty d (u := u) b
      exact ⟨(foldl_bufStopped_other _ 0x04 hu (by omega) l hc).trans hempty.1, fun h => (foldl_bufStopped_other _ 0x06 hu (by omega) l hc).trans (hempty.2 h)⟩
    · have hrest := ih (d.bufStopped u c) hl ((List.mem_cons.1 hb).resolve_left hbc)
      exact ⟨hrest.1, fun h => hrest.2 (ne_of_eq_of_ne (bufStopped_other d 0x04 hu (by omega) hbc) h)⟩

theorem canClear_empty {b : Nat} (hu : u < 256) (hb : b < 32) : (d.canClear u).bufState u b = 0 ∧ (d.bufState u b ≠ 0 → (d.canClear u).obj 0x6020 0x06 u b = 5) :=
  foldl_bufStopped_empty d hu List.nodup_range (List.mem_range.2 hb)

/-- A channel as it stops, before waiting replies are offered to the buffers. -/
def Dev.stoppedAt (d : Dev) (u : Nat) : Dev :=
  ((d.canClear u).setCanState u 0).setChan u { d.chan u with stopping := false, settle := none, waking := false, bufs := [] }

theorem stoppedAt_state : (d.stoppedAt u).canState u = 0 := by
  unfold Dev.stoppedAt Dev.canState
  rw [Dev.setChan_obj]
  exact setCanState_state _ _ _

theorem stoppedAt_chan : ((d.stoppedAt u).chan u).stopping = false := congrArg ChanSt.stopping (setChan_same ((d.canClear u).setCanState u 0) u _)

theorem stoppedAt_shut : (d.stoppedAt u).canShut u = true := by
  unfold Dev.canShut
  rw [stoppedAt_state]
  rfl

theorem stoppedAt_obj {j : Nat} (r : Nat) (hj : j < 256) : (d.stoppedAt u).obj 0x6020 j u r = (d.canClear u).obj 0x6020 j u r := by
  unfold Dev.stoppedAt
  rw [Dev.setChan_obj, setCanState_obj _ _ _ _ _ (by omega) hj (by omega)]

theorem canStopped_pumps : ∃ y : Dev, (∀ j r, j < 256 → y.obj 0x6020 j u r = d.obj 0x6020 j u r) ∧ d.canStopped u = (y.stoppedAt u).canPump := by
  by_cases h4 : d.canState u = 4
  · refine ⟨(d.set 0x6010 0x0A 1 u).set 0x6000 0x05 (setBit (d.obj 0x6000 0x05) (u - 21) false), fun j r hj => ?_, ?_⟩
    · rw [obj_set_field _ (by omega) (by omega) hj (by omega) (by omega), obj_set_field _ (by omega) (by omega) hj (by omega) (by omega)]
    · unfold Dev.canStopped
      rw [if_pos h4]
      rfl
  · refine ⟨d, fun _ _ _ => rfl, ?_⟩
    unfold Dev.canStopped
    rw [if_neg h4]
    rfl

/-- A channel that has stopped is empty and takes no load. -/
theorem canStopped_rest (hu : u < 256) : (d.canStopped u).canState u = 0 ∧ ((d.canStopped u).chan u).stopping = false ∧
    ∀ b, b < 32 → (d.canStopped u).bufState u b = 0 ∧ (d.bufState u b ≠ 0 → (d.canStopped u).obj 0x6020 0x06 u b = 5) := by
  obtain ⟨y, hy, hstopped⟩ := canStopped_pumps d (u := u)
  have hpump := shut_canPump (y.stoppedAt u) hu
  have hshut := stoppedAt_shut y (u := u)
  have hobj : ∀ j r, j < 256 → (y.stoppedAt u).canPump.obj 0x6020 j u r = (y.canClear u).obj 0x6020 j u r := fun j r hj =>
    (hpump.obj hshut j r hj).trans (stoppedAt_obj y r hj)
  rw [hstopped]
  refine ⟨((answered_canPump _).obj _ _ _ _ (by omega) (by omega) (by omega) (by omega)).trans (stoppedAt_state y), ?_, fun b hb => ?_⟩
  · rw [hpump.chan hshut, stoppedAt_chan]
  · obtain ⟨hempty, hresult⟩ := canClear_empty y hu hb
    exact ⟨(hobj _ _ (by omega)).trans hempty, fun h => (hobj _ _ (by omega)).trans (hresult (ne_of_eq_of_ne (hy 0x04 b (by omega)) h))⟩

/-- A transceiver that has changed its mode settles by a time, or not at all. -/
def Dev.settleBy (d : Dev) (u : Nat) (e : Option Nat) : Dev :=
  if isCan u then
    let d := d.setChan u { d.chan u with settle := e }
    if d.canState u = 4 then d.setChan u { d.chan u with offUntil := e.getD d.now + kernelTime (1408 * d.bitPeriods u) } else d
  else d.setLin u { d.lin u with settle := e }

theorem xcvrDrive_eq (m : Nat) : d.xcvrDrive u m = if m = d.obj 0x6880 0x02 u then d else
    (((d.set 0x6880 0x02 m u).inc 0x6880 0x04 u).linesOut u).settleBy u
      (if m ≤ 1 then some (d.now + (((d.set 0x6880 0x02 m u).inc 0x6880 0x04 u).linesOut u).obj 0x6880 0x03 u * perUs) else none) := rfl

theorem settleBy_obj (e : Option Nat) (i j w r : Nat) : (d.settleBy u e).obj i j w r = d.obj i j w r := by
  unfold Dev.settleBy
  split
  · simp only
    split <;> rfl
  · rfl

theorem settleBy_stopping (e : Option Nat) : ((d.settleBy u e).chan u).stopping = (d.chan u).stopping := by
  unfold Dev.settleBy
  split
  · simp only
    split
    · rw [setChan_same, setChan_same]
    · rw [setChan_same]
  · rfl

/-- A transceiver that follows its channel changes its own objects and its time to settle alone. -/
theorem xcvrDrive_obj (m : Nat) {i j : Nat} (w r : Nat) (hi : i < 65536) (hj : j < 256) (h : i ≠ 0x6880) : (d.xcvrDrive u m).obj i j w r = d.obj i j w r := by
  rw [xcvrDrive_eq]
  split
  · rfl
  · refine (settleBy_obj _ _ _ _ _ _).trans ((obj_inc_field (d.set 0x6880 0x02 m u) (by omega) (by omega) hj hi (by omega)).trans ?_)
    exact obj_set_field _ (by omega) (by omega) hj hi (by omega)

theorem xcvrDrive_stopping (m : Nat) : ((d.xcvrDrive u m).chan u).stopping = (d.chan u).stopping := by
  rw [xcvrDrive_eq]
  split
  · rfl
  · exact settleBy_stopping _ _

end

section
variable {s : State} {t ch : Nat} {d : Dev} (h : s.Tick t d) (hch : ch < 24)
include h hch

theorem canStopComplete_empties (hstop : (d.chan (uC ch)).stopping = true) (hidle : d.canActive (uC ch) = none) : Completes (.canStopComplete t ch) s fun x =>
    x.canState (uC ch) = 0 ∧ (x.chan (uC ch)).stopping = false ∧ ∀ b : Nat, b < 32 → x.bufState (uC ch) b = 0 ∧ (d.bufState (uC ch) b ≠ 0 → x.obj 0x6020 0x06 (uC ch) b = 5) := by
  have hu : uC ch < 256 := by unfold uC; omega
  obtain ⟨hstate, hstopped, hbufs⟩ := canStopped_rest d hu
  have hdrive : ∀ j r, j < 256 → (((d.canStopped (uC ch)).xcvr (uC ch))).obj 0x6020 j (uC ch) r = (d.canStopped (uC ch)).obj 0x6020 j (uC ch) r := fun j r hj =>
    xcvrDrive_obj _ _ _ _ (by omega) hj (by omega)
  have hzero : ((d.canStopped (uC ch)).xcvr (uC ch)).canState (uC ch) = 0 := (xcvrDrive_obj _ _ _ _ (by omega) (by omega) (by omega)).trans hstate
  have hfinish := shut_finishIfReady ((d.canStopped (uC ch)).xcvr (uC ch)) hu
  have hshut : ((d.canStopped (uC ch)).xcvr (uC ch)).canShut (uC ch) = true := by
    unfold Dev.canShut
    rw [hzero]
    rfl
  refine completes h (by unfold exec; rfl) (decide_eq_true hch) ?_
  dsimp only
  rw [if_pos ⟨hstop, by simp [hidle]⟩]
  refine ⟨(finishIfReady_state _ _).trans hzero, ?_, fun b hb => ?_⟩
  · exact (congrArg ChanSt.stopping (hfinish.chan hshut)).trans ((xcvrDrive_stopping _ _).trans hstopped)
  · obtain ⟨hempty, hresult⟩ := hbufs b hb
    exact ⟨(hfinish.obj hshut 0x04 b (by omega)).trans ((hdrive _ _ (by omega)).trans hempty),
      fun hb => (hfinish.obj hshut 0x06 b (by omega)).trans ((hdrive _ _ (by omega)).trans (hresult hb))⟩

theorem canIntegration_becomes (h1 : d.canState (uC ch) = 1) (hsettle : (d.chan (uC ch)).settle = none) (hpow : d.unitPowered (uC ch) = true)
    (h5 : d.obj 0x6010 0x05 (uC ch) ≤ 127) (h6 : d.obj 0x6010 0x06 (uC ch) ≤ 127) : Becomes (.canIntegrationComplete t ch) s (d.setCanState (uC ch) 2) := by
  refine becomes h (by unfold exec; rfl) (decide_eq_true hch) ?_
  dsimp only
  rw [if_pos ⟨h1, by simp [hsettle], hpow⟩]
  exact canErrState_active (setCanState_state _ _ _) ((setCanState_obj _ _ _ _ _ (by omega) (by omega) (by omega)).trans_le h5)
    ((setCanState_obj _ _ _ _ _ (by omega) (by omega) (by omega)).trans_le h6)

theorem busOffRecovery_completes (h4 : d.canState (uC ch) = 4) (hpow : d.unitPowered (uC ch) = true) (hoff : (d.chan (uC ch)).offUntil ≤ d.now) :
    Completes (.busOffRecovery t ch) s fun x => x.canState (uC ch) = 2 ∧ x.obj 0x6010 0x05 (uC ch) = 0 ∧ x.obj 0x6010 0x06 (uC ch) = 0 ∧
      x.obj 0x6030 0x0D (uC ch) = (d.obj 0x6030 0x0D (uC ch) + 1) % 2 ^ 32 ∧ x.obj 0x6010 0x0A (uC ch) = 0 ∧ x.chans = d.chans := by
  refine completes h (by unfold exec; rfl) (decide_eq_true hch) ?_
  dsimp only
  rw [if_pos ⟨h4, hoff, hpow⟩]
  have hstate : (d.setCanState (uC ch) 2).obj 0x6010 0x04 (uC ch) = 2 := setCanState_state d (uC ch) 2
  refine ⟨?_, ?_, ?_, ?_, ?_, setCanState_chans d (uC ch) 2⟩
  · unfold Dev.canState
    simp (disch := omega) only [obj_set_field, obj_inc_field, hstate]
  · simp (disch := omega) only [obj_set_field, obj_inc_field, obj_set_same]
  · simp (disch := omega) only [obj_set_field, obj_inc_field, obj_set_same]
  · simp (disch := omega) only [obj_set_field, obj_inc_same, setCanState_obj]
  · simp (disch := omega) only [obj_set_field, obj_set_same]

/-- A channel's receiver has settled. -/
def ChanSt.settled (c : ChanSt) : ChanSt := { c with settle := none, waking := false }

omit h hch in
theorem canJoin_integrates {u : Nat} (hon : d.flag 0x6010 0x01 u = true) (h0 : d.canState u = 0) (hmark : d.flag 0x6010 0x0A u = false) :
    d.canJoin u = (d.setChan u (d.chan u).settled).setCanState u 1 := by
  have hjoins : ¬ (¬ d.flag 0x6010 0x01 u = true ∨ (d.canState u ≠ 0 ∧ ¬ (d.chan u).waking = true)) := by simp [hon, h0]
  exact (if_neg hjoins).trans (if_neg (ne_true_of_eq_false hmark))

theorem settlingEnd_joins {e : Nat} (hsettle : (d.chan (uC ch)).settle = some e) (he : e ≤ d.now) (hpow : d.unitPowered (uC ch) = true) (hon : d.flag 0x6010 0x01 (uC ch) = true)
    (h0 : d.canState (uC ch) = 0) (hmark : d.flag 0x6010 0x0A (uC ch) = false) :
    Completes (.transceiverSettlingEnd t (uC ch)) s fun x => x.canState (uC ch) = 1 ∧ (x.chan (uC ch)).settle = none ∧ (x.chan (uC ch)).bufs = (d.chan (uC ch)).bufs := by
  have hcan : isCan (uC ch) = true := by unfold isCan uC; simp; omega
  have hchan : ((d.setChan (uC ch) (d.chan (uC ch)).settled).setCanState (uC ch) 1).chan (uC ch) = (d.chan (uC ch)).settled :=
    (congrArg (tget _ · _) (setCanState_chans _ _ _)).trans (setChan_same _ _ _)
  refine completes h (by unfold exec; rfl) (by unfold uC; simp; omega) ?_
  dsimp only
  rw [if_pos hcan, hsettle]
  dsimp only
  rw [if_neg (by simp [hpow]; omega), if_pos hcan, canJoin_integrates hon h0 hmark]
  exact ⟨setCanState_state _ _ _, (congrArg ChanSt.settle hchan :), (congrArg ChanSt.bufs hchan :)⟩

end

/-- Settles O32: each command by the branch that its condition takes; a stop by what its answer leaves of a channel that takes no load. -/
theorem canChannelStates : Obligations.CanChannelStates := by
  unfold Obligations.CanChannelStates
  intro s t d ch h hch
  refine ⟨canIntegration_becomes h hch, fun h1 => ?_, canStopComplete_empties h hch, fun hstop => ?_, busOffRecovery_completes h hch, fun _ hoff => ?_,
    fun h1 hstate hpow hidle => ?_, fun h1 => ?_, fun e => settlingEnd_joins h hch, fun l e hl hsettle he hpow => ?_⟩
  · refine becomes h (by unfold exec; rfl) (decide_eq_true hch) ?_
    exact if_neg fun hc => h1 hc.1
  · refine becomes h (by unfold exec; rfl) (decide_eq_true hch) ?_
    exact if_neg (by simp [hstop])
  · refine becomes h (by unfold exec; rfl) (decide_eq_true hch) ?_
    exact if_neg fun hc => absurd hc.2.1 (by omega)
  · refine becomes h (by unfold exec; rfl) (decide_eq_true hch) ?_
    exact if_pos ⟨h1, hstate, hpow, by simp [hidle]⟩
  · refine becomes h (by unfold exec; rfl) (decide_eq_true hch) ?_
    exact if_neg fun hc => h1 hc.1
  · have hcan : isCan (uL l) = false := by unfold isCan uL; simp
    refine becomes h (by unfold exec; rfl) (by unfold uL; simp; omega) ?_
    dsimp only
    rw [if_neg (by simp [hcan]), hsettle]
    dsimp only
    rw [if_neg (by simp [hpow]; omega), if_neg (by simp [hcan])]

end Sys2Proof.Machine

/-! SUPPORT. Frames of a CAN channel (R228, R232 to R240), and O33. -/
namespace Sys2Proof.Machine

section
variable (d : Dev)

theorem canPump_none {d : Dev} (h : d.alm.canOut = []) : d.canPump = d := by
  unfold Dev.canPump Dev.almUpd
  rw [h]
  exact congrArg (fun l => ({ d with alm := { d.alm with canOut := l } } : Dev)) h.symm

/-! Reception (R232). -/

theorem canGood_zero {d : Dev} {u : Nat} (h : d.obj 0x6010 0x06 u = 0) : d.canGood u = d := if_pos h

/-- The counter of a received frame's format. -/
def formatCounter (f : CanFrame) : Nat := match canFmt f with | 1 => 0x02 | 2 => 0x03 | _ => 0x01

theorem formatCounter_eq (f : CanFrame) : formatCounter f = if canFmt f = 1 then 0x02 else if canFmt f = 2 then 0x03 else 0x01 := by
  unfold formatCounter
  split
  · next h => rw [h]; rfl
  · next h => rw [h]; rfl
  · next h1 h2 => rw [if_neg h1, if_neg h2]

/-- A received frame is counted before it is delivered. -/
theorem canReceive_counted (u : Nat) (f : CanFrame) (age : Nat) {y : Dev}
    (hy : (if (d.inc64 0x6030 (formatCounter f) u).flag 0x6010 0x03 u then d.inc64 0x6030 (formatCounter f) u else (d.inc64 0x6030 (formatCounter f) u).canGood u) = y) :
    d.canReceive u f age = if y.canServiceFrame u f then y.arrive .can (.can (u - 21) (y.obj 0x1040 0x05)) f.data else y.canDeliver u (y.inPdu f age) := by
  subst hy
  rfl

theorem formatCounter_le (f : CanFrame) : 1 ≤ formatCounter f ∧ formatCounter f ≤ 3 := by
  rw [formatCounter_eq]
  split
  · omega
  · split <;> omega

theorem setIngress_ingress (q : Nat) (l : List InPdu) : (d.setIngress q l).ingress q = l := by
  have hpeak : ∀ (y : Dev) v w, (y.peak 0x7010 0x04 v w).rose = y.rose := fun y v w => by unfold Dev.peak; split <;> rfl
  unfold Dev.ingress Dev.setIngress
  dsimp only
  rw [hpeak]
  exact tget_tput_same _ _ _ _

theorem setIngress_obj (q : Nat) (l : List InPdu) {i j : Nat} (w r : Nat) (hi : i < 65536) (hj : j < 256) (h : i ≠ 0x7010) : (d.setIngress q l).obj i j w r = d.obj i j w r := by
  unfold Dev.setIngress
  exact obj_peak_field ({ d with rose := _ }) (by omega) (by omega) hj hi (by omega)

/-- A frame that the Rose is to have joins its queue and is counted. -/
theorem canReceive_queues {ch : Nat} {f : CanFrame} (age : Nat) (hservice : d.canServiceFrame (uC ch) f = false) (h6 : d.obj 0x6010 0x06 (uC ch) = 0)
    (hlen : (d.ingress ch).length < 16) (hstaging : (d.chan (uC ch)).staging = []) :
    d.canReceive (uC ch) f age = (d.inc64 0x6030 (formatCounter f) (uC ch)).setIngress ch (d.ingress ch ++ [d.inPdu f age]) := by
  obtain ⟨hlow, hhigh⟩ := formatCounter_le f
  have hgood : (d.inc64 0x6030 (formatCounter f) (uC ch)).canGood (uC ch) = d.inc64 0x6030 (formatCounter f) (uC ch) :=
    canGood_zero ((obj_inc64_field _ (by omega) (by omega) (by omega) (by omega) (by omega)).trans h6)
  have hservice' : (d.inc64 0x6030 (formatCounter f) (uC ch)).canServiceFrame (uC ch) f = false := by
    unfold Dev.canServiceFrame at hservice ⊢
    rw [obj_inc64_field _ (by omega) (by omega) (by omega) (by omega) (by omega), obj_inc64_field _ (by omega) (by omega) (by omega) (by omega) (by omega)]
    exact hservice
  have hqueue : uC ch - 21 = ch := by unfold uC; omega
  have hdeliver : (d.inc64 0x6030 (formatCounter f) (uC ch)).canDeliver (uC ch) (d.inPdu f age) =
      (d.inc64 0x6030 (formatCounter f) (uC ch)).setIngress ch (d.ingress ch ++ [d.inPdu f age]) := by
    unfold Dev.canDeliver
    rw [hqueue]
    exact if_pos ⟨hlen, hstaging⟩
  rw [canReceive_counted d _ f age ((congrArg _ hgood).trans (ite_self _)), hservice']
  exact hdeliver

/-! The start of a frame (R236, R237). -/

theorem canStamp_starting {u b : Nat} (h : (d.buf u b).start = d.now) :
    d.canStamp u b = d.set 0x6020 0x07 (time96 (clk16 (d.sex.zt.val + stepOf d.sex.zt.rate * (d.sofSample u : Int)))) u b := by
  unfold Dev.canStamp
  dsimp only
  rw [h]
  split
  · next hle =>
    have hzero : d.sofSample u = 0 := by omega
    have hnow : d.ztAt (d.now + 0) = d.sex.zt.val := if_pos (Nat.le_refl _)
    rw [hzero, hnow]
    simp
  · rw [Nat.add_sub_cancel_left]

theorem canStamp_obj (u b : Nat) {i j : Nat} (w r : Nat) (hi : i < 65536) (hj : j < 256) (h : ¬ (i = 0x6020 ∧ j = 0x07)) : (d.canStamp u b).obj i j w r = d.obj i j w r :=
  obj_set_field d (by omega) (by omega) hj hi h

theorem callStarts_obj (u i j w r : Nat) : (d.callStarts u).obj i j w r = d.obj i j w r := by
  unfold Dev.callStarts
  simp only
  split <;> rfl

@[simp] theorem setBuf_same (u b : Nat) (x : BufSt) : (d.setBuf u b x).buf u b = x := by
  unfold Dev.buf Dev.setBuf
  rw [setChan_same]
  exact tget_tput_same _ _ _ _

theorem setBuf_obj (u b : Nat) (x : BufSt) (i j w r : Nat) : (d.setBuf u b x).obj i j w r = d.obj i j w r := rfl

/-- A started frame leaves the objects of its buffer's stamp. -/
theorem canStart_stamps (u b dl : Nat) : ∃ (y : Dev) (x : BufSt), (y = d ∨ y = d.inc 0x8060 0x05 u) ∧ x.start = d.now ∧
    ∀ i j w r, (d.canStart u b dl).obj i j w r = (((y.set 0x6020 0x04 3 u b).setBuf u b x).canStamp u b).obj i j w r := by
  refine ⟨if d.obj 0x6020 0x01 u b = 1 ∧ (d.buf u b).again then d.inc 0x8060 0x05 u else d, { d.buf u b with
    frame := if d.obj 0x6020 0x01 u b = 1 then { (d.buf u b).frame with data := d.refData u (d.buf u b).frame.data.length } else { (d.buf u b).frame with esi := d.canState u == 3 }
    start := (if d.obj 0x6020 0x01 u b = 1 ∧ (d.buf u b).again then d.inc 0x8060 0x05 u else d).now
    delay := dl
    inData := false }, ?_, ?_, fun i j w r => ?_⟩
  · split
    · exact .inr rfl
    · exact .inl rfl
  · dsimp only
    split <;> rfl
  · unfold Dev.canStart
    dsimp only
    rw [Dev.out_obj]
    split
    · rw [callStarts_obj]
      rfl
    · rfl

theorem canStart_obj (u b dl : Nat) : (d.canStart u b dl).bufState u b = 3 ∧
    (d.canStart u b dl).obj 0x6020 0x07 u b = time96 (clk16 (d.sex.zt.val + stepOf d.sex.zt.rate * (d.sofSample u : Int))) := by
  obtain ⟨y, x, hy, hx, hobj⟩ := canStart_stamps d u b dl
  have hkept : y.now = d.now ∧ y.sex = d.sex ∧ ∀ j, j < 256 → y.obj 0x6011 j u = d.obj 0x6011 j u := by
    rcases hy with rfl | rfl
    · exact ⟨rfl, rfl, fun _ _ => rfl⟩
    · exact ⟨rfl, rfl, fun j hj => obj_inc_field _ (by omega) (by omega) hj (by omega) (by omega)⟩
  obtain ⟨hnow, hsex, hbits⟩ := hkept
  have hsof : ((y.set 0x6020 0x04 3 u b).setBuf u b x).sofSample u = d.sofSample u := by
    unfold Dev.sofSample
    simp (disch := omega) only [setBuf_obj, obj_set_field, hbits]
  have hsex' : ((y.set 0x6020 0x04 3 u b).setBuf u b x).sex = d.sex := hsex
  refine ⟨(hobj _ _ _ _).trans ?_, (hobj _ _ _ _).trans ?_⟩
  · rw [canStamp_obj _ _ _ _ _ (by omega) (by omega) (by omega), setBuf_obj, obj_set_same]
  · have hstart : (((y.set 0x6020 0x04 3 u b).setBuf u b x).buf u b).start = ((y.set 0x6020 0x04 3 u b).setBuf u b x).now :=
      (congrArg BufSt.start (setBuf_same _ _ _ _)).trans (hx.trans hnow.symm)
    rw [canStamp_starting _ hstart, obj_set_same, hsof, hsex']

/-! The end of an attempt (R236, R244). -/

section
variable {u b : Nat} {i j : Nat} (w r : Nat) (hi : i < 65536) (hj : j < 256) (h6020 : i ≠ 0x6020)
include hi hj h6020

theorem bufFill_obj (f : CanFrame) (c : Option Nat) : (d.bufFill u b f c).obj i j w r = d.obj i j w r := by
  unfold Dev.bufFill
  rw [setBuf_obj, obj_set_field _ (by omega) (by omega) hj hi (by omega), obj_set_field _ (by omega) (by omega) hj hi (by omega),
    obj_set_field _ (by omega) (by omega) hj hi (by omega)]

theorem bufArm_kept (x : Bool) (h : ¬ (i = 0x6030 ∧ j = 0x12)) : (d.bufArm u b x).obj i j w r = d.obj i j w r := by
  unfold Dev.bufArm
  split
  · split
    · rw [obj_inc_field _ (by omega) (by omega) hj hi (by omega), bufEmpty_obj _ _ _ _ _ hi hj (by omega)]
    · rw [obj_set_field _ (by omega) (by omega) hj hi (by omega)]
  · rw [obj_set_field _ (by omega) (by omega) hj hi (by omega)]

theorem bufArm_load (f : CanFrame) (c : Option Nat) : ((d.bufFill u b f c).bufArm u b false).obj i j w r = d.obj i j w r := by
  unfold Dev.bufArm
  split
  · rw [if_neg (by simp), obj_set_field _ (by omega) (by omega) hj hi (by omega), bufFill_obj _ _ _ hi hj h6020]
  · rw [obj_set_field _ (by omega) (by omega) hj hi (by omega), bufFill_obj _ _ _ hi hj h6020]

theorem canPump_obj : d.canPump.obj i j w r = d.obj i j w r := by
  refine foldl_leaves (fun d : Dev => d.obj i j w r) _ (fun d x => ?_) _ _
  unfold Dev.canPut
  simp only
  split
  · rfl
  · split
    · rfl
    · split
      · rfl
      · exact bufArm_load _ _ _ hi hj h6020 _ _

omit h6020 in
theorem dataPhase_obj (h : ¬ (i = 0x6011 ∧ j = 0x0B)) (h9 : ¬ (i = 0x6030 ∧ j = 0x09)) : (d.dataPhase u b).obj i j w r = d.obj i j w r := by
  have hdelay : ∀ (y : Dev) v x, ((y.set 0x6011 0x0B v u).setChan u x).obj i j w r = y.obj i j w r := fun y v x => by
    rw [Dev.setChan_obj, obj_set_field _ (by omega) (by omega) hj hi (by omega)]
  unfold Dev.dataPhase
  simp only
  split
  · rfl
  · split
    · split
      · rw [obj_inc_field _ (by omega) (by omega) hj hi (by omega), hdelay, setBuf_obj]
      · rw [hdelay, setBuf_obj]
    · rfl

end

theorem dataPhase_alm (u b : Nat) : (d.dataPhase u b).alm = d.alm := by
  unfold Dev.dataPhase
  simp only
  split
  · rfl
  · split
    · split <;> rfl
    · rfl

theorem bufArm_open {d : Dev} {u b : Nat} (x : Bool) (h : d.bufShut u b = false) : d.bufArm u b x = d.set 0x6020 0x04 1 u b := if_neg (ne_true_of_eq_false h)

theorem bufArm_expires {d : Dev} {u b : Nat} (h : d.bufShut u b = true) (h3 : d.obj 0x6020 0x03 u b = 1) : d.bufArm u b true = (d.bufEmpty u b 3).inc 0x6030 0x12 u :=
  (if_pos h).trans (if_pos ⟨rfl, h3⟩)

section
variable {d : Dev} {u b : Nat} (hheld : (d.buf u b).held = none) (hout : d.alm.canOut = [])
include hheld hout

/-- An attempt that succeeds on a channel without errors empties its buffer. -/
theorem canSent_empties (h5 : d.obj 0x6010 0x05 u = 0) (h1 : d.obj 0x6020 0x01 u b = 0) :
    d.canSent u b = (((d.canStamp u b).dataPhase u b).inc64 0x6030 0x04 u).bufEmpty u b 1 := by
  have hobj : ∀ {i j : Nat} (r : Nat), i < 65536 → j < 256 → i ≠ 0x6030 → i ≠ 0x6011 → ¬ (i = 0x6020 ∧ j = 0x07) →
      (((d.canStamp u b).dataPhase u b).inc64 0x6030 0x04 u).obj i j u r = d.obj i j u r := fun r hi hj h30 h11 h7 => by
    rw [obj_inc64_field _ (by omega) (by omega) hj hi (by omega), dataPhase_obj _ _ _ hi hj (by omega) (by omega), canStamp_obj _ _ _ _ _ hi hj h7]
  have htec := (hobj 0 (by omega) (by omega) (by omega) (by omega) (by omega)).trans h5
  have howner := (hobj b (by omega) (by omega) (by omega) (by omega) (by omega)).trans h1
  have halm : (((d.canStamp u b).dataPhase u b).inc64 0x6030 0x04 u).alm = d.alm := dataPhase_alm (d.canStamp u b) u b
  unfold Dev.canSent
  simp only [htec, howner, hheld, Nat.lt_irrefl, if_false, Nat.zero_ne_one]
  exact canPump_none (by rw [bufEmpty_alm, halm, hout])

theorem canSent_obj (h5 : d.obj 0x6010 0x05 u = 0) (h1 : d.obj 0x6020 0x01 u b = 0) :
    (d.canSent u b).bufState u b = 0 ∧ (d.canSent u b).obj 0x6020 0x06 u b = 1 ∧ (d.canSent u b).obj 0x6030 0x04 u = (d.obj 0x6030 0x04 u + 1) % 2 ^ 64 := by
  rw [canSent_empties hheld hout h5 h1]
  refine ⟨bufEmpty_state _ _ _, bufEmpty_result _ _ _, ?_⟩
  rw [bufEmpty_obj _ _ _ _ _ (by omega) (by omega) (by omega), obj_inc64_same, dataPhase_obj _ _ _ (by omega) (by omega) (by omega) (by omega),
    canStamp_obj _ _ _ _ _ (by omega) (by omega) (by omega)]

omit hout in
/-- The device at an attempt that has failed, before its buffer is armed again. -/
theorem canFailed_arms : ∃ y : Dev, (∀ {i j : Nat} (w r : Nat), i < 65536 → j < 256 → ¬ (i = 0x6020 ∧ j = 0x07) → y.obj i j w r = d.obj i j w r) ∧ y.alm = d.alm ∧
    (y.buf u b).frame = (d.buf u b).frame ∧ d.canFailed u b = (y.bufArm u b true).canPump := by
  refine ⟨((d.canStamp u b).setChan u { (d.canStamp u b).chan u with phaseAt := none }).setBuf u b { d.buf u b with again := true, inData := false },
    fun w r hi hj h7 => canStamp_obj _ _ _ _ _ hi hj h7, rfl, (congrArg BufSt.frame (setBuf_same _ _ _ _) :), ?_⟩
  unfold Dev.canFailed
  simp only [hheld]

theorem canFailed_pending (hshut : d.bufShut u b = false) : (d.canFailed u b).bufState u b = 1 ∧ ((d.canFailed u b).buf u b).frame = (d.buf u b).frame := by
  obtain ⟨y, hobj, halm, hframe, hfailed⟩ := canFailed_arms hheld
  have hshut' : y.bufShut u b = false := by
    unfold Dev.bufShut Dev.flag at hshut ⊢
    rw [hobj _ _ (by omega) (by omega) (by omega), hobj _ _ (by omega) (by omega) (by omega)]
    exact hshut
  have hnone : (y.set 0x6020 0x04 1 u b).alm.canOut = [] := (congrArg AlmSt.canOut halm).trans hout
  rw [hfailed, bufArm_open _ hshut', canPump_none hnone]
  exact ⟨obj_set_same _ _ _ _ _ _, hframe⟩

theorem canFailed_expires (hshut : d.bufShut u b = true) (h3 : d.obj 0x6020 0x03 u b = 1) : (d.canFailed u b).bufState u b = 0 ∧ (d.canFailed u b).obj 0x6020 0x06 u b = 3 := by
  obtain ⟨y, hobj, halm, -, hfailed⟩ := canFailed_arms hheld
  have hshut' : y.bufShut u b = true := by
    unfold Dev.bufShut Dev.flag at hshut ⊢
    rw [hobj _ _ (by omega) (by omega) (by omega), hobj _ _ (by omega) (by omega) (by omega)]
    exact hshut
  have hnone : ((y.bufEmpty u b 3).inc 0x6030 0x12 u).alm.canOut = [] := (congrArg AlmSt.canOut ((bufEmpty_alm y u b 3).trans halm)).trans hout
  rw [hfailed, bufArm_expires hshut' ((hobj _ _ (by omega) (by omega) (by omega)).trans h3), canPump_none hnone]
  exact ⟨(obj_inc_field _ (by omega) (by omega) (by omega) (by omega) (by omega)).trans (bufEmpty_state _ _ _),
    (obj_inc_field _ (by omega) (by omega) (by omega) (by omega) (by omega)).trans (bufEmpty_result _ _ _)⟩

end

/-- An attempt that fails keeps every object but those of the buffers and the counts of what is dropped. -/
theorem canFailed_obj (u b : Nat) {i j : Nat} (w r : Nat) (hi : i < 65536) (hj : j < 256) (h6020 : i ≠ 0x6020) (h10 : ¬ (i = 0x6030 ∧ (j = 0x10 ∨ j = 0x12))) :
    (d.canFailed u b).obj i j w r = d.obj i j w r := by
  have hfirst : ((d.canStamp u b).setChan u { (d.canStamp u b).chan u with phaseAt := none }).obj i j w r = d.obj i j w r := canStamp_obj _ _ _ _ _ hi hj (by omega)
  unfold Dev.canFailed
  simp only
  split
  · rw [canPump_obj _ _ _ hi hj h6020, obj_inc_field _ (by omega) (by omega) hj hi (by omega), bufEmpty_obj _ _ _ _ _ hi hj (by omega), hfirst]
  · rw [canPump_obj _ _ _ hi hj h6020, bufArm_kept _ _ _ hi hj h6020 _ (by omega), Dev.bufCall, setBuf_obj, bufFill_obj _ _ _ hi hj h6020, hfirst]
  · rw [canPump_obj _ _ _ hi hj h6020, bufArm_kept _ _ _ hi hj h6020 _ (by omega), setBuf_obj, hfirst]

theorem canFail_obj (u : Nat) {i j : Nat} (w r : Nat) (hi : i < 65536) (hj : j < 256) (h6020 : i ≠ 0x6020) (h10 : ¬ (i = 0x6030 ∧ (j = 0x10 ∨ j = 0x12))) :
    (d.canFail u).obj i j w r = d.obj i j w r := by
  unfold Dev.canFail
  split
  · exact canFailed_obj _ _ _ _ _ hi hj h6020 h10
  · rfl

/-! Reroute and bus-off (R240, R242). -/

section
variable {i j : Nat} (w r : Nat) (hi : i < 65536) (hj : j < 256) (h6020 : i ≠ 0x6020)
include hi hj h6020

theorem bufReplace_obj {u b : Nat} {f : CanFrame} {e : Dev} (h : d.bufReplace u b f = some e) (h11 : ¬ (i = 0x6030 ∧ j = 0x11)) : e.obj i j w r = d.obj i j w r := by
  unfold Dev.bufReplace at h
  simp only at h
  by_cases h3 : d.bufState u b = 3
  · rw [if_pos h3] at h
    obtain ⟨-, hload⟩ := Option.ite_none_left_eq_some.1 h
    obtain rfl := Option.some.inj hload
    rw [obj_inc_field _ (by omega) (by omega) hj hi (by omega), setBuf_obj]
  · rw [if_neg h3] at h
    obtain ⟨-, hload⟩ := Option.ite_none_left_eq_some.1 h
    obtain rfl := Option.some.inj hload
    rw [obj_inc_field _ (by omega) (by omega) hj hi (by omega), setBuf_obj, obj_set_field _ (by omega) (by omega) hj hi (by omega),
      obj_set_field _ (by omega) (by omega) hj hi (by omega)]

theorem canPlace_obj (u : Nat) (f : CanFrame) (p : Nat) (c : Option Nat) (h30 : ¬ (i = 0x6030 ∧ (j = 0x0F ∨ j = 0x11 ∨ j = 0x15 ∨ j = 0x17))) :
    (d.canPlace u f p c).1.obj i j w r = d.obj i j w r := by
  have hcount : ∀ k, k < 256 → ¬ (i = 0x6030 ∧ j = k) → (if c.isSome then d else d.inc 0x6030 k u).obj i j w r = d.obj i j w r := fun k hk hne => by
    split
    · rfl
    · exact obj_inc_field _ hk (by omega) hj hi hne
  unfold Dev.canPlace
  simp only
  split
  · rfl
  · split
    · exact hcount _ (by omega) (by omega)
    · split
      · exact hcount _ (by omega) (by omega)
      · split
        · split
          · next hsome => exact bufReplace_obj _ _ _ hi hj h6020 hsome (by omega)
          · exact hcount _ (by omega) (by omega)
        · split
          · split
            · exact hcount _ (by omega) (by omega)
            · exact bufArm_load _ _ _ hi hj h6020 _ _
          · exact hcount _ (by omega) (by omega)

theorem reroute_obj (u b : Nat) (f : CanFrame) (x : Bool) (h30 : ¬ (i = 0x6030 ∧ (j = 0x0F ∨ j = 0x11 ∨ j = 0x13 ∨ j = 0x14 ∨ j = 0x15 ∨ j = 0x17))) :
    (d.reroute u b f x).obj i j w r = d.obj i j w r := by
  have htold : ∀ (y : Dev × Loaded) v, y.1.obj i j w r = d.obj i j w r → (match y.2 with
      | .into k => (y.1.inc 0x6030 0x13 u).event 6 (some 17) Ev.other.code u (unitPath y.1.stackId u ++ unitPath y.1.stackId v ++ [BitVec.ofNat 8 b, BitVec.ofNat 8 k])
      | _ => y.1.inc 0x6030 0x14 u).obj i j w r = d.obj i j w r := fun y v hy => by
    split
    · exact (obj_inc_field y.1 (by omega) (by omega) hj hi (by omega)).trans hy
    · exact (obj_inc_field y.1 (by omega) (by omega) hj hi (by omega)).trans hy
  unfold Dev.reroute
  split
  · rfl
  · refine htold _ _ ?_
    split
    · split
      · next hsome => exact bufReplace_obj _ _ _ hi hj h6020 hsome (by omega)
      · rfl
    · exact canPlace_obj _ _ _ hi hj h6020 _ _ _ _ (by omega)

end

/-- A channel in BUS-OFF: its state and the count. -/
theorem canBusOff_enters (u : Nat) : (d.canBusOff u).canState u = 4 ∧ (d.canBusOff u).obj 0x6030 0x0C u = (d.obj 0x6030 0x0C u + 1) % 2 ^ 32 := by
  have hentry : (d.busOffEntry u).canState u = 4 ∧ (d.busOffEntry u).obj 0x6030 0x0C u = (d.obj 0x6030 0x0C u + 1) % 2 ^ 32 := by
    have hstate : (d.setCanState u 4).obj 0x6010 0x04 u = 4 := setCanState_state d u 4
    unfold Dev.canState Dev.busOffEntry
    simp (disch := omega) only [Dev.event_obj, Dev.setChan_obj, obj_set_field, obj_inc_field, obj_inc_same, hstate, setCanState_obj]
    exact ⟨trivial, trivial⟩
  have hkept : ∀ {i j : Nat}, i < 65536 → j < 256 → i ≠ 0x6020 → ¬ (i = 0x6030 ∧ (j = 0x0F ∨ j = 0x10 ∨ j = 0x11 ∨ j = 0x12 ∨ j = 0x13 ∨ j = 0x14 ∨ j = 0x15 ∨ j = 0x17)) →
      (d.canBusOff u).obj i j u = (d.busOffEntry u).obj i j u := fun hi hj h6020 h30 => by
    unfold Dev.canBusOff
    simp only
    split
    · rw [reroute_obj _ _ _ hi hj h6020 _ _ _ _ (by omega), canFail_obj _ _ _ _ hi hj h6020 (by omega)]
    · exact canFail_obj _ _ _ _ hi hj h6020 (by omega)
  exact ⟨(hkept (by omega) (by omega) (by omega) (by omega)).trans hentry.1, (hkept (by omega) (by omega) (by omega) (by omega)).trans hentry.2⟩

/-! Errors (R228, R231, R243). -/

section
variable {d : Dev} {u : Nat} {e : CanError}

/-- An error as it is counted. -/
def Dev.errorSeen (d : Dev) (u : Nat) (e : CanError) : Dev := (d.inc 0x6030 (errorCounter e.kind) u).set 0x6010 0x09 e.kind u

theorem errorCounter_range (k : Nat) : 6 ≤ errorCounter k ∧ errorCounter k ≤ 10 := by
  unfold errorCounter
  split <;> omega

theorem errorSeen_obj {i j : Nat} (w r : Nat) (hi : i < 65536) (hj : j < 256) (h9 : ¬ (i = 0x6010 ∧ j = 0x09)) (h30 : ¬ (i = 0x6030 ∧ 6 ≤ j ∧ j ≤ 10)) :
    (d.errorSeen u e).obj i j w r = d.obj i j w r := by
  have hrange := errorCounter_range e.kind
  unfold Dev.errorSeen
  rw [obj_set_field _ (by omega) (by omega) hj hi h9, obj_inc_field _ (by omega) (by omega) hj hi (by omega)]

theorem errorSeen_flag (h3 : d.flag 0x6010 0x03 u = false) : (d.errorSeen u e).flag 0x6010 0x03 u = false := by
  unfold Dev.flag at h3 ⊢
  rwa [errorSeen_obj _ _ (by omega) (by omega) (by omega) (by omega)]

/-- An error of a frame of another node. -/
theorem canError_received (h3 : d.flag 0x6010 0x03 u = false) (htx : e.transmitting = false) :
    d.canError u e = if (d.errorSeen u e).unsignalled u none e then d.errorSeen u e else
      let z := ((d.errorSeen u e).set 0x6010 0x06 (min 128 ((d.errorSeen u e).obj 0x6010 0x06 u + (if e.heavy then 8 else 1))) u).canErrState u
      if 255 < z.obj 0x6010 0x05 u then z.canBusOff u else z := by
  have h3' := errorSeen_flag (e := e) h3
  unfold Dev.canError
  rw [show (d.inc 0x6030 (errorCounter e.kind) u).set 0x6010 0x09 e.kind u = d.errorSeen u e from rfl]
  simp [h3', htx]

/-- What an error of an own frame says of it: a duplicate identifier, and a data phase that has begun. -/
def Dev.errorMarked (d : Dev) (u b : Nat) (e : CanError) : Dev :=
  let d := match e.place with
    | some (pos, fld) => if e.kind = 4 then d.canDuplicate u b pos fld else d
    | none => d
  if (e.kind == 3 || e.kind == 2 || (match e.place with | some (_, fld) => decide (1 ≤ fld) | none => false)) = true then d.dataPhase u b else d

theorem errorMarked_obj (b : Nat) {i j : Nat} (w r : Nat) (hi : i < 65536) (hj : j < 256) (h40 : i ≠ 0x6040) (h11 : ¬ (i = 0x6011 ∧ j = 0x0B)) (h9 : ¬ (i = 0x6030 ∧ j = 0x09)) :
    (d.errorMarked u b e).obj i j w r = d.obj i j w r := by
  have hduplicate : ∀ pos fld, (if e.kind = 4 then d.canDuplicate u b pos fld else d).obj i j w r = d.obj i j w r := fun pos fld => by
    split
    · unfold Dev.canDuplicate
      simp only
      rw [Dev.event_obj, obj_set_field _ (by omega) (by omega) hj hi (by omega), obj_set_field _ (by omega) (by omega) hj hi (by omega),
        obj_set_field _ (by omega) (by omega) hj hi (by omega), obj_set_field _ (by omega) (by omega) hj hi (by omega), obj_inc_field _ (by omega) (by omega) hj hi (by omega)]
    · rfl
  have hphase : ∀ (y : Dev) (c : Bool), y.obj i j w r = d.obj i j w r → (if c = true then y.dataPhase u b else y).obj i j w r = d.obj i j w r := fun y c hy => by
    split
    · exact (dataPhase_obj _ _ _ hi hj h11 h9).trans hy
    · exact hy
  unfold Dev.errorMarked
  refine hphase _ _ ?_
  split
  · exact hduplicate _ _
  · rfl

/-- An error of an own frame, on a channel that signals it. -/
theorem canError_sent {b : Nat} (h3 : d.flag 0x6010 0x03 u = false) (htx : e.transmitting = true) (hactive : (d.errorSeen u e).canActive u = some b)
    (hsignal : ((d.errorSeen u e).errorMarked u b e).unsignalled u (some b) e = false) (hexempt : e.exempt = false) {z : Dev}
    (hz : (((d.errorSeen u e).errorMarked u b e).set 0x6010 0x05 (min 256 (((d.errorSeen u e).errorMarked u b e).obj 0x6010 0x05 u + 8)) u).canErrState u = z) :
    d.canError u e = if 255 < z.obj 0x6010 0x05 u then z.canBusOff u else z.canFail u := by
  have h3' := errorSeen_flag (e := e) h3
  unfold Dev.canError
  rw [show (d.inc 0x6030 (errorCounter e.kind) u).set 0x6010 0x09 e.kind u = d.errorSeen u e from rfl]
  simp only [h3', htx, hactive, hexempt, if_true, if_false, Bool.false_eq_true]
  subst hz
  obtain ⟨kind, tx, exempt, heavy, place⟩ := e
  cases place with
  | none => exact if_neg (ne_true_of_eq_false hsignal)
  | some place => exact if_neg (ne_true_of_eq_false hsignal)

theorem canError_counts {rec_ : Nat} (hrec : d.obj 0x6010 0x06 u = rec_) (hstate : d.canState u = 2) (h3 : d.flag 0x6010 0x03 u = false) (htx : e.transmitting = false)
    (hmode : d.obj 0x6010 0x02 u ≠ 2) (h5 : d.obj 0x6010 0x05 u ≤ 127) (h6 : rec_ < 120) :
    (d.canError u e).obj 0x6010 0x06 u = rec_ + (if e.heavy then 8 else 1) ∧ (d.canError u e).obj 0x6010 0x09 u = e.kind ∧ (d.canError u e).canState u = 2 := by
  have hseen : ∀ {j : Nat}, j < 256 → j ≠ 0x09 → (d.errorSeen u e).obj 0x6010 j u = d.obj 0x6010 j u := fun hj h9 => errorSeen_obj _ _ (by omega) hj (by omega) (by omega)
  have hsignal : (d.errorSeen u e).unsignalled u none e = false := by
    unfold Dev.unsignalled
    rw [hseen (by omega) (by omega)]
    simp [hmode]
  have hstep : rec_ + (if e.heavy then 8 else 1) ≤ 127 := by split <;> omega
  obtain ⟨z, hz⟩ : ∃ z, (d.errorSeen u e).set 0x6010 0x06 (min 128 ((d.errorSeen u e).obj 0x6010 0x06 u + (if e.heavy then 8 else 1))) u = z := ⟨_, rfl⟩
  have hcount : z.obj 0x6010 0x06 u = rec_ + (if e.heavy then 8 else 1) := by
    rw [← hz, obj_set_same, hseen (by omega) (by omega), hrec]
    omega
  have hz5 : z.obj 0x6010 0x05 u = d.obj 0x6010 0x05 u := by
    rw [← hz, obj_set_field _ (by omega) (by omega) (by omega) (by omega) (by omega), hseen (by omega) (by omega)]
  have hzstate : z.canState u = 2 := by
    rw [← hz]
    exact (obj_set_field _ (by omega) (by omega) (by omega) (by omega) (by omega)).trans ((hseen (by omega) (by omega)).trans hstate)
  have hsteady : z.canErrState u = z := canErrState_active hzstate (hz5.trans_le h5) (hcount.trans_le hstep)
  have herror : d.canError u e = z := by
    rw [canError_received h3 htx, hsignal, hz]
    simp only [hsteady]
    exact (if_neg Bool.false_ne_true).trans (if_neg (by omega))
  rw [herror]
  refine ⟨hcount, ?_, hzstate⟩
  rw [← hz, obj_set_field _ (by omega) (by omega) (by omega) (by omega) (by omega)]
  exact obj_set_same _ _ _ _ _ _

theorem canError_busOff {b : Nat} (hstate : d.canState u = 3) (h3 : d.flag 0x6010 0x03 u = false) (htx : e.transmitting = true) (hexempt : e.exempt = false)
    (h5 : 248 ≤ d.obj 0x6010 0x05 u) (hb : d.canActive u = some b) (hmode : d.obj 0x6010 0x02 u ≠ 2) :
    (d.canError u e).canState u = 4 ∧ (d.canError u e).obj 0x6030 0x0C u = (d.obj 0x6030 0x0C u + 1) % 2 ^ 32 := by
  have hmarked : ∀ {i j : Nat}, i < 65536 → j < 256 → i ≠ 0x6040 → i ≠ 0x6011 → ¬ (i = 0x6010 ∧ j = 0x09) → ¬ (i = 0x6030 ∧ 6 ≤ j ∧ j ≤ 10) →
      ((d.errorSeen u e).errorMarked u b e).obj i j u = d.obj i j u := fun hi hj h40 h11 h9 h30 => by
    rw [errorMarked_obj _ _ _ hi hj h40 (by omega) (by omega), errorSeen_obj _ _ hi hj h9 h30]
  have hactive : (d.errorSeen u e).canActive u = some b := by
    refine Eq.trans ?_ hb
    unfold Dev.canActive Dev.bufState
    exact congrArg (List.find? · _) (funext fun k => by rw [errorSeen_obj _ _ (by omega) (by omega) (by omega) (by omega)])
  have hsignal : ((d.errorSeen u e).errorMarked u b e).unsignalled u (some b) e = false := by
    unfold Dev.unsignalled
    rw [hmarked (by omega) (by omega) (by omega) (by omega) (by omega) (by omega)]
    simp [hmode]
  obtain ⟨z, hz⟩ : ∃ z, ((d.errorSeen u e).errorMarked u b e).set 0x6010 0x05 (min 256 (((d.errorSeen u e).errorMarked u b e).obj 0x6010 0x05 u + 8)) u = z := ⟨_, rfl⟩
  have hz5 : z.obj 0x6010 0x05 u = 256 := by
    rw [← hz, obj_set_same, hmarked (by omega) (by omega) (by omega) (by omega) (by omega) (by omega)]
    omega
  have hzstate : z.canState u = 3 := by
    rw [← hz]
    exact (obj_set_field _ (by omega) (by omega) (by omega) (by omega) (by omega)).trans ((hmarked (by omega) (by omega) (by omega) (by omega) (by omega) (by omega)).trans hstate)
  have hzcount : z.obj 0x6030 0x0C u = d.obj 0x6030 0x0C u := by
    rw [← hz, obj_set_field _ (by omega) (by omega) (by omega) (by omega) (by omega), hmarked (by omega) (by omega) (by omega) (by omega) (by omega) (by omega)]
  have hsteady : z.canErrState u = z := canErrState_passive hzstate (by omega)
  have hoff := canBusOff_enters z u
  rw [hzcount] at hoff
  rwa [canError_sent (z := z) h3 htx hactive hsignal hexempt (by rw [hz]; exact hsteady), if_pos (by omega)]

/-- An error that an XL channel does not signal is only counted. -/
theorem canError_unsignalled (hsignal : d.unsignalled u none e = true) (htx : e.transmitting = false) (h3 : d.flag 0x6010 0x03 u = false) : d.canError u e = d.errorSeen u e := by
  have hsignal' : (d.errorSeen u e).unsignalled u none e = true := by
    unfold Dev.unsignalled Dev.flag at hsignal ⊢
    rw [errorSeen_obj _ _ (by omega) (by omega) (by omega) (by omega), errorSeen_obj _ _ (by omega) (by omega) (by omega) (by omega)]
    exact hsignal
  rw [canError_received h3 htx, if_pos hsignal']

end

end

section
variable {s : State} {t ch : Nat} {d : Dev} (h : s.Tick t d) (hch : ch < 24)
include h hch

section
variable {f : CanFrame} (age : Nat) (hok : canFrameOk f = true)
include hok

omit h in
theorem canFrame_wf : (decide (ch < 24) && canFrameOk f) = true := by
  rw [decide_eq_true hch, hok]
  rfl

theorem canFrameReceived_ignored (h2 : d.canState (uC ch) ≠ 2) (h3 : d.canState (uC ch) ≠ 3) : Becomes (.canFrameReceived t ch f age) s d := by
  refine becomes h (by unfold exec; rfl) (canFrame_wf hch hok) ?_
  exact if_neg fun hc => hc.1.elim h2 h3

theorem canFrameReceived_becomes (hstate : d.canState (uC ch) = 2 ∨ d.canState (uC ch) = 3) (hpow : d.unitPowered (uC ch) = true) (hsettle : (d.chan (uC ch)).settle = none)
    (hidle : d.canActive (uC ch) = none) {x : Dev}
    (hx : (if modeHandles (d.obj 0x6010 0x02 (uC ch)) (canFmt f) then
        if (d.canReceive (uC ch) f age).isKeepAlive (uC ch) f.ident f.data ∧ ¬ (d.canReceive (uC ch) f age).nodeIgnored (uC ch) (byteAt f.data 0) then d.canReceive (uC ch) f age
        else (d.canReceive (uC ch) f age).canAfter (uC ch)
      else (if d.obj 0x6010 0x02 (uC ch) = 1 then d.canException (uC ch)
        else d.canError (uC ch) { kind := 2, transmitting := false, exempt := false, heavy := false, place := none }).canAfter (uC ch)) = x) :
    Becomes (.canFrameReceived t ch f age) s x := by
  refine becomes h (by unfold exec; rfl) (canFrame_wf hch hok) ?_
  dsimp only
  rw [if_pos ⟨hstate, hpow, by simp [hsettle], by simp [hidle]⟩]
  exact hx

end

section
variable {b dl : Nat} (hdl : dl < 65536)
include hdl

omit h in
theorem canFrameStart_wf : (decide (ch < 24) && decide (dl < 65536)) = true := by simp [hch, hdl]

section
variable (hmay : d.canMayStart (uC ch) = true) (hsel : d.canSelect (uC ch) = some b)
include hmay hsel

theorem canFrameStart_becomes {bad : Bool} {x : Dev}
    (hx : (if bad then (((d.bufEmpty (uC ch) b 4).inc 0x6030 0x16 (uC ch)).event 6 (some 17) Ev.other.code (uC ch)).canPump else d.canStart (uC ch) b dl) = x) :
    Becomes (.canFrameStart t ch bad dl) s x := by
  refine becomes h (by unfold exec; rfl) (canFrameStart_wf hch hdl) ?_
  dsimp only
  rw [if_neg (not_not.2 hmay), hsel]
  exact hx

theorem canFrameStart_unread (hout : d.alm.canOut = []) : Completes (.canFrameStart t ch true dl) s fun x => x.bufState (uC ch) b = 0 ∧ x.obj 0x6020 0x06 (uC ch) b = 4 ∧
    x.obj 0x6030 0x16 (uC ch) = (d.obj 0x6030 0x16 (uC ch) + 1) % 2 ^ 32 ∧ ∃ e ∈ x.ev.bus, e.vector = some 17 ∧ e.lt = d.lt := by
  obtain ⟨y, hy⟩ : ∃ y, (d.bufEmpty (uC ch) b 4).inc 0x6030 0x16 (uC ch) = y := ⟨_, rfl⟩
  have halm : (y.event 6 (some 17) Ev.other.code (uC ch)).alm.canOut = [] := by
    rw [← hy]
    exact (congrArg AlmSt.canOut (bufEmpty_alm d (uC ch) b 4)).trans hout
  have hlt : y.lt = d.lt := by
    rw [← hy]
    exact (congrArg Dev.lt (unlink_rest d (uC ch) b) :)
  obtain ⟨e, he, hv, hlt'⟩ := event_raised y 6 17 Ev.other.code (uC ch)
  refine (canFrameStart_becomes h hch hdl hmay hsel ((if_pos rfl).trans (by rw [hy]; exact canPump_none halm))).completes ⟨?_, ?_, ?_, e, he, hv, hlt'.trans hlt⟩
  · unfold Dev.bufState
    rw [Dev.event_obj, ← hy, obj_inc_field _ (by omega) (by omega) (by omega) (by omega) (by omega)]
    exact bufEmpty_state _ _ _
  · rw [Dev.event_obj, ← hy, obj_inc_field _ (by omega) (by omega) (by omega) (by omega) (by omega), bufEmpty_result]
  · rw [Dev.event_obj, ← hy, obj_inc_same, bufEmpty_obj _ _ _ _ _ (by omega) (by omega) (by omega)]

end

theorem canFrameStart_nothing (bad : Bool) (hno : d.canMayStart (uC ch) = false ∨ d.canSelect (uC ch) = none) : Becomes (.canFrameStart t ch bad dl) s d := by
  refine becomes h (by unfold exec; rfl) (canFrameStart_wf hch hdl) ?_
  dsimp only
  rcases hno with hmay | hsel
  · exact if_pos (ne_true_of_eq_false hmay)
  · rw [hsel]
    exact ite_self _

end

theorem canAttemptEnd_becomes {b : Nat} {ok : Bool} (hb : d.canActive (uC ch) = some b) :
    Becomes (.canAttemptEnd t ch ok) s ((if ok then d.canSent (uC ch) b else d.canFailed (uC ch) b).canAfter (uC ch)) := by
  refine becomes h (by unfold exec; rfl) (decide_eq_true hch) ?_
  dsimp only
  rw [hb]

theorem canArbitrationLost_becomes {b : Nat} (hb : d.canActive (uC ch) = some b) : Becomes (.canArbitrationLost t ch) s ((d.inc 0x6030 0x05 (uC ch)).canFailed (uC ch) b) := by
  refine becomes h (by unfold exec; rfl) (decide_eq_true hch) ?_
  dsimp only
  rw [hb]

theorem canBusError_becomes {e : CanError} (h1 : 1 ≤ e.kind) (h6 : e.kind ≤ 6) (hplace : ∀ x y : Nat, e.place = some (x, y) → x < 65536 ∧ y < 3) {x : Dev}
    (hx : (if (d.canState (uC ch) = 2 ∨ d.canState (uC ch) = 3) ∧ d.unitPowered (uC ch) ∧ (d.chan (uC ch)).settle.isNone ∧ (e.transmitting → (d.canActive (uC ch)).isSome) then
      (d.canError (uC ch) e).canAfter (uC ch) else d) = x) : Becomes (.canBusError t ch e) s x := by
  refine becomes h (by unfold exec; rfl) ?_ ?_
  · have hwf : (match e.place with | some (p, f) => decide (p < 65536) && decide (f < 3) | none => true) = true := by
      rcases hp : e.place with _ | ⟨p, f⟩
      · rfl
      · simpa using hplace p f hp
    have hkind : (decide (ch < 24) && decide (1 ≤ e.kind) && decide (e.kind ≤ 6)) = true := by simp [hch, h1, h6]
    exact Bool.and_eq_true_iff.2 ⟨hkind, hwf⟩
  · exact hx

end

/-- Settles O33: reception, attempts and errors, each by the branch that its condition takes and by the objects that it leaves. -/
theorem canFrames : Obligations.CanFrames := by
  unfold Obligations.CanFrames
  intro s t d ch h hch
  refine ⟨fun f age hok hstate hpow hsettle hidle => ⟨fun hmode hkeep => ?_, fun hmode hkeep hnode => ?_, fun hmode h0 => ?_, fun hmode h1 => ?_⟩,
    fun f age hservice h6 hlen hstaging => ?_, fun f age hok h2 h3 => canFrameReceived_ignored h hch age hok h2 h3,
    fun b dl hmay hsel hb hdl => ⟨canFrameStart_becomes h hch hdl hmay hsel rfl, (canStart_obj d (uC ch) b dl).1, (canStart_obj d (uC ch) b dl).2, canFrameStart_unread h hch hdl hmay hsel⟩,
    fun dl bad hdl hno => canFrameStart_nothing h hch hdl bad hno,
    fun b hb => ⟨canAttemptEnd_becomes h hch hb, canAttemptEnd_becomes h hch hb, canArbitrationLost_becomes h hch hb, canSent_obj, canFailed_pending, fun hheld _ => canFailed_expires hheld ‹_›⟩,
    fun hnone => ⟨?_, fun g => ?_⟩,
    fun e h1 h6 hplace => ⟨fun hstate hpow hsettle htx => ?_, fun h0 => ?_, fun hstate h3 htx hmode h5 h120 => canError_counts rfl hstate h3 htx hmode h5 h120,
      fun hstate h3 htx hexempt h5 ⟨b, hb⟩ hmode => canError_busOff hstate h3 htx hexempt h5 hb hmode, fun hsignal _ htx h3 => ?_⟩⟩
  · exact canFrameReceived_becomes h hch age hok hstate hpow hsettle hidle ((if_pos hmode).trans (if_neg fun hc => hkeep.elim (fun hno => ne_true_of_eq_false hno hc.1) hc.2))
  · exact canFrameReceived_becomes h hch age hok hstate hpow hsettle hidle ((if_pos hmode).trans (if_pos ⟨hkeep, ne_true_of_eq_false hnode⟩))
  · exact canFrameReceived_becomes h hch age hok hstate hpow hsettle hidle ((if_neg (ne_true_of_eq_false hmode)).trans (congrArg (Dev.canAfter · _) (if_neg (by omega))))
  · exact canFrameReceived_becomes h hch age hok hstate hpow hsettle hidle ((if_neg (ne_true_of_eq_false hmode)).trans (congrArg (Dev.canAfter · _) (if_pos h1)))
  · obtain ⟨hlow, hhigh⟩ := formatCounter_le f
    rw [canReceive_queues d age hservice h6 hlen hstaging, ← formatCounter_eq]
    refine ⟨setIngress_ingress _ _ _, ?_⟩
    rw [setIngress_obj _ _ _ _ _ (by omega) (by omega) (by omega), obj_inc64_same]
  · refine becomes h (by unfold exec; rfl) (decide_eq_true hch) ?_
    dsimp only
    rw [hnone]
  · refine becomes h (by unfold exec; rfl) (decide_eq_true hch) ?_
    dsimp only
    rw [hnone]
  · exact canBusError_becomes h hch h1 h6 hplace (if_pos ⟨hstate, hpow, by simp [hsettle], fun hc => Option.isSome_iff_ne_none.2 (htx hc)⟩)
  · exact canBusError_becomes h hch h1 h6 hplace (if_neg fun hc => by omega)
  · rw [htx] at hsignal
    exact canError_unsignalled hsignal htx h3

end Sys2Proof.Machine

/-! SUPPORT. Frames of a LIN channel (R248 to R252, R257), and O34. -/
namespace Sys2Proof.Machine

section
variable (d : Dev)

theorem peak_rest (i j v u r : Nat) : { d.peak i j v u r with store := [] } = { d with store := [] } := by
  unfold Dev.peak
  split <;> rfl

theorem setIngress_rest (q : Nat) (l : List InPdu) : { d.setIngress q l with store := [], rose := {} } = { d with store := [], rose := {} } := by
  unfold Dev.setIngress
  exact (congrArg (fun x : Dev => { x with rose := {} }) (peak_rest ({ d with rose := _ }) _ _ _ _ _) :)

@[simp] theorem setLin_same (u : Nat) (x : LinSt) : (d.setLin u x).lin u = x := tget_tput_same _ _ _ _

theorem setLin_obj (u : Nat) (x : LinSt) (i j w r : Nat) : (d.setLin u x).obj i j w r = d.obj i j w r := rfl

theorem linErred_obj (u : Nat) (f : LinFrame) (i j w r : Nat) : (d.linErred u f).obj i j w r = d.obj i j w r := by
  unfold Dev.linErred
  split <;> rfl

/-- A frame that ends with no go-to-sleep command, and none waiting. -/
theorem linEnd_plain {d : Dev} {u : Nat} {f : LinFrame} (hf : (d.lin u).frame = some f) (hcmd : f.sleepCmd = false) (hdue : (d.lin u).sleepDue = false) :
    d.linEnd u = d.setLin u { d.lin u with frame := none } := by
  unfold Dev.linEnd
  simp [hf, hcmd, hdue]

end

section
variable {s : State} {t ch : Nat} {d : Dev} (h : s.Tick t d) (hch : ch < 16)
include h hch

/-! Slots (R257). -/

section
variable (hdriven : d.slotsDriven (uL ch) = false) (hat : (d.lin (uL ch)).slotAt ≤ d.now) (hstate : d.linState (uL ch) = 1) (hmaster : d.linMaster (uL ch) = true)
  (hpow : d.unitPowered (uL ch) = true) (hsettle : (d.lin (uL ch)).settle = none) (hstop : (d.lin (uL ch)).stopping = false) (hseg : d.obj 0xA020 0x0C (uL ch) = 0)
include hdriven hat hstate hmaster hpow hsettle hstop hseg

omit h hch hdriven hat in
theorem linSlot_open : ¬ (d.linState (uL ch) ≠ 1 ∨ ¬ d.linMaster (uL ch) = true ∨ ¬ d.unitPowered (uL ch) = true ∨ (d.lin (uL ch)).settle.isSome = true ∨ (d.lin (uL ch)).stopping = true ∨
    d.obj 0xA020 0x0C (uL ch) = 5 ∨ d.obj 0xA020 0x0C (uL ch) = 6) := by
  simp [hstate, hmaster, hpow, hsettle, hstop, hseg]

theorem linSlotStart_busy {f : LinFrame} (hf : (d.lin (uL ch)).frame = some f) : Becomes (.linSlotStart t ch) s (d.inc 0x6840 0x0B (uL ch)) := by
  refine becomes h (by unfold exec; rfl) (decide_eq_true hch) ?_
  dsimp only
  rw [if_neg (by simp [hdriven]; omega)]
  exact (if_neg (linSlot_open hstate hmaster hpow hsettle hstop hseg)).trans (if_pos (by rw [hf]; rfl))

section
variable {tb id : Nat} (hf : (d.lin (uL ch)).frame = none) (hcollide : (d.lin (uL ch)).collide = none) (hrequest : (d.lin (uL ch)).request = none)
  (htb : d.obj 0x6810 0x06 (uL ch) = tb) (h64 : tb < 64) (hptr : d.obj 0x6810 0x08 (uL ch) + 1 < d.tableCount tb)
  (htype : d.obj 0x6830 0x01 0 (tb * 64 + d.obj 0x6810 0x08 (uL ch)) = 0) (hid : d.obj 0x6830 0x02 0 (tb * 64 + d.obj 0x6810 0x08 (uL ch)) = id)
  (hdir : d.obj 0x6820 0x01 (uL ch) id = 2)
include hf hcollide hrequest htb h64 hptr htype hid hdir

/-- The device at a slot, before its header is sent. -/
def Dev.slotTaken (d : Dev) (u ptr e : Nat) : Dev := (d.set 0x6810 0x08 (ptr + 1) u).setLin u { d.lin u with slotAt := d.now + d.obj 0x6830 0x03 0 e * 125000 }

omit h hch hdriven hat in
theorem linSlot_sends : ∃ f : LinFrame, f.id = id ∧ f.start = d.now ∧ f.own = false ∧ ∃ y : Dev, y = d.slotTaken (uL ch) (d.obj 0x6810 0x08 (uL ch)) (tb * 64 + d.obj 0x6810 0x08 (uL ch)) ∧
    d.linSlot (uL ch) 0 = (y.setLin (uL ch) { y.lin (uL ch) with frame := some f }).sendHeader (uL ch) id := by
  have htable : d.linTable (uL ch) = d := by
    unfold Dev.linTable
    simp only [hcollide, hrequest]
  have hadvance : d.linAdvance (uL ch) tb (d.obj 0x6810 0x08 (uL ch)) = d.set 0x6810 0x08 (d.obj 0x6810 0x08 (uL ch) + 1) (uL ch) := if_pos hptr
  have hentry : ∀ j r, j < 256 → (d.set 0x6810 0x08 (d.obj 0x6810 0x08 (uL ch) + 1) (uL ch)).obj 0x6830 j 0 r = d.obj 0x6830 j 0 r := fun j r hj =>
    obj_set_field d (by omega) (by omega) hj (by omega) (by omega)
  obtain ⟨y, hy⟩ : ∃ y, d.slotTaken (uL ch) (d.obj 0x6810 0x08 (uL ch)) (tb * 64 + d.obj 0x6810 0x08 (uL ch)) = y := ⟨_, rfl⟩
  have hydir : y.obj 0x6820 0x01 (uL ch) id = 2 := by
    rw [← hy]
    exact (obj_set_field d (by omega) (by omega) (by omega) (by omega) (by omega)).trans hdir
  have hsends : y.linSends (uL ch) 0 id = true := by
    unfold Dev.linSends
    simp [hydir]
  refine ⟨{ y.masterFrame (uL ch) id (y.linLen (uL ch) id) (y.now + 0) with
    own := y.obj 0x6820 0x01 (uL ch) id == 1 && (0 : Nat) != 1 && (0 : Nat) != 4
    type := 0
    resolving := (d.lin (uL ch)).resume.isSome }, rfl, ?_, ?_, y, hy.symm, ?_⟩
  · rw [← hy]
    rfl
  · simp [hydir]
  · have htaken : (d.set 0x6810 0x08 (d.obj 0x6810 0x08 (uL ch) + 1) (uL ch)).setLin (uL ch) { (d.set 0x6810 0x08 (d.obj 0x6810 0x08 (uL ch) + 1) (uL ch)).lin (uL ch) with
        slotAt := (d.set 0x6810 0x08 (d.obj 0x6810 0x08 (uL ch) + 1) (uL ch)).now +
          (d.set 0x6810 0x08 (d.obj 0x6810 0x08 (uL ch) + 1) (uL ch)).obj 0x6830 0x03 0 (tb * 64 + d.obj 0x6810 0x08 (uL ch)) * 125000 } = y := by
      rw [← hy, hentry _ _ (by omega)]
      rfl
    unfold Dev.linSlot
    dsimp only
    rw [if_neg (linSlot_open hstate hmaster hpow hsettle hstop hseg), if_neg (by simp [hf]), htable, htb, if_neg (by omega), htype, hid, hadvance, htaken, if_pos hsends]

theorem linSlotStart_sends : Completes (.linSlotStart t ch) s fun x => x.obj 0x6810 0x08 (uL ch) = d.obj 0x6810 0x08 (uL ch) + 1 ∧
    x.obj 0x6840 0x01 (uL ch) = (d.obj 0x6840 0x01 (uL ch) + 1) % 2 ^ 32 ∧ ((x.lin (uL ch)).frame.map (fun f => (f.id, f.start, f.own))) = some (id, d.now, false) ∧
    (x.lin (uL ch)).slotAt = d.now + d.obj 0x6830 0x03 0 (tb * 64 + d.obj 0x6810 0x08 (uL ch)) * 125000 := by
  obtain ⟨f, hfid, hstart, hown, y, hy, hslot⟩ := linSlot_sends hstate hmaster hpow hsettle hstop hseg hf hcollide hrequest htb h64 hptr htype hid hdir
  have hlin : ((y.setLin (uL ch) { y.lin (uL ch) with frame := some f }).sendHeader (uL ch) id).lin (uL ch) = { y.lin (uL ch) with frame := some f } := setLin_same y _ _
  have hobj : ∀ {j k : Nat}, ((y.setLin (uL ch) { y.lin (uL ch) with frame := some f }).sendHeader (uL ch) id).obj j k (uL ch) = (y.inc 0x6840 0x01 (uL ch)).obj j k (uL ch) := rfl
  have hyobj : ∀ {j k : Nat}, j < 65536 → k < 256 → ¬ (j = 0x6810 ∧ k = 0x08) → y.obj j k (uL ch) = d.obj j k (uL ch) := fun hj hk hne => by
    rw [hy]
    exact obj_set_field d (by omega) (by omega) hk hj hne
  refine completes h (by unfold exec; rfl) (decide_eq_true hch) ?_
  dsimp only
  rw [if_neg (by simp [hdriven]; omega), hslot]
  refine ⟨?_, ?_, ?_, ?_⟩
  · rw [hobj, obj_inc_field _ (by omega) (by omega) (by omega) (by omega) (by omega), hy]
    exact obj_set_same d _ _ _ _ _
  · rw [hobj, obj_inc_same, hyobj (by omega) (by omega) (by omega)]
  · rw [hlin]
    simp [hfid, hstart, hown]
  · rw [hlin, hy]
    exact congrArg LinSt.slotAt (setLin_same _ _ _)

end

end

/-! Headers that a slave receives (R248, R252). -/

section
variable (hstate : d.linState (uL ch) = 1) (hslave : d.linMaster (uL ch) = false) (hpow : d.unitPowered (uL ch) = true) (hsettle : (d.lin (uL ch)).settle = none)
  (hstop : (d.lin (uL ch)).stopping = false) (hf : (d.lin (uL ch)).frame = none) {b : LinHead} (hrate : b.rate = d.obj 0x6810 0x03 (uL ch)) (h16 : b.rate < 65536)
include hstate hslave hpow hsettle hstop hf hrate h16

omit hf hrate in
theorem linHeaderReceived_becomes {pid : Nat} (hpid : pid < 256) {x : Dev} (hx : d.linHeader (uL ch) pid b = x) : Becomes (.linHeaderReceived t ch pid b) s x := by
  refine becomes h (by unfold exec; rfl) (by simp [hch, hpid, h16]) ?_
  dsimp only
  rw [if_pos ⟨hstate, by simp [hslave], hpow, by simp [hsettle], by simp [hstop]⟩]
  exact hx

omit h hch hstate hslave hpow hsettle hstop hf h16 in
theorem isBreak_iff : d.isBreak (uL ch) b.brk = true ↔ 11 * 1250000000 ≤ b.brk * b.rate := by
  unfold Dev.isBreak
  rw [decide_eq_true_iff, hrate]

omit h hch hstate hslave hpow hsettle hstop h16 in
/-- A break takes the measured bit rate, which is that of the channel. -/
theorem linHeader_break {pid : Nat} (hbreak : 11 * 1250000000 ≤ b.brk * b.rate) {y : Dev} (hy : d.set 0x6810 0x0C b.rate (uL ch) = y) :
    d.linHeader (uL ch) pid b = if pid ≠ linPid (pid % 64) then y.inc 0x6840 0x09 (uL ch)
      else if y.obj 0x6820 0x01 (uL ch) (pid % 64) = 0 ∨ (y.obj 0x6820 0x01 (uL ch) (pid % 64) = 1 ∧ ¬ y.linLoaded (uL ch) (pid % 64)) then y
      else y.setLin (uL ch) { y.lin (uL ch) with
        frame := some
          { id := pid % 64, len := y.linLen (uL ch) (pid % 64), start := y.now - linBits 42 b.rate - b.brk, mark := y.now - linBits 41 b.rate,
            own := y.obj 0x6820 0x01 (uL ch) (pid % 64) == 1, respAt := y.now + linBits (2 * y.obj 0x6810 0x09 (uL ch)) b.rate } } := by
  have hlimit : d.linLimit (uL ch) b.began = d := by
    unfold Dev.linLimit
    simp only [hf]
  have hnominal : y.obj 0x6810 0x03 (uL ch) = b.rate := by
    rw [← hy, obj_set_field _ (by omega) (by omega) (by omega) (by omega) (by omega), hrate]
  unfold Dev.linHeader
  rw [if_neg (not_not.2 ((isBreak_iff hrate).2 hbreak)), hlimit]
  dsimp only
  rw [hy, hnominal, max_self, min_self, Nat.sub_self, Nat.zero_mul, if_neg (Nat.not_lt_zero _)]

omit hf in
theorem linHeaderReceived_short (hbreak : b.brk * b.rate < 11 * 1250000000) : Becomes (.linHeaderReceived t ch 0x50 b) s d :=
  linHeaderReceived_becomes h hch hstate hslave hpow hsettle hstop h16 (by omega) (if_pos fun hb => by have := (isBreak_iff hrate).1 hb; omega)

theorem linHeaderReceived_parity (hbreak : 11 * 1250000000 ≤ b.brk * b.rate) :
    Becomes (.linHeaderReceived t ch 0x10 b) s ((d.set 0x6810 0x0C b.rate (uL ch)).inc 0x6840 0x09 (uL ch)) :=
  linHeaderReceived_becomes h hch hstate hslave hpow hsettle hstop h16 (by omega) ((linHeader_break hf hrate hbreak rfl).trans (if_pos (by decide)))

theorem linHeaderReceived_taken (hbreak : 11 * 1250000000 ≤ b.brk * b.rate) (hdir : d.obj 0x6820 0x01 (uL ch) 0x10 = 2) :
    Completes (.linHeaderReceived t ch 0x50 b) s fun x =>
      (x.lin (uL ch)).frame = some { id := 0x10, len := d.linLen (uL ch) 0x10, start := d.now - linBits 42 b.rate - b.brk, mark := d.now - linBits 41 b.rate, own := false, respAt := d.now + linBits (2 * d.obj 0x6810 0x09 (uL ch)) b.rate } ∧ x.obj 0x6810 0x0C (uL ch) = b.rate := by
  obtain ⟨y, hy⟩ : ∃ y, d.set 0x6810 0x0C b.rate (uL ch) = y := ⟨_, rfl⟩
  have hobj : ∀ {i j : Nat} (r : Nat), i < 65536 → j < 256 → ¬ (i = 0x6810 ∧ j = 0x0C) → y.obj i j (uL ch) r = d.obj i j (uL ch) r := fun r hi hj hne => by
    rw [← hy]
    exact obj_set_field d (by omega) (by omega) hj hi hne
  have hydir : y.obj 0x6820 0x01 (uL ch) 0x10 = 2 := (hobj _ (by omega) (by omega) (by omega)).trans hdir
  have hlen : y.linLen (uL ch) 0x10 = d.linLen (uL ch) 0x10 := by
    unfold Dev.linLen
    rw [hobj _ (by omega) (by omega) (by omega)]
  have hnow : y.now = d.now := by
    rw [← hy]
    rfl
  refine (linHeaderReceived_becomes h hch hstate hslave hpow hsettle hstop h16 (by omega) ((linHeader_break hf hrate hbreak hy).trans
    ((if_neg (not_not.2 (by decide))).trans (if_neg (by rw [hydir]; omega))))).completes ⟨?_, ?_⟩
  · rw [setLin_same, hydir, hlen, hnow, hobj _ (by omega) (by omega) (by omega)]
    rfl
  · rw [setLin_obj, ← hy, obj_set_same]

end

/-! Responses (R250). -/

section
variable {f : LinFrame} (hf : (d.lin (uL ch)).frame = some f) (hown : f.own = true) (hfailed : f.failed = false) (hresp : f.resp = none)
include hf hown hfailed hresp

omit h hch hf hown hfailed hresp in
theorem linData_master (hcmd : f.sleepCmd = false) (hmaster : d.linMaster (uL ch) = true) : d.linData (uL ch) f = tget (fun _ => []) (d.lin (uL ch)).data f.id := by
  unfold Dev.linData Dev.linMark
  simp [hcmd, hmaster]

omit hown hfailed hresp in
theorem linResponse_waits (k : Option Nat) (hat : d.now < f.respAt) : Becomes (.linResponseSend t ch k) s d := by
  refine becomes h (by unfold exec; rfl) (decide_eq_true hch) ?_
  unfold Dev.linRespond
  simp only [hf]
  exact if_pos (.inr (.inr (.inr hat)))

section
variable (hat : f.respAt ≤ d.now) {whole : Bytes} (hwhole : d.linData (uL ch) f ++ [d.linCheckByte (uL ch) f.id (d.linData (uL ch) f)] = whole)
include hat hwhole

omit h hch in
theorem linRespond_open (k : Option Nat) : d.linRespond (uL ch) k = match k.filter (· < whole.length) with
    | some k =>
      let y := ((d.out (.linResponse (uL ch - 45) (whole.take (k + 1)))).inc 0x6840 0x04 (uL ch)).linErred (uL ch) f
      y.setLin (uL ch) { y.lin (uL ch) with frame := some { f with resp := some (d.linData (uL ch) f), failed := true } }
    | none => (d.out (.linResponse (uL ch - 45) whole)).setLin (uL ch) { d.lin (uL ch) with frame := some { f with resp := some (d.linData (uL ch) f) } } := by
  subst hwhole
  unfold Dev.linRespond
  simp only [hf]
  exact if_neg (by simp [hown, hfailed, hresp]; omega)

theorem linResponse_sent : Becomes (.linResponseSend t ch none) s
    ((d.out (.linResponse (uL ch - 45) whole)).setLin (uL ch) { d.lin (uL ch) with frame := some { f with resp := some (d.linData (uL ch) f) } }) := by
  refine becomes h (by unfold exec; rfl) (decide_eq_true hch) ?_
  exact linRespond_open hf hown hfailed hresp hat hwhole none

theorem linResponse_stops {k : Nat} (hk : k < whole.length) : Completes (.linResponseSend t ch (some k)) s fun x => (x.lin (uL ch)).frame.map (·.failed) = some true ∧
    (x.lin (uL ch)).error = true ∧ x.obj 0x6840 0x04 (uL ch) = (d.obj 0x6840 0x04 (uL ch) + 1) % 2 ^ 32 ∧ x.outbox = .linResponse (uL ch - 45) (whole.take (k + 1)) :: d.outbox := by
  obtain ⟨y, hy⟩ : ∃ y, (d.out (.linResponse (uL ch - 45) (whole.take (k + 1)))).inc 0x6840 0x04 (uL ch) = y := ⟨_, rfl⟩
  have herred : y.linErred (uL ch) f = y.setLin (uL ch) { y.lin (uL ch) with error := true } := if_pos hown
  have hrespond : d.linRespond (uL ch) (some k) = (y.setLin (uL ch) { y.lin (uL ch) with error := true }).setLin (uL ch)
      { y.lin (uL ch) with error := true, frame := some { f with resp := some (d.linData (uL ch) f), failed := true } } := by
    rw [linRespond_open hf hown hfailed hresp hat hwhole, Option.filter_some, if_pos (by simpa using hk)]
    dsimp only
    rw [hy, herred, setLin_same]
  refine completes h (by unfold exec; rfl) (decide_eq_true hch) ?_
  rw [hrespond, setLin_same]
  refine ⟨rfl, rfl, ?_, ?_⟩
  · rw [setLin_obj, setLin_obj, ← hy, obj_inc_same]
    rfl
  · rw [← hy]
    rfl

end

end

theorem linFrameComplete_becomes {b : Bytes} (e : LinCheck) (hb : b.length ≤ 9) : Becomes (.linFrameComplete t ch b e) s ((d.linComplete (uL ch) b e).linAfter (uL ch)) := by
  refine becomes h (by unfold exec; rfl) (by simp [hch, hb]) ?_
  rfl

end

/-! The end of a response of another node (R249, R251). -/

section
variable {d : Dev} {u : Nat} {f : LinFrame} {b : Bytes} {c : Byte} (hf : (d.lin u).frame = some f) (hfailed : f.failed = false) (hown : f.own = false) (hlen : b.length = f.len)
include hf hfailed hown hlen

theorem linComplete_faulty {check : LinCheck} {e : Nat} (htype : f.type = 0) (hfault : d.linFault u f (b ++ [c]) check = some e) :
    d.linComplete u (b ++ [c]) check = (d.inc 0x6840 e u).linEnd u := by
  have herred : (d.inc 0x6840 e u).linErred u f = d.inc 0x6840 e u := if_neg (ne_true_of_eq_false hown)
  unfold Dev.linComplete
  simp only [hf]
  rw [if_neg (by simp [hfailed, hown, hlen]), hfault]
  dsimp only
  rw [if_neg (by omega), herred]

omit hf hfailed in
theorem linFault_good : d.linFault u f (b ++ [c]) .good = if c = d.linCheckByte u f.id b then none else some 0x05 := by
  have hlast : (b ++ [c]).getD f.len 0 = c := by rw [← hlen]; simp
  have hdata : (b ++ [c]).take f.len = b := by rw [← hlen]; simp
  unfold Dev.linFault
  simp only [hown, hlast, hdata, Bool.false_eq_true, false_or]

theorem linComplete_fails {check : LinCheck} {e : Nat} (htype : f.type = 0) (hcmd : f.sleepCmd = false) (hdue : (d.lin u).sleepDue = false)
    (hfault : d.linFault u f (b ++ [c]) check = some e) : (d.linComplete u (b ++ [c]) check).obj 0x6840 e u = (d.obj 0x6840 e u + 1) % 2 ^ 32 ∧
      ((d.linComplete u (b ++ [c]) check).lin u).frame = none ∧ ∀ q, (d.linComplete u (b ++ [c]) check).ingress q = d.ingress q := by
  rw [linComplete_faulty hf hfailed hown hlen htype hfault, linEnd_plain (d := d.inc 0x6840 e u) hf hcmd hdue]
  exact ⟨obj_inc_same d _ _ _ _ _, congrArg LinSt.frame (setLin_same _ _ _), fun _ => rfl⟩

/-- A frame with the checksum of its data is counted and delivered. -/
theorem linComplete_delivers {ch : Nat} (hu : u = uL ch) (hcmd : f.sleepCmd = false) (hc : c = d.linCheckByte u f.id b) (hdir : d.obj 0x6820 0x01 u f.id = 2)
    (hqueue : (d.ingress (24 + ch)).length < 16) (hstaging : (d.lin u).staging = []) (hdue : (d.lin u).sleepDue = false) :
    (d.linComplete u (b ++ [c]) .good).ingress (24 + ch) = d.ingress (24 + ch) ++ [d.inPdu { ident := f.id, data := b } (d.now - f.mark)] ∧
      (d.linComplete u (b ++ [c]) .good).obj 0x6840 0x02 u = (d.obj 0x6840 0x02 u + 1) % 2 ^ 64 ∧ ((d.linComplete u (b ++ [c]) .good).lin u).frame = none := by
  obtain ⟨y, hy⟩ : ∃ y, (d.inc64 0x6840 0x02 u).inc 0x6820 0x06 u f.id = y := ⟨_, rfl⟩
  have hq : u - 45 + 24 = 24 + ch := by rw [hu]; unfold uL; omega
  have hlin : y.lins = d.lins := by rw [← hy]; rfl
  have hdata : (b ++ [c]).take f.len = b := by rw [← hlen]; simp
  have hdeliver : y.linDeliver u (d.inPdu { ident := f.id, data := b } (d.now - f.mark)) =
      y.setIngress (24 + ch) (d.ingress (24 + ch) ++ [d.inPdu { ident := f.id, data := b } (d.now - f.mark)]) := by
    have hingress : y.ingress (24 + ch) = d.ingress (24 + ch) := by rw [← hy]; rfl
    unfold Dev.linDeliver Dev.lin
    simp only [hq, hlin, hingress]
    exact if_pos ⟨hqueue, hstaging⟩
  have hkept : (y.setIngress (24 + ch) (d.ingress (24 + ch) ++ [d.inPdu { ident := f.id, data := b } (d.now - f.mark)])).lins = d.lins := by
    exact (congrArg Dev.lins (setIngress_rest y _ _) :).trans hlin
  have hcomplete : d.linComplete u (b ++ [c]) .good = (y.setIngress (24 + ch) (d.ingress (24 + ch) ++ [d.inPdu { ident := f.id, data := b } (d.now - f.mark)])).linEnd u := by
    have hgood : d.linFault u f (b ++ [c]) .good = none := (linFault_good hown hlen).trans (if_pos hc)
    unfold Dev.linComplete
    simp only [hf]
    rw [if_neg (by simp [hfailed, hown, hlen]), hgood]
    simp only [hown, hcmd, hdir, hdata, hy, Bool.false_eq_true, if_false, false_and, OfNat.ofNat_ne_zero]
    exact congrArg (Dev.linEnd · u) hdeliver
  have hchan : ∀ z : Dev, z.lins = d.lins → z.lin u = d.lin u := fun z hz => congrArg (tget _ · u) hz
  rw [hcomplete, linEnd_plain ((congrArg LinSt.frame (hchan _ hkept)).trans hf) hcmd ((congrArg LinSt.sleepDue (hchan _ hkept)).trans hdue)]
  refine ⟨setIngress_ingress y _ _, ?_, congrArg LinSt.frame (setLin_same _ _ _)⟩
  rw [setLin_obj, setIngress_obj _ _ _ _ _ (by omega) (by omega) (by omega), ← hy, obj_inc_field _ (by omega) (by omega) (by omega) (by omega) (by omega), obj_inc64_same]

end

/-! The time limit (R249). -/

theorem linLimit_silent {d : Dev} {u : Nat} {f : LinFrame} (hf : (d.lin u).frame = some f) (hfailed : f.failed = false) (hcmd : f.sleepCmd = false) (hresp : f.resp = none)
    (htype : f.type = 0) (hid : f.id ≠ 61) (hdue : (d.lin u).sleepDue = false) :
    ((d.linLimit u false).lin u).frame = none ∧ (d.linLimit u false).obj 0x6840 0x06 u = (d.obj 0x6840 0x06 u + 1) % 2 ^ 32 := by
  obtain ⟨y, hy⟩ : ∃ y, (d.inc 0x6840 0x06 u).linErred u f = y := ⟨_, rfl⟩
  have hlin : (y.lin u).frame = some f ∧ (y.lin u).sleepDue = false := by
    rw [← hy]
    unfold Dev.linErred
    split
    · rw [setLin_same]
      exact ⟨hf, hdue⟩
    · exact ⟨hf, hdue⟩
  have hlimit : d.linLimit u false = y.linEnd u := by
    unfold Dev.linLimit
    simp only [hf]
    rw [if_neg (by simp [hfailed, hcmd]), if_neg (by simp [hresp]), if_neg (by omega), hy]
  rw [hlimit, linEnd_plain hlin.1 hcmd hlin.2]
  refine ⟨congrArg LinSt.frame (setLin_same _ _ _), ?_⟩
  rw [setLin_obj, ← hy, linErred_obj, obj_inc_same]

theorem linTimeLimit_becomes {s : State} {t ch : Nat} {d x : Dev} (h : s.Tick t d) (ha : s.Alone d) (hch : ch < 16) {b : Bool}
    (hx : (match (d.lin (uL ch)).frame with
      | none => d
      | some f => if f.start + frameMaxTime f.len (d.obj 0x6810 0x03 (uL ch)) ≤ d.now then (d.linLimit (uL ch) b).linAfter (uL ch) else d) = x) :
    Becomes (.linFrameTimeLimit t ch b) s x := by
  refine becomes_timer h ha (by unfold exec; rfl) (by omega) (by omega) (decide_eq_true hch) ?_
  exact hx

/-- Settles O34: slots, headers, responses and ends of frames, each by the branch that its condition takes. -/
theorem linFrames : Obligations.LinFrames := by
  unfold Obligations.LinFrames
  intro s t d ch h ha hch
  refine ⟨fun hdriven hat hstate hmaster hpow hsettle hstop hseg => ⟨fun f => linSlotStart_busy h hch hdriven hat hstate hmaster hpow hsettle hstop hseg,
      fun tb hf hcollide hrequest _ htb h64 hptr htype hdir => linSlotStart_sends h hch hdriven hat hstate hmaster hpow hsettle hstop hseg hf hcollide hrequest htb h64 hptr htype rfl hdir⟩,
    fun hno => ?_,
    fun hstate hslave hpow hsettle hstop hf b hrate h16 => ⟨linHeaderReceived_short h hch hstate hslave hpow hsettle hstop hrate h16,
      linHeaderReceived_taken h hch hstate hslave hpow hsettle hstop hf hrate h16, linHeaderReceived_parity h hch hstate hslave hpow hsettle hstop hf hrate h16⟩,
    fun f hf hown hfailed hresp => ⟨linData_master, fun hat k => linResponse_waits h hch hf k hat,
      fun hat => linResponse_sent h hch hf hown hfailed hresp hat rfl, fun k hat hk => linResponse_stops h hch hf hown hfailed hresp hat rfl hk⟩,
    fun b e hb => linFrameComplete_becomes h hch e hb,
    fun f b c hf _ hfailed hown hlen hcmd => ⟨fun hc hdir hqueue hstaging hdue => linComplete_delivers hf hfailed hown hlen rfl hcmd hc hdir hqueue hstaging hdue,
      fun hc htype hdue => ?_, fun htype hdue => ?_⟩,
    fun f hf => ⟨fun hlate b => ?_, fun hearly b => ?_, fun hfailed hcmd hresp htype hid hdue => linLimit_silent hf hfailed hcmd hresp htype hid hdue⟩,
    fun hf => ⟨fun b => ?_, fun k => ?_⟩⟩
  · refine becomes h (by unfold exec; rfl) (decide_eq_true hch) ?_
    exact if_pos hno
  · obtain ⟨hcount, hframe, hqueue⟩ := linComplete_fails (c := c) hf hfailed hown hlen htype hcmd hdue ((linFault_good hown hlen).trans (if_neg hc))
    exact ⟨hcount, hframe, hqueue _⟩
  · obtain ⟨hcount, hframe, -⟩ := linComplete_fails (c := c) (check := .framing) hf hfailed hown hlen htype hcmd hdue rfl
    exact ⟨hcount, hframe⟩
  · exact linTimeLimit_becomes h ha hch (by rw [hf]; exact if_pos hlate)
  · exact linTimeLimit_becomes h ha hch (by rw [hf]; exact if_neg (by omega))
  · exact linTimeLimit_becomes h ha hch (by rw [hf])
  · refine becomes h (by unfold exec; rfl) (decide_eq_true hch) ?_
    unfold Dev.linRespond
    simp only [hf]

end Sys2Proof.Machine

/-! SUPPORT. Writes of the CAN and LIN channels (R229, R233, R238, R254, R256, R262), and O35. -/
namespace Sys2Proof.Machine

section
variable (d : Dev) (q : Request) (o : ObjRow) (u b : Nat)

@[simp] theorem writeBase_chan : (d.writeBase q o).chan u = d.chan u := congrArg (tget _ · u) (writeBase_chans d q o)
@[simp] theorem writeBase_lin : (d.writeBase q o).lin u = d.lin u := congrArg (tget _ · u) (writeBase_lins d q o)
@[simp] theorem writeBase_buf : (d.writeBase q o).buf u b = d.buf u b := congrArg (fun c : ChanSt => tget _ c.bufs b) (writeBase_chan d q o u)

@[simp] theorem writeBase_canState : (d.writeBase q o).canState u = d.canState u := writeBase_obj _ _ _ _ _ _ _ (by omega) (by omega) (by omega) (by omega) rfl
@[simp] theorem writeBase_bufState : (d.writeBase q o).bufState u b = d.bufState u b := writeBase_obj _ _ _ _ _ _ _ (by omega) (by omega) (by omega) (by omega) rfl

@[simp] theorem writeBase_powered : (d.writeBase q o).unitPowered u = d.unitPowered u := by
  unfold Dev.unitPowered
  rw [writeBase_pow]

theorem writeBase_canMayStart : (d.writeBase q o).canMayStart u = d.canMayStart u := by
  unfold Dev.canMayStart Dev.canActive Dev.goingToSleep
  simp only [writeBase_canState, writeBase_powered, writeBase_bufState, writeBase_chan, writeBase_now]
  rw [writeBase_flag _ _ _ _ _ _ _ (by omega) (by omega) (by omega) (by omega), writeBase_obj _ _ _ _ _ _ _ (by omega) (by omega) (by omega) (by omega) rfl]

theorem writeBase_canSelect : (d.writeBase q o).canSelect u = d.canSelect u := by
  have hbetter : better (d.writeBase q o) u = better d u := by
    funext a b
    cases a with
    | none => rfl
    | some a =>
      simp only [better, writeBase_buf]
  unfold Dev.canSelect Dev.firstOf
  rw [hbetter]
  simp only [writeBase_bufState, writeBase_chan]
  exact congrArg (List.foldl _ none) (congrArg (List.filter · _) (funext fun b => by
    rw [writeBase_obj _ _ _ _ _ _ _ (by omega) (by omega) (by omega) (by omega) rfl]))

end

section
variable {s : State} {t u : Nat} {d : Dev} {q : Request} {o : ObjRow} (h : s.Tick t d)
include h

theorem canEnable_writes (hw : d.takesWrite q o .canEnable u = true) (hi : recIndex q.bytes = 0x6010) (hj : recSub q.bytes = 0x01) (hv : q.value = 1)
    (hoff : d.flag 0x6010 0x01 u = false) (hstop : (d.chan u).stopping = false) (hseg : d.segState u = 0) (hmark : d.flag 0x6010 0x0A u = false) :
    Completes (.canEnable t) s (d.Wrote q o fun y =>
      ((((y.set 0x6010 0x01 1 u).set 0x6000 0x04 (setBit (d.obj 0x6000 0x04) (u - 21) true)).set 0x6010 0x05 0 u).set 0x6010 0x06 0 u).xcvr u) := by
  refine wrote h hw (by unfold exec; rfl) _ _ hi hj (by omega) (by omega) (by omega) (by omega) ?_
  obtain ⟨y, hy⟩ : ∃ y, ((d.writeBase q o).set 0x6010 0x01 1 u).set 0x6000 0x04 (setBit (d.obj 0x6000 0x04) (u - 21) true) = y := ⟨_, rfl⟩
  have hobj : ∀ {i j : Nat}, i < 65536 → j < 256 → ¬ (i = 0x6010 ∧ j = 0x01) → ¬ (i = 0x6000 ∧ j = 0x04) → i ≠ 0x1041 → i ≠ 0x9400 → i ≠ 0x9401 → sentField i j = false → y.obj i j u = d.obj i j u := by
    intro i j hi hj h1 h4 h1041 h9400 h9401 hs
    rw [← hy, obj_set_field _ (by omega) (by omega) hj hi h4, obj_set_field _ (by omega) (by omega) hj hi h1, writeBase_obj _ _ _ _ _ _ _ hi hj h1041 (by omega) hs]
  have hmark' : y.flag 0x6010 0x0A u = false := (congrArg (· != 0) (hobj (by omega) (by omega) (by omega) (by omega) (by omega) (by omega) (by omega) rfl)).trans hmark
  have hseg' : y.segState u = 0 := (hobj (by omega) (by omega) (by omega) (by omega) (by omega) (by omega) (by omega) rfl).trans hseg
  have hstop' : (y.chan u).stopping = false := by
    rw [← hy]
    exact (congrArg ChanSt.stopping (writeBase_chan d q o u)).trans hstop
  have hcount : (d.writeBase q o).obj 0x6000 0x04 = d.obj 0x6000 0x04 := writeBase_obj _ _ _ _ _ _ _ (by omega) (by omega) (by omega) (by omega) rfl
  have hseg2 : ((y.set 0x6010 0x05 0 u).set 0x6010 0x06 0 u).segState u = 0 :=
    (obj_set_field _ (by omega) (by omega) (by omega) (by omega) (by omega)).trans ((obj_set_field _ (by omega) (by omega) (by omega) (by omega) (by omega)).trans hseg')
  have hflag := writeBase_flag d q o 0x6010 0x01 u 0 (by omega) (by omega) (by omega) (by omega)
  show (if q.value = 1 then (d.writeBase q o).canEnable u else (d.writeBase q o).canDisable u) = _
  rw [if_pos hv, hy]
  unfold Dev.canEnable
  simp only [hflag, hoff, hcount, hy, hstop', hmark', hseg2, Bool.false_eq_true, if_false, Nat.zero_ne_one, OfNat.zero_ne_ofNat, or_self]

theorem canStop_writes (hw : d.takesWrite q o .canStop u = true) (hi : recIndex q.bytes = 0x6010) (hj : recSub q.bytes = 0x01) (hv : q.value = 0)
    (h1 : 1 ≤ d.canState u) (h3 : d.canState u ≤ 3) (hpow : d.unitPowered u = true) :
    Completes (.canStop t) s (d.Wrote q o fun y => ((y.set 0x6010 0x01 0 u).set 0x6000 0x04 (setBit (d.obj 0x6000 0x04) (u - 21) false)).setChan u { d.chan u with stopping := true }) := by
  refine wrote h hw (by unfold exec; rfl) _ _ hi hj (by omega) (by omega) (by omega) (by omega) ?_
  have hcount : (d.writeBase q o).obj 0x6000 0x04 = d.obj 0x6000 0x04 := writeBase_obj _ _ _ _ _ _ _ (by omega) (by omega) (by omega) (by omega) rfl
  obtain ⟨y, hy⟩ : ∃ y, ((d.writeBase q o).set 0x6010 0x01 0 u).set 0x6000 0x04 (setBit (d.obj 0x6000 0x04) (u - 21) false) = y := ⟨_, rfl⟩
  have hstate : y.canState u = d.canState u := by
    rw [← hy]
    exact (obj_set_field _ (by omega) (by omega) (by omega) (by omega) (by omega)).trans ((obj_set_field _ (by omega) (by omega) (by omega) (by omega) (by omega)).trans
      (writeBase_canState d q o u))
  have hpow' : y.unitPowered u = true := by
    rw [← hy]
    exact (writeBase_powered d q o u).trans hpow
  have hchan : y.chan u = d.chan u := by
    rw [← hy]
    exact writeBase_chan d q o u
  show (if q.value = 1 then (d.writeBase q o).canEnable u else (d.writeBase q o).canDisable u) = _
  rw [if_neg (by omega), hy]
  unfold Dev.canDisable
  simp only [hcount, hy, hstate]
  split
  · omega
  · omega
  · omega
  · rw [if_pos hpow', hchan]

section
variable (hw : d.takesWrite q o .canBufferCancel u = true) (hi : recIndex q.bytes = 0x6020) (hj : recSub q.bytes = 0x0A) (hv : q.value = 1) (hnow : s.startsNow d = d)
include hw hi hj hv hnow

theorem canBufferCancel_writes {f : Dev → Dev} (hf : (d.writeBase q o).bufCancel u q.record = f (d.writeBase q o)) : Completes (.canBufferCancel t) s (d.Wrote q o f) := by
  have hexec : exec (.canBufferCancel t) s = s.write t .canBufferCancel := by
    obtain ⟨hd, -⟩ := h
    have hstarts : s.startsNow (s.dev.advance t).catchUp = (s.dev.advance t).catchUp := by
      rw [show (s.dev.advance t).catchUp = d from hd]
      exact hnow
    unfold exec execCanBufferCancel State.write State.cmd
    simp only [hstarts]
  refine wrote h hw hexec _ _ hi hj (by omega) (by omega) (by omega) (by omega) (Eq.trans ?_ hf)
  show (if q.value = 1 then (d.writeBase q o).bufCancel u q.record else d.writeBase q o) = _
  exact if_pos hv

theorem canBufferCancel_empty (h0 : d.bufState u q.record = 0) : Completes (.canBufferCancel t) s (d.Wrote q o fun y => y) :=
  canBufferCancel_writes h hw hi hj hv hnow (if_pos ((writeBase_bufState d q o u q.record).trans h0))

theorem canBufferCancel_pending (h1 : d.bufState u q.record = 1) (hearly : (d.chan u).startsIn ≠ some (kernelIndex d.now)) :
    Completes (.canBufferCancel t) s (d.Wrote q o fun y => ((y.bufEmpty u q.record 2).inc 0x6030 0x10 u).canPump) := by
  refine canBufferCancel_writes h hw hi hj hv hnow ?_
  unfold Dev.bufCancel
  simp only [writeBase_bufState, writeBase_chan, writeBase_now, h1]
  rw [if_neg (by omega), if_neg (by simp [hearly])]

theorem canBufferCancel_late (h1 : d.bufState u q.record = 1) (hstarts : (d.chan u).startsIn = some (kernelIndex d.now)) (hmay : d.canMayStart u = true)
    (hsel : d.canSelect u = some q.record) :
    Completes (.canBufferCancel t) s (d.Wrote q o fun y => y.setBuf u q.record { d.buf u q.record with held := some none, heldCall := false }) := by
  refine canBufferCancel_writes h hw hi hj hv hnow ?_
  unfold Dev.bufCancel
  simp only [writeBase_bufState, writeBase_chan, writeBase_now, writeBase_canMayStart, writeBase_canSelect, writeBase_buf, h1]
  rw [if_neg (by omega), if_pos (.inr (by simp [hstarts, hmay, hsel]))]

theorem canBufferCancel_running (h3 : d.bufState u q.record = 3) :
    Completes (.canBufferCancel t) s (d.Wrote q o fun y => y.setBuf u q.record { d.buf u q.record with held := some none, heldCall := false }) := by
  refine canBufferCancel_writes h hw hi hj hv hnow ?_
  unfold Dev.bufCancel
  simp only [writeBase_bufState, writeBase_buf, h3]
  rw [if_neg (by omega), if_pos (.inl trivial)]

end

section
variable (hw : d.takesWrite q o .timeMasterEnable u = true) (hi : recIndex q.bytes = 0x8060) (hj : recSub q.bytes = 0x01)
include hw hi hj

theorem timeMasterEnable_on (hv : q.value = 1) (hoff : d.flag 0x8060 0x01 u = false) :
    Completes (.timeMasterEnable t) s (d.Wrote q o fun y => (y.set 0x8060 0x01 1 u).set 0x8060 0x03 0 u) := by
  refine wrote h hw (by unfold exec; rfl) _ _ hi hj (by omega) (by omega) (by omega) (by omega) ?_
  have hflag := (writeBase_flag d q o 0x8060 0x01 u 0 (by omega) (by omega) (by omega) (by omega)).trans hoff
  simp [Dev.apply, Dev.busApply, hv, hflag]

theorem timeMasterEnable_off (hv : q.value = 0) : Completes (.timeMasterEnable t) s (d.Wrote q o fun y => y.set 0x8060 0x01 0 u) := by
  refine wrote h hw (by unfold exec; rfl) _ _ hi hj (by omega) (by omega) (by omega) (by omega) ?_
  simp [Dev.apply, Dev.busApply, hv]

end

section
variable (hw : d.takesWrite q o .linStop u = true) (hi : recIndex q.bytes = 0x6810) (hj : recSub q.bytes = 0x01) (hv : q.value = 0)
include hw hi hj hv

theorem linStop_writes {f : Dev → Dev} {y : Dev} (hy : ((d.writeBase q o).set 0x6810 0x01 0 u).set 0x6800 0x04 (setBit (d.obj 0x6800 0x04) (u - 45) false) = y)
    (hf : (if (d.lin u).frame.isSome then y.setLin u { d.lin u with stopping := true } else (y.linRest u 0).xcvr u) = f (d.writeBase q o)) :
    Completes (.linStop t) s (d.Wrote q o f) := by
  refine wrote h hw (by unfold exec; rfl) _ _ hi hj (by omega) (by omega) (by omega) (by omega) (Eq.trans ?_ hf)
  have hcount : (d.writeBase q o).obj 0x6800 0x04 = d.obj 0x6800 0x04 := writeBase_obj _ _ _ _ _ _ _ (by omega) (by omega) (by omega) (by omega) rfl
  have hlin : y.lin u = d.lin u := by
    rw [← hy]
    exact writeBase_lin d q o u
  show (if q.value = 1 then (d.writeBase q o).linEnable u else (d.writeBase q o).linDisable u) = _
  rw [if_neg (by omega)]
  unfold Dev.linDisable
  simp only [hcount, hy, hlin]

end

theorem linTableRequest_writes (hw : d.takesWrite q o .linTableRequest u = true) (hi : recIndex q.bytes = 0x6810) (hj : recSub q.bytes = 0x07) :
    Completes (.linTableRequest t) s (d.Wrote q o fun y => (y.set 0x6810 0x07 q.value u).setLin u { d.lin u with request := if q.value = 0xFF then none else some q.value }) := by
  refine wrote h hw (by unfold exec; rfl) _ _ hi hj (by omega) (by omega) (by omega) (by omega) ?_
  show ((d.writeBase q o).set 0x6810 0x07 q.value u).setLin u { (d.writeBase q o).lin u with request := _ } = _
  rw [writeBase_lin]

theorem scriptRequest_writes (hw : d.takesWrite q o .transceiverScriptRequest u = true) (hi : recIndex q.bytes = 0x6880) (hj : recSub q.bytes = 0x07) (hv : q.value = 1) :
    Completes (.transceiverScriptRequest t) s (d.Wrote q o fun y => y.scriptRequest u false) := by
  refine wrote h hw (by unfold exec; rfl) _ _ hi hj (by omega) (by omega) (by omega) (by omega) ?_
  simp [Dev.apply, Dev.busApply, hv]

end

/-- Settles O35: each write by its effect on the device that has taken it. -/
theorem busWrites : Obligations.BusWrites := by
  unfold Obligations.BusWrites
  intro s t d q o u h _
  exact ⟨canEnable_writes h, canStop_writes h, fun hw hi hj hv hnow => ⟨canBufferCancel_empty h hw hi hj hv hnow, canBufferCancel_pending h hw hi hj hv hnow,
      canBufferCancel_late h hw hi hj hv hnow, canBufferCancel_running h hw hi hj hv hnow⟩,
    fun hw hi hj => ⟨timeMasterEnable_on h hw hi hj, timeMasterEnable_off h hw hi hj⟩,
    fun hw hi hj hv => ⟨fun f hf => linStop_writes h hw hi hj hv rfl (if_pos (by rw [hf]; rfl)), fun hf => linStop_writes h hw hi hj hv rfl (if_neg (by simp [hf]))⟩,
    linTableRequest_writes h, scriptRequest_writes h⟩

end Sys2Proof.Machine

/-! SUPPORT. PDU jobs of the Rose (R266 to R273, R282, R407), and O36. -/
namespace Sys2Proof.Machine

/-! Enabled records. -/

section
variable {β : Type} [DecidableEq β]

/-- A part of a table that does not hold a key is kept when the key is written. -/
theorem filter_tput (f : Nat → β) (m : Tbl β) (k : Nat) (v : β) (p : Nat × β → Bool) (h : ∀ w, p (k, w) = false) : (tput f m k v).filter p = m.filter p := by
  have herase : (terase m k).filter p = m.filter p := by
    unfold terase
    rw [List.filter_filter]
    refine List.filter_congr fun e _ => ?_
    by_cases he : e.1 = k
    · rw [show e = (k, e.2) from Prod.ext he rfl, h]
      rfl
    · simp [he]
  have hinsert : ∀ l : Tbl β, (tinsert l k v).filter p = l.filter p := fun l => by
    induction l with
    | nil => simp [tinsert, h]
    | cons e l ih =>
      obtain ⟨a, w⟩ := e
      unfold tinsert
      split
      · rw [List.filter_cons, if_neg (by simp [h])]
      · rw [List.filter_cons, List.filter_cons, ih]
  rw [tput_eq]
  split
  · exact herase
  · exact (hinsert _).trans herase

end

section
variable (d : Dev)

theorem enabledRecs_set {i j v u r idx : Nat} (hi : i < 65536) (hj : j < 256) (hidx : idx < 65536) (h : ¬ (i = idx ∧ j = 1)) : (d.set i j v u r).enabledRecs idx = d.enabledRecs idx := by
  unfold Dev.enabledRecs
  refine congrArg _ (filter_tput _ _ _ _ _ fun w => ?_)
  have hkey : objKey i j u r % 2 ^ 32 ≠ idx * 256 + 1 := by
    unfold objKey
    omega
  dsimp only
  rw [beq_false_of_ne hkey]
  rfl

/-- Objects of different subindexes are different, whatever the rest of their places. -/
theorem obj_set_sub {i j v u r i' j' u' r' : Nat} (hj : j < 256) (hj' : j' < 256) (h : j' ≠ j) : (d.set i j v u r).obj i' j' u' r' = d.obj i' j' u' r' := by
  simp only [Dev.obj, Dev.set_store]
  refine tget_tput_ne _ _ _ _ _ ?_
  unfold objKey
  omega

/-! Matched PDUs (R272, R282). -/

/-- A counter of a definition changes neither the signals nor the routes of one. -/
theorem definitionCounter_keeps {j : Nat} (v r r' : Nat) (h5 : 5 ≤ j) (hj : j < 256) :
    (d.set 0x7100 j v 0 r').signalsOf r = d.signalsOf r ∧ (d.set 0x7100 j v 0 r').frameRoutes r = d.frameRoutes r := by
  constructor
  · unfold Dev.signalsOf Dev.signalsOn Dev.sig
    rw [enabledRecs_set _ (by omega) hj (by omega) (by omega), enabledRecs_set _ (by omega) hj (by omega) (by omega)]
    exact List.filter_congr fun n _ => by rw [obj_set_sub _ hj (by omega) (by omega)]
  · unfold Dev.frameRoutes Dev.rt
    rw [enabledRecs_set _ (by omega) hj (by omega) (by omega)]
    exact List.filter_congr fun n _ => by rw [obj_set_sub _ hj (by omega) (by omega), obj_set_sub _ hj (by omega) (by omega)]

/-- A PDU that is counted and checked, and goes nowhere. -/
theorem pduJob_counts {p : RxPdu} {u : Option Nat} {r : Nat} (hp : d.matchPdu p = some r) (hsec : d.flag 0x7810 0x20 0 r = false) (hprot : d.pex 0x10 r = 0)
    (hsig : d.signalsOf r = []) (hroute : d.frameRoutes r = []) :
    d.pduJob p u = (if frameLen p.frame = d.pdef 0x08 r then d.inc64 0x7100 0x0C 0 r else (d.inc64 0x7100 0x0C 0 r).inc 0x7100 0x0E 0 r, 50) := by
  have hlen : (d.inc64 0x7100 0x0C 0 r).pdef 0x08 r = d.pdef 0x08 r := obj_inc64_field d (by omega) (by omega) (by omega) (by omega) (by omega)
  obtain ⟨y, hy⟩ : ∃ y, (if frameLen p.frame ≠ d.pdef 0x08 r then (d.inc64 0x7100 0x0C 0 r).inc 0x7100 0x0E 0 r else d.inc64 0x7100 0x0C 0 r) = y := ⟨_, rfl⟩
  have hkept : y.signalsOf r = [] ∧ y.frameRoutes r = [] ∧ y.flag 0x7810 0x20 0 r = false ∧ y.pex 0x10 r = 0 := by
    have hfirst := definitionCounter_keeps d (j := 0x0C) ((d.obj 0x7100 0x0C 0 r + 1) % 2 ^ 64) r r (by omega) (by omega)
    have hsecond := definitionCounter_keeps (d.inc64 0x7100 0x0C 0 r) (j := 0x0E) (((d.inc64 0x7100 0x0C 0 r).obj 0x7100 0x0E 0 r + 1) % 2 ^ 32) r r (by omega) (by omega)
    have hobj : ∀ j, j < 256 → y.obj 0x7810 j 0 r = d.obj 0x7810 j 0 r := fun j hj => by
      rw [← hy]
      split
      · rw [obj_inc_field _ (by omega) (by omega) hj (by omega) (by omega), obj_inc64_field _ (by omega) (by omega) hj (by omega) (by omega)]
      · rw [obj_inc64_field _ (by omega) (by omega) hj (by omega) (by omega)]
    refine ⟨?_, ?_, (congrArg (· != 0) (hobj _ (by omega))).trans hsec, (hobj _ (by omega)).trans hprot⟩
    · rw [← hy]
      split
      · exact (hsecond.1.trans hfirst.1).trans hsig
      · exact hfirst.1.trans hsig
    · rw [← hy]
      split
      · exact (hsecond.2.trans hfirst.2).trans hroute
      · exact hfirst.2.trans hroute
  obtain ⟨hysig, hyroute, hysec, hyprot⟩ := hkept
  have hcost : y.checkCost r p.frame.data.length = 0 := by
    unfold Dev.checkCost
    simp [hysec, hyprot]
  have hsecure : y.secureCheck r p.frame.data = (y, true) := if_pos (ne_true_of_eq_false hysec)
  have hprotect : y.protectCheck r p.frame.data = (y, true) := if_pos hyprot
  have hjob : d.pduJob p u = (y, 50) := by
    unfold Dev.pduJob
    rw [hp]
    simp only [hlen, hy, hcost, hsecure, hprotect, hysig, hyroute, Dev.extractAll, Dev.frameRoutesRun, if_true, not_true_eq_false, if_false]
    rfl
  rw [hjob, ← hy, ite_not]

/-! Data of a destination (R282). -/

theorem fitData_length (r : Nat) (b : Bytes) : (d.fitData r b).length = d.destLen r b.length := by
  unfold Dev.fitData
  dsimp only
  rw [List.length_append, List.length_take, List.length_replicate]
  omega

theorem fitData_byte {r k : Nat} (b : Bytes) (hk : k < d.destLen r b.length) : byteAt (d.fitData r b) k = if k < b.length then byteAt b k else d.pdef 0x09 r % 256 := by
  unfold byteAt Dev.fitData
  dsimp only
  split
  · next hin =>
    rw [List.getD_append _ _ _ _ (by rw [List.length_take]; omega)]
    simp [List.getD_eq_getElem?_getD, hk]
  · next hout =>
    rw [List.getD_append_right _ _ _ _ (by rw [List.length_take]; omega), List.length_take, List.getD_replicate _ (by omega)]
    simp

/-! The start of a job (R316). -/

theorem pushP_now (j : Nat) : (d.pushP j).now = d.now := by
  have hpeak : ∀ (y : Dev) v, (y.peak 0x7800 0x02 v).now = y.now := fun y v => by unfold Dev.peak; split <;> rfl
  unfold Dev.pushP
  split
  · simp only
    split <;> rfl
  · split
    · rfl
    · exact hpeak _ _

theorem changeTrigger_now (r : Nat) : (d.changeTrigger r).now = d.now := by
  unfold Dev.changeTrigger
  split
  · rfl
  · simp only
    split
    · exact pushP_now d r
    · split
      · exact pushP_now d r
      · split
        · rfl
        · split
          · exact pushP_now d r
          · rfl

theorem expire_now (n : Nat) : (d.expire n).now = d.now := by
  unfold Dev.expire
  split
  · rfl
  · exact foldl_leaves Dev.now _ (fun d r => changeTrigger_now d _) _ _

theorem jobStart_now : d.jobStart.now = d.now := by
  unfold Dev.jobStart
  split
  · exact foldl_leaves Dev.now _ expire_now _ _
  · rfl

end

section
variable {s : State} {t : Nat} {d j : Dev} (h : s.Tick t d) (hj : d.jobStart = j)
include h hj

theorem rosePduJob_stays {lost : List Nat} (hlost : ∀ k ∈ lost, k < 256) (hnext : j.roseNext = none ∨ j.roseNext = some 41 ∨ j.roseNext = some 40 ∧ j.rose.eq = [] ∧ lost = []) :
    Becomes (.rosePduJob ⟨t, lost⟩) s (j.usePorts [2]) := by
  refine becomes h (by unfold exec execRosePduJob State.portCmd; rfl) (by simpa using hlost) ?_
  refine congrArg (Dev.usePorts · [2]) ?_
  dsimp only
  rw [hj]
  rcases hnext with hnone | hp | ⟨he, hempty, rfl⟩
  · rw [hnone]
  · rw [hp]
    rfl
  · rw [he]
    have hlines : j.cmacLinesLost [] = j := rfl
    simp [hlines, hempty]

section
variable {q : Nat} {x : InPdu} {l : List InPdu} {lost : List Nat} (hnext : j.roseNext = some q) (hlost : ∀ k ∈ lost, k < 256) {w : Dev} (hw : j.cmacLinesLost lost = w)
  (hingress : w.ingress q = x :: l) {y : Dev} (hy : ((w.setIngress q l).inc64 0x7010 0x05 (q + 21)).refill q = y)
include hnext hlost hw hingress hy

theorem rosePduJob_can (hq : q < 24) {p : RxPdu} (hp : { kind := 0, ident := x.frame.ident, busIdent := x.frame.ident, source := (unitGI (q + 21)).2, place := (unitGI (q + 21)).2, busId := 0, frame := x.frame, fix := clk16 x.zt, at_ := tget (fun _ => 0) w.rose.headAt q } = p) :
    Becomes (.rosePduJob ⟨t, lost⟩) s (((y.pduJob p (some (q + 21))).1.jobDone q (y.pduJob p (some (q + 21))).2).usePorts [2]) := by
  refine becomes h (by unfold exec execRosePduJob State.portCmd; rfl) (by simpa using hlost) ?_
  refine congrArg (Dev.usePorts · [2]) ?_
  have hcan : decide (24 ≤ q) = false := decide_eq_false (by omega)
  dsimp only
  rw [hj, hnext]
  dsimp only
  rw [if_pos (by omega), if_pos (by omega), hw, hingress]
  dsimp only
  rw [hy, hcan, ← hp]
  rfl

theorem rosePduJob_lin (hq : 24 ≤ q) (h40 : q < 40) {p : RxPdu} (hp : { kind := 1, ident := x.frame.ident % 64, busIdent := x.frame.ident % 64, source := (unitGI (q + 21)).2, place := (unitGI (q + 21)).2, busId := 0, frame := { x.frame with ident := x.frame.ident % 64 }, fix := clk16 x.zt, at_ := tget (fun _ => 0) w.rose.headAt q } = p) :
    Becomes (.rosePduJob ⟨t, lost⟩) s (((y.pduJob p (some (q + 21))).1.jobDone q (y.pduJob p (some (q + 21))).2).usePorts [2]) := by
  refine becomes h (by unfold exec execRosePduJob State.portCmd; rfl) (by simpa using hlost) ?_
  refine congrArg (Dev.usePorts · [2]) ?_
  have hlin : decide (24 ≤ q) = true := decide_eq_true hq
  dsimp only
  rw [hj, hnext]
  dsimp only
  rw [if_pos h40, if_pos (by omega), hw, hingress]
  dsimp only
  rw [hy, hlin, ← hp]
  rfl

end

theorem rosePduJob_entry {e : EPdu} {l : List EPdu} (hnext : j.roseNext = some 40) (he : j.rose.eq = e :: l) {p : RxPdu} {y : Dev}
    (hy : (j.roseUpd fun x => { x with eq := l, eqAt := j.now }) = y)
    (hp : { kind := e.kind, ident := e.ident, busIdent := e.srcId, source := 0xE0, place := e.cont, busId := e.busId, frame := e.frame, fix := e.fix, at_ := j.rose.eqAt } = p) :
    Becomes (.rosePduJob ⟨t, []⟩) s (((y.pduJob p none).1.jobDone 40 (y.pduJob p none).2).usePorts [2]) := by
  refine becomes h (by unfold exec execRosePduJob State.portCmd; rfl) rfl ?_
  refine congrArg (Dev.usePorts · [2]) ?_
  have hlines : j.cmacLinesLost [] = j := rfl
  dsimp only
  rw [hj, hnext]
  dsimp only
  rw [if_pos (show 40 < 41 by omega), if_neg (show ¬ 40 < 40 by omega), if_pos rfl, hlines, he]
  dsimp only
  rw [hy, hp]

theorem roseUnpackJob_stays (hnext : j.roseNext ≠ some 40 ∨ j.rose.eq ≠ []) : Becomes (.roseUnpackJob t) s (j.usePorts [2]) := by
  refine becomes h (by unfold exec execRoseUnpackJob State.portCmd; rfl) rfl ?_
  refine congrArg (Dev.usePorts · [2]) ?_
  dsimp only
  rw [hj]
  split
  · next h40 hempty _ => exact absurd hnext (by simp [h40, hempty])
  · rfl

theorem roseUnpackJob_unpacks {f : Frame} {l : List Frame} (hnext : j.roseNext = some 40) (he : j.rose.eq = []) (hf : j.fab.toRose = f :: l) :
    Becomes (.roseUnpackJob t) s ((((j.fabUpd fun x => { x with toRose := l }).unpack f).jobDone 40 (50 + 8 * cellsOf f.len)).usePorts [2]) := by
  refine becomes h (by unfold exec execRoseUnpackJob State.portCmd; rfl) rfl ?_
  refine congrArg (Dev.usePorts · [2]) ?_
  dsimp only
  rw [hj, hnext, he, hf]
  rfl

theorem roseEmissionJob_stays (hnext : j.roseNext ≠ some 41) : Becomes (.roseEmissionJob t) s (j.usePorts [2]) := by
  refine becomes h (by unfold exec execRoseEmissionJob State.portCmd; rfl) rfl ?_
  refine congrArg (Dev.usePorts · [2]) ?_
  dsimp only
  rw [hj]
  split
  · next h41 _ => exact absurd h41 hnext
  · rfl

end

/-- Settles O36: each job by the queue that the Rose takes next; a PDU by its match. -/
theorem pduJobs : Obligations.PduJobs := by
  unfold Obligations.PduJobs
  intro s t d j h hj
  refine ⟨fun hnone => ⟨rosePduJob_stays h hj nofun (.inl hnone), roseUnpackJob_stays h hj (.inl (by simp [hnone])), roseEmissionJob_stays h hj (by simp [hnone])⟩,
    fun hoff => ⟨?_, ?_⟩, fun hfresh => ?_, fun q x l lost hnext hq hingress hlost => rosePduJob_can h hj hnext hlost rfl hingress rfl hq rfl,
    fun q x l hnext hq h40 hingress => rosePduJob_lin h hj hnext (lost := []) nofun rfl hingress rfl hq h40 rfl, ⟨rfl, fun k hk => ?_⟩,
    fun e l hnext he => ⟨rosePduJob_entry h hj hnext he ?_ rfl, roseUnpackJob_stays h hj (.inr (by simp [he]))⟩,
    fun f l hnext he hf => ⟨roseUnpackJob_unpacks h hj hnext he hf, rosePduJob_stays h hj nofun (.inr (.inr ⟨hnext, he, rfl⟩))⟩,
    fun hnext => ⟨rosePduJob_stays h hj nofun (.inr (.inl hnext)), roseUnpackJob_stays h hj (.inl (by simp [hnext]))⟩,
    fun p u hp => ⟨?_, fun hoff => ?_, fun hon hcont hkind => ?_⟩, fun p u r => pduJob_counts d,
    fun r b => ⟨fitData_length d r b, fun hlen => if_pos hlen, fun k hk => fitData_byte d b hk⟩⟩
  · rw [← hj]
    exact if_neg (by simp [hoff])
  · exact if_neg (by simp [hoff])
  · rw [← hj]
    unfold Dev.jobStart Dev.expiriesDue
    rw [hfresh]
    exact ite_self _
  · unfold Dev.cmacLinesLost
    by_cases h0 : j.cmacRefs k = 0
    · simp [h0]
    · simp [h0, hk]
  · rw [← jobStart_now d, hj]
  · unfold Dev.pduJob
    rw [hp]
    rfl
  · unfold Dev.pduJob
    rw [hp]
    exact if_neg (by simp [hoff])
  · unfold Dev.pduJob
    rw [hp]
    dsimp only
    unfold Dev.undefinedPdu
    dsimp only
    rw [if_pos hon, if_pos ⟨hcont, hkind⟩]

end Sys2Proof.Machine

/-! SUPPORT. Emission jobs, triggers and the queue P (R266, R287, R293, R307 to R310), and O37. -/
namespace Sys2Proof.Machine

section
variable {s : State} {t j : Nat} {l : List Nat} {d x : Dev} (h : s.Tick t d) (hx : d.jobStart = x) (hnext : x.roseNext = some 41) (hp : x.rose.pq = j :: l)
include h hx hnext hp

theorem roseEmissionJob_becomes {y : Dev} (hy : (if j < 8192 then (x.popP.emission j).1.jobDone 41 (x.popP.emission j).2
    else (x.popP.sendCont (j - 8192)).1.jobDone 41 (50 + (x.popP.sendCont (j - 8192)).2)) = y) : Becomes (.roseEmissionJob t) s (y.usePorts [2]) := by
  refine becomes h (by unfold exec execRoseEmissionJob State.portCmd; rfl) rfl ?_
  refine congrArg (Dev.usePorts · [2]) ?_
  dsimp only
  rw [hx, hnext, hp]
  exact hy

end

section
variable (d : Dev)

theorem popP_next {j : Nat} {l : List Nat} (hpend : d.rose.pend = []) (hp : d.rose.pq = j :: l) : d.popP.rose.pq = l := by
  unfold Dev.popP RoseSt.fillP Dev.roseUpd
  simp [hpend, hp]

theorem pushP_queues {j : Nat} (hq : d.rose.pq.contains j = false) (hpend : d.rose.pend.contains j = false) (hlen : d.rose.pq.length < 1024) : (d.pushP j).rose.pq = d.rose.pq ++ [j] := by
  unfold Dev.pushP
  rw [if_neg (by rw [hq, hpend]; exact Bool.false_ne_true), if_neg (by omega)]
  exact (congrArg (fun y : Dev => y.rose.pq) (peak_rest (d.roseUpd fun x => { x with pq := x.pq ++ [j] }) _ _ _ _ _) :)

theorem pushP_merges {j : Nat} (hq : d.rose.pq.contains j = true) (hcont : 8192 ≤ j) : d.pushP j = d.inc64 0x7800 0x03 := by
  unfold Dev.pushP
  rw [if_pos (by rw [hq]; rfl)]
  simp only
  rw [if_neg (by omega)]

theorem emission_disabled {r : Nat} (hoff : d.flag 0x7100 0x01 0 r = false) : d.emission r = (d, 50) := if_pos (ne_true_of_eq_false hoff)

/-- An emission of a destination without signal routes sends its fill bytes. -/
theorem emission_fills {r : Nat} (hon : d.flag 0x7100 0x01 0 r = true) (hroutes : d.routesTo r = []) (hsec : d.withheldSec r = false) {b : Bytes}
    (hb : b = List.replicate (d.pdef 0x08 r) (BitVec.ofNat 8 (d.pdef 0x09 r))) {y : Dev}
    (hy : (((d.inc64 0x7810 0x03 0 r).set 0x7810 0x06 d.ztTime 0 r).roseUpd fun x => { x with lastStart := tput (fun _ => none) x.lastStart r (some d.lt) }) = y) {z : Dev × Placed × Nat}
    (hz : y.placePdu r (d.secure r (d.protect r b)) none { busIdent := none, source := 0xF0, fix := clk16 d.sex.zt.val } false false = z) :
    (d.emission r).1 = ((z.1.countPlaced r [] z.2.1).protectNext r).secureNext r := by
  have hvalid : d.validityBits b [] = b := rfl
  unfold Dev.emission
  simp only [hroutes, List.any_nil, List.foldl_nil, ← hb, hvalid, hy, hz]
  rw [if_neg (not_not.2 hon), if_neg Bool.false_ne_true, if_neg (ne_true_of_eq_false hsec)]

/-! Change triggers (R308). -/

theorem changeTrigger_first {r : Nat} (hmode : 2 ≤ d.pex 0x01 r) (hlast : tget (fun _ => none) d.rose.lastStart r = none) : d.changeTrigger r = d.pushP r := by
  unfold Dev.changeTrigger
  rw [if_neg (by omega), hlast]

theorem changeTrigger_defers {r a : Nat} (hmode : 2 ≤ d.pex 0x01 r) (hlast : tget (fun _ => none) d.rose.lastStart r = some a) (hearly : d.lt < a + d.pex 0x02 r * perUs)
    (hflag : d.flag 0x7810 0x07 0 r = false) (hq : d.rose.pq.contains r = false) (hpend : d.rose.pend.contains r = false) :
    d.changeTrigger r = (d.set 0x7810 0x07 1 0 r).roseUpd fun x => { x with release := tput (fun _ => 0) x.release r (a + d.pex 0x02 r * perUs) } := by
  unfold Dev.changeTrigger
  rw [if_neg (by omega), hlast]
  dsimp only
  rw [if_neg (by omega), if_neg (ne_true_of_eq_false hflag), if_neg (by rw [hq, hpend]; exact Bool.false_ne_true)]

end

section
variable {s : State} {t : Nat} {d : Dev} (h : s.Tick t d)
include h

section
variable {r e : Nat} (hr : d.rose.release = [(r, e)])
include hr

theorem deferredRelease_due (hflag : d.flag 0x7810 0x07 0 r = true) (he : e ≤ d.lt) : Becomes (.deferredChangeRelease t) s
    (((d.set 0x7810 0x07 0 0 r).roseUpd fun x => { x with release := tput (fun _ => 0) x.release r 0 }).pushP r) := by
  refine becomes h (by unfold exec; rfl) rfl ?_
  rw [hr, List.find?_cons_of_pos (by simp [hflag, he])]

theorem deferredRelease_early (he : d.lt < e) : Becomes (.deferredChangeRelease t) s d := by
  refine becomes h (by unfold exec; rfl) rfl ?_
  rw [hr, List.find?_cons_of_neg (by simp [he])]
  rfl

end

section
variable {c : Nat} {e : ContEntry} (hc : d.rose.staged = [(c, [e])])
include hc

theorem collectionExpiry_due (hq : d.rose.pq.contains (8192 + c) = false) (hpend : d.rose.pend.contains (8192 + c) = false)
    (hat : tget (fun _ => 0) d.rose.stagedAt c + d.cont 0x0E c * perUs ≤ d.lt) : Becomes (.containerCollectionExpiry t) s (d.pushP (8192 + c)) := by
  refine becomes h (by unfold exec; rfl) rfl ?_
  rw [hc, List.find?_cons_of_pos]
  dsimp only
  rw [decide_eq_true hat, hq, hpend]
  rfl

theorem collectionExpiry_early (hat : d.lt < tget (fun _ => 0) d.rose.stagedAt c + d.cont 0x0E c * perUs) : Becomes (.containerCollectionExpiry t) s d := by
  refine becomes h (by unfold exec; rfl) rfl ?_
  rw [hc, List.find?_cons_of_neg]
  · rfl
  · dsimp only
    rw [decide_eq_false (by omega)]
    exact Bool.false_ne_true

end

end

/-- Settles O37: the queue P by its branches, an emission by what its destination holds. -/
theorem emissionJobs : Obligations.EmissionJobs := by
  unfold Obligations.EmissionJobs
  intro s t d x j l h hx
  refine ⟨fun hnext hp hj => roseEmissionJob_becomes h hx hnext hp (if_pos hj), fun hnext hp hj => roseEmissionJob_becomes h hx hnext hp (if_neg (by omega)),
    fun q hnext hq => roseEmissionJob_stays h hx (by simp [hnext, hq]), popP_next d, fun r _ => emission_disabled d,
    fun r _ hon hroutes hsec b hb => emission_fills d hon hroutes hsec hb rfl rfl, pushP_queues d, pushP_merges d,
    fun r _ => ⟨fun hmode => if_pos hmode, changeTrigger_first d, fun a => changeTrigger_defers d⟩,
    fun r e hr => ⟨deferredRelease_due h hr, deferredRelease_early h hr⟩,
    fun c e hc hq hpend => ⟨collectionExpiry_due h hc hq hpend, collectionExpiry_early h hc⟩, fun c hempty => ?_⟩
  unfold Dev.sendCont
  simp only [hempty]
  rfl

end Sys2Proof.Machine

/-! SUPPORT. Signals (R275 to R281, R315 to R318), and O40. -/
namespace Sys2Proof.Machine

/-! Positions (R276, R277). -/

theorem bePositions_length (n p : Nat) : (bePositions n p).length = n := by
  induction n generalizing p with
  | zero => rfl
  | succ n ih => rw [bePositions, List.length_cons, ih]

theorem bitsAt_lt (b : Bytes) (l : List Nat) : bitsAt b l < 2 ^ l.length := by
  induction l with
  | nil => exact Nat.one_pos
  | cons p l ih =>
    have hcons : bitsAt b (p :: l) = 2 * bitsAt b l + b2n (pduBit b p) := rfl
    have hbit : b2n (pduBit b p) ≤ 1 := by cases pduBit b p <;> decide
    rw [hcons, List.length_cons, Nat.pow_succ]
    omega

/-! Fields of a signal. -/

section
variable (d : Dev) {n : Nat}

@[simp] theorem sig_setSig_same (j v : Nat) : (d.setSig j n v).sig j n = v := obj_set_same _ _ _ _ _ _
@[simp] theorem sfr_setSfr_same (j v : Nat) : (d.setSfr j n v).sfr j n = v := obj_set_same _ _ _ _ _ _

theorem sig_setSig_ne {i j : Nat} (v : Nat) {m : Nat} (hj : j < 256) (hi : i < 256) (h : i ≠ j) : (d.setSig j n v).sig i m = d.sig i m := obj_set_sub d hj hi h
theorem sfr_setSfr_ne {i j : Nat} (v : Nat) {m : Nat} (hj : j < 256) (hi : i < 256) (h : i ≠ j) : (d.setSfr j n v).sfr i m = d.sfr i m := obj_set_sub d hj hi h

/-- A field of a signal is beside every object of another index. -/
theorem sig_set {i j v u r k : Nat} (hn : n < 65536) (hi : i < 65536) (hj : j < 256) (hk : k < 256) (h : i ≠ 0x7200 ∧ i ≠ 0x7201) : (d.set i j v u r).sig k n = d.sig k n :=
  obj_set_field d hj hi hk (by omega) (by omega)

theorem sfr_set {i j v u r k : Nat} (hn : n < 65536) (hi : i < 65536) (hj : j < 256) (hk : k < 256) (h : i ≠ 0x7820 ∧ i ≠ 0x7821) : (d.set i j v u r).sfr k n = d.sfr k n :=
  obj_set_field d hj hi hk (by omega) (by omega)

theorem sig_setSfr {j v k m : Nat} (hn : n < 65536) (hm : m < 65536) (hj : j < 256) (hk : k < 256) : (d.setSfr j m v).sig k n = d.sig k n :=
  sig_set d hn (by omega) hj hk (by omega)

theorem sfr_setSig {j v k m : Nat} (hn : n < 65536) (hm : m < 65536) (hj : j < 256) (hk : k < 256) : (d.setSig j m v).sfr k n = d.sfr k n :=
  sfr_set d hn (by omega) hj hk (by omega)

/-! What triggers leave. -/

theorem pushP_obj (m : Nat) {i j : Nat} (w r : Nat) (hi : i < 65536) (hj : j < 256) (h4 : ¬ (i = 0x7810 ∧ j = 0x04)) (h0 : ¬ (i = 0x7800 ∧ 2 ≤ j ∧ j ≤ 4)) :
    (d.pushP m).obj i j w r = d.obj i j w r := by
  unfold Dev.pushP
  split
  · simp only
    rw [obj_inc64_field _ (by omega) (by omega) hj hi (by omega)]
    split
    · exact obj_inc_field d (by omega) (by omega) hj hi h4
    · rfl
  · split
    · exact obj_inc_field (d.roseUpd _) (by omega) (by omega) hj hi (by omega)
    · exact obj_peak_field (d.roseUpd _) (by omega) (by omega) hj hi (by omega)

theorem pushP_fresh (m : Nat) : (d.pushP m).rose.fresh = d.rose.fresh := by
  unfold Dev.pushP
  split
  · simp only
    split <;> rfl
  · split
    · rfl
    · exact (congrArg (fun y : Dev => y.rose.fresh) (peak_rest (d.roseUpd fun x => { x with pq := x.pq ++ [m] }) _ _ _ _ _) :)

/-- What a trigger may count or set: the merged jobs and the deferred change of a definition, and the counts of the queue P. -/
def triggerField (i j : Nat) : Bool := (i == 0x7810 && (j == 4 || j == 7)) || (i == 0x7800 && decide (2 ≤ j) && decide (j ≤ 4))

theorem changeTrigger_obj (m : Nat) {i j : Nat} (w r : Nat) (hi : i < 65536) (hj : j < 256) (h : triggerField i j = false) : (d.changeTrigger m).obj i j w r = d.obj i j w r := by
  have h4 : ¬ (i = 0x7810 ∧ j = 0x04) := by rintro ⟨rfl, rfl⟩; cases h
  have h7 : ¬ (i = 0x7810 ∧ j = 0x07) := by rintro ⟨rfl, rfl⟩; cases h
  have h0 : ¬ (i = 0x7800 ∧ 2 ≤ j ∧ j ≤ 4) := by rintro ⟨rfl, h2, h4⟩; simp [triggerField, h2, h4] at h
  have hpush := pushP_obj d m w r hi hj h4 h0
  unfold Dev.changeTrigger
  split
  · rfl
  · simp only
    split
    · exact hpush
    · split
      · exact hpush
      · split
        · rw [obj_inc64_field _ (by omega) (by omega) hj hi (by omega), obj_inc_field _ (by omega) (by omega) hj hi h4]
        · split
          · exact hpush
          · exact obj_set_field d (by omega) (by omega) hj hi h7

theorem changeTrigger_fresh (m : Nat) : (d.changeTrigger m).rose.fresh = d.rose.fresh := by
  unfold Dev.changeTrigger
  split
  · rfl
  · simp only
    split
    · exact pushP_fresh d m
    · split
      · exact pushP_fresh d m
      · split
        · rfl
        · split
          · exact pushP_fresh d m
          · rfl

theorem sigTriggers_obj (m : Nat) (test : Nat → Bool) {i j : Nat} (w r : Nat) (hi : i < 65536) (hj : j < 256) (h : triggerField i j = false) :
    (d.sigTriggers m test).obj i j w r = d.obj i j w r :=
  foldl_leaves (fun d : Dev => d.obj i j w r) _ (fun d _ => changeTrigger_obj d _ w r hi hj h) _ _

theorem sigTriggers_fresh (m : Nat) (test : Nat → Bool) : (d.sigTriggers m test).rose.fresh = d.rose.fresh :=
  foldl_leaves (fun d : Dev => d.rose.fresh) _ (fun d _ => changeTrigger_fresh d _) _ _

theorem sigTriggers_sig (m : Nat) (test : Nat → Bool) {k : Nat} (hn : n < 65536) (hk : k < 256) : (d.sigTriggers m test).sig k n = d.sig k n := by
  refine sigTriggers_obj d m test _ _ (by omega) hk ?_
  have h1 : (0x7200 + n / 32768 == 0x7810) = false := beq_false_of_ne (by omega)
  have h2 : (0x7200 + n / 32768 == 0x7800) = false := beq_false_of_ne (by omega)
  unfold triggerField
  rw [h1, h2]
  rfl

theorem sigTriggers_sfr (m : Nat) (test : Nat → Bool) {k : Nat} (hn : n < 65536) (hk : k < 256) : (d.sigTriggers m test).sfr k n = d.sfr k n := by
  refine sigTriggers_obj d m test _ _ (by omega) hk ?_
  have h1 : (0x7820 + n / 32768 == 0x7810) = false := beq_false_of_ne (by omega)
  have h2 : (0x7820 + n / 32768 == 0x7800) = false := beq_false_of_ne (by omega)
  unfold triggerField
  rw [h1, h2]
  rfl

/-! A mailbox that takes a value (R280, R315). -/

theorem partialWrite_integ (mem line : Nat) : { d.partialWrite mem line with store := [], integ := {} } = { d with store := [], integ := {} } := by
  unfold Dev.partialWrite
  simp only
  split <;> rfl

theorem partialWrite_obj (mem line : Nat) {i j : Nat} (w r : Nat) (hi : i < 65536) (hj : j < 256) (h : i ≠ 0xC000) : (d.partialWrite mem line).obj i j w r = d.obj i j w r := by
  unfold Dev.partialWrite
  simp only
  split
  · exact obj_inc64_field d (by omega) (by omega) hj hi (by omega)
  · rfl

/-- The device with the content of a mailbox, before its deadline starts. -/
def Dev.mailStored (d : Dev) (n v fix : Nat) : Dev :=
  ((((d.setSig 0x08 n 1).setSig 0x09 n v).setSig 0x0A n (time96 fix)).setSig 0x0B n (nextSeq (d.sig 0x0B n))).setSig 0x0C n ((d.sig 0x0C n + 1) % 2 ^ 32)

theorem mailStored_sig (v fix : Nat) : (d.mailStored n v fix).sig 0x08 n = 1 ∧ (d.mailStored n v fix).sig 0x09 n = v ∧ (d.mailStored n v fix).sig 0x0A n = time96 fix ∧
    (d.mailStored n v fix).sig 0x0B n = nextSeq (d.sig 0x0B n) ∧ (d.mailStored n v fix).sig 0x0C n = (d.sig 0x0C n + 1) % 2 ^ 32 := by
  unfold Dev.mailStored
  simp (disch := omega) only [sig_setSig_ne, sig_setSig_same, and_self]

/-- A mailbox is stored, its deadline starts, and a change triggers emissions. -/
theorem mailbox_stores {v fix a : Nat} (hn : n < 65536) (hlarge : d.isLarge n = false) : ∃ (y z : Dev) (c : Bool), (∀ k, k < 256 → y.sig k n = d.sig k n) ∧
    y.sfr 0x01 n = d.sfr 0x01 n ∧ y.rose.pausedAt = d.rose.pausedAt ∧ y.lt = d.lt ∧ (∀ i j w r, i < 65536 → j < 256 → i ≠ 0xC000 → z.obj i j w r = (y.mailStored n v fix).obj i j w r) ∧
    z.rose = y.rose ∧ z.lt = y.lt ∧ d.mailbox n v [] fix a = if c then (z.freshStart n).sigTriggers n (fun _ => true) else z.freshStart n := by
  obtain ⟨y, hy⟩ : ∃ y, (if ¬ tget (fun _ => false) d.rose.emitted n = true ∧ d.sig 0x0B n ≠ 0 ∧ ¬ (d.sigRoutes n).isEmpty = true then
      d.setSfr 0x05 n ((d.sfr 0x05 n + 1) % 2 ^ 32) else d) = y := ⟨_, rfl⟩
  have hsig : ∀ k, k < 256 → y.sig k n = d.sig k n := fun k hk => by
    rw [← hy]
    split
    · exact sig_setSfr d hn hn (by omega) hk
    · rfl
  have hkept : y.sfr 0x01 n = d.sfr 0x01 n ∧ y.rose = d.rose ∧ y.lt = d.lt := by
    rw [← hy]
    split
    · exact ⟨sfr_setSfr_ne d _ (by omega) (by omega) (by omega), rfl, rfl⟩
    · exact ⟨rfl, rfl, rfl⟩
  obtain ⟨hsfr, hrose, hlt⟩ := hkept
  obtain ⟨w, hw⟩ : ∃ w, (y.roseUpd fun x => { x with emitted := tput (fun _ => false) x.emitted n false, sigAt := tput (fun _ => 0) x.sigAt n a }) = w := ⟨_, rfl⟩
  have hwobj : ∀ i j u r, w.obj i j u r = y.obj i j u r := fun i j u r => by rw [← hw]; rfl
  refine ⟨w, (w.mailStored n v fix).partialWrite 2 (Config.mailboxLine n % memoryLines 2), d.sig 0x08 n != 1 || d.sig 0x09 n != v, fun k hk => (hwobj _ _ _ _).trans (hsig k hk),
    (hwobj _ _ _ _).trans hsfr, ?_, ?_, fun i j w r hi hj hne => partialWrite_obj _ _ _ _ _ hi hj hne, (congrArg Dev.rose (partialWrite_integ _ _ _) :), (congrArg Dev.lt (partialWrite_integ _ _ _) :), ?_⟩
  · rw [← hw]
    exact (congrArg RoseSt.pausedAt hrose :)
  · rw [← hw]
    exact hlt
  · have hseq : w.sig 0x0B n = d.sig 0x0B n := (hwobj _ _ _ _).trans (hsig _ (by omega))
    have hstored : ((((w.setSig 0x08 n 1).setSig 0x09 n v).setSig 0x0A n (time96 fix)).setSig 0x0B n (nextSeq (d.sig 0x0B n))).setSig 0x0C n
        (((((w.setSig 0x08 n 1).setSig 0x09 n v).setSig 0x0A n (time96 fix)).sig 0x0C n + 1) % 2 ^ 32) = w.mailStored n v fix := by
      unfold Dev.mailStored
      rw [hseq]
      simp (disch := omega) only [sig_setSig_ne]
    unfold Dev.mailbox
    simp only [hlarge, hy, hw, hstored, Bool.false_or, Bool.false_eq_true, if_false]

/-- The time at which the deadline of a signal that takes a value now runs out. -/
def Dev.deadline (d : Dev) (n : Nat) : Option Nat := if d.sfr 0x01 n / 10 = 0 then none else some (d.tick10 + d.sfr 0x01 n / 10 + 1)

theorem freshStart_deadline {d : Dev} (n : Nat) (h : d.rose.pausedAt = []) : tget (fun _ => none) (d.freshStart n).rose.fresh n = d.deadline n := by
  have hnone : ((d.defUnit (d.sig 0x02 n)).bind (fun u => tget (fun _ => none) d.rose.pausedAt u)).getD d.tick10 = d.tick10 := by
    rw [h]
    cases d.defUnit (d.sig 0x02 n) <;> rfl
  unfold Dev.freshStart Dev.roseUpd
  dsimp only
  rw [tget_tput_same, hnone]
  rfl

theorem mailbox_sig {v fix a : Nat} (hn : n < 65536) (hlarge : d.isLarge n = false) (hpaused : d.rose.pausedAt = []) :
    (d.mailbox n v [] fix a).sig 0x08 n = 1 ∧ (d.mailbox n v [] fix a).sig 0x09 n = v ∧ (d.mailbox n v [] fix a).sig 0x0B n = nextSeq (d.sig 0x0B n) ∧
      (d.mailbox n v [] fix a).sig 0x0C n = (d.sig 0x0C n + 1) % 2 ^ 32 ∧ (d.mailbox n v [] fix a).sig 0x0A n = time96 fix ∧
      tget (fun _ => none) (d.mailbox n v [] fix a).rose.fresh n = d.deadline n := by
  obtain ⟨y, z, c, hsig, hsfr, hpause, hlt, hzobj, hzrose, hzlt, hmail⟩ := mailbox_stores d (v := v) (fix := fix) (a := a) hn hlarge
  obtain ⟨h8, h9, hA, hB, hC⟩ := mailStored_sig y v fix (n := n)
  have hz : ∀ k, k < 256 → (d.mailbox n v [] fix a).sig k n = (y.mailStored n v fix).sig k n := fun k hk => by
    have hzk : (z.freshStart n).sig k n = (y.mailStored n v fix).sig k n := hzobj _ _ _ _ (by omega) hk (by omega)
    rw [hmail]
    split
    · exact (sigTriggers_sig _ _ _ hn hk).trans hzk
    · exact hzk
  have hdeadline : z.deadline n = d.deadline n := by
    have hz1 : z.sfr 0x01 n = d.sfr 0x01 n := by
      refine (hzobj _ _ _ _ (by omega) (by omega) (by omega)).trans (Eq.trans ?_ hsfr)
      change (y.mailStored n v fix).sfr 0x01 n = y.sfr 0x01 n
      unfold Dev.mailStored
      simp (disch := omega) only [sfr_setSig]
    unfold Dev.deadline Dev.tick10
    rw [hz1, hzlt, hlt]
  refine ⟨(hz _ (by omega)).trans h8, (hz _ (by omega)).trans h9, (hz _ (by omega)).trans (hB.trans ?_), (hz _ (by omega)).trans (hC.trans ?_), (hz _ (by omega)).trans hA, ?_⟩
  · rw [hsig _ (by omega)]
  · rw [hsig _ (by omega)]
  · have hfresh : (d.mailbox n v [] fix a).rose.fresh = (z.freshStart n).rose.fresh := by
      rw [hmail]
      split
      · exact sigTriggers_fresh _ _ _
      · rfl
    rw [hfresh, freshStart_deadline n ((congrArg RoseSt.pausedAt hzrose).trans (hpause.trans hpaused)), hdeadline]

/-! Expiry (R316, R317). -/

/-- A signal that expires, before it triggers emissions. -/
def Dev.expiredSignal (d : Dev) (n state : Nat) : Dev :=
  ((((d.roseUpd fun x => { x with fresh := tput (fun _ => none) x.fresh n none }).setSig 0x08 n state).setSfr 0x04 n ((d.sfr 0x04 n + 1) % 2 ^ 32)).inc64 0x7800 0x06).setSfr 0x06 n d.ztTime

theorem expire_due (h : d.expired n = true) : d.expire n =
    (d.expiredSignal n (if d.sfr 0x02 n = 1 then 3 else 2)).sigTriggers n ((d.expiredSignal n (if d.sfr 0x02 n = 1 then 3 else 2)).expiryTriggers n) := by
  unfold Dev.expire
  rw [if_neg (not_not.2 h)]
  rfl

theorem expire_early (h : d.expired n = false) : d.expire n = d := by
  unfold Dev.expire
  exact if_pos (ne_true_of_eq_false h)

theorem expired_none (h : tget (fun _ => none) d.rose.fresh n = none) : d.expired n = false := by
  unfold Dev.expired
  rw [h]

theorem expired_some {e : Nat} (h : tget (fun _ => none) d.rose.fresh n = some e) : d.expired n =
    (decide (e ≤ d.tick10) && !(d.flag 0x7800 0x41 && ((d.defUnit (d.sig 0x02 n)).elim false fun u => !d.wRuns u)) && d.sig 0x08 n == 1) := by
  unfold Dev.expired
  rw [h]
  cases d.defUnit (d.sig 0x02 n) <;> rfl

theorem expiredSignal_sig (state : Nat) {k : Nat} (hn : n < 65536) (hk : k < 256) : (d.expiredSignal n state).sig k n = if k = 0x08 then state else d.sig k n := by
  have hfirst : (d.expiredSignal n state).sig k n = ((d.roseUpd fun x => { x with fresh := tput (fun _ => none) x.fresh n none }).setSig 0x08 n state).sig k n := by
    unfold Dev.expiredSignal Dev.inc64
    rw [sig_setSfr _ hn hn (by omega) hk, sig_set _ hn (by omega) (by omega) hk (by omega), sig_setSfr _ hn hn (by omega) hk]
  rw [hfirst]
  split
  · next h8 => rw [h8, sig_setSig_same]
  · next h8 => exact sig_setSig_ne _ _ (by omega) hk h8

theorem expiredSignal_sfr (state : Nat) {k : Nat} (hn : n < 65536) (hk : k < 256) :
    (d.expiredSignal n state).sfr k n = if k = 0x06 then d.ztTime else if k = 0x04 then (d.sfr 0x04 n + 1) % 2 ^ 32 else d.sfr k n := by
  unfold Dev.expiredSignal
  split
  · next h6 => rw [h6, sfr_setSfr_same]
  · next h6 =>
    rw [sfr_setSfr_ne _ _ (by omega) hk h6]
    unfold Dev.inc64
    rw [sfr_set _ hn (by omega) (by omega) hk (by omega)]
    split
    · next h4 => rw [h4, sfr_setSfr_same]
    · next h4 =>
      rw [sfr_setSfr_ne _ _ (by omega) hk h4]
      exact sfr_setSig _ hn hn (by omega) hk

theorem expiredSignal_count (state : Nat) (hn : n < 65536) : (d.expiredSignal n state).obj 0x7800 0x06 = (d.obj 0x7800 0x06 + 1) % 2 ^ 64 := by
  have hsfr : ∀ (y : Dev) j v, j < 256 → (y.setSfr j n v).obj 0x7800 0x06 = y.obj 0x7800 0x06 := fun y j v hj => obj_set_field y hj (by omega) (by omega) (by omega) (by omega)
  have hsig : ∀ (y : Dev) j v, j < 256 → (y.setSig j n v).obj 0x7800 0x06 = y.obj 0x7800 0x06 := fun y j v hj => obj_set_field y hj (by omega) (by omega) (by omega) (by omega)
  unfold Dev.expiredSignal
  rw [hsfr _ _ _ (by omega), obj_inc64_same, hsfr _ _ _ (by omega), hsig _ _ _ (by omega)]
  rfl

end

section
variable {s : State} {t n : Nat} {d : Dev} (h : s.Tick t d) (hn : n < 65536)
include h hn

theorem freshnessExpiry_becomes {x : Dev} (hx : d.expire n = x) : Becomes (.freshnessExpiry t n) s x := by
  refine becomes h (by unfold exec; rfl) (decide_eq_true hn) ?_
  exact hx

section
variable {e : Nat} (he : tget (fun _ => none) d.rose.fresh n = some e)
include he

theorem freshnessExpiry_waits (hwait : d.tick10 < e ∨ d.sig 0x08 n ≠ 1) : Becomes (.freshnessExpiry t n) s d := by
  refine freshnessExpiry_becomes h hn (expire_early d ?_)
  rw [expired_some d he]
  rcases hwait with hearly | hstate
  · rw [decide_eq_false (by omega)]
    rfl
  · rw [beq_false_of_ne hstate, Bool.and_false]

theorem freshnessExpiry_held (hflag : d.flag 0x7800 0x41 = true) (hunit : ∃ u : Nat, d.defUnit (d.sig 0x02 n) = some u ∧ d.wRuns u = false) : Becomes (.freshnessExpiry t n) s d := by
  obtain ⟨u, hu, hruns⟩ := hunit
  refine freshnessExpiry_becomes h hn (expire_early d ?_)
  rw [expired_some d he, hflag, hu]
  simp [hruns]

section
variable (hdue : e ≤ d.tick10) (hflag : d.flag 0x7800 0x41 = false) (hstate : d.sig 0x08 n = 1)
include hdue hflag hstate

omit h hn in
theorem expired_due : d.expired n = true := by
  rw [expired_some d he, decide_eq_true hdue, hflag, hstate]
  rfl

theorem freshnessExpiry_quiet (hmode : d.sfr 0x02 n = 2) : Becomes (.freshnessExpiry t n) s (d.expiredSignal n 2) := by
  refine freshnessExpiry_becomes h hn ((expire_due d (expired_due he hdue hflag hstate)).trans ?_)
  have htest : (d.expiredSignal n 2).expiryTriggers n = fun _ => false := by
    funext r
    unfold Dev.expiryTriggers
    rw [expiredSignal_sfr _ _ hn (by omega), if_neg (by omega), if_neg (by omega), hmode]
    rfl
  rw [if_neg (by omega), htest]
  unfold Dev.sigTriggers
  rw [List.filter_eq_nil_iff.2 fun r _ => by simp]
  rfl

theorem freshnessExpiry_completes : Completes (.freshnessExpiry t n) s fun x => x.sig 0x08 n = (if d.sfr 0x02 n = 1 then 3 else 2) ∧ x.sig 0x09 n = d.sig 0x09 n ∧
    x.sig 0x0B n = d.sig 0x0B n ∧ x.sfr 0x04 n = (d.sfr 0x04 n + 1) % 2 ^ 32 ∧ x.sfr 0x06 n = d.ztTime ∧ x.obj 0x7800 0x06 = (d.obj 0x7800 0x06 + 1) % 2 ^ 64 := by
  refine (freshnessExpiry_becomes h hn (expire_due d (expired_due he hdue hflag hstate))).completes ⟨?_, ?_, ?_, ?_, ?_, ?_⟩
  · rw [sigTriggers_sig _ _ _ hn (by omega), expiredSignal_sig _ _ hn (by omega), if_pos rfl]
  · rw [sigTriggers_sig _ _ _ hn (by omega), expiredSignal_sig _ _ hn (by omega), if_neg (by omega)]
  · rw [sigTriggers_sig _ _ _ hn (by omega), expiredSignal_sig _ _ hn (by omega), if_neg (by omega)]
  · rw [sigTriggers_sfr _ _ _ hn (by omega), expiredSignal_sfr _ _ hn (by omega), if_neg (by omega), if_pos rfl]
  · rw [sigTriggers_sfr _ _ _ hn (by omega), expiredSignal_sfr _ _ hn (by omega), if_pos rfl]
  · rw [sigTriggers_obj _ _ _ _ _ (by omega) (by omega) rfl, expiredSignal_count _ _ hn]

end

end

end

/-- Settles O40: a mailbox by what it stores, an expiry by what it counts. -/
theorem signalMailboxes : Obligations.SignalMailboxes := by
  unfold Obligations.SignalMailboxes
  intro s t d n h hn
  exact ⟨fun v fix a _ hlarge hpaused => mailbox_sig d hn hlarge hpaused,
    fun start len => ⟨rfl, (List.length_reverse).trans (bePositions_length len start)⟩, bitsAt_lt,
    fun hnone => freshnessExpiry_becomes h hn (expire_early d (expired_none d hnone)),
    fun e he => ⟨freshnessExpiry_waits h hn he, freshnessExpiry_held h hn he, freshnessExpiry_quiet h hn he, freshnessExpiry_completes h hn he⟩⟩

end Sys2Proof.Machine

/-! SUPPORT. Writes of the enables of the Rose (R280, R281, R287 to R289, R293, R312), and O41. -/
namespace Sys2Proof.Machine

theorem roseUpd_sig (d : Dev) (f : RoseSt → RoseSt) (k n : Nat) : (d.roseUpd f).sig k n = d.sig k n := rfl

theorem mailboxNew_begins (d : Dev) {n v : Nat} : (d.mailboxNew n v).sig 0x08 n = 0 ∧ (d.mailboxNew n v).sig 0x09 n = v ∧ (d.mailboxNew n v).sig 0x0A n = 0 ∧
    (d.mailboxNew n v).sig 0x0B n = 0 ∧ tget (fun _ => none) (d.mailboxNew n v).rose.fresh n = none := by
  refine ⟨?_, ?_, ?_, ?_, tget_tput_same _ _ _ _⟩
  all_goals
    unfold Dev.mailboxNew
    simp (disch := omega) only [roseUpd_sig, sig_setSig_ne, sig_setSig_same]

section
variable {s : State} {t : Nat} {d : Dev} {q : Request} {o : ObjRow} (h : s.Tick t d)
include h

section
variable (hw : d.takesWrite q o .definitionEnable 0 = true) (hi : recIndex q.bytes = 0x7100) (hj : recSub q.bytes = 0x01)
include hw hi hj

theorem definitionEnable_writes {f : Dev → Dev} (hf : (if q.value = b2n (d.flag 0x7100 0x01 0 q.record) then d.writeBase q o
    else if q.value = 1 then (d.writeBase q o).defOn q.record else (d.writeBase q o).defOff q.record) = f (d.writeBase q o)) : Completes (.definitionEnable t) s (d.Wrote q o f) := by
  refine wrote h hw (by unfold exec; rfl) _ _ hi hj (by omega) (by omega) (by omega) (by omega) (Eq.trans ?_ hf)
  rw [← writeBase_flag d q o 0x7100 0x01 0 q.record (by omega) (by omega) (by omega) (by omega)]
  rfl

end

section
variable {i k : Nat} (hi2 : i < 2) (hk : k = q.record + 32768 * i) (hw : d.takesWrite q o .signalEnable 0 = true) (hi : recIndex q.bytes = 0x7200 + i) (hj : recSub q.bytes = 0x01)
  (hrec : q.record < 32768)
include hi2 hk hw hi hj hrec

omit hrec in
theorem signalEnable_writes {f : Dev → Dev} (hf : (d.writeBase q o).signalSwitch k q.value = f (d.writeBase q o)) : Completes (.signalEnable t) s (d.Wrote q o f) := by
  refine wrote h hw (by unfold exec; rfl) _ _ hi hj (by omega) (by omega) (by omega) (by omega) (Eq.trans ?_ hf)
  obtain rfl | rfl : i = 0 ∨ i = 1 := by omega
  · rw [hk]
    rfl
  · rw [hk]
    rfl

omit h hw hi hj in
theorem writeBase_sig {j : Nat} (hj : j < 256) : (d.writeBase q o).sig j k = d.sig j k :=
  writeBase_obj _ _ _ _ _ _ _ (by omega) hj (by omega) (by omega) (by
    have h1 : (0x7200 + k / 32768 == 0xB100) = false := beq_false_of_ne (by omega)
    have h2 : (0x7200 + k / 32768 == 0xB110) = false := beq_false_of_ne (by omega)
    unfold sentField
    rw [h1, h2]
    rfl)

theorem signalEnable_same (hv : q.value = d.sig 0x01 k) : Completes (.signalEnable t) s (d.Wrote q o fun y => y) :=
  signalEnable_writes h hi2 hk hw hi hj (if_pos (hv.trans (writeBase_sig hi2 hk hrec (by omega)).symm))

theorem signalEnable_switches (hv : q.value ≠ d.sig 0x01 k) (hlarge : d.isLarge k = false) :
    Completes (.signalEnable t) s (d.Wrote q o fun y => (y.setSig 0x01 k q.value).mailboxNew k (if q.value = 1 then d.sig 0x07 k else 0)) := by
  refine signalEnable_writes h hi2 hk hw hi hj ?_
  have hsig : ∀ j, j < 256 → (d.writeBase q o).sig j k = d.sig j k := fun j hj => writeBase_sig hi2 hk hrec hj
  have hlarge' : (d.writeBase q o).isLarge k = false := by
    unfold Dev.isLarge at hlarge ⊢
    rw [hsig _ (by omega)]
    exact hlarge
  unfold Dev.signalSwitch
  simp only [hsig 0x01 (by omega), hsig 0x07 (by omega), hlarge', hv, if_false, Bool.false_eq_true, not_false_eq_true, and_true]

end

section
variable (hw : d.takesWrite q o .routeEnable 0 = true) (hi : recIndex q.bytes = 0x7300) (hj : recSub q.bytes = 0x01)
include hw hi hj

theorem routeEnable_writes {f : Dev → Dev} (hf : (if q.value = b2n (d.flag 0x7300 0x01 0 q.record) then d.writeBase q o else
      let z := (d.writeBase q o).set 0x7300 0x01 q.value 0 q.record
      if q.value = 1 then (((z.set 0x7830 0x04 0 0 q.record).set 0x7830 0x06 0 0 q.record).roseUpd fun x => { x with carried := tput (fun _ => false) x.carried q.record false }).set
        0x7100 0x10 (d.rt 0x02 q.record) 0 (d.rt 0x04 q.record)
      else if (z.enabledRecs 0x7300).any (fun k => z.rt 0x04 k == d.rt 0x04 q.record) then z else z.set 0x7100 0x10 0 0 (d.rt 0x04 q.record)) = f (d.writeBase q o)) :
    Completes (.routeEnable t) s (d.Wrote q o f) := by
  refine wrote h hw (by unfold exec; rfl) _ _ hi hj (by omega) (by omega) (by omega) (by omega) (Eq.trans ?_ hf)
  have hflag := writeBase_flag d q o 0x7300 0x01 0 q.record (by omega) (by omega) (by omega) (by omega)
  have hdest : (d.writeBase q o).rt 0x04 q.record = d.rt 0x04 q.record := writeBase_obj _ _ _ _ _ _ _ (by omega) (by omega) (by omega) (by omega) rfl
  have hkind : ((d.writeBase q o).set 0x7300 0x01 q.value 0 q.record).rt 0x02 q.record = d.rt 0x02 q.record :=
    (obj_set_field _ (by omega) (by omega) (by omega) (by omega) (by omega)).trans (writeBase_obj _ _ _ _ _ _ _ (by omega) (by omega) (by omega) (by omega) rfl)
  show (d.writeBase q o).routeSwitch q.record q.value = _
  unfold Dev.routeSwitch
  simp only [hflag, hdest, hkind]

end

section
variable (hw : d.takesWrite q o .containerEnable 0 = true) (hi : recIndex q.bytes = 0x7400) (hj : recSub q.bytes = 0x01)
include hw hi hj

theorem containerEnable_writes {f : Dev → Dev} (hf : (if q.value = b2n (d.flag 0x7400 0x01 0 q.record) then d.writeBase q o
    else (((d.writeBase q o).set 0x7400 0x01 q.value 0 q.record).dropP (8192 + q.record)).roseUpd fun x => { x with
      staged := tput (fun _ => []) x.staged q.record [], stagedAt := tput (fun _ => 0) x.stagedAt q.record 0, seqSet := tput (fun _ => false) x.seqSet q.record false }) = f (d.writeBase q o)) :
    Completes (.containerEnable t) s (d.Wrote q o f) := by
  refine wrote h hw (by unfold exec; rfl) _ _ hi hj (by omega) (by omega) (by omega) (by omega) (Eq.trans ?_ hf)
  rw [← writeBase_flag d q o 0x7400 0x01 0 q.record (by omega) (by omega) (by omega) (by omega)]
  rfl

end

end

/-- Settles O41: each write by its effect on the device that has taken it. -/
theorem roseWrites : Obligations.RoseWrites := by
  unfold Obligations.RoseWrites
  intro s t d q o h
  refine ⟨fun hw hi hj => ⟨fun hv => definitionEnable_writes h hw hi hj (if_pos hv), fun hv hoff => definitionEnable_writes h hw hi hj ?_, fun hv hon => definitionEnable_writes h hw hi hj ?_⟩,
    fun i k hi2 hk hw hi hj hrec => ⟨signalEnable_same h hi2 hk hw hi hj hrec, signalEnable_switches h hi2 hk hw hi hj hrec⟩, fun n v _ _ => mailboxNew_begins d,
    fun hw hi hj => ⟨fun hv => routeEnable_writes h hw hi hj (if_pos hv), fun hv hoff => routeEnable_writes h hw hi hj ?_, fun hv hon => routeEnable_writes h hw hi hj ?_⟩,
    fun hw hi hj => ⟨fun hv => containerEnable_writes h hw hi hj (if_pos hv), fun hv => containerEnable_writes h hw hi hj (if_neg hv)⟩⟩
  · rw [hv, hoff]
    rfl
  · rw [hv, hon]
    rfl
  · rw [hv, hoff]
    rfl
  · rw [hv, hon]
    rfl

end Sys2Proof.Machine

/-! SUPPORT. Stack links and time across the stack (R352, R364 to R366), and O42. -/
namespace Sys2Proof.Machine

/-! What a step of zone time leaves: every object but those of the legs, and all but the clocks, the Plotter and the gates of the ports. -/

structure Dev.Rephased (d e : Dev) : Prop where
  obj : ∀ i s u r, i < 65536 → s < 256 → i ≠ 0x8400 → i ≠ 0x8420 → e.obj i s u r = d.obj i s u r
  rest : { e with store := [], plot := {}, ports := {}, sex := {} } = { d with store := [], plot := {}, ports := {}, sex := {} }

theorem Dev.Rephased.refl (d : Dev) : d.Rephased d := ⟨fun _ _ _ _ _ _ _ _ => rfl, rfl⟩

theorem Dev.Rephased.trans {d e f : Dev} (h : d.Rephased e) (g : e.Rephased f) : d.Rephased f :=
  ⟨fun i s u r hi hs h1 h2 => (g.obj i s u r hi hs h1 h2).trans (h.obj i s u r hi hs h1 h2), g.rest.trans h.rest⟩

theorem Dev.Rephased.now {d e : Dev} (h : d.Rephased e) : e.now = d.now := (congrArg Dev.now h.rest :)
theorem Dev.Rephased.lt {d e : Dev} (h : d.Rephased e) : e.lt = d.lt := (congrArg Dev.lt h.rest :)
theorem Dev.Rephased.stack {d e : Dev} (h : d.Rephased e) : e.stack = d.stack := (congrArg Dev.stack h.rest :)
theorem Dev.Rephased.stackId {d e : Dev} (h : d.Rephased e) : e.stackId = d.stackId := (congrArg Dev.stackId h.rest :)

section
variable (d : Dev)

theorem rephased_foldl {α : Type} (f : Dev → α → Dev) (h : ∀ (d : Dev) a, d.Rephased (f d a)) (l : List α) : d.Rephased (l.foldl f d) := by
  induction l generalizing d with
  | nil => exact Dev.Rephased.refl d
  | cons a l ih => exact (h d a).trans (ih _)

variable {d} {e : Dev} (h : d.Rephased e)
include h

theorem Dev.Rephased.sexUpd (f : SexSt → SexSt) : d.Rephased (e.sexUpd f) := ⟨h.obj, h.rest⟩

theorem Dev.Rephased.plotUpd (f : PlotSt → PlotSt) : d.Rephased (e.plotUpd f) := ⟨h.obj, h.rest⟩

theorem Dev.Rephased.windowEvent (u b a : Nat) (o : Bool) : d.Rephased (e.windowEvent u b a o) := ⟨h.obj, h.rest⟩

theorem Dev.Rephased.setLeg (n : Nat) (l : LegSt) : d.Rephased (e.setLeg n l) := h.plotUpd _

theorem Dev.Rephased.set {i j v u r : Nat} (hi : i = 0x8400 ∨ i = 0x8420) (hj : j < 256) : d.Rephased (e.set i j v u r) :=
  ⟨fun a b _ _ ha hb h1 h2 => (obj_set_field e hj (by omega) hb ha fun hne => by omega).trans (h.obj a b _ _ ha hb h1 h2), h.rest⟩

theorem Dev.Rephased.inc {i j u r n : Nat} (hi : i = 0x8400 ∨ i = 0x8420) (hj : j < 256) : d.Rephased (e.inc i j u r n) := h.set hi hj

theorem Dev.Rephased.exchangeBanks (n : Nat) : d.Rephased (e.exchangeBanks n) :=
  ((h.set (.inr rfl) (by omega)).inc (.inr rfl) (by omega)).setLeg _ _

theorem Dev.Rephased.legTakeState (n : Nat) (p : Int) : d.Rephased (e.legTakeState n p) := by
  unfold Dev.legTakeState
  simp only
  split
  · exact h
  · split
    · exact h
    · have hmark : d.Rephased (e.setLeg n { e.leg n with lastTick := some e.tick }) := h.setLeg _ _
      split
      · exact hmark.inc (.inr rfl) (by omega)
      · split
        · split
          · exact ⟨hmark.obj, hmark.rest⟩
          · exact hmark
        · refine hmark.trans (rephased_foldl _ _ (fun d x => ?_) _)
          exact (Dev.Rephased.refl d).windowEvent _ _ _ _

theorem Dev.Rephased.rephaseLeg (x0 x1 : Int) (n : Nat) : d.Rephased (e.rephaseLeg x0 x1 n) := by
  unfold Dev.rephaseLeg
  simp only
  split
  · refine Dev.Rephased.setLeg ?_ _ _
    split
    · exact (h.exchangeBanks n).setLeg _ _
    · exact h
  · refine Dev.Rephased.legTakeState ?_ _ _
    have hcount : ∀ k, d.Rephased (e.inc 0x8420 0x11 0 n k) := fun k => h.inc (.inr rfl) (by omega)
    split
    · refine ((Dev.Rephased.inc ?_ (.inr rfl) (by omega)).setLeg _ _)
      split
      · exact ((hcount _).exchangeBanks n).setLeg _ _
      · exact (hcount _).setLeg _ _
    · refine ((Dev.Rephased.inc ?_ (.inr rfl) (by omega)).setLeg _ _).setLeg _ _
      split
      · exact ((hcount _).exchangeBanks n).setLeg _ _
      · exact (hcount _).setLeg _ _
  · exact h

theorem Dev.Rephased.sourceStep (src : Nat) (x0 x1 : Int) : d.Rephased (e.sourceStep src x0 x1) := by
  obtain ⟨y, hy⟩ : ∃ y, e.plotUpd (fun x => { x with steps := tput (fun _ => (0, 0)) x.steps src (e.tick + 1, x1) }) = y := ⟨_, rfl⟩
  have hr : d.Rephased y := hy ▸ h.plotUpd _
  unfold Dev.sourceStep
  simp only [hy]
  split
  · exact hr
  · exact (hr.inc (.inl rfl) (by omega)).trans (rephased_foldl _ _ (fun d n => (Dev.Rephased.refl d).rephaseLeg x0 x1 n) _)

theorem Dev.Rephased.ppsSkip (src : Nat) : d.Rephased (e.ppsSkip src) := by
  refine h.trans (rephased_foldl e _ (fun d k => ?_) _)
  split
  · exact (Dev.Rephased.refl d).sexUpd _
  · exact Dev.Rephased.refl d

theorem Dev.Rephased.zoneStep (v : Int) : d.Rephased (e.zoneStep v) := by
  have hz : d.Rephased (e.setZt { e.sex.zt with val := e.sex.zt.val - v }) := h.sexUpd _
  exact (hz.sourceStep _ _ _).ppsSkip _

end
/-! A member follows the lead's time (R364). -/

section
variable (d : Dev)

/-- What the error of a time message shows, and the step that a joining member may make, before the servo sets the rate. -/
structure Dev.LeadCompared (d y : Dev) : Prop where
  obj : ∀ i s u r, i < 65536 → s < 256 → i ≠ 0x8400 → i ≠ 0x8420 → i ≠ 0x9430 → y.obj i s u r = d.obj i s u r
  count : y.obj 0x9430 0x03 = (d.obj 0x9430 0x03 + 1) % 2 ^ 32
  now : y.now = d.now
  lt : y.lt = d.lt
  stack : y.stack = d.stack

theorem leadCompared_count (v : Nat) : d.LeadCompared ((d.set 0x9430 0x02 v).inc 0x9430 0x03) where
  obj i s u r hi hs _ _ h := by
    rw [obj_inc_field _ (by omega) (by omega) hs hi (fun hne => h hne.1), obj_set_field _ (by omega) (by omega) hs hi (fun hne => h hne.1)]
  count := by rw [obj_inc_same, obj_set_field _ (by omega) (by omega) (by omega) (by omega) (by omega)]
  now := rfl
  lt := rfl
  stack := rfl

theorem leadCompared_step {d y : Dev} (h : d.LeadCompared y) (v : Int) : d.LeadCompared ((y.zoneStep v).inc 0x9430 0x04) where
  obj i s u r hi hs h1 h2 h3 := by
    rw [obj_inc_field _ (by omega) (by omega) hs hi (fun hne => h3 hne.1)]
    exact (((Dev.Rephased.refl y).zoneStep v).obj _ _ _ _ hi hs h1 h2).trans (h.obj _ _ _ _ hi hs h1 h2 h3)
  count := by
    rw [obj_inc_field _ (by omega) (by omega) (by omega) (by omega) (by omega)]
    exact (((Dev.Rephased.refl y).zoneStep v).obj _ _ _ _ (by omega) (by omega) (by omega) (by omega)).trans h.count
  now := ((Dev.Rephased.refl y).zoneStep v).now.trans h.now
  lt := ((Dev.Rephased.refl y).zoneStep v).lt.trans h.lt
  stack := ((Dev.Rephased.refl y).zoneStep v).stack.trans h.stack

theorem followLead_stages (l : Int) : ∃ y z : Dev, d.LeadCompared y ∧ z.sexUpd (fun _ => {}) = (y.set 0x9430 0x01 2).sexUpd (fun _ => {}) ∧
    d.followLead l = z.stackUpd fun x => { x with lastMsg := some (z.now, l, z.lt) } := by
  obtain ⟨y, hy, hc⟩ : ∃ y, (if (decide ((d.obj 0x8030 0x43 : Int) * 2 ^ 48 < (absN (d.sex.zt.val - l) : Int)) && d.obj 0x9430 0x01 == 1 && d.obj 0x8000 0x03 == 0) = true
      then (((d.set 0x9430 0x02 (ofI32 (clkNs (d.sex.zt.val - l)))).inc 0x9430 0x03).zoneStep (d.sex.zt.val - l)).inc 0x9430 0x04
      else (d.set 0x9430 0x02 (ofI32 (clkNs (d.sex.zt.val - l)))).inc 0x9430 0x03) = y ∧ d.LeadCompared y := by
    refine ⟨_, rfl, ?_⟩
    split
    · exact leadCompared_step (leadCompared_count d _) _
    · exact leadCompared_count d _
  unfold Dev.followLead
  simp only [hy]
  refine ⟨y, _, hc, ?_, rfl⟩
  by_cases hjoin : d.obj 0x9430 0x01 = 1
  · rw [if_pos hjoin, if_pos hjoin]
    rfl
  · rw [if_neg hjoin, if_neg hjoin]
    split
    · split
      · rfl
      · rfl
    · rfl

theorem followLead_shows (l : Int) :
    (d.followLead l).obj 0x9430 0x01 = 2 ∧ (d.followLead l).obj 0x9430 0x03 = (d.obj 0x9430 0x03 + 1) % 2 ^ 32 ∧ (d.followLead l).stack.lastMsg = some (d.now, l, d.lt) := by
  obtain ⟨y, z, hc, hz, he⟩ := followLead_stages d l
  have hobj : ∀ j, z.obj 0x9430 j = (y.set 0x9430 0x01 2).obj 0x9430 j := fun j => (congrArg (fun x : Dev => x.obj 0x9430 j) hz :)
  have hnow : z.now = d.now := (congrArg Dev.now hz).trans hc.now
  have hlt : z.lt = d.lt := (congrArg Dev.lt hz).trans hc.lt
  rw [he, ← hnow, ← hlt]
  refine ⟨(hobj 1).trans (obj_set_same _ _ _ _ _ _), (hobj 3).trans ?_, rfl⟩
  exact (obj_set_field y (by omega) (by omega) (by omega) (by omega) (by omega)).trans hc.count

theorem followLead_now (l : Int) : (d.followLead l).now = d.now := by
  obtain ⟨y, z, hc, hz, he⟩ := followLead_stages d l
  rw [he]
  exact (congrArg Dev.now hz).trans hc.now

theorem followLead_obj (l : Int) {i j : Nat} (u r : Nat) (hi : i < 65536) (hj : j < 256) (h1 : i ≠ 0x8400) (h2 : i ≠ 0x8420) (h3 : i ≠ 0x9430) :
    (d.followLead l).obj i j u r = d.obj i j u r := by
  obtain ⟨y, z, hc, hz, he⟩ := followLead_stages d l
  rw [he]
  refine ((congrArg (fun x : Dev => x.obj i j u r) hz :).trans ?_).trans (hc.obj _ _ _ _ hi hj h1 h2 h3)
  exact obj_set_field y (by omega) (by omega) hj hi fun hne => h3 hne.1

end

/-! Links and hellos (R352). -/

theorem becomes_timer_same {s : State} {t : Nat} {d : Dev} {c : Instr} {ok : Bool} {aw : Dev → Instr → Bool} {f : Dev → Dev} {n : Nat} (h : s.Tick t d)
    (e : exec c s = s.timer t ok aw f n) (hok : ok = true) (hx : f d = d) : Becomes c s d := by
  refine becomes h e hok ?_
  rw [hx, ite_self]

theorem Dev.Sent.klinkState {d e : Dev} (h : d.Sent e) (k : Nat) : e.klinkState k = d.klinkState k := h.obj _ _ _ _ (by omega) (by omega) rfl

theorem uK_of_port {k : Nat} (hk : k < 2) : unitOfPort (20 + k) = uK k := by
  unfold unitOfPort uK
  rw [if_neg (by omega), if_pos (by omega)]
  omega

section
variable {s : State} {t k : Nat} {d : Dev} (h : s.Tick t d) (hk : k < 2)
include h hk

theorem stackLinkLock_becomes {x : Dev} (hx : (if d.klinkState k = 0 ∧ d.flag 0x9420 0x01 (uK k) ∧ d.unitPowered (uK k) then (d.setKlink k {}).set 0x9420 0x02 1 (uK k) else d) = x) :
    Becomes (.stackLinkLock t k) s x := by
  refine becomes h (by unfold exec; rfl) (decide_eq_true hk) ?_
  exact hx

omit hk in
theorem helloSend_becomes {x : Dev} (hx : (if dueAgain d.stack.helloAt (100 * perUs) d.now then
      [0, 1].foldl (fun d k => if d.klinkState k = 0 then d else d.sendLink k (.hello k (d.helloOut k))) (d.stackUpd fun x => { x with helloAt := some d.now })
    else d) = x) : Becomes (.helloSend t) s x := by
  refine becomes h (by unfold exec; rfl) rfl ?_
  exact hx

omit hk in
theorem helloSend_due (hdue : dueAgain d.stack.helloAt (100 * perUs) d.now = true) : let y := d.stackUpd fun x => { x with helloAt := some d.now }
    (d.klinkState 0 ≠ 0 → d.klinkState 1 ≠ 0 → d.macsecOn 20 = false → Becomes (.helloSend t) s ((y.out (.hello 0 (d.helloOut 0))).sendLink 1 (.hello 1 (d.helloOut 1)))) ∧
    (d.klinkState 0 ≠ 0 → d.klinkState 1 = 0 → Becomes (.helloSend t) s (y.sendLink 0 (.hello 0 (d.helloOut 0)))) ∧
    (d.klinkState 0 = 0 → d.klinkState 1 ≠ 0 → Becomes (.helloSend t) s (y.sendLink 1 (.hello 1 (d.helloOut 1)))) ∧
    (d.klinkState 0 = 0 → d.klinkState 1 = 0 → Becomes (.helloSend t) s y) := by
  intro y
  have hsend : ∀ {x : Dev}, (let z := if d.klinkState 0 = 0 then y else y.sendLink 0 (.hello 0 (d.helloOut 0))
      (if z.klinkState 1 = 0 then z else z.sendLink 1 (.hello 1 (z.helloOut 1))) = x) → Becomes (.helloSend t) s x :=
    fun hx => helloSend_becomes h ((if_pos hdue).trans hx)
  have hfirst : ∀ o, (y.sendLink 0 o).klinkState 1 = d.klinkState 1 := fun o => (sent_sendLink y 0 o).klinkState 1
  refine ⟨fun h0 h1 hm => hsend ?_, fun h0 h1 => hsend ?_, fun h0 h1 => hsend ?_, fun h0 h1 => hsend ?_⟩
  · have hplain := sendLink_plain y 0 (.hello 0 (d.helloOut 0)) hm
    simp only [if_neg h0, hplain]
    exact if_neg h1
  · simp only [if_neg h0]
    exact if_pos ((hfirst _).trans h1)
  · simp only [if_pos h0]
    exact if_neg h1
  · simp only [if_pos h0]
    exact if_pos h1

section
variable {m : Hello} (hm : Hello.ok m = true)
include hm

theorem helloReceived_becomes {x : Dev} (hx : (if d.klinkState k = 0 then d
    else if ¬ (d.macsecAccept (20 + k) m.sec false).2 then (d.macsecAccept (20 + k) m.sec false).1
    else
      let y := (d.macsecAccept (20 + k) m.sec false).1.macsecEnd (20 + k) m.sec true
      let run := if (y.klink k).run = 0 ∨ (y.klink k).heard + y.helloLimit < y.now then 1 else (y.klink k).run + 1
      let z := y.setKlink k { y.klink k with run := run, heard := y.now, hello := some m }
      if z.klinkState k = 2 then z.stackSettle.stackProgress else if 3 ≤ run then (z.stackUp k m).stackProgress else z) = x) : Becomes (.helloReceived t k m) s x := by
  refine becomes h (by unfold exec; rfl) (by rw [decide_eq_true hk, hm]; rfl) ?_
  exact hx

theorem helloReceived_plain (hoff : d.macsecOn (20 + k) = false) (hlock : d.klinkState k ≠ 0) {x : Dev} (hx : (
      let run := if (d.klink k).run = 0 ∨ (d.klink k).heard + d.helloLimit < d.now then 1 else (d.klink k).run + 1
      let z := d.setKlink k { d.klink k with run := run, heard := d.now, hello := some m }
      if d.klinkState k = 2 then z.stackSettle.stackProgress else if 3 ≤ run then (z.stackUp k m).stackProgress else z) = x) : Becomes (.helloReceived t k m) s x := by
  have haccept : d.macsecAccept (20 + k) m.sec false = (d, true) := by simp [Dev.macsecAccept, hoff]
  have hend : d.macsecEnd (20 + k) m.sec true = d := by
    unfold Dev.macsecEnd
    split
    · rfl
    · exact if_pos (by simp [hoff])
  refine helloReceived_becomes h hk hm ?_
  rw [if_neg hlock, haccept]
  simp only [hend]
  exact hx

theorem helloReceived_counts (hoff : d.macsecOn (20 + k) = false) (hlock : d.klinkState k = 1) (hrun : (d.klink k).run < 2) : Becomes (.helloReceived t k m) s
    (d.setKlink k { d.klink k with run := if (d.klink k).run = 0 ∨ (d.klink k).heard + d.helloLimit < d.now then 1 else (d.klink k).run + 1, heard := d.now, hello := some m }) := by
  refine helloReceived_plain h hk hm hoff (by omega) ?_
  refine (if_neg (by omega)).trans (if_neg ?_)
  split <;> omega

theorem helloReceived_up (hoff : d.macsecOn (20 + k) = false) (hlock : d.klinkState k = 1) (hrun : 2 ≤ (d.klink k).run) (hheard : d.now ≤ (d.klink k).heard + d.helloLimit) :
    Becomes (.helloReceived t k m) s (((d.setKlink k { d.klink k with run := (d.klink k).run + 1, heard := d.now, hello := some m }).stackUp k m).stackProgress) := by
  have hnext : (if (d.klink k).run = 0 ∨ (d.klink k).heard + d.helloLimit < d.now then 1 else (d.klink k).run + 1) = (d.klink k).run + 1 := if_neg (by omega)
  refine helloReceived_plain h hk hm hoff (by omega) ?_
  simp only [hnext]
  exact (if_neg (by omega)).trans (if_pos (by omega))

theorem helloReceived_unprotected (hon : d.macsecOn (20 + k) = true) (hlock : d.klinkState k ≠ 0) (hsec : m.sec = none) :
    Becomes (.helloReceived t k m) s (d.inc 0xB100 0x0C (uK k)) := by
  have haccept : d.macsecAccept (20 + k) m.sec false = (d.inc 0xB100 0x0C (uK k), false) := by simp [Dev.macsecAccept, hon, hsec, uK_of_port hk]
  refine helloReceived_becomes h hk hm ?_
  rw [if_neg hlock, haccept]
  rfl

end

theorem stackLinkLockLoss_becomes (n : Nat) (lost : Bool) (hlock : d.klinkState k ≠ 0) :
    Becomes (.stackLinkLockLoss t { k := k, errors := n, lost := lost }) s
      (if lost then ((d.inc 0x9420 0x08 (uK k) 0 n).stackFall k false).stackProgress else d.inc 0x9420 0x08 (uK k) 0 n) := by
  refine becomes h (by unfold exec; rfl) (decide_eq_true hk) ?_
  exact if_neg hlock

theorem stackLinkLockLoss_down {l : LockLoss} (hl : l.k = k) (hdown : d.klinkState k = 0) : Becomes (.stackLinkLockLoss t l) s d := by
  subst hl
  refine becomes h (by unfold exec; rfl) (decide_eq_true hk) ?_
  exact if_pos hdown

omit h hk in
theorem stackFall_locked (hlock : d.klinkState k = 1) (hdup : (d.klink k).dup = false) : d.stackFall k false = (d.setKlink k {}).set 0x9420 0x02 0 (uK k) := by
  unfold Dev.stackFall
  simp only [hdup, hlock, Bool.false_eq_true, if_false]
  exact if_pos (by omega)

theorem helloTimeout_falls (ha : s.Alone d) (hup : d.klinkState k = 2) (hdue : (d.klink k).heard + d.helloLimit ≤ d.now) :
    Becomes (.helloTimeout t k) s ((d.inc 0x9420 0x07 (uK k)).stackFall k true).stackProgress := by
  refine becomes_timer h ha (by unfold exec; rfl) (by omega) (by omega) (decide_eq_true hk) ?_
  exact if_neg (by omega)

theorem helloTimeout_waits (hearly : d.now < (d.klink k).heard + d.helloLimit) : Becomes (.helloTimeout t k) s d := by
  refine becomes_timer_same h (by unfold exec; rfl) (decide_eq_true hk) ?_
  exact if_pos (.inr hearly)

theorem linkDelay_becomes {n : Nat} (hn : n / 2 < 2 ^ 32) {x : Dev} (hx : (if d.klinkState k = 2 ∧ dueAgain (d.klink k).tripAt 156250000 d.now
    then (d.setKlink k { d.klink k with tripAt := some d.now }).set 0x9420 0x0A (n / 2) (uK k) else d) = x) : Becomes (.linkDelayRoundTrip t k n) s x := by
  refine becomes h (by unfold exec; rfl) (by rw [decide_eq_true hk, decide_eq_true hn]; rfl) ?_
  exact hx

/-! Time messages (R364, R366). -/

omit hk in
theorem timeMessageSend_one {i : Nat} (hlead : d.isLead = true) (h0 : d.neighbour 0 = some i) (hi : i ≠ d.stackId) (h1 : d.neighbour 1 = none)
    (hdue : dueAgain d.stack.timeAt 9765625 d.now = true) : Becomes (.timeMessageSend t) s
      ((d.stackUpd fun x => { x with timeAt := some d.now }).sendTime 0 { zt := clk16 d.sex.zt.val, added := 0, state := d.obj 0x8000 0x03, clockClass := d.obj 0x8000 0x0B }) := by
  have hsome : d.neighbours.isEmpty = false := by simp [Dev.neighbours, h0, h1, hi]
  refine becomes h (by unfold exec; rfl) rfl ?_
  simp only
  rw [if_neg (by simp [hlead, hsome, hdue])]
  obtain ⟨y, hy⟩ : ∃ y, d.stackUpd (fun x => { x with timeAt := some d.now }) = y := ⟨_, rfl⟩
  have hy0 : y.neighbour 0 = some i := hy ▸ h0
  have hsent : ∀ m, (y.sendTime 0 m).neighbour 1 = none := fun m => by
    have hstate : (y.sendTime 0 m).klinkState 1 = d.klinkState 1 := by
      subst hy
      unfold Dev.sendTime
      split
      · exact obj_inc64_field d (by omega) (by omega) (by omega) (by omega) (by omega)
      · rfl
    have hlink : (y.sendTime 0 m).klink 1 = d.klink 1 := by
      subst hy
      unfold Dev.sendTime
      split <;> rfl
    unfold Dev.neighbour at h1 ⊢
    rwa [hstate, hlink]
  rw [hy]
  simp only [List.foldl_cons, List.foldl_nil, hy0, Option.isSome_some, if_true, hsent, Option.isSome_none, Bool.false_eq_true, if_false]
  subst hy
  rfl

omit h hk in
theorem sendTime_plain (m : TimeMsg) (hoff : d.macsecOn (20 + k) = false) : d.sendTime k m = d.out (.timeMsg k m) := by simp [Dev.sendTime, hoff]

omit hk in
theorem timeMessageSend_waits (hw : d.isLead = false ∨ d.neighbours = [] ∨ dueAgain d.stack.timeAt 9765625 d.now = false) : Becomes (.timeMessageSend t) s d := by
  refine becomes h (by unfold exec; rfl) rfl ?_
  exact if_pos (by simpa using hw)

theorem timeMessageReceived_becomes (m : TimeMsg) (hoff : d.macsecOn (20 + k) = false) {x : Dev} (hx : (
    if d.isLead ∨ d.klinkState k ≠ 2 ∨ d.obj 0x9410 0x07 0 (d.obj 0x9400 0x04) ≠ k + 1 then d
    else
      let added := m.added + d.obj 0x9420 0x0A (uK k) * 65536 / 1000
      let d := d.followLead (((m.zt + added : Nat) : Int) * 2 ^ 32)
      let d := if d.obj 0x8000 0x03 = m.state then d else d.sexUpd fun x => { x with stateAt := d.now }
      let d := (d.set 0x8000 0x03 m.state).set 0x8000 0x0B m.clockClass
      let away := 1 - k
      if (d.neighbour away).isSome ∧ d.neighbour away ≠ some (d.obj 0x9400 0x04) then
        let (q, d) := d.free 41
        d.sendTime away { m with added := added + lt16 q }
      else d) = x) : Becomes (.timeMessageReceived t k m) s x := by
  refine becomes h (by unfold exec; rfl) (decide_eq_true hk) (Eq.trans ?_ hx)
  simp only
  rw [if_neg (c := d.klinkState k = 2 ∧ d.macsecOn (20 + k) = true) (by simp [hoff])]

theorem timeMessageReceived_ignored (m : TimeMsg) (hoff : d.macsecOn (20 + k) = false) (hw : d.isLead = true ∨ d.klinkState k ≠ 2 ∨ d.obj 0x9410 0x07 0 (d.obj 0x9400 0x04) ≠ k + 1) :
    Becomes (.timeMessageReceived t k m) s d := timeMessageReceived_becomes h hk m hoff (if_pos hw)

theorem timeMessageReceived_follows (m : TimeMsg) (hoff : d.macsecOn (20 + k) = false) (hlead : d.isLead = false) (hup : d.klinkState k = 2) (haway : d.klinkState (1 - k) ≠ 2)
    (hpath : d.obj 0x9410 0x07 0 (d.obj 0x9400 0x04) = k + 1) :
    let y := d.followLead (((m.zt + (m.added + d.obj 0x9420 0x0A (uK k) * 65536 / 1000) : Nat) : Int) * 2 ^ 32)
    let z := if y.obj 0x8000 0x03 = m.state then y else y.sexUpd fun x => { x with stateAt := d.now }
    Becomes (.timeMessageReceived t k m) s ((z.set 0x8000 0x03 m.state).set 0x8000 0x0B m.clockClass) := by
  intro y z
  refine timeMessageReceived_becomes h hk m hoff ?_
  rw [if_neg (by simp [hlead, hup, hpath])]
  have hstate : z.klinkState (1 - k) = d.klinkState (1 - k) := by
    have hy : y.klinkState (1 - k) = d.klinkState (1 - k) := followLead_obj d _ _ _ (by omega) (by omega) (by omega) (by omega) (by omega)
    simp only [z]
    split
    · exact hy
    · exact hy
  have hend : ((z.set 0x8000 0x03 m.state).set 0x8000 0x0B m.clockClass).klinkState (1 - k) = d.klinkState (1 - k) := by
    refine Eq.trans ?_ hstate
    unfold Dev.klinkState
    simp (disch := omega) only [obj_set_field]
  have hnone : ((z.set 0x8000 0x03 m.state).set 0x8000 0x0B m.clockClass).neighbour (1 - k) = none := if_neg fun hne => haway (hend.symm.trans hne.1)
  simp only [followLead_now]
  refine if_neg fun hc => ?_
  exact Bool.false_ne_true ((congrArg Option.isSome hnone).symm.trans hc.1)

section
omit hk
variable {a l : Nat} {z : Int} (hlast : d.stack.lastMsg = some (a, z, l))
include hlast

theorem timeMessageLoss_holds (ha : s.Alone d) (htrack : d.obj 0x9430 0x01 = 2) (hdue : a + 3 * 9765625 ≤ d.now) :
    Completes (.timeMessageLoss t) s fun x => x.obj 0x9430 0x01 = 3 ∧ x.obj 0x9430 0x05 = (d.obj 0x9430 0x05 + 1) % 2 ^ 32 ∧
      x.sex.zt.val = d.sex.zt.val ∧ x.sex.zt.rate = (if d.sex.rzHist.take 16 = [] then d.sex.zt.rate else rdiv (d.sex.rzHist.take 16).sum (d.sex.rzHist.take 16).length) := by
  refine Becomes.completes (becomes_timer h ha (by unfold exec; rfl) (by omega) (by omega) rfl ?_) (x := ((d.setZt { d.sex.zt with
    rate := if d.sex.rzHist.take 16 = [] then d.sex.zt.rate else rdiv (d.sex.rzHist.take 16).sum (d.sex.rzHist.take 16).length }).set 0x9430 0x01 3).inc 0x9430 0x05) ⟨?_, ?_, rfl, rfl⟩
  · simp only [hlast]
    exact if_pos ⟨htrack, hdue⟩
  · simp (disch := omega) only [obj_inc_field, obj_set_same]
  · simp (disch := omega) only [obj_inc_same, obj_set_field, Dev.setZt_obj]

theorem timeMessageLoss_waits (hearly : d.now < a + 3 * 9765625) : Becomes (.timeMessageLoss t) s d := by
  refine becomes_timer_same h (by unfold exec; rfl) rfl ?_
  simp only [hlast]
  exact if_neg (by omega)

end
end

/-- Settles O42: each command by the conditions on its link; the servo by the stages of a time message. -/
theorem stackLinksAndTime : Obligations.StackLinksAndTime := by
  unfold Obligations.StackLinksAndTime
  refine ⟨fun s t d k h hk => ?_, fun s t d k m h hk => ?_⟩
  · refine ⟨fun h0 he hp => stackLinkLock_becomes h hk (if_pos ⟨h0, he, hp⟩), fun h0 => stackLinkLock_becomes h hk (if_neg fun hc => h0 hc.1), helloSend_due h,
      fun hdue => helloSend_becomes h (if_neg (by simp [hdue])), ⟨rfl, rfl, rfl, rfl⟩,
      fun hoff => ⟨fun m => sendLink_plain d k m hoff, fun m hm => ⟨fun h0 => helloReceived_becomes h hk hm (if_pos h0), helloReceived_counts h hk hm hoff, helloReceived_up h hk hm hoff⟩⟩,
      fun hon hlock m hm => helloReceived_unprotected h hk hm hon hlock,
      fun hoff m hm hup => helloReceived_plain h hk hm hoff (by omega) (if_pos hup),
      fun n hlock => ⟨stackLinkLockLoss_becomes h hk n true hlock, stackLinkLockLoss_becomes h hk n false hlock⟩, stackFall_locked,
      fun l hl => stackLinkLockLoss_down h hk hl, helloTimeout_falls h hk, helloTimeout_waits h hk,
      fun n hn => ⟨fun hup hdue => linkDelay_becomes h hk hn (if_pos ⟨hup, hdue⟩), fun hw => linkDelay_becomes h hk hn (if_neg ?_)⟩⟩
    rcases hw with hw | hw
    · exact fun hc => hw hc.1
    · exact fun hc => Bool.false_ne_true (hw.symm.trans hc.2)
  · exact ⟨fun i => timeMessageSend_one h, sendTime_plain m, timeMessageSend_waits h, timeMessageReceived_ignored h hk m, timeMessageReceived_follows h hk m, followLead_shows d,
      fun a l z hlast => ⟨timeMessageLoss_holds h hlast, timeMessageLoss_waits h hlast⟩⟩

end Sys2Proof.Machine

/-! SUPPORT. Membership of the stack (R355, R357, R360, R373), and O43. -/
namespace Sys2Proof.Machine

/-! What a change of the topology leaves of this member: its own standing with its reason, and the state of the links. -/

structure Dev.Stands (d e : Dev) : Prop where
  self : e.stack.self = d.stack.self
  stackId : e.stackId = d.stackId
  link : ∀ u, e.obj 0x9420 0x02 u = d.obj 0x9420 0x02 u
  reason : e.obj 0x9410 0x05 0 d.stackId = d.obj 0x9410 0x05 0 d.stackId

theorem Dev.Stands.refl (d : Dev) : d.Stands d := ⟨rfl, rfl, fun _ => rfl, rfl⟩

theorem Dev.Stands.trans {d e f : Dev} (h : d.Stands e) (g : e.Stands f) : d.Stands f :=
  ⟨g.self.trans h.self, g.stackId.trans h.stackId, fun u => (g.link u).trans (h.link u), (h.stackId ▸ g.reason).trans h.reason⟩

theorem stands_foldl {α : Type} (d : Dev) (f : Dev → α → Dev) (h : ∀ (d : Dev) a, d.Stands (f d a)) (l : List α) : d.Stands (l.foldl f d) :=
  List.foldlRecOn l f (Dev.Stands.refl d) fun b hb a _ => hb.trans (h b a)

section
variable {d e : Dev} (h : d.Stands e)
include h

theorem Dev.Stands.set {i j v u r : Nat} (hi : i < 65536) (hj : j < 256) (h1 : i ≠ 0x9420) (h2 : ¬ (i = 0x9410 ∧ j = 5)) : d.Stands (e.set i j v u r) where
  self := h.self
  stackId := h.stackId
  link w := (obj_set_field e hj hi (by omega) (by omega) (fun hne => h1 hne.1.symm)).trans (h.link w)
  reason := (obj_set_field e hj hi (by omega) (by omega) (by omega)).trans h.reason

theorem Dev.Stands.inc {i j u r n : Nat} (hi : i < 65536) (hj : j < 256) (h1 : i ≠ 0x9420) (h2 : ¬ (i = 0x9410 ∧ j = 5)) : d.Stands (e.inc i j u r n) := h.set hi hj h1 h2

theorem Dev.Stands.setReason {v m : Nat} (hm : m ≠ d.stackId) : d.Stands (e.set 0x9410 0x05 v 0 m) where
  self := h.self
  stackId := h.stackId
  link w := (obj_set_field e (by omega) (by omega) (by omega) (by omega) (by omega)).trans (h.link w)
  reason := (obj_set_place e (by omega) (by omega) fun hne => hm hne.2.symm).trans h.reason

theorem Dev.Stands.stackEvent (c : Ev) (b : Bytes) : d.Stands (e.stackEvent c b) := ⟨h.self, h.stackId, h.link, h.reason⟩
theorem Dev.Stands.fabUpd (f : FabSt → FabSt) : d.Stands (e.fabUpd f) := ⟨h.self, h.stackId, h.link, h.reason⟩
theorem Dev.Stands.out (o : Out) : d.Stands (e.out o) := ⟨h.self, h.stackId, h.link, h.reason⟩
theorem Dev.Stands.stackUpd (f : StackSt → StackSt) (hf : (f e.stack).self = e.stack.self) : d.Stands (e.stackUpd f) := ⟨hf.trans h.self, h.stackId, h.link, h.reason⟩

theorem Dev.Stands.bridgeLog (r : BridgeReq) (n : Nat) : d.Stands (e.bridgeLog r n) := by
  have hcount : d.Stands (if e.obj 0x9440 0x07 = 16 then e.inc 0x9440 0x08 else e.set 0x9440 0x07 (e.obj 0x9440 0x07 + 1)) := by
    split
    · exact h.inc (by omega) (by omega) (by omega) (by omega)
    · exact h.set (by omega) (by omega) (by omega) (by omega)
  have hshift : ∀ y : Dev, y.Stands ((List.range 15).foldl (fun d k => [1, 2, 3, 4, 5].foldl (fun d s => d.set 0x9441 s (d.obj 0x9441 s 0 (14 - k)) 0 (15 - k)) d) y) := fun y => by
    refine stands_foldl y _ (fun d k => ?_) _
    refine List.foldlRecOn _ _ (Dev.Stands.refl d) fun b hb a ha => ?_
    exact hb.set (by omega) (by have : a ≤ 5 := by simp at ha; omega
                                omega) (by omega) (by omega)
  have hfields : ∀ y : Dev, y.Stands ((((y.set 0x9441 1 r.target).set 0x9441 2 r.addr).set 0x9441 3 n).set 0x9441 4 r.pair) := fun y =>
    ((((Dev.Stands.refl y).set (by omega) (by omega) (by omega) (by omega)).set (by omega) (by omega) (by omega) (by omega)).set (by omega) (by omega) (by omega) (by omega)).set
      (by omega) (by omega) (by omega) (by omega)
  exact ((((hcount.trans (hshift _)).trans (hfields _)).set (by omega) (by omega) (by omega) (by omega)).inc (by omega) (by omega) (by omega) (by omega)).stackEvent _ _

theorem Dev.Stands.bridgeLost (m : Nat) : d.Stands (e.bridgeLost m) := by
  refine Dev.Stands.trans ?_ (stands_foldl _ _ (fun d r => ?_) _)
  · refine Dev.Stands.trans ?_ (stands_foldl _ _ (fun d r => (Dev.Stands.refl d).bridgeLog r 4) _)
    exact h.stackUpd _ rfl
  · exact ((Dev.Stands.refl d).stackUpd _ rfl).out _

theorem Dev.Stands.framesLost (m : Nat) : d.Stands (e.framesLost m) := by
  refine h.trans (stands_foldl e _ (fun d f => ?_) _)
  have hput : ∀ (y : Dev) (g : Frame), y.Stands (y.putFrame g) := fun y g =>
    ⟨(congrArg (fun x : Dev => x.stack.self) (moved_putFrame y g).rest :), (congrArg Dev.stackId (moved_putFrame y g).rest :),
      fun u => (moved_putFrame y g).obj _ _ _ _ (by omega) (by omega) rfl, (moved_putFrame y g).obj _ _ _ _ (by omega) (by omega) rfl⟩
  have hdropped : ∀ n, d.Stands (d.inc 0x9400 0x0B 0 0 n) := fun n => (Dev.Stands.refl d).inc (by omega) (by omega) (by omega) (by omega)
  simp only
  split
  · exact Dev.Stands.refl d
  · exact (hdropped _).trans (hput _ _)

theorem Dev.Stands.chartForget (m : Nat) : d.Stands (e.chartForget m) := ⟨h.self, h.stackId, h.link, h.reason⟩

theorem Dev.Stands.memberLost {m : Nat} (hm : m ≠ d.stackId) : d.Stands (e.memberLost m) := by
  unfold Dev.memberLost
  split
  · exact h
  · have hshown : d.Stands (((((e.set 0x9410 0x01 0 0 m).inc 0x9410 0x04 0 m).inc 0x9400 0x08).set 0x9410 0x06 0 0 m).set 0x9410 0x07 0 0 m) :=
      ((((h.set (by omega) (by omega) (by omega) (by omega)).inc (by omega) (by omega) (by omega) (by omega)).inc (by omega) (by omega) (by omega) (by omega)).set
        (by omega) (by omega) (by omega) (by omega)).set (by omega) (by omega) (by omega) (by omega)
    exact (((((hshown.setReason hm).chartForget m).framesLost m).bridgeLost m).fabUpd _).stackEvent _ _

theorem Dev.Stands.memberPath (m : Nat) : d.Stands (e.memberPath m) := by
  unfold Dev.memberPath
  split
  · exact h
  · next hm =>
    have hne : m ≠ d.stackId := h.stackId ▸ hm
    split
    · exact h.memberLost hne
    · next a p _ =>
      have hshown : d.Stands ((e.set 0x9410 0x06 a 0 m).set 0x9410 0x07 p 0 m) := (h.set (by omega) (by omega) (by omega) (by omega)).set (by omega) (by omega) (by omega) (by omega)
      have hinfo : ∀ {y : Dev}, d.Stands y → d.Stands (match y.memberInfo m with
          | some i => if (y.set 0x9410 0x02 i.firmware 0 m).obj 0x9410 0x01 0 m = 2 then (y.set 0x9410 0x02 i.firmware 0 m).set 0x9401 0x04 i.applied 0 m else y.set 0x9410 0x02 i.firmware 0 m
          | none => y) := fun {y} hy => by
        split
        · have hfirm := hy.set (i := 0x9410) (j := 0x02) (v := MemberInfo.firmware ‹_›) (u := 0) (r := m) (by omega) (by omega) (by omega) (by omega)
          split
          · exact hfirm.set (by omega) (by omega) (by omega) (by omega)
          · exact hfirm
        · exact hy
      have hpath : ∀ {y : Dev}, d.Stands y → d.Stands (if y.obj 0x9410 0x01 0 m = 0 then y.set 0x9410 0x01 1 0 m
          else if e.obj 0x9410 0x07 0 m ≠ 0 ∧ e.obj 0x9410 0x07 0 m ≠ p then y.fabUpd fun x => { x with pathHold := tput (fun _ => none) x.pathHold m (some (y.now + 20 * perUs)) }
          else y) := fun {y} hy => by
        split
        · exact hy.set (by omega) (by omega) (by omega) (by omega)
        · split
          · exact hy.fabUpd _
          · exact hy
      exact hpath (hinfo hshown)

theorem Dev.Stands.memberIn {m : Nat} (hm : m ≠ e.stackId) : d.Stands (e.memberIn m) := by
  unfold Dev.memberIn
  rw [if_neg hm]
  split
  · exact h
  · exact ((h.set (by omega) (by omega) (by omega) (by omega)).inc (by omega) (by omega) (by omega) (by omega)).stackEvent _ _

theorem Dev.Stands.holdOut {m : Nat} (hm : m ≠ e.stackId) (n : Nat) : d.Stands (e.holdOut m n) := by
  unfold Dev.holdOut
  rw [if_neg hm]
  exact ((h.set (by omega) (by omega) (by omega) (by omega)).setReason (h.stackId ▸ hm)).stackEvent _ _

end
/-! A member whose number is taken is held out as its link comes up (R357). -/

/-- This member is held out for its number, and a link of it is up. -/
structure Dev.HeldApart (d : Dev) : Prop where
  self : d.stack.self = 3
  reason : d.obj 0x9410 0x05 0 d.stackId = 1
  up : [0, 1].any (fun k => d.klinkState k == 2) = true

theorem Dev.Stands.heldApart {d e : Dev} (h : d.Stands e) (ha : d.HeldApart) : e.HeldApart where
  self := h.self.trans ha.self
  reason := by rw [h.stackId]; exact h.reason.trans ha.reason
  up := by
    have hlink : ∀ k, e.klinkState k = d.klinkState k := fun k => h.link _
    simp only [hlink]
    exact ha.up

section
variable {d : Dev}

theorem Dev.HeldApart.adoptOne (h : d.HeldApart) (m : Nat) : (d.adoptOne m).HeldApart := by
  unfold Dev.adoptOne
  split
  · exact h
  · split
    · next hm =>
      subst hm
      rw [if_neg (by simp [h.self]), if_neg (by simp [h.self]), if_neg (by simp [h.reason])]
      exact h
    · next hm =>
      split
      · exact h
      · split
        · have hin : d.Stands ((d.set 0x9410 0x05 0 0 m).memberIn m) := ((Dev.Stands.refl d).setReason hm).memberIn hm
          simp only
          split
          · exact hin.heldApart h
          · exact (hin.set (by omega) (by omega) (by omega) (by omega)).heldApart h
        · split
          · exact ((Dev.Stands.refl d).holdOut hm _).heldApart h
          · exact h

theorem stackEvent_obj (d : Dev) (c : Ev) (b : Bytes) (i j u r : Nat) : (d.stackEvent c b).obj i j u r = d.obj i j u r := rfl

theorem zoneTakeOver_stack : d.zoneTakeOver.stack = d.stack := by
  unfold Dev.zoneTakeOver
  simp only
  split
  · rfl
  · split
    · rfl
    · split
      · rfl
      · split <;> rfl

theorem leadSelect_self : d.leadSelect.stack.self = d.stack.self := by
  unfold Dev.leadSelect
  simp only
  split
  · rfl
  · split
    · refine foldl_leaves (fun d : Dev => d.stack.self) _ (fun d q => ?_) _ _
      exact (congrArg (fun x : Dev => x.stack.self) (sent_sendTo d _ _).rest :)
    · split
      · exact (congrArg StackSt.self zoneTakeOver_stack :)
      · rfl

theorem leadClaim_stack : d.leadClaim.stack = d.stack := by
  unfold Dev.leadClaim
  split
  · split
    · rfl
    · split <;> rfl
  · rfl

theorem ite_stack {p : Prop} [Decidable p] {a b : Dev} {x : StackSt} (ha : a.stack = x) (hb : b.stack = x) : (if p then a else b).stack = x := by
  split
  · exact ha
  · exact hb

theorem stackView_self : d.stackView.stack.self = d.stack.self := by
  have hlead : ∀ {p : Prop} [Decidable p] {y : Dev}, y.stack = d.stack → (if p then y.leadClaim else y).stack = d.stack := fun hy => ite_stack (leadClaim_stack.trans hy) hy
  have hzone : ∀ {p q : Prop} [Decidable p] [Decidable q] {y : Dev}, y.stack = d.stack → (if p then y else if q then y.set 0x9430 0x01 1 else y).stack = d.stack :=
    fun hy => ite_stack hy (ite_stack hy hy)
  exact congrArg StackSt.self (hlead (hzone (ite_stack rfl rfl)))

theorem Dev.HeldApart.stackSettle (h : d.HeldApart) : d.stackSettle.stack.self = 3 := by
  have hpaths : ((List.range 4).foldl Dev.memberPath d).HeldApart := (stands_foldl d _ (fun d m => (Dev.Stands.refl d).memberPath m) _).heldApart h
  obtain ⟨y, hy⟩ : ∃ y, (List.range 4).foldl Dev.memberPath d = y := ⟨_, rfl⟩
  rw [hy] at hpaths
  have hadopt : y.adopt.HeldApart := List.foldlRecOn _ _ hpaths fun b hb m _ => hb.adoptOne m
  unfold Dev.stackSettle
  simp only [hy]
  rw [if_neg (by simp [hpaths.up]), stackView_self, leadSelect_self]
  exact hadopt.self

theorem portLinkUp_stack (d : Dev) (p : Nat) : (d.portLinkUp p).stack = d.stack := by
  unfold Dev.portLinkUp
  exact ite_stack rfl rfl

theorem stackUp_held {k : Nat} {m : Hello} (hk : k < 2) (hm : m.self.member = d.stackId) (h2 : m.self.state = 2) (h1 : d.stack.self = 1) (hfirst : d.goesFirst m = true) :
    (d.stackUp k m).stack.self = 3 := by
  have htaken : d.numberTaken m = true := by simp [Dev.numberTaken, hm, h2]
  obtain ⟨x, hx⟩ : ∃ x, (((d.set 0x9420 0x02 2 (uK k)).set 0x9420 0x03 m.self.member (uK k)).set 0x9420 0x04 m.port (uK k)).inc 0x9420 0x05 (uK k) = x := ⟨_, rfl⟩
  obtain ⟨y, hy⟩ : ∃ y, ((x.set 0x4020 0x03 1 (uK k)).set 0x4020 0x04 25000 (uK k)).inc 0x4020 0x05 (uK k) = y := ⟨_, rfl⟩
  obtain ⟨z, hz⟩ : ∃ z, (y.set 0x4000 0x03 (setBit (x.obj 0x4000 0x03) (20 + k) true)).portLinkUp (20 + k) = z := ⟨_, rfl⟩
  have hyk : y.klinkState k = 2 := by
    subst hy hx
    unfold Dev.klinkState
    simp (disch := omega) only [obj_inc_field, obj_set_field, obj_set_same]
  have hzk : z.klinkState k = 2 := by
    subst hz
    unfold Dev.portLinkUp
    simp only
    split
    · exact (obj_set_field y (by omega) (by omega) (by omega) (by omega) (by omega)).trans hyk
    · refine (obj_set_field _ (by omega) (by omega) (by omega) (by omega) (by omega)).trans ?_
      exact (obj_set_field y (by omega) (by omega) (by omega) (by omega) (by omega)).trans hyk
  have hzs : z.stack = d.stack := by
    rw [← hz, portLinkUp_stack, Dev.set_stack, ← hy, ← hx]
    simp only [Dev.inc_stack, Dev.set_stack]
  have hjoin : z.joinStack = z := if_pos (by rw [hzs, h1]; omega)
  have hheld : (z.holdOut z.stackId 1).HeldApart := by
    unfold Dev.holdOut
    rw [if_pos rfl]
    refine ⟨rfl, (stackEvent_obj _ _ _ _ _ _ _).trans (obj_set_same _ _ _ _ _ _), ?_⟩
    have hlink : ∀ j, (((z.stackUpd fun x => { x with self := 3 }).set 0x9410 0x05 1 0 z.stackId).stackEvent .memberHeld [BitVec.ofNat 8 z.stackId, BitVec.ofNat 8 1]).klinkState j =
        z.klinkState j := fun j => (stackEvent_obj _ _ _ _ _ _ _).trans (obj_set_field _ (by omega) (by omega) (by omega) (by omega) (by omega))
    simp only [hlink]
    simp only [List.any_cons, List.any_nil, Bool.or_false, Bool.or_eq_true, beq_iff_eq]
    rcases (by omega : k = 0 ∨ k = 1) with rfl | rfl
    · exact .inl hzk
    · exact .inr hzk
  unfold Dev.stackUp
  simp only [htaken, hfirst, Bool.true_or, Bool.and_true, if_true, hx, hy, hz, hjoin]
  exact hheld.stackSettle

end

/-! Rejoin (R357, R373). -/

section
variable {s : State} {t : Nat} {d : Dev} {m : Nat} (h : s.Tick t d) (hm : m < 4) (n : Nat)
include h hm

theorem rejoinComplete_unknown (hi : d.infoOf m = none) : Becomes (.rejoinComplete t m n) s d := by
  refine becomes h (by unfold exec; rfl) (decide_eq_true hm) ?_
  simp only [hi]

theorem rejoinComplete_becomes {i : MemberInfo} (hi : d.infoOf m = some i) {x : Dev} (hx : (
    if d.mState m ≠ 1 then d
    else if d.holdReason m ≠ 0 then (d.holdOut m (d.holdReason m)).stackView
    else if tget (fun _ => false) d.stack.overflow m then (d.holdOut m 4).stackView
    else if m = d.stackId ∧ ¬ d.isLead ∧ d.obj 0x9430 0x01 ≠ 2 then d
    else (((d.replayTo m n i).memberIn m).leadSelect.stackView).stackProgress) = x) : Becomes (.rejoinComplete t m n) s x := by
  refine becomes h (by unfold exec; rfl) (decide_eq_true hm) ?_
  simp only [hi]
  exact hx

theorem rejoinComplete_own (he : m = d.stackId) (h1 : d.stack.self = 1) (hr : d.holdReason m = 0) (ho : tget (fun _ => false) d.stack.overflow m = false) {x : Dev} (hx : (
    if m = d.stackId ∧ ¬ d.isLead ∧ d.obj 0x9430 0x01 ≠ 2 then d else (((d.replayTo m n d.selfInfo).memberIn m).leadSelect.stackView).stackProgress) = x) :
    Becomes (.rejoinComplete t m n) s x := by
  have hstate : d.mState m = 1 := (if_pos he).trans h1
  refine rejoinComplete_becomes h hm n (if_pos he) ?_
  rw [if_neg (by simp [hstate]), if_neg (by simp [hr]), if_neg (by simp [ho])]
  exact hx

section
variable {i : MemberInfo} (hi : d.infoOf m = some i) (hne : m ≠ d.stackId) (h1 : d.mState m = 1)
include hi hne h1

theorem rejoinComplete_heldOut (hr : d.holdReason m ≠ 0) : Becomes (.rejoinComplete t m n) s ((d.holdOut m (d.holdReason m)).stackView) ∧
    (d.holdOut m (d.holdReason m)).obj 0x9410 0x01 0 m = 3 ∧ (d.holdOut m (d.holdReason m)).obj 0x9410 0x05 0 m = d.holdReason m := by
  refine ⟨rejoinComplete_becomes h hm n hi ?_, ?_⟩
  · rw [if_neg (by simp [h1]), if_pos hr]
  · unfold Dev.holdOut
    rw [if_neg hne]
    refine ⟨(stackEvent_obj _ _ _ _ _ _ _).trans ?_, (stackEvent_obj _ _ _ _ _ _ _).trans (obj_set_same _ _ _ _ _ _)⟩
    exact (obj_set_field _ (by omega) (by omega) (by omega) (by omega) (by omega)).trans (obj_set_same d _ _ _ _ _)

omit hne in
theorem rejoinComplete_overflowed (hr : d.holdReason m = 0) (ho : tget (fun _ => false) d.stack.overflow m = true) :
    Becomes (.rejoinComplete t m n) s ((d.holdOut m 4).stackView) := by
  refine rejoinComplete_becomes h hm n hi ?_
  rw [if_neg (by simp [h1]), if_neg (by simp [hr]), if_pos ho]

theorem rejoinComplete_joins (hr : d.holdReason m = 0) (ho : tget (fun _ => false) d.stack.overflow m = false) :
    Becomes (.rejoinComplete t m n) s ((((d.replayTo m n i).memberIn m).leadSelect.stackView).stackProgress) := by
  refine rejoinComplete_becomes h hm n hi ?_
  rw [if_neg (by simp [h1]), if_neg (by simp [hr]), if_neg (by simp [ho]), if_neg fun hc => hne hc.1]

end

omit h hm in
theorem memberIn_present (hne : m ≠ d.stackId) (h2 : d.obj 0x9410 0x01 0 m ≠ 2) :
    (d.memberIn m).obj 0x9410 0x01 0 m = 2 ∧ (d.memberIn m).obj 0x9410 0x03 0 m = (d.obj 0x9410 0x03 0 m + 1) % 2 ^ 32 := by
  unfold Dev.memberIn
  rw [if_neg hne, if_neg h2]
  refine ⟨(stackEvent_obj _ _ _ _ _ _ _).trans ?_, (stackEvent_obj _ _ _ _ _ _ _).trans ((obj_inc_same _ _ _ _ _ _).trans ?_)⟩
  · exact (obj_inc_field _ (by omega) (by omega) (by omega) (by omega) (by omega)).trans (obj_set_same d _ _ _ _ _)
  rw [obj_set_field d (by omega) (by omega) (by omega) (by omega) (by omega)]

omit hm in
theorem memberAdmit_admits {q : Request} {o : ObjRow} (hw : d.takesWrite q o .memberAdmit 0 = true) (hi : recIndex q.bytes = 0x9410) (hj : recSub q.bytes = 0x08) (hv : q.value = 1) :
    Completes (.memberAdmit t) s (d.Wrote q o fun y => (((y.memberIn q.record).set 0x9401 0x03 1 0 q.record).set 0x9410 0x05 0 0 q.record).leadSelect.stackView) := by
  refine wrote h hw (by unfold exec; rfl) _ _ hi hj (by omega) (by omega) (by omega) (by omega) ?_
  exact if_pos hv

theorem pathChangeHoldEnd_becomes {e : Nat} (he : tget (fun _ => none) d.fab.pathHold m = some e) {x : Dev} (hx : (
    if e ≤ d.now then d.fabUpd fun x => { x with pathHold := tput (fun _ => none) x.pathHold m none } else d) = x) : Becomes (.pathChangeHoldEnd t m) s x := by
  refine becomes h (by unfold exec; rfl) (decide_eq_true hm) ?_
  simp only [he]
  exact hx

end

/-- Settles O43: a joining member by the checks of its rejoin; a duplicate by what the changes of the topology leave of this member. -/
theorem membership : Obligations.Membership := by
  unfold Obligations.Membership
  intro s t d m n h hm
  refine ⟨rejoinComplete_unknown h hm n, fun he h1 hr ho => ⟨fun hl hz => rejoinComplete_own h hm n he h1 hr ho (if_pos ⟨he, by simp [hl], hz⟩),
    fun hz => rejoinComplete_own h hm n he h1 hr ho (if_neg fun hc => hc.2.2 hz)⟩, fun k m hk hmem h2 h1 hfirst _ => stackUp_held hk hmem h2 h1 hfirst, fun i hi hne => ?_,
    fun q o => memberAdmit_admits h, fun e he => ⟨fun hdue => pathChangeHoldEnd_becomes h hm he (if_pos hdue), fun hw => pathChangeHoldEnd_becomes h hm he (if_neg (by omega))⟩⟩
  exact ⟨fun h1 => rejoinComplete_becomes h hm n hi (if_pos h1), rejoinComplete_heldOut h hm n hi hne, rejoinComplete_overflowed h hm n hi, rejoinComplete_joins h hm n hi hne,
    memberIn_present hne⟩

end Sys2Proof.Machine

/-! SUPPORT. Writes across the stack (R356, R361, R362), and O44. -/
namespace Sys2Proof.Machine

/-- The record of a write leaves the standing of a member, and the settings that wait. -/
theorem recordWrite_keeps (d : Dev) (o : ObjRow) (b : Bytes) (ms : List Nat) (n : Nat) :
    (d.recordWrite o b ms n).stackId = d.stackId ∧ (d.recordWrite o b ms n).stack.self = d.stack.self ∧ (d.recordWrite o b ms n).alm.settings = d.alm.settings := by
  have hput : ∀ (d : Dev) e, (fun d : Dev => (d.stackId, d.stack.self, d.alm.settings)) (d.putRecord e) = (d.stackId, d.stack.self, d.alm.settings) := fun d e => by
    unfold Dev.putRecord
    simp only
    split <;> rfl
  have hall : (fun d : Dev => (d.stackId, d.stack.self, d.alm.settings)) (d.recordWrite o b ms n) = (d.stackId, d.stack.self, d.alm.settings) := by
    unfold Dev.recordWrite
    split
    · rfl
    · refine foldl_leaves (fun d : Dev => (d.stackId, d.stack.self, d.alm.settings)) _ (fun d m => ?_) _ d
      exact foldl_leaves (fun d : Dev => (d.stackId, d.stack.self, d.alm.settings)) _ (fun d u => hput d _) _ d
  simpa only [Prod.mk.injEq] using hall

section
variable {s : State} {t : Nat} {d : Dev} {o : ObjRow} {b : Bytes} (h : s.Tick t d) (hb : 20 ≤ b.length) (ho : findRow (recIndex b) (recSub b) = some o)
include h hb ho

/-! Checks of a member (R361). -/

theorem stackWriteCheck_becomes (v : Service) {x : Dev} (hx : (if d.isLead ∨ ¬ (d.pathMembers b).contains d.stackId then d
      else match d.firstRefusal o b (v == .pcie || v == .hs) with
        | some (code, path) => (d.countRefusal (recIndex b) (recRecord b) code).answerLead code path
        | none => d.answerLead 0 []) = x) : Becomes (.stackWriteCheck t v b) s x := by
  refine becomes h (by unfold exec; rfl) (decide_eq_true hb) ?_
  simp only [ho]
  exact hx

theorem stackWriteCheck_answers (hl : d.isLead = false) (hm : d.stackId ∈ d.pathMembers b) (v : Service) :
    (d.firstRefusal o b (v == .pcie || v == .hs) = none → Becomes (.stackWriteCheck t v b) s (d.answerLead 0 [])) ∧
    (∀ (c : Nat) (p : Bytes), d.firstRefusal o b (v == .pcie || v == .hs) = some (c, p) →
      Becomes (.stackWriteCheck t v b) s ((d.countRefusal (recIndex b) (recRecord b) c).answerLead c p)) := by
  have hhere : ¬ (d.isLead = true ∨ ¬ (d.pathMembers b).contains d.stackId = true) := by simp [hl, hm]
  refine ⟨fun hr => stackWriteCheck_becomes h hb ho v ?_, fun c p hr => stackWriteCheck_becomes h hb ho v ?_⟩
  · rw [if_neg hhere, hr]
  · rw [if_neg hhere, hr]

/-! Commits (R361, R363). -/

section
variable (c : StackCommit) (hc : c.seq < 2 ^ 32) (hms : c.members.all (fun m => decide (m < 4)) = true)
include hc hms

theorem stackWriteCommit_becomes {x : Dev} (hx : (if d.isLead then d
      else
        let d := ((d.set 0x9400 0x07 c.seq).set 0x9401 0x04 c.seq 0 d.stackId).recordWrite o b c.members c.seq
        if ¬ c.members.contains d.stackId then d
        else match (if d.stack.self = 2 then none else d.firstRefusal o b true) with
          | some (code, path) => d.answerLead code path
          | none =>
            if d.alm.settings.any (fun x => x.1 == b) then
              (d.almUpd fun x => { x with settings := x.settings.map (fun y => if y.1 = b then (b, true) else y) }).answerLead 0 []
            else
            let d := (d.applyUnits o b).almUpd fun x => { x with answerDue := true }
            if d.writeReady then ((d.answerLead 0 []).almUpd fun x => { x with answerDue := false }).afterReply b else d) = x) : Becomes (.stackWriteCommit t c b) s x := by
  refine becomes h (by unfold exec; rfl) (by rw [decide_eq_true hb, decide_eq_true hc, hms]; rfl) ?_
  simp only [ho]
  exact hx

theorem stackWriteCommit_applies (hl : d.isLead = false) :
    let x := ((d.set 0x9400 0x07 c.seq).set 0x9401 0x04 c.seq 0 d.stackId).recordWrite o b c.members c.seq
    (d.stackId ∉ c.members → Becomes (.stackWriteCommit t c b) s x) ∧
    (d.stackId ∈ c.members → d.stack.self = 2 → d.alm.settings = [] →
      let y := (x.applyUnits o b).almUpd fun z => { z with answerDue := true }
      (y.writeReady = true → Becomes (.stackWriteCommit t c b) s (((y.answerLead 0 []).almUpd fun z => { z with answerDue := false }).afterReply b)) ∧
      (y.writeReady = false → Becomes (.stackWriteCommit t c b) s y)) := by
  intro x
  obtain ⟨hid, hself, hsettings⟩ := recordWrite_keeps ((d.set 0x9400 0x07 c.seq).set 0x9401 0x04 c.seq 0 d.stackId) o b c.members c.seq
  have hbecomes : ∀ {z : Dev}, (if ¬ c.members.contains x.stackId then x
        else match (if x.stack.self = 2 then none else x.firstRefusal o b true) with
          | some (code, path) => x.answerLead code path
          | none =>
            if x.alm.settings.any (fun x => x.1 == b) then
              (x.almUpd fun x => { x with settings := x.settings.map (fun y => if y.1 = b then (b, true) else y) }).answerLead 0 []
            else
            let d := (x.applyUnits o b).almUpd fun x => { x with answerDue := true }
            if d.writeReady then ((d.answerLead 0 []).almUpd fun x => { x with answerDue := false }).afterReply b else d) = z → Becomes (.stackWriteCommit t c b) s z :=
    fun hz => stackWriteCommit_becomes h hb ho c hc hms ((if_neg (by simp [hl])).trans hz)
  refine ⟨fun hm => hbecomes (if_pos ?_), fun hm h2 hnone => ?_⟩
  · rw [hid, Dev.set_stackId, Dev.set_stackId]
    simpa using hm
  · have hhere : ¬ ¬ c.members.contains x.stackId = true := by
      rw [hid, Dev.set_stackId, Dev.set_stackId]
      simpa using hm
    have hpresent : x.stack.self = 2 := hself.trans h2
    have hset : x.alm.settings = [] := hsettings.trans hnone
    refine ⟨fun hr => hbecomes ?_, fun hr => hbecomes ?_⟩
    · rw [if_neg hhere, if_pos hpresent, hset]
      exact if_pos hr
    · rw [if_neg hhere, if_pos hpresent, hset]
      exact if_neg (Bool.eq_false_iff.1 hr)

end
end

/-! Answers to the lead (R361, R363). -/

section
variable {s : State} {t m : Nat} {d : Dev} (h : s.Tick t d) (hm : m < 4)
include h hm

theorem memberAnswer_goesOn {w : StackWrite} (hw : d.alm.stackWrite = some w) (hwait : m ∈ w.waitFor) (hr : w.refusal = none) :
    Becomes (.memberAnswerReceived t m w.committed 0 []) s (((if w.committed = true then d.set 0x9401 0x04 (d.obj 0x9400 0x07) 0 m else d).almUpd fun x => { x with stackWrite := some { w with
      waitFor := w.waitFor.filter (fun k => k != m), taken := w.taken || w.committed } }).stackProgress) := by
  refine becomes h (by unfold exec; rfl) (by rw [decide_eq_true hm]; rfl) ?_
  simp only [hw, hr]
  rw [if_neg (by simp [hwait])]
  simp only [ne_eq, not_true_eq_false, and_false, if_false, beq_self_eq_true, Bool.and_true]

theorem memberAnswer_none (g : Bool) (hw : d.alm.stackWrite = none) : Becomes (.memberAnswerReceived t m g 0 []) s d := by
  refine becomes h (by unfold exec; rfl) (by rw [decide_eq_true hm]; rfl) ?_
  simp only [hw]

end

/-! The replica of the ownership (R356). -/

/-- An object that one of a range of writes sets, and the others leave. -/
theorem obj_foldl_range (d : Dev) (f : Dev → Nat → Dev) {i j u r k v n : Nat} (hk : k < n) (hset : ∀ d, (f d k).obj i j u r = v)
    (hkeep : ∀ d m, m < n → m ≠ k → (f d m).obj i j u r = d.obj i j u r) : ((List.range n).foldl f d).obj i j u r = v := by
  induction n with
  | zero => omega
  | succ n ih =>
    rw [List.range_succ, List.foldl_append, List.foldl_cons, List.foldl_nil]
    by_cases he : n = k
    · subst he
      exact hset _
    · rw [hkeep _ _ (by omega) he]
      exact ih (by omega) fun d m hm => hkeep d m (by omega)

section
variable {s : State} {t : Nat} {d : Dev} (h : s.Tick t d) {w : Ownership} (h8 : w.owner.length = 8) (howner : ∀ x ∈ w.owner, 1 ≤ x.1 ∧ x.1 ≤ 8) (h16 : w.wins.length = 16)
include h h8 howner h16

theorem ownershipState_becomes {x : Dev} (hx : (if d.isLead then d
    else
      let d := w.owner.foldl (fun d x => d.set 0x1011 x.1 x.2) d
      let d := (List.range 16).foldl (fun d r => d.set 0x1010 0x06 (w.wins.getD r 0) 0 r) d
      let d := (List.range 13).foldl (fun d k => d.set 0x1020 (k + 1) (b2n (bit w.gates k))) d
      d.stackUpd fun x => { x with lease := some w.lease, leaseFrom := some d.now }) = x) : Becomes (.ownershipStateMessage t w) s x := by
  refine becomes h (by unfold exec; rfl) ?_ ?_
  · have hall : w.owner.all (fun x => 1 ≤ x.1 && x.1 ≤ 8) = true := List.all_eq_true.2 fun x hx => by simpa using howner x hx
    rw [h8, h16, hall]
    rfl
  · exact hx

theorem ownershipState_replica (hl : d.isLead = false) : Completes (.ownershipStateMessage t w) s fun x => x.stack.lease = some w.lease ∧ x.stack.leaseFrom = some d.now ∧
    (∀ r : Nat, r < 16 → x.obj 0x1010 0x06 0 r = w.wins.getD r 0) ∧ ∀ k : Nat, k < 13 → x.obj 0x1020 (k + 1) = b2n (bit w.gates k) := by
  obtain ⟨x, hx⟩ : ∃ x, w.owner.foldl (fun d x => d.set 0x1011 x.1 x.2) d = x := ⟨_, rfl⟩
  obtain ⟨y, hy⟩ : ∃ y, (List.range 16).foldl (fun d r => d.set 0x1010 0x06 (w.wins.getD r 0) 0 r) x = y := ⟨_, rfl⟩
  obtain ⟨z, hz⟩ : ∃ z, (List.range 13).foldl (fun d k => d.set 0x1020 (k + 1) (b2n (bit w.gates k))) y = z := ⟨_, rfl⟩
  have hnow : z.now = d.now := by
    rw [← hz, foldl_leaves Dev.now _ (fun d k => by simp only [Dev.set_now]), ← hy, foldl_leaves Dev.now _ (fun d k => by simp only [Dev.set_now]), ← hx,
      foldl_leaves Dev.now _ (fun d k => by simp only [Dev.set_now])]
  have hwins : ∀ r, r < 16 → z.obj 0x1010 0x06 0 r = w.wins.getD r 0 := fun r hr => by
    have hy' : y.obj 0x1010 0x06 0 r = w.wins.getD r 0 := by
      rw [← hy]
      exact obj_foldl_range x _ hr (fun d => obj_set_same d _ _ _ _ _) fun d m _ hm => obj_set_place d (by omega) (by omega) (by omega)
    rw [← hz]
    refine List.foldlRecOn (motive := fun e : Dev => e.obj 0x1010 0x06 0 r = w.wins.getD r 0) _ _ hy' fun e he k hk => ?_
    have hk' : k < 13 := List.mem_range.1 hk
    exact (obj_set_field e (by omega) (by omega) (by omega) (by omega) (by omega)).trans he
  have hgates : ∀ k, k < 13 → z.obj 0x1020 (k + 1) = b2n (bit w.gates k) := fun k hk => by
    rw [← hz]
    exact obj_foldl_range y _ hk (fun d => obj_set_same d _ _ _ _ _) fun d m hm hne => obj_set_field d (by omega) (by omega) (by omega) (by omega) (by omega)
  refine Becomes.completes (ownershipState_becomes h h8 howner h16 (x := z.stackUpd fun x => { x with lease := some w.lease, leaseFrom := some d.now }) ?_) ⟨rfl, rfl, hwins, hgates⟩
  rw [if_neg (by simp [hl]), ← hnow]
  simp only [hx, hy, hz]

end

/-- Settles O44: a member's check and commit by the conditions of the lead's write; the replica field by field. -/
theorem stackWrites : Obligations.StackWrites := by
  unfold Obligations.StackWrites
  intro s t d o b h hb ho
  exact ⟨fun hl => ⟨fun v => stackWriteCheck_becomes h hb ho v (if_pos (.inl hl)), fun c hc hms => stackWriteCommit_becomes h hb ho c hc hms (if_pos hl)⟩, stackWriteCheck_answers h hb ho,
    fun hl c hc hms => stackWriteCommit_applies h hb ho c hc hms hl, fun m w hm => memberAnswer_goesOn h hm, fun m g hm => memberAnswer_none h hm g,
    fun w h8 howner h16 => ⟨fun hl => ownershipState_becomes h h8 howner h16 (if_pos hl), ownershipState_replica h h8 howner h16⟩⟩

end Sys2Proof.Machine

/-! SUPPORT. The remote bridge (R369 to R371, R374), and O45. -/
namespace Sys2Proof.Machine

section
variable (d : Dev)

/-! Writes that hold the bus, and the error log (R369, R374). -/

theorem bridgePump_idle {d : Dev} (h : d.stack.held = []) (n : Nat) : d.bridgePump n = d := by
  cases n with
  | zero => rfl
  | succ n =>
    unfold Dev.bridgePump
    rw [h]

theorem bridgeDone_none {d : Dev} (h : d.stack.held = []) : d.bridgeDone [] = d := bridgePump_idle h 16

theorem busHeld_of_idle {d : Dev} (h : d.stack.held = []) {p : Nat} (hr : ∀ r ∈ d.stack.reads, r.pair ≠ p) : d.busHeld p = false := by
  unfold Dev.busHeld
  rw [h]
  simpa using hr

theorem stackEvent_stack (c : Ev) (b : Bytes) : (d.stackEvent c b).stack = d.stack := rfl

/-- The log with its entries moved on, and the entry that follows. -/
def Dev.bridgeShift (d : Dev) : Dev := (List.range 15).foldl (fun d k => [1, 2, 3, 4, 5].foldl (fun d s => d.set 0x9441 s (d.obj 0x9441 s 0 (14 - k)) 0 (15 - k)) d) d

def Dev.bridgeEntry (d : Dev) (r : BridgeReq) (n : Nat) : Dev :=
  let d := (((d.set 0x9441 1 r.target).set 0x9441 2 r.addr).set 0x9441 3 n).set 0x9441 4 r.pair
  ((d.set 0x9441 5 d.ltTime).inc 0x9440 0x02).stackEvent .bridgeError

theorem bridgeLog_eq (r : BridgeReq) (n : Nat) :
    d.bridgeLog r n = (if d.obj 0x9440 0x07 = 16 then d.inc 0x9440 0x08 else d.set 0x9440 0x07 (d.obj 0x9440 0x07 + 1)).bridgeShift.bridgeEntry r n := rfl

theorem bridgeShift_stack : d.bridgeShift.stack = d.stack := foldl_leaves Dev.stack _ (fun d k => by simp only [List.foldl_cons, List.foldl_nil, Dev.set_stack]) _ d

theorem bridgeLog_stack (r : BridgeReq) (n : Nat) : (d.bridgeLog r n).stack = d.stack := by
  have hentry : ∀ y : Dev, (y.bridgeEntry r n).stack = y.stack := fun y => by
    unfold Dev.bridgeEntry
    simp only [stackEvent_stack, Dev.inc_stack, Dev.set_stack]
  rw [bridgeLog_eq, hentry, bridgeShift_stack]
  exact ite_stack rfl rfl

theorem bridgeShift_obj {i j : Nat} (u r : Nat) (hi : i < 65536) (hj : j < 256) (h : i ≠ 0x9441) : d.bridgeShift.obj i j u r = d.obj i j u r := by
  refine foldl_leaves (fun d : Dev => d.obj i j u r) _ (fun d k => ?_) _ d
  have hset : ∀ (e : Dev) s v m, s < 256 → (e.set 0x9441 s v 0 m).obj i j u r = e.obj i j u r := fun e s v m hs => obj_set_field e hs (by omega) hj hi fun hne => h hne.1
  simp only [List.foldl_cons, List.foldl_nil]
  rw [hset _ _ _ _ (by omega), hset _ _ _ _ (by omega), hset _ _ _ _ (by omega), hset _ _ _ _ (by omega), hset _ _ _ _ (by omega)]

theorem bridgeShift_first : d.bridgeShift.obj 0x9441 1 0 1 = d.obj 0x9441 1 := by
  have hother : ∀ (y : Dev) k, k < 14 → ([1, 2, 3, 4, 5].foldl (fun d s => d.set 0x9441 s (d.obj 0x9441 s 0 (14 - k)) 0 (15 - k)) y).obj 0x9441 1 = y.obj 0x9441 1 := fun y k hk => by
    simp only [List.foldl_cons, List.foldl_nil]
    simp (disch := omega) only [obj_set_field]
    exact obj_set_place y (by omega) (by omega) (by omega)
  have hbefore : ((List.range 14).foldl (fun d k => [1, 2, 3, 4, 5].foldl (fun d s => d.set 0x9441 s (d.obj 0x9441 s 0 (14 - k)) 0 (15 - k)) d) d).obj 0x9441 1 = d.obj 0x9441 1 :=
    List.foldlRecOn (motive := fun e : Dev => e.obj 0x9441 1 = d.obj 0x9441 1) _ _ rfl fun e he k hk => (hother e k (List.mem_range.1 hk)).trans he
  unfold Dev.bridgeShift
  rw [List.range_succ, List.foldl_append]
  refine Eq.trans ?_ hbefore
  simp only [List.foldl_cons, List.foldl_nil]
  simp (disch := omega) only [obj_set_field, obj_set_same]

theorem bridgeLog_enters (r : BridgeReq) {n : Nat} (h : d.obj 0x9440 0x07 < 16) (hn : n = d.obj 0x9440 0x07) : (d.bridgeLog r 1).obj 0x9440 0x07 = n + 1 ∧
    (d.bridgeLog r 1).obj 0x9441 1 = r.target ∧ (d.bridgeLog r 1).obj 0x9441 2 = r.addr ∧ (d.bridgeLog r 1).obj 0x9441 1 0 1 = d.obj 0x9441 1 := by
  obtain ⟨y, hy⟩ : ∃ y, d.set 0x9440 0x07 (d.obj 0x9440 0x07 + 1) = y := ⟨_, rfl⟩
  have hlog : d.bridgeLog r 1 = y.bridgeShift.bridgeEntry r 1 := by rw [bridgeLog_eq, if_neg (by omega), hy]
  obtain ⟨v, hentry⟩ : ∃ v, ∀ i j m, (y.bridgeShift.bridgeEntry r 1).obj i j 0 m = ((((((y.bridgeShift.set 0x9441 1 r.target).set 0x9441 2 r.addr).set 0x9441 3 1).set 0x9441 4 r.pair).set
    0x9441 5 v).inc 0x9440 0x02).obj i j 0 m := ⟨_, fun i j m => stackEvent_obj _ _ _ _ _ _ _⟩
  rw [hlog]
  simp only [hentry]
  refine ⟨?_, ?_, ?_, ?_⟩
  · simp (disch := omega) only [obj_inc_field, obj_set_field]
    rw [bridgeShift_obj _ _ _ (by omega) (by omega) (by omega), ← hy, obj_set_same, hn]
  · simp (disch := omega) only [obj_inc_field, obj_set_field, obj_set_same]
  · simp (disch := omega) only [obj_inc_field, obj_set_field, obj_set_same]
  · simp (disch := omega) only [obj_inc_field, obj_set_field]
    rw [obj_set_place _ (by omega) (by omega) (by omega), bridgeShift_first, ← hy]
    exact obj_set_field d (by omega) (by omega) (by omega) (by omega) (by omega)

end

/-! Requests of a pair (R369, R370). -/

section
variable {s : State} {t : Nat} {d : Dev} {pair target tag addr : Nat} (h : s.Tick t d) (hpair : pair < 4) (htarget : target < 4) (htag : tag < 256) (haddr : addr < 2 ^ 40)
include h hpair htarget htag haddr

section
variable {b : Bytes} (h1 : 1 ≤ b.length) (h64 : b.length ≤ 64) (hheld : d.stack.held = [])
include h1 h64 hheld

theorem bridgePostedWrite_becomes {x : Dev} (hx : (if target = d.stackId ∨ d.busHeld pair then d
    else if d.obj 0x9410 0x01 0 target ≠ 2 then d.bridgeLog { tag := tag, pair := pair, target := target, addr := addr, len := b.length, issued := d.now } 4
    else (d.stackUpd fun x => { x with held := x.held ++ [({ tag := tag, pair := pair, target := target, addr := addr, len := b.length, issued := d.now }, b)] }).bridgePump 16) = x) :
    Becomes (.bridgePostedWriteIssue t pair target tag addr b []) s x := by
  refine becomes h (by unfold exec; rfl) (by simp [hpair, htarget, htag, h1, h64]; omega) ?_
  simp only [bridgeDone_none hheld]
  exact hx

theorem bridgePostedWrite_leaves (hne : target ≠ d.stackId) (hreads : ∀ r ∈ d.stack.reads, r.pair ≠ pair) (hroom : d.stack.writes.length < 16) (hin : d.obj 0x9410 0x01 0 target = 2) :
    Becomes (.bridgePostedWriteIssue t pair target tag addr b []) s
      (d.bridgeSend { tag := tag, pair := pair, target := target, addr := addr, len := b.length, issued := d.now } b) := by
  obtain ⟨r, hr⟩ : ∃ r : BridgeReq, { tag := tag, pair := pair, target := target, addr := addr, len := b.length, issued := d.now } = r := ⟨_, rfl⟩
  refine bridgePostedWrite_becomes h hpair htarget htag haddr h1 h64 hheld ?_
  rw [if_neg (by simp [hne, busHeld_of_idle hheld hreads]), if_neg (by simp [hin]), hr]
  have hempty : d.stackUpd (fun x => { x with held := [] }) = d := by
    rw [← hheld]
    rfl
  have hone : (d.stackUpd fun x => { x with held := x.held ++ [(r, b)] }).bridgePump 16 = ((d.stackUpd fun x => { x with held := [] }).bridgeSend r b).bridgePump 15 := by
    rw [Dev.bridgePump]
    simp only [Dev.stackUpd_stack, hheld, List.nil_append]
    rw [if_neg (by omega)]
    rfl
  rw [hone, hempty]
  refine bridgePump_idle ?_ 15
  refine Eq.trans ?_ hheld
  exact (congrArg (fun x : Dev => x.stack.held) (sent_sendTo ((d.stackUpd fun x => { x with writes := x.writes ++ [r] }).inc64 0x9440 0x01) r.target _).rest :)

end

section
variable {n : Nat} (h1 : 1 ≤ n) (h64 : n ≤ 64) (hne : target ≠ d.stackId) (hreads : d.stack.reads = []) (hheld : d.stack.held = [])
include h1 h64 hne hreads hheld

theorem bridgeReadIssue_becomes {x : Dev} (hx : (if d.obj 0x9410 0x01 0 target ≠ 2 then d.bridgeFail { tag := tag, pair := pair, target := target, addr := addr, len := n, issued := d.now }
    else ((d.stackUpd fun x => { x with reads := x.reads ++ [{ tag := tag, pair := pair, target := target, addr := addr, len := n, issued := d.now }] }).inc64 0x9440 0x03).sendTo target
      (.bridge (bridgeHeader 2 d.stackId target { tag := tag, pair := pair, len := n, addr := addr } 0) [])) = x) :
    Becomes (.bridgeReadIssue t pair target tag addr n) s x := by
  refine becomes h (by unfold exec; rfl) (by simp [hpair, htarget, htag, h1, h64]; omega) ?_
  refine (if_neg ?_).trans hx
  simp [hne, busHeld_of_idle hheld (p := pair) (by simp [hreads])]

theorem bridgeReadIssue_reads : let r : BridgeReq := { tag := tag, pair := pair, target := target, addr := addr, len := n, issued := d.now }
    (d.obj 0x9410 0x01 0 target = 2 → Becomes (.bridgeReadIssue t pair target tag addr n) s (((d.stackUpd fun x => { x with reads := [r] }).inc64 0x9440 0x03).sendTo target (.bridge (bridgeHeader 2 d.stackId target r.ref 0) []))) ∧
    (d.obj 0x9410 0x01 0 target ≠ 2 → Becomes (.bridgeReadIssue t pair target tag addr n) s (d.out (.bridgeRead pair (List.replicate n 0xFF) true))) := by
  intro r
  refine ⟨fun hin => bridgeReadIssue_becomes h hpair htarget htag haddr h1 h64 hne hreads hheld ?_, fun hout => bridgeReadIssue_becomes h hpair htarget htag haddr h1 h64 hne hreads hheld ?_⟩
  · rw [if_neg (by simp [hin])]
    have hone : d.stackUpd (fun x => { x with reads := x.reads ++ [r] }) = d.stackUpd fun x => { x with reads := [r] } := by
      simp only [Dev.stackUpd, hreads, List.nil_append]
    rw [← hone]
    rfl
  · rw [if_pos hout]
    have hnone : d.stackUpd (fun x => { x with reads := x.reads.filter (fun y => y != r) }) = d := by
      simp only [Dev.stackUpd, hreads, List.filter_nil]
      rw [← hreads]
    exact congrArg (Dev.out · (.bridgeRead pair (List.replicate n 0xFF) true)) hnone

end

/-! Requests of another member (R371). -/

theorem bridgeRequestExecute_answers (st : Nat) {b : Bytes} (h1 : 1 ≤ b.length) (h64 : b.length ≤ 64) (hst : st < 4) :
    let r : BridgeRef := { tag := tag, pair := pair, len := b.length, addr := addr }
    let y := (d.inc64 0x9440 0x06).out (.credit target)
    Becomes (.bridgeRequestExecute t 2 target pair tag addr b.length st b) s (y.sendTo target (.bridge (bridgeHeader 0x81 target d.stackId r st) (if st = 0 then b else List.replicate b.length 0))) ∧
    (st ≠ 0 → Becomes (.bridgeRequestExecute t 1 target pair tag addr b.length st b) s (y.sendTo target (.bridge (bridgeHeader 0x82 target d.stackId r st) []))) ∧
    Becomes (.bridgeRequestExecute t 1 target pair tag addr b.length 0 b) s y := by
  intro r y
  refine ⟨?_, fun hne => ?_, ?_⟩
  · refine becomes h (by unfold exec; rfl) (by simp [hpair, htarget, htag, h1, h64, hst]; omega) ?_
    exact if_pos rfl
  · refine becomes h (by unfold exec; rfl) (by simp [hpair, htarget, htag, h1, h64, hst]; omega) ?_
    exact (if_neg (by omega)).trans (if_pos hne)
  · refine becomes h (by unfold exec; rfl) (by simp [hpair, htarget, htag, h1, h64]; omega) ?_
    exact (if_neg (by omega)).trans (if_neg (by simp))

end

/-! Answers of another member (R369, R370). -/

section
variable {s : State} {t : Nat} {d : Dev} (h : s.Tick t d)
include h

section
variable {target tag : Nat} (htarget : target < 4) (htag : tag < 256)
include htarget htag

theorem bridgeReadCompletion_becomes (st : Nat) (b : Bytes) (hst : st < 5) {x : Dev} (hx : (
    match d.stack.reads.find? (fun r => r.target == target && r.tag == tag && decide (d.now ≤ r.issued + 100 * perUs)) with
    | some r =>
      let d := (d.stackUpd fun x => { x with writes := x.writes.filter (fun w => !(w.target == target && decide (w.issued < r.issued))) }).bridgePump 16
      if st = 0 then (d.stackUpd fun x => { x with reads := x.reads.filter (fun y => y != r) }).out (.bridgeRead r.pair b false) else d.bridgeFail r
    | none => d.inc 0x9440 0x05) = x) : Becomes (.bridgeReadCompletion t target tag st b) s x := by
  refine becomes h (by unfold exec; rfl) (by simp [htarget, htag, hst]) ?_
  exact hx

theorem bridgeReadCompletion_ends {r : BridgeReq} (b : Bytes) (hr : d.stack.reads = [r]) (hrt : r.target = target) (hrg : r.tag = tag) (hnow : d.now ≤ r.issued + 100 * perUs)
    (hheld : d.stack.held = []) :
    let y := d.stackUpd fun x => { x with reads := [], writes := x.writes.filter (fun w => !(w.target == target && decide (w.issued < r.issued))) }
    Becomes (.bridgeReadCompletion t target tag 0 b) s (y.out (.bridgeRead r.pair b false)) ∧
    Becomes (.bridgeReadCompletion t target tag 1 b) s (y.out (.bridgeRead r.pair (List.replicate r.len 0xFF) true)) := by
  intro y
  have hfind : d.stack.reads.find? (fun r => r.target == target && r.tag == tag && decide (d.now ≤ r.issued + 100 * perUs)) = some r := by
    rw [hr]
    simp [hrt, hrg, hnow]
  obtain ⟨z, hz⟩ : ∃ z, d.stackUpd (fun x => { x with writes := x.writes.filter (fun w => !(w.target == target && decide (w.issued < r.issued))) }) = z := ⟨_, rfl⟩
  have hpump : z.bridgePump 16 = z := bridgePump_idle (by rw [← hz]; exact hheld) 16
  have hdone : z.stackUpd (fun x => { x with reads := x.reads.filter (fun y => y != r) }) = y := by
    rw [← hz, Dev.stackUpd_stackUpd]
    simp only [y, Dev.stackUpd, hr]
    simp
  refine ⟨bridgeReadCompletion_becomes h htarget htag 0 b (by omega) ?_, bridgeReadCompletion_becomes h htarget htag 1 b (by omega) ?_⟩
  · rw [hfind]
    simp only [hz, hpump, if_true, hdone]
  · rw [hfind]
    simp only [hz, hpump]
    refine (if_neg (by omega)).trans ?_
    unfold Dev.bridgeFail
    rw [hdone]

theorem bridgeReadCompletion_late (b : Bytes) (hr : d.stack.reads = []) : Becomes (.bridgeReadCompletion t target tag 0 b) s (d.inc 0x9440 0x05) := by
  refine bridgeReadCompletion_becomes h htarget htag 0 b (by omega) ?_
  rw [hr]
  rfl

end

section
variable {pair : Nat} (hpair : pair < 4)
include hpair

theorem bridgeReadTimeout_nothing (hr : d.stack.reads = []) (hw : 1 ≤ pair ∨ d.alm.stackWrite = none) : Becomes (.bridgeReadTimeout t pair) s d := by
  refine becomes_timer_same h (by unfold exec; rfl) (decide_eq_true hpair) ?_
  rw [hr]
  rcases hw with hw | hw
  · exact if_neg (by omega)
  · have hcheck : d.checkTimeout = d := by
      unfold Dev.checkTimeout
      rw [hw]
    simp only [List.find?_nil, hcheck, ite_self]

theorem bridgeReadTimeout_fails {r : BridgeReq} (hr : d.stack.reads = [r]) (hrp : r.pair = pair) (ha : s.Alone d) (hdue : r.issued + 100 * perUs ≤ d.now) :
    Becomes (.bridgeReadTimeout t pair) s (((d.stackUpd fun x => { x with reads := [] }).out (.bridgeRead pair (List.replicate r.len 0xFF) true)).inc 0x9440 0x04) := by
  have hfind : d.stack.reads.find? (fun r => r.pair == pair) = some r := by simp [hr, hrp]
  have hnone : d.stackUpd (fun x => { x with reads := x.reads.filter (fun y => y != r) }) = d.stackUpd fun x => { x with reads := [] } := by
    unfold Dev.stackUpd
    simp [hr]
  refine becomes_timer h ha (by unfold exec; rfl) (by omega) (by omega) (decide_eq_true hpair) ?_
  simp only [hfind]
  refine (if_pos hdue).trans ?_
  unfold Dev.bridgeFail
  rw [hnone, hrp]

theorem bridgeReadTimeout_waits {r : BridgeReq} (hr : d.stack.reads = [r]) (hrp : r.pair = pair) (hearly : d.now < r.issued + 100 * perUs) : Becomes (.bridgeReadTimeout t pair) s d := by
  have hfind : d.stack.reads.find? (fun r => r.pair == pair) = some r := by simp [hr, hrp]
  refine becomes_timer_same h (by unfold exec; rfl) (decide_eq_true hpair) ?_
  simp only [hfind]
  exact if_neg (by omega)

end

theorem bridgeReadTimeout_check {w : StackWrite} {m : Nat} {l : List Nat} (ha : s.Alone d) (hr : d.stack.reads = []) (hruns : d.pairRuns 0 = true) (hw : d.alm.stackWrite = some w)
    (hdue : w.since + 100 * perUs ≤ d.now) (hwait : w.waitFor = m :: l) :
    Becomes (.bridgeReadTimeout t 0) s ((d.almUpd fun x => { x with stackWrite := some { w with waitFor := [], refusal := some (firstPath w.refusal 0x402 (unitPath m 0)) } }).stackProgress) := by
  refine becomes_timer h ha (by unfold exec; rfl) (by omega) (by omega) rfl ?_
  rw [hr]
  simp only [List.find?_nil, if_true]
  unfold Dev.checkTimeout
  simp only [hw]
  rw [if_neg (by simp [hruns]; omega), hwait]

section
variable {r : BridgeReq} {target : Nat} (hheld : d.stack.held = []) (hrt : r.target = target) (htarget : target < 4) (hok : BridgeRef.ok r.ref = true)
include hheld hrt htarget hok

theorem bridgeWriteError_becomes {k : Option Nat} (hk : (d.stack.writes.filter (fun w => w.target == target)).findIdx? (fun w => w.ref == r.ref) = k) :
    Becomes (.bridgeWriteErrorReport t target r.ref 1) s ((d.bridgeLog r 1).stackUpd fun x => { x with writes := (List.replicate ((k.map (· + 1)).getD 0) target).foldl (fun l m => l.eraseP (fun r => r.target == m)) x.writes }) := by
  refine becomes h (by unfold exec; rfl) (by simp [htarget, hok]) ?_
  have hlog : d.bridgeLog { tag := r.ref.tag, pair := r.ref.pair, target := target, addr := r.ref.addr, len := r.ref.len } 1 = d.bridgeLog r 1 := by
    unfold Dev.bridgeLog
    rw [hrt]
    rfl
  have hpump : ∀ (y : Dev) (f : StackSt → StackSt), (f y.stack).held = [] → (y.stackUpd f).bridgePump 16 = y.stackUpd f := fun y f hf => bridgePump_idle hf 16
  have hheld' : (d.bridgeLog r 1).stack.held = [] := (congrArg StackSt.held (bridgeLog_stack d r 1)).trans hheld
  obtain ⟨y, hy⟩ : ∃ y, d.bridgeLog r 1 = y := ⟨_, rfl⟩
  simp only [hk, hlog]
  rw [hy] at hheld' ⊢
  cases k with
  | none => exact hpump y _ hheld'
  | some k => exact hpump y _ hheld'

theorem bridgeWriteError_ends (hw : d.stack.writes = [r]) : Becomes (.bridgeWriteErrorReport t target r.ref 1) s ((d.bridgeLog r 1).stackUpd fun x => { x with writes := [] }) := by
  have hx := bridgeWriteError_becomes h hheld hrt htarget hok (k := some 0) (by simp [hw, hrt])
  have hnone : (d.bridgeLog r 1).stackUpd (fun x => { x with writes := (List.replicate (((some 0 : Option Nat).map (· + 1)).getD 0) target).foldl (fun l m => l.eraseP (fun r => r.target == m)) x.writes }) =
      (d.bridgeLog r 1).stackUpd fun x => { x with writes := [] } := by
    unfold Dev.stackUpd
    simp [bridgeLog_stack, hw, hrt]
  rwa [hnone] at hx

theorem bridgeWriteError_logged (hw : d.stack.writes = []) : Becomes (.bridgeWriteErrorReport t target r.ref 1) s (d.bridgeLog r 1) := by
  have hx := bridgeWriteError_becomes h hheld hrt htarget hok (k := none) (by simp [hw])
  obtain ⟨y, hy⟩ : ∃ y, d.bridgeLog r 1 = y := ⟨_, rfl⟩
  rw [hy] at hx ⊢
  exact hx

end

theorem bridgeLogClear_clears {q : Request} {o : ObjRow} (hw : d.takesWrite q o .bridgeLogClear 0 = true) (hi : recIndex q.bytes = 0x9440) (hj : recSub q.bytes = 0x09) (hv : q.value = 1) :
    Completes (.bridgeLogClear t) s fun x => x.obj 0x9440 0x07 = 0 ∧ ∀ r k : Nat, r < 16 → 1 ≤ k → k ≤ 5 → x.obj 0x9441 k 0 r = 0 := by
  obtain ⟨y, hy⟩ : ∃ y, (List.range 16).foldl (fun d r => [1, 2, 3, 4, 5].foldl (fun d s => d.set 0x9441 s 0 0 r) d) ((d.writeBase q o).set 0x9440 0x07 0) = y := ⟨_, rfl⟩
  have happly : (d.writeBase q o).apply 0x9440 0x09 0 q.record q.value = y := (if_pos hv).trans hy
  refine completes_taken h hw (by unfold exec; rfl) _ _ hi hj (by omega) (by omega) ?_
  rw [happly]
  refine ⟨?_, fun r k hr h1 h5 => ?_⟩
  · rw [tryFinish_kept y (fun x => x.obj 0x9440 0x07) q (by omega) (by omega) fun x => reply_served_obj x q 0 _ (by omega) (by omega) (by omega) (by omega) rfl, ← hy]
    refine (foldl_leaves (fun d : Dev => d.obj 0x9440 0x07) _ (fun d r => ?_) _ _).trans (obj_set_same _ _ _ _ _ _)
    simp only [List.foldl_cons, List.foldl_nil]
    simp (disch := omega) only [obj_set_field]
  · rw [tryFinish_kept y (fun x => x.obj 0x9441 k 0 r) q (by omega) (by omega) fun x => reply_served_obj x q 0 _ (by omega) (by omega) (by omega) (by omega) rfl, ← hy]
    refine obj_foldl_range _ _ hr (fun d => ?_) fun d m _ hm => ?_
    · simp only [List.foldl_cons, List.foldl_nil]
      rcases (by omega : k = 1 ∨ k = 2 ∨ k = 3 ∨ k = 4 ∨ k = 5) with rfl | rfl | rfl | rfl | rfl
      all_goals simp (disch := omega) only [obj_set_field, obj_set_same]
    · refine List.foldlRecOn (motive := fun e : Dev => e.obj 0x9441 k 0 r = d.obj 0x9441 k 0 r) _ _ rfl fun e he j hj => ?_
      have hj' : j < 256 := by
        simp only [List.mem_cons, List.not_mem_nil, or_false] at hj
        omega
      refine Eq.trans ?_ he
      by_cases hjk : j = k
      · subst hjk
        exact obj_set_place e (by omega) (by omega) (by omega)
      · exact obj_set_field e hj' (by omega) (by omega) (by omega) (by omega)

end

/-- Settles O45: requests and answers by the bus and the reads that are held, the error log entry by entry. -/
theorem remoteBridge : Obligations.RemoteBridge := by
  unfold Obligations.RemoteBridge
  intro s t d pair target tag addr h hpair htarget htag haddr
  refine ⟨fun b h1 h64 hne hheld hreads hroom => ⟨bridgePostedWrite_leaves h hpair htarget htag haddr h1 h64 hheld hne hreads hroom,
      fun hout => bridgePostedWrite_becomes h hpair htarget htag haddr h1 h64 hheld ?_⟩,
    fun b h1 h64 hbus hheld => bridgePostedWrite_becomes h hpair htarget htag haddr h1 h64 hheld (if_pos (.inr hbus)),
    fun n h1 h64 hne hreads hheld => bridgeReadIssue_reads h hpair htarget htag haddr h1 h64 hne hreads hheld,
    fun st b h1 h64 hst => bridgeRequestExecute_answers h hpair htarget htag haddr st h1 h64 hst,
    fun r b hr hrt hrg hnow hheld => bridgeReadCompletion_ends h htarget htag b hr hrt hrg hnow hheld,
    fun b hr => ⟨bridgeReadCompletion_late h htarget htag b hr, bridgeReadTimeout_nothing h hpair hr⟩, fun w m l => bridgeReadTimeout_check h,
    fun r hw hheld hrt hok => bridgeWriteError_ends h hheld hrt htarget hok hw, fun r hw hheld hrt hok => bridgeWriteError_logged h hheld hrt htarget hok hw,
    fun r n => bridgeLog_enters d r, fun r hr hrp => ⟨bridgeReadTimeout_fails h hpair hr hrp, bridgeReadTimeout_waits h hpair hr hrp⟩, fun q o => bridgeLogClear_clears h⟩
  rw [if_neg (by simp [hne, busHeld_of_idle hheld hreads]), if_pos hout]

end Sys2Proof.Machine

/-! SUPPORT. The wake inputs and their diagnostics (R263, R264), and O46. -/
namespace Sys2Proof.Machine

/-! Timers of the always-on domain. -/

section
variable {s : State} {t : Nat} {d x : Dev} {c : Instr} {ok : Bool} {aw : Dev → Instr → Bool} {f : Dev → Dev} {n : Nat}

theorem becomes_aonTimer (h : s.at t = d) (hoff : d.watch.off = false) (ha : s.Alone d) (e : exec c s = s.aonTimer t ok aw f n) (h1 : 0 < n) (h2 : n ≤ 1250) (hok : ok = true) (hx : f d = x) :
    Becomes c s x := becomes_aon h hoff (e.trans (aonTimer_alone h ha ok aw f h1 h2)) hok hx

theorem becomes_aonTimer_same (h : s.at t = d) (hoff : d.watch.off = false) (e : exec c s = s.aonTimer t ok aw f n) (hok : ok = true) (hx : f d = d) : Becomes c s d := by
  refine becomes_aon h hoff e hok ?_
  rw [hx, ite_self]

end

/-! Network management with nothing to do. -/

section
variable {d : Dev}

theorem segSettle_idle (h : ∀ u ∈ segments48, d.segState u = 0) (n : Nat) : d.segSettle n = d := by
  cases n with
  | zero => rfl
  | succ n =>
    have hnone : segments48.findSome? d.segChange = none := List.findSome?_eq_none_iff.2 fun u hu => by
      unfold Dev.segChange
      rw [h u hu]
      cases d.segNeed u <;> rfl
    unfold Dev.segSettle
    rw [hnone]

theorem sleepCheck_idle (h : ∀ u ∈ segments48, d.segState u = 0) (hseen : d.watch.sleepSeen = false) : d.sleepCheck = d := by
  have hnone : segments48.any (fun u => d.segState u != 0) = false := List.any_eq_false.2 fun u hu => by simp [h u hu]
  have hc : d.sleepCondition = false := by
    unfold Dev.sleepCondition
    rw [hnone]
    simp
  unfold Dev.sleepCheck
  simp [hc, hseen]

theorem watchSettle_idle (h : ∀ u ∈ segments48, d.segState u = 0) (hseen : d.watch.sleepSeen = false) : d.watchSettle = d := by
  unfold Dev.watchSettle
  rw [segSettle_idle h, sleepCheck_idle h hseen, ite_self]

/-- What a wake changes beside its segment: three objects of the Watch, WAKE_OUT and the time to acknowledge. -/
structure Dev.WakeNoted (d e : Dev) : Prop where
  obj : ∀ {i j : Nat} (u r : Nat), i < 65536 → j < 256 → ¬ (i = 0xA000 ∧ (j = 0x04 ∨ j = 0x08 ∨ j = 0x0D)) → e.obj i j u r = d.obj i j u r
  watch : ({ e.watch with wakeOut := 0, ackEnd := none } : WatchSt) = { d.watch with wakeOut := 0, ackEnd := none }

theorem Dev.WakeNoted.refl (d : Dev) : d.WakeNoted d := ⟨fun _ _ _ _ _ => rfl, rfl⟩

theorem Dev.WakeNoted.trans {d e f : Dev} (h : d.WakeNoted e) (g : e.WakeNoted f) : d.WakeNoted f :=
  ⟨fun u r hi hj hne => (g.obj u r hi hj hne).trans (h.obj u r hi hj hne), g.watch.trans h.watch⟩

theorem Dev.WakeNoted.sleepSeen {d e : Dev} (h : d.WakeNoted e) : e.watch.sleepSeen = d.watch.sleepSeen := (congrArg WatchSt.sleepSeen h.watch :)

theorem Dev.WakeNoted.coreOn {d e : Dev} (h : d.WakeNoted e) : e.coreOn = d.coreOn :=
  (congrArg (fun w : WatchSt => decide (w.stage = 0) && !w.inWatch && !w.off) h.watch :)

theorem wakeNoted_wakeOutBit (d : Dev) (k : Nat) (v : Bool) : d.WakeNoted (d.wakeOutBit k v) := by
  unfold Dev.wakeOutBit
  simp only
  split
  · exact ⟨fun _ _ _ _ _ => rfl, rfl⟩
  · exact ⟨fun u r hi hj hne => obj_set_field (d.watchUpd _) (by omega) (by omega) hj hi (by omega), rfl⟩

theorem wakeNoted_wakeEvent (d : Dev) (b : Bool) : d.WakeNoted (d.wakeEvent b) := by
  have hack : ∀ y : Dev, y.WakeNoted (if y.obj 0xA000 0x08 = 1 then (y.set 0xA000 0x08 0).watchUpd fun x => { x with ackEnd := none } else y) := fun y => by
    split
    · exact ⟨fun u r hi hj hne => obj_set_field y (by omega) (by omega) hj hi (by omega), rfl⟩
    · exact Dev.WakeNoted.refl y
  have hentry : ∀ y : Dev, y.WakeNoted (if y.obj 0xA000 0x04 = 1 then (y.set 0xA000 0x04 0).watchEvent .wake else y) := fun y => by
    split
    · exact ⟨fun u r hi hj hne => obj_set_field y (by omega) (by omega) hj hi (by omega), rfl⟩
    · exact Dev.WakeNoted.refl y
  obtain ⟨y, hy⟩ : ∃ y, (if d.obj 0xA000 0x08 = 1 then (d.set 0xA000 0x08 0).watchUpd fun x => { x with ackEnd := none } else d) = y := ⟨_, rfl⟩
  obtain ⟨z, hz⟩ : ∃ z, (if y.obj 0xA000 0x04 = 1 then (y.set 0xA000 0x04 0).watchEvent .wake else y) = z := ⟨_, rfl⟩
  have hboth := (hy ▸ hack d : d.WakeNoted y).trans (hz ▸ hentry y : y.WakeNoted z)
  unfold Dev.wakeEvent
  simp only [hy, hz]
  split
  · exact hboth
  · split
    · exact hboth.trans (wakeNoted_wakeOutBit _ _ _)
    · split
      · exact hboth.trans (wakeNoted_wakeOutBit _ _ _)
      · exact hboth

/-! States of an input (R264). -/

theorem inputState_plain (d : Dev) {i v : Nat} (h : d.obj 0x68B0 0x05 0 i = v ∨ v < 3) : d.inputState i v = d.set 0x68B0 0x05 v 0 i := if_neg fun hc => by omega

theorem inputState_faults (d : Dev) {i v : Nat} (h3 : 3 ≤ v) (h : d.obj 0x68B0 0x05 0 i ≠ v) :
    (d.inputState i v).obj 0x68B0 0x05 0 i = v ∧ (d.inputState i v).obj 0x68B0 0x08 0 i = (d.obj 0x68B0 0x08 0 i + 1) % 2 ^ 32 := by
  have hstate : d.inputState i v = ((d.set 0x68B0 0x05 v 0 i).inc 0x68B0 0x08 0 i).event 1 (some 17) Ev.inputFault.code 0 (beBytes 2 i ++ beBytes 2 v) := if_pos ⟨h, h3⟩
  have hobj : ∀ j, (d.inputState i v).obj 0x68B0 j 0 i = ((d.set 0x68B0 0x05 v 0 i).inc 0x68B0 0x08 0 i).obj 0x68B0 j 0 i := fun j => by
    rw [hstate]
    rfl
  rw [hobj, hobj]
  refine ⟨?_, ?_⟩
  · simp (disch := omega) only [obj_inc_field, obj_set_same]
  · simp (disch := omega) only [obj_inc_same, obj_set_field]

end

section
variable {s : State} {t i : Nat} {d : Dev} (h : s.at t = d) (hoff : d.watch.off = false) (hi : i < 4)
include h hoff hi

/-! Edges (R263). -/

theorem wakeInput_unheld {l : WakeLevel} (hl : (d.flag 0x68B0 0x01 0 i = false ∧ (d.input i).level = false) ∨ l.held < d.obj 0x68B0 0x03 0 i * perMs) :
    Becomes (.wakeInputWake t i l) s (d.setInput i { d.input i with testing := (d.input i).testing && !l.active }) := by
  have hedge : d.inputEdge i l = false := by
    unfold Dev.inputEdge
    rcases hl with ⟨hf, -⟩ | hl
    · rw [hf]
      simp
    · rw [show d.inputHeld i l.held = false from decide_eq_false (by omega)]
      simp
  have hback : (l.active && (d.input i).level && d.inputHeld i l.held && d.obj 0x68B0 0x05 0 i == 1) = false := by
    rcases hl with ⟨-, hl⟩ | hl
    · rw [hl]
      simp
    · rw [show d.inputHeld i l.held = false from decide_eq_false (by omega)]
      simp
  refine becomes_aon h hoff (by unfold exec; rfl) (decide_eq_true hi) ?_
  simp only [hedge, hback, Bool.false_eq_true, not_false_eq_true, if_true, if_false]

theorem wakeInput_wakes (hon : d.flag 0x68B0 0x01 0 i = true) (h1 : d.obj 0x68B0 0x05 0 i = 1) (h2 : d.obj 0x68B0 0x02 0 i = 2) (hm1 : d.obj 0xA030 0x01 0 i = 0) (hm2 : d.obj 0xA030 0x02 0 i = 0)
    (hsegs : ∀ u ∈ segments48, d.segState u = 0) (hseen : d.watch.sleepSeen = false) (hlevel : (d.input i).level = false) (n : Nat) (hn : d.obj 0x68B0 0x03 0 i * perMs ≤ n) :
    Becomes (.wakeInputWake t i { active := true, held := n }) s
      (((((d.set 0x68B0 0x05 2 0 i).setInput i { d.input i with level := true, testing := false, activeAt := d.now - n }).inc 0x68B0 0x07 0 i).watchEvent .wake).wakeEvent (d.flag 0xA030 0x03 0 i)) := by
  have hedge : d.inputEdge i { active := true, held := n } = true := by
    have hheld : d.inputHeld i n = true := decide_eq_true hn
    simp [Dev.inputEdge, hon, h1, hheld, hlevel]
  obtain ⟨y, hy⟩ : ∃ y, (d.set 0x68B0 0x05 2 0 i).setInput i { d.input i with level := true, testing := false, activeAt := d.now - n } = y := ⟨_, rfl⟩
  have hyobj : ∀ k j, k < 65536 → j < 256 → ¬ (k = 0x68B0 ∧ j = 0x05) → ∀ u r, y.obj k j u r = d.obj k j u r := fun k j hk hj hne u r => by
    subst hy
    exact obj_set_field d (by omega) (by omega) hj hk hne
  have hyseen : y.watch.sleepSeen = false := by
    subst hy
    exact hseen
  have hselects : y.inputEdgeWakes i true = true := by
    unfold Dev.inputEdgeWakes
    rw [hyobj 0x68B0 0x02 (by omega) (by omega) (by omega), h2]
    rfl
  obtain ⟨z, hz⟩ : ∃ z, (y.inc 0x68B0 0x07 0 i).watchEvent .wake = z := ⟨_, rfl⟩
  have hzobj : ∀ k j, k < 65536 → j < 256 → k ≠ 0x68B0 → ∀ u r, z.obj k j u r = d.obj k j u r := fun k j hk hj hne u r => by
    subst hz
    exact (obj_inc_field y (by omega) (by omega) hj hk fun hc => hne hc.1).trans (hyobj k j hk hj (fun hc => hne hc.1) u r)
  have hzseen : z.watch.sleepSeen = false := by
    subst hz
    exact hyseen
  obtain ⟨w, hw⟩ : ∃ w, z.wakeEvent (d.flag 0xA030 0x03 0 i) = w := ⟨_, rfl⟩
  have hnoted := wakeNoted_wakeEvent z (d.flag 0xA030 0x03 0 i)
  rw [hw] at hnoted
  have hwobj : ∀ k j, k < 65536 → j < 256 → k ≠ 0xA000 → ∀ u r, w.obj k j u r = z.obj k j u r := fun k j hk hj hne u r => hnoted.obj u r hk hj fun hc => hne hc.1
  have hflag : z.flag 0xA030 0x03 0 i = d.flag 0xA030 0x03 0 i := by
    unfold Dev.flag
    rw [hzobj _ _ (by omega) (by omega) (by omega)]
  have hunmapped : segments48.foldl (fun d u => if maskNames (d.obj 0xA030 0x01 0 i) (d.obj 0xA030 0x02 0 i) u ∧ d.segState u ≠ 0 then d.segKick u 6 i else d) w = w := by
    refine List.foldlRecOn (motive := fun e : Dev => e = w) _ _ rfl fun e he u _ => ?_
    rw [he, if_neg fun hc => ?_]
    rw [hwobj _ _ (by omega) (by omega) (by omega), hwobj _ _ (by omega) (by omega) (by omega), hzobj _ _ (by omega) (by omega) (by omega), hzobj _ _ (by omega) (by omega) (by omega), hm1, hm2] at hc
    have hmask : maskNames 0 0 u = false := by
      unfold maskNames bit
      simp
    rw [hmask] at hc
    exact Bool.false_ne_true hc.1
  have hsettled : w.watchSettle = w := by
    refine watchSettle_idle (fun u hu => ?_) (hnoted.sleepSeen.trans hzseen)
    exact ((hwobj _ _ (by omega) (by omega) (by omega) _ _).trans (hzobj _ _ (by omega) (by omega) (by omega) _ _)).trans (hsegs u hu)
  refine becomes_aon h hoff (by unfold exec; rfl) (decide_eq_true hi) ?_
  simp only [hedge, not_true_eq_false, if_false, if_true, Bool.not_true, Bool.and_false, inputState_plain d (i := i) (v := 2) (.inr (by omega)), hy, hselects, hz, hflag, hw, hunmapped, hsettled]

/-! Releases (R264). -/

theorem wakeInputRelease_ends (hon : d.flag 0x68B0 0x01 0 i = true) (h2 : d.obj 0x68B0 0x05 0 i = 2) (n : Nat) : Becomes (.wakeInputRelease t i n) s ((d.set 0x68B0 0x05 1 0 i).watchSettle) := by
  refine becomes_aon h hoff (by unfold exec; rfl) (decide_eq_true hi) ?_
  refine (if_neg (by simp [hon])).trans ((if_pos h2).trans ?_)
  rw [inputState_plain d (.inr (by omega))]

theorem wakeInputRelease_stuck (hon : d.flag 0x68B0 0x01 0 i = true) (h5 : d.obj 0x68B0 0x05 0 i = 5) (n : Nat) :
    (d.obj 0x68B0 0x03 0 i * perMs ≤ n → Becomes (.wakeInputRelease t i n) s (((d.set 0x68B0 0x05 1 0 i).setInput i { d.input i with level := false }).watchSettle)) ∧
    (n < d.obj 0x68B0 0x03 0 i * perMs → Becomes (.wakeInputRelease t i n) s d) := by
  refine ⟨fun hn => ?_, fun hn => ?_⟩
  · refine becomes_aon h hoff (by unfold exec; rfl) (decide_eq_true hi) ?_
    refine (if_neg (by simp [hon])).trans ((if_neg (by omega)).trans ((if_pos ⟨h5, decide_eq_true hn⟩).trans ?_))
    rw [inputState_plain d (.inr (by omega))]
  · refine becomes_aon h hoff (by unfold exec; rfl) (decide_eq_true hi) ?_
    refine (if_neg (by simp [hon])).trans ((if_neg (by omega)).trans (if_neg fun hc => ?_))
    exact absurd (of_decide_eq_true hc.2) (by omega)

theorem wakeInputRelease_inactive (h1 : d.obj 0x68B0 0x05 0 i = 1) (n : Nat) : Becomes (.wakeInputRelease t i n) s d := by
  refine becomes_aon h hoff (by unfold exec; rfl) (decide_eq_true hi) ?_
  refine (congrArg (ite _ d) ((if_neg (by omega)).trans (if_neg (by omega)))).trans (ite_self _)

/-! The periodic test and a stuck input (R264). -/

theorem wakeInputTestStart_becomes {x : Dev} (hx : (if d.flag 0x68B0 0x01 0 i ∧ (d.obj 0x68B0 0x05 0 i = 1 ∨ d.obj 0x68B0 0x05 0 i = 3 ∨ d.obj 0x68B0 0x05 0 i = 4) ∧ d.obj 0x68B0 0x04 0 i ≠ 0 ∧
      (d.input i).testAt + d.obj 0x68B0 0x04 0 i * perMs ≤ d.now then d.setInput i { d.input i with testing := true, testAt := d.now } else d) = x) :
    Becomes (.wakeInputTestStart t i) s x := by
  refine becomes_aon h hoff (by unfold exec; rfl) (decide_eq_true hi) ?_
  exact hx

theorem wakeInputTestEnd_reports (htest : (d.input i).testing = true) (hdue : (d.input i).testAt + 200 * perUs ≤ d.now) (ha : s.Alone d) (mv : Nat) :
    (mv ≤ 2600 → Becomes (.wakeInputTestEnd t i { millivolts := mv }) s ((d.setInput i { d.input i with testing := false }).inputState i (if mv < 800 then 4 else if mv ≤ 2400 then 1 else 3))) ∧
    Becomes (.wakeInputTestEnd t i { millivolts := mv, active := true }) s (d.setInput i { d.input i with testing := false }) := by
  refine ⟨fun hmv => ?_, ?_⟩
  · refine becomes_aonTimer h hoff ha (by unfold exec; rfl) (by omega) (by omega) (decide_eq_true hi) ?_
    exact (if_pos ⟨htest, hdue⟩).trans (if_neg (by simp; omega))
  · refine becomes_aonTimer h hoff ha (by unfold exec; rfl) (by omega) (by omega) (decide_eq_true hi) ?_
    exact (if_pos ⟨htest, hdue⟩).trans (if_pos (.inl rfl))

theorem wakeInputTestEnd_none (htest : (d.input i).testing = false) (e : WakeTest) : Becomes (.wakeInputTestEnd t i e) s d := by
  refine becomes_aonTimer_same h hoff (by unfold exec; rfl) (decide_eq_true hi) ?_
  exact if_neg (by simp [htest])

theorem wakeInputStuck_enters (h2 : d.obj 0x68B0 0x05 0 i = 2) (hlong : (d.input i).activeAt + d.obj 0x68B0 0x06 0 i * perS < d.now) (ha : s.Alone d) :
    Becomes (.wakeInputStuck t i) s (d.inputState i 5) ∧ (d.inputState i 5).obj 0x68B0 0x05 0 i = 5 ∧ (d.inputState i 5).obj 0x68B0 0x08 0 i = (d.obj 0x68B0 0x08 0 i + 1) % 2 ^ 32 := by
  refine ⟨?_, inputState_faults d (by omega) (by omega)⟩
  refine becomes_aonTimer h hoff ha (by unfold exec; rfl) (by omega) (by omega) (decide_eq_true hi) ?_
  exact if_pos ⟨h2, hlong⟩

theorem wakeInputStuck_inactive (h2 : d.obj 0x68B0 0x05 0 i ≠ 2) : Becomes (.wakeInputStuck t i) s d := by
  refine becomes_aonTimer_same h hoff (by unfold exec; rfl) (decide_eq_true hi) ?_
  exact if_neg fun hc => h2 hc.1

end

/-- Settles O46: the level of an input by its filter, its states by their entries. -/
theorem wakeInputs : Obligations.WakeInputs := by
  unfold Obligations.WakeInputs
  intro s t d i h hoff hi
  exact ⟨wakeInput_wakes h hoff hi, fun l => wakeInput_unheld h hoff hi, wakeInputRelease_ends h hoff hi, wakeInputRelease_stuck h hoff hi, wakeInputRelease_inactive h hoff hi,
    fun hon h1 hp hdue => wakeInputTestStart_becomes h hoff hi (if_pos ⟨hon, .inl h1, hp, hdue⟩), fun hp => wakeInputTestStart_becomes h hoff hi (if_neg fun hc => hc.2.2.1 hp),
    wakeInputTestEnd_reports h hoff hi, wakeInputTestEnd_none h hoff hi, wakeInputStuck_enters h hoff hi, wakeInputStuck_inactive h hoff hi⟩

end Sys2Proof.Machine

/-! SUPPORT. Segments that wake and go to sleep, and transceiver scripts (R262, R380, R384, R386), and O47. -/
namespace Sys2Proof.Machine

/-! What a channel or port that comes to rest leaves of its segment. -/

section
variable (d : Dev) {i j : Nat} (w r : Nat) (hi : i < 65536) (hj : j < 256)
include hi hj

theorem linkFall_beyond (p : Nat) (hc : cellField i j = false) (h : ¬ (0x4000 ≤ i ∧ i < 0x5000)) (h2 : i ≠ 0x2040) : (d.linkFall p).obj i j w r = d.obj i j w r := by
  cases hup : d.linkUp p with
  | false => rw [linkFall_of_down d hup]
  | true => rw [linkFall_obj d hup _ _ hi hj (by omega) (by omega), portLinkDown_obj _ _ _ _ hi hj h2, fallCounted_obj d p _ _ hi hj hc (by omega) (by omega)]

theorem canClear_obj (u : Nat) (h : ¬ (0x6000 ≤ i ∧ i < 0x7000)) : (d.canClear u).obj i j w r = d.obj i j w r := by
  refine foldl_leaves (fun d : Dev => d.obj i j w r) _ (fun d b => ?_) _ d
  split
  · rfl
  · rw [obj_inc_field _ (by omega) (by omega) hj hi (by omega), bufEmpty_obj _ _ _ _ _ hi hj (by omega)]

theorem canSleep_obj (u : Nat) (h : ¬ (0x6000 ≤ i ∧ i < 0x7000)) : (d.canSleep u).obj i j w r = d.obj i j w r := by
  have hrest : ∀ y : Dev, ((((y.canClear u).setCanState u 5).setChan u { y.chan u with settle := none, waking := false, bufs := [] }).canPump).obj i j w r = y.obj i j w r := fun y => by
    rw [canPump_obj _ _ _ hi hj (by omega), Dev.setChan_obj, setCanState_obj _ _ _ _ _ hi hj (by omega), canClear_obj y w r hi hj u h]
  unfold Dev.canSleep
  simp only
  split
  · refine (hrest _).trans ?_
    rw [obj_set_field _ (by omega) (by omega) hj hi (by omega), obj_set_field _ (by omega) (by omega) hj hi (by omega)]
  · exact hrest d

theorem linRest_obj (u v : Nat) (h : ¬ (0x6000 ≤ i ∧ i < 0x7000)) : (d.linRest u v).obj i j w r = d.obj i j w r := by
  have hset : ∀ (y : Dev) a b x c, b < 256 → (a = 0x6810 ∨ a = 0x6820) → (y.set a b x u c).obj i j w r = y.obj i j w r := fun y a b x c hb ha =>
    obj_set_field y hb (by omega) hj hi (by omega)
  have hunload : (d.linUnload u).obj i j w r = d.obj i j w r := by
    unfold Dev.linUnload
    rw [setLin_obj]
    refine foldl_leaves (fun d : Dev => d.obj i j w r) _ (fun d k => ?_) _ d
    rw [hset _ _ _ _ _ (by omega) (.inr rfl), hset _ _ _ _ _ (by omega) (.inr rfl)]
  obtain ⟨y, hy⟩ : ∃ y, ((d.linUnload u).freshRun u false).set 0x6810 0x05 v u = y := ⟨_, rfl⟩
  have hyo : y.obj i j w r = d.obj i j w r := by rw [← hy, hset _ _ _ _ _ (by omega) (.inl rfl), freshRun_obj, hunload]
  have hend : ∀ (z : Dev), z.obj i j w r = d.obj i j w r → ∀ a, ((z.set 0x6810 0x06 a u).set 0x6810 0x08 0 u).obj i j w r = d.obj i j w r := fun z hz a =>
    ((hset _ _ _ _ _ (by omega) (.inl rfl)).trans (hset _ _ _ _ _ (by omega) (.inl rfl))).trans hz
  unfold Dev.linRest
  simp only [hy]
  split
  · exact hend _ hyo _
  · split
    · exact hend _ hyo _
    · exact (hset _ _ _ _ _ (by omega) (.inl rfl)).trans hyo

end

section
variable (d : Dev)

theorem xcvr_obj (u : Nat) {i j : Nat} (w r : Nat) (hi : i < 65536) (hj : j < 256) (h : i ≠ 0x6880) : (d.xcvr u).obj i j w r = d.obj i j w r := xcvrDrive_obj d _ w r hi hj h

theorem sleepBit_obj (u : Nat) (v : Bool) {i j : Nat} (w r : Nat) (hi : i < 65536) (hj : j < 256) (h : i ≠ 0xA010) : (d.sleepBit u v).obj i j w r = d.obj i j w r := by
  unfold Dev.sleepBit
  split
  · exact obj_set_field d (by omega) (by omega) hj hi fun hne => h hne.1
  · exact obj_set_field d (by omega) (by omega) hj hi fun hne => h hne.1

theorem watchEvent_obj (e : Ev) (u i j w r : Nat) : (d.watchEvent e u).obj i j w r = d.obj i j w r := rfl

theorem setSeg_obj (u : Nat) (x : SegSt) (i j w r : Nat) : (d.setSeg u x).obj i j w r = d.obj i j w r := rfl

/-- SLEEP is driven: the segment is SLEEPING, and counts it. -/
theorem segAsleep_sleeps (u : Nat) : (d.segAsleep u).segState u = 1 ∧ (d.segAsleep u).obj 0xA020 0x15 u = (d.obj 0xA020 0x15 u + 1) % 2 ^ 32 := by
  obtain ⟨y, hy⟩ : ∃ y, (if isCan u then d.canSleep u else if isLin u then (if d.linState u = 1 then d.linRest u 2 else d) else d.linkFall (u - 1)) = y := ⟨_, rfl⟩
  have hyo : y.obj 0xA020 0x15 u = d.obj 0xA020 0x15 u := by
    rw [← hy]
    split
    · exact canSleep_obj d _ _ (by omega) (by omega) u (by omega)
    · split
      · split
        · exact linRest_obj d _ _ (by omega) (by omega) u 2 (by omega)
        · rfl
      · exact linkFall_beyond d _ _ (by omega) (by omega) _ rfl (by omega) (by omega)
  obtain ⟨z, hz⟩ : ∃ z, ((y.set 0xA020 0x0C 1 u).inc 0xA020 0x15 u).set 0xA020 0x10 0 u = z := ⟨_, rfl⟩
  have hzo : z.obj 0xA020 0x0C u = 1 ∧ z.obj 0xA020 0x15 u = (d.obj 0xA020 0x15 u + 1) % 2 ^ 32 := by
    rw [← hz, ← hyo]
    simp (disch := omega) only [obj_set_field, obj_inc_field, obj_set_same, obj_inc_same, and_self]
  have hend : ∀ j, j < 256 → (d.segAsleep u).obj 0xA020 j u = z.obj 0xA020 j u := fun j hj => by
    unfold Dev.segAsleep
    simp only [hy, hz, watchEvent_obj]
    have hbit : ∀ x v, ((z.setSeg u x).sleepBit u v).obj 0xA020 j u = z.obj 0xA020 j u := fun x v => sleepBit_obj (z.setSeg u x) u v _ _ (by omega) hj (by omega)
    split
    · exact hbit _ _
    · exact (xcvr_obj _ _ _ _ (by omega) hj (by omega)).trans (hbit _ _)
  exact ⟨(hend 0x0C (by omega)).trans hzo.1, (hend 0x15 (by omega)).trans hzo.2⟩

/-- A sleeping segment whose domain is off waits for it, its wake recorded and counted. -/
theorem segKick_pends {u a b : Nat} (h1 : d.segState u = 1) (hoff : d.coreOn = false) : (d.segKick u a b).segState u = 2 ∧ (d.segKick u a b).obj 0xA020 0x0E u = a ∧
    (d.segKick u a b).obj 0xA020 0x0F u = b ∧ (d.segKick u a b).obj 0xA020 0x16 u = (d.obj 0xA020 0x16 u + 1) % 2 ^ 32 ∧ (d.segKick u a b).obj 0xA000 0x05 = a := by
  obtain ⟨x, hx⟩ : ∃ x, (d.wakeRecord u a b).inc 0xA020 0x16 u = x := ⟨_, rfl⟩
  obtain ⟨y, hy⟩ : ∃ y, ((x.sleepBit u false).set 0xA020 0x0C 2 u).watchEvent .segmentWake u = y := ⟨_, rfl⟩
  have hxo : x.obj 0xA020 0x0E u = a ∧ x.obj 0xA020 0x0F u = b ∧ x.obj 0xA020 0x16 u = (d.obj 0xA020 0x16 u + 1) % 2 ^ 32 ∧ x.obj 0xA000 0x05 = a := by
    rw [← hx]
    unfold Dev.wakeRecord
    simp only
    simp (disch := omega) only [obj_set_field, obj_inc_field, obj_set_same, obj_inc_same, and_self]
  have hyo : ∀ {i j : Nat} (w r : Nat), i < 65536 → j < 256 → i ≠ 0xA010 → ¬ (i = 0xA020 ∧ j = 0x0C) → y.obj i j w r = x.obj i j w r := fun {i j} w r hi hj h h2 => by
    rw [← hy, watchEvent_obj, obj_set_field _ (by omega) (by omega) hj hi h2, sleepBit_obj x u false w r hi hj h]
  have hystate : y.obj 0xA020 0x0C u = 2 := by rw [← hy, watchEvent_obj, obj_set_same]
  have hycore : y.coreOn = false := by
    have hsleep : (x.sleepBit u false).watch = x.watch := by
      unfold Dev.sleepBit
      split <;> rfl
    have hwatch : y.watch = d.watch := by
      rw [← hx] at hsleep
      rw [← hy, ← hx]
      exact hsleep
    unfold Dev.coreOn at hoff ⊢
    rwa [hwatch]
  have hnoted := wakeNoted_wakeEvent y true
  have hcannot : (y.wakeEvent true).segCanWake u = false := by simp [Dev.segCanWake, hnoted.coreOn, hycore]
  have hkick : d.segKick u a b = y.wakeEvent true := by
    unfold Dev.segKick
    rw [if_pos (.inl (by simp [hoff])), h1]
    unfold Dev.segWake
    simp only [hx, hy]
    rw [if_neg (by simp [hcannot])]
  obtain ⟨h0E, h0F, h16, h05⟩ := hxo
  rw [hkick]
  refine ⟨(hnoted.obj _ _ (by omega) (by omega) (by omega)).trans hystate, ?_, ?_, ?_, ?_⟩
  · exact ((hnoted.obj _ _ (by omega) (by omega) (by omega)).trans (hyo _ _ (by omega) (by omega) (by omega) (by omega))).trans h0E
  · exact ((hnoted.obj _ _ (by omega) (by omega) (by omega)).trans (hyo _ _ (by omega) (by omega) (by omega) (by omega))).trans h0F
  · exact ((hnoted.obj _ _ (by omega) (by omega) (by omega)).trans (hyo _ _ (by omega) (by omega) (by omega) (by omega))).trans h16
  · exact ((hnoted.obj _ _ (by omega) (by omega) (by omega)).trans (hyo _ _ (by omega) (by omega) (by omega) (by omega))).trans h05

end
/-! Wakes (R380, R386). -/

section
variable {s : State} {t : Nat} {d : Dev} (h : s.at t = d) (hoff : d.watch.off = false)
include h hoff

theorem busWake_becomes {u : Nat} (h13 : 13 ≤ u) (h45 : u < 45) {x : Dev} (hx : (if d.segState u = 1 ∨ d.segState u = 2 then (d.segKick u 5 0xFF).watchSettle else d) = x) :
    Becomes (.busWake t u) s x := by
  refine becomes_aon h hoff (by unfold exec; rfl) (by rw [decide_eq_true h13, decide_eq_true h45]; rfl) ?_
  exact hx

section
variable {ch : Nat} (hch : ch < 16)
include hch

theorem linWake_sleeping (h2 : d.linState (uL ch) = 2) {x : Dev} (hx : (if d.flag 0xA020 0x1D (uL ch) then d.inc 0x6840 0x0F (uL ch)
    else ((d.inc 0x6840 0x0F (uL ch)).segKick (uL ch) 7 0xFF).watchSettle) = x) : Becomes (.linWakeSignalReceived t ch) s x := by
  have hflag : (d.inc 0x6840 0x0F (uL ch)).flag 0xA020 0x1D (uL ch) = d.flag 0xA020 0x1D (uL ch) := by
    unfold Dev.flag
    rw [obj_inc_field d (by omega) (by omega) (by omega) (by omega) (by omega)]
  refine becomes_aon h hoff (by unfold exec; rfl) (decide_eq_true hch) ?_
  refine (if_pos (.inl h2)).trans ?_
  simp only [hflag]
  exact hx

theorem linWake_awake (h2 : d.linState (uL ch) ≠ 2) (h0 : d.segState (uL ch) = 0) : Becomes (.linWakeSignalReceived t ch) s d := by
  refine becomes_aon h hoff (by unfold exec; rfl) (decide_eq_true hch) ?_
  exact if_neg (by omega)

end

/-! Scripts (R262, R384). -/

section
variable (ha : s.Alone d)
include ha

theorem script_none (hnone : d.watch.scripts = []) (r : ScriptReads) : Becomes (.transceiverScriptComplete t r) s d := by
  refine becomes_aonTimer h hoff ha (by unfold exec; rfl) (by omega) (by omega) rfl ?_
  simp only [hnone]

variable {x : Script} (hone : d.watch.scripts = [x])
include hone

/-- The only script ends: its words again when the first pass does not verify, its result, and the way to sleep. -/
theorem script_becomes (r : ScriptReads) {y z : Dev}
    (hy : (if x.verified r.first then d.watchUpd (fun w => { w with scripts := [] }) else (d.watchUpd fun w => { w with scripts := [] }).out (.script x.spi x.sent)) = y)
    (hz : (if x.verified r.first || x.verified r.again then y.set 0x6880 0x08 2 x.unit
      else ((y.set 0x6880 0x08 3 x.unit).inc 0x6880 0x09 x.unit).event 6 (some 17) Ev.scriptFailed.code x.unit) = z) :
    Becomes (.transceiverScriptComplete t r) s (if x.forSleep ∧ z.segState x.unit = 6 ∧ (z.seg x.unit).step = 2 then (z.segAsleep x.unit).watchSettle else z) := by
  have hempty : z.watch.scripts = [] := by
    rw [← hz, ← hy]
    split <;> split <;> rfl
  have hstart : z.scriptStart = z := by
    unfold Dev.scriptStart
    rw [hempty]
  refine becomes_aonTimer h hoff ha (by unfold exec; rfl) (by omega) (by omega) rfl ?_
  simp only [hone, hy, hz, hstart]

section
variable (hown : x.forSleep = false) (r : ScriptReads)
include hown

theorem script_verified (h1 : x.verified r.first = true) :
    Becomes (.transceiverScriptComplete t r) s ((d.watchUpd fun w => { w with scripts := [] }).set 0x6880 0x08 2 x.unit) := by
  have hx := script_becomes h hoff ha hone r (if_pos h1) (if_pos (by simp [h1]))
  rwa [if_neg (by simp [hown])] at hx

theorem script_verifiedAgain (h1 : x.verified r.first = false) (h2 : x.verified r.again = true) :
    Becomes (.transceiverScriptComplete t r) s (((d.watchUpd fun w => { w with scripts := [] }).out (.script x.spi x.sent)).set 0x6880 0x08 2 x.unit) := by
  have hx := script_becomes h hoff ha hone r (if_neg (by simp [h1])) (if_pos (by simp [h2]))
  rwa [if_neg (by simp [hown])] at hx

theorem script_failed (h1 : x.verified r.first = false) (h2 : x.verified r.again = false) : Becomes (.transceiverScriptComplete t r) s
    (((((d.watchUpd fun w => { w with scripts := [] }).out (.script x.spi x.sent)).set 0x6880 0x08 3 x.unit).inc 0x6880 0x09 x.unit).event 6 (some 17) Ev.scriptFailed.code x.unit) := by
  have hx := script_becomes h hoff ha hone r (if_neg (by simp [h1])) (if_neg (by simp [h1, h2]))
  rwa [if_neg (by simp [hown])] at hx

end

theorem script_sleeps (hsleep : x.forSleep = true) (h6 : d.segState x.unit = 6) (hstep : (d.seg x.unit).step = 2) (r : ScriptReads) (h1 : x.verified r.first = true) :
    Becomes (.transceiverScriptComplete t r) s ((((d.watchUpd fun w => { w with scripts := [] }).set 0x6880 0x08 2 x.unit).segAsleep x.unit).watchSettle) := by
  have hstate : ((d.watchUpd fun w => { w with scripts := [] }).set 0x6880 0x08 2 x.unit).segState x.unit = 6 :=
    (obj_set_field (d.watchUpd _) (by omega) (by omega) (by omega) (by omega) (by omega)).trans h6
  have hx := script_becomes h hoff ha hone r (if_pos h1) (if_pos (by simp [h1]))
  rwa [if_pos ⟨hsleep, hstate, hstep⟩] at hx

end
end

/-- Settles O47: a wake by the state of its segment, a script by its passes. -/
theorem segmentsWakeAndScripts : Obligations.SegmentsWakeAndScripts := by
  unfold Obligations.SegmentsWakeAndScripts
  intro s t d u h hoff
  refine ⟨fun h13 h45 => ⟨fun hs => busWake_becomes h hoff h13 h45 (if_pos hs), fun hs => busWake_becomes h hoff h13 h45 (if_neg (by omega)), segKick_pends d⟩,
    fun ch hch => ⟨fun h2 hall => linWake_sleeping h hoff hch h2 (if_neg (by simp [hall])), fun h2 hall => linWake_sleeping h hoff hch h2 (if_pos hall), linWake_awake h hoff hch⟩,
    fun ha x hone => ⟨fun hown r => ⟨script_verified h hoff ha hone hown r, script_verifiedAgain h hoff ha hone hown r, script_failed h hoff ha hone hown r⟩,
      fun hsleep h6 hstep r h1 => ⟨script_sleeps h hoff ha hone hsleep h6 hstep r h1, fun _ _ => segAsleep_sleeps d x.unit⟩⟩, script_none h hoff⟩

end Sys2Proof.Machine

/-! SUPPORT. Network management of a segment (R376, R378 to R384, R388), and O48. -/
namespace Sys2Proof.Machine

section
variable (d : Dev) {i j : Nat} (w r : Nat) (hi : i < 65536) (hj : j < 256) (hout : ¬ (0x6000 ≤ i ∧ i < 0x7000))
include hi hj hout

/-! What a message of network management leaves. -/

theorem canLoad_obj (u : Nat) (f : CanFrame) (p : Nat) : (d.canLoad u f p).1.obj i j w r = d.obj i j w r := by
  obtain ⟨⟨y, v⟩, hy⟩ : ∃ y, d.canPlace u f p none = y := ⟨_, rfl⟩
  have hplace : y.obj i j w r = d.obj i j w r := by
    have hobj := canPlace_obj d w r hi hj (by omega) u f p none (by omega)
    rwa [hy] at hobj
  have hroute : ∀ b f x, (y.reroute u b f x).obj i j w r = d.obj i j w r := fun b f x => (reroute_obj y w r hi hj (by omega) u b f x (by omega)).trans hplace
  unfold Dev.canLoad
  simp only [hy]
  split
  · split
    · exact hroute _ _ _
    · exact hroute _ _ _
    · exact hplace
  · exact hplace

theorem nmSend_obj (u : Nat) (need last : Bool) : (d.nmSend u need last).obj i j w r = d.obj i j w r := by
  unfold Dev.nmSend
  simp only
  split
  · obtain ⟨⟨y, v⟩, hy⟩ : ∃ y, d.canLoad u { ident := (d.obj 0xA020 0x03 u % 2 ^ 30) ||| d.obj 0xA020 0x02 u, data := d.nmBytes u need last } 1 = y := ⟨_, rfl⟩
    have hload : y.obj i j w r = d.obj i j w r := by
      have hobj := canLoad_obj d w r hi hj hout u { ident := (d.obj 0xA020 0x03 u % 2 ^ 30) ||| d.obj 0xA020 0x02 u, data := d.nmBytes u need last } 1
      rwa [hy] at hobj
    rw [hy]
    cases v with
    | into b =>
      simp only
      split
      · exact hload
      · split
        · exact hload
        · exact hload
    | _ => exact hload
  · split
    · rfl
    · rfl

theorem linEnd_obj (u : Nat) : (d.linEnd u).obj i j w r = d.obj i j w r := by
  have hdue : ∀ x y, (if (d.lin u).sleepDue = true then ((d.setLin u x).setLin u y).sendHeader u 60 else d.setLin u x).obj i j w r = d.obj i j w r := fun x y => by
    split
    · exact (obj_inc_field ((d.setLin u x).setLin u y) (by omega) (by omega) hj hi (by omega)).trans rfl
    · rfl
  unfold Dev.linEnd
  simp only
  split
  · split
    · exact (callStarts_obj _ _ _ _ _ _).trans (setLin_obj d u _ i j w r)
    · exact hdue _ _
  · rw [if_neg Bool.false_ne_true]
    exact hdue _ _

theorem linGoToSleep_obj (u : Nat) : (d.linGoToSleep u).obj i j w r = d.obj i j w r := by
  unfold Dev.linGoToSleep
  simp only
  split
  · exact (linEnd_obj _ w r hi hj hout u).trans (setLin_obj d u _ i j w r)
  · exact setLin_obj d u _ i j w r

end

section
variable (d : Dev) (u : Nat)

theorem segLastCall_calls : (d.segLastCall u).segState u = 5 ∧ (d.segLastCall u).obj 0xA020 0x13 u = (d.obj 0xA020 0x13 u + 1) % 2 ^ 32 := by
  obtain ⟨y, hy⟩ : ∃ y, (d.set 0xA020 0x0C 5 u).inc 0xA020 0x13 u = y := ⟨_, rfl⟩
  have hyo : y.obj 0xA020 0x0C u = 5 ∧ y.obj 0xA020 0x13 u = (d.obj 0xA020 0x13 u + 1) % 2 ^ 32 := by
    rw [← hy]
    simp (disch := omega) only [obj_set_field, obj_inc_field, obj_set_same, obj_inc_same, and_self]
  have hend : ∀ j, j < 256 → (d.segLastCall u).obj 0xA020 j u = y.obj 0xA020 j u := fun j hj => by
    unfold Dev.segLastCall
    simp only [hy]
    split
    · exact (linGoToSleep_obj _ _ _ (by omega) hj (by omega) u).trans (setSeg_obj y u _ _ _ _ _)
    · exact (nmSend_obj _ _ _ (by omega) hj (by omega) u false true).trans (setSeg_obj y u _ _ _ _ _)
  exact ⟨(hend 0x0C (by omega)).trans hyo.1, (hend 0x13 (by omega)).trans hyo.2⟩

theorem segGoing_waits : (d.segGoing u true).segState u = 6 ∧ ((d.segGoing u true).seg u).step = 1 := by
  have hwait : d.segGoing u true = (d.set 0xA020 0x0C 6 u).setSeg u { d.seg u with loadedAt := none, windowEnd := none, step := 1 } := if_pos (Bool.or_true _)
  rw [hwait]
  refine ⟨(setSeg_obj _ _ _ _ _ _ _).trans (obj_set_same d _ _ _ _ _), ?_⟩
  exact congrArg SegSt.step (tget_tput_same _ _ _ _)

theorem segKick_restarts {a b : Nat} (h : d.segState u = 3 ∨ d.segState u = 4) (hruns : d.pairRuns 1 = true) : d.segKick u a b = d.segTr u true := by
  unfold Dev.segKick
  rw [if_pos (.inr hruns)]
  rcases h with h | h
  · simp only [h]
  · simp only [h]

end

section
variable {s : State} {t u : Nat} {d : Dev} (h : s.Tick t d) (h13 : 13 ≤ u)
include h h13

/-! Keep-alives (R376, R378). -/

section
variable {m : Nat} {b : Bytes} (h45 : u < 45) (hm : m < 2 ^ 32)
include h45 hm

theorem nmPdu_becomes {x : Dev} (hx : (if d.segState u = 0 ∨ ¬ d.pairRuns 1 ∨ ¬ d.isKeepAlive u m b then d
    else if d.nodeIgnored u (byteAt b 0) then d.inc 0xA020 0x12 u
    else
      let d := d.inc 0xA020 0x11 u
      let d := d.setSeg u { d.seg u with honoured := (byteAt b 0, d.now) :: (d.seg u).honoured.filter (fun x => x.1 != byteAt b 0) }
      (if d.segState u ≤ 2 then d else d.segKick u 4 (byteAt b 0)).watchSettle) = x) : Becomes (.nmPduReceived t u m b) s x := by
  refine becomes h (by unfold exec; rfl) (by rw [decide_eq_true h13, decide_eq_true h45, decide_eq_true hm]; rfl) ?_
  exact hx

theorem nmPdu_keepAlive (hruns : d.pairRuns 1 = true) (hk : d.isKeepAlive u m b = true) :
    (d.segState u ≠ 0 → d.nodeIgnored u (byteAt b 0) = true → Becomes (.nmPduReceived t u m b) s (d.inc 0xA020 0x12 u)) ∧
    (d.segState u = 3 ∨ d.segState u = 4 → d.nodeIgnored u (byteAt b 0) = false → Becomes (.nmPduReceived t u m b) s
      ((((d.inc 0xA020 0x11 u).setSeg u { d.seg u with honoured := (byteAt b 0, d.now) :: (d.seg u).honoured.filter (fun x => x.1 != byteAt b 0) }).segTr u true).watchSettle)) := by
  refine ⟨fun h0 hi => nmPdu_becomes h h13 h45 hm ?_, fun hs hi => nmPdu_becomes h h13 h45 hm ?_⟩
  · rw [if_neg (by simp [h0, hruns, hk]), if_pos hi]
  · rw [if_neg (by simp [hruns, hk]; omega), if_neg (by simp [hi])]
    obtain ⟨y, hy⟩ : ∃ y, (d.inc 0xA020 0x11 u).setSeg u { d.seg u with honoured := (byteAt b 0, d.now) :: (d.seg u).honoured.filter (fun x => x.1 != byteAt b 0) } = y := ⟨_, rfl⟩
    have hstate : y.segState u = d.segState u := by
      rw [← hy]
      exact (setSeg_obj _ _ _ _ _ _ _).trans (obj_inc_field d (by omega) (by omega) (by omega) (by omega) (by omega))
    have hyruns : y.pairRuns 1 = true := by
      rw [← hy]
      exact hruns
    have hkick : (if y.segState u ≤ 2 then y else y.segKick u 4 (byteAt b 0)) = y.segTr u true := by
      rw [if_neg (by omega), segKick_restarts y u (by omega) hyruns]
    exact (congrArg (fun y : Dev => (if y.segState u ≤ 2 then y else y.segKick u 4 (byteAt b 0)).watchSettle) hy).trans ((congrArg Dev.watchSettle hkick).trans
      (congrArg (fun y : Dev => (y.segTr u true).watchSettle) hy.symm))

end

/-! Tr and the last call (R380, R381, R384). -/

section
variable (ha : s.Alone d)
include ha

theorem readySleepExpiry_becomes {e : Nat} (hu : u < 61) (he : (d.seg u).tr = some e) {x : Dev} (hx : (if d.now < e ∨ ¬ d.pairRuns 1 then d
    else (if d.segState u = 4 then (d.setSeg u { d.seg u with tr := none, trRemote := false }).segLastCall u else d.setSeg u { d.seg u with tr := none, trRemote := false }).watchSettle) = x) :
    Becomes (.readySleepExpiry t u) s x := by
  refine becomes_timer h ha (by unfold exec; rfl) (by omega) (by omega) (by rw [decide_eq_true h13, decide_eq_true hu]; rfl) ?_
  simp only [he]
  exact hx

theorem lastCallNotSent_becomes {l : Nat} (b : Bool) (h45 : u < 45) (hl : (d.seg u).loadedAt = some l) {x : Dev} (hx : (
    if d.segState u ≠ 5 ∨ d.now < l + d.obj 0xA020 0x06 u * perMs ∨ ¬ d.pairRuns 1 then d else (((d.callCancel u).inc 0xA020 0x1B u).segGoing u b).watchSettle) = x) :
    Becomes (.lastCallNotSent t u b) s x := by
  refine becomes_timer h ha (by unfold exec; rfl) (by omega) (by omega) (by rw [decide_eq_true h13, decide_eq_true h45]; rfl) ?_
  simp only [hl]
  exact hx

theorem lastCallWindow_becomes {e : Nat} (b : Bool) (hu : u < 61) (he : (d.seg u).windowEnd = some e) {x : Dev} (hx : (
    if d.segState u ≠ 5 ∨ d.now < e ∨ ¬ d.pairRuns 1 then d else (d.segGoing u b).watchSettle) = x) : Becomes (.lastCallWindowClose t u b) s x := by
  refine becomes_timer h ha (by unfold exec; rfl) (by omega) (by omega) (by rw [decide_eq_true h13, decide_eq_true hu]; rfl) ?_
  simp only [he]
  exact hx

end

/-! The NM cycle, and a segment kept awake (R379, R388). -/

theorem nmCycle_becomes (hu : u < 61) {x : Dev} (hx : (if d.segState u = 3 ∧ (d.seg u).nmNext ≤ d.now ∧ d.pairRuns 1 then
      (d.setSeg u { d.seg u with nmNext := (d.seg u).nmNext + d.obj 0xA020 0x07 u * perMs }).nmSend u true false else d) = x) : Becomes (.nmCycle t u) s x := by
  refine becomes h (by unfold exec; rfl) (by rw [decide_eq_true h13, decide_eq_true hu]; rfl) ?_
  exact hx

theorem maxAwake_unkept (hruns : d.pairRuns 1 = true) (hu : u < 61) (h0 : d.obj 0xA020 0x08 u ≠ 0) (hlong : d.obj 0xA020 0x08 u < d.awakeSeconds u) (h3 : 3 ≤ d.segState u) (hnone : (d.seg u).honoured = [])
    (hlin : isLin u = false) : Becomes (.maxAwakeExceeded t u) s
      (((((d.setSeg u { d.seg u with trRemote := false, awakeFrom := some d.now }).inc 0xA020 0x18 u).event 1 (some 3) Ev.awakeExceeded.code u []).watchSettle)) := by
  refine becomes h (by unfold exec; rfl) (by rw [decide_eq_true h13, decide_eq_true hu]; rfl) ?_
  simp only
  rw [if_neg (by simp [hruns]; omega)]
  simp only [hnone, hlin, List.filter_nil, List.map_nil, List.foldl_nil, Bool.false_eq_true, not_true_eq_false, or_self, if_false]

theorem maxAwake_within (hu : u < 61) (hshort : d.awakeSeconds u ≤ d.obj 0xA020 0x08 u) : Becomes (.maxAwakeExceeded t u) s d := by
  refine becomes h (by unfold exec; rfl) (by rw [decide_eq_true h13, decide_eq_true hu]; rfl) ?_
  exact if_pos (.inr (.inl hshort))

end

/-- Settles O48: each command by the state of its segment and the time it waits for. -/
theorem networkManagement : Obligations.NetworkManagement := by
  unfold Obligations.NetworkManagement
  intro s t d u h hruns h13 h61
  refine ⟨fun m b h45 hm hk => nmPdu_keepAlive h h13 h45 hm hruns hk, fun m b h45 hm hk => nmPdu_becomes h h13 h45 hm (if_pos (by simp [hk])),
    fun ha e he => ⟨fun hdue h4 => readySleepExpiry_becomes h h13 ha h61 he ?_, fun hdue h3 => readySleepExpiry_becomes h h13 ha h61 he ?_,
      fun hw => readySleepExpiry_becomes h h13 ha h61 he (if_pos (.inl hw))⟩, segLastCall_calls d u,
    fun h3 hdue => nmCycle_becomes h h13 h61 (if_pos ⟨h3, hdue, hruns⟩), fun hw => nmCycle_becomes h h13 h61 (if_neg (by omega)),
    fun ha l b h45 hl h5 => ⟨fun hdue => lastCallNotSent_becomes h h13 ha b h45 hl (if_neg (by simp [hruns]; omega)),
      fun hw => lastCallNotSent_becomes h h13 ha b h45 hl (if_pos (.inr (.inl hw)))⟩,
    fun ha e b he h5 => ⟨fun hdue => lastCallWindow_becomes h h13 ha b h61 he (if_neg (by simp [hruns]; omega)), fun hw => lastCallWindow_becomes h h13 ha b h61 he (if_pos (.inr (.inl hw)))⟩,
    segGoing_waits d u, maxAwake_unkept h h13 hruns h61, maxAwake_within h h13 h61⟩
  · rw [if_neg (by simp [hruns]; omega), if_pos h4]
  · rw [if_neg (by simp [hruns]; omega), if_neg (by omega)]

end Sys2Proof.Machine

/-! SUPPORT. State commands: a frame on a line under settings that a write has since changed holds back the reply to a Watch write, and with it the entry into Watch. -/

namespace Sys2Proof.Machine

/-- The owner's host writes Watch to `A:A000.01`. -/
def watchWrite : Request := { svc := .pcie, src := .host 0, arrived := 0, bytes := [2, 0, 0, 7, 0xA0, 0, 1, 0, 0, 0, 0xFF, 0, 0, 0, 0, 0, 0, 1, 0, 0, 1] }

/-- A frame of one cell that port record 30 sends under a byte limit which is no longer the one written for it. -/
def frameUnderOldSettings : Frame :=
  { id := 0, port := 0, data := [], len := 64, cls := 0, vid := 0, pcp := 0, dei := false, tagged := false, oversize := false, multi := false, ptpEvent := false, stamp := 0,
    rule := none, smem := 0, sport := 0, whole := true, avail := 1,
    copies := [{ port := 30, sent := 1, crossed := true, started := true, edit := some { untag := false, lim := 1, sdu := 0, ovh := 0 } }] }

/-- A device in Standby with RUN_REQ low, owned by its host, whose Watch write waits while that frame is on its line. -/
def watchBehindFrame : Dev :=
  { store := [(objKey 0x1010 0x01 0 0, 1), (objKey 0x1011 0x01 0 0, 0), (objKey 0x1011 0x02 0 0, 2), (objKey 0xA000 0x02 0 0, 2)],
    alm := { queue := [watchWrite], leaseEnd := 1 }, fab := { frames := [frameUnderOldSettings] }, watch := { runReq := false } }

/-- The row of `A:A000.01`. -/
def stateCommandRow : ObjRow := (findRow 0xA000 0x01).getD { idx := 0, n := 1, sub := 0, subs := 0, ty := .u8, acc := .ro, scope := .member, recs := 0, dflt := 0, rng := .any }

theorem watchBehindFrame_tick : State.Tick { dev := watchBehindFrame } 0 watchBehindFrame := ⟨by decide +kernel, by decide⟩

theorem watchBehindFrame_takes : watchBehindFrame.takesWrite watchWrite stateCommandRow .stateCommandWatch 0 = true := by decide +kernel

/-- What the write makes of the device, whose reply waits. -/
def watchPending : Dev := ((watchBehindFrame.writeBase watchWrite stateCommandRow).apply 0xA000 0x01 0 watchWrite.record watchWrite.value).tryFinish watchWrite

theorem watchWrite_becomes : Becomes (.stateCommandWatch 0) { dev := watchBehindFrame } watchPending := by
  have h := write_taken { dev := watchBehindFrame } 0 watchWrite stateCommandRow .stateCommandWatch 0
  rw [watchBehindFrame_tick.1] at h
  exact h watchBehindFrame_takes (by decide) (by decide)

/-- A Watch write in Standby, with no sleep request and no fail-safe, marks the entry into Watch as pending. -/
theorem stateCommand_pends {d : Dev} (hsleep : d.obj 0xA000 0x08 = 0) (hsafe : d.flag 0xA000 0x09 = false) (hstandby : d.obj 0xA000 0x02 = 2) :
    d.stateCommand 1 = (d.set 0xA000 0x01 1).set 0xA000 0x04 1 := by
  have hsleep' : (d.set 0xA000 0x01 1).obj 0xA000 0x08 = 0 := by rw [obj_set_field _ (by omega) (by omega) (by omega) (by omega) (by omega)]; exact hsleep
  have hstandby' : (d.set 0xA000 0x01 1).obj 0xA000 0x02 = 2 := by rw [obj_set_field _ (by omega) (by omega) (by omega) (by omega) (by omega)]; exact hstandby
  have hsafe' : (d.set 0xA000 0x01 1).flag 0xA000 0x09 = false := by
    unfold Dev.flag at hsafe ⊢
    rw [obj_set_field _ (by omega) (by omega) (by omega) (by omega) (by omega)]
    exact hsafe
  unfold Dev.stateCommand Dev.failSafeEnd
  simp [hsleep', hsafe', hstandby']

/-- While that frame is on its line, no write of other settings is in force. -/
theorem linesReady_oldSettings {d : Dev} (hframes : d.fab.frames = [frameUnderOldSettings]) (hlimit : d.obj 0x4020 0x02 ≠ 1) : d.linesReady = false := by
  have hunit : unitOfPort 30 = 0 := by decide
  unfold Dev.linesReady
  rw [hframes]
  simp [frameUnderOldSettings, Dev.egressSet, hunit, Ne.symm hlimit]

/-- The entry into Watch is still pending. -/
theorem watchPending_pends : watchPending.obj 0xA000 0x04 = 1 := by
  obtain ⟨y, hy⟩ : ∃ y, watchBehindFrame.writeBase watchWrite stateCommandRow = y := ⟨_, rfl⟩
  have hobj {i j : Nat} (hi : i < 65536) (hj : j < 256) (h1 : i ≠ 0x1041) (h2 : ¬ (i = 0x9400 ∧ j = 7) ∧ ¬ (i = 0x9401 ∧ j = 4)) (h3 : sentField i j = false) :
      y.obj i j = watchBehindFrame.obj i j := hy ▸ writeBase_obj _ _ _ _ _ _ _ hi hj h1 h2 h3
  have hframes : y.fab.frames = [frameUnderOldSettings] := hy ▸ congrArg FabSt.frames (writeBase_fab _ _ _)
  have hsafe : y.flag 0xA000 0x09 = false := by
    rw [← hy, writeBase_flag _ _ _ _ _ _ _ (by omega) (by omega) (by omega) (by omega)]
    decide +kernel
  have heffect : y.apply 0xA000 0x01 0 watchWrite.record watchWrite.value = (y.set 0xA000 0x01 1).set 0xA000 0x04 1 :=
    stateCommand_pends ((hobj (by omega) (by omega) (by omega) (by omega) rfl).trans (by decide +kernel)) hsafe
      ((hobj (by omega) (by omega) (by omega) (by omega) rfl).trans (by decide +kernel))
  have hlimit : y.obj 0x4020 0x02 ≠ 1 := by
    rw [hobj (by omega) (by omega) (by omega) (by omega) rfl]
    decide +kernel
  have hwaits : ((y.set 0xA000 0x01 1).set 0xA000 0x04 1).writeReady = false := by
    unfold Dev.writeReady
    rw [linesReady_oldSettings (d := (y.set 0xA000 0x01 1).set 0xA000 0x04 1) hframes]
    · simp
    · rw [obj_set_field _ (by omega) (by omega) (by omega) (by omega) (by omega), obj_set_field _ (by omega) (by omega) (by omega) (by omega) (by omega)]
      exact hlimit
  unfold watchPending Dev.tryFinish
  rw [hy, heffect, hwaits]
  exact obj_set_same _ _ _ _ _ _

/-- Refutes O49: in Standby with RUN_REQ low, no channel and no flush, a frame sent under settings that have since changed still holds back the reply to a Watch write (R27, R49), so `A:A000.04` shows the pending entry; the clause says that Watch is entered. -/
theorem not_watchAndStateWrites : ¬ Obligations.WatchAndStateWrites := by
  unfold Obligations.WatchAndStateWrites
  intro h
  obtain ⟨-, -, -, hwatch⟩ := h.2 _ 0 _ watchWrite stateCommandRow watchBehindFrame_tick (by decide) (by decide) (by decide +kernel) (by decide +kernel) rfl
  obtain ⟨-, hlow⟩ := hwatch watchBehindFrame_takes (by decide) (by decide +kernel)
  obtain ⟨x, hx, -, -, -, hentered, -⟩ := hlow rfl rfl rfl rfl
  have hpends := Becomes.obj_unique hx watchWrite_becomes 0 0 (show 0xA000 < 65536 by decide) (show 0x04 < 256 by decide) (by decide)
  rw [hentered, watchPending_pends] at hpends
  exact absurd hpends (by decide)

end Sys2Proof.Machine

/-! SUPPORT. Power ramps, the fail-safe, droop steps and the control-processor pairs. -/

namespace Sys2Proof.Machine

/-! The ends of ramps and state changes, and the fail-safe (R391, R394, R395, R481). -/

section
variable {s : State} {t : Nat} {d : Dev} (h : s.Tick t d)
include h

theorem rampEnd_becomes {x : Dev} (hx : (match d.pow.ramp with
    | [] => d
    | k :: rest =>
      let d := (((d.powUpd fun x => { x with domains := setBit x.domains k true, ramp := rest }).freshAll.plotterRepower d).pendingUp).segLinks.watchSettle
      if rest.isEmpty then (d.stateReached d.pow.target).finishIfReady else d) = x) : Becomes (.powerDomainRampEnd t) s x := by
  refine becomes h (by unfold exec; rfl) rfl ?_
  exact hx

theorem rampEnd_none (hramp : d.pow.ramp = []) : Becomes (.powerDomainRampEnd t) s d := rampEnd_becomes h (by rw [hramp])

theorem rampEnd_next {k : Nat} {l : List Nat} (hramp : d.pow.ramp = k :: l) :
    let y := (((d.powUpd fun x => { x with domains := setBit x.domains k true, ramp := l }).freshAll.plotterRepower d).pendingUp).segLinks.watchSettle
    (l ≠ [] → Becomes (.powerDomainRampEnd t) s y) ∧ (l = [] → Becomes (.powerDomainRampEnd t) s ((y.stateReached y.pow.target).finishIfReady)) := by
  refine ⟨fun hl => rampEnd_becomes h ?_, fun hl => rampEnd_becomes h ?_⟩
  · rw [hramp]
    exact if_neg fun hnil => hl (List.isEmpty_iff.1 hnil)
  · rw [hramp]
    exact if_pos (List.isEmpty_iff.2 hl)

theorem acknowledgeExpiry_due {e : Nat} (he : d.watch.ackEnd = some e) (ha : s.Alone d) (hdue : e ≤ d.now) (hseen : d.obj 0xA000 0x08 = 1) :
    Becomes (.acknowledgeTimeExpiry t) s d.failSafe := by
  refine becomes_timer h ha (by unfold exec; rfl) (by omega) (by omega) rfl ?_
  simp only [he]
  exact if_pos ⟨hdue, hseen⟩

theorem acknowledgeExpiry_waits {e : Nat} (he : d.watch.ackEnd = some e) (hwaits : d.now < e) : Becomes (.acknowledgeTimeExpiry t) s d := by
  refine becomes_timer_same h (by unfold exec; rfl) rfl ?_
  simp only [he]
  exact if_neg (by omega)

end

section
variable (d : Dev)

theorem stateReached_counts (v : Nat) (hsegs : ∀ u ∈ segments48, d.segState u = 0) (hseen : d.watch.sleepSeen = false) :
    (d.stateReached v).obj 0xA000 0x02 = v ∧ (d.stateReached v).obj 0xA000 0x0E = (d.obj 0xA000 0x0E + 1) % 2 ^ 32 := by
  obtain ⟨y, hy⟩ : ∃ y, ((d.set 0xA000 0x02 v).inc 0xA000 0x0E).event 1 (some 3) (.code 0x0192) 0
      ([BitVec.ofNat 8 (d.obj 0xA000 0x02), BitVec.ofNat 8 v, BitVec.ofNat 8 (((d.set 0xA000 0x02 v).inc 0xA000 0x0E).obj 0xA000 0x03 % 32)] ++ List.replicate 9 0) = y := ⟨_, rfl⟩
  have hobj (i j w r : Nat) : y.obj i j w r = ((d.set 0xA000 0x02 v).inc 0xA000 0x0E).obj i j w r := by rw [← hy]; rfl
  have hwatch : y.watch = d.watch := by rw [← hy]; rfl
  have hsleep : ∀ u ∈ segments48, y.segState u = 0 := fun u hu => by
    rw [← hsegs u hu, Dev.segState, hobj]
    simp (disch := omega) only [obj_inc_field, obj_set_field, Dev.segState]
  have hreached : d.stateReached v = y := by
    unfold Dev.stateReached
    simp only [hy]
    exact watchSettle_idle hsleep ((congrArg WatchSt.sleepSeen hwatch).trans hseen)
  rw [hreached, hobj, hobj]
  simp (disch := omega) only [obj_set_field, obj_inc_field, obj_set_same, obj_inc_same, and_self]

theorem xcvrAll_obj {i j : Nat} (w r : Nat) (hi : i < 65536) (hj : j < 256) (h : i ≠ 0x6880) : d.xcvrAll.obj i j w r = d.obj i j w r :=
  foldl_leaves (fun d : Dev => d.obj i j w r) _ (fun d u => xcvr_obj d u w r hi hj h) _ d

theorem linkFalls_watchObj (p : Nat → Nat) (l : List Nat) {j : Nat} (w r : Nat) (hj : j < 256) : (l.foldl (fun d i => d.linkFall (p i)) d).obj 0xA000 j w r = d.obj 0xA000 j w r :=
  foldl_leaves (fun d : Dev => d.obj 0xA000 j w r) _ (fun d i => linkFall_beyond d w r (by omega) hj (p i) rfl (by omega) (by omega)) _ d

/-- The fail-safe changes its own objects among those of the device state. -/
theorem failSafe_watchObj (hsafe : d.flag 0xA000 0x09 = false) {j : Nat} (hj : j < 256) :
    d.failSafe.obj 0xA000 j = (((d.set 0xA000 0x09 1).set 0xA000 0x08 3).inc 0xA000 0x0A).obj 0xA000 j := by
  obtain ⟨y, hy⟩ : ∃ y, ((d.set 0xA000 0x09 1).set 0xA000 0x08 3).inc 0xA000 0x0A = y := ⟨_, rfl⟩
  unfold Dev.failSafe
  rw [hsafe]
  simp only [Bool.false_eq_true, if_false, hy]
  rw [watchEvent_obj, Dev.watchUpd_obj, linkFalls_watchObj _ _ _ 0 0 hj, xcvrAll_obj _ 0 0 (by omega) hj (by omega)]
  exact foldl_leaves (fun d : Dev => d.obj 0xA000 j) _ (fun d u => obj_inc_field d (by omega) (by omega) hj (by omega) (by omega)) _ y

/-- The fail-safe counts, shows itself, and ends the time to acknowledge. -/
theorem failSafe_acts (hsafe : d.flag 0xA000 0x09 = false) :
    d.failSafe.obj 0xA000 0x09 = 1 ∧ d.failSafe.obj 0xA000 0x08 = 3 ∧ d.failSafe.obj 0xA000 0x0A = (d.obj 0xA000 0x0A + 1) % 2 ^ 32 ∧ d.failSafe.watch.ackEnd = none := by
  have hack : d.failSafe.watch.ackEnd = none := by
    unfold Dev.failSafe
    rw [hsafe]
    rfl
  rw [failSafe_watchObj d hsafe (by omega), failSafe_watchObj d hsafe (by omega), failSafe_watchObj d hsafe (by omega)]
  simp (disch := omega) only [obj_set_field, obj_inc_field, obj_set_same, obj_inc_same, true_and]
  exact hack

end

/-! Droop steps (R486, R487). -/

section
variable (d : Dev)

theorem droopReport_obj (n i j w r : Nat) : (d.droopReport n).obj i j w r = d.obj i j w r := by
  unfold Dev.droopReport
  simp only
  split_ifs <;> rfl

theorem droopReport_droopAt (n : Nat) : (d.droopReport n).pow.droopAt = d.pow.droopAt := by
  unfold Dev.droopReport
  simp only
  split_ifs <;> rfl

theorem droopReport_fab (n : Nat) : (d.droopReport n).fab = d.fab := by
  unfold Dev.droopReport
  simp only
  split_ifs <;> rfl

end

section
variable {s : State} {t : Nat} {d : Dev} (h : s.Tick t d)
include h

theorem droopCrossing_becomes {n : Nat} (h1 : 1 ≤ n) (h3 : n ≤ 3) {x : Dev}
    (hx : (if n ≤ d.obj 0x2000 0x08 then d else ((d.set 0x2000 0x08 n).powUpd fun x => { x with droopAt := d.now }).droopReport n) = x) :
    Becomes (.droopThresholdCrossing t n) s x := by
  refine becomes h (by unfold exec; rfl) (by rw [decide_eq_true h1, decide_eq_true h3]; rfl) ?_
  exact hx

theorem droopCrossing_deeper {n : Nat} (h1 : 1 ≤ n) (h3 : n ≤ 3) (hdeeper : d.obj 0x2000 0x08 < n) :
    Completes (.droopThresholdCrossing t n) s fun x => x.obj 0x2000 0x08 = n ∧ x.pow.droopAt = d.now ∧ x.fab = d.fab := by
  refine ⟨_, droopCrossing_becomes h h1 h3 (if_neg (by omega)), ?_⟩
  simp only
  rw [droopReport_obj, droopReport_droopAt, droopReport_fab]
  exact ⟨obj_set_same d _ _ _ _ _, rfl, rfl⟩

theorem droopRecovery_becomes {x : Dev}
    (hx : (if 1 ≤ d.obj 0x2000 0x08 ∧ d.pow.droopAt + perUs ≤ d.now then (d.set 0x2000 0x08 (d.obj 0x2000 0x08 - 1)).powUpd fun x => { x with droopAt := d.now } else d) = x) :
    Becomes (.droopStepRecovery t) s x := by
  refine becomes h (by unfold exec; rfl) rfl ?_
  exact hx

end

/-! Control-processor pairs (R29, R30, R89). -/

@[simp] theorem setPair_same (d : Dev) (p : Nat) (x : PairSt) : (d.setPair p x).pair p = x := tget_tput_same _ _ _ _

/-- A pair disagrees: its new state and the moment, its event, and no unbroken health time; a pair that ran holds the blend of CP2. -/
def Dev.mismatch (d : Dev) (p state stopped : Nat) (ran : Bool) : Dev :=
  let d := ((d.setPair p { state := state, stoppedAt := stopped, lastMismatch := some d.now }).event 7 (some 2) Ev.lockstep.code 0 [BitVec.ofNat 8 p]).flashUpd fun x => { x with healthy := none }
  if p = 2 ∧ ran = true then d.sexUpd fun x => { x with blend := x.blend.map (fun b => { b with frozen := some d.now }) } else d

section
variable (d : Dev) (p state stopped : Nat) (ran : Bool)

theorem mismatch_pair : (d.mismatch p state stopped ran).pair p = { state := state, stoppedAt := stopped, lastMismatch := some d.now } := by
  unfold Dev.mismatch
  simp only
  split <;> exact setPair_same d p _

theorem mismatch_event : ∃ e ∈ (d.mismatch p state stopped ran).ev.bus, e.vector = some 2 ∧ e.lt = d.lt := by
  obtain ⟨e, he, hvector, hlt⟩ : ∃ e ∈ ((d.setPair p { state := state, stoppedAt := stopped, lastMismatch := some d.now }).event 7 (some 2) Ev.lockstep.code 0 [BitVec.ofNat 8 p]).ev.bus,
      e.vector = some 2 ∧ e.lt = d.lt := ⟨_, mem_busInsert _ _, rfl, rfl⟩
  refine ⟨e, ?_, hvector, hlt⟩
  unfold Dev.mismatch
  simp only
  split <;> exact he

theorem mismatch_healthy : (d.mismatch p state stopped ran).flash.healthy = none := by
  unfold Dev.mismatch
  simp only
  split <;> rfl

theorem mismatch_blend {b : Blend} (hb : d.sex.blend = some b) : (d.mismatch 2 state stopped true).sex.blend = some { b with frozen := some d.now } := by
  unfold Dev.mismatch
  simp only [and_self, if_true]
  exact congrArg (Option.map _) hb

end

section
variable {s : State} {t p : Nat} {d : Dev} (h : s.Tick t d) (hp : p < 4)
include h hp

theorem lockstep_held (hheld : (d.pair p).state = 2) : Becomes (.lockstepMismatch t p) s d := by
  refine becomes h (by unfold exec; rfl) (decide_eq_true hp) ?_
  exact if_pos hheld

theorem lockstep_restarts (hpair : d.pair p = { state := 0 }) : Becomes (.lockstepMismatch t p) s (d.mismatch p 1 d.now true) := by
  refine becomes h (by unfold exec; rfl) (decide_eq_true hp) ?_
  simp only [hpair]
  simp [Dev.mismatch]

theorem lockstep_again {e : Nat} (hruns : (d.pair p).state = 0) (hlast : (d.pair p).lastMismatch = some e) (hsoon : d.now ≤ e + 10 * perS) (h1 : 1 ≤ p) :
    Becomes (.lockstepMismatch t p) s (((d.mismatch p 2 d.now true).event 7 (some 2) Ev.pairHeld.code 0 [BitVec.ofNat 8 p]).safetyOut) := by
  refine becomes h (by unfold exec; rfl) (decide_eq_true hp) ?_
  have hsoon' : decide (d.now ≤ e + 10 * perS) = true := decide_eq_true hsoon
  simp only [hruns, hlast, hsoon']
  simp [Dev.mismatch, show p ≠ 0 by omega]

theorem pairRestart_becomes {x : Dev}
    (hx : (if (d.pair p).state ≠ 1 then d
      else
        let y := ((d.setPair p { d.pair p with state := 0 }).thaw p (d.now - (d.pair p).stoppedAt)).healthStart
        if p = 0 then y.stackProgress.finishIfReady else y) = x) : Becomes (.pairRestartComplete t p) s x := by
  refine becomes h (by unfold exec; rfl) (decide_eq_true hp) ?_
  exact hx

end

/-- A safety event changes neither pairs nor flash. -/
theorem safetyOut_leaves (d : Dev) (p : Nat) : d.safetyOut.pair p = d.pair p ∧ d.safetyOut.flash = d.flash := by
  unfold Dev.safetyOut Dev.wakeOutBit
  simp only
  split
  · exact ⟨rfl, rfl⟩
  · split <;> exact ⟨rfl, rfl⟩

theorem lockstep_holds {s : State} {t p e : Nat} {d : Dev} (h : s.Tick t d) (hp : p < 4) (hruns : (d.pair p).state = 0) (hlast : (d.pair p).lastMismatch = some e)
    (hsoon : d.now ≤ e + 10 * perS) (h1 : 1 ≤ p) : Completes (.lockstepMismatch t p) s fun x => (x.pair p).state = 2 ∧ x.flash.healthy = none := by
  refine ⟨_, lockstep_again h hp hruns hlast hsoon h1, ?_⟩
  obtain ⟨hpair, hflash⟩ := safetyOut_leaves ((d.mismatch p 2 d.now true).event 7 (some 2) Ev.pairHeld.code 0 [BitVec.ofNat 8 p]) p
  rw [hpair, hflash]
  exact ⟨congrArg PairSt.state (mismatch_pair d p 2 d.now true), mismatch_healthy d p 2 d.now true⟩

/-- Settles O50: ramps, the fail-safe, droop steps and pairs, each command by the case of its state. -/
theorem rampsDroopAndPairs : Obligations.RampsDroopAndPairs := by
  unfold Obligations.RampsDroopAndPairs
  refine ⟨fun s t d h => ⟨rampEnd_none h, fun k l hramp => rampEnd_next h hramp, fun v => stateReached_counts d v,
      fun e he => ⟨acknowledgeExpiry_due h he, acknowledgeExpiry_waits h he⟩, failSafe_acts d⟩,
    fun s t d h => ⟨fun n h1 h3 => ⟨droopCrossing_deeper h h1 h3, fun hn => droopCrossing_becomes h h1 h3 (if_pos hn)⟩,
      fun h1 hlasted => droopRecovery_becomes h (if_pos ⟨h1, hlasted⟩), fun hnot => droopRecovery_becomes h (if_neg (by omega)),
      fun p hp => ⟨fun hpair => ⟨_, lockstep_restarts h hp hpair, mismatch_pair d p 1 d.now true, mismatch_event d p 1 d.now true⟩,
        fun e hruns hlast hsoon h1 => lockstep_holds h hp hruns hlast hsoon h1, lockstep_held h hp,
        fun h1 => pairRestart_becomes h hp (if_neg (not_not.2 h1)), fun h1 => pairRestart_becomes h hp (if_pos h1)⟩,
      fun b hpair hb => ⟨_, lockstep_restarts h (by omega) hpair, mismatch_blend d 1 d.now hb⟩, fun n => ⟨rfl, rfl⟩⟩⟩

end Sys2Proof.Machine

/-! SUPPORT. Pins, supplies and the CORE reset. -/

namespace Sys2Proof.Machine

/-! What transceivers that follow their channels leave (R259). -/

/-- The device but for its objects, messages and channels. -/
def Dev.offLines (d : Dev) : Dev := { d with store := [], outbox := [], chans := [], lins := [] }

section
variable (d : Dev)

theorem settleBy_offLines (u : Nat) (e : Option Nat) : (d.settleBy u e).offLines = d.offLines := by
  unfold Dev.settleBy
  split
  · simp only
    split <;> rfl
  · rfl

theorem xcvr_offLines (u : Nat) : (d.xcvr u).offLines = d.offLines := by
  unfold Dev.xcvr
  rw [xcvrDrive_eq]
  split
  · rfl
  · exact settleBy_offLines _ u _

theorem xcvrAll_offLines : d.xcvrAll.offLines = d.offLines := foldl_leaves Dev.offLines _ (fun d u => xcvr_offLines d u) _ d

theorem watch_of_offLines {x y : Dev} (h : x.offLines = y.offLines) : x.watch = y.watch := (congrArg Dev.watch h :)

theorem xcvrAll_watch : d.xcvrAll.watch = d.watch := watch_of_offLines (xcvrAll_offLines d)

theorem resetLines_offLines : d.resetLines.offLines = d.offLines := foldl_leaves Dev.offLines _ (fun d u => by
  split
  · rfl
  · exact xcvr_offLines d u) _ d

theorem resetLines_obj {i j : Nat} (w r : Nat) (hi : i < 65536) (hj : j < 256) (h : i ≠ 0x6880) : d.resetLines.obj i j w r = d.obj i j w r :=
  foldl_leaves (fun d : Dev => d.obj i j w r) _ (fun d u => by
    split
    · rfl
    · exact xcvr_obj d u w r hi hj h) _ d

/-- The device but for its objects and its segments. -/
def Dev.offSegs (d : Dev) : Dev := { d with store := [], watch := { d.watch with segs := [] } }

theorem segsDown_offSegs : d.segsDown.offSegs = d.offSegs := foldl_leaves Dev.offSegs _ (fun d u => by split <;> rfl) _ d

theorem segsDown_obj {i j : Nat} (w r : Nat) (hi : i < 65536) (hj : j < 256) (h : i ≠ 0xA020) : d.segsDown.obj i j w r = d.obj i j w r :=
  foldl_leaves (fun d : Dev => d.obj i j w r) _ (fun d u => by
    split
    · rw [setSeg_obj, obj_set_field d (by omega) (by omega) hj hi (by omega)]
    · rfl) _ d

theorem linesOut_foldl_silent (l : List Nat) : { l.foldl Dev.linesOut d with outbox := [] } = { d with outbox := [] } :=
  foldl_leaves (fun d : Dev => { d with outbox := [] }) Dev.linesOut (fun _ _ => rfl) l d

/-! The CORE reset (R397, R488, R489). -/

/-- A table of the entries whose keys are kept reads as the whole at a kept key. -/
theorem tget_filter {β : Type} (f : Nat → β) (p : Nat → Bool) {k : Nat} (hk : p k = true) (l : Tbl β) : tget f (l.filter fun x => p x.1) k = tget f l k := by
  induction l with
  | nil => rfl
  | cons x l ih =>
    obtain ⟨a, b⟩ := x
    by_cases ha : a = k
    · subst ha
      rw [List.filter_cons_of_pos (p := fun x : Nat × β => p x.1) hk, tget, tget, if_pos rfl, if_pos rfl]
    · by_cases hp : p a = true
      · rw [List.filter_cons_of_pos (p := fun x : Nat × β => p x.1) hp, tget, tget, if_neg ha, if_neg ha, ih]
      · rw [List.filter_cons_of_neg (p := fun x : Nat × β => p x.1) hp, ih, tget, if_neg ha]

/-- The objects of the device state outlive a CORE reset. -/
theorem coreReset_watchObj (c : Nat) {j : Nat} (w r : Nat) (hj : j < 256) : (d.coreReset c).obj 0xA000 j w r = d.obj 0xA000 j w r := by
  have hkept : keptKey (objKey 0xA000 j w r) = true := by
    have hi : objKey 0xA000 j w r / 256 % 65536 = 0xA000 := by unfold objKey; omega
    unfold keptKey keptIndex
    rw [hi]
    rfl
  unfold Dev.coreReset
  simp only
  rw [obj_set_field _ (by omega) (by omega) hj (by omega) (by omega), obj_set_field _ (by omega) (by omega) hj (by omega) (by omega),
    obj_set_field _ (by omega) (by omega) hj (by omega) (by omega)]
  exact tget_filter objDefault keptKey hkept d.store

theorem coreDown_watchObj (c n : Nat) {j : Nat} (hj : j < 256) : (d.coreDown c n).obj 0xA000 j = d.obj 0xA000 j := by
  unfold Dev.coreDown
  rw [Dev.watchUpd_obj, resetLines_obj _ 0 0 (by omega) hj (by omega), segsDown_obj _ 0 0 (by omega) hj (by omega), coreReset_watchObj _ _ 0 0 hj]

/-- After a CORE reset the services, the fabric and the Rose are in their reset states, and the flash keeps its sectors and takes the cause. -/
theorem coreDown_resets (c n : Nat) :
    (d.coreDown c n).alm = {} ∧ (d.coreDown c n).fab = {} ∧ (d.coreDown c n).rose = {} ∧ (d.coreDown c n).flash.cause = c ∧ (d.coreDown c n).flash.sectors = d.flash.sectors := by
  have hlines := resetLines_offLines (d.coreReset c).segsDown
  have hsegs := segsDown_offSegs (d.coreReset c)
  have halm : (d.coreDown c n).alm = (d.coreReset c).alm := (congrArg Dev.alm hlines :).trans (congrArg Dev.alm hsegs :)
  have hfab : (d.coreDown c n).fab = (d.coreReset c).fab := (congrArg Dev.fab hlines :).trans (congrArg Dev.fab hsegs :)
  have hrose : (d.coreDown c n).rose = (d.coreReset c).rose := (congrArg Dev.rose hlines :).trans (congrArg Dev.rose hsegs :)
  have hflash : (d.coreDown c n).flash = (d.coreReset c).flash := (congrArg Dev.flash hlines :).trans (congrArg Dev.flash hsegs :)
  rw [halm, hfab, hrose, hflash]
  exact ⟨rfl, rfl, rfl, rfl, rfl⟩

theorem coreDown_stage (c n : Nat) : (d.coreDown c n).watch.stage = n := rfl

theorem coreOn_of_stage {d : Dev} {n : Nat} (h : d.watch.stage = n + 1) : d.coreOn = false := by simp [Dev.coreOn, h]

/-- The entry into Watch (R393): MAIN_EN falls, the state is Watch and no entry is pending. -/
theorem enterWatch_enters : d.enterWatch.watch.inWatch = true ∧ d.enterWatch.watch.mainEn = false ∧ d.enterWatch.coreOn = false ∧ d.enterWatch.watch.runReq = d.watch.runReq ∧
    d.enterWatch.obj 0xA000 0x02 = 1 ∧ d.enterWatch.obj 0xA000 0x04 = 0 := by
  obtain ⟨y, hy⟩ : ∃ y, (d.set 0xA000 0x04 0).xcvrAll = y := ⟨_, rfl⟩
  have hwatch : y.watch = d.watch := by rw [← hy, xcvrAll_watch, Dev.set_watch]
  have hpending : y.obj 0xA000 0x04 = 0 := by
    rw [← hy, xcvrAll_obj _ 0 0 (by omega) (by omega) (by omega), obj_set_same]
  have hobj {j : Nat} (hj : j < 256) : d.enterWatch.obj 0xA000 j = (((y.driveMain false).set 0xA000 0x02 1).inc 0xA000 0x0E).obj 0xA000 j := by
    unfold Dev.enterWatch
    simp only [hy]
    rw [Dev.watchUpd_obj, coreReset_watchObj _ _ 0 0 hj]
  refine ⟨rfl, ?_, coreOn_of_stage rfl, ?_, ?_, ?_⟩
  · unfold Dev.enterWatch
    rfl
  · unfold Dev.enterWatch
    simp only [hy]
    exact (congrArg WatchSt.runReq hwatch :)
  · rw [hobj (by omega)]
    simp (disch := omega) only [obj_inc_field, obj_set_same]
  · rw [hobj (by omega)]
    simp (disch := omega) only [obj_inc_field, obj_set_field]
    exact hpending

end

/-! The pins and the start (R393, R395, R480 to R485, R488, R491). -/

section
variable {s : State} {t : Nat} {d : Dev} (h : s.at t = d) (hoff : d.watch.off = false)
include h hoff

theorem runReqRise_becomes {x : Dev}
    (hx : (if d.watch.runReq then d
      else
        let d := ((d.watchUpd fun x => { x with runReq := true }).wakeOutBit 0 false).failSafeEnd
        let d := if d.obj 0xA000 0x04 = 1 then (d.set 0xA000 0x04 0).watchEvent .wake else d
        if d.watch.inWatch then
          let d := (d.driveMain true).watchUpd fun x => { x with inWatch := false, stage := if x.mainPg then 2 else 1 }
          d.flashUpd fun x => { x with cause := 1 }
        else d) = x) : Becomes (.runReqRise t) s x := by
  refine becomes_aon h hoff (by unfold exec; rfl) rfl ?_
  exact hx

theorem runReqFall_becomes {x : Dev}
    (hx : (if ¬ d.watch.runReq then d
      else
        let d := d.watchUpd fun x => { x with runReq := false }
        if d.obj 0xA000 0x04 = 1 then d.watchIfReady else d.event 1 (some 3) (.code 0x0193) 0 (List.replicate 12 0)) = x) : Becomes (.runReqFall t) s x := by
  refine becomes_aon h hoff (by unfold exec; rfl) rfl ?_
  exact hx

theorem mainPgRise_becomes {x : Dev}
    (hx : (let d := d.watchUpd fun x => { x with mainPg := true }
      if d.watch.stage ≠ 1 ∨ ¬ d.watch.mainEn then d
      else if d.watch.runReq then d.watchUpd fun x => { x with stage := 2 }
      else ((d.driveMain false).set 0xA000 0x02 1).watchUpd fun x => { x with inWatch := true }) = x) : Becomes (.mainPgRise t) s x := by
  refine becomes_aon h hoff (by unfold exec; rfl) rfl ?_
  exact hx

theorem referenceValid_becomes {x : Dev} (hx : (if d.watch.stage = 2 then d.watchUpd fun x => { x with stage := 3 } else d) = x) : Becomes (.referenceValid t) s x := by
  refine becomes_aon h hoff (by unfold exec; rfl) rfl ?_
  exact hx

theorem corePllsLocked_becomes {x : Dev} (hx : (if d.watch.stage = 3 then d.watchUpd fun x => { x with stage := 4 } else d) = x) : Becomes (.corePllsLocked t) s x := by
  refine becomes_aon h hoff (by unfold exec; rfl) rfl ?_
  exact hx

theorem referenceLoss_becomes {x : Dev} (hx : (if ¬ d.watch.mainEn ∨ d.watch.stage = 1 ∨ d.watch.stage = 2 then d else (d.set 0xA000 0x04 0).coreDown 3 2) = x) :
    Becomes (.referenceLoss t) s x := by
  refine becomes_aon h hoff (by unfold exec; rfl) rfl ?_
  exact hx

theorem resetNAssert_becomes {x : Dev} (hx : (if ¬ d.watch.mainEn then d else (d.set 0xA000 0x04 0).coreDown 4 (if d.watch.stage = 0 then 4 else d.watch.stage)) = x) :
    Becomes (.resetNAssert t) s x := by
  refine becomes_aon h hoff (by unfold exec; rfl) rfl ?_
  exact hx

theorem brownout_becomes {x : Dev}
    (hx : (if ¬ d.watch.mainEn then d else ((((d.inc 0xA000 0x0B).failSafe).set 0xA000 0x04 0).coreDown 2 1).watchUpd fun x => { x with mainPg := false }) = x) :
    Becomes (.brownout t) s x := by
  refine becomes_aon h hoff (by unfold exec; rfl) rfl ?_
  exact hx

/-- From Watch a rise of RUN_REQ raises MAIN_EN, and the start waits for what is still missing. -/
theorem runReqRise_starts (hlow : d.watch.runReq = false) (hin : d.watch.inWatch = true) (hsafe : d.flag 0xA000 0x09 = false) (hpending : d.obj 0xA000 0x04 = 0) :
    Completes (.runReqRise t) s fun x => x.watch.runReq = true ∧ x.watch.mainEn = true ∧ x.watch.inWatch = false ∧
      x.watch.stage = (if d.watch.mainPg then 2 else 1) ∧ x.flash.cause = 1 ∧ x.watch.wakeOut = setBit d.watch.wakeOut 0 false := by
  obtain ⟨y, hy⟩ : ∃ y, (d.watchUpd fun x => { x with runReq := true }).wakeOutBit 0 false = y := ⟨_, rfl⟩
  have hwatch : y.watch = { d.watch with runReq := true, wakeOut := setBit d.watch.wakeOut 0 false } := by
    rw [← hy]
    unfold Dev.wakeOutBit
    simp only
    split <;> rfl
  have hnoted := wakeNoted_wakeOutBit (d.watchUpd fun x => { x with runReq := true }) 0 false
  rw [hy] at hnoted
  have hsafe' : y.flag 0xA000 0x09 = false := by
    unfold Dev.flag at hsafe ⊢
    rw [hnoted.obj 0 0 (by omega) (by omega) (by omega)]
    exact hsafe
  have hpending' : y.obj 0xA000 0x04 = 0 := by
    rw [← hy]
    unfold Dev.wakeOutBit
    simp only
    split
    · exact hpending
    · simp (disch := omega) only [Dev.out_obj, obj_set_field, Dev.watchUpd_obj, hpending]
  have hmain : (y.driveMain true).watch = { d.watch with runReq := true, mainEn := true, wakeOut := setBit d.watch.wakeOut 0 false } :=
    congrArg (fun w : WatchSt => { w with mainEn := true }) hwatch
  refine ⟨_, runReqRise_becomes h hoff (x := ((y.driveMain true).watchUpd fun x => { x with inWatch := false, stage := if x.mainPg then 2 else 1 }).flashUpd fun x => { x with cause := 1 }) ?_, ?_⟩
  · have hin' : y.watch.inWatch = true := (congrArg WatchSt.inWatch hwatch).trans hin
    rw [if_neg (by simp [hlow])]
    simp only [hy, Dev.failSafeEnd, hsafe', Bool.false_eq_true, if_false, hpending', Nat.zero_ne_one, hin', if_true]
  · refine ⟨?_, rfl, rfl, ?_, rfl, ?_⟩
    · exact congrArg WatchSt.runReq hmain
    · exact (congrArg (fun w : WatchSt => if w.mainPg then 2 else 1) hmain :)
    · exact congrArg WatchSt.wakeOut hmain

/-- A fall of RUN_REQ completes a pending entry into Watch. -/
theorem runReqFall_enters (hhigh : d.watch.runReq = true) (hpending : d.obj 0xA000 0x04 = 1) (hwait : d.alm.waiting = false) (hramp : d.pow.ramp = []) :
    Completes (.runReqFall t) s fun x =>
      x.watch.runReq = false ∧ x.watch.inWatch = true ∧ x.watch.mainEn = false ∧ x.coreOn = false ∧ x.obj 0xA000 0x02 = 1 ∧ x.obj 0xA000 0x04 = 0 := by
  obtain ⟨hin, hmain, hcore, hrun, hstate, hnone⟩ := enterWatch_enters (d.watchUpd fun x => { x with runReq := false })
  refine ⟨_, runReqFall_becomes h hoff (x := (d.watchUpd fun x => { x with runReq := false }).enterWatch) ?_, hrun, hin, hmain, hcore, hstate, hnone⟩
  rw [if_neg (by simp [hhigh])]
  simp only [Dev.watchUpd_obj]
  rw [if_pos hpending, Dev.watchIfReady, if_pos ⟨hpending, Bool.false_ne_true, by simp [hwait], by simp [hramp]⟩]

/-- A brownout acts as the fail-safe, counts, and resets the CORE domain. -/
theorem brownout_resets (hmain : d.watch.mainEn = true) (hsafe : d.flag 0xA000 0x09 = false) :
    Completes (.brownout t) s fun x => x.watch.stage = 1 ∧ x.watch.mainPg = false ∧ x.coreOn = false ∧ x.flash.cause = 2 ∧
      x.obj 0xA000 0x0B = (d.obj 0xA000 0x0B + 1) % 2 ^ 32 ∧ x.obj 0xA000 0x09 = 1 := by
  have hsafe' : (d.inc 0xA000 0x0B).flag 0xA000 0x09 = false := by
    unfold Dev.flag at hsafe ⊢
    rw [obj_inc_field d (by omega) (by omega) (by omega) (by omega) (by omega)]
    exact hsafe
  obtain ⟨y, hy⟩ : ∃ y, (d.inc 0xA000 0x0B).failSafe = y := ⟨_, rfl⟩
  have hobj {j : Nat} (hj : j < 256) : y.obj 0xA000 j = ((((d.inc 0xA000 0x0B).set 0xA000 0x09 1).set 0xA000 0x08 3).inc 0xA000 0x0A).obj 0xA000 j :=
    hy ▸ failSafe_watchObj _ hsafe' hj
  obtain ⟨z, hz⟩ : ∃ z, (y.set 0xA000 0x04 0).coreDown 2 1 = z := ⟨_, rfl⟩
  have hcause : z.flash.cause = 2 := hz ▸ (coreDown_resets (y.set 0xA000 0x04 0) 2 1).2.2.2.1
  have hstage : z.watch.stage = 1 := hz ▸ coreDown_stage _ _ _
  refine ⟨z.watchUpd fun x => { x with mainPg := false }, brownout_becomes h hoff ?_, hstage, rfl, coreOn_of_stage hstage, hcause, ?_, ?_⟩
  · rw [if_neg (by simp [hmain]), hy, hz]
  · rw [Dev.watchUpd_obj, ← hz, coreDown_watchObj _ _ _ (by omega), obj_set_field _ (by omega) (by omega) (by omega) (by omega) (by omega), hobj (by omega)]
    simp (disch := omega) only [obj_set_field, obj_inc_field, obj_inc_same]
  · rw [Dev.watchUpd_obj, ← hz, coreDown_watchObj _ _ _ (by omega), obj_set_field _ (by omega) (by omega) (by omega) (by omega) (by omega), hobj (by omega)]
    simp (disch := omega) only [obj_set_field, obj_inc_field, obj_set_same]

theorem referenceLoss_resets (hmain : d.watch.mainEn = true) (hstage : d.watch.stage = 0) :
    Completes (.referenceLoss t) s fun x => x.watch.stage = 2 ∧ x.coreOn = false ∧ x.flash.cause = 3 ∧ x.flash.sectors = d.flash.sectors ∧ x.obj 0xA000 0x04 = 0 ∧ x.alm = {} := by
  obtain ⟨halm, -, -, hcause, hsectors⟩ := coreDown_resets (d.set 0xA000 0x04 0) 3 2
  refine ⟨_, referenceLoss_becomes h hoff (if_neg (by simp [hmain, hstage])), rfl, coreOn_of_stage rfl, hcause, hsectors, ?_, halm⟩
  rw [coreDown_watchObj _ _ _ (by omega), obj_set_same]

theorem resetNAssert_resets (hmain : d.watch.mainEn = true) (hstage : d.watch.stage = 0) :
    Completes (.resetNAssert t) s fun x =>
      x.watch.stage = 4 ∧ x.coreOn = false ∧ x.flash.cause = 4 ∧ x.flash.sectors = d.flash.sectors ∧ x.obj 0xA000 0x04 = 0 ∧ x.fab = {} ∧ x.rose = {} := by
  obtain ⟨-, hfab, hrose, hcause, hsectors⟩ := coreDown_resets (d.set 0xA000 0x04 0) 4 4
  refine ⟨_, resetNAssert_becomes h hoff (x := (d.set 0xA000 0x04 0).coreDown 4 4) ?_, rfl, coreOn_of_stage rfl, hcause, hsectors, ?_, hfab, hrose⟩
  · rw [if_neg (by simp [hmain]), if_pos hstage]
  · rw [coreDown_watchObj _ _ _ (by omega), obj_set_same]

/-- While the supply comes up, RUN_REQ decides between the start and Watch. -/
theorem mainPgRise_starts (hstage : d.watch.stage = 1) (hmain : d.watch.mainEn = true) (hhigh : d.watch.runReq = true) :
    Becomes (.mainPgRise t) s (d.watchUpd fun x => { x with mainPg := true, stage := 2 }) := by
  refine mainPgRise_becomes h hoff ?_
  simp only
  rw [if_neg (by simp [hstage, hmain])]
  exact if_pos hhigh

theorem mainPgRise_watches (hstage : d.watch.stage = 1) (hmain : d.watch.mainEn = true) (hlow : d.watch.runReq = false) :
    Completes (.mainPgRise t) s fun x => x.watch.inWatch = true ∧ x.watch.mainEn = false ∧ x.watch.mainPg = true ∧ x.obj 0xA000 0x02 = 1 := by
  refine ⟨_, mainPgRise_becomes h hoff
    (x := (((d.watchUpd fun x => { x with mainPg := true }).driveMain false).set 0xA000 0x02 1).watchUpd fun x => { x with inWatch := true }) ?_, rfl, rfl, rfl, ?_⟩
  · simp only
    rw [if_neg (by simp [hstage, hmain])]
    exact if_neg (by simp [hlow])
  · exact obj_set_same _ _ _ _ _ _

end

/-! The always-on supply (R391, R396). -/

/-- The device at power-on of the always-on supply, with what the flash and the fuses keep, before WAKE_OUT is asserted. -/
def Dev.powerOn (d : Dev) : Dev :=
  let d := d.coreReset 0
  let w : WatchSt := { runReq := false, mainEn := false, mainPg := false, inWatch := true, stage := 1, aonEpoch := d.now }
  let d := { d with store := d.store.filter (fun x => [0xC04008, 0xC04009, 0xC0400A].contains (x.1 % 2 ^ 24)), integ := { d.integ with repairMode := 0 }, watch := w, flash := { d.flash with failedSlot := none } }
  (d.set 0x9400 0x04 d.stackId).set 0xA000 0x02 1

/-- At power-on every unit is in its reset state, the device is in Watch, and the flash keeps its sectors and its boot record. -/
theorem powerOn_resets (d : Dev) : d.powerOn.alm = {} ∧ d.powerOn.fab = {} ∧ d.powerOn.rose = {} ∧ d.powerOn.chans = [] ∧ d.powerOn.lins = [] ∧ d.powerOn.ev = {} ∧
    d.powerOn.flash.sectors = d.flash.sectors ∧ d.powerOn.flash.boot = d.flash.boot := ⟨rfl, rfl, rfl, rfl, rfl, rfl, rfl, rfl⟩

theorem powerOn_watch (d : Dev) : ∃ n, d.powerOn.watch = { runReq := false, mainEn := false, mainPg := false, inWatch := true, stage := 1, aonEpoch := n } := ⟨_, rfl⟩

theorem powerOn_state (d : Dev) : d.powerOn.obj 0xA000 0x02 = 1 := obj_set_same _ _ _ _ _ _

/-- WAKE_OUT rises at power-on. -/
theorem powerOn_wakeOut (d : Dev) : d.powerOn.wakeOutBit 0 true = ((d.powerOn.watchUpd fun x => { x with wakeOut := 1 }).set 0xA000 0x0D 1).out (.wakeOut true) := by
  have hnone : d.powerOn.watch.wakeOut = 0 := rfl
  unfold Dev.wakeOutBit
  simp only [hnone]
  rfl

section
variable (s : State) (t : Nat)

theorem execVaonPowerOn_eq : execVaonPowerOn t s = .next { s with dev := ((List.range 40).map (· + 21)).foldl Dev.linesOut ((s.dev.advance t).powerOn.wakeOutBit 0 true) } := rfl

theorem vaonPowerOn_watches : Completes (.vaonPowerOn t) s fun x => x.watch.inWatch = true ∧ x.watch.off = false ∧ x.watch.runReq = false ∧ x.watch.mainEn = false ∧ x.coreOn = false ∧
    x.obj 0xA000 0x02 = 1 ∧ x.obj 0xA000 0x0D = 1 ∧ x.flash.sectors = s.dev.flash.sectors ∧ x.flash.boot = s.dev.flash.boot ∧ x.alm = {} ∧ x.fab = {} ∧ x.rose = {} ∧ x.chans = [] ∧ x.lins = [] := by
  obtain ⟨p, hp⟩ : ∃ p, (s.dev.advance t).powerOn = p := ⟨_, rfl⟩
  obtain ⟨y, hy⟩ : ∃ y, ((p.watchUpd fun x => { x with wakeOut := 1 }).set 0xA000 0x0D 1).out (.wakeOut true) = y := ⟨_, rfl⟩
  obtain ⟨x, hx⟩ : ∃ x, ((List.range 40).map (· + 21)).foldl Dev.linesOut y = x := ⟨_, rfl⟩
  have hexec : execVaonPowerOn t s = .next { s with dev := x } := by rw [execVaonPowerOn_eq, powerOn_wakeOut, hp, hy, hx]
  have hreset := powerOn_resets (s.dev.advance t)
  rw [hp, advance_flash] at hreset
  obtain ⟨halm, hfab, hrose, hchans, hlins, hev, hsectors, hboot⟩ := hreset
  obtain ⟨n, hwatch⟩ := powerOn_watch (s.dev.advance t)
  have hstate := powerOn_state (s.dev.advance t)
  rw [hp] at hwatch hstate
  have hsilent : { x with outbox := [] } = { y with outbox := [] } := hx ▸ linesOut_foldl_silent y _
  have hrest : { y with store := [], outbox := [], watch := {} } = { p with store := [], outbox := [], watch := {} } := hy ▸ rfl
  have hwatch' : x.watch = { p.watch with wakeOut := 1 } := (congrArg Dev.watch hsilent :).trans (hy ▸ rfl)
  rw [hwatch] at hwatch'
  have hstate' : y.obj 0xA000 0x02 = 1 := by
    rw [← hy]
    simp (disch := omega) only [Dev.out_obj, obj_set_field, Dev.watchUpd_obj, hstate]
  have hout : y.obj 0xA000 0x0D = 1 := by
    rw [← hy]
    simp only [Dev.out_obj, obj_set_same]
  have hcore : x.coreOn = false := coreOn_of_stage (congrArg WatchSt.stage hwatch')
  have hev' : x.ev = {} := ((congrArg Dev.ev hsilent :).trans (congrArg Dev.ev hrest :)).trans hev
  have hflash : x.flash = p.flash := (congrArg Dev.flash hsilent :).trans (congrArg Dev.flash hrest :)
  refine ⟨x, hexec.trans ?_, by rw [hwatch'], by rw [hwatch'], by rw [hwatch'], by rw [hwatch'], hcore, (congrArg (fun d : Dev => d.obj 0xA000 0x02) hsilent :).trans hstate',
    (congrArg (fun d : Dev => d.obj 0xA000 0x0D) hsilent :).trans hout, by rw [hflash, hsectors], by rw [hflash, hboot], ((congrArg Dev.alm hsilent :).trans (congrArg Dev.alm hrest :)).trans halm,
    ((congrArg Dev.fab hsilent :).trans (congrArg Dev.fab hrest :)).trans hfab, ((congrArg Dev.rose hsilent :).trans (congrArg Dev.rose hrest :)).trans hrose,
    ((congrArg Dev.chans hsilent :).trans (congrArg Dev.chans hrest :)).trans hchans, ((congrArg Dev.lins hsilent :).trans (congrArg Dev.lins hrest :)).trans hlins⟩
  rw [close_coreOff s hcore (by rw [hev']) (by rw [hev'])]

theorem vaonRemoval_off : Completes (.vaonRemoval t) s fun x => x.watch.off = true ∧ x.coreOn = false ∧ x.watch.mainEn = false ∧ x.flash.sectors = s.dev.flash.sectors := by
  obtain ⟨x, hx⟩ : ∃ x, ((s.dev.advance t).coreReset 0).watchUpd (fun x => { x with off := true, inWatch := false, mainEn := false, mainPg := false, runReq := false, stage := 1 }) = x := ⟨_, rfl⟩
  have hexec : execVaonRemoval t s = .next { s with dev := x } := by rw [← hx]; rfl
  have hcore : x.coreOn = false := coreOn_of_stage (n := 0) (hx ▸ rfl)
  have hev : x.ev = {} := hx ▸ rfl
  have hsectors : x.flash.sectors = (s.dev.advance t).flash.sectors := hx ▸ rfl
  refine ⟨x, hexec.trans ?_, hx ▸ rfl, hcore, hx ▸ rfl, by rw [hsectors, advance_flash]⟩
  rw [close_coreOff s hcore (by rw [hev]) (by rw [hev])]

end

/-- Settles O51: each pin and supply by the state that it finds, and the always-on supply from every state. -/
theorem suppliesAndResets : Obligations.SuppliesAndResets := by
  unfold Obligations.SuppliesAndResets
  refine ⟨fun s t d h hoff => ⟨runReqRise_starts h hoff, fun hhigh => runReqRise_becomes h hoff (if_pos hhigh), fun hhigh hnone => runReqFall_becomes h hoff ?_,
      runReqFall_enters h hoff, fun hlow => runReqFall_becomes h hoff (if_pos (by simp [hlow])), fun hstage hmain => ⟨mainPgRise_starts h hoff hstage hmain, mainPgRise_watches h hoff hstage hmain⟩,
      fun hstage => referenceValid_becomes h hoff (if_pos hstage), fun hstage => referenceValid_becomes h hoff (if_neg hstage),
      fun hstage => corePllsLocked_becomes h hoff (if_pos hstage), fun hstage => corePllsLocked_becomes h hoff (if_neg hstage),
      fun hmain => ⟨referenceLoss_resets h hoff hmain, resetNAssert_resets h hoff hmain, brownout_resets h hoff hmain⟩,
      fun hmain => ⟨referenceLoss_becomes h hoff (if_pos (.inl (by simp [hmain]))), resetNAssert_becomes h hoff (if_pos (by simp [hmain])), brownout_becomes h hoff (if_pos (by simp [hmain]))⟩⟩,
    fun s t => ⟨vaonPowerOn_watches s t, vaonRemoval_off s t⟩⟩
  rw [if_neg (by simp [hhigh])]
  simp only
  exact if_neg hnone

end Sys2Proof.Machine

/-! SUPPORT. The start of the CORE domain. -/

namespace Sys2Proof.Machine

/-! The release of the reset (R436, R489, R490). -/

section
variable {s : State} {t : Nat} {d : Dev} {env : BootEnv}

theorem resetRelease_becomes (h : s.at t = d) (hoff : d.watch.off = false) (henv : BootEnv.ok env = true) (root : Bool) {x : Dev}
    (hx : (if ¬ (d.watch.stage = 4 ∨ (d.watch.stage = 0 ∧ ¬ d.watch.inWatch ∧ ¬ d.flash.booted)) then d
      else if root then (d.released.rootRead root).bootOn env else d.released.rootRead root) = x) : Becomes (.coreResetRelease t root env) s x := by
  refine becomes_aon h hoff (by unfold exec; rfl) henv ?_
  exact hx

theorem resetRelease_starts (h : s.at t = d) (hoff : d.watch.off = false) (henv : BootEnv.ok env = true) (hstage : d.watch.stage = 4) (root : Bool) :
    Becomes (.coreResetRelease t root env) s (if root then (d.released.rootRead true).bootOn env else d.released.rootRead false) := by
  refine resetRelease_becomes h hoff henv root ?_
  rw [if_neg (not_not.2 (.inl hstage))]
  cases root with
  | false => simp only [Bool.false_eq_true, if_false]
  | true => simp only [if_true]

theorem resetRelease_ignored (h : s.at t = d) (hoff : d.watch.off = false) (henv : BootEnv.ok env = true) (hstage : d.watch.stage ≠ 4) (hbooted : d.flash.booted = true) (root : Bool) :
    Becomes (.coreResetRelease t root env) s d := resetRelease_becomes h hoff henv root (if_pos (by simp [hstage, hbooted]))

theorem rootRetry_becomes (h : s.Tick t d) (henv : BootEnv.ok env = true) (good : Bool) {x : Dev}
    (hx : (if ¬ d.flash.booted ∨ d.obj 0xB000 0x01 ≠ 0 ∨ d.obj 0xB000 0x02 = 0 then d else if good then (d.rootRead good).bootOn env else d.rootRead good) = x) :
    Becomes (.rootReadRetry t good env) s x := by
  refine becomes h (by unfold exec; rfl) henv ?_
  exact hx

theorem rootRetry_attempts (h : s.Tick t d) (henv : BootEnv.ok env = true) (hbooted : d.flash.booted = true) (hstate : d.obj 0xB000 0x01 = 0) (htried : d.obj 0xB000 0x02 ≠ 0) (good : Bool) :
    Becomes (.rootReadRetry t good env) s (if good then (d.rootRead good).bootOn env else d.rootRead good) :=
  rootRetry_becomes h henv good (if_neg (by simp [hbooted, hstate, htried]))

end

section
variable (d : Dev)

/-- At its release the device is in Standby, and local time starts. -/
theorem released_standby (hstage : d.watch.stage = 4) :
    d.released.watch.stage = 0 ∧ d.released.flash.booted = true ∧ d.released.obj 0xA000 0x01 = 2 ∧ d.released.obj 0xA000 0x02 = 2 ∧ d.released.ltEpoch = d.now := by
  obtain ⟨w, hw⟩ : ∃ w, ({ d with ltEpoch := d.now, sex := {} }.watchUpd fun x => { x with stage := 0 }).flashUpd (fun x => { x with booted := true }) = w := ⟨_, rfl⟩
  obtain ⟨y, hy⟩ : ∃ y, w.event 1 (some 3) (.code 0x0190) 0 ([BitVec.ofNat 8 w.flash.cause] ++ beBytes 4 (w.bootRec.count + 1) ++ List.replicate 7 0) = y := ⟨_, rfl⟩
  have hy1 : y.watch.stage = 0 := by rw [← hy, ← hw]; rfl
  have hy2 : y.flash.booted = true := by rw [← hy, ← hw]; rfl
  have hy3 : y.ltEpoch = d.now := by rw [← hy, ← hw]; rfl
  obtain ⟨z, hz⟩ : ∃ z, (y.set 0xA000 0x01 2).set 0xA000 0x02 2 = z := ⟨_, rfl⟩
  have hrest : { z with store := [] } = { y with store := [] } := hz ▸ rfl
  have hcommand : z.obj 0xA000 0x01 = 2 := by rw [← hz, obj_set_field _ (by omega) (by omega) (by omega) (by omega) (by omega), obj_set_same]
  have hstate : z.obj 0xA000 0x02 = 2 := by rw [← hz, obj_set_same]
  have hreleased : d.released = if d.obj 0xA000 0x02 = 2 then z else
      (z.inc 0xA000 0x0E).event 1 (some 3) (.code 0x0192) 0 ([BitVec.ofNat 8 (d.obj 0xA000 0x02), 2, BitVec.ofNat 8 (z.obj 0xA000 0x03 % 32)] ++ List.replicate 9 0) := by
    unfold Dev.released
    simp only [hstage, if_true, hw, hy, hz]
  rw [hreleased]
  have hz1 : z.watch.stage = 0 := (congrArg (fun x : Dev => x.watch.stage) hrest :).trans hy1
  have hz2 : z.flash.booted = true := (congrArg (fun x : Dev => x.flash.booted) hrest :).trans hy2
  have hz3 : z.ltEpoch = d.now := (congrArg Dev.ltEpoch hrest :).trans hy3
  split
  · exact ⟨hz1, hz2, hcommand, hstate, hz3⟩
  · exact ⟨hz1, hz2, (obj_inc_field z (by omega) (by omega) (by omega) (by omega) (by omega)).trans hcommand,
      (obj_inc_field z (by omega) (by omega) (by omega) (by omega) (by omega)).trans hstate, hz3⟩

/-! A start without candidate (R437). -/

theorem showManifest_flash (k : Nat) : (d.showManifest k).flash = d.flash := by
  unfold Dev.showManifest
  simp only
  split <;> rfl

theorem showSlots_flash : d.showSlots.flash = d.flash := by
  have hshown : ([0, 1, 2].foldl Dev.showManifest d).flash = d.flash := foldl_leaves Dev.flash _ (fun d k => showManifest_flash d k) _ d
  obtain ⟨y, hy⟩ : ∃ y, [0, 1, 2].foldl Dev.showManifest d = y := ⟨_, rfl⟩
  rw [hy] at hshown
  unfold Dev.showSlots
  simp only [hy]
  split <;> exact hshown

/-- Without a trial the start is counted in the boot record, and nothing else of it changes but its generation. -/
theorem bootStep4_counts (htrial : d.trialOpen = false) : d.bootStep4 = d.setBoot fun r => { r with count := (r.count + 1) % 2 ^ 32 } := by
  unfold Dev.bootStep4 Dev.trialSpent
  simp [htrial]

theorem bootOn_recovers (env : BootEnv) (hflash : env.flashState = 0) (hnone : d.candidates = []) (htrial : d.trialOpen = false) :
    (d.bootOn env).flash.recovery = true ∧ (d.bootOn env).obj 0xB800 0x03 = 3 ∧ (d.bootOn env).bootRec.count = (d.bootRec.count + 1) % 2 ^ 32 := by
  obtain ⟨y, hy⟩ : ∃ y, (d.set 0xB800 0x09 env.flashSize).set 0xB800 0x0A env.flashState = y := ⟨_, rfl⟩
  have hyflash : y.flash = d.flash := hy ▸ rfl
  have hytrial : y.trialOpen = false := (congrArg (fun x : FlashSt => (x.boot.getD {}).fwPending || (x.boot.getD {}).almPending || (x.boot.getD {}).running) hyflash).trans htrial
  obtain ⟨z, hz⟩ : ∃ z, y.bootStep4.showSlots = z := ⟨_, rfl⟩
  have hzflash : z.flash = { d.flash with boot := some { d.bootRec with count := (d.bootRec.count + 1) % 2 ^ 32, gen := d.bootRec.gen + 1 } } := by
    rw [← hz, showSlots_flash, bootStep4_counts y hytrial]
    exact congrArg (fun x : FlashSt => { x with boot := some { x.boot.getD {} with count := ((x.boot.getD {}).count + 1) % 2 ^ 32, gen := (x.boot.getD {}).gen + 1 } }) hyflash
  have hznone : z.candidates = [] := by
    rw [← hnone]
    unfold Dev.candidates Dev.slotWith Dev.role Dev.bootRec
    rw [hzflash]
    rfl
  obtain ⟨w, hw⟩ : ∃ w, z.flashUpd (fun x => { x with failedSlot := none }) = w := ⟨_, rfl⟩
  have hboot : d.bootOn env = w.enterRecovery := by
    unfold Dev.bootOn
    simp only [hflash, ne_eq, not_true_eq_false, if_false]
    rw [hflash] at hy
    simp only [hy, hz, hznone, Dev.pickSlot, hw]
  have hcount : w.bootRec.count = (d.bootRec.count + 1) % 2 ^ 32 := hw ▸ (congrArg (fun x : FlashSt => (x.boot.getD {}).count) hzflash :)
  rw [hboot]
  exact ⟨rfl, obj_set_same w _ _ _ _ _, hcount⟩

end

/-- Settles O52: the release, the attempts on the root secret, and a start without candidate. -/
theorem startOfTheCore : Obligations.StartOfTheCore := by
  unfold Obligations.StartOfTheCore
  intro s t d env h hoff henv
  exact ⟨resetRelease_starts h hoff henv, resetRelease_ignored h hoff henv, released_standby d, fun hflash hnone htrial _ => bootOn_recovers d env hflash hnone htrial,
    fun htick hbooted hstate htried => ⟨rootRetry_attempts htick henv hbooted hstate htried true, rootRetry_attempts htick henv hbooted hstate htried false⟩,
    fun htick hstate good => rootRetry_becomes htick henv good (if_pos (.inr (.inl hstate)))⟩

end Sys2Proof.Machine

/-! SUPPORT. Keys, slots, the key store, attestation and identity. -/

namespace Sys2Proof.Machine

/-! Slots (R402, R406 to R408). -/

/-- The Binnacle but for the keys of its slots and the import key. -/
def BinSt.besideKeys (x : BinSt) : BinSt := { x with keys := [], lost := [], kimp := [] }

section
variable (d : Dev) (k origin type usage gen : Nat) (b : Bytes)

theorem setSlot_key : (d.setSlot k origin type usage gen b).key k = b := tget_tput_same _ _ _ _

theorem setSlot_bin : (d.setSlot k origin type usage gen b).bin.besideKeys = d.bin.besideKeys := rfl

theorem setSlot_obj {i : Nat} (j w r : Nat) (hi : i < 65536) (hj : j < 256) (h : i ≠ 0xB040) : (d.setSlot k origin type usage gen b).obj i j w r = d.obj i j w r := by
  unfold Dev.setSlot
  simp only
  simp (disch := omega) only [obj_set_field, Dev.binUpd_obj]

theorem setSlot_shows : (d.setSlot k origin type usage gen b).obj 0xB040 0x01 0 k = origin ∧ (d.setSlot k origin type usage gen b).obj 0xB040 0x02 0 k = type ∧
    (d.setSlot k origin type usage gen b).obj 0xB040 0x03 0 k = usage := by
  unfold Dev.setSlot
  simp only
  simp (disch := omega) only [obj_set_field, obj_set_same, and_self]

theorem clearSlot_empties : (d.clearSlot k).obj 0xB040 0x01 0 k = 0 ∧ (d.clearSlot k).obj 0xB040 0x05 0 k = 0 ∧ (d.clearSlot k).key k = [] :=
  ⟨(setSlot_shows d k 0 0 0 0 []).1, obj_set_same _ _ _ _ _ _, setSlot_key d k 0 0 0 0 []⟩

theorem deriveSlot_eq {g : Bytes} (hroot : d.bin.kroot = some g) :
    d.deriveSlot k = d.setSlot k 2 (d.obj 0xB040 0x11 0 k) (d.obj 0xB040 0x12 0 k) 0 (d.derivedKey g k) := by
  unfold Dev.deriveSlot
  rw [hroot]

/-! A slot whose line is lost (R407). -/

theorem slotLineLost_empties (hfull : d.obj 0xB040 0x01 0 k ≠ 0) (hnone : d.bin.lost = []) :
    (d.slotLineLost k).slotFull k = false ∧ (d.slotLineLost k).key k = [] ∧ (d.slotLineLost k).bin.gcm = d.bin.gcm ∧
      ∃ e : Nat, (d.slotLineLost k).bin.lost = [(k, e)] ∧ d.now ≤ e ∧ e ≤ d.now + perMs := by
  obtain ⟨v, y, hy, hbin, hnow⟩ : ∃ (v : Nat) (y : Dev), d.free 21 = (v, y) ∧ y.bin = d.bin ∧ y.now = d.now := ⟨_, _, rfl, rfl, rfl⟩
  have hlost : d.slotLineLost k = y.binUpd fun x => { x with keys := tput (fun _ => []) x.keys k [], lost := x.lost ++ [(k, y.now + v % (perMs + 1))] } := by
    unfold Dev.slotLineLost
    rw [if_neg (by simp [hfull, hnone])]
    simp only [hy]
  have hlist : (d.slotLineLost k).bin.lost = [(k, d.now + v % (perMs + 1))] := by
    rw [hlost, ← hnow]
    exact congrArg (· ++ _) ((congrArg BinSt.lost hbin).trans hnone)
  have hv : v % (perMs + 1) < perMs + 1 := Nat.mod_lt _ (by omega)
  refine ⟨?_, ?_, ?_, _, hlist, by omega, by omega⟩
  · unfold Dev.slotFull
    rw [hlist]
    simp
  · rw [hlost]
    exact tget_tput_same _ _ _ _
  · rw [hlost]
    exact (congrArg BinSt.gcm hbin :)

variable {e : Nat} (hlost : d.bin.lost = [(k, e)])
include hlost

theorem slotsDue_one (hdue : e ≤ d.now) : d.bin.lost.filter (fun x => x.2 ≤ d.now) = [(k, e)] := by
  rw [hlost]
  exact List.filter_cons_of_pos (decide_eq_true hdue)

theorem slotsDue_gone (hdue : e ≤ d.now) (hkey : d.rebuiltKey k = none) : d.slotsDue = (d.clearSlot k).event 8 (some 20) Ev.slotLost.code 0 (beBytes 1 k) := by
  unfold Dev.slotsDue
  rw [slotsDue_one d k hlost hdue]
  simp only [List.foldl_cons, List.foldl_nil, hkey]

theorem slotsDue_waits (hwaits : d.now < e) : d.slotsDue = d := by
  have hfilter : d.bin.lost.filter (fun x => x.2 ≤ d.now) = [] := by
    rw [hlost]
    exact List.filter_cons_of_neg (by simpa using hwaits)
  unfold Dev.slotsDue
  rw [hfilter, List.foldl_nil]

theorem slotsDue_rebuilds (hdue : e ≤ d.now) {b : Bytes} (hkey : d.rebuiltKey k = some b) :
    d.slotsDue.key k = b ∧ d.slotsDue.bin.lost = [] ∧ d.slotsDue.obj 0xB000 0x09 = (d.obj 0xB000 0x09 + 1) % 2 ^ 32 := by
  have hx : d.slotsDue = (d.binUpd fun y => { y with keys := tput (fun _ => []) y.keys k b, lost := y.lost.filter (fun z => z.1 != k) }).inc 0xB000 0x09 := by
    unfold Dev.slotsDue
    rw [slotsDue_one d k hlost hdue]
    simp only [List.foldl_cons, List.foldl_nil, hkey]
  rw [hx]
  refine ⟨tget_tput_same _ _ _ _, ?_, obj_inc_same (d.binUpd _) _ _ _ _ _⟩
  show d.bin.lost.filter (fun z => z.1 != k) = []
  rw [hlost]
  simp

end

section
variable (d : Dev) {g : Bytes} (hroot : d.bin.kroot = some g) (k : Nat)
include hroot

theorem rebuiltKey_derived (horigin : d.obj 0xB040 0x01 0 k = 2) : d.rebuiltKey k = some (d.derivedKey g k) := by
  unfold Dev.rebuiltKey
  simp only [horigin, hroot]

theorem rebuiltKey_stored {c : KsCopy} {l : Nat} {r : KsRecord} (horigin : d.obj 0xB040 0x01 0 k = 3) (hforce : d.bin.inForce = some (l, c))
    (hfind : c.recs.find? (fun y => y.slot == k) = some r) : d.rebuiltKey k = some r.key := by
  unfold Dev.rebuiltKey
  simp only [horigin, hroot, hforce, Option.bind_some, hfind, Option.map_some]

end

/-! Blobs (R415). -/

section
variable (d : Dev) (b : Bytes) (l : Bool)

theorem blobCheck_committing (h : d.obj 0xB020 0x05 = 2) : d.blobCheck b l = 0x613 := if_pos h

theorem blobCheck_version (h : d.obj 0xB020 0x05 ≠ 2) (hv : byteAt b 0 ≠ 1) : d.blobCheck b l = 0x302 := by
  unfold Dev.blobCheck
  simp only
  rw [if_neg h, if_pos (.inl hv)]

/-- A blob that passes the checks has each property that they ask for. -/
theorem blobCheck_passes (h : d.blobCheck b l = 0) :
    byteAt b 0 = 1 ∧ d.lastCounter < field b 8 8 ∧ ¬ (1 ≤ byteAt b 2 ∧ byteAt b 2 ≤ 15) ∧ d.bin.staged.length < 32 ∧ d.gcmRefs (byteAt b 2) = 0 ∧
      (byteAt b 1 = 1 ∨ byteAt b 1 = 2 → kmac256 d.bin.kimp (b.take 112) (ascii "VZN-IMPORT-TAG") 16 = slice b 112 16) ∧ (byteAt b 1 = 3 → l = true ∧ d.obj 0xB000 0x05 = 0) := by
  have hswap : d.swapAllowed (byteAt b 2) (byteAt b 1) (byteAt b 3) (field b 4 4) = true → d.gcmRefs (byteAt b 2) = 0 := fun hs => by
    simp only [Dev.swapAllowed, Bool.and_eq_true, beq_iff_eq] at hs
    exact hs.1
  unfold Dev.blobCheck at h
  simp only at h
  by_cases h1 : d.obj 0xB020 0x05 = 2
  · simp [if_pos h1] at h
  rw [if_neg h1, ite_eq_iff] at h
  obtain ⟨-, h⟩ | ⟨hform, h⟩ := h
  · exact absurd h (by omega)
  rw [ite_eq_iff] at h
  obtain ⟨-, h⟩ | ⟨-, h⟩ := h
  · exact absurd h (by omega)
  rw [ite_eq_iff] at h
  obtain ⟨-, h⟩ | ⟨-, h⟩ := h
  · exact absurd h (by omega)
  rw [ite_eq_iff] at h
  obtain ⟨-, h⟩ | ⟨hclear, h⟩ := h
  · exact absurd h (by omega)
  rw [ite_eq_iff] at h
  obtain ⟨-, h⟩ | ⟨htag, h⟩ := h
  · exact absurd h (by omega)
  rw [ite_eq_iff] at h
  obtain ⟨-, h⟩ | ⟨hcounter, h⟩ := h
  · exact absurd h (by omega)
  rw [ite_eq_iff] at h
  obtain ⟨-, h⟩ | ⟨hslot, h⟩ := h
  · exact absurd h (by omega)
  rw [ite_eq_iff] at h
  obtain ⟨-, h⟩ | ⟨hroom, -⟩ := h
  · exact absurd h (by omega)
  simp only [not_or, not_and_or, not_not] at hform htag hclear hslot
  obtain ⟨hversion, -⟩ := hform
  obtain ⟨hfixed, -, hswapped⟩ := hslot
  refine ⟨hversion, by omega, by omega, by omega, hswap hswapped, fun hop => ?_, fun hop => ?_⟩
  · exact htag.resolve_left (by omega)
  · obtain ⟨hvirgin, hlocal, -⟩ := hclear.resolve_left (not_not.2 hop)
    exact ⟨hlocal, hvirgin⟩

end

/-! Attestation and identity (R409, R410). -/

section
variable (d : Dev) (m : Nat)

theorem attest_answers : (d.attest m).obj 0xB030 0x02 = beNat (kmac256 (d.key 0) (d.xAtt m) (ascii "VZN-ATTEST") 32) ∧ (d.attest m).obj 0xB030 0x03 = (d.obj 0xB030 0x03 + 1) % 2 ^ 32 := by
  unfold Dev.attest
  simp (disch := omega) only [obj_inc_field, obj_set_same, obj_inc_same, obj_set_field, and_self]

theorem sign_answers : (d.sign m).obj 0xB050 0x03 = 1280 ∧ (d.sign m).obj 0xB050 0x04 = (d.obj 0xB050 0x04 + 1) % 2 ^ 32 ∧ (d.sign m).bin = d.bin := by
  obtain ⟨v, y, hy, hbin, hobj⟩ : ∃ (v : Nat) (y : Dev), d.free 20 = (v, y) ∧ y.bin = d.bin ∧ ∀ i j, y.obj i j = d.obj i j := ⟨_, _, rfl, rfl, fun _ _ => rfl⟩
  unfold Dev.sign
  simp only [hy]
  refine ⟨?_, ?_, hbin⟩
  · simp (disch := omega) only [obj_inc_field, obj_set_same]
  · simp (disch := omega) only [obj_inc_same, obj_set_field, hobj]

end

section
variable {s : State} {t : Nat} {d : Dev} (h : s.Tick t d)
include h

theorem identityKey_rootless (hroot : d.bin.kroot = none) : Becomes (.identityKeyReady t) s d := by
  refine becomes h (by unfold exec; rfl) rfl ?_
  exact if_pos (by rw [hroot]; rfl)

theorem identityKey_ready {k : Bytes} (hroot : d.bin.kroot = some k) : Completes (.identityKeyReady t) s fun x =>
    x.bin.identityReady = true ∧ x.obj 0xB050 0x01 = beNat (shake256 (ascii "VZN-IDFP" ++ Config.falconPublic d.bin.seed) 32) ∧ ∀ a r : Nat, a < 256 → x.obj 0xB040 a 0 r = d.obj 0xB040 a 0 r := by
  refine completes h (by unfold exec; rfl) rfl ?_
  simp only
  rw [if_neg (by rw [hroot]; simp)]
  refine ⟨rfl, ?_, fun a r ha => ?_⟩
  · rw [Dev.binUpd_obj, obj_set_same]
  · simp (disch := omega) only [Dev.binUpd_obj, obj_set_field]

theorem randomHealth_fails : Becomes (.randomHealthFailure t) s (((d.set 0xB000 0x06 1).inc 0xB000 0x07).event 8 (some 20) Ev.healthFailure.code) := by
  refine becomes h (by unfold exec; rfl) rfl ?_
  exact rfl

end

/-! The end of a commit (R416, R417). -/

/-- The copy that a commit writes. -/
def Dev.newCopy (d : Dev) : KsCopy :=
  { gen := (d.bin.inForce.map (·.2.gen)).getD 0 + 1, recs := applyStaged ((d.bin.inForce.map (·.2.gen)).getD 0 + 1) ((d.bin.inForce.map (·.2.recs)).getD []) d.bin.staged }

/-- A commit writes the first copy: no key has been provisioned, or the first copy is not in force. -/
def Dev.firstCopy (d : Dev) : Bool := !d.bin.provisioned || (match d.bin.inForce with | some (0, _) => false | _ => true)

/-- The flash after the steps of a commit: the copies, the counter, an empty staging. -/
def Dev.copied (d : Dev) : Dev := d.binUpd fun x => { x with
  copyA := if !d.bin.provisioned || d.firstCopy then some d.newCopy else x.copyA
  copyB := if !d.bin.provisioned || !d.firstCopy then some d.newCopy else x.copyB
  provisioned := true, counter := (d.bin.staged.map (·.counter)).foldl max d.bin.counter, staged := [] }

/-- The slots after a commit: those of erased keys are empty, the others hold the records of the copy. -/
def Dev.reloaded (d : Dev) : Dev := (((d.bin.staged.filter (fun x => x.op == 2)).map (·.slot)).foldl Dev.clearSlot d.copied).loadStore d.newCopy

section
variable (d : Dev)

theorem recomputeImp_bin : d.recomputeImp.bin.besideKeys = d.bin.besideKeys := rfl

theorem loadStore_bin (c : KsCopy) : (d.loadStore c).bin.besideKeys = d.bin.besideKeys := by
  have hrecs : (c.recs.foldl (fun d r => d.setSlot r.slot 3 r.type r.usage r.gen r.key) d).bin.besideKeys = d.bin.besideKeys :=
    foldl_leaves (fun d : Dev => d.bin.besideKeys) _ (fun d r => setSlot_bin d _ _ _ _ _ _) c.recs d
  exact (recomputeImp_bin _).trans hrecs

theorem loadStore_obj (c : KsCopy) {i : Nat} (j w r : Nat) (hi : i < 65536) (hj : j < 256) (h : i ≠ 0xB040) : (d.loadStore c).obj i j w r = d.obj i j w r :=
  foldl_leaves (fun d : Dev => d.obj i j w r) _ (fun d _ => setSlot_obj d _ _ _ _ _ _ j w r hi hj h) c.recs d

theorem reloaded_bin : d.reloaded.bin.besideKeys = d.copied.bin.besideKeys :=
  (loadStore_bin _ _).trans (foldl_leaves (fun d : Dev => d.bin.besideKeys) Dev.clearSlot (fun _ _ => rfl) _ d.copied)

theorem reloaded_obj {i : Nat} (j : Nat) (hi : i < 65536) (hj : j < 256) (h : i ≠ 0xB040) : d.reloaded.obj i j = d.obj i j :=
  (loadStore_obj _ _ j 0 0 hi hj h).trans (foldl_leaves (fun d : Dev => d.obj i j) _ (fun d _ => setSlot_obj d _ _ _ _ _ _ j 0 0 hi hj h) _ d.copied)

end

section
variable {s : State} {t : Nat} {d : Dev} (h : s.Tick t d)
include h

theorem commitEnd_idle (good : Bool) (hidle : d.obj 0xB020 0x05 ≠ 2) : Becomes (.keyStoreCommitEnd t good) s d := by
  refine becomes h (by unfold exec; rfl) rfl ?_
  exact if_pos hidle

theorem commitEnd_fails (hrun : d.obj 0xB020 0x05 = 2) : Becomes (.keyStoreCommitEnd t false) s
    (((d.set 0xB020 0x07 2).set 0xB020 0x05 (if d.bin.staged.isEmpty then 0 else 1)).event 8 (some 20) Ev.commitFailed.code) := by
  refine becomes h (by unfold exec; rfl) rfl ?_
  simp only
  rw [if_neg (not_not.2 hrun), if_pos (by simp)]

/-- A commit that succeeds shows its end in the objects of the key store. -/
theorem commitEnd_becomes (hrun : d.obj 0xB020 0x05 = 2) : Becomes (.keyStoreCommitEnd t true) s
    ((((((((((d.reloaded.set 0xB000 0x03 d.newCopy.gen).set 0xB000 0x04 (if d.firstCopy then 0 else 1)).set 0xB000 0x05 1).set 0xB020 0x07 1).set 0xB020 0x06
      ((d.bin.staged.map (·.counter)).foldl max d.bin.counter)).inc 0xB020 0x08).set 0xB020 0x02 0).set 0xB020 0x05 0).event 8 (some 20) Ev.commitDone.code)) := by
  refine becomes h (by unfold exec; rfl) rfl ?_
  simp only
  rw [if_neg (not_not.2 hrun), if_neg (by simp)]
  unfold Dev.reloaded Dev.copied Dev.firstCopy Dev.newCopy
  rcases hforce : d.bin.inForce with _ | ⟨_ | l, c⟩ <;> cases hprov : d.bin.provisioned <;> rfl

theorem commitEnd_succeeds (hrun : d.obj 0xB020 0x05 = 2) : Completes (.keyStoreCommitEnd t true) s fun x =>
    x.obj 0xB020 0x05 = 0 ∧ x.obj 0xB020 0x07 = 1 ∧ x.obj 0xB020 0x02 = 0 ∧ x.obj 0xB020 0x08 = (d.obj 0xB020 0x08 + 1) % 2 ^ 32 ∧ x.obj 0xB000 0x05 = 1 ∧ x.obj 0xB000 0x03 = d.newCopy.gen ∧
      x.obj 0xB000 0x04 = (if d.firstCopy then 0 else 1) ∧ x.bin.staged = [] ∧ x.bin.provisioned = true ∧ x.bin.counter = (d.bin.staged.map (·.counter)).foldl max d.bin.counter ∧ x.obj 0xB020 0x06 = x.bin.counter ∧
      x.bin.copyA = (if d.bin.provisioned = false ∨ d.firstCopy = true then some d.newCopy else d.bin.copyA) ∧
      x.bin.copyB = (if d.bin.provisioned = false ∨ d.firstCopy = false then some d.newCopy else d.bin.copyB) := by
  obtain ⟨y, hy⟩ : ∃ y, d.reloaded = y := ⟨_, rfl⟩
  have hbin := reloaded_bin d
  have hobj {i : Nat} (j : Nat) (hi : i < 65536) (hj : j < 256) (hne : i ≠ 0xB040) := reloaded_obj d j hi hj hne
  have hend := commitEnd_becomes h hrun
  rw [hy] at hend hbin
  simp only [hy] at hobj
  have hcounter : y.bin.counter = (d.bin.staged.map (·.counter)).foldl max d.bin.counter := (congrArg BinSt.counter hbin :)
  refine ⟨_, hend, ?_⟩
  simp (disch := omega) only [Dev.event_obj, obj_set_field, obj_inc_field, obj_set_same, obj_inc_same, hobj, true_and]
  refine ⟨(congrArg BinSt.staged hbin :), (congrArg BinSt.provisioned hbin :), hcounter, hcounter.symm, (congrArg BinSt.copyA hbin :).trans ?_, (congrArg BinSt.copyB hbin :).trans ?_⟩
  · show (if (!d.bin.provisioned || d.firstCopy) = true then some d.newCopy else d.bin.copyA) = _
    simp only [Bool.or_eq_true, Bool.not_eq_true']
  · show (if (!d.bin.provisioned || !d.firstCopy) = true then some d.newCopy else d.bin.copyB) = _
    simp only [Bool.or_eq_true, Bool.not_eq_true']

end

/-- Settles O53: slots, blobs, attestation, and the two ends of a commit. -/
theorem keysAndKeyStore : Obligations.KeysAndKeyStore := by
  unfold Obligations.KeysAndKeyStore
  intro s t d h
  refine ⟨identityKey_rootless h, fun k => identityKey_ready h, randomHealth_fails h, commitEnd_idle h, commitEnd_fails h, commitEnd_succeeds h,
    fun b l => ⟨blobCheck_committing d b l, blobCheck_version d b l, blobCheck_passes d b l⟩,
    fun m => ⟨(attest_answers d m).1, (attest_answers d m).2, sign_answers d m⟩, fun k r hroot => ?_,
    fun k _ hfull hnone => slotLineLost_empties d k hfull hnone,
    fun x k e _ hlost => ⟨fun hdue => ⟨fun b => slotsDue_rebuilds x k hlost hdue, slotsDue_gone x k hlost hdue⟩, slotsDue_waits x k hlost⟩,
    fun g hroot k => ⟨rebuiltKey_derived d hroot k, fun c l r => rebuiltKey_stored d hroot k⟩, clearSlot_empties d⟩
  rw [deriveSlot_eq d r hroot]
  exact ⟨setSlot_key _ _ _ _ _ _ _, setSlot_shows _ _ _ _ _ _ _⟩
end Sys2Proof.Machine

/-! SUPPORT. Writes of the Binnacle. -/

namespace Sys2Proof.Machine

/-! What a message on a stack link keeps of the Binnacle. -/

/-- The Binnacle but for the threshold events of packet numbers. -/
def BinSt.besideNumbers (x : BinSt) : BinSt := { x with pnRaised := [] }

section
variable (d : Dev)

theorem macsecTake_bin (p : Nat) : (d.macsecTake p).1.bin.besideNumbers = d.bin.besideNumbers := by
  obtain ⟨u, hu⟩ : ∃ u, unitOfPort p = u := ⟨_, rfl⟩
  obtain ⟨r, hr⟩ : ∃ r, d.obj 0xB100 0x04 u = r := ⟨_, rfl⟩
  obtain ⟨n, hn⟩ : ∃ n, d.obj 0xB110 0x06 u r = n := ⟨_, rfl⟩
  obtain ⟨y, hy⟩ : ∃ y, (if n = 2 ^ 64 - 1 then (d.inc64 0xB100 0x07 u).set 0xB110 0x07 1 u r else (d.inc64 0xB100 0x07 u).set 0xB110 0x06 (n + 1) u r) = y := ⟨_, rfl⟩
  have hbin : y.bin = d.bin := by
    rw [← hy]
    split <;> rfl
  unfold Dev.macsecTake
  simp only [hu, hr, hn, hy]
  split
  · rfl
  · simp only
    split
    · exact (congrArg BinSt.besideNumbers hbin :)
    · exact (congrArg BinSt.besideNumbers hbin :)

theorem sendLink_bin (k : Nat) (o : Out) : (d.sendLink k o).bin.besideNumbers = d.bin.besideNumbers := by
  have htake := macsecTake_bin d (20 + k)
  unfold Dev.sendLink
  split
  · rfl
  · split
    · next he => rw [he] at htake; exact htake
    · next he => rw [he] at htake; exact htake

theorem sendTo_bin (m : Nat) (o : Out) : (d.sendTo m o).bin.besideNumbers = d.bin.besideNumbers := by
  unfold Dev.sendTo
  split
  · exact sendLink_bin d _ _
  · rfl

theorem recordWrite_bin (o : ObjRow) (b : Bytes) (ms : List Nat) (n : Nat) : (d.recordWrite o b ms n).bin = d.bin := by
  have hput : ∀ (d : Dev) e, (d.putRecord e).bin = d.bin := fun d e => by unfold Dev.putRecord; simp only; split <;> rfl
  unfold Dev.recordWrite
  split
  · rfl
  · exact foldl_leaves Dev.bin _ (fun d m => foldl_leaves Dev.bin _ (fun d u => hput d _) _ d) _ d

variable (q : Request) (o : ObjRow)

theorem writeBase_bin : (d.writeBase q o).bin.besideNumbers = d.bin.besideNumbers := by
  obtain ⟨i, s, hcount⟩ := countRequest_eq d q
  unfold Dev.writeBase
  simp only [hcount]
  refine (foldl_leaves (fun d : Dev => d.bin.besideNumbers) _ (fun d m => sendTo_bin d m _) _ _).trans ?_
  exact congrArg BinSt.besideNumbers (recordWrite_bin _ _ _ _ _)

@[simp] theorem writeBase_staged : (d.writeBase q o).bin.staged = d.bin.staged := (congrArg BinSt.staged (writeBase_bin d q o) :)
@[simp] theorem writeBase_kimp : (d.writeBase q o).bin.kimp = d.bin.kimp := (congrArg BinSt.kimp (writeBase_bin d q o) :)

end

/-! The staging (R415). -/

/-- A staged blob of the bytes `b` with the key bytes `key`, at the place `n` of the staging. -/
def Dev.stages (y : Dev) (b : Bytes) (n : Nat) (key : Bytes) : Dev :=
  ((y.binUpd fun x => { x with staged := x.staged ++ [{ op := byteAt b 1, slot := byteAt b 2, type := byteAt b 3, usage := field b 4 4, counter := field b 8 8, key := key.take (keyBytes (byteAt b 3)) }] }).set
    0xB020 0x02 n).set 0xB020 0x05 1

section
variable (y : Dev) (b : Bytes)

theorem stageBlob_stages (key : Bytes) (hkey : (if byteAt b 1 = 1 then xorBytes (slice b 16 64) (kmac256 y.bin.kimp (b.take 16) (ascii "VZN-IMPORT-ENC") 64) else slice b 16 64) = key) :
    y.stageBlob b = y.stages b (y.bin.staged.length + 1) key := by
  unfold Dev.stageBlob
  simp only [hkey]
  unfold Dev.stages
  congr 2
  exact List.length_append

end

section
variable {s : State} {t : Nat} {d : Dev} {q : Request} {o : ObjRow} {k : WriteKind} {c : Instr} (h : s.Tick t d)
include h

/-- A blob that is accepted is staged with the key that its operation gives. -/
theorem importBlob_stages (hw : d.takesWrite q o k 0 = true) (e : exec c s = s.write t k) (hi : recIndex q.bytes = 0xB020) (hj : recSub q.bytes = 0x01) (key : Bytes)
    (hkey : (if byteAt (beBytes 128 q.value) 1 = 1 then
        xorBytes (slice (beBytes 128 q.value) 16 64) (kmac256 d.bin.kimp ((beBytes 128 q.value).take 16) (ascii "VZN-IMPORT-ENC") 64) else slice (beBytes 128 q.value) 16 64) = key) :
    Completes c s (d.Wrote q o fun y => y.stages (beBytes 128 q.value) (d.bin.staged.length + 1) key) := by
  refine wrote h hw e _ _ hi hj (by omega) (by omega) (by omega) (by omega) ?_
  have hy := stageBlob_stages (d.writeBase q o) (beBytes 128 q.value) key (by rw [writeBase_kimp]; exact hkey)
  rw [writeBase_staged] at hy
  exact hy

variable (hw : d.takesWrite q o k 0 = true) (e : exec c s = s.write t k)
include hw e

theorem discardStaging_kept (hi : recIndex q.bytes = 0xB020) (hj : recSub q.bytes = 0x04) (hv : q.value = 0) : Completes c s (d.Wrote q o fun y => y) := by
  refine wrote h hw e _ _ hi hj (by omega) (by omega) (by omega) (by omega) ?_
  exact if_neg (by omega)

theorem discardStaging_discards (hi : recIndex q.bytes = 0xB020) (hj : recSub q.bytes = 0x04) (hv : q.value = 1) (hidle : d.obj 0xB020 0x05 ≠ 2) :
    Completes c s (d.Wrote q o fun y => ((y.binUpd fun x => { x with staged := [] }).set 0xB020 0x02 0).set 0xB020 0x05 0) := by
  have hidle' : (d.writeBase q o).obj 0xB020 0x05 ≠ 2 := by
    rw [writeBase_obj _ _ _ _ _ _ _ (by omega) (by omega) (by omega) (by omega)]
    exact hidle
  refine wrote h hw e _ _ hi hj (by omega) (by omega) (by omega) (by omega) ?_
  exact (if_pos hv).trans (if_neg hidle')

theorem keyStoreCommit_kept (hi : recIndex q.bytes = 0xB020) (hj : recSub q.bytes = 0x03) (hv : q.value = 0) : Completes c s (d.Wrote q o fun y => y) := by
  refine wrote h hw e _ _ hi hj (by omega) (by omega) (by omega) (by omega) ?_
  exact if_neg (by omega)

theorem keyStoreCommit_begins (hi : recIndex q.bytes = 0xB020) (hj : recSub q.bytes = 0x03) (hv : q.value = 1) : Completes c s (d.Wrote q o fun y => y.set 0xB020 0x05 2) := by
  refine wrote h hw e _ _ hi hj (by omega) (by omega) (by omega) (by omega) ?_
  exact if_pos hv

theorem challenge_attests (hi : recIndex q.bytes = 0xB030) (hj : recSub q.bytes = 0x01) : Completes c s (d.Wrote q o fun y => y.attest q.value) := by
  refine wrote h hw e _ _ hi hj (by omega) (by omega) (by omega) (by omega) ?_
  exact rfl

theorem signRequest_signs (hi : recIndex q.bytes = 0xB050) (hj : recSub q.bytes = 0x02) : Completes c s (d.Wrote q o fun y => y.sign q.value) := by
  refine wrote h hw e _ _ hi hj (by omega) (by omega) (by omega) (by omega) ?_
  exact rfl

/-- A write of the derivation enable of a slot, by the value and what is there. -/
theorem slotDerive_wrote (hi : recIndex q.bytes = 0xB040) (hj : recSub q.bytes = 0x10) (f : Dev → Dev)
    (hf : ∀ y : Dev, (if q.value = 1 then (if d.flag 0xB040 0x10 0 q.record then y else (y.set 0xB040 0x10 1 0 q.record).deriveSlot q.record)
      else if d.flag 0xB040 0x10 0 q.record then (y.set 0xB040 0x10 0 0 q.record).clearSlot q.record else y) = f y) : Completes c s (d.Wrote q o f) := by
  refine wrote h hw e _ _ hi hj (by omega) (by omega) (by omega) (by omega) ?_
  have hflag : (d.writeBase q o).flag 0xB040 0x10 0 q.record = d.flag 0xB040 0x10 0 q.record := writeBase_flag _ _ _ _ _ _ _ (by omega) (by omega) (by omega) (by omega)
  rw [← hf, ← hflag]
  exact rfl

end

/-- Settles O54: each write by its object, its value and what it finds. -/
theorem binnacleWrites : Obligations.BinnacleWrites := by
  unfold Obligations.BinnacleWrites
  intro s t d q o h
  refine ⟨fun hw hi hj hop => importBlob_stages h hw (by unfold exec; rfl) hi hj _ (if_pos hop), fun hw hi hj hop => importBlob_stages h hw (by unfold exec; rfl) hi hj _ (if_neg (by omega)),
    fun hw hi hj hop => importBlob_stages h hw (by unfold exec; rfl) hi hj _ (if_neg (by omega)),
    fun hw hi hj => ⟨discardStaging_kept h hw (by unfold exec; rfl) hi hj, discardStaging_discards h hw (by unfold exec; rfl) hi hj⟩,
    fun hw hi hj => ⟨keyStoreCommit_kept h hw (by unfold exec; rfl) hi hj, keyStoreCommit_begins h hw (by unfold exec; rfl) hi hj⟩,
    fun hw hi hj => challenge_attests h hw (by unfold exec; rfl) hi hj, fun hw hi hj => signRequest_signs h hw (by unfold exec; rfl) hi hj,
    fun hw hi hj => ⟨fun hv => slotDerive_wrote h hw (by unfold exec; rfl) hi hj _ fun y => ?_, fun hv hoff => slotDerive_wrote h hw (by unfold exec; rfl) hi hj _ fun y => ?_,
      fun hv hon => slotDerive_wrote h hw (by unfold exec; rfl) hi hj _ fun y => ?_⟩⟩
  · rw [hv]
    cases d.flag 0xB040 0x10 0 q.record with
    | false => simp [b2n]
    | true => simp [b2n]
  · rw [if_pos hv, hoff, if_neg Bool.false_ne_true]
  · rw [if_neg (by omega), hon, if_pos rfl]

end Sys2Proof.Machine

/-! SUPPORT. MACsec: writes of associations, and frames at a port. -/

namespace Sys2Proof.Machine

/-! Writes (R421 to R423). -/

section
variable {s : State} {t u : Nat} {d : Dev} {q : Request} {o : ObjRow} (h : s.Tick t d)
include h

/-- A write of the enable of an association, by the value and what is there. -/
theorem saEnable_wrote (hw : d.takesWrite q o .macsecSaEnable u = true) (hi : recIndex q.bytes = 0xB110) (hj : recSub q.bytes = 0x01) (f : Dev → Dev)
    (hf : ∀ y : Dev, y.flag 0xB110 0x01 u q.record = d.flag 0xB110 0x01 u q.record → y.obj 0xB110 0x02 u q.record = d.obj 0xB110 0x02 u q.record →
      y.obj 0xB110 0x05 u q.record = d.obj 0xB110 0x05 u q.record → y.binApply 0xB110 0x01 u q.record q.value = f y) : Completes (.macsecSaEnable t) s (d.Wrote q o f) := by
  refine wrote h hw (by unfold exec; rfl) _ _ hi hj (by omega) (by omega) (by omega) (by omega) ?_
  exact hf _ (writeBase_flag _ _ _ _ _ _ _ (by omega) (by omega) (by omega) (by omega)) (writeBase_obj _ _ _ _ _ _ _ (by omega) (by omega) (by omega) (by omega))
    (writeBase_obj _ _ _ _ _ _ _ (by omega) (by omega) (by omega) (by omega))

theorem saEnable_kept (hw : d.takesWrite q o .macsecSaEnable u = true) (hi : recIndex q.bytes = 0xB110) (hj : recSub q.bytes = 0x01) (hv : q.value = 1)
    (hon : d.flag 0xB110 0x01 u q.record = true) : Completes (.macsecSaEnable t) s (d.Wrote q o fun y => y) :=
  saEnable_wrote h hw hi hj _ fun y hflag _ _ => by
    unfold Dev.binApply
    simp only
    rw [if_pos hv, if_pos (hflag.trans hon)]

theorem saEnable_loads (hw : d.takesWrite q o .macsecSaEnable u = true) (hi : recIndex q.bytes = 0xB110) (hj : recSub q.bytes = 0x01) (hv : q.value = 1)
    (hoff : d.flag 0xB110 0x01 u q.record = false) : Completes (.macsecSaEnable t) s (d.Wrote q o fun y =>
      let slot := d.obj 0xB110 0x02 u q.record
      ((((((y.inc 0xB040 0x07 0 slot).inc64 0xB060 0x06).binUpd fun x => { x with
        gcm := tput (fun _ => []) x.gcm (saKey u q.record) (tget (fun _ => []) x.keys slot)
        highPn := tput (fun _ => none) x.highPn (saKey u q.record) none
        pnRaised := tput (fun _ => false) x.pnRaised (saKey u q.record) false }).set 0xB110 0x01 1 u q.record).set 0xB110 0x06 (d.obj 0xB110 0x05 u q.record) u q.record).set 0xB110 0x07 0 u q.record)) :=
  saEnable_wrote h hw hi hj _ fun y hflag hslot hfirst => by
    have hfirst' : ((y.inc 0xB040 0x07 0 (d.obj 0xB110 0x02 u q.record)).inc64 0xB060 0x06).obj 0xB110 0x05 u q.record = d.obj 0xB110 0x05 u q.record := by
      rw [obj_inc64_field _ (by omega) (by omega) (by omega) (by omega) (by omega), obj_inc_field _ (by omega) (by omega) (by omega) (by omega) (by omega)]
      exact hfirst
    unfold Dev.binApply
    simp only
    rw [if_pos hv, if_neg (by simp [hflag, hoff]), hslot]
    unfold Dev.keyTransfer
    rw [Dev.binUpd_obj, hfirst']

theorem saEnable_stops (hw : d.takesWrite q o .macsecSaEnable u = true) (hi : recIndex q.bytes = 0xB110) (hj : recSub q.bytes = 0x01) (hv : q.value = 0) :
    Completes (.macsecSaEnable t) s (d.Wrote q o fun y => (y.set 0xB110 0x01 0 u q.record).binUpd fun x => { x with gcm := tput (fun _ => []) x.gcm (saKey u q.record) [] }) :=
  saEnable_wrote h hw hi hj _ fun y _ _ _ => by
    unfold Dev.binApply
    simp only
    exact if_neg (by omega)

theorem activeAn_switches (hw : d.takesWrite q o .activeAnWrite u = true) (hi : recIndex q.bytes = 0xB100) (hj : recSub q.bytes = 0x04) :
    Completes (.activeAnWrite t) s (d.Wrote q o fun y => y.set 0xB100 0x04 q.value u q.record) := by
  refine wrote h hw (by unfold exec; rfl) _ _ hi hj (by omega) (by omega) (by omega) (by omega) ?_
  exact rfl

theorem macsecEnable_switches (hw : d.takesWrite q o .macsecEnable u = true) (hi : recIndex q.bytes = 0xB100) (hj : recSub q.bytes = 0x01) :
    Completes (.macsecEnable t) s (d.Wrote q o fun y => y.set 0xB100 0x01 q.value u q.record) := by
  refine wrote h hw (by unfold exec; rfl) _ _ hi hj (by omega) (by omega) (by omega) (by omega) ?_
  exact rfl

end

/-! Frames that come in (R421, R423). -/

/-- The lowest packet number that an association takes. -/
def Dev.lowPn (d : Dev) (v r : Nat) : Nat :=
  match tget (fun _ => none) d.bin.highPn (saKey v r) with
  | some h => h - d.obj 0xB100 0x05 v
  | none => d.obj 0xB110 0x05 v r

section
variable {d : Dev} {p : Nat}

theorem macsecOn_of_lt (hp : p < 4) : d.macsecOn p = d.flag 0xB100 0x01 (unitOfPort p) := by simp [Dev.macsecOn, hp]

theorem macsecAccept_off (hp : p < 4) (hoff : d.flag 0xB100 0x01 (unitOfPort p) = false) (c : Option SecTag) (e : Bool) : d.macsecAccept p c e = (d, true) :=
  if_pos (by simp [macsecOn_of_lt hp, hoff])

variable (hp : p < 4) (hon : d.flag 0xB100 0x01 (unitOfPort p) = true)
include hp hon

theorem macsecAccept_untagged (e : Bool) : d.macsecAccept p none e = if e then (d.inc64 0xB100 0x0E (unitOfPort p), true) else (d.inc 0xB100 0x0C (unitOfPort p), false) :=
  if_neg (by simp [macsecOn_of_lt hp, hon])

variable {g : SecTag} (hg : g.an < 4)
include hg

theorem macsecAccept_tagged : d.macsecAccept p (some g) false =
    if ¬ d.flag 0xB110 0x01 (unitOfPort p) (4 + g.an) then (d.inc 0xB100 0x0B (unitOfPort p), false)
    else if g.pn = 0 ∨ g.pn < d.lowPn (unitOfPort p) (4 + g.an) then (d.inc 0xB100 0x09 (unitOfPort p), false)
    else (d, true) := by
  have hmod : g.an % 4 = g.an := Nat.mod_eq_of_lt hg
  unfold Dev.macsecAccept
  rw [if_neg (by simp [macsecOn_of_lt hp, hon])]
  simp only [hmod, Bool.false_eq_true, if_false]
  rfl

theorem macsecAccept_unknown (hoff : d.flag 0xB110 0x01 (unitOfPort p) (4 + g.an) = false) : d.macsecAccept p (some g) false = (d.inc 0xB100 0x0B (unitOfPort p), false) := by
  rw [macsecAccept_tagged hp hon hg]
  exact if_pos (by simp [hoff])

theorem macsecAccept_low (hsa : d.flag 0xB110 0x01 (unitOfPort p) (4 + g.an) = true) (hfirst : tget (fun _ => none) d.bin.highPn (saKey (unitOfPort p) (4 + g.an)) = none)
    (hlow : g.pn < d.obj 0xB110 0x05 (unitOfPort p) (4 + g.an)) : d.macsecAccept p (some g) false = (d.inc 0xB100 0x09 (unitOfPort p), false) := by
  have hlow' : g.pn < d.lowPn (unitOfPort p) (4 + g.an) := by
    unfold Dev.lowPn
    simpa only [hfirst] using hlow
  rw [macsecAccept_tagged hp hon hg, if_neg (by simp [hsa])]
  exact if_pos (.inr hlow')

theorem macsecAccept_valid (hsa : d.flag 0xB110 0x01 (unitOfPort p) (4 + g.an) = true) (h0 : g.pn ≠ 0)
    (hhigh : ∀ h : Nat, tget (fun _ => none) d.bin.highPn (saKey (unitOfPort p) (4 + g.an)) = some h → h ≤ g.pn + d.obj 0xB100 0x05 (unitOfPort p))
    (hfirst : tget (fun _ => none) d.bin.highPn (saKey (unitOfPort p) (4 + g.an)) = none → d.obj 0xB110 0x05 (unitOfPort p) (4 + g.an) ≤ g.pn) : d.macsecAccept p (some g) false = (d, true) := by
  have hlow : ¬ g.pn < d.lowPn (unitOfPort p) (4 + g.an) := by
    unfold Dev.lowPn
    cases hpn : tget (fun _ => none) d.bin.highPn (saKey (unitOfPort p) (4 + g.an)) with
    | some n =>
      have hn := hhigh n hpn
      simp only
      omega
    | none =>
      have hn := hfirst hpn
      simp only
      omega
  rw [macsecAccept_tagged hp hon hg, if_neg (by simp [hsa])]
  exact if_neg (by simp [h0, hlow])

omit hg in
theorem macsecEnd_bad : d.macsecEnd p (some g) false = d.inc 0xB100 0x0A (unitOfPort p) := by
  unfold Dev.macsecEnd
  simp only
  rw [if_neg (by simp [macsecOn_of_lt hp, hon]), if_neg Bool.false_ne_true]

end

/-! Frames that leave (R423). -/

section
variable {d : Dev} {p v r : Nat} (hv : unitOfPort p = v) (hr : d.obj 0xB100 0x04 v = r)
include hv hr

theorem macsecTake_exhausted (hout : d.flag 0xB110 0x07 v r = true) : d.macsecTake p = (d.inc 0xB100 0x0D v, none) := by
  unfold Dev.macsecTake
  simp only [hv, hr]
  exact if_pos hout

theorem macsecTake_next (hout : d.flag 0xB110 0x07 v r = false) :
    (d.macsecTake p).2 = some { an := r, pn := d.obj 0xB110 0x06 v r } ∧ (d.macsecTake p).1.obj 0xB100 0x07 v = (d.obj 0xB100 0x07 v + 1) % 2 ^ 64 ∧
      (d.obj 0xB110 0x06 v r < 2 ^ 64 - 1 → (d.macsecTake p).1.obj 0xB110 0x06 v r = d.obj 0xB110 0x06 v r + 1) ∧
      (d.obj 0xB110 0x06 v r = 2 ^ 64 - 1 → (d.macsecTake p).1.obj 0xB110 0x07 v r = 1) := by
  obtain ⟨n, hn⟩ : ∃ n, d.obj 0xB110 0x06 v r = n := ⟨_, rfl⟩
  obtain ⟨y, hy⟩ : ∃ y, (if n = 2 ^ 64 - 1 then (d.inc64 0xB100 0x07 v).set 0xB110 0x07 1 v r else (d.inc64 0xB100 0x07 v).set 0xB110 0x06 (n + 1) v r) = y := ⟨_, rfl⟩
  have hcount : y.obj 0xB100 0x07 v = (d.obj 0xB100 0x07 v + 1) % 2 ^ 64 := by
    rw [← hy]
    split <;> rw [obj_set_field _ (by omega) (by omega) (by omega) (by omega) (by omega), obj_inc64_same]
  have hnext : n < 2 ^ 64 - 1 → y.obj 0xB110 0x06 v r = n + 1 := fun hlt => by
    rw [← hy, if_neg (by omega), obj_set_same]
  have hlast : n = 2 ^ 64 - 1 → y.obj 0xB110 0x07 v r = 1 := fun heq => by
    rw [← hy, if_pos heq, obj_set_same]
  have htag : (d.macsecTake p).2 = some { an := r, pn := n } := by
    unfold Dev.macsecTake
    simp only [hv, hr, hn, hout, Bool.false_eq_true, if_false]
  have hobj (i j w k : Nat) : (d.macsecTake p).1.obj i j w k = y.obj i j w k := by
    unfold Dev.macsecTake
    simp only [hv, hr, hn, hy, hout, Bool.false_eq_true, if_false]
    split <;> rfl
  rw [hn, htag, hobj, hobj, hobj]
  exact ⟨rfl, hcount, hnext, hlast⟩

end

/-- Settles O55: the writes, and the cases of a frame that comes in or leaves. -/
theorem macsec : Obligations.Macsec := by
  unfold Obligations.Macsec
  intro s t d q o u h _
  refine ⟨fun hw hi hj => ⟨saEnable_kept h hw hi hj, saEnable_loads h hw hi hj, saEnable_stops h hw hi hj⟩, activeAn_switches h, macsecEnable_switches h,
    fun p hp => ⟨macsecAccept_off hp, fun hon => ⟨macsecAccept_untagged hp hon false, macsecAccept_untagged hp hon true, fun g hg =>
      ⟨macsecAccept_unknown hp hon hg, macsecAccept_low hp hon hg, macsecAccept_valid hp hon hg, macsecEnd_bad hp hon⟩⟩,
      macsecTake_exhausted rfl rfl, macsecTake_next rfl rfl⟩⟩

end Sys2Proof.Machine

/-! SUPPORT. An activation: a frame on a line under settings that a write has since changed holds back the reply, and with it the restart of the CORE domain. -/

namespace Sys2Proof.Machine

/-- What a command makes of the Watch and the stage of the start is one value. -/
theorem Becomes.watch_unique {c : Instr} {s : State} {x y : Dev} (hx : Becomes c s x) (hy : Becomes c s y) : x.watch = y.watch := by
  have hclose : s.close x = s.close y := congrArg State.dev (Host.Outcome.next.inj (Eq.trans (Eq.symm hx) hy))
  have hquiet : x.quiet = y.quiet := by rw [← close_quiet x s, hclose, close_quiet y s]
  exact (congrArg Dev.watch hquiet :)

/-- The owner's host writes true to `A:B810.0B`. -/
def activateWrite : Request := { svc := .pcie, src := .host 0, arrived := 0, bytes := [2, 0, 0, 7, 0xB8, 0x10, 0x0B, 0, 0, 0, 0xFF, 0, 0, 0, 0, 0, 0, 1, 0, 0, 1] }

/-- A device owned by its host, with a verified transfer that restarts at its activation (`A:B810.0C`), whose activation waits while a frame under old settings is on its line. -/
def activateBehindFrame : Dev :=
  { store := [(objKey 0x1010 0x01 0 0, 1), (objKey 0x1011 0x01 0 0, 0), (objKey 0x1011 0x02 0 0, 2), (objKey 0xB810 0x02 0 0, 3), (objKey 0xB810 0x0C 0 0, 1)],
    alm := { queue := [activateWrite], leaseEnd := 1 }, fab := { frames := [frameUnderOldSettings] }, flash := { samples := [12000] } }

/-- The row of `A:B810.0B`. -/
def activateRow : ObjRow := (findRow 0xB810 0x0B).getD { idx := 0, n := 1, sub := 0, subs := 0, ty := .u8, acc := .ro, scope := .member, recs := 0, dflt := 0, rng := .any }

theorem activateBehindFrame_tick : State.Tick { dev := activateBehindFrame } 0 activateBehindFrame := ⟨by decide +kernel, by decide⟩

theorem activateBehindFrame_takes : activateBehindFrame.takesWrite activateWrite activateRow .transferActivate 0 = true := by decide +kernel

/-- What the write makes of the device, whose reply waits. -/
def activatePending : Dev := ((activateBehindFrame.writeBase activateWrite activateRow).apply 0xB810 0x0B 0 activateWrite.record activateWrite.value).tryFinish activateWrite

theorem activateWrite_becomes : Becomes (.transferActivate 0) { dev := activateBehindFrame } activatePending := by
  have h := write_taken { dev := activateBehindFrame } 0 activateWrite activateRow .transferActivate 0
  rw [activateBehindFrame_tick.1] at h
  exact h activateBehindFrame_takes (by decide) (by decide)

theorem apply_activates (y : Dev) (u r : Nat) {v : Nat} (hv : v = 1) : y.apply 0xB810 0x0B u r v = y.activate := by
  subst hv
  rfl

/-- No restart has begun: the CORE domain still runs. -/
theorem activatePending_runs : activatePending.watch.stage = 0 := by
  obtain ⟨y, hy⟩ : ∃ y, activateBehindFrame.writeBase activateWrite activateRow = y := ⟨_, rfl⟩
  have hwatch : y.watch = activateBehindFrame.watch := hy ▸ writeBase_watch _ _ _
  have hframes : y.fab.frames = [frameUnderOldSettings] := hy ▸ congrArg FabSt.frames (writeBase_fab _ _ _)
  have hlimit : y.activate.obj 0x4020 0x02 ≠ 1 := by
    unfold Dev.activate Dev.setBoot
    rw [obj_set_field _ (by omega) (by omega) (by omega) (by omega) (by omega), Dev.flashUpd_obj, ← hy, writeBase_obj _ _ _ _ _ _ _ (by omega) (by omega) (by omega) (by omega)]
    decide +kernel
  have hwaits : y.activate.writeReady = false := by
    unfold Dev.writeReady
    rw [linesReady_oldSettings (d := y.activate) hframes hlimit]
    simp
  have heffect : y.apply 0xB810 0x0B 0 activateWrite.record activateWrite.value = y.activate := apply_activates y 0 _ (by decide)
  unfold activatePending Dev.tryFinish
  rw [hy, heffect, hwaits]
  exact congrArg WatchSt.stage hwatch

/-- Refutes O56: with no channel, no flush and no ramp, a frame sent under settings that have since changed still holds back the reply to an activation (R27, R49), and the restart follows the reply (R446); the clause says that the CORE domain restarts. -/
theorem not_transferWrites : ¬ Obligations.TransferWrites := by
  unfold Obligations.TransferWrites
  intro h
  obtain ⟨-, -, -, -, -, hactivate, -⟩ := h _ 0 _ activateWrite activateRow activateBehindFrame_tick
  obtain ⟨-, -, hrestart⟩ := hactivate activateBehindFrame_takes (by decide) (by decide) rfl rfl rfl rfl
  obtain ⟨x, hx, -, -, -, -, hstage⟩ := hrestart (by decide) (by decide +kernel)
  have hone := Becomes.watch_unique hx activateWrite_becomes
  have hzero : x.watch.stage = 0 := (congrArg WatchSt.stage hone).trans activatePending_runs
  omega

end Sys2Proof.Machine

/-! SUPPORT. Verification, trials and confirmation. -/

namespace Sys2Proof.Machine

/-! Verification (R433, R445). -/

section
variable {s : State} {t : Nat} {d : Dev} (h : s.Tick t d)
include h

theorem verify_headerless (hnone : d.flash.header = none) : Becomes (.transferVerifyComplete t) s d := by
  refine becomes h (by unfold exec; rfl) rfl ?_
  simp only [hnone]

theorem verify_idle (hidle : d.obj 0xB810 0x02 ≠ 2) : Becomes (.transferVerifyComplete t) s d := by
  refine becomes h (by unfold exec; rfl) rfl ?_
  cases hheader : d.flash.header with
  | none => simp only
  | some x => exact if_pos (.inl hidle)

variable {x : XferHdr} (hheader : d.flash.header = some x) (hfull : d.obj 0xB810 0x02 = 2) (hruns : d.pairRuns 3 = true)
include hheader hfull hruns

theorem verify_almanac (htype : x.type = 2) : Becomes (.transferVerifyComplete t) s
    (((d.set 0xB810 0x02 (if d.almCheck d.otherAlm = 0 then 3 else 4)).set 0xB810 0x0D (d.almCheck d.otherAlm)).event 9 (some 21) Ev.transferDone.code) := by
  refine becomes h (by unfold exec; rfl) rfl ?_
  simp only [hheader]
  rw [if_neg (by simp [hfull, hruns])]
  simp only [htype, Nat.reduceEqDiff, if_false]

theorem verify_firmware {k : Nat} (htype : x.type = 1) (hslot : d.slotWith 0 = some k) : Becomes (.transferVerifyComplete t) s
    ((((d.slotChecked k (d.imageCheck k)).set 0xB810 0x02 (if (d.imageCheck k).1 = 0 then 3 else 4)).set 0xB810 0x0D (d.imageCheck k).1).event 9 (some 21) Ev.transferDone.code) := by
  refine becomes h (by unfold exec; rfl) rfl ?_
  simp only [hheader]
  rw [if_neg (by simp [hfull, hruns])]
  simp only [htype, hslot, if_true]

end

section
variable (d : Dev)

/-- The manifest's fields leave a slot's validity and check code as they are. -/
theorem showManifest_obj (k r : Nat) {j : Nat} (hj : j = 0x02 ∨ j = 0x08) : (d.showManifest k).obj 0xB801 j 0 r = d.obj 0xB801 j 0 r := by
  unfold Dev.showManifest
  simp only [List.foldl_cons, List.foldl_nil]
  split
  · simp (disch := omega) only [obj_set_field]
  · simp (disch := omega) only [obj_set_field]

theorem slotChecked_shows (k : Nat) (r : Nat × Nat) :
    (d.slotChecked k r).obj 0xB801 0x08 0 k = r.1 ∧ (d.slotChecked k r).obj 0xB801 0x02 0 k = (if r.1 = 0 then 3 else if r.2 = 4 then 5 else 4) := by
  unfold Dev.slotChecked
  rw [showManifest_obj _ _ _ (.inr rfl), showManifest_obj _ _ _ (.inl rfl), obj_set_field _ (by omega) (by omega) (by omega) (by omega) (by omega), obj_set_same, obj_set_same]
  exact ⟨rfl, rfl⟩

theorem manifestCheck_code (m : Bytes) : (d.manifestCheck m).1 = 0 ∨ (d.manifestCheck m).1 = 0x605 := by
  unfold Dev.manifestCheck
  simp only
  split_ifs <;> simp

theorem imageCheck_code (k : Nat) : (d.imageCheck k).1 = 0 ∨ (d.imageCheck k).1 = 0x605 := by
  unfold Dev.imageCheck
  simp only
  split
  · exact manifestCheck_code d _
  · split
    · exact .inr rfl
    · exact .inl rfl

end

/-! Minutes and health (R448, R449, R451). -/

section
variable {s : State} {t : Nat} {d : Dev} (h : s.Tick t d)
include h

theorem trialMinute_none (hnot : d.obj 0xB840 0x01 = 0 ∨ d.pairRuns 3 = false ∨ d.now < d.flash.since + (d.flash.added + 1) * 60 * perS) : Becomes (.trialMinute t) s d := by
  refine becomes_timer_same h (by unfold exec; rfl) rfl ?_
  exact if_pos (by simpa using hnot)

theorem trialMinute_counts (ha : s.Alone d) (htrial : d.obj 0xB840 0x01 ≠ 0) (hruns : d.pairRuns 3 = true) (hminute : d.flash.since + (d.flash.added + 1) * 60 * perS ≤ d.now) :
    let y := d.flashUpd fun x => { x with boot := some { d.bootRec with minutes := d.bootRec.minutes + 1, gen := d.bootRec.gen + 1 }, added := x.added + 1 }
    (d.bootRec.minutes + 1 < 10 → Becomes (.trialMinute t) s y) ∧ (10 ≤ d.bootRec.minutes + 1 → Becomes (.trialMinute t) s (y.revert.restartCore)) := by
  have hdue : ¬ (d.obj 0xB840 0x01 = 0 ∨ ¬ d.pairRuns 3 = true ∨ d.now < d.flash.since + (d.flash.added + 1) * 60 * perS) := by
    simp only [hruns, not_true_eq_false, false_or]
    omega
  refine ⟨fun hfew => ?_, fun hmany => ?_⟩
  · refine becomes_timer h ha (by unfold exec; rfl) (by omega) (by omega) rfl ?_
    exact (if_neg hdue).trans (if_neg (not_le.2 hfew))
  · refine becomes_timer h ha (by unfold exec; rfl) (by omega) (by omega) rfl ?_
    exact (if_neg hdue).trans (if_pos hmany)

theorem healthHeld_none (hnot : d.flash.healthy = none ∨ d.healthNow = false) : Becomes (.healthConditionsHeld t) s d := by
  refine becomes h (by unfold exec; rfl) rfl ?_
  cases hsince : d.flash.healthy with
  | none => simp only
  | some a =>
    have hfalse : d.healthNow = false := hnot.resolve_left (by simp [hsince])
    exact if_pos (.inl (by simp [hfalse]))

variable {a : Nat} (hsince : d.flash.healthy = some a)
include hsince

theorem healthHeld_waits (hwaits : d.now < a + d.obj 0xB840 0x04 * perS) : Becomes (.healthConditionsHeld t) s d := by
  refine becomes h (by unfold exec; rfl) rfl ?_
  simp only [hsince]
  exact if_pos (.inr hwaits)

theorem healthHeld_ends (hnow : d.healthNow = true) (hdue : a + d.obj 0xB840 0x04 * perS ≤ d.now) :
    Becomes (.healthConditionsHeld t) s (if d.flag 0xB840 0x05 then d.set 0xB840 0x01 2 else d.confirm) := by
  refine becomes h (by unfold exec; rfl) rfl ?_
  simp only [hsince]
  exact if_neg (by simp only [hnow, not_true_eq_false, false_or]; omega)

end

section
variable {s : State} {t : Nat} {d : Dev} {q : Request} {o : ObjRow} (h : s.Tick t d) (hw : d.takesWrite q o .confirmWrite 0 = true) (hi : recIndex q.bytes = 0xB840) (hj : recSub q.bytes = 0x06)
include h hw hi hj

theorem confirmWrite_kept (hv : q.value = 0) : Completes (.confirmWrite t) s (d.Wrote q o fun y => y) := by
  refine wrote h hw (by unfold exec; rfl) _ _ hi hj (by omega) (by omega) (by omega) (by omega) ?_
  exact if_neg (by omega)

theorem confirmWrite_confirms (hv : q.value = 1) : Completes (.confirmWrite t) s (d.Wrote q o Dev.confirm) := by
  refine wrote h hw (by unfold exec; rfl) _ _ hi hj (by omega) (by omega) (by omega) (by omega) ?_
  exact if_pos hv

end

/-- The supply is sampled in every device state but Off. -/
theorem vbatsense_samples {s : State} {t mv : Nat} {d : Dev} (h : s.Tick t d) (hmv : mv < 65536) :
    Becomes (.vbatsenseSample t mv) s (d.flashUpd fun x => { x with samples := (mv :: x.samples).take 16 }) := by
  obtain ⟨hat, hon⟩ := h
  have hoff : d.watch.off = false := by
    simp only [Dev.coreOn, Bool.and_eq_true, Bool.not_eq_true'] at hon
    exact hon.2
  refine becomes_aon hat hoff (by unfold exec; rfl) (decide_eq_true hmv) ?_
  exact rfl

/-! The roles of slots at the end of a trial (R450, R451). -/

section
variable {d : Dev}

/-- The slot of a role is one of the slots that the record names. -/
theorem role_of_slotWith {v k : Nat} (h : d.slotWith v = some k) : d.role k = v := by
  have hk := List.find?_some h
  simpa using hk

/-- No slot has a role that no entry of the record and no default has. -/
theorem slotWith_none {v : Nat} (h : ∀ k, d.role k ≠ v) : d.slotWith v = none := List.find?_eq_none.2 fun k _ => by simpa using h k

/-- The role of a slot in a list of roles that have changed. -/
theorem getD_map_zero (f : Nat → Nat) (hf : f 0 = 0) (l : List Nat) (k : Nat) : (l.map f).getD k 0 = f (l.getD k 0) := by
  rw [← hf, List.getD_map]
  rw [hf]

/-- The role that a confirmation gives to a slot. -/
def confirmedRole (x : Nat) : Nat := if x = 3 then 1 else if x = 1 then 2 else if x = 2 then 0 else x

/-- The boot record of a confirmation. -/
def confirmedRec (d : Dev) : BootRec :=
  { d.bootRec with
    roles := if (d.slotWith 3).isSome then d.bootRec.roles.map confirmedRole else d.bootRec.roles, current := if d.bootRec.trial = 0xFF then d.bootRec.current else d.bootRec.trial,
    trial := 0xFF, fwPending := false, almPending := false, running := false, starts := 0, minutes := 0, gen := d.bootRec.gen + 1 }

variable (d)

theorem confirm_shows : d.confirm.obj 0xB840 0x01 = 0 := obj_set_same _ _ _ _ _ _

/-- The flash after a confirmation. -/
def Dev.trialEnded (d : Dev) : Dev :=
  (d.setBoot fun r => { r with
    roles := match d.slotWith 3 with | some _ => r.roles.map (fun x => if x = 3 then 1 else if x = 1 then 2 else if x = 2 then 0 else x) | none => r.roles
    current := if r.trial = 0xFF then r.current else r.trial, trial := 0xFF, fwPending := false, almPending := false, running := false, starts := 0, minutes := 0 }).flashUpd fun x => { x with
      secVersion := max x.secVersion (byteAt (d.manifest (d.obj 0xB800 0x01)) 12), revoked := x.revoked || bit (byteAt (d.manifest (d.obj 0xB800 0x01)) 13) 0, healthy := none }

/-- Slots whose security version has fallen behind show it. -/
def Dev.slotsOutdated (d : Dev) : Dev :=
  [0, 1, 2].foldl (fun d k => if d.obj 0xB801 0x02 0 k = 3 ∧ d.obj 0xB801 0x04 0 k < d.flash.secVersion then d.set 0xB801 0x02 5 0 k else d) d

theorem confirm_eq : d.confirm = (d.trialEnded.slotsOutdated.set 0xB840 0x01 0).event 9 (some 21) Ev.trialEnd.code := rfl

theorem slotsOutdated_flash : d.slotsOutdated.flash = d.flash := foldl_leaves Dev.flash _ (fun d k => by split <;> rfl) _ d

theorem trialEnded_flash : d.trialEnded.flash = { d.flash with
    boot := some (confirmedRec d), secVersion := max d.flash.secVersion (byteAt (d.manifest (d.obj 0xB800 0x01)) 12),
    revoked := d.flash.revoked || bit (byteAt (d.manifest (d.obj 0xB800 0x01)) 13) 0, healthy := none } := by
  unfold Dev.trialEnded confirmedRec
  cases hslot : d.slotWith 3 <;> rfl

theorem confirm_flash : d.confirm.flash = { d.flash with
    boot := some (confirmedRec d), secVersion := max d.flash.secVersion (byteAt (d.manifest (d.obj 0xB800 0x01)) 12),
    revoked := d.flash.revoked || bit (byteAt (d.manifest (d.obj 0xB800 0x01)) 13) 0, healthy := none } := by
  rw [confirm_eq, Dev.event_flash, Dev.set_flash, slotsOutdated_flash, trialEnded_flash]

theorem confirm_bootRec : d.confirm.bootRec = confirmedRec d := congrArg (fun x : FlashSt => x.boot.getD {}) (confirm_flash d)

theorem confirm_role (k : Nat) : d.confirm.role k = if (d.slotWith 3).isSome then confirmedRole (d.role k) else d.role k := by
  unfold Dev.role
  rw [confirm_bootRec]
  unfold confirmedRec
  simp only
  split
  · exact getD_map_zero confirmedRole rfl _ _
  · rfl

theorem confirm_activates {k : Nat} (hslot : d.slotWith 3 = some k) : d.confirm.role k = 1 := by
  rw [confirm_role, hslot, role_of_slotWith hslot]
  rfl

theorem confirm_endsTrial : d.confirm.slotWith 3 = none := by
  cases hslot : d.slotWith 3 with
  | some k =>
    refine slotWith_none fun j => ?_
    rw [confirm_role, hslot]
    simp only [Option.isSome_some, if_true]
    unfold confirmedRole
    split_ifs <;> omega
  | none =>
    rw [← hslot]
    unfold Dev.slotWith
    refine congrArg (fun p => List.find? p [0, 1, 2]) (funext fun k => ?_)
    rw [confirm_role, hslot]
    rfl

/-- The boot record of a revert. -/
def revertedRec (d : Dev) : BootRec :=
  { d.bootRec with
    roles := d.bootRec.roles.map (fun x => if x = 3 then 0 else x), trial := 0xFF, fwPending := false, almPending := false, running := false, starts := 0, minutes := 0, gen := d.bootRec.gen + 1 }

theorem revert_bootRec : d.revert.bootRec = revertedRec d := by
  unfold Dev.revert
  simp only
  split <;> rfl

theorem revert_endsTrial : d.revert.slotWith 3 = none := by
  refine slotWith_none fun j => ?_
  unfold Dev.role
  rw [revert_bootRec]
  unfold revertedRec
  simp only
  rw [getD_map_zero _ rfl]
  split_ifs <;> omega

theorem revert_shows : d.revert.obj 0xB840 0x01 = 0 ∧ d.revert.obj 0xB800 0x07 = (d.obj 0xB800 0x07 + 1) % 2 ^ 32 ∧
    ∀ k : Nat, d.slotWith 3 = some k → d.revert.flash.reverted = some k ∧ d.revert.obj 0xB801 0x02 0 k = 4 := by
  unfold Dev.revert
  cases hslot : d.slotWith 3 with
  | none =>
    simp only
    refine ⟨?_, ?_, fun k hk => absurd hk (by simp)⟩
    · rw [Dev.event_obj, obj_inc_field _ (by omega) (by omega) (by omega) (by omega) (by omega), obj_set_same]
    · rw [Dev.event_obj, obj_inc_same, obj_set_field _ (by omega) (by omega) (by omega) (by omega) (by omega)]
      rfl
  | some j =>
    simp only
    refine ⟨?_, ?_, fun k hk => ⟨hk, ?_⟩⟩
    · rw [Dev.event_obj, obj_inc_field _ (by omega) (by omega) (by omega) (by omega) (by omega), obj_set_same]
    · rw [Dev.event_obj, obj_inc_same, obj_set_field _ (by omega) (by omega) (by omega) (by omega) (by omega), Dev.flashUpd_obj,
        obj_set_field _ (by omega) (by omega) (by omega) (by omega) (by omega)]
      rfl
    · obtain rfl := Option.some.inj hk
      rw [Dev.event_obj, obj_inc_field _ (by omega) (by omega) (by omega) (by omega) (by omega), obj_set_field _ (by omega) (by omega) (by omega) (by omega) (by omega),
        Dev.flashUpd_obj, obj_set_same]

end

/-- Settles O57: the ends of a verification, of a minute and of the health time, and the records of a confirmation and a revert. -/
theorem trialsAndConfirmation : Obligations.TrialsAndConfirmation := by
  unfold Obligations.TrialsAndConfirmation
  intro s t d h
  obtain ⟨hshown, hcount, hreverted⟩ := revert_shows d
  refine ⟨verify_headerless h, verify_idle h, fun x hx hfull hruns => ⟨verify_almanac h hx hfull hruns, fun k => verify_firmware h hx hfull hruns⟩, fun k r _ => slotChecked_shows d k r,
    imageCheck_code d, trialMinute_none h, trialMinute_counts h, healthHeld_none h,
    fun a hsince hnow => ⟨healthHeld_waits h hsince, fun hdue => ⟨fun hask => ?_, fun hask => ?_⟩⟩,
    fun q o hw hi hj => ⟨confirmWrite_kept h hw hi hj, confirmWrite_confirms h hw hi hj⟩,
    ⟨confirm_shows d, ?_, ?_, ?_, ?_, ?_, ?_, ?_, fun k => confirm_activates d, confirm_endsTrial d⟩,
    ⟨hshown, hcount, ?_, ?_, revert_endsTrial d, hreverted⟩, fun mv => vbatsense_samples h⟩
  · have hend := healthHeld_ends h hsince hnow hdue
    rw [if_pos hask] at hend
    exact hend
  · have hend := healthHeld_ends h hsince hnow hdue
    rw [if_neg (by simp [hask])] at hend
    exact hend
  · rw [confirm_bootRec]; rfl
  · rw [confirm_bootRec]; rfl
  · rw [confirm_bootRec]; rfl
  · rw [confirm_bootRec]; rfl
  · rw [confirm_bootRec]; rfl
  · rw [confirm_bootRec]; rfl
  · rw [confirm_flash]
  · rw [revert_bootRec]; rfl
  · rw [revert_bootRec]; rfl

end Sys2Proof.Machine

/-! SUPPORT. Lines of the memories: reads, write-backs, merges, patrol, scrub and the correction table. -/

namespace Sys2Proof.Machine

/-! Reads of a line (R455, R457, R461). -/

section
variable (d : Dev) (mem line : Nat)

theorem corrEntry_eq {e : Dev} (h : ∀ j r, j < 256 → e.obj 0xC050 j 0 r = d.obj 0xC050 j 0 r) : e.corrEntry mem line = d.corrEntry mem line := by
  have h1 (r : Nat) : e.obj 0xC050 0x01 0 r = d.obj 0xC050 0x01 0 r := h _ _ (by omega)
  have h2 (r : Nat) : e.obj 0xC050 0x02 0 r = d.obj 0xC050 0x02 0 r := h _ _ (by omega)
  unfold Dev.corrEntry
  simp only [h1, h2]

/-- A corrected read as far as it does not concern the table. -/
def Dev.corrCounted (d : Dev) (mem line : Nat) : Dev := (d.inc64 0xC000 0x04 0 mem).integUpd fun x => { x with writebacks := x.writebacks ++ [(mem, line)] }

theorem corrCounted_entry : (d.corrCounted mem line).corrEntry mem line = d.corrEntry mem line :=
  corrEntry_eq d mem line fun _ _ hj => obj_inc64_field d (by omega) (by omega) hj (by omega) (by omega)

/-- The entry of a line after a corrected read. -/
def Dev.corrLogged (d : Dev) (mem line symbols r : Nat) : Dev :=
  let d := if decide (d.obj 0xC050 0x01 0 r = 0xFF) then ((d.set 0xC050 0x01 mem 0 r).set 0xC050 0x02 line 0 r).set 0xC050 0x05 d.ltTime 0 r else d
  ((d.inc 0xC050 0x03 0 r).set 0xC050 0x04 symbols 0 r).set 0xC050 0x06 d.ltTime 0 r

/-- An escalation (R457). -/
def Dev.corrEscalated (d : Dev) (mem line r : Nat) : Dev :=
  if d.obj 0xC050 0x03 0 r = d.obj 0xC051 0x41 then
    ((d.integUpd fun x => { x with escalated := tput (fun _ => []) x.escalated mem (tget (fun _ => []) x.escalated mem ++ [line / 64]) }).inc 0xC051 0x03).event 0 (some 18) Ev.escalation.code 0
      (beBytes 4 mem ++ beBytes 8 (line / 64))
  else d

variable (n : Nat)

theorem correctedRead_full (hnone : d.corrEntry mem line = none) : d.correctedRead mem line n = (d.corrCounted mem line).inc 0xC051 0x01 := by
  obtain ⟨y, hy⟩ : ∃ y, d.corrCounted mem line = y := ⟨_, rfl⟩
  have hentry := corrCounted_entry d mem line
  rw [hnone, hy] at hentry
  rw [hy]
  unfold Dev.corrCounted at hy
  unfold Dev.correctedRead
  simp only [hy, hentry]

theorem correctedRead_logged {r : Nat} (hsome : d.corrEntry mem line = some r) :
    d.correctedRead mem line n = ((d.corrCounted mem line).corrLogged mem line n r).corrEscalated mem line r := by
  obtain ⟨y, hy⟩ : ∃ y, d.corrCounted mem line = y := ⟨_, rfl⟩
  have hentry := corrCounted_entry d mem line
  rw [hsome, hy] at hentry
  rw [hy]
  unfold Dev.corrCounted at hy
  unfold Dev.correctedRead Dev.corrEscalated Dev.corrLogged
  simp only [hy, hentry]

theorem corrLogged_obj (symbols r : Nat) {i j : Nat} (w k : Nat) (hi : i < 65536) (hj : j < 256) (hne : i ≠ 0xC050) : (d.corrLogged mem line symbols r).obj i j w k = d.obj i j w k := by
  unfold Dev.corrLogged
  simp only
  split
  · simp (disch := omega) only [obj_set_field, obj_inc_field]
  · simp (disch := omega) only [obj_set_field, obj_inc_field]

theorem corrLogged_writebacks (symbols r : Nat) : (d.corrLogged mem line symbols r).integ = d.integ := by
  unfold Dev.corrLogged
  simp only
  split <;> rfl

theorem corrEscalated_obj (r : Nat) {i j : Nat} (w k : Nat) (hi : i < 65536) (hj : j < 256) (hne : i ≠ 0xC051) : (d.corrEscalated mem line r).obj i j w k = d.obj i j w k := by
  unfold Dev.corrEscalated
  split
  · rw [Dev.event_obj]
    exact obj_inc_field (d.integUpd _) (by omega) (by omega) hj hi (by omega)
  · rfl

theorem corrEscalated_writebacks (r : Nat) : (d.corrEscalated mem line r).integ.writebacks = d.integ.writebacks := by
  unfold Dev.corrEscalated
  split <;> rfl

/-- A corrected read is counted, and its line waits for the write-back. -/
theorem correctedRead_counts : (d.correctedRead mem line n).obj 0xC000 0x04 0 mem = (d.obj 0xC000 0x04 0 mem + 1) % 2 ^ 64 ∧
    (d.correctedRead mem line n).integ.writebacks = d.integ.writebacks ++ [(mem, line)] := by
  have hcount : (d.corrCounted mem line).obj 0xC000 0x04 0 mem = (d.obj 0xC000 0x04 0 mem + 1) % 2 ^ 64 := obj_inc64_same d _ _ _ _ _
  cases hentry : d.corrEntry mem line with
  | none =>
    rw [correctedRead_full d mem line n hentry, obj_inc_field _ (by omega) (by omega) (by omega) (by omega) (by omega)]
    exact ⟨hcount, rfl⟩
  | some r =>
    rw [correctedRead_logged d mem line n hentry, corrEscalated_obj _ _ _ _ _ _ (by omega) (by omega) (by omega), corrLogged_obj _ _ _ _ _ _ _ (by omega) (by omega) (by omega),
      corrEscalated_writebacks, corrLogged_writebacks]
    exact ⟨hcount, rfl⟩

theorem correctedRead_overflow (hnone : d.corrEntry mem line = none) : (d.correctedRead mem line n).obj 0xC051 0x01 = (d.obj 0xC051 0x01 + 1) % 2 ^ 32 := by
  rw [correctedRead_full d mem line n hnone, obj_inc_same]
  exact congrArg (fun v => (v + 1) % 2 ^ 32) (obj_inc64_field d (by omega) (by omega) (by omega) (by omega) (by omega))

/-- A line that has an entry is counted there. -/
theorem correctedRead_entry {r : Nat} (hsome : d.corrEntry mem line = some r) (hmem : d.obj 0xC050 0x01 0 r = mem) (hm : mem < 8) :
    (d.correctedRead mem line n).obj 0xC050 0x03 0 r = (d.obj 0xC050 0x03 0 r + 1) % 2 ^ 32 ∧ (d.correctedRead mem line n).obj 0xC050 0x04 0 r = n := by
  obtain ⟨y, hy⟩ : ∃ y, d.corrCounted mem line = y := ⟨_, rfl⟩
  have hobj (j : Nat) (hj : j < 256) : y.obj 0xC050 j 0 r = d.obj 0xC050 j 0 r := hy ▸ obj_inc64_field d (by omega) (by omega) hj (by omega) (by omega)
  have hlog : y.corrLogged mem line n r = ((y.inc 0xC050 0x03 0 r).set 0xC050 0x04 n 0 r).set 0xC050 0x06 y.ltTime 0 r := by
    unfold Dev.corrLogged
    simp only
    rw [hobj 0x01 (by omega), if_neg (by simp only [decide_eq_true_eq]; omega)]
  rw [correctedRead_logged d mem line n hsome, corrEscalated_obj _ _ _ _ _ _ (by omega) (by omega) (by omega), corrEscalated_obj _ _ _ _ _ _ (by omega) (by omega) (by omega), hy, hlog]
  simp (disch := omega) only [obj_set_field, obj_inc_same, obj_set_same, hobj, and_self]

theorem uncorrectableRead_quiet : (d.uncorrectableRead mem line).quiet = d.quiet := by
  unfold Dev.uncorrectableRead
  rfl

theorem event_quiet (d : Dev) (source : Nat) (v : Option Nat) (c : EvCode) (u : Nat) (b : Bytes) : (d.event source v c u b).quiet = d.quiet := rfl

theorem inc_quiet (d : Dev) (i j u r k : Nat) : (d.inc i j u r k).quiet = d.quiet := rfl

theorem set_quiet (d : Dev) (i j v u r : Nat) : (d.set i j v u r).quiet = d.quiet := rfl

theorem integUpd_quiet (d : Dev) (f : IntSt → IntSt) : (d.integUpd f).quiet = d.quiet := rfl

theorem corrEscalated_quiet (r : Nat) : (d.corrEscalated mem line r).quiet = d.quiet := by
  unfold Dev.corrEscalated
  split
  · rw [event_quiet, inc_quiet, integUpd_quiet]
  · rfl

theorem correctedRead_quiet : (d.correctedRead mem line n).quiet = d.quiet := by
  obtain ⟨y, hy⟩ : ∃ y, d.corrCounted mem line = y := ⟨_, rfl⟩
  have hyq : y.quiet = d.quiet := by
    rw [← hy]
    rfl
  cases hentry : d.corrEntry mem line with
  | none =>
    rw [correctedRead_full d mem line n hentry, hy, ← hyq]
    rfl
  | some r =>
    obtain ⟨z, hz⟩ : ∃ z, y.corrLogged mem line n r = z := ⟨_, rfl⟩
    have hzq : z.quiet = y.quiet := by
      rw [← hz]
      unfold Dev.corrLogged
      simp only [set_quiet, inc_quiet]
      split
      · simp only [set_quiet]
      · rfl
    rw [correctedRead_logged d mem line n hentry, hy, hz, corrEscalated_quiet, hzq, hyq]

/-- A read of a line counts, and changes nothing but objects, events and the state of the memories. -/
theorem lineRead_quiet (r : LineRead) : (d.lineRead mem line r).quiet = d.quiet := by
  unfold Dev.lineRead
  cases r with
  | clean => simp only; split <;> rfl
  | corrected n => exact correctedRead_quiet d mem line n
  | uncorrectable => exact uncorrectableRead_quiet d mem line
  | tagParity => exact uncorrectableRead_quiet (d.inc 0xC000 0x07 0 mem) mem line
  | wrongDomain => exact uncorrectableRead_quiet (d.inc 0xC000 0x07 0 mem) mem line
  | poisoned => rfl

/-- What the scrubber does with the rules of a line, likewise. -/
theorem shadowScrub_quiet (r : LineRead) (upset : List Nat) : (d.shadowScrub mem line r upset).quiet = d.quiet := by
  have hlost : (d.shadowLost line).quiet = d.quiet :=
    foldl_leaves Dev.quiet (fun d r => (d.set 0x3040 0x01 0 0 r).event 4 (some 6) Ev.ruleDisabled.code 0 (beBytes 4 r)) (fun _ _ => rfl) _ d
  unfold Dev.shadowScrub
  simp only
  split
  · rfl
  · split
    · split <;> rfl
    · exact hlost

end

theorem now_of_quiet {d e : Dev} (h : e.quiet = d.quiet) : e.now = d.now := (congrArg Dev.now h :)

/-! The ports of the memories (R33). -/

section
variable {s : State} {d : Dev}

/-- Without another command of the tick, and with no port used in the cycle, a port is free. -/
theorem portTaken_free (ha : s.Alone d) (hserved : d.integ.served = []) (mem k : Nat) : s.portTaken d mem k = false := by
  have hcycle : (0 == d.lt / 2 + 1) = false := beq_eq_false_iff_ne.2 (by omega)
  unfold State.portTaken
  rw [ha.tick (by omega) (by omega), hserved]
  exact (Bool.or_false _).trans hcycle

/-- A functional request that waits in the cycle takes the port before the scrubber. -/
theorem portTaken_functional {c : Instr} {mem : Nat} (hpending : s.pending = [c]) (hcycle : (Instr.time c - d.ltEpoch) / 2 ≤ d.lt / 2) (hport : d.portRequests c = [(mem, 0)]) :
    s.portTaken d mem 1 = true := by
  have htick : s.tick d 2 = [c] := by
    unfold State.tick
    rw [hpending, List.takeWhile_cons_of_pos (by simpa using hcycle), List.takeWhile_nil]
  unfold State.portTaken
  rw [htick]
  simp [hport]

end

section
variable {s : State} {t mem line : Nat} {d : Dev} (h : s.Tick t d) (hm : mem < 8) (hl : line < memoryLines mem)
include h hm hl

/-! Write-backs and merges (R458 to R460). -/

theorem writeback_becomes (v : Bool) {x : Dev}
    (hx : (if d.integ.writebacks.contains (mem, line) ∧ d.memoryOn mem ∧ ¬ s.portTaken d mem 1 then
        (if v then (d.integUpd fun x => { x with writebacks := x.writebacks.erase (mem, line) }).setPoison mem line false
          else (d.integUpd fun x => { x with writebacks := x.writebacks.erase (mem, line) }).usePorts [mem])
      else d) = x) : Becomes (.correctedWriteback t mem line v) s x := by
  refine becomes h (by unfold exec; rfl) (by rw [decide_eq_true (show mem ≤ 8 by omega), decide_eq_true hl]; rfl) ?_
  exact hx

theorem writeback_none (v : Bool) (hnone : d.integ.writebacks.contains (mem, line) = false ∨ d.memoryOn mem = false) : Becomes (.correctedWriteback t mem line v) s d := by
  refine writeback_becomes h hm hl v (if_neg ?_)
  rintro ⟨hwaits, hon, -⟩
  rcases hnone with hfalse | hfalse
  · rw [hfalse] at hwaits
    exact Bool.false_ne_true hwaits
  · rw [hfalse] at hon
    exact Bool.false_ne_true hon

theorem writeback_taken (v : Bool) (htaken : s.portTaken d mem 1 = true) : Becomes (.correctedWriteback t mem line v) s d :=
  writeback_becomes h hm hl v (if_neg fun hc => hc.2.2 htaken)

theorem writeback_writes (ha : s.Alone d) (hon : d.memoryOn mem = true) (hserved : d.integ.served = []) (hwaits : d.integ.writebacks.contains (mem, line) = true) :
    Becomes (.correctedWriteback t mem line false) s ((d.integUpd fun x => { x with writebacks := x.writebacks.erase (mem, line) }).usePorts [mem]) ∧
      Becomes (.correctedWriteback t mem line true) s ((d.integUpd fun x => { x with writebacks := x.writebacks.erase (mem, line) }).setPoison mem line false) := by
  have hgo : d.integ.writebacks.contains (mem, line) = true ∧ d.memoryOn mem = true ∧ ¬ s.portTaken d mem 1 = true := ⟨hwaits, hon, by rw [portTaken_free ha hserved]; exact Bool.false_ne_true⟩
  exact ⟨writeback_becomes h hm hl false (if_pos hgo), writeback_becomes h hm hl true (if_pos hgo)⟩

omit hm in
theorem mergeRetire_becomes (hmerge : hasMerge mem = true) (full : Bool) (r : LineRead) {x : Dev}
    (hx : (if ¬ d.memoryOn mem then d
      else
        let y := (d.setMerges mem ((d.merges mem).filter (fun e => e.line ≠ line))).integUpd fun x => { x with writebacks := x.writebacks.filter (fun w => w != (mem, line)) }
        if full || (d.merges mem).any (fun e => e.line = line && e.full) then y.setPoison mem line false
        else if lineGood r then (y.inc64 0xC000 0x08 0 mem).lineRead mem line r else ((y.inc64 0xC000 0x08 0 mem).lineRead mem line r).setPoison mem line true) = x) :
    Becomes (.mergeEntryRetire t mem line full r) s (x.usePorts [mem]) := by
  refine becomes h (by unfold exec execMergeEntryRetire State.portCmd; rfl) (by rw [hmerge, decide_eq_true hl]; rfl) ?_
  exact congrArg (fun y : Dev => y.usePorts [mem]) hx

omit hm in
theorem mergeRetire_off (hoff : d.memoryOn mem = false) (hmerge : hasMerge mem = true) (full : Bool) (r : LineRead) : Becomes (.mergeEntryRetire t mem line full r) s (d.usePorts [mem]) :=
  mergeRetire_becomes h hl hmerge full r (if_pos (by simp [hoff]))

theorem mergeRetire_retires (h1 : 1 ≤ mem) (hon : d.memoryOn mem = true) (r : LineRead) :
    let y := (d.setMerges mem ((d.merges mem).filter (fun e => e.line ≠ line))).integUpd fun x => { x with writebacks := x.writebacks.filter (fun w => w != (mem, line)) }
    Becomes (.mergeEntryRetire t mem line true r) s ((y.setPoison mem line false).usePorts [mem]) ∧
      ((d.merges mem).any (fun e => e.line = line && e.full) = false →
        (lineGood r = true → Becomes (.mergeEntryRetire t mem line false r) s (((y.inc64 0xC000 0x08 0 mem).lineRead mem line r).usePorts [mem])) ∧
        (lineGood r = false → Becomes (.mergeEntryRetire t mem line false r) s ((((y.inc64 0xC000 0x08 0 mem).lineRead mem line r).setPoison mem line true).usePorts [mem]))) := by
  have hmerge : hasMerge mem = true := by
    unfold hasMerge
    rw [decide_eq_true h1, decide_eq_true (show mem ≤ 8 by omega)]
    rfl
  refine ⟨mergeRetire_becomes h hl hmerge true r ?_, fun hpart => ⟨fun hgood => mergeRetire_becomes h hl hmerge false r ?_, fun hbad => mergeRetire_becomes h hl hmerge false r ?_⟩⟩
  · rw [if_neg (by simp [hon])]
    simp only [Bool.true_or, if_true]
  · rw [if_neg (by simp [hon])]
    simp only [hpart, hgood, Bool.or_false, Bool.false_eq_true, if_false, if_true]
  · rw [if_neg (by simp [hon])]
    simp only [hpart, hbad, Bool.or_false, Bool.false_eq_true, if_false]

end

end Sys2Proof.Machine

/-! SUPPORT. The patrol, the scrub and the correction table. -/

namespace Sys2Proof.Machine

/-! What the scrubber does besides (R116, R170). -/

section
variable (d : Dev)

theorem shadowScrub_other {mem : Nat} (line : Nat) (r : LineRead) (upset : List Nat) (hmem : mem ≠ 1) : d.shadowScrub mem line r upset = d := if_pos hmem

/-- An upset rule of the line is rewritten, and counted. -/
theorem shadowScrub_rewrites {line k : Nat} {r : LineRead} (hk : k < 1024) (hline : Config.ruleLine k % memoryLines 1 = line) (hgood : lineGood r = true) :
    d.shadowScrub 1 line r [k] = d.inc 0x3000 0x0C := by
  have hupset : [k].filter (fun k => decide (k < 1024) && Config.ruleLine k % memoryLines 1 == line) = [k] := List.filter_cons_of_pos (by simp [hk, hline])
  unfold Dev.shadowScrub
  simp only [ne_eq, not_true_eq_false, if_false, hgood, if_true]
  rw [hupset]
  rfl

/-- A rule whose shadow is lost with the line is disabled. -/
theorem shadowScrub_disables {line k : Nat} {r : LineRead} (hline : Config.ruleLine k % memoryLines 1 = line) (hbad : lineGood r = false) (hon : d.rulesOn = [k]) :
    d.shadowScrub 1 line r [k] = (d.set 0x3040 0x01 0 0 k).event 4 (some 6) Ev.ruleDisabled.code 0 (beBytes 4 k) := by
  have hrules : d.rulesOn.filter (fun r => Config.ruleLine r % memoryLines 1 == line) = [k] := by
    rw [hon]
    exact List.filter_cons_of_pos (by simp [hline])
  unfold Dev.shadowScrub Dev.shadowLost
  simp only [ne_eq, not_true_eq_false, if_false, hbad, Bool.false_eq_true]
  rw [hrules, List.foldl_cons, List.foldl_nil]

theorem returnCells_orphans (f : Frame) (i e c s : Nat) : (d.returnCells f i e c s).fab.orphans = d.fab.orphans := by
  have hdown : ∀ (l : List Nat) (x : Dev), (l.foldl (fun (d : Dev) p => d.cellsDown 0x2020 p (i + e + c + s)) x).fab.orphans = x.fab.orphans :=
    fun l x => by
    refine foldl_leaves (fun d : Dev => d.fab.orphans) _ (fun _ _ => ?_) l x
    rfl
  unfold Dev.returnCells
  simp only
  split <;> exact hdown _ _

/-- The audit returns the cells beyond one lost link, and counts them. -/
theorem auditCells_returns {f : Frame} (hone : d.fab.orphans = [f]) : d.auditCells.fab.orphans = [] ∧ d.auditCells.obj 0x2000 0x0B = (d.obj 0x2000 0x0B + f.held) % 2 ^ 32 := by
  obtain ⟨y, hy⟩ : ∃ y, (d.fabUpd fun x => { x with orphans := [] }).returnCells f f.ri f.re f.rc f.sh = y := ⟨_, rfl⟩
  have haudit : d.auditCells = y.inc 0x2000 0x0B 0 0 f.held := by
    unfold Dev.auditCells
    rw [hone, List.foldl_cons, List.foldl_nil, hy]
  have hnone : y.fab.orphans = [] := hy ▸ returnCells_orphans _ f _ _ _ _
  have hcount : y.obj 0x2000 0x0B = d.obj 0x2000 0x0B := hy ▸ (moved_returnCells _ f _ _ _ _).obj _ _ _ _ (by omega) (by omega) rfl
  rw [haudit, obj_inc_same, hcount]
  exact ⟨hnone, rfl⟩

theorem auditCells_now : d.auditCells.now = d.now := by
  unfold Dev.auditCells
  exact foldl_leaves Dev.now (fun d f => (d.returnCells f f.ri f.re f.rc f.sh).inc 0x2000 0x0B 0 0 f.held) (fun d f => (moved_returnCells d f _ _ _ _).now) _ _

end

/-! The patrol (R462). -/

section
variable {s : State} {t mem : Nat} {d : Dev} (h : s.Tick t d) (hm : mem < 8) (r : LineRead) (upset : List Nat)
include h hm

theorem patrol_none (hnot : s.portTaken d mem 1 = true ∨ d.memoryOn mem = false) : Becomes (.patrolRead t mem ⟨r, upset⟩) s d := by
  refine becomes h (by unfold exec; rfl) (decide_eq_true hm) ?_
  exact if_pos (by simpa using hnot)

variable (ha : s.Alone d) (hon : d.memoryOn mem = true) (hserved : d.integ.served = []) {a z : Nat} (hplace : tget (fun _ => (0, 0)) d.integ.patrol mem = (a, z))
include ha hon hserved hplace

/-- A patrol read by what stands at its line; `e` is the device after the read, or as it was where the line is skipped. -/
theorem patrol_becomes {e x : Dev} (he : (if (d.retiredBlocks mem).contains (a / 64) || (d.saved mem).any (fun b => b.1 = a / 64) || (d.merges mem).any (fun e => e.line = a) then d
      else (d.lineRead mem a r).shadowScrub mem a r upset) = e)
    (hx : (let w := (e.integUpd fun x => { x with patrol := tput (fun _ => (0, 0)) x.patrol mem (if memoryLines mem ≤ a + 1 then (0, e.now) else (a + 1, z)) }).usePorts [mem]
      if memoryLines mem ≤ a + 1 then
        let y := (if mem = 0 then w.auditCells else w).inc 0xC000 0x0A 0 mem
        if z + y.obj 0xC000 0x09 0 mem * perS < y.now then y.inc 0xC000 0x0B 0 mem else y
      else w) = x) : Becomes (.patrolRead t mem ⟨r, upset⟩) s x := by
  refine becomes h (by unfold exec; rfl) (decide_eq_true hm) ?_
  simp only
  rw [if_neg (by simp [portTaken_free ha hserved, hon])]
  simp only [hplace, he, decide_eq_true_eq]
  exact hx

theorem patrol_skips (hretired : (d.retiredBlocks mem).contains (a / 64) = true) (hmore : a + 1 < memoryLines mem) :
    Becomes (.patrolRead t mem ⟨r, upset⟩) s ((d.integUpd fun x => { x with patrol := tput (fun _ => (0, 0)) x.patrol mem (a + 1, z) }).usePorts [mem]) := by
  refine patrol_becomes h hm r upset ha hon hserved hplace (e := d) (if_pos (by rw [hretired]; rfl)) ?_
  simp only [if_neg (not_le.2 hmore)]

variable (hkept : (d.retiredBlocks mem).contains (a / 64) = false) (hsaved : d.saved mem = none) (hmerges : d.merges mem = [])
include hkept hsaved hmerges

theorem patrol_goesOn (hmore : a + 1 < memoryLines mem) : Becomes (.patrolRead t mem ⟨r, upset⟩) s
    ((((d.lineRead mem a r).shadowScrub mem a r upset).integUpd fun x => { x with patrol := tput (fun _ => (0, 0)) x.patrol mem (a + 1, z) }).usePorts [mem]) := by
  refine patrol_becomes h hm r upset ha hon hserved hplace (if_neg (by rw [hkept, hsaved, hmerges]; simp)) ?_
  simp only [if_neg (not_le.2 hmore)]

/-- The last line of a memory ends a pass, which counts, and counts as late where the interval has passed. -/
theorem patrol_wraps (hlast : memoryLines mem ≤ a + 1) :
    let w := (((d.lineRead mem a r).shadowScrub mem a r upset).integUpd fun x => { x with patrol := tput (fun _ => (0, 0)) x.patrol mem (0, d.now) }).usePorts [mem]
    let y := (if mem = 0 then w.auditCells else w).inc 0xC000 0x0A 0 mem
    Becomes (.patrolRead t mem ⟨r, upset⟩) s (if z + y.obj 0xC000 0x09 0 mem * perS < d.now then y.inc 0xC000 0x0B 0 mem else y) := by
  intro w y
  obtain ⟨e, he⟩ : ∃ e, (d.lineRead mem a r).shadowScrub mem a r upset = e := ⟨_, rfl⟩
  have hnow : e.now = d.now := he ▸ now_of_quiet ((shadowScrub_quiet _ mem a r upset).trans (lineRead_quiet d mem a r))
  have hw : w.now = d.now := (now_of_quiet (shadowScrub_quiet _ mem a r upset)).trans (now_of_quiet (lineRead_quiet d mem a r))
  have hy : y.now = d.now := by
    have haudit : (if mem = 0 then w.auditCells else w).now = w.now := by
      split
      · exact auditCells_now w
      · rfl
    exact haudit.trans hw
  refine patrol_becomes h hm r upset ha hon hserved hplace (e := e) ((if_neg (by rw [hkept, hsaved, hmerges]; simp)).trans he) ?_
  have hwe : (e.integUpd fun x => { x with patrol := tput (fun _ => (0, 0)) x.patrol mem (0, d.now) }).usePorts [mem] = w := by rw [← he]
  simp only [if_pos hlast, hnow, hwe]
  show (if z + y.obj 0xC000 0x09 0 mem * perS < y.now then y.inc 0xC000 0x0B 0 mem else y) = _
  rw [hy]

end

/-! The software scrub and the correction table (R457, R463). -/

section
variable {s : State} {t : Nat} {d : Dev} (h : s.Tick t d)
include h

theorem scrub_idle (l : List (Nat × LineRead)) (hidle : d.obj 0xC020 0x05 ≠ 1) : Becomes (.softwareScrubComplete t l) s d := by
  refine becomes h (by unfold exec; rfl) rfl ?_
  exact if_pos (.inl hidle)

/-- A scrub that finds every line clean reports its range. -/
theorem scrub_clean (ha : s.Alone d) (hserved : d.integ.served = []) (hrun : d.obj 0xC020 0x05 = 1) (hon : d.memoryOn (d.obj 0xC020 0x01) = true)
    (hkept : d.retiredBlocks (d.obj 0xC020 0x01) = []) : Becomes (.softwareScrubComplete t []) s
      (((((((d.usePorts [d.obj 0xC020 0x01]).set 0xC020 0x06 (d.obj 0xC020 0x03 + 1 - d.obj 0xC020 0x02)).set 0xC020 0x07 0).set 0xC020 0x08 0).set 0xC020 0x09 0xFFFFFFFF).set 0xC020 0x05 2).event 0 (some 18) Ev.scrubDone.code) := by
  refine becomes h (by unfold exec; rfl) rfl ?_
  obtain ⟨y, hy⟩ : ∃ y, d.usePorts [d.obj 0xC020 0x01] = y := ⟨_, rfl⟩
  have hobj (j : Nat) : y.obj 0xC020 j = d.obj 0xC020 j := hy ▸ rfl
  have hblocks : y.retiredBlocks (d.obj 0xC020 0x01) = [] := hy ▸ hkept
  simp only
  rw [if_neg (by simp [hrun, hon, portTaken_free ha hserved])]
  simp only [hy, hobj, hblocks, List.filter_nil, List.map_nil, List.sum_nil, List.foldl_nil, List.length_nil, Nat.sub_zero]

variable {q : Request} {o : ObjRow}

theorem scrubStart_runs (hw : d.takesWrite q o .softwareScrubStart 0 = true) (hi : recIndex q.bytes = 0xC020) (hj : recSub q.bytes = 0x04) (hv : q.value = 1) :
    Completes (.softwareScrubStart t) s (d.Wrote q o fun y => y.set 0xC020 0x05 1) := by
  refine wrote h hw (by unfold exec; rfl) _ _ hi hj (by omega) (by omega) (by omega) (by omega) ?_
  exact if_pos hv

/-- An entry of the correction table becomes free. -/
def Dev.corrFreed (d : Dev) (k : Nat) : Dev :=
  (((((d.set 0xC050 0x01 0xFF 0 k).set 0xC050 0x02 0 0 k).set 0xC050 0x03 0 0 k).set 0xC050 0x04 0 0 k).set 0xC050 0x05 0 0 k).set 0xC050 0x06 0 0 k

omit h in
theorem corrFreed_same (k : Nat) : (d.corrFreed k).obj 0xC050 0x01 0 k = 0xFF ∧ ∀ j : Nat, 2 ≤ j → j ≤ 6 → (d.corrFreed k).obj 0xC050 j 0 k = 0 := by
  unfold Dev.corrFreed
  refine ⟨?_, fun j h2 h6 => ?_⟩
  · simp (disch := omega) only [obj_set_field, obj_set_same]
  · obtain rfl | rfl | rfl | rfl | rfl : j = 2 ∨ j = 3 ∨ j = 4 ∨ j = 5 ∨ j = 6 := by omega
    all_goals simp (disch := omega) only [obj_set_field, obj_set_same]

omit h in
theorem corrFreed_other {k r : Nat} (hne : r ≠ k) {j : Nat} (hj : j < 256) : (d.corrFreed k).obj 0xC050 j 0 r = d.obj 0xC050 j 0 r := by
  have hset : ∀ (y : Dev) (i v : Nat), i < 256 → (y.set 0xC050 i v 0 k).obj 0xC050 j 0 r = y.obj 0xC050 j 0 r := fun y i v hi => by
    by_cases hij : j = i
    · subst hij
      exact obj_set_place y (by omega) (by omega) (by omega)
    · exact obj_set_field y hi (by omega) hj (by omega) (by omega)
  unfold Dev.corrFreed
  rw [hset _ _ _ (by omega), hset _ _ _ (by omega), hset _ _ _ (by omega), hset _ _ _ (by omega), hset _ _ _ (by omega), hset _ _ _ (by omega)]

theorem clearTable_clears (hw : d.takesWrite q o .clearCorrectionTable 0 = true) (hi : recIndex q.bytes = 0xC051) (hj : recSub q.bytes = 0x02) (hv : q.value = 1) :
    Completes (.clearCorrectionTable t) s fun x => ∀ r : Nat, r < 32 → x.obj 0xC050 0x01 0 r = 0xFF ∧ ∀ k : Nat, 2 ≤ k → k ≤ 6 → x.obj 0xC050 k 0 r = 0 := by
  obtain ⟨x, hx, hleft, -⟩ : Completes (.clearCorrectionTable t) s (d.Wrote q o fun y => (List.range 32).foldl Dev.corrFreed y) := by
    refine wrote h hw (by unfold exec; rfl) _ _ hi hj (by omega) (by omega) (by omega) (by omega) ?_
    exact if_pos hv
  have hanswer (j : Nat) : q.answerField 0xC050 j = false := by
    unfold Request.answerField sentField
    split
    · simp
    · simp
  refine ⟨x, hx, fun r hr => ⟨?_, fun k h2 h6 => ?_⟩⟩
  · rw [hleft _ _ _ _ (by omega) (by omega) (hanswer _)]
    exact obj_foldl_range _ _ hr (fun y => (corrFreed_same r).1) fun y m _ hne => corrFreed_other (Ne.symm hne) (by omega)
  · rw [hleft _ _ _ _ (by omega) (by omega) (hanswer _)]
    exact obj_foldl_range _ _ hr (fun y => (corrFreed_same r).2 k h2 h6) fun y m _ hne => corrFreed_other (Ne.symm hne) (by omega)

end

/-- Settles O58: reads by what they find, and each command of the memories by the state that it meets. -/
theorem memoryLinesObligation : Obligations.MemoryLines := by
  unfold Obligations.MemoryLines
  intro s t d mem line h hm hl
  refine ⟨⟨fun hclean => ?_, fun hpoison => ?_, rfl, rfl, fun n => ⟨(correctedRead_counts d mem line n).1, (correctedRead_counts d mem line n).2, correctedRead_overflow d mem line n,
      fun r hsome hmem => correctedRead_entry d mem line n hsome hmem hm⟩⟩,
    writeback_none h hm hl, writeback_writes h hm hl, mergeRetire_off h hl, mergeRetire_retires h hm hl, fun c k hpending hcycle hport r v up hk => ?_,
    fun hoff r up => patrol_none h hm r up (.inr hoff),
    fun ha hon hserved a z r up hplace => ⟨fun hkept hsaved hmerges => ⟨patrol_goesOn h hm r up ha hon hserved hplace hkept hsaved hmerges,
        patrol_wraps h hm r up ha hon hserved hplace hkept hsaved hmerges⟩, patrol_skips h hm r up ha hon hserved hplace⟩,
    fun r k hk hline => ⟨shadowScrub_other d line r [k], fun hmem hgood => ?_, fun hmem hbad hon => ?_⟩, fun f hone _ => auditCells_returns d hone, scrub_idle h, scrub_clean h,
    fun q o => scrubStart_runs h, fun q o => clearTable_clears h⟩
  · exact if_neg (by simp [hclean])
  · exact if_pos hpoison
  · subst hk
    have htaken := portTaken_functional hpending hcycle hport
    exact ⟨patrol_none h hm r up (.inl htaken), writeback_taken h hm hl v htaken⟩
  · subst hmem
    exact shadowScrub_rewrites d hk hline hgood
  · subst hmem
    exact shadowScrub_disables d hline hbad hon

end Sys2Proof.Machine

/-! SUPPORT. The test window. -/

namespace Sys2Proof.Machine

/-! What an answer leaves of a part that the effect has written. -/

section
variable {x y : Dev} {q : Request} (h : x.LeftBy q y)
include h

theorem Dev.LeftBy.integ : x.integ = y.integ := (congrArg Dev.integ h.2.1 :)

theorem Dev.LeftBy.pairs : x.pairs = y.pairs := (congrArg Dev.pairs h.2.1 :)

theorem Dev.LeftBy.fab (hdirect : q.direct = true) : x.fab = y.fab := (h.2.2.1 hdirect).2

theorem Dev.LeftBy.windowObj (j : Nat) (hj : j < 256) : x.obj 0xC030 j = y.obj 0xC030 j := by
  refine h.1 _ _ _ _ (by omega) hj ?_
  unfold Request.answerField sentField
  split
  · simp
  · simp

end

theorem Completes.mono {c : Instr} {s : State} {p p' : Dev → Prop} (h : Completes c s p) (hp : ∀ x, p x → p' x) : Completes c s p' := by
  obtain ⟨x, hx, hpx⟩ := h
  exact ⟨x, hx, hp x hpx⟩

/-! The test line (R464). -/

section
variable (d : Dev) (q : Request) (o : ObjRow)

theorem writeBase_windowObj {j : Nat} (hj : j < 256) : (d.writeBase q o).obj 0xC030 j = d.obj 0xC030 j := writeBase_obj _ _ _ _ _ _ _ (by omega) hj (by omega) (by omega)

theorem writeBase_key (k : Nat) : (d.writeBase q o).key k = d.key k := (congrArg (fun x : BinSt => tget (fun _ => []) x.keys k) (writeBase_bin d q o) :)

theorem storedImage_writeBase (mem line : Nat) : (d.writeBase q o).storedImage mem line = d.storedImage mem line := by
  have hbucket : (d.writeBase q o).isBucket mem line = d.isBucket mem line := by
    unfold Dev.isBucket Dev.bucketGone
    rw [writeBase_chart]
  have hline : (d.writeBase q o).bucketLine line = d.bucketLine line := by
    unfold Dev.bucketLine Dev.mac
    rw [writeBase_chart]
  have hcipher (b : Bytes) : (d.writeBase q o).dramCipher line b = d.dramCipher line b := by
    unfold Dev.dramCipher
    rw [writeBase_key]
  unfold Dev.storedImage
  simp only [hbucket, hline, hcipher, writeBase_integ]

/-- A write leaves the test line as it was. -/
theorem testImage_writeBase : (d.writeBase q o).testImage = d.testImage := by
  unfold Dev.testImage
  simp only [writeBase_windowObj d q o (show 0x42 < 256 by omega), writeBase_windowObj d q o (show 0x43 < 256 by omega), storedImage_writeBase, writeBase_integ]

end

/-! The writes of the window (R464). -/

/-- The window opens over a block, which is saved. -/
def Dev.windowOpens (d : Dev) (m b : Nat) : Dev :=
  (((((d.setSaved m (some (b, false))).integUpd fun x => { x with window := some (m, b), raw := [], windowKey := d.freeCount }).set 0xC030 0x41 1).free 9).2)

section
variable {s : State} {t : Nat} {d : Dev} {q : Request} {o : ObjRow} (h : s.Tick t d) (hi : recIndex q.bytes = 0xC030)
include h hi

theorem window_opens (hw : d.takesWrite q o .testWindowOpen 0 = true) (hj : recSub q.bytes = 0x41) (hv : q.value = 1) :
    Completes (.testWindowOpen t) s (d.Wrote q o fun y => y.windowOpens (d.obj 0xC030 0x42) (d.obj 0xC030 0x43 / 64)) := by
  refine wrote h hw (by unfold exec; rfl) _ _ hi hj (by omega) (by omega) (by omega) (by omega) ?_
  rw [← writeBase_windowObj d q o (show 0x42 < 256 by omega), ← writeBase_windowObj d q o (show 0x43 < 256 by omega)]
  exact if_pos hv

theorem window_closes (hw : d.takesWrite q o .testWindowOpen 0 = true) (hj : recSub q.bytes = 0x41) {m b : Nat} (hwindow : d.integ.window = some (m, b)) (hv : q.value = 0) :
    Completes (.testWindowOpen t) s (d.Wrote q o fun y => ((y.setSaved m none).integUpd fun x => { x with window := none, raw := [] }).set 0xC030 0x41 0) := by
  have hclose : (d.writeBase q o).closeWindow = (((d.writeBase q o).setSaved m none).integUpd fun x => { x with window := none, raw := [] }).set 0xC030 0x41 0 := by
    unfold Dev.closeWindow
    simp only [writeBase_integ, hwindow]
  refine wrote h hw (by unfold exec; rfl) _ _ hi hj (by omega) (by omega) (by omega) (by omega) ?_
  rw [← hclose]
  exact if_neg (by omega)

theorem rawWrite_stores (hw : d.takesWrite q o .rawWrite 0 = true) (hj : recSub q.bytes = 0x47) (hv : q.value = 1) :
    Completes (.rawWrite t) s (d.Wrote q o fun y => y.integUpd fun x => { x with
      raw := tput (fun _ => []) x.raw (d.obj 0xC030 0x43) (beBytes 64 (d.obj 0xC030 0x44) ++ beBytes 5 (d.obj 0xC030 0x45) ++ beBytes 1 (d.obj 0xC030 0x46)) }) := by
  refine wrote h hw (by unfold exec; rfl) _ _ hi hj (by omega) (by omega) (by omega) (by omega) ?_
  rw [← writeBase_windowObj d q o (show 0x43 < 256 by omega), ← writeBase_windowObj d q o (show 0x44 < 256 by omega), ← writeBase_windowObj d q o (show 0x45 < 256 by omega),
    ← writeBase_windowObj d q o (show 0x46 < 256 by omega)]
  exact if_pos hv

theorem rawRead_shows (hw : d.takesWrite q o .rawRead 0 = true) (hj : recSub q.bytes = 0x48) (hv : q.value = 1) :
    Completes (.rawRead t) s (d.Wrote q o fun y => ((y.set 0xC030 0x4A (field d.testImage 0 64)).set 0xC030 0x4B (field d.testImage 64 5)).set 0xC030 0x4C (byteAt d.testImage 69)) := by
  refine wrote h hw (by unfold exec; rfl) _ _ hi hj (by omega) (by omega) (by omega) (by omega) ?_
  rw [← testImage_writeBase d q o]
  exact if_pos hv

theorem decodeRead_shows (hw : d.takesWrite q o .decodeRead 0 = true) (hj : recSub q.bytes = 0x49) (hv : q.value = 1) :
    let r := lineDecode d.testImage (lineDomain (d.obj 0xC030 0x42) (d.obj 0xC030 0x43))
    Completes (.decodeRead t) s (d.Wrote q o fun y => (y.set 0xC030 0x4D r.1).set 0xC030 0x4A (beNat (r.2.take 64))) := by
  refine wrote h hw (by unfold exec; rfl) _ _ hi hj (by omega) (by omega) (by omega) (by omega) ?_
  rw [← testImage_writeBase d q o, ← writeBase_windowObj d q o (show 0x42 < 256 by omega), ← writeBase_windowObj d q o (show 0x43 < 256 by omega)]
  exact if_pos hv

end

end Sys2Proof.Machine

/-! SUPPORT. The Sounding. -/

namespace Sys2Proof.Machine

/-! The march (R465). -/

theorem background_length (bg line : Nat) : (background bg line).length = 72 := by
  unfold background
  split
  · exact List.length_replicate
  · exact List.length_replicate
  · exact List.length_replicate
  · rw [List.length_flatMap]
    simp

theorem marchOp_line (b k : Nat) : b * 64 ≤ (marchOp b k).1 ∧ (marchOp b k).1 < b * 64 + 64 := by
  have hk : k % 640 < 640 := Nat.mod_lt _ (by omega)
  unfold marchOp
  simp only
  split
  · omega
  · split
    · split <;> omega
    · omega

theorem marchOp_length {b k : Nat} {e : Bytes} (h : (marchOp b k).2 = some e) : e.length = 72 := by
  unfold marchOp at h
  simp only at h
  split at h
  · simp at h
  · split at h
    · obtain rfl := Option.some.inj h
      rw [List.length_map]
      exact background_length _ _
    · obtain rfl := Option.some.inj h
      exact background_length _ _

/-- A single read fails the march as it differs from the bits expected. -/
theorem marchFails_one {b k : Nat} {e : Bytes} (hk : k < 2560) (h : (marchOp b k).2 = some e) (x : Bytes) : marchFails b [(k, x)] = (e != x) := by
  unfold marchFails
  simp [hk, h]

/-! Repairs and retirement (R469, R470). -/

section
variable (d : Dev) (mem b : Nat) (v : BlockTest)

theorem repairBlock_none (fails : Bool)
    (hnot : d.integ.repairMode = 0 ∨ (v.spares.filter (· == .row)).length + (v.spares.filter (· == .column)).length = 0 ∨ 4 < (d.sparesUsed mem b).1 + (v.spares.filter (· == .row)).length ∨
      2 < (d.sparesUsed mem b).2 + (v.spares.filter (· == .column)).length ∨ fails = true) : d.repairBlock mem b v fails = none := by
  refine if_pos ?_
  rcases hnot with h | h | h | h | h
  · exact .inl h
  · exact .inr (.inr (.inl h))
  · exact .inr (.inr (.inr (.inl h)))
  · exact .inr (.inr (.inr (.inr (.inl h))))
  · exact .inr (.inr (.inr (.inr (.inr h))))

/-- A repair that fits takes its spares, and counts them. -/
theorem repairBlock_some (hm : mem < 8) {n m : Nat} (hn : (v.spares.filter (· == .row)).length = n) (hc : (v.spares.filter (· == .column)).length = m) (hmode : d.integ.repairMode ≠ 0)
    (hany : n + m ≠ 0) (hrows : (d.sparesUsed mem b).1 + n ≤ 4) (hcols : (d.sparesUsed mem b).2 + m ≤ 2) :
    ∃ z : Dev, d.repairBlock mem b v false = some z ∧ z.sparesUsed mem b = ((d.sparesUsed mem b).1 + n, (d.sparesUsed mem b).2 + m) ∧ z.integ.retired = d.integ.retired ∧
      z.obj 0xC040 0x08 = (d.obj 0xC040 0x08 + n) % 2 ^ 32 ∧ z.obj 0xC040 0x09 = (d.obj 0xC040 0x09 + m) % 2 ^ 32 := by
  subst hn hc
  let key := mem * 65536 + b / 64
  let f := d.fuses ((v.spares.filter (· == .row)).length + (v.spares.filter (· == .column)).length)
  let burned := tget (fun _ => (0, 0)) d.integ.burned key
  let y := (((d.integUpd fun x => { x with
      spares := tput (fun _ => (0, 0)) x.spares key ((d.sparesUsed mem b).1 + (v.spares.filter (· == .row)).length, (d.sparesUsed mem b).2 + (v.spares.filter (· == .column)).length)
      burned := tput (fun _ => (0, 0)) x.burned key (burned.1 + min f (v.spares.filter (· == .row)).length, burned.2 + (f - min f (v.spares.filter (· == .row)).length)) }).inc
      0xC040 0x08 0 0 (v.spares.filter (· == .row)).length).inc 0xC040 0x09 0 0 (v.spares.filter (· == .column)).length)
  have hrepair : d.repairBlock mem b v false = some (if f = 0 then y else y.inc 0xC040 0x0A 0 0 f) := by
    refine if_neg ?_
    rintro (hx | hx | hx | hx | hx | hx)
    · exact hmode hx
    · omega
    · exact hany hx
    · omega
    · omega
    · exact Bool.false_ne_true hx
  have hy : y.sparesUsed mem b = ((d.sparesUsed mem b).1 + (v.spares.filter (· == .row)).length, (d.sparesUsed mem b).2 + (v.spares.filter (· == .column)).length) := tget_tput_same _ _ _ _
  have hyrows : y.obj 0xC040 0x08 = (d.obj 0xC040 0x08 + (v.spares.filter (· == .row)).length) % 2 ^ 32 := by
    rw [show y = _ from rfl, obj_inc_field _ (by omega) (by omega) (by omega) (by omega) (by omega), obj_inc_same]
    exact rfl
  have hycols : y.obj 0xC040 0x09 = (d.obj 0xC040 0x09 + (v.spares.filter (· == .column)).length) % 2 ^ 32 := by
    rw [show y = _ from rfl, obj_inc_same, obj_inc_field _ (by omega) (by omega) (by omega) (by omega) (by omega)]
    exact rfl
  refine ⟨_, hrepair, ?_⟩
  split
  · exact ⟨hy, rfl, hyrows, hycols⟩
  · exact ⟨hy, rfl, by rw [obj_inc_field _ (by omega) (by omega) (by omega) (by omega) (by omega), hyrows],
      by rw [obj_inc_field _ (by omega) (by omega) (by omega) (by omega) (by omega), hycols]⟩

theorem retireBlock_again (hgone : (d.retiredBlocks mem).contains b = true) : d.retireBlock mem b = d := if_pos hgone

/-- The retirement of a block of memory 2 is counted and named. -/
theorem retireBlock_counts (hlive : (d.retiredBlocks 2).contains b = false) :
    (d.retireBlock 2 b).retiredBlocks 2 = d.retiredBlocks 2 ++ [b] ∧ (d.retireBlock 2 b).obj 0xC000 0x03 0 2 = (d.obj 0xC000 0x03 0 2 + 1) % 2 ^ 32 ∧
      (d.retireBlock 2 b).obj 0xC040 0x05 = (d.obj 0xC040 0x05 + 1) % 2 ^ 32 ∧ (d.retireBlock 2 b).obj 0xC040 0x06 = 2 * 2 ^ 32 + b ∧
      (d.retireBlock 2 b).obj 0xC000 0x02 0 2 = d.obj 0xC000 0x02 0 2 - 64 := by
  obtain ⟨y, hy⟩ : ∃ y, d.integUpd (fun x => { x with retired := tput (fun _ => []) x.retired 2 (tget (fun _ => []) x.retired 2 ++ [b]) }) = y := ⟨_, rfl⟩
  have hretired : y.retiredBlocks 2 = d.retiredBlocks 2 ++ [b] := hy ▸ tget_tput_same _ _ _ _
  have hobj (i j w r : Nat) : y.obj i j w r = d.obj i j w r := hy ▸ rfl
  obtain ⟨z, hz⟩ : ∃ z, ((y.inc 0xC000 0x03 0 2).inc 0xC040 0x05).set 0xC040 0x06 (2 * 2 ^ 32 + b) = z := ⟨_, rfl⟩
  have hretire : d.retireBlock 2 b = (z.set 0xC000 0x02 (z.obj 0xC000 0x02 0 2 - 64) 0 2).event 0 (some 18) Ev.retired.code 0 (beBytes 4 2 ++ beBytes 8 b) := by
    refine (if_neg (by rw [hlive]; exact Bool.false_ne_true)).trans ?_
    simp only [hy, hz]
    rfl
  rw [hretire]
  refine ⟨?_, ?_, ?_, ?_, ?_⟩
  · rw [← hretired, ← hz]
    rfl
  · rw [Dev.event_obj, obj_set_field _ (by omega) (by omega) (by omega) (by omega) (by omega), ← hz]
    simp (disch := omega) only [obj_set_field, obj_inc_field, obj_inc_same, hobj]
  · rw [Dev.event_obj, obj_set_field _ (by omega) (by omega) (by omega) (by omega) (by omega), ← hz]
    simp (disch := omega) only [obj_set_field, obj_inc_field, obj_inc_same, hobj]
  · rw [Dev.event_obj, obj_set_field _ (by omega) (by omega) (by omega) (by omega) (by omega), ← hz, obj_set_same]
  · rw [Dev.event_obj, obj_set_same, ← hz]
    simp (disch := omega) only [obj_set_field, obj_inc_field, hobj]

/-- The start-up test of a block by its march. -/
theorem startupBlock_passes (hmem : mem ≠ 7) (hpass : marchFails b v.reads = false) : d.startupBlock mem b v = d := by
  unfold Dev.startupBlock
  simp [hmem, hpass]

theorem startupBlock_fails (hmem : mem ≠ 7) (hfail : marchFails b v.reads = true) :
    d.startupBlock mem b v = (d.repairBlock mem b v (marchFails b v.retest)).getD (d.retireBlock mem b) := by
  unfold Dev.startupBlock
  simp only [hmem, hfail, if_false, not_true_eq_false]
  cases d.repairBlock mem b v (marchFails b v.retest) <;> rfl

end

/-! A block's test in service (R465, R467, R468, R470). -/

section
variable {s : State} {t mem : Nat} {d : Dev} (h : s.Tick t d) (hm : mem < 8)
include h hm

theorem soundingStart_none (hnot : d.flag 0xC040 0x02 = false ∨ d.flag 0xC040 0x07 = false ∨ d.pairRuns 3 = false ∨ d.saved mem ≠ none ∨ d.soundingGoesOn = false ∨ 2 ≤ d.soundingsRunning) :
    Becomes (.soundingStart t mem) s d := by
  refine becomes h (by unfold exec; rfl) (decide_eq_true hm) ?_
  refine if_neg ?_
  rintro ⟨hon, hstarted, hruns, hfree, hfew, hgoes, -⟩
  rcases hnot with hx | hx | hx | hx | hx | hx
  · rw [hx] at hon; exact Bool.false_ne_true hon
  · rw [hx] at hstarted; exact Bool.false_ne_true hstarted
  · rw [hx] at hruns; exact Bool.false_ne_true hruns
  · exact hx hfree
  · rw [hx] at hgoes; exact Bool.false_ne_true hgoes
  · omega

omit h hm in
theorem soundingGoesOn_iff : d.soundingGoesOn = true ↔ d.obj 0x2000 0x08 = 0 ∧ d.obj 0xA000 0x02 ≠ 2 := by simp [Dev.soundingGoesOn]

omit h hm in
theorem soundingsRunning_none (hsave : d.integ.save = []) : d.soundingsRunning = 0 := by
  have hnone (m : Nat) : d.saved m = none := by
    unfold Dev.saved
    rw [hsave]
    rfl
  unfold Dev.soundingsRunning
  simp [hnone]

/-- The block at the pointer of the rotation is saved. -/
theorem soundingStart_saves (ha : s.Alone d) (hon : d.flag 0xC040 0x02 = true) (hstarted : d.flag 0xC040 0x07 = true) (hruns : d.pairRuns 3 = true) (hfree : d.saved mem = none)
    (hsave : d.integ.save = []) (hgoes : d.soundingGoesOn = true) (hserved : d.integ.served = []) (hescalated : d.escalatedBlocks mem = []) (hretired : d.retiredBlocks mem = [])
    (_ : d.merges mem = []) :
    Completes (.soundingStart t mem) s fun x => x.saved mem = some (d.obj 0xC000 0x0C 0 mem % memoryBlocks mem, false) ∧ x.fab = d.fab ∧ x.integ.retired = d.integ.retired := by
  refine completes h (by unfold exec; rfl) (decide_eq_true hm) ?_
  simp only
  rw [if_pos ⟨hon, hstarted, hruns, hfree, by rw [soundingsRunning_none hsave]; omega, hgoes, by rw [portTaken_free ha hserved]; exact Bool.false_ne_true⟩]
  simp only [hescalated, hretired, List.find?_nil, List.length_nil, nextBlock]
  exact ⟨tget_tput_same _ _ _ _, rfl, rfl⟩

theorem saveRelease_becomes {x : Dev} (hx : (match d.saved mem with | some (_, true) => d.setSaved mem none | _ => d) = x) : Becomes (.saveBufferRelease t mem) s x := by
  refine becomes h (by unfold exec; rfl) (decide_eq_true hm) ?_
  exact hx

variable {b : Nat} (hb : b < memoryBlocks mem) (v : BlockTest)
include hb

theorem blockEnd_other (hnot : d.saved mem ≠ some (b, false)) : Becomes (.soundingBlockEnd t mem b v) s d := by
  refine becomes h (by unfold exec; rfl) (by rw [decide_eq_true hm, decide_eq_true hb]; rfl) ?_
  simp only
  split
  · next k hk =>
    refine if_pos (.inl fun he => hnot ?_)
    rw [hk, he]
  · rfl

variable (hsaved : d.saved mem = some (b, false))
include hsaved

theorem blockEnd_held (hgoes : d.soundingGoesOn = false) : Becomes (.soundingBlockEnd t mem b v) s d := by
  refine becomes h (by unfold exec; rfl) (by rw [decide_eq_true hm, decide_eq_true hb]; rfl) ?_
  simp only [hsaved]
  exact if_pos (.inr (.inr (by simp [hgoes])))

variable (hwindow : d.integ.window ≠ some (mem, b)) (hgoes : d.soundingGoesOn = true)
include hwindow hgoes

theorem blockEnd_passes (hpass : marchFails b v.reads = false) : Becomes (.soundingBlockEnd t mem b v) s (((d.inc64 0xC040 0x04).setSaved mem none).rotate mem b) := by
  refine becomes h (by unfold exec; rfl) (by rw [decide_eq_true hm, decide_eq_true hb]; rfl) ?_
  simp only [hsaved]
  rw [if_neg (by simp [hwindow, hgoes]), if_pos (by simp [hpass])]

theorem blockEnd_repairs (hfail : marchFails b v.reads = true) {z : Dev} (hrepair : (d.inc64 0xC040 0x04).repairBlock mem b v (marchFails b v.retest) = some z) :
    Becomes (.soundingBlockEnd t mem b v) s ((z.setSaved mem none).rotate mem b) := by
  refine becomes h (by unfold exec; rfl) (by rw [decide_eq_true hm, decide_eq_true hb]; rfl) ?_
  simp only [hsaved]
  rw [if_neg (by simp [hwindow, hgoes]), if_neg (by simp [hfail])]
  simp only [hrepair]

theorem blockEnd_retires (hfail : marchFails b v.reads = true) (hrepair : (d.inc64 0xC040 0x04).repairBlock mem b v (marchFails b v.retest) = none) :
    Becomes (.soundingBlockEnd t mem b v) s ((((d.inc64 0xC040 0x04).setSaved mem (some (b, true))).retireBlock mem b).rotate mem b) := by
  refine becomes h (by unfold exec; rfl) (by rw [decide_eq_true hm, decide_eq_true hb]; rfl) ?_
  simp only [hsaved]
  rw [if_neg (by simp [hwindow, hgoes]), if_neg (by simp [hfail])]
  simp only [hrepair]

end

section
variable {s : State} {t : Nat} {d : Dev} (h : s.Tick t d)
include h

theorem startup_none : Becomes (.startupSoundingComplete t []) s (d.set 0xC040 0x07 1).healthStart.segLinks := by
  refine becomes h (by unfold exec; rfl) rfl ?_
  exact rfl

theorem startup_one {mem b : Nat} (hm : mem < 8) (hb : b < memoryBlocks mem) (v : BlockTest) :
    Becomes (.startupSoundingComplete t [(mem, b, v)]) s (((d.startupBlock mem b v).set 0xC040 0x07 1).healthStart.segLinks) := by
  refine becomes h (by unfold exec; rfl) ?_ ?_
  · rw [List.all_cons, List.all_nil, decide_eq_true (show mem ≤ 8 by omega), decide_eq_true hb]
    rfl
  · exact rfl

end

/-- Settles O59: the test window and the Sounding. -/
theorem testWindowAndSounding : Obligations.TestWindowAndSounding := by
  unfold Obligations.TestWindowAndSounding
  refine ⟨fun s t d q o h => ⟨fun hw hi hj => ⟨fun hv => ?_, fun m b hwindow hv => ?_⟩, fun hw hi hj hv => ?_, fun hw hi hj hv => ?_, fun hw hi hj hv => ?_⟩,
    fun s t d mem h hm => ⟨soundingStart_none h hm, soundingGoesOn_iff, soundingStart_saves h hm, fun hsaved => saveRelease_becomes h hm (by simp only [hsaved]),
      fun b v hb => blockEnd_other h hm hb v, fun b v hb hsaved hwindow => ⟨blockEnd_held h hm hb v hsaved, blockEnd_passes h hm hb v hsaved hwindow, fun hgoes hfail =>
        ⟨fun z => blockEnd_repairs h hm hb v hsaved hwindow hgoes hfail, blockEnd_retires h hm hb v hsaved hwindow hgoes hfail⟩⟩,
      fun b k x hk => ⟨(marchOp_line b k).1, (marchOp_line b k).2, rfl, fun e he => ⟨marchOp_length he, fun hx => ?_, ?_⟩⟩,
      fun b v g => ⟨repairBlock_none d mem b v g, repairBlock_some d mem b v hm rfl rfl⟩, retireBlock_again d mem, fun b hlive htwo => ?_,
      fun b hsaved => saveRelease_becomes h hm (by simp only [hsaved]), fun b hsaved => saveRelease_becomes h hm (by simp only [hsaved]),
      startup_none h, fun b v hb => startup_one h hm hb v, fun b v hmem => ⟨startupBlock_passes d mem b v hmem, startupBlock_fails d mem b v hmem⟩⟩⟩
  · refine (window_opens h hi hw hj hv).mono fun x hx => ⟨?_, ?_, ?_, ?_, fun hdirect => ?_⟩
    · exact (hx.windowObj 0x41 (by omega)).trans (obj_set_same _ _ _ _ _ _)
    · rw [hx.integ]; exact rfl
    · exact (congrArg (fun y : IntSt => tget (fun _ => none) y.save (d.obj 0xC030 0x42)) hx.integ).trans (tget_tput_same _ _ _ _)
    · rw [hx.integ]; exact rfl
    · exact (hx.fab hdirect).trans (writeBase_fab d q o)
  · refine (window_closes h hi hw hj hwindow hv).mono fun x hx => ⟨?_, ?_, ?_, ?_, fun hdirect => ?_⟩
    · exact (hx.windowObj 0x41 (by omega)).trans (obj_set_same _ _ _ _ _ _)
    · rw [hx.integ]; exact rfl
    · exact (congrArg (fun y : IntSt => tget (fun _ => none) y.save m) hx.integ).trans (tget_tput_same _ _ _ _)
    · rw [hx.integ]; exact rfl
    · exact (hx.fab hdirect).trans (writeBase_fab d q o)
  · refine (rawWrite_stores h hi hw hj hv).mono fun x hx => ?_
    rw [hx.integ]
    exact tget_tput_same _ _ _ _
  · refine (rawRead_shows h hi hw hj hv).mono fun x hx => ⟨?_, ?_, ?_⟩
    · rw [hx.windowObj 0x4A (by omega)]
      simp (disch := omega) only [obj_set_field, obj_set_same]
    · rw [hx.windowObj 0x4B (by omega)]
      simp (disch := omega) only [obj_set_field, obj_set_same]
    · rw [hx.windowObj 0x4C (by omega), obj_set_same]
  · refine (decodeRead_shows h hi hw hj hv).mono fun x hx => ⟨?_, ?_⟩
    · rw [hx.windowObj 0x4D (by omega)]
      simp (disch := omega) only [obj_set_field, obj_set_same]
    · rw [hx.windowObj 0x4A (by omega), obj_set_same]
  · rw [marchFails_one hk he, bne_iff_ne]
    exact Ne.symm hx
  · rw [marchFails_one hk he, bne_self_eq_false]
  · subst htwo
    exact retireBlock_counts d b hlive

end Sys2Proof.Machine

/-! SUPPORT. The frame recorder and the replay. -/

namespace Sys2Proof.Machine

/-! The ring (R472). -/

theorem RecFrame.size_le {r : RecFrame} {n : Nat} (h : r.bytes.length ≤ n) : r.size ≤ n + 95 := by
  unfold RecFrame.size cdiv
  omega

theorem ringFit_newest {c : Nat} {r : RecFrame} (l : List RecFrame) (h : r.size ≤ c) : (ringFit c (r :: l)).head? = some r := by
  rw [ringFit, if_neg (by omega)]
  rfl

theorem ringFit_sum (c : Nat) (l : List RecFrame) : ((ringFit c l).map RecFrame.size).sum ≤ c := by
  induction l generalizing c with
  | nil => exact Nat.zero_le c
  | cons r l ih =>
    rw [ringFit]
    split
    · exact Nat.zero_le c
    · next hfits =>
      have hrest := ih (c - r.size)
      rw [List.map_cons, List.sum_cons]
      omega

/-- The ring keeps the newest records: the oldest give way. -/
theorem ringFit_prefix (c : Nat) (l : List RecFrame) : ringFit c l <+: l := by
  induction l generalizing c with
  | nil => exact List.prefix_rfl
  | cons r l ih =>
    rw [ringFit]
    split
    · exact List.nil_prefix
    · exact (List.cons_prefix_cons).mpr ⟨rfl, ih _⟩

/-- A record of a running recorder without trigger takes the next sequence number. -/
theorem record_runs (d : Dev) (r : RecFrame) (hon : d.flag 0xD000 0x01 = true) (hst : d.obj 0xD020 0x05 = 1) : ∃ x, d.record r = x ∧
    x.fab = d.fab ∧ x.obj 0xD020 0x07 = d.integ.nextRec ∧ x.integ.nextRec = d.integ.nextRec + 1 ∧ x.obj 0xD000 0x04 = (d.obj 0xD000 0x04 + 1) % 2 ^ 64 ∧
      x.integ.ring = ringFit (d.obj 0xD000 0x06 * 1024) ({ r with seq := d.integ.nextRec, bytes := r.bytes.take (d.obj 0xD020 0x02) } :: d.integ.ring) := by
  let c := ringFit (d.obj 0xD000 0x06 * 1024) ({ r with seq := d.integ.nextRec, bytes := r.bytes.take (d.obj 0xD020 0x02) } :: d.integ.ring)
  let y := d.integUpd fun x => { x with ring := c, nextRec := x.nextRec + 1 }
  have hrecord : d.record r = ((y.inc64 0xD000 0x04).set 0xD020 0x07 d.integ.nextRec).set 0xD020 0x06 ((c.getLast?.map (·.seq)).getD d.integ.nextRec) := by
    unfold Dev.record
    simp only [hst]
    rw [if_neg (by simp [hon]), if_neg (by omega)]
    simp only [show ((1 : Nat) = 2) = False by simp, if_false]
    exact rfl
  refine ⟨_, hrecord, rfl, ?_, rfl, ?_, rfl⟩
  · rw [obj_set_field _ (by omega) (by omega) (by omega) (by omega) (by omega), obj_set_same]
  · rw [obj_set_field _ (by omega) (by omega) (by omega) (by omega) (by omega), obj_set_field _ (by omega) (by omega) (by omega) (by omega) (by omega), obj_inc64_same]
    exact rfl

/-! The recorder takes mirror copies (R472). -/

section
variable {s : State} {t : Nat} {d : Dev} (h : s.Tick t d)
include h

theorem mirrorRecord_off (hoff : d.memoryOn 7 = false) (v : Bool) : Becomes (.mirrorRecord t v) s (d.usePorts [7]) := by
  refine becomes h (by unfold exec execMirrorRecord State.portCmd; rfl) rfl ?_
  exact congrArg (fun y : Dev => y.usePorts [7]) (if_pos (by simp [hoff]))

theorem mirrorRecord_nothing (hnone : d.fab.mirrors = []) (v : Bool) : Becomes (.mirrorRecord t v) s (d.usePorts [7]) := by
  have htake : d.takeMirror = none := by
    unfold Dev.takeMirror
    rw [hnone]
  refine becomes h (by unfold exec execMirrorRecord State.portCmd; rfl) rfl ?_
  simp only [htake, ite_self]

variable (hon : d.memoryOn 7 = true)
include hon

/-- What the recorder does with the oldest copy. -/
theorem mirrorRecord_becomes {f : Frame} {l : List Frame} (hfirst : d.fab.mirrors = f :: l) (v : Bool) {x : Dev}
    (hx : (if v = true then (d.fabUpd fun x => { x with mirrors := l }).inc64 0xD000 0x05
      else (d.fabUpd fun x => { x with mirrors := l }).record { lt := f.stamp, member := f.smem, port := f.sport, rule := f.rule.getD 0xFFFF, length := f.len, oversize := f.oversize, seq := 0, bytes := f.data }) = x) :
    Becomes (.mirrorRecord t v) s (x.usePorts [7]) := by
  have htake : d.takeMirror = some (f, d.fabUpd fun x => { x with mirrors := l }) := by
    unfold Dev.takeMirror
    rw [hfirst]
  refine becomes h (by unfold exec execMirrorRecord State.portCmd; rfl) rfl ?_
  simp only [hon, not_true_eq_false, if_false, htake]
  exact congrArg (fun y : Dev => y.usePorts [7]) hx

theorem mirrorRecord_writes {f : Frame} {l : List Frame} (hfirst : d.fab.mirrors = f :: l) (hrec : d.flag 0xD000 0x01 = true) (hst : d.obj 0xD020 0x05 = 1) :
    Completes (.mirrorRecord t false) s fun x => x.fab.mirrors = l ∧ x.obj 0xD020 0x07 = d.integ.nextRec ∧ x.integ.nextRec = d.integ.nextRec + 1 ∧ x.obj 0xD000 0x04 = (d.obj 0xD000 0x04 + 1) % 2 ^ 64 ∧
      (32 + 2048 ≤ d.obj 0xD000 0x06 * 1024 - 64 → f.data.length ≤ 2048 → (x.integ.ring.head?).map (fun r => (r.lt, r.member, r.port, r.rule, r.length, r.seq, r.bytes)) =
        some (f.stamp, f.smem, f.sport, f.rule.getD 0xFFFF, f.len, d.integ.nextRec, f.data.take (d.obj 0xD020 0x02))) := by
  obtain ⟨x, hx, hfab, hseq, hnext, hcount, hring⟩ := record_runs (d.fabUpd fun x => { x with mirrors := l })
    { lt := f.stamp, member := f.smem, port := f.sport, rule := f.rule.getD 0xFFFF, length := f.len, oversize := f.oversize, seq := 0, bytes := f.data } hrec hst
  refine ⟨_, mirrorRecord_becomes h hon hfirst false ((if_neg Bool.false_ne_true).trans hx), congrArg (·.mirrors) hfab, hseq, hnext, hcount, fun hroom hshort => ?_⟩
  have hfits : (f.data.take (d.obj 0xD020 0x02)).length ≤ 2048 := (List.length_take_le' _ _).trans hshort
  have hhead := ringFit_newest d.integ.ring ((RecFrame.size_le (r := { lt := f.stamp, member := f.smem, port := f.sport, rule := f.rule.getD 0xFFFF, length := f.len, oversize := f.oversize, seq := d.integ.nextRec, bytes := f.data.take (d.obj 0xD020 0x02) }) hfits).trans
    (show 2048 + 95 ≤ d.obj 0xD000 0x06 * 1024 by omega))
  exact congrArg _ ((congrArg List.head? hring).trans hhead)

end

/-! The replay (R473). -/

section
variable {s : State} {t : Nat} {d : Dev} (h : s.Tick t d)
include h

theorem replay_starts {q : Request} {o : ObjRow} (hw : d.takesWrite q o .replayStart 0 = true) (hi : recIndex q.bytes = 0xD021) (hj : recSub q.bytes = 0x04) :
    Completes (.replayStart t) s (d.Wrote q o fun y => y.integUpd fun x => { x with replay := some { next := d.obj 0xD021 0x01, port := q.value, left := d.obj 0xD021 0x05 } }) := by
  refine wrote h hw (by unfold exec; rfl) _ _ hi hj (by omega) (by omega) (by omega) (by omega) ?_
  have hobj (j : Nat) (hj : j < 256) : (d.writeBase q o).obj 0xD021 j = d.obj 0xD021 j := writeBase_obj _ _ _ _ _ _ _ (by omega) hj (by omega) (by omega)
  rw [← hobj 0x01 (by omega), ← hobj 0x05 (by omega)]
  exact rfl

theorem replaySend_off (hoff : d.memoryOn 7 = false) : Becomes (.replayFrameSend t) s (d.usePorts [7]) := by
  refine becomes h (by unfold exec execReplayFrameSend State.portCmd; rfl) rfl ?_
  exact congrArg (fun y : Dev => y.usePorts [7]) (if_pos (by simp [hoff]))

theorem replaySend_idle (hidle : d.integ.replay = none) : Becomes (.replayFrameSend t) s (d.usePorts [7]) := by
  refine becomes h (by unfold exec execReplayFrameSend State.portCmd; rfl) rfl ?_
  simp only [hidle, ite_self]

variable (hon : d.memoryOn 7 = true) {p : Replay} (hrun : d.integ.replay = some p)
include hon hrun

/-- Without a record left the replay ends. -/
theorem replaySend_ends (hempty : d.integ.ring = []) : Becomes (.replayFrameSend t) s ((d.integUpd fun x => { x with replay := none }).usePorts [7]) := by
  refine becomes h (by unfold exec execReplayFrameSend State.portCmd; rfl) rfl ?_
  simp only [hon, not_true_eq_false, if_false, hrun, hempty, List.reverse_nil, List.filter_nil, List.head?_nil]

/-- The replay after its record `r` has left. -/
def Dev.replayed (d : Dev) (p : Replay) (r : RecFrame) : Dev :=
  (d.integUpd fun x => { x with replay := if p.left ≤ 1 then none else some { p with next := r.seq + 1, left := p.left - 1, lastOut := some (d.now, r.lt) } }).offerReplay p.port r.bytes

variable {r : RecFrame} {l : List RecFrame} (hring : d.integ.ring = l ++ [r]) (hnext : p.next ≤ r.seq) (hgood : r.lineError = false)
include hring hnext hgood

omit h hon hrun in
/-- The replay sends the oldest record that it has not passed. -/
theorem replay_nextRecord : (d.integ.ring.reverse.filter (fun x => decide (p.next ≤ x.seq) && !x.lineError)).head? = some r := by
  rw [hring, List.reverse_append, List.reverse_singleton, List.singleton_append, List.filter_cons_of_pos (by simp [hnext, hgood])]
  rfl

/-- The first record of a replay leaves at once. -/
theorem replaySend_first (hlast : p.lastOut = none) : Becomes (.replayFrameSend t) s ((d.replayed p r).usePorts [7]) := by
  refine becomes h (by unfold exec execReplayFrameSend State.portCmd; rfl) rfl ?_
  simp only [hon, not_true_eq_false, if_false, hrun, replay_nextRecord hring hnext hgood, hlast]
  exact rfl

/-- A later record leaves once its spacing from the one before has passed. -/
theorem replaySend_later {a b : Nat} (hlast : p.lastOut = some (a, b)) {x : Dev} (hx : (if a + (r.lt - b) ≤ d.now then d.replayed p r else d) = x) :
    Becomes (.replayFrameSend t) s (x.usePorts [7]) := by
  refine becomes h (by unfold exec execReplayFrameSend State.portCmd; rfl) rfl ?_
  simp only [hon, not_true_eq_false, if_false, hrun, replay_nextRecord hring hnext hgood, hlast, decide_eq_true_eq]
  exact congrArg (fun y : Dev => y.usePorts [7]) hx

end

/-- Settles O60: the frame recorder and the replay. -/
theorem recorderAndReplay : Obligations.RecorderAndReplay := by
  unfold Obligations.RecorderAndReplay
  refine fun s t d h => ⟨fun hoff v => ⟨mirrorRecord_off h hoff v, replaySend_off h hoff⟩, mirrorRecord_nothing h, fun hon f l hfirst => ⟨mirrorRecord_becomes h hon hfirst true (if_pos rfl), fun hrec => ?_, mirrorRecord_writes h hon hfirst⟩,
    fun c l => ⟨ringFit_sum c l, (ringFit_prefix c l).imp fun m hm => hm.symm⟩, fun q o hw hi hj => ?_, replaySend_idle h, fun p b => rfl, fun hon p r l hrun hring hnext hgood => ⟨fun hlast => ?_, fun a b hlast => ⟨fun hearly => ?_, fun hdue => ?_⟩⟩,
    fun hon p hrun => replaySend_ends h hon hrun⟩
  · refine mirrorRecord_becomes h hon hfirst false ((if_neg Bool.false_ne_true).trans (if_pos (.inl ?_)))
    rw [show (d.fabUpd fun x => { x with mirrors := l }).flag 0xD000 0x01 = false from hrec]
    exact Bool.false_ne_true
  · refine (replay_starts h hw hi hj).mono fun x hx => ⟨?_, hx.pairs.trans (writeBase_pairs d q o), fun hdirect => (hx.fab hdirect).trans (writeBase_fab d q o)⟩
    rw [hx.integ]
    exact rfl
  · exact replaySend_first h hon hrun hring hnext hgood hlast
  · exact replaySend_later h hon hrun hring hnext hgood hlast (if_neg (by omega))
  · exact replaySend_later h hon hrun hring hnext hgood hlast (if_pos hdue)

end Sys2Proof.Machine
